-- ==== Sys2Proof/Word.lean ====
section
/-!
DEFINITION. The word types of the FV7200 and their plainest arithmetic (spec/00_scope.md, Numbers, bits and bytes).
-/
namespace Sys2Proof

/-- A byte of memory. -/
abbrev Byte := BitVec 8

/-- A 64-bit word: a general register, an address while it is computed, a counter. -/
abbrev W64 := BitVec 64

/-- A 128-bit word: a short-vector register or the widest stream element. -/
abbrev W128 := BitVec 128

end Sys2Proof
end

