-- ==== Sys2Proof/Syntax.lean ====
section
/-!
DEFINITION. The commands of the block: one constructor of Instr for each row of spec/opcode_table.json, and the
plain data their operands are made of. The engine operand `e` of an instruction command is 0 to 511 for an engine
and 512 for the Steward's Sequencer (spec/01_organisation.md, R30). The operand `m` of a management command is the
crossbar master that makes the access (Table 1.2).
-/
namespace Sys2Proof

/-- What the checkers of an engine find while an instruction or a group executes: nothing, a residue mismatch that one
re-execution corrects, one that it does not, or a parity error of the engine's state (R279, R280, R282, R409). -/
inductive Check where
  /-- no mismatch -/
  | good
  /-- a residue mismatch; the re-execution matches -/
  | once
  /-- a residue mismatch; the re-execution mismatches too -/
  | twice
  /-- a parity error in the engine's control state or register files -/
  | parity
deriving DecidableEq, Repr

/-- The prefix bytes of an instruction in the order they stand, its extension bytes as one number (R79, R80), and
what the engine's checkers find while it executes. -/
structure Pfx where
  bytes : List Byte
  ext : W64
  chk : Check
deriving DecidableEq, Repr

/-- An instruction without prefix bytes, on hardware without a fault. -/
def Pfx.plain : Pfx := ⟨[], 0, .good⟩

/-- Operand field of row 0x1 (Table 3.7). -/
structure FmtG where
  g : BitVec 5
  sub : BitVec 3
deriving DecidableEq, Repr

/-- Operand field of rows 0x2, 0x3, 0x9 and 0xA (Table 3.7); `z` is bit 0, which must be 0. -/
structure FmtR where
  d : BitVec 5
  a : BitVec 5
  b : BitVec 5
  z : BitVec 1
deriving DecidableEq, Repr

/-- Operand field of rows 0x4, 0x5, 0x6 and 0xB (Table 3.7); in row 0x6 `d` is the register T. -/
structure FmtI where
  d : BitVec 5
  a : BitVec 5
  imm : BitVec 14
deriving DecidableEq, Repr

/-- Operand field of row 0x7 (Table 3.7). -/
structure FmtX where
  t : BitVec 5
  a : BitVec 5
  b : BitVec 5
  mode : BitVec 3
  sc : BitVec 2
  imm : BitVec 12
deriving DecidableEq, Repr

/-- Operand field of row 0x8 (Table 3.7). -/
structure FmtB where
  an : BitVec 1
  disp : BitVec 23
deriving DecidableEq, Repr

/-- Operand field of rows 0xC and 0xD (Table 3.7); `z` is the field that must be 0. -/
structure FmtV where
  fn : BitVec 4
  d : BitVec 4
  a : BitVec 4
  b : BitVec 4
  m : BitVec 4
  et : BitVec 6
  z : BitVec 2
  opx : BitVec 28
deriving DecidableEq, Repr

/-- Eight 64-bit words: a submission record (Table 14.3), a 64-byte line or a predicate block. -/
structure Rec64 where
  w0 : W64
  w1 : W64
  w2 : W64
  w3 : W64
  w4 : W64
  w5 : W64
  w6 : W64
  w7 : W64
deriving DecidableEq, Repr

/-- The words of a Rec64 in ascending order of address. -/
def Rec64.words (r : Rec64) : List W64 := [r.w0, r.w1, r.w2, r.w3, r.w4, r.w5, r.w6, r.w7]

/-- What the error correction of a memory tier finds in one access (Table 9.7). -/
inductive Upset where
  /-- no error -/
  | clean
  /-- an error the code corrects -/
  | corrected
  /-- an error it only detects -/
  | uncorrectable
  /-- a parity error of the crossbar: the request is discarded (Table 12.5) -/
  | parity
deriving DecidableEq, Repr

/-- Outcome of the mod-3 residue check of an atomic adder (R289, R292). -/
inductive AdderCheck where
  /-- the residue matches -/
  | good
  /-- the second computation matches -/
  | once
  /-- the second computation mismatches too -/
  | twice
deriving DecidableEq, Repr

/-- The five walkers of an engine (R326). -/
inductive Walker where
  | fetch
  | scalar
  | load0
  | load1
  | store
deriving DecidableEq, Repr

/-- A capability frame of CAPS (Table 11.3); `posSizeLen` fields serve the pair port's check (R505). -/
structure CapsFrame where
  part : Nat
  ringid : BitVec 16
  port : Nat
  maxgen : Nat
  mingen : Nat
  digest : BitVec 32
  size : Nat
  lenUs : Nat
  role : Nat
deriving DecidableEq, Repr

/-- A Baton marker's fields (Table 11.11). `rxd` and `ttxf` are in 1/64 ns. -/
structure Marker where
  mv : Bool
  mhops : Nat
  master : Nat
  sender : Nat
  frame : Nat
  lap : Nat
  ttx : Nat
  ttxf : Nat
  rxd : Int
deriving DecidableEq, Repr

/-- A flit: the header fields of Table 11.4 and the 32 words of its body (R355). -/
structure Flit where
  kind : BitVec 3
  seq : BitVec 10
  ack : BitVec 10
  nak : BitVec 1
  crd : BitVec 12
  src : BitVec 5
  dst : BitVec 5
  cls : BitVec 2
  vc : BitVec 2
  laptag : BitVec 8
  hops : BitVec 5
  loop : BitVec 1
  eseq : BitVec 12
  dlen : BitVec 8
  sts : BitVec 2
  reqr : BitVec 10
  body : List W64
deriving DecidableEq, Repr

/-- A fault record, its four words (Table 12.7). -/
structure FaultRec where
  w0 : W64
  w1 : W64
  w2 : W64
  w3 : W64
deriving DecidableEq, Repr

/-- One entry of a READY report (Table 12.3). -/
structure ReadyEntry where
  src : Nat
  vc : Nat
  eseq : BitVec 12
deriving DecidableEq, Repr

/-- What Dawn meets outside the part: how the flash answers SFDP, which headers or copies fail to read, and the
outcome of the self-test (R492, R498, R529). -/
structure DawnOutcome where
  sfdpOk : Bool
  octal : Bool
  readErrA : Bool
  readErrB : Bool
  signatures : List (Nat × W64)
  badBanks : List Nat
deriving DecidableEq, Repr

/-- A DIMM as its SPD hub describes it (R295): an RDIMM of x4 devices with ECC, ten to a subchannel; device density in Gbit,
module capacity in GiB, physical ranks, devices in a stack, and the rated MT/s. -/
structure Dimm where
  rdimm : Bool
  gbit : Nat
  gib : Nat
  ranks : Nat
  stack : Nat
  rate : Nat
deriving DecidableEq, Repr

/-- What PREP finds on the board: the channels, devices and expanders that finished their step, the DIMMs read on each channel
(R295, R502, R503). `exp0` and `exp1` are the
expanders' capacities in units of 256 MiB, 0 for one that did not finish; `limit` says that PREP_LIMIT has passed; the last
three are the partner's bad-block map (R396), its channels, devices and expanders laid out as word 17 of Table 15.7. -/
structure PrepOutcome where
  ddrOk : BitVec 12
  dimms : List (Nat × List Dimm)
  ecsHigh : BitVec 12
  qdrOk : BitVec 4
  exp0 : Nat
  exp1 : Nat
  limit : Bool
  partnerEngines : List Nat
  partnerBanks : List Nat
  partnerBlocks : BitVec 18
deriving DecidableEq, Repr

/-- What a read of the Ledger finds (R41, R305): the places of the entries, or the rows, with an uncorrectable error, and whether
a corrected error was met. -/
structure LedgerRead where
  bad : List Nat
  ce : Bool
deriving DecidableEq, Repr

/-- What the debug port does in memory (R559): nothing yet, a read of `n` bytes at a DPA, or a write of the enabled bytes of the
64-byte line at a DPA. -/
inductive DbgOp where
  | select
  | read (dpa : BitVec 52) (n : Nat)
  | write (dpa : BitVec 52) (be : BitVec 64) (d : Rec64)
deriving DecidableEq, Repr

/-- The commands: one constructor for each row of spec/opcode_table.json. -/
inductive Instr where
  /-- REGISTER_WRITE (R7). -/
  | registerWrite (m : Nat) (off : Nat) (v : BitVec 32) (bytes : Nat)
  /-- RC_READ (R7). -/
  | rcRead (m : Nat) (off : Nat) (bytes : Nat)
  /-- LOW_HALF_READ (R13). -/
  | lowHalfRead (m : Nat) (off : Nat)
  /-- LOW_HALF_WRITE (R14). -/
  | lowHalfWrite (m : Nat) (off : Nat) (v : BitVec 32)
  /-- HIGH_HALF_WRITE (R14). -/
  | highHalfWrite (m : Nat) (off : Nat) (v : BitVec 32)
  /-- KICK (R31). -/
  | kick (m : Nat) (v : BitVec 32)
  /-- STEWARD_WATCHDOG (R31). -/
  | stewardWatchdog
  /-- LAP_BOUNDARY (R37). -/
  | lapBoundary
  /-- PREEMPTION_SWEEP (R37). -/
  | preemptionSweep (e : Nat) (found : LedgerRead)
  /-- PLACEMENT_RESTORE (R215). -/
  | placementRestore (e : Nat)
  /-- SQ_FETCH (R471). -/
  | sqFetch
  /-- SUBMIT (R51). -/
  | submit (r : Rec64) (ok : Bool)
  /-- COST_VECTOR_READ (R51). -/
  | costVectorRead (ue : Bool)
  /-- DECISION (R54). -/
  | decision (found : LedgerRead)
  /-- CANCEL (R61). -/
  | cancel
  /-- ENGINE_CYCLE_COUNTER_EXHAUSTED (R57). -/
  | engineCycleCounterExhausted (e : Nat)
  /-- OPEN_TASK (R60). -/
  | openTask (e : Nat)
  /-- BOOKING_MOVE (R64). -/
  | bookingMove (e : Nat)
  /-- STA_TT_INDEX (R73). -/
  | staTtIndex (m : Nat) (v : BitVec 32)
  /-- COMPLETE (R472). -/
  | complete (q : Nat)
  /-- ACCEPT (R472). -/
  | accept (q : Nat)
  /-- NOTICE (R483). -/
  | notice (q : Nat)
  /-- NOP (R111). -/
  | nop (e : Nat) (p : Pfx)
  /-- TEND (R39). -/
  | tend (e : Nat) (p : Pfx)
  /-- IFENCE (R140). -/
  | ifence (e : Nat) (p : Pfx)
  /-- BPFLUSH (R136). -/
  | bpflush (e : Nat) (p : Pfx)
  /-- BPBAR (R137). -/
  | bpbar (e : Nat) (p : Pfx)
  /-- BPALLOW (R137). -/
  | bpallow (e : Nat) (p : Pfx)
  /-- RFE (R159). -/
  | rfe (e : Nat) (p : Pfx)
  /-- RFX (R164). -/
  | rfx (e : Nat) (p : Pfx)
  /-- DSYNC (R107). -/
  | dsync (e : Nat) (p : Pfx)
  /-- TSYNC (R339). -/
  | tsync (e : Nat) (p : Pfx)
  /-- VWAIT (R107). -/
  | vwait (e : Nat) (p : Pfx)
  /-- BRK (R151). -/
  | brk (e : Nat) (p : Pfx)
  /-- LEXIT (R102). -/
  | lexit (e : Nat) (p : Pfx)
  /-- JR (R95). -/
  | jr (e : Nat) (p : Pfx) (f : FmtG)
  /-- JLR (R95). -/
  | jlr (e : Nat) (p : Pfx) (f : FmtG)
  /-- PUSH (R106). -/
  | push (e : Nat) (p : Pfx) (f : FmtG)
  /-- POP (R106). -/
  | pop (e : Nat) (p : Pfx) (f : FmtG)
  /-- TLBI (R336). -/
  | tlbi (e : Nat) (p : Pfx) (f : FmtG)
  /-- RDPKR (R111). -/
  | rdpkr (e : Nat) (p : Pfx) (f : FmtG)
  /-- WRPKR (R111). -/
  | wrpkr (e : Nat) (p : Pfx) (f : FmtG)
  /-- EVSIG (R436). -/
  | evsig (e : Nat) (p : Pfx) (f : FmtG)
  /-- WAITE (R111). -/
  | waite (e : Nat) (p : Pfx) (f : FmtG)
  /-- TIME (R112). -/
  | time (e : Nat) (p : Pfx) (f : FmtG)
  /-- LAPN (R111). -/
  | lapn (e : Nat) (p : Pfx) (f : FmtG)
  /-- ENID (R111). -/
  | enid (e : Nat) (p : Pfx) (f : FmtG)
  /-- LDSD (R106). -/
  | ldsd (e : Nat) (p : Pfx) (f : FmtG)
  /-- STSD (R106). -/
  | stsd (e : Nat) (p : Pfx) (f : FmtG)
  /-- ADD (R104). -/
  | add (e : Nat) (p : Pfx) (f : FmtR)
  /-- SUB (R104). -/
  | sub (e : Nat) (p : Pfx) (f : FmtR)
  /-- AND (R104). -/
  | and (e : Nat) (p : Pfx) (f : FmtR)
  /-- OR (R104). -/
  | or (e : Nat) (p : Pfx) (f : FmtR)
  /-- XOR (R104). -/
  | xor (e : Nat) (p : Pfx) (f : FmtR)
  /-- ANDN (R104). -/
  | andn (e : Nat) (p : Pfx) (f : FmtR)
  /-- SHL (R104). -/
  | shl (e : Nat) (p : Pfx) (f : FmtR)
  /-- SHR (R104). -/
  | shr (e : Nat) (p : Pfx) (f : FmtR)
  /-- SAR (R104). -/
  | sar (e : Nat) (p : Pfx) (f : FmtR)
  /-- ROL (R104). -/
  | rol (e : Nat) (p : Pfx) (f : FmtR)
  /-- MUL (R104). -/
  | mul (e : Nat) (p : Pfx) (f : FmtR)
  /-- MULH (R104). -/
  | mulh (e : Nat) (p : Pfx) (f : FmtR)
  /-- MULHU (R104). -/
  | mulhu (e : Nat) (p : Pfx) (f : FmtR)
  /-- DIV (R104). -/
  | div (e : Nat) (p : Pfx) (f : FmtR)
  /-- DIVU (R104). -/
  | divu (e : Nat) (p : Pfx) (f : FmtR)
  /-- REM (R104). -/
  | rem (e : Nat) (p : Pfx) (f : FmtR)
  /-- REMU (R104). -/
  | remu (e : Nat) (p : Pfx) (f : FmtR)
  /-- CMP (R104). -/
  | cmp (e : Nat) (p : Pfx) (f : FmtR)
  /-- MIN (R104). -/
  | min (e : Nat) (p : Pfx) (f : FmtR)
  /-- MAX (R104). -/
  | max (e : Nat) (p : Pfx) (f : FmtR)
  /-- MINU (R104). -/
  | minu (e : Nat) (p : Pfx) (f : FmtR)
  /-- MAXU (R104). -/
  | maxu (e : Nat) (p : Pfx) (f : FmtR)
  /-- SLT (R104). -/
  | slt (e : Nat) (p : Pfx) (f : FmtR)
  /-- SLTU (R104). -/
  | sltu (e : Nat) (p : Pfx) (f : FmtR)
  /-- MOV (R104). -/
  | mov (e : Nat) (p : Pfx) (f : FmtR)
  /-- CLZ (R104). -/
  | clz (e : Nat) (p : Pfx) (f : FmtR)
  /-- CTZ (R104). -/
  | ctz (e : Nat) (p : Pfx) (f : FmtR)
  /-- POPC (R104). -/
  | popc (e : Nat) (p : Pfx) (f : FmtR)
  /-- BSWAP (R104). -/
  | bswap (e : Nat) (p : Pfx) (f : FmtR)
  /-- SEXT (R104). -/
  | sext (e : Nat) (p : Pfx) (f : FmtR)
  /-- ZEXT (R104). -/
  | zext (e : Nat) (p : Pfx) (f : FmtR)
  /-- ADDC (R104). -/
  | addc (e : Nat) (p : Pfx) (f : FmtR)
  /-- ADDI (R104). -/
  | addi (e : Nat) (p : Pfx) (f : FmtI)
  /-- ANDI (R104). -/
  | andi (e : Nat) (p : Pfx) (f : FmtI)
  /-- ORI (R104). -/
  | ori (e : Nat) (p : Pfx) (f : FmtI)
  /-- XORI (R104). -/
  | xori (e : Nat) (p : Pfx) (f : FmtI)
  /-- SHLI (R104). -/
  | shli (e : Nat) (p : Pfx) (f : FmtI)
  /-- SHRI (R104). -/
  | shri (e : Nat) (p : Pfx) (f : FmtI)
  /-- SARI (R104). -/
  | sari (e : Nat) (p : Pfx) (f : FmtI)
  /-- ROLI (R104). -/
  | roli (e : Nat) (p : Pfx) (f : FmtI)
  /-- MULI (R104). -/
  | muli (e : Nat) (p : Pfx) (f : FmtI)
  /-- CMPI (R104). -/
  | cmpi (e : Nat) (p : Pfx) (f : FmtI)
  /-- SLTI (R104). -/
  | slti (e : Nat) (p : Pfx) (f : FmtI)
  /-- SLTIU (R104). -/
  | sltiu (e : Nat) (p : Pfx) (f : FmtI)
  /-- MOVI (R104). -/
  | movi (e : Nat) (p : Pfx) (f : FmtI)
  /-- TSTI (R104). -/
  | tsti (e : Nat) (p : Pfx) (f : FmtI)
  /-- LD (R106). -/
  | ld (e : Nat) (p : Pfx) (f : FmtI)
  /-- LDS (R106). -/
  | lds (e : Nat) (p : Pfx) (f : FmtI)
  /-- ST (R106). -/
  | st (e : Nat) (p : Pfx) (f : FmtI)
  /-- LDF (R106). -/
  | ldf (e : Nat) (p : Pfx) (f : FmtI)
  /-- STF (R106). -/
  | stf (e : Nat) (p : Pfx) (f : FmtI)
  /-- LDQ (R106). -/
  | ldq (e : Nat) (p : Pfx) (f : FmtI)
  /-- STQ (R106). -/
  | stq (e : Nat) (p : Pfx) (f : FmtI)
  /-- LEA (R106). -/
  | lea (e : Nat) (p : Pfx) (f : FmtI)
  /-- LDX (R106). -/
  | ldx (e : Nat) (p : Pfx) (f : FmtX)
  /-- LDSX (R106). -/
  | ldsx (e : Nat) (p : Pfx) (f : FmtX)
  /-- STX (R106). -/
  | stx (e : Nat) (p : Pfx) (f : FmtX)
  /-- LDFX (R106). -/
  | ldfx (e : Nat) (p : Pfx) (f : FmtX)
  /-- STFX (R106). -/
  | stfx (e : Nat) (p : Pfx) (f : FmtX)
  /-- LDQX (R106). -/
  | ldqx (e : Nat) (p : Pfx) (f : FmtX)
  /-- STQX (R106). -/
  | stqx (e : Nat) (p : Pfx) (f : FmtX)
  /-- LEAX (R106). -/
  | leax (e : Nat) (p : Pfx) (f : FmtX)
  /-- BEQ (R95). -/
  | beq (e : Nat) (p : Pfx) (f : FmtB)
  /-- BNE (R95). -/
  | bne (e : Nat) (p : Pfx) (f : FmtB)
  /-- BLT (R95). -/
  | blt (e : Nat) (p : Pfx) (f : FmtB)
  /-- BGE (R95). -/
  | bge (e : Nat) (p : Pfx) (f : FmtB)
  /-- BLE (R95). -/
  | ble (e : Nat) (p : Pfx) (f : FmtB)
  /-- BGT (R95). -/
  | bgt (e : Nat) (p : Pfx) (f : FmtB)
  /-- BLTU (R95). -/
  | bltu (e : Nat) (p : Pfx) (f : FmtB)
  /-- BGEU (R95). -/
  | bgeu (e : Nat) (p : Pfx) (f : FmtB)
  /-- BLEU (R95). -/
  | bleu (e : Nat) (p : Pfx) (f : FmtB)
  /-- BGTU (R95). -/
  | bgtu (e : Nat) (p : Pfx) (f : FmtB)
  /-- BVS (R95). -/
  | bvs (e : Nat) (p : Pfx) (f : FmtB)
  /-- BVC (R95). -/
  | bvc (e : Nat) (p : Pfx) (f : FmtB)
  /-- BMI (R95). -/
  | bmi (e : Nat) (p : Pfx) (f : FmtB)
  /-- BPL (R95). -/
  | bpl (e : Nat) (p : Pfx) (f : FmtB)
  /-- BAL (R95). -/
  | bal (e : Nat) (p : Pfx) (f : FmtB)
  /-- CALL (R95). -/
  | call (e : Nat) (p : Pfx) (f : FmtB)
  /-- FADD (R108). -/
  | fadd (e : Nat) (p : Pfx) (f : FmtR)
  /-- FSUB (R108). -/
  | fsub (e : Nat) (p : Pfx) (f : FmtR)
  /-- FMUL (R108). -/
  | fmul (e : Nat) (p : Pfx) (f : FmtR)
  /-- FDIV (R108). -/
  | fdiv (e : Nat) (p : Pfx) (f : FmtR)
  /-- FSQRT (R108). -/
  | fsqrt (e : Nat) (p : Pfx) (f : FmtR)
  /-- FMIN (R108). -/
  | fmin (e : Nat) (p : Pfx) (f : FmtR)
  /-- FMAX (R108). -/
  | fmax (e : Nat) (p : Pfx) (f : FmtR)
  /-- FCMP (R109). -/
  | fcmp (e : Nat) (p : Pfx) (f : FmtR)
  /-- FCVTFI (R270). -/
  | fcvtfi (e : Nat) (p : Pfx) (f : FmtR)
  /-- FCVTIF (R108). -/
  | fcvtif (e : Nat) (p : Pfx) (f : FmtR)
  /-- FNEG (R108). -/
  | fneg (e : Nat) (p : Pfx) (f : FmtR)
  /-- FABS (R108). -/
  | fabs (e : Nat) (p : Pfx) (f : FmtR)
  /-- FMOV (R108). -/
  | fmov (e : Nat) (p : Pfx) (f : FmtR)
  /-- FMVFG (R108). -/
  | fmvfg (e : Nat) (p : Pfx) (f : FmtR)
  /-- FMVGF (R108). -/
  | fmvgf (e : Nat) (p : Pfx) (f : FmtR)
  /-- FMA (R108). -/
  | fma (e : Nat) (p : Pfx) (f : FmtR)
  /-- QADD (R110). -/
  | qadd (e : Nat) (p : Pfx) (f : FmtR)
  /-- QSUB (R110). -/
  | qsub (e : Nat) (p : Pfx) (f : FmtR)
  /-- QMUL (R110). -/
  | qmul (e : Nat) (p : Pfx) (f : FmtR)
  /-- QAND (R110). -/
  | qand (e : Nat) (p : Pfx) (f : FmtR)
  /-- QOR (R110). -/
  | qor (e : Nat) (p : Pfx) (f : FmtR)
  /-- QXOR (R110). -/
  | qxor (e : Nat) (p : Pfx) (f : FmtR)
  /-- QMIN (R110). -/
  | qmin (e : Nat) (p : Pfx) (f : FmtR)
  /-- QMAX (R110). -/
  | qmax (e : Nat) (p : Pfx) (f : FmtR)
  /-- QMINU (R110). -/
  | qminu (e : Nat) (p : Pfx) (f : FmtR)
  /-- QMAXU (R110). -/
  | qmaxu (e : Nat) (p : Pfx) (f : FmtR)
  /-- QCEQ (R110). -/
  | qceq (e : Nat) (p : Pfx) (f : FmtR)
  /-- QCGT (R110). -/
  | qcgt (e : Nat) (p : Pfx) (f : FmtR)
  /-- QCGTU (R110). -/
  | qcgtu (e : Nat) (p : Pfx) (f : FmtR)
  /-- QSHUF (R110). -/
  | qshuf (e : Nat) (p : Pfx) (f : FmtR)
  /-- QFADD (R110). -/
  | qfadd (e : Nat) (p : Pfx) (f : FmtR)
  /-- QFMUL (R110). -/
  | qfmul (e : Nat) (p : Pfx) (f : FmtR)
  /-- MFS (R76). -/
  | mfs (e : Nat) (p : Pfx) (f : FmtI)
  /-- MTS (R76). -/
  | mts (e : Nat) (p : Pfx) (f : FmtI)
  /-- LOOP (R99). -/
  | loop (e : Nat) (p : Pfx) (f : FmtI)
  /-- LOOPI (R99). -/
  | loopi (e : Nat) (p : Pfx) (f : FmtI)
  /-- HOLD (R171). -/
  | hold (e : Nat) (p : Pfx) (f : FmtI)
  /-- TRAP (R111). -/
  | trap (e : Nat) (p : Pfx) (f : FmtI)
  /-- VMOV (R226). -/
  | vmov (e : Nat) (p : Pfx) (f : FmtV)
  /-- VALU (R226). -/
  | valu (e : Nat) (p : Pfx) (f : FmtV)
  /-- VMUL (R226). -/
  | vmul (e : Nat) (p : Pfx) (f : FmtV)
  /-- VDIV (R226). -/
  | vdiv (e : Nat) (p : Pfx) (f : FmtV)
  /-- VFP (R226). -/
  | vfp (e : Nat) (p : Pfx) (f : FmtV)
  /-- VCMP (R228). -/
  | vcmp (e : Nat) (p : Pfx) (f : FmtV)
  /-- VCOMP (R230). -/
  | vcomp (e : Nat) (p : Pfx) (f : FmtV)
  /-- VEXP (R231). -/
  | vexp (e : Nat) (p : Pfx) (f : FmtV)
  /-- VSCAN (R233). -/
  | vscan (e : Nat) (p : Pfx) (f : FmtV)
  /-- VSEGR (R235). -/
  | vsegr (e : Nat) (p : Pfx) (f : FmtV)
  /-- VRED (R234). -/
  | vred (e : Nat) (p : Pfx) (f : FmtV)
  /-- VHASH (R239). -/
  | vhash (e : Nat) (p : Pfx) (f : FmtV)
  /-- VPROBE (R241). -/
  | vprobe (e : Nat) (p : Pfx) (f : FmtV)
  /-- VSCADD (R244). -/
  | vscadd (e : Nat) (p : Pfx) (f : FmtV)
  /-- VSCSWP (R245). -/
  | vscswp (e : Nat) (p : Pfx) (f : FmtV)
  /-- VMERGE (R250). -/
  | vmerge (e : Nat) (p : Pfx) (f : FmtV)
  /-- VSORT (R251). -/
  | vsort (e : Nat) (p : Pfx) (f : FmtV)
  /-- VKCMP (R229). -/
  | vkcmp (e : Nat) (p : Pfx) (f : FmtV)
  /-- VDADD (R277). -/
  | vdadd (e : Nat) (p : Pfx) (f : FmtV)
  /-- VDSUB (R277). -/
  | vdsub (e : Nat) (p : Pfx) (f : FmtV)
  /-- VCVT (R227). -/
  | vcvt (e : Nat) (p : Pfx) (f : FmtV)
  /-- ENGINE_HANG (R410). -/
  | engineHang (e : Nat) (stopped : Bool)
  /-- FETCH (R126). -/
  | fetch (e : Nat) (btbUe : Bool)
  /-- EXCEPTION_ENTRY (R156). -/
  | exceptionEntry (e : Nat) (vec : Nat) (detail : Nat) (faddr : BitVec 64)
  /-- INTERRUPT (R167). -/
  | interrupt (e : Nat)
  /-- ERROR (R173). -/
  | error (e : Nat)
  /-- HOLDCNT_ZERO (R171). -/
  | holdcntZero (e : Nat)
  /-- POISON_WRITE (R173). -/
  | poisonWrite (e : Nat) (va : BitVec 64)
  /-- GROUP (R194). -/
  | group (e : Nat) (tag : Nat) (chk : Check)
  /-- STREAM_REQUEST (R191). -/
  | streamRequest (e : Nat) (tag : Nat) (sreg : Nat)
  /-- BEAT (R190). -/
  | beat (e : Nat) (tag : Nat) (sreg : Nat) (upset : Upset)
  /-- SUB_BANK_GRANT (R288). -/
  | subBankGrant (bank : Nat) (sub : Nat) (upset : Upset)
  /-- ATOMIC (R289). -/
  | atomic (bank : Nat) (upset : Upset) (adder : AdderCheck)
  /-- LINE_SLOT (R291). -/
  | lineSlot (dev : Nat) (upset : Upset) (adder : AdderCheck)
  /-- GRANULE (R297). -/
  | granule (ch : Nat) (upset : Upset) (parityRetryFails : Bool)
  /-- MAINTENANCE_WINDOW (R298). -/
  | maintenanceWindow (ch : Nat) (retrained : Bool) (upset : Upset)
  /-- WRITE_BACK (R307). -/
  | writeBack (word : Nat)
  /-- EXPANDER_RESPONSE (R304). -/
  | expanderResponse (port : Nat) (late : Bool) (poison : Bool)
  /-- EXPANDER_TIMEOUT (R304). -/
  | expanderTimeout (port : Nat)
  /-- WALK (R324). -/
  | walk (e : Nat) (va : BitVec 64) (kind : Walker) (tlbUe : Bool)
  /-- TRAINING_ATTEMPT (R351). -/
  | trainingAttempt (p : Nat)
  /-- DETECT (R351). -/
  | detect (p : Nat) (locked : BitVec 16) (inverted : BitVec 16)
  /-- CAPS (R352). -/
  | caps (p : Nat) (f : CapsFrame) (intime : Bool)
  /-- EQ (R350). -/
  | eq (p : Nat)
  /-- CHECK (R351). -/
  | check (p : Nat) (biterror : Bool)
  /-- ALIGN (R351). -/
  | align (p : Nat) (ok : Bool) (delay : BitVec 16)
  /-- FRAME (R354). -/
  | frame (p : Nat)
  /-- BATON (R375). -/
  | baton (p : Nat) (k : Marker) (crcOk : Bool) (rxd : Int)
  /-- HOLDOVER (R376). -/
  | holdover
  /-- CELL (R361). -/
  | cell (p : Nat) (c : Nat)
  /-- IDLE (R355). -/
  | idle (p : Nat) (f : Flit) (crc : BitVec 32)
  /-- PKT (R366). -/
  | pkt (p : Nat) (f : Flit) (crc : BitVec 32)
  /-- DATA (R368). -/
  | data (p : Nat) (f : Flit) (crc : BitVec 32)
  /-- ACK (R371). -/
  | ack (p : Nat) (f : Flit) (crc : BitVec 32)
  /-- LINK_DOWN (R377). -/
  | linkDown (p : Nat)
  /-- RETRAIN (R355). -/
  | retrain (p : Nat)
  /-- REPLAY_TIMEOUT (R356). -/
  | replayTimeout (p : Nat)
  /-- RD (R367). -/
  | rd
  /-- WR (R367). -/
  | wr
  /-- WRL (R367). -/
  | wrl
  /-- AT (R367). -/
  | atPkt
  /-- PRED (R369). -/
  | pred
  /-- EVT (R446). -/
  | evt
  /-- TLBI_MSG (R338). -/
  | tlbiMsg
  /-- FLT (R421). -/
  | flt (r : FaultRec) (received : Bool)
  /-- BREAK (R379). -/
  | breakMsg
  /-- JOIN (R384). -/
  | join
  /-- SCALE (R63). -/
  | scale
  /-- DONE (R376). -/
  | doneMsg
  /-- RESEND (R371). -/
  | resend (dst : Nat) (vc : Nat)
  /-- LOSS_OF_SIGNAL (R377). -/
  | lossOfSignal (p : Nat)
  /-- DRAIN_HOLD_END (R380). -/
  | drainHoldEnd
  /-- BYPASS_CLOSE (R383). -/
  | bypassClose
  /-- BYPASS_OPEN (R383). -/
  | bypassOpen
  /-- HOSTCMD (R397). -/
  | hostcmd (lap : Nat) (order : Nat) (r : Rec64)
  /-- HOSTWR (R397). -/
  | hostwr (lap : Nat) (line : Nat) (isRead : Bool) (be : BitVec 64) (d : Rec64)
  /-- REGWR (R397). -/
  | regwr (lap : Nat) (off : Nat) (v : BitVec 32)
  /-- EVENTS (R447). -/
  | events (lap : Nat) (flags : BitVec 256)
  /-- LAPEND (R397). -/
  | lapend (lap : Nat) (count : Nat)
  /-- POSTED (R399). -/
  | posted (tti : Nat) (sq : Nat) (cid : Nat)
  /-- READY (R400). -/
  | ready (lap : Nat) (entries : List ReadyEntry)
  /-- TENDD (R407). -/
  | tendd (tti : Nat) (epoch : Nat) (eng : Nat) (digest : BitVec 64)
  /-- LAPDIG (R406). -/
  | lapdig (lap : Nat) (part : BitVec 64) (engines : List (BitVec 64))
  /-- FENCE (R412). -/
  | fence (r : FaultRec)
  /-- RELEASE (R397). -/
  | release
  /-- HANDOFF (R412). -/
  | handoff
  /-- FENCE_END (R416). -/
  | fenceEnd (part : Nat) (epoch : Nat)
  /-- RE_RUN (R418). -/
  | reRun (tti : Nat)
  /-- FLT_POP (R422). -/
  | fltPop (m : Nat) (v : BitVec 32)
  /-- PAIR_REJOIN (R425). -/
  | pairRejoin (m : Nat) (v : BitVec 64)
  /-- REJOIN (R425). -/
  | rejoin (allSynced : Bool)
  /-- PULSE (R431). -/
  | pulse (c : Nat) (code : Nat) (at_ : Nat)
  /-- EVT_FIRE (R438). -/
  | evtFire (m : Nat) (v : BitVec 32) (at_ : Nat)
  /-- DOM (R445). -/
  | dom (m : Nat) (v : BitVec 32) (at_ : Nat)
  /-- EVT_FLAG (R438). -/
  | evtFlag (m : Nat) (k : Nat) (v : BitVec 32)
  /-- EVT_GROUP_EN (R435). -/
  | evtGroupEn (m : Nat) (v : BitVec 32) (on : BitVec 16) (off : BitVec 16)
  /-- CLOSED (R444). -/
  | closed (m : Nat) (c : Nat)
  /-- COMPARE (R449). -/
  | compare (k : Nat)
  /-- CMP_VALUE (R450). -/
  | cmpValue (m : Nat) (k : Nat) (hi : BitVec 32)
  /-- CMP_CTL (R450). -/
  | cmpCtl (m : Nat) (k : Nat) (v : BitVec 32)
  /-- ZERO (R451). -/
  | zero (j : Nat)
  /-- MATCH (R451). -/
  | matchEvt (j : Nat)
  /-- START (R452). -/
  | start (j : Nat)
  /-- STOP (R452). -/
  | stop (j : Nat)
  /-- RESET (R452). -/
  | reset (j : Nat)
  /-- LOADNOW (R454). -/
  | loadnow (j : Nat)
  /-- CDT_COUNT (R454). -/
  | cdtCount (m : Nat) (j : Nat) (v : BitVec 32)
  /-- PIN (R456). -/
  | pin (i : Nat) (level : Bool) (stamp : Nat)
  /-- STUCK (R457). -/
  | stuck (i : Nat)
  /-- HOST_SQ_TAIL (R476). -/
  | hostSqTail (m : Nat) (q : Nat) (v : BitVec 32)
  /-- HOST_CQ_HEAD (R476). -/
  | hostCqHead (m : Nat) (q : Nat) (v : BitVec 32)
  /-- HOST_SQ_CFG (R477). -/
  | hostSqCfg (m : Nat) (q : Nat) (v : BitVec 32)
  /-- HOST_CQ_CFG (R477). -/
  | hostCqCfg (m : Nat) (q : Nat) (v : BitVec 32)
  /-- PURGE (R477). -/
  | purge (m : Nat) (q : Nat)
  /-- CXL_MEM_READ (R481). -/
  | cxlMemRead (hpa : Nat) (n : Nat)
  /-- CXL_MEM_WRITE (R481). -/
  | cxlMemWrite (hpa : Nat) (be : BitVec 64) (d : Rec64)
  /-- COMMIT (R480). -/
  | commit (n : Nat) (base : Nat) (size : Nat) (skip : Nat)
  /-- HOST_LINK_DOWN (R484). -/
  | hostLinkDown
  /-- HOT_RESET (R484). -/
  | hotReset
  /-- PERST_N (R484). -/
  | perstN
  /-- FUNCTION_LEVEL_RESET (R484). -/
  | functionLevelReset
  /-- D3HOT (R465). -/
  | d3hot
  /-- ENTER_DUSK (R485). -/
  | enterDusk
  /-- ENTER_SERVICE (R532). -/
  | enterService
  /-- FAULT_READ (R485). -/
  | faultRead
  /-- KEEP_READ (R485). -/
  | keepRead
  /-- UNSUPPORTED (R485). -/
  | unsupported
  /-- POWER_ON (R490). -/
  | powerOn (ord14 : Bool)
  /-- VDD_CORE_REMOVED (R490). -/
  | vddCoreRemoved (keepRail : Bool)
  /-- RESET_N_ASSERTED (R490). -/
  | resetNAsserted
  /-- PGOOD (R575). -/
  | pgood (level : Bool)
  /-- RESET_N_RELEASED (R575). -/
  | resetNReleased
  /-- DAWN (R498). -/
  | dawn (o : DawnOutcome)
  /-- PREP_COMPLETE (R503). -/
  | prepComplete (o : PrepOutcome)
  /-- MODE_TRANSITION (R491). -/
  | modeTransition
  /-- REDAWN (R515). -/
  | redawn (m : Nat) (v : BitVec 32)
  /-- REPLAY (R515). -/
  | replay (m : Nat) (v : BitVec 32)
  /-- READ (R516). -/
  | flashRead (m : Nat)
  /-- PROGRAM (R516). -/
  | flashProgram (m : Nat)
  /-- ERASE (R516). -/
  | flashErase (m : Nat)
  /-- KEEP_REG (R509). -/
  | keepReg (m : Nat) (i : Nat) (hi : BitVec 32) (verified : Bool)
  /-- POST (R523). -/
  | post
  /-- TEST (R525). -/
  | test (signatures : List (Nat × BitVec 64)) (badBanks : List Nat)
  /-- RECORD (R531). -/
  | record
  /-- TO_HOLD (R531). -/
  | toHold
  /-- STATE_CHOICE (R537). -/
  | stateChoice (c : Nat)
  /-- WAKE (R537). -/
  | wake (c : Nat)
  /-- EARLY_WAKE (R539). -/
  | earlyWake (c : Nat)
  /-- WARNING (R543). -/
  | warning (rail : Nat)
  /-- WARNING_END (R542). -/
  | warningEnd (rail : Nat)
  /-- SUPPLY_RESET (R544). -/
  | supplyReset (rails : BitVec 8)
  /-- SUPPLY_RECOVERY (R544). -/
  | supplyRecovery
  /-- CLOCK_LOSS (R574). -/
  | clockLoss (ring : Bool)
  /-- THERMAL_WARNING (R580). -/
  | thermalWarning (sensor : Nat) (reading : BitVec 12)
  /-- TRIP (R580). -/
  | trip (sensor : Nat) (reading : BitVec 12)
  /-- BLOCK_WRITE (R552). -/
  | blockWrite
  /-- LOG_ENTRY (R554). -/
  | logEntry
  /-- FREEZE (R558). -/
  | freeze (m : Nat) (v : BitVec 32)
  /-- EXTEST (R583). -/
  | extest
  /-- SAMPLE_PRELOAD (R582). -/
  | samplePreload (cells : List Bool)
  /-- IDCODE (R582). -/
  | idcode
  /-- CLAMP (R583). -/
  | clamp
  /-- HIGHZ (R583). -/
  | highz
  /-- EXTEST_PULSE (R583). -/
  | extestPulse
  /-- EXTEST_TRAIN (R583). -/
  | extestTrain
  /-- DBG_ACCESS (R559): without an operand, the instruction selects the port and nothing more. -/
  | dbgAccess (x : DbgOp := .select)
  /-- BYPASS (R582). -/
  | bypass
  /-- TRST_N (R583). -/
  | trstN
  /-- CLOCK_RECOVERY (R574). -/
  | clockRecovery
  /-- THERMAL_WARNING_END (R580). -/
  | thermalWarningEnd
  /-- HOST_LINK_UP (R484). -/
  | hostLinkUp (speed : Nat) (width : Nat) (cxl : Nat)
  /-- D0 (R465). -/
  | d0
  /-- MSI_X_UNMASK (R474). -/
  | msiXUnmask (vec : Nat)
  /-- FLASH_COMMAND_END (R516). -/
  | flashCommandEnd (ok : Bool)
  /-- EQ_TIMEOUT (R351). -/
  | eqTimeout (p : Nat)
deriving DecidableEq, Repr

end Sys2Proof
end

