-- ==== Sys2Proof/Machine/SMap.lean ====
section
/-!
DEFINITION. Sparse maps from numbers to values, kept in one canonical form: keys strictly rising, and no entry equal
to the value an unlisted key has. Memory, register files and every other sparse store of the state are of this form.
-/
namespace Sys2Proof.Machine

/-- A sparse map: listed keys with their values. -/
abbrev SMap (α : Type) := List (Nat × α)

/-- The value at key `k`; `d` where `k` is not listed. -/
def SMap.get {α : Type} (d : α) (m : SMap α) (k : Nat) : α :=
  match m with
  | [] => d
  | (j, v) :: t => if j = k then v else SMap.get d t k

/-- Insert or replace the entry of key `k`, keeping the order. -/
def SMap.ins {α : Type} (m : SMap α) (k : Nat) (v : α) : SMap α :=
  match m with
  | [] => [(k, v)]
  | (j, w) :: t =>
    if k < j then (k, v) :: (j, w) :: t
    else if k = j then (k, v) :: t
    else (j, w) :: SMap.ins t k v

/-- Write value `v` at key `k`; writing the default `d` removes the entry. -/
def SMap.set {α : Type} [DecidableEq α] (d : α) (m : SMap α) (k : Nat) (v : α) : SMap α :=
  if v = d then m.filter (fun p => p.1 ≠ k) else SMap.ins m k v

/-- Apply `f` to the value at key `k`. -/
def SMap.upd {α : Type} [DecidableEq α] (d : α) (m : SMap α) (k : Nat) (f : α → α) : SMap α :=
  SMap.set d m k (f (SMap.get d m k))

/-- Apply `f` to every listed entry; an entry that becomes the default `d` goes. -/
def SMap.remap {α β : Type} [DecidableEq β] (d : β) (f : Nat → α → β) (m : SMap α) : SMap β :=
  match m with
  | [] => []
  | (k, v) :: t => SMap.set d (SMap.remap d f t) k (f k v)

/-- The canonical form: keys strictly rising, no default listed. -/
abbrev SMap.wf {α : Type} (d : α) (m : SMap α) : Prop :=
  m.Pairwise (fun p q => p.1 < q.1) ∧ ∀ p ∈ m, p.2 ≠ d

end Sys2Proof.Machine
end

