-- ==== Sys2Proof/Machine/State.lean ====
section
/-!
DEFINITION. The state of the part as plain data: every register, buffer, queue, counter, mode and pin that the spec
gives it, the queue of waiting commands, and the state right after reset.
-/
namespace Sys2Proof.Machine

/-- The operating modes (Table 0.3). -/
inductive Mode where
  | off | hold | dawn | prep | solo | ring | lead | trail | degraded | replay | dusk | service
deriving DecidableEq, Repr

/-- A pending delay slot: the branch's outcome and target, and whether the slot is annulled (R96, R594). -/
structure DSlot where
  taken : Bool
  annul : Bool
  target : W64
deriving DecidableEq, Repr

/-- An entry of the engine's error queue (R173); `tick` is the Time Base when it began or came back from a save area, by
which the sample of cycle 1,024 knows it (R168). -/
structure ErrEntry where
  cls : Nat
  addr : W64
  count : Nat
  tick : Nat
deriving DecidableEq, Repr

/-- A 32-byte stream descriptor (Table 6.1). -/
structure Desc where
  w0 : W64
  w1 : W64
  w2 : W64
  w3 : W64
deriving DecidableEq, Repr

/-- The placement state of Table 5.11: all that a program of an engine can see of its registers. `g` holds G0 to
G30, `g31u` and `g31s` the two banks of G31. -/
structure Arch where
  pc : W64
  ds : Option DSlot
  g : SMap W64
  g31u : W64
  g31s : W64
  q : SMap W128
  psr : W64
  flags : W64
  pkr : BitVec 32
  ctxid : BitVec 16
  ttb : W64
  evec : W64
  esp : W64
  holdcnt : BitVec 32
  vstate : W64
  ls : SMap W64
  le : SMap W64
  lc : SMap W64
  str : SMap Desc
  errq : List ErrEntry
  escact : Bool
  erract : Bool
deriving DecidableEq, Repr

/-- The descriptor of a stream register after reset (R184). -/
def Desc.zero : Desc := ⟨0, 0, 0, 0⟩

/-- The values of the first dispatch of R470, and of reset: PSR.PRIV is 1, ESP is 0x4_0000, all else is 0. -/
def Arch.init : Arch :=
  { pc := 0, ds := none, g := [], g31u := 0, g31s := 0, q := [], psr := 1, flags := 0, pkr := 0, ctxid := 0,
    ttb := 0, evec := 0, esp := 0x40000, holdcnt := 0, vstate := 0, ls := [], le := [], lc := [], str := [],
    errq := [], escact := false, erract := false }

/-- Budget counters of one part entry (R56); `present` is false for a part the cost vector does not name. -/
structure PartBudget where
  present : Bool
  bulk : Nat
  dir : Nat
  cxl : Nat
  ring : Nat
deriving DecidableEq, Repr

def PartBudget.none : PartBudget := ⟨false, 0, 0, 0, 0⟩

/-- The budget counters that an engine loads at dispatch (R56). -/
structure Budget where
  cyc : Nat
  hb : Nat
  parts : SMap PartBudget
deriving DecidableEq, Repr

/-- A part entry of a cost vector (Table 2.4). -/
structure CvEntry where
  part : Nat
  ring : Nat
  bulk : Nat
  dir : Nat
  cxl : Nat
  rsvdOk : Bool
deriving DecidableEq, Repr

/-- A cost vector (Table 2.3). -/
structure CostVec where
  version : Nat
  cls : Nat
  restart : Bool
  rsvdOk : Bool
  span : Nat
  deadline : Nat
  place : Nat
  placeId : Nat
  npart : Nat
  hb : Nat
  cyc : Nat
  parts : List CvEntry
deriving DecidableEq, Repr

def CostVec.zero : CostVec := ⟨0, 0, false, true, 0, 0, 0, 0, 0, 0, 0, []⟩

/-- The placement an engine runs: its Task, row, class, epoch, budgets, cycles used, whether its state has been loaded,
and its save area (R56, Table 5.2). -/
structure Placement where
  tti : Nat
  lap : Nat
  isOpen : Bool
  epoch : Nat
  budget : Budget
  cyc : Nat
  restored : Bool
  save : Nat
deriving DecidableEq, Repr

/-- A TLB slot (R332): virtual range, tag, DPA base and attributes; `seq` orders fills. -/
structure Slot where
  vbase : Nat
  log2 : Nat
  ctx : BitVec 16
  g : Bool
  w : Bool
  x : Bool
  u : Bool
  key : BitVec 4
  oa : Nat
  seq : Nat
deriving DecidableEq, Repr

/-- A branch target buffer entry (R133). -/
structure BtbEntry where
  tag : Nat
  target : W64
  ctr : Nat
deriving DecidableEq, Repr

/-- A fetched 16-byte word (R126). -/
structure FWord where
  addr : W64
  bits : W128
deriving DecidableEq, Repr

/-- The loop buffer (R129, R130): the level it belongs to, whether it still captures, and the instructions held. -/
structure LoopBuf where
  level : Nat
  capturing : Bool
  count : Nat
deriving DecidableEq, Repr

/-- A scalar load waiting for a response of another part. `file` is 0 for G, 1 for F, 2 for Q, 3 for a stream. -/
structure PendLoad where
  dpa : Nat
  va : W64
  size : Nat
  sext : Bool
  file : Nat
  reg : Nat
  upd : Option (Nat × W64)
  len : Nat
deriving DecidableEq, Repr

/-- The progress of a long-vector instruction at one of its results: the input positions taken, the INDEX after the
input elements that the result derives from, by operand code (counted from 0 for a chain slot), the results delivered
to D, and the carried value (R201, R211, R212). -/
structure Snap where
  n : Nat
  pos : SMap Nat
  wd : Nat
  carry : W64
deriving DecidableEq, Repr

/-- One element waiting in a stream's buffer: its value, its index in the stream, its address, whether it qualified
(R192) and the vector and detail of the exception it raises when it is reached (R209). -/
structure Elem where
  val : W128
  idx : Nat
  va : W64
  qual : Bool
  fault : Option (Nat × Nat)
deriving DecidableEq, Repr

/-- An element requested and not yet delivered: its index, address, the DPAs and lengths of its pieces, the bytes
of the request that its delivery answers, and the exception that it raises. -/
structure Want where
  idx : Nat
  va : Nat
  pieces : List (Nat × Nat)
  sz : Nat
  fault : Option (Nat × Nat)
deriving DecidableEq, Repr

/-- The load side of one stream of an instruction in flight: the next element to request, bytes unanswered, the
elements requested and not delivered, the elements delivered and not yet taken, the answers from outside the part
(DPA, status, bytes) not yet used, one more than the unit that the latest request touched, and the bytes of requests
that no element answers yet. -/
structure StreamBuf where
  reqTo : Nat
  outB : Nat
  want : List Want
  elems : List Elem
  lines : List (Nat × Nat × List Byte)
  lastU : Nat
  loose : Nat
deriving DecidableEq, Repr

/-- A buffer before the instruction has requested anything. -/
def StreamBuf.empty : StreamBuf := ⟨0, 0, [], [], [], 0, 0⟩

/-- An element in a chain slot, or one of a sort block: its value, what it derives from, as the progress of each
instruction of its chain group by tag (R201), and the sticky bits of FLAGS that its writing sets (R224). -/
structure ChainElem where
  val : W128
  der : List (Nat × Snap)
  fl : W64
deriving DecidableEq, Repr

/-- A long-vector instruction that holds a tag (R122, R123): its encoding, the values taken at stage 4, its progress
and its carried value. `limit` is the number of elements that its override or record allows (R114), `taken` counts input
positions, `made` results; `pos` gives the next INDEX of each input; `snap` is the progress at the last result that counts
as written, `hold` what the carried value derives from in other instructions (R211), and `full` the progress at which D
was found full, while it is still to be seen whether inputs remain that would give results (R181). `block`, `blkSnap` and
`blkOut` are VSORT's open block, the progress before it, and its results already delivered; `wUnit` and `wBooked` the unit
that the group being stored has been charged for; `bitAt` the byte of another part that it has last written a BIT to.
`resumed` marks an instruction that comes from a resume record. -/
structure VInst where
  tag : Nat
  opc : Nat
  opf : BitVec 56
  limit : Option Nat
  acc : W128
  pc : W64
  user : Bool
  pkr : BitVec 32
  ctxid : BitVec 16
  ttb : W64
  flags : W64
  ove : Bool
  die : Bool
  scalar : W128
  seed : W64
  serial : Bool
  started : Bool
  ended : Bool
  taken : Nat
  made : Nat
  pos : SMap Nat
  snap : Snap
  hold : List (Nat × Snap)
  full : Option Snap
  bufs : SMap StreamBuf
  block : List ChainElem
  blkSnap : Snap
  blkOut : Nat
  delivering : Bool
  wUnit : Nat
  wBooked : Bool
  bitAt : Option (Nat × Byte)
  resumed : Bool
  pred : SMap (Option Rec64)
deriving DecidableEq, Repr

/-- A chain slot (R195): the tags bound as producer and consumer, whether the producer has ended, the type carried,
the elements, and the producer's progress at the last element that the consumer took (R198). -/
structure Chain where
  prod : Option Nat
  cons : Option Nat
  prodEnd : Bool
  et : Nat
  elems : List ChainElem
  last : Option Snap
deriving DecidableEq, Repr

def Chain.free : Chain := ⟨none, none, false, 0, [], none⟩

/-- How a read ends. -/
inductive RdStat where
  | ok | poison | unmapped
deriving DecidableEq, Repr

/-- What an exception frame records (Table 5.2). -/
structure Frame where
  vec : Nat
  detail : Nat
  faddr : W64
  aux : W64
  hld : Bool
  vecStop : Bool
  estep : Nat
  evec : Nat
deriving DecidableEq, Repr

/-- An exception entry that waits for a walk, a vector or a handler word of another part: its frame, the class of its
ERROR, if it is one, the frame words pushed so far, and whether the latest of them was booked (R156, R160, R593). -/
structure Entry where
  f : Frame
  err : Option Nat
  pushed : Nat
  booked : Bool
deriving DecidableEq, Repr

/-- Where the frame of the ERROR in force lies: at an address of the Supervisor stack, or on the Escalation stack (R173). -/
inductive ErrFrame where
  | stack (sp : W64)
  | esc
deriving DecidableEq, Repr

/-- A walk of one of an engine's five walkers that has not ended, or whose fault its requester has not taken (R324 to
R327): the address, the CTXID and TTB in force for the request, the level and table to read next, and the fault. -/
structure Walk where
  va : Nat
  ctx : BitVec 16
  ttb : W64
  lvl : Nat
  ta : Nat
  fault : Option Nat
deriving DecidableEq, Repr

/-- Data of a read that is part of a longer step of an engine (a walk, a frame, a predicate block, a probe): the
requester within the engine, the DPA and length, how it ended, and the bytes. -/
structure Got where
  who : Nat
  dpa : Nat
  n : Nat
  st : RdStat
  bytes : List Byte
deriving DecidableEq, Repr

/-- A swap of VSCSWP whose old value is still to be written to its ROPD element (R245, R246): the number that its atomic
bears, the pieces of the element and its address, the epoch and Task of the placement, and the old value once the swap has
ended, none inside where it was not performed. `late` marks one that a stop has passed. -/
structure SwapOut where
  id : Nat
  pieces : List (Nat × Nat)
  va : W64
  epoch : Nat
  tti : Nat
  old : Option (Option W64)
  late : Bool
deriving DecidableEq, Repr

/-- An engine, or the Steward's Sequencer: placement state, run state, fetch, translation and VSU. `waite` is the
channel and the length of a WAITE that waits; channel 256 means that the flag has been seen, 257 that it never will
be (R437). `walks` are the walks in progress by walker (R326), `got` the data of reads that belong to a step not yet
taken, `fetches` numbers the paths that fetch has taken up, so that words of an earlier one are known, and `entry` is an
exception entry in progress. `reissue` is the next resume record of a re-issue in progress (R216), `swaps` the swaps whose
old values are outstanding, in input order (R245), and `swapCtr` numbers them; `swept` is the Lap of the latest boundary
whose invalidations the engine has applied (R338). -/
structure Engine where
  arch : Arch
  running : Bool
  place : Option Placement
  waite : Option (Nat × Nat)
  pend : Option PendLoad
  tsyncLap : Option Nat
  pq : List FWord
  flight : List FWord
  lbuf : Option LoopBuf
  btb : SMap (Option BtbEntry)
  itlb : List Slot
  dtlb : List Slot
  l2 : SMap (List Slot)
  fills : Nat
  vinsts : List VInst
  chains : SMap Chain
  digest : W64
  tend : W64
  errFrame : Option ErrFrame
  hung : Bool
  walks : SMap (Option Walk)
  got : List Got
  fetches : Nat
  entry : Option Entry
  reissue : Option Nat
  swaps : List SwapOut
  swapCtr : Nat
  swept : Nat
deriving DecidableEq, Repr

/-- An engine after reset: it issues nothing and holds no placement. -/
def Engine.init : Engine :=
  { arch := Arch.init, running := false, place := none, waite := none, pend := none, tsyncLap := none, pq := [],
    flight := [], lbuf := none, btb := [], itlb := [], dtlb := [], l2 := [], fills := 0, vinsts := [], chains := [],
    digest := 0, tend := 0, errFrame := none, hung := false, walks := [], got := [],
    fetches := 0, entry := none, reissue := none, swaps := [], swapCtr := 0, swept := 0 }

/-- STATE of a Task Table entry (Table 2.6). -/
inductive TState where
  | free | booked | running | parked | queued | settled
deriving DecidableEq, Repr

/-- OUTCOME of a Task (Tables 2.6 and 14.4). -/
inductive Outcome where
  | none | delivered | overrun | failed | cancelled
deriving DecidableEq, Repr

/-- A Task Table entry (Table 2.6) with the Starter's record of the Task: its cost vector and the initial values of
its submission record (R470), and what its completion record reports. -/
structure Task where
  st : TState
  outcome : Outcome
  cls : Nat
  restart : Bool
  ended : Bool
  ovr : BitVec 6
  epoch : Nat
  engine : Nat
  sq : Nat
  cid : Nat
  acceptLap : Nat
  deadlineLap : Nat
  cvDpa : Nat
  saveDpa : Nat
  entry : W64
  cyc : Nat
  cv : CostVec
  ttb : W64
  pkr : BitVec 32
  ctxid : BitVec 16
  arg0 : W64
  arg1 : W64
  lapsLeft : Nat
  started : Bool
  cancelReq : Bool
  cause : Nat
  vector : Nat
  settleLap : Nat
  late : Bool
  xlate : Bool
  sqhead : Nat
  ackreq : Bool
  order : Nat
  errq : List ErrEntry
  errFrame : Option ErrFrame
  tsync : Option Nat
deriving DecidableEq, Repr

def Task.empty : Task :=
  { st := .free, outcome := .none, cls := 0, restart := false, ended := false, ovr := 0, epoch := 0, engine := 0,
    sq := 0, cid := 0, acceptLap := 0, deadlineLap := 0, cvDpa := 0, saveDpa := 0, entry := 0, cyc := 0,
    cv := CostVec.zero, ttb := 0, pkr := 0, ctxid := 0, arg0 := 0, arg1 := 0, lapsLeft := 0, started := false,
    cancelReq := false, cause := 0, vector := 0, settleLap := 0, late := false, xlate := false, sqhead := 0,
    ackreq := false, order := 0, errq := [], errFrame := none, tsync := none }

/-- A booked placement of a Ledger row: engine, Task, engine cycles deducted, and whether it has been taken. -/
structure Booking where
  engine : Nat
  tti : Nat
  charge : Nat
  taken : Bool
deriving DecidableEq, Repr

/-- A Ledger row (Table 2.2). `u` is the opening value of a usable engine's counter; `eng` lists the counters that
differ from it. `bad` is R41's refusal of further bookings. -/
structure Row where
  u : Nat
  eng : SMap Nat
  hb : Nat
  bulk : SMap Nat
  dir : SMap Nat
  cxl : SMap Nat
  ring : SMap Nat
  plc : List Booking
  bad : Bool
deriving DecidableEq, Repr

/-- A row with nothing to book. -/
def Row.zero : Row := ⟨0, [], 0, [], [], [], [], [], false⟩

/-- A submission in the host port or the intake queue: its queue, its record, the SQ HEAD after its fetch, its cost
vector once read, and whether it is refused with LOCATION. -/
structure Subm where
  sq : Nat
  r : Rec64
  sqhead : Nat
  cv : CostVec
  location : Bool
deriving DecidableEq, Repr

/-- A record waiting to be posted (Table 14.4), without its phase bit. `tti` is the entry it frees. -/
structure CRec where
  w0 : W64
  w1 : W64
  w2 : W64
  w3 : W64
  frees : Option Nat
deriving DecidableEq, Repr

/-- What the part has sent out of the package or to its host. -/
inductive Out where
  /-- a completion record: CQ, slot, the four words -/
  | record (cq slot : Nat) (w0 w1 w2 w3 : W64)
  /-- an MSI-X message -/
  | msix (vec : Nat)
  /-- data of a host CXL.mem read; `none` is poisoned data -/
  | memData (addr : Nat) (bytes : Option (List Byte))
  /-- the Steward is interrupted (R543) -/
  | stewardIrq
  /-- data of a management read: master, offset, word -/
  | regData (m off : Nat) (v : BitVec 32)
  /-- data of a read of memory by the debug port; `none` is a read that ended with an error -/
  | dbgData (dpa : Nat) (bytes : Option (List Byte))
deriving DecidableEq, Repr

/-- Who issued a request: an engine of a part, or a crossbar master of a part (Table 1.2). -/
inductive Src where
  | engine (part e : Nat)
  | master (part id : Nat)
deriving DecidableEq, Repr

/-- What a posted request does at its target. -/
inductive MemOp where
  /-- write these bytes, by part-window offset -/
  | write (cells : List (Nat × Byte))
  | iadd (v : W64)
  | fadd (v : W64) (rm : BitVec 2) (ftz daz : Bool)
  /-- `id` numbers a swap of an engine's VSCSWP whose old value goes to its ROPD stream -/
  | swap (v : W64) (id : Option Nat)
deriving DecidableEq, Repr

/-- A write or atomic that has issued and is not yet performed (R311, HB1 to HB8). `off` is its part-window offset;
`booked` is the class it is served as, after the counts of its target (R43, R293); `ret` is the slot of the response that
takes the old value, where it is asked for (Table 11.8), `flit` is VC × 4,096 + ESEQ of the flit that brought it, `via` the crossbar master it enters by (Table 1.2),
`tick` the tick of its arrival and `seq` its number among the requests that have arrived; `entry` marks a write of an exception entry, which the handler's first instruction waits for
(R156, R214). -/
structure MemReq where
  src : Src
  epoch : Nat
  off : Nat
  op : MemOp
  va : W64
  booked : Bool
  lap : Nat
  ret : Option Nat
  flit : Nat
  via : Nat
  tick : Nat
  seq : Nat
  entry : Bool
deriving DecidableEq, Repr

/-- Health of a memory word (R306, R307). -/
inductive Health where
  | good
  | corrected
  | poisoned
deriving DecidableEq, Repr

/-- Whose read a request to another part or to an expander is: a scalar load of an engine, stream `sreg` of the instruction with a tag,
the old value of a VSCSWP's swap, by its number, or a host CXL.mem read, with the bytes of held
host writes that it returns (R398). `taken` is a read whose requester has its data already, or wants it no more: its
answer is charged to no placement and dropped. `step` is a read of `n` bytes at a DPA within a longer step, and `ring` a
read of another part, which the response in a slot takes; `dbg` is a read of the debug port. -/
inductive ReqFor where
  | scalar
  | stream (tag sreg : Nat)
  | swap (id : Nat)
  | host (held : List (Nat × Byte))
  | step (who dpa n : Nat)
  | ring (slot : Nat)
  | dbg
  | taken
deriving DecidableEq, Repr

/-- An outstanding request at an expander (R304), or, at port 2, a read of the host or the debug port that waits for a Home Bank or
a channel (R20, R298): who issued it, whether it is a read, its Task, if any, its Lap, and for
a read its DPA, size and purpose; `held` is a late answer that waits for its release in mirrored operation, with its
poison (R400). `booked` is the class it is served as, `via` the crossbar master it enters by, `tick` the tick at which it
issued, and `seq` its number among the requests that have arrived. -/
structure ExpReq where
  port : Nat
  src : Src
  tti : Option Nat
  lap : Nat
  dpa : Nat
  size : Nat
  what : ReqFor
  held : Option Bool
  booked : Bool
  via : Nat
  tick : Nat
  seq : Nat
deriving DecidableEq, Repr

/-- The memory system (spec/09). `mem` is keyed by part-window offset. `found` holds what a grant, line slot or
granule found in a read whose instruction has not yet taken the data, by target unit; `lost` counts lost
arbitrations (R310), and `arrivals` the requests that have arrived (R311). -/
structure Memory where
  mem : SMap Byte
  health : SMap Health
  memq : List MemReq
  dirBuf : SMap (List Nat)
  lastGrant : SMap Nat
  spread : SMap Nat
  charged : SMap Nat
  window : SMap Nat
  scrub : SMap Nat
  expq : List ExpReq
  expFailed : BitVec 2
  written : SMap Bool
  found : SMap Upset
  lost : SMap Nat
  arrivals : Nat
deriving DecidableEq, Repr

/-- Local memory is in its canonical form: addresses strictly rising, no byte listed that an unlisted address reads as
(0, DESIGN CHOICE, log 5). -/
abbrev Memory.wf (m : Memory) : Prop := SMap.wf 0 m.mem

/-- The Starter (spec/02). -/
structure Starter where
  tasks : SMap Task
  rows : SMap Row
  intake : List Subm
  fetching : List Nat
  cvReads : List Subm
  openq : List Nat
  epochCtr : Nat
  accepted : Nat
  moving : Bool
  decisions : List (Nat × Nat × Nat × Nat)
deriving DecidableEq, Repr

/-- A submission queue's hidden state: its tail (R476). -/
structure CQueue where
  head : Nat
  phase : Bool
  held : List CRec
  linkLost : Bool
deriving DecidableEq, Repr

def CQueue.init : CQueue := ⟨0, true, [], false⟩

/-- An HDM decoder (R480). -/
structure Hdm where
  base : Nat
  size : Nat
  skip : Nat
  committed : Bool
  err : Bool
deriving DecidableEq, Repr

def Hdm.init : Hdm := ⟨0, 0, 0, false, false⟩

/-- The host port (spec/14). -/
structure HostPort where
  sqTail : SMap Nat
  cq : SMap CQueue
  lastSq : Nat
  d3 : Bool
  msixOn : Bool
  msixMask : SMap Bool
  msixPend : SMap Bool
  hdm : SMap Hdm
  out : List Out
  mboxBusy : Bool
  fltLog : List FaultRec
  duskCmd : Bool
deriving DecidableEq, Repr

/-- A ring port or the pair port (spec/11, R403). Credits are per VC. `transit` holds flits with the port whose buffer they
leave (3: none), `minGen` the higher MINGEN of the link's two ends. -/
structure Port where
  lost : Bool
  gen : Nat
  txSeq : BitVec 10
  rxSeq : BitVec 10
  acked : BitVec 10
  nakSent : Bool
  nakOut : Bool
  replay : List Flit
  resend : Nat
  credits : SMap Nat
  returns : SMap Nat
  inject : List Flit
  transit : List (Nat × Flit)
  minGen : Nat
  replays : Nat
  replaysPrev : Nat
  tries : Nat
  missed : Nat
  frame : Nat
  rxd : Int
  mhops : Nat
  mv : Bool
deriving DecidableEq, Repr

/-- A port after reset: training state OFF, sequence numbers 0, credits at the buffer sizes of R357. -/
def Port.init : Port :=
  { lost := false, gen := 0, txSeq := 0, rxSeq := 0, acked := 0, nakSent := false, nakOut := false, replay := [],
    resend := 0, credits := [(0, 192), (1, 192), (2, 96), (3, 32)], returns := [], inject := [], transit := [],
    minGen := 0, replays := 0, replaysPrev := 0, tries := 0, missed := 0, frame := 0, rxd := 0, mhops := 0,
    mv := false }

/-- A packet accepted at this part and not yet performed (R366). `data` collects a long write's DATA bytes. -/
structure RxPkt where
  port : Nat
  src : Nat
  reqr : Nat
  vc : Nat
  cls : Nat
  laptag : Nat
  epoch : Nat
  eseq : BitVec 12
  ty : Nat
  words : List W64
deriving DecidableEq, Repr

/-- The sending side of one triple (R370): next ESEQ and unacknowledged flits. -/
structure TxE2e where
  next : BitVec 12
  rack : BitVec 12
  unacked : List Flit
deriving DecidableEq, Repr

/-- The receiving side of one triple: last ESEQ accepted (R371). -/
structure RxE2e where
  last : BitVec 12
deriving DecidableEq, Repr

/-- A route switch that waits for its Lap (R379, R384): span, Lap, and whether the span joins. -/
structure Switch where
  span : Nat
  lap : Nat
  joins : Bool
deriving DecidableEq, Repr

/-- An outstanding write or atomic to another part (R371, R382): the engine, the address it reports in the error queue,
whether the
flit that carries it has been sent, its ESEQ, its Lap, whether it went as Open, and whether it is a write of an exception
entry. -/
structure Remote where
  part : Nat
  e : Nat
  epoch : Nat
  va : W64
  vc : Nat
  sent : Bool
  eseq : BitVec 12
  lap : Nat
  isOpen : Bool
  entry : Bool
deriving DecidableEq, Repr

/-- A read or returning atomic that another part has not answered, in the order issued (R368). `sv` gives, for a Sieved
read, the number and size of the elements that the granule holds and which of them the stream takes, in its order. `sent`, `lap` and `isOpen` are as in Remote. -/
structure RemoteReq where
  part : Nat
  reqr : Nat
  dpa : Nat
  size : Nat
  what : ReqFor
  sv : Option (Nat × Nat × List Nat)
  sent : Bool
  lap : Nat
  isOpen : Bool
deriving DecidableEq, Repr

/-- A response that this part owes to a requester of another part, in the order of its requests (R368): its slot number, the
requester, the class and LAPTAG of the request, VC × 4,096 + ESEQ of the flit that brought it, the DPA and the predicate block
of a Sieved read, and the response once it is ready: its status and bytes. -/
structure Answer where
  id : Nat
  part : Nat
  reqr : Nat
  cls : Nat
  laptag : Nat
  flit : Nat
  dpa : Nat
  sv : Option Rec64
  ready : Option (Nat × List Byte)
deriving DecidableEq, Repr

/-- The bypass switch tiles (R383). -/
inductive BypassState where
  | closed | opening | opened | closing
deriving DecidableEq, Repr

/-- The ring layer (spec/11). Ports are 0 East, 1 West, 2 Pair. `rsp` holds response bytes of each part to each
requester, with their status, not yet matched to a request; `preds` the predicates installed here by other parts,
`predUse` the entries this part uses at others: part, entry, engine, tag, stream (R369); `answers` are the responses that it
owes, and `answerCtr` numbers their slots (R368). The part's own place in `doneLap` holds the Lap of its latest DONE (R376). -/
structure Ring where
  ports : SMap Port
  rx : List RxPkt
  wdata : SMap (List Byte)
  tx2e : SMap TxE2e
  rx2e : SMap RxE2e
  rsp : SMap (List (Nat × Byte))
  preds : SMap (Option Rec64)
  remote : List Remote
  reqs : List RemoteReq
  predUse : List (Nat × Nat × Nat × Nat × Nat)
  ackSent : SMap (W64 × W64 × Nat)
  draining : List Nat
  doneLap : SMap Nat
  sentLap : SMap Nat
  rspLap : SMap Nat
  switches : List Switch
  flipped : SMap Bool
  drainHeld : List Flit
  bypass : BypassState
  upstream : Nat
  good : Nat
  locked : Bool
  answers : List Answer
  answerCtr : Nat
deriving DecidableEq, Repr

/-- A forwarded input held until its release (Table 12.1). A HOSTCMD names no queue on the Pacer; 64 stands there. -/
inductive Input where
  | hostcmd (lap order sq sqhead : Nat) (r : Rec64)
  | hostwr (lap line : Nat) (isRead : Bool) (be : W64) (d : Rec64)
  | regwr (lap off : Nat) (v : BitVec 32)
deriving DecidableEq, Repr

/-- A TEND digest that waits for its counterpart (R407). -/
structure Tendd where
  tti : Nat
  epoch : Nat
  eng : Nat
  digest : W64
  lap : Nat
  own : Bool
deriving DecidableEq, Repr

/-- The mirrored pair (spec/12). `cmdAck` lists the SQs of the HOSTCMDs not yet acknowledged (R398). `own` and `ownPart`
are the digests of the Lap that the latest boundary closed, `closeIn` and `closeDec` its inputs and decisions. `ran` lists
the placements of the last Laps (Lap, engine, Task, epoch) for R408; `slip` gives, for a source part and VC, since when the
partner has been ahead, and how far (R400). `copyAt` is the offset that the Mover copies next in a rejoin (R425), and
`moverErr` its error status (R26, R305). `waiting` holds the inputs of the host that wait for INPUT cells (R398, R479). -/
structure Pair where
  inputs : List Input
  waiting : List Input
  taken : Nat
  hold : List (Flit × Nat)
  readyTx : List ReadyEntry
  readyRx : Option (Nat × List ReadyEntry)
  lapendRx : Option (Nat × Nat)
  recorded : BitVec 256
  cleared : BitVec 256
  tends : List Tendd
  own : SMap W64
  ownPart : W64
  closed : Bool
  closeIn : W64
  closeDec : W64
  diff : List (Nat × Nat)
  diffTasks : List (Nat × Nat)
  ran : List (Nat × Nat × Nat × Nat)
  slip : SMap (Nat × BitVec 12)
  ident : Option FaultRec
  handoff : Option (Nat × Bool)
  lostLap : Option Nat
  rejoinLap : Option Nat
  postedFree : List (Nat × Nat)
  cmdAck : List Nat
  decCrc : W64
  inCrc : W64
  copyAt : Nat
  moverErr : Bool
deriving DecidableEq, Repr

/-- A fence in progress (R416): source part, epoch, Lap f, and whether ENGINE_HANG with DETAIL 1 lifts it. -/
structure Fence where
  part : Nat
  epoch : Nat
  lap : Nat
  lifted : Bool
deriving DecidableEq, Repr

/-- A retired epoch (R416). -/
structure Retired where
  part : Nat
  epoch : Nat
  lap : Nat
deriving DecidableEq, Repr

/-- The Fault Collector (spec/12). The head of `queue` is the record being handled. -/
structure Faults where
  queue : List FaultRec
  keys : List Nat
  fences : List Fence
  retired : List Retired
  sweeps : SMap Nat
  rerun : List (Nat × Nat)
deriving DecidableEq, Repr

/-- The Event Fabric and the timers' hidden state (spec/13); `view` is the view V of R447. `zeroDue` marks a countdown that has
reached 0, and whether it has been reloaded, `matchDue` one that has met its MATCH, and `cmpAt` is one more than the tick of a
compare channel's latest firing or write. -/
structure Events where
  lastAcc : SMap Nat
  count : SMap Nat
  fwd : List (Nat × Nat)
  domLast : SMap Nat
  pinLaps : SMap Nat
  pinLast : SMap Nat
  links : List (Nat × Nat)
  view : BitVec 256
  zeroDue : SMap Nat
  matchDue : SMap Bool
  cmpAt : SMap Nat
deriving DecidableEq, Repr

/-- What holds the part in HOLD, the supplies and the pins (spec/15, 16, 18). `plans` gives each sleeping cluster's tick at
which its wake starts, its t_end, and the Laps whose rows it withholds (R537, R538). -/
structure Power where
  powered : Bool
  resetN : Bool
  pgood : Bool
  supplyHold : Bool
  clockHold : Bool
  tripHold : Bool
  duskHold : Bool
  alertN : Bool
  thermtripN : Bool
  expPerstN : Bool
  plans : SMap (Nat × Nat × List Nat)
deriving DecidableEq, Repr

/-- The image loaded at the latest Dawn (spec/15): what the part keeps of it. `ranges` are the Home Bank ranges that HOMEBANK
sections loaded, by part-window offset and length; `fw` the cells of the Steward's SRAM that its sections loaded (R31). -/
structure Image where
  loaded : Nat
  gdigest : BitVec 32
  prepLimit : Nat
  addr0 : W64
  addr1 : W64
  ranges : List (Nat × Nat)
  fw : List (Nat × Byte)
deriving DecidableEq, Repr

/-- Usable blocks (R27, R63, R514): marks for this start-up; `unsaved` says that a mark made during operation is not yet
in the BADBLOCK record (R64, R300), and `repaired` lists the rows to which PREP has applied soft post-package repair (R296), as the
record gives them. -/
structure Blocks where
  badEngine : SMap Bool
  badBank : SMap Bool
  badDdr : BitVec 12
  badQdr : BitVec 4
  badExp : BitVec 2
  ddrOk : BitVec 12
  qdrOk : BitVec 4
  expUnits : SMap Nat
  voided : Bool
  unsaved : Bool
  repaired : List W64
deriving DecidableEq, Repr

/-- The Steward (R31, R320): running, halted, its watchdog, its private SRAM and its error status (R26, R305). -/
structure Steward where
  up : Bool
  halted : Bool
  kickLap : Nat
  lastExpiry : Option Nat
  sram : SMap Byte
  err : Bool
deriving DecidableEq, Repr

/-- An entry of the Record Unit's log (R549): TYPE, CYC, A, B and payload words. -/
structure LogEnt where
  ty : Nat
  cyc : Nat
  a : Nat
  b : W64
  pay : List W64
deriving DecidableEq, Repr

/-- The block of one Lap in the Record Unit's buffer (R552): its Lap, whether entries were dropped, its entries, and its part
digest once that has closed. -/
structure LogBlk where
  lap : Nat
  incomplete : Bool
  ents : List LogEnt
  pdig : Option W64
deriving DecidableEq, Repr

/-- The block of one Lap that a replay runs (R554, R555): its Lap, its part digest, the entries that have not taken effect
yet, its DECISION entries (TTI, reason, SQ, CID), its engine digests, if any, and the decisions made in the replay. -/
structure PlayBlk where
  lap : Nat
  pdig : W64
  ents : List LogEnt
  decs : List (Nat × Nat × Nat × Nat)
  eng : List W64
  made : List (Nat × Nat × Nat × Nat)
deriving DecidableEq, Repr

/-- The Record Unit and replay (spec/17): the entries of the open Lap and whether some were dropped, the blocks not yet
written, the region offset of the next block, the whole blocks in the region by offset and length, oldest first; the block
that a replay runs, the one that it compares next, the offset after it, and whether the replay has ended; and the Record
Unit's error status (R305). -/
structure Record where
  cur : List LogEnt
  incomplete : Bool
  out : List LogBlk
  off : Nat
  blocks : List (Nat × Nat)
  play : Option PlayBlk
  prev : Option PlayBlk
  playOff : Nat
  ending : Bool
  err : Bool
deriving DecidableEq, Repr

/-- The test access port (R582): instruction register, pins controlled, preloaded cells. -/
structure Scan where
  ir : BitVec 8
  pins : Nat
  cells : List Bool
deriving DecidableEq, Repr

/-- Why a machine of this model stops. The spec stops the part for no command: an error is an effect on the state
(an exception, a fault record, HOLD), so no meaning raises a fault. Safe: there is nothing to raise. -/
inductive Fault where
  /-- Raised by no meaning of this model; kept so that the type has a value a later repair can use. Safe. -/
  | absentUnit
deriving DecidableEq, Repr

/-- Why a command has no meaning. -/
inductive Refusal where
  /-- A command of the table that has no meaning yet, raised by the arm of `exec` alone. Safe: a run ends. -/
  | notModelled (mnemonic : String)
deriving DecidableEq, Repr

/-- The state of the part. -/
structure State where
  /-- commands waiting, first in, first out -/
  pending : List Instr
  /-- the model's own counter of free values -/
  freeCtr : Nat
  mode : Mode
  /-- target of a pending transition and the Lap whose boundary takes it (R491) -/
  pendMode : Option (Mode × Nat)
  /-- a second trigger that waits (R491) -/
  nextMode : Option Mode
  replayFlag : Bool
  /-- ordering code FV7200-14 (R2) -/
  ord14 : Bool
  tb : Nat
  tbFrac : Int
  regs : SMap (BitVec 32)
  latch : SMap (BitVec 32)
  staged : SMap (Option (BitVec 32))
  engines : SMap Engine
  m : Memory
  sta : Starter
  host : HostPort
  ring : Ring
  pair : Pair
  flt : Faults
  evt : Events
  pwr : Power
  img : Image
  blk : Blocks
  stew : Steward
  recd : Record
  scan : Scan
  flash : SMap Byte
  tlbi : List (Nat × Nat × BitVec 16)
  prepLap : Option Nat
  duskLap : Nat
  /-- the mode that DUSK was entered from -/
  drainMode : Mode
  /-- the Lap at whose boundary the present running mode or side was entered -/
  runLap : Nat
  /-- the latest Lap whose opening boundary has been performed -/
  lastLap : Nat
deriving DecidableEq, Repr

/-- The part right after reset: RESET_N released, DAWN entered (DEV_MODE resets to 2), Time Base 0, every register
at its reset value (`regs` lists only what differs from Table 19.4), memory with nothing listed. -/
def State.reset : State :=
  { pending := [], freeCtr := 0, mode := .dawn, pendMode := none, nextMode := none, replayFlag := false,
    ord14 := false, tb := 0, tbFrac := 0, regs := [], latch := [], staged := [],
    engines := [],
    m := { mem := [], health := [], memq := [], dirBuf := [], lastGrant := [], spread := [], charged := [],
           window := [], scrub := [], expq := [], expFailed := 0, written := [],
           found := [], lost := [], arrivals := 0 },
    sta := { tasks := [], rows := [], intake := [], fetching := [], cvReads := [], openq := [], epochCtr := 1, accepted := 0,
             moving := false, decisions := [] },
    host := { sqTail := [], cq := [], lastSq := 63, d3 := false, msixOn := false, msixMask := [], msixPend := [],
              hdm := [], out := [], mboxBusy := false, fltLog := [], duskCmd := false },
    ring := { ports := [], rx := [], wdata := [], tx2e := [], rx2e := [], rsp := [], preds := [], remote := [], reqs := [], predUse := [], ackSent := [], draining := [],
              doneLap := [], sentLap := [], rspLap := [], switches := [], flipped := [], drainHeld := [],
              bypass := .closed, upstream := 1, good := 0, locked := false, answers := [], answerCtr := 0 },
    pair := { inputs := [], taken := 0, hold := [], readyTx := [], readyRx := none, lapendRx := none, recorded := 0,
              cleared := 0, tends := [], own := [], ownPart := 0, closed := true, closeIn := 0, closeDec := 0, diff := [], diffTasks := [], ran := [], slip := [], ident := none,
              handoff := none, lostLap := none, rejoinLap := none, postedFree := [], cmdAck := [], decCrc := 0, inCrc := 0,
              copyAt := 0, moverErr := false, waiting := [] },
    flt := { queue := [], keys := [], fences := [], retired := [], sweeps := [], rerun := [] },
    evt := { lastAcc := [], count := [], fwd := [], domLast := [], pinLaps := [], pinLast := [], links := [], view := 0, zeroDue := [], matchDue := [], cmpAt := [] },
    pwr := { powered := true, resetN := true, pgood := true, supplyHold := false, clockHold := false,
             tripHold := false, duskHold := false, alertN := true, thermtripN := true,
             expPerstN := false, plans := [] },
    img := { loaded := 0, gdigest := 0, prepLimit := 0, addr0 := 0, addr1 := 0, ranges := [], fw := [] },
    blk := { badEngine := [], badBank := [], badDdr := 0, badQdr := 0, badExp := 0, ddrOk := 0, qdrOk := 0,
             expUnits := [], voided := false, unsaved := false, repaired := [] },
    stew := { up := true, halted := false, kickLap := 0, lastExpiry := none, sram := [], err := false },
    recd := { cur := [], incomplete := false, out := [], off := 0, blocks := [], play := none, prev := none, playOff := 0,
              ending := false, err := false },
    scan := { ir := 0x02, pins := 0, cells := [] },
    flash := [], tlbi := [], prepLap := none, duskLap := 0, drainMode := .off, runLap := 0,
    lastLap := 0 }

end Sys2Proof.Machine
end

