-- ==== Sys2Proof/Machine/RegTable.lean ====
section
/-!
DEFINITION. The register window: every register of spec/19_address_map_and_register_index.md with its offset, its
replication, its width and its fields with their access codes and reset values (Tables 19.2 to 19.4).
-/
namespace Sys2Proof.Machine

/-- The access codes (Table 0.4). -/
inductive Access where
  | rw | ro | wo | w1c | w1s | rc | rl | rwp
deriving DecidableEq, Repr

/-- A field: high bit, low bit, access code and reset value. -/
structure RegField where
  hi : Nat
  lo : Nat
  acc : Access
  rst : Nat
deriving DecidableEq, Repr

/-- A register: window offset of its first instance, replication as (count, stride), width in bits, fields. -/
structure RegRow where
  base : Nat
  dims : List (Nat × Nat)
  width : Nat
  fields : List RegField
deriving DecidableEq, Repr

/-- One register word: its window offset and its reset value. -/
structure RegRef where
  off : Nat
  rst : BitVec 32
deriving DecidableEq, Repr

/-- DEV_ID (R518). -/
def Reg.devId : RegRef := ⟨0x0, 0x16017200⟩

/-- DEV_MODE (R518). -/
def Reg.devMode : RegRef := ⟨0x4, 0x202⟩

/-- DEV_CTL (R518). -/
def Reg.devCtl : RegRef := ⟨0x8, 0x0⟩

/-- DEV_STEWARD_KICK (R518). -/
def Reg.devStewardKick : RegRef := ⟨0xC, 0x0⟩

/-- DEV_SERIAL (R518), low word. -/
def Reg.devSerial : RegRef := ⟨0x10, 0x0⟩

/-- DAWN_STAT (R519). -/
def Reg.dawnStat : RegRef := ⟨0x100000, 0x0⟩

/-- DAWN_SEQ (R519). -/
def Reg.dawnSeq : RegRef := ⟨0x100004, 0x0⟩

/-- DAWN_FLASH_ADDR (R519). -/
def Reg.dawnFlashAddr : RegRef := ⟨0x100010, 0x0⟩

/-- DAWN_FLASH_CMD (R519). -/
def Reg.dawnFlashCmd : RegRef := ⟨0x100014, 0x0⟩

/-- DAWN_FLASH_BUF (R519). -/
def Reg.dawnFlashBuf (i : Nat) : RegRef := ⟨0x100100 + i * 0x4, 0x0⟩

/-- KEEP_REG (R520), low word. -/
def Reg.keepReg (i : Nat) : RegRef := ⟨0x108000 + i * 0x8, 0x0⟩

/-- KEEP_WCNT (R520). -/
def Reg.keepWcnt (i : Nat) : RegRef := ⟨0x10A000 + i * 0x4, 0x0⟩

/-- KEEP_STAT (R520). -/
def Reg.keepStat : RegRef := ⟨0x10B000, 0x0⟩

/-- PWR_CFG (R545). -/
def Reg.pwrCfg : RegRef := ⟨0x200000, 0x7D0⟩

/-- PWR_DUSK_STAT (R545). -/
def Reg.pwrDuskStat : RegRef := ⟨0x200004, 0x0⟩

/-- PWR_LBIST_GOLD (R545), low word. -/
def Reg.pwrLbistGold : RegRef := ⟨0x200008, 0x0⟩

/-- PWR_CL_CFG (R545). -/
def Reg.pwrClCfg (i : Nat) : RegRef := ⟨0x200100 + i * 0x4, 0x1000⟩

/-- PWR_CL_STAT (R545). -/
def Reg.pwrClStat (i : Nat) : RegRef := ⟨0x200200 + i * 0x4, 0x0⟩

/-- PWR_CL_CMP (R545), low word. -/
def Reg.pwrClCmp (i : Nat) : RegRef := ⟨0x200400 + i * 0x8, 0x0⟩

/-- SUP_STAT (R546). -/
def Reg.supStat : RegRef := ⟨0x208000, 0x0⟩

/-- SUP_LAST (R546). -/
def Reg.supLast : RegRef := ⟨0x208004, 0x0⟩

/-- SUP_CLK_STAT (R584). -/
def Reg.supClkStat : RegRef := ⟨0x208008, 0x0⟩

/-- SUP_THERM_CFG (R584). -/
def Reg.supThermCfg : RegRef := ⟨0x208010, 0x64⟩

/-- SUP_THERM_STAT (R584). -/
def Reg.supThermStat : RegRef := ⟨0x208014, 0x0⟩

/-- SUP_TEMP (R585). -/
def Reg.supTemp (i : Nat) : RegRef := ⟨0x208020 + i * 0x4, 0x0⟩

/-- LAP_CFG (R68). -/
def Reg.lapCfg : RegRef := ⟨0x300000, 0x3E80000A⟩

/-- LAP_NUM (R68), low word. -/
def Reg.lapNum : RegRef := ⟨0x300008, 0x0⟩

/-- LAP_TICKS (R68). -/
def Reg.lapTicks : RegRef := ⟨0x300010, 0x2710⟩

/-- STA_ADMIT_CTRL (R69). -/
def Reg.staAdmitCtrl : RegRef := ⟨0x301000, 0x2⟩

/-- STA_STATUS (R70). -/
def Reg.staStatus : RegRef := ⟨0x301004, 0x200000⟩

/-- STA_COUNT_ACCEPT (R71), low word. -/
def Reg.staCountAccept : RegRef := ⟨0x301020, 0x0⟩

/-- STA_COUNT_REFUSE (R71), low word. -/
def Reg.staCountRefuse : RegRef := ⟨0x301028, 0x0⟩

/-- STA_COUNT_OVERRUN (R71), low word. -/
def Reg.staCountOverrun : RegRef := ⟨0x301030, 0x0⟩

/-- STA_COUNT_LATE (R71), low word. -/
def Reg.staCountLate : RegRef := ⟨0x301038, 0x0⟩

/-- STA_CAP_BULK (R72). -/
def Reg.staCapBulk : RegRef := ⟨0x301100, 0x0⟩

/-- STA_MAINT_BULK (R72). -/
def Reg.staMaintBulk : RegRef := ⟨0x301104, 0x0⟩

/-- STA_CAP_DIR (R72). -/
def Reg.staCapDir : RegRef := ⟨0x301108, 0x0⟩

/-- STA_CAP_CXL (R72). -/
def Reg.staCapCxl : RegRef := ⟨0x30110C, 0x0⟩

/-- STA_CAP_HB (R72). -/
def Reg.staCapHb : RegRef := ⟨0x301110, 0x0⟩

/-- STA_GRANT_BULK (R72). -/
def Reg.staGrantBulk (i : Nat) : RegRef := ⟨0x301400 + i * 0x10, 0x0⟩

/-- STA_GRANT_DIR (R72). -/
def Reg.staGrantDir (i : Nat) : RegRef := ⟨0x301404 + i * 0x10, 0x0⟩

/-- STA_GRANT_CXL (R72). -/
def Reg.staGrantCxl (i : Nat) : RegRef := ⟨0x301408 + i * 0x10, 0x0⟩

/-- STA_GRANT_RING (R72). -/
def Reg.staGrantRing (i : Nat) : RegRef := ⟨0x30140C + i * 0x10, 0x0⟩

/-- STA_GIVE_BULK (R72). -/
def Reg.staGiveBulk (i : Nat) : RegRef := ⟨0x301600 + i * 0x10, 0x0⟩

/-- STA_GIVE_DIR (R72). -/
def Reg.staGiveDir (i : Nat) : RegRef := ⟨0x301604 + i * 0x10, 0x0⟩

/-- STA_GIVE_CXL (R72). -/
def Reg.staGiveCxl (i : Nat) : RegRef := ⟨0x301608 + i * 0x10, 0x0⟩

/-- STA_GIVE_RING (R72). -/
def Reg.staGiveRing (i : Nat) : RegRef := ⟨0x30160C + i * 0x10, 0x0⟩

/-- STA_SCALE (R72). -/
def Reg.staScale (i : Nat) : RegRef := ⟨0x301800 + i * 0x4, 0x10000⟩

/-- STA_TT_INDEX (R73). -/
def Reg.staTtIndex : RegRef := ⟨0x301C00, 0x0⟩

/-- STA_TT_DATA (R73). -/
def Reg.staTtData (i : Nat) : RegRef := ⟨0x301C40 + i * 0x4, 0x0⟩

/-- XBAR_STAT (R315). -/
def Reg.xbarStat : RegRef := ⟨0x400000, 0x0⟩

/-- XBAR_PRIO (R314). -/
def Reg.xbarPrio (i : Nat) (j : Nat) : RegRef := ⟨0x401000 + i * 0x20 + j * 0x4, 0x88888888⟩

/-- DDR_CFG (R316). -/
def Reg.ddrCfg (i : Nat) : RegRef := ⟨0x500000 + i * 0x10000, 0x1⟩

/-- DDR_STAT (R317). -/
def Reg.ddrStat (i : Nat) : RegRef := ⟨0x500004 + i * 0x10000, 0x0⟩

/-- DDR_CXL_CFG (R318). -/
def Reg.ddrCxlCfg (i : Nat) : RegRef := ⟨0x5C0000 + i * 0x10000, 0x258⟩

/-- DDR_CXL_STAT (R319), low word. -/
def Reg.ddrCxlStat (i : Nat) : RegRef := ⟨0x5C0008 + i * 0x10000, 0x0⟩

/-- DDR_ECC_CE (R319), low word. -/
def Reg.ddrEccCe (i : Nat) : RegRef := ⟨0x500010 + i * 0x10000, 0x0⟩

/-- DDR_ECC_UE (R319), low word. -/
def Reg.ddrEccUe (i : Nat) : RegRef := ⟨0x500018 + i * 0x10000, 0x0⟩

/-- DIR_STAT (R319). -/
def Reg.dirStat : RegRef := ⟨0x600000, 0x0⟩

/-- DIR_ECC_CE (R319), low word. -/
def Reg.dirEccCe (i : Nat) : RegRef := ⟨0x600010 + i * 0x100, 0x0⟩

/-- DIR_ECC_UE (R319), low word. -/
def Reg.dirEccUe (i : Nat) : RegRef := ⟨0x600018 + i * 0x100, 0x0⟩

/-- SIEVE_EVAL (R258), low word. -/
def Reg.sieveEval (i : Nat) : RegRef := ⟨0x700000 + i * 0x100, 0x0⟩

/-- SIEVE_QUAL (R258), low word. -/
def Reg.sieveQual (i : Nat) : RegRef := ⟨0x700008 + i * 0x100, 0x0⟩

/-- SIEVE_BADDEC (R258), low word. -/
def Reg.sieveBaddec (i : Nat) : RegRef := ⟨0x700010 + i * 0x100, 0x0⟩

/-- RING_CFG (R386). -/
def Reg.ringCfg : RegRef := ⟨0x800000, 0x0⟩

/-- RING_STAT (R387). -/
def Reg.ringStat : RegRef := ⟨0x800004, 0x0⟩

/-- RING_LOST (R388). -/
def Reg.ringLost : RegRef := ⟨0x800008, 0x0⟩

/-- RING_BROKEN (R388). -/
def Reg.ringBroken : RegRef := ⟨0x80000C, 0x0⟩

/-- RING_SYNC (R388). -/
def Reg.ringSync : RegRef := ⟨0x800010, 0x0⟩

/-- RING_CNT_DROP (R389), low word. -/
def Reg.ringCntDrop : RegRef := ⟨0x800020, 0x0⟩

/-- RING_CNT_E2EDUP (R389), low word. -/
def Reg.ringCntE2edup : RegRef := ⟨0x800028, 0x0⟩

/-- RING_CNT_E2EGAP (R389), low word. -/
def Reg.ringCntE2egap : RegRef := ⟨0x800030, 0x0⟩

/-- RING_CNT_BADPKT (R389), low word. -/
def Reg.ringCntBadpkt : RegRef := ⟨0x800038, 0x0⟩

/-- RING_CNT_RESEND (R389), low word. -/
def Reg.ringCntResend : RegRef := ⟨0x800040, 0x0⟩

/-- RING_CNT_SWITCH (R389), low word. -/
def Reg.ringCntSwitch : RegRef := ⟨0x800048, 0x0⟩

/-- RING_PORT_CFG (R390). -/
def Reg.ringPortCfg (i : Nat) : RegRef := ⟨0x800100 + i * 0x100, 0x65⟩

/-- RING_PORT_STAT (R391). -/
def Reg.ringPortStat (i : Nat) : RegRef := ⟨0x800104 + i * 0x100, 0x0⟩

/-- RING_PORT_DLY (R391). -/
def Reg.ringPortDly (i : Nat) : RegRef := ⟨0x800108 + i * 0x100, 0x0⟩

/-- RING_PORT_CRCERR (R392), low word. -/
def Reg.ringPortCrcerr (i : Nat) : RegRef := ⟨0x800110 + i * 0x100, 0x0⟩

/-- RING_PORT_REPLAY (R392), low word. -/
def Reg.ringPortReplay (i : Nat) : RegRef := ⟨0x800118 + i * 0x100, 0x0⟩

/-- RING_PORT_MKERR (R392), low word. -/
def Reg.ringPortMkerr (i : Nat) : RegRef := ⟨0x800120 + i * 0x100, 0x0⟩

/-- RING_PORT_TRAIN (R392), low word. -/
def Reg.ringPortTrain (i : Nat) : RegRef := ⟨0x800128 + i * 0x100, 0x0⟩

/-- RING_SLOTMAP (R393). -/
def Reg.ringSlotmap (i : Nat) (j : Nat) : RegRef := ⟨0x810000 + i * 0x10000 + j * 0x4, 0x0⟩

/-- PAIR_CFG (R426). -/
def Reg.pairCfg : RegRef := ⟨0x900000, 0x0⟩

/-- PAIR_STAT (R426). -/
def Reg.pairStat : RegRef := ⟨0x900004, 0x0⟩

/-- PAIR_HANDOFF_LAP (R427), low word. -/
def Reg.pairHandoffLap : RegRef := ⟨0x900008, 0x0⟩

/-- PAIR_REJOIN (R427), low word. -/
def Reg.pairRejoin : RegRef := ⟨0x900010, 0x0⟩

/-- PAIR_CNT_INPUT (R427), low word. -/
def Reg.pairCntInput : RegRef := ⟨0x900020, 0x0⟩

/-- PAIR_CNT_DIVERGE (R427), low word. -/
def Reg.pairCntDiverge : RegRef := ⟨0x900028, 0x0⟩

/-- PAIR_CNT_HELD (R427), low word. -/
def Reg.pairCntHeld : RegRef := ⟨0x900030, 0x0⟩

/-- FLT_STAT (R428). -/
def Reg.fltStat : RegRef := ⟨0xA00000, 0x0⟩

/-- FLT_POP (R428). -/
def Reg.fltPop : RegRef := ⟨0xA00004, 0x0⟩

/-- FLT_FENCES (R428). -/
def Reg.fltFences : RegRef := ⟨0xA00008, 0x0⟩

/-- FLT_HEAD (R428). -/
def Reg.fltHead (i : Nat) : RegRef := ⟨0xA00010 + i * 0x4, 0x0⟩

/-- FLT_CNT_FWD (R429), low word. -/
def Reg.fltCntFwd : RegRef := ⟨0xA00040, 0x0⟩

/-- FLT_CNT_COAL (R429), low word. -/
def Reg.fltCntCoal : RegRef := ⟨0xA00048, 0x0⟩

/-- FLT_CNT_EPOCHDROP (R429), low word. -/
def Reg.fltCntEpochdrop : RegRef := ⟨0xA00050, 0x0⟩

/-- FLT_OVF (R429). -/
def Reg.fltOvf (i : Nat) : RegRef := ⟨0xA00100 + i * 0x4, 0x0⟩

/-- EVT_CFG (R458). -/
def Reg.evtCfg : RegRef := ⟨0xB00000, 0xFFFF0000⟩

/-- EVT_GROUP_EN (R458). -/
def Reg.evtGroupEn : RegRef := ⟨0xB00004, 0xFFFF⟩

/-- EVT_STAT (R458). -/
def Reg.evtStat : RegRef := ⟨0xB00008, 0x0⟩

/-- EVT_FIRE (R458). -/
def Reg.evtFire : RegRef := ⟨0xB0000C, 0x0⟩

/-- EVT_FLAG (R458). -/
def Reg.evtFlag (i : Nat) : RegRef := ⟨0xB00010 + i * 0x4, 0x0⟩

/-- EVT_PIN_STAT (R458). -/
def Reg.evtPinStat : RegRef := ⟨0xB00030, 0x0⟩

/-- EVT_PIN_CFG (R459). -/
def Reg.evtPinCfg (i : Nat) : RegRef := ⟨0xB00040 + i * 0x4, 0x0⟩

/-- EVT_DCH_CFG (R459). -/
def Reg.evtDchCfg (i : Nat) : RegRef := ⟨0xB00100 + i * 0x4, 0x0⟩

/-- EVT_CH_CFG (R460). -/
def Reg.evtChCfg (i : Nat) : RegRef := ⟨0xB01000 + i * 0x20, 0x0⟩

/-- EVT_CH_SRC (R460). -/
def Reg.evtChSrc (i : Nat) (j : Nat) : RegRef := ⟨0xB01004 + i * 0x20 + j * 0x4, 0x0⟩

/-- EVT_CH_DST (R460). -/
def Reg.evtChDst (i : Nat) (j : Nat) : RegRef := ⟨0xB01014 + i * 0x20 + j * 0x4, 0x0⟩

/-- EVT_CH_STAT (R460). -/
def Reg.evtChStat (i : Nat) : RegRef := ⟨0xB0101C + i * 0x20, 0x0⟩

/-- TB_COUNT (R462), low word. -/
def Reg.tbCount : RegRef := ⟨0xC00000, 0x0⟩

/-- CMP_VALUE (R462), low word. -/
def Reg.cmpValue (i : Nat) : RegRef := ⟨0xC01000 + i * 0x10, 0x0⟩

/-- CMP_CTL (R462). -/
def Reg.cmpCtl (i : Nat) : RegRef := ⟨0xC01008 + i * 0x10, 0x0⟩

/-- CMP_PERIOD (R462). -/
def Reg.cmpPeriod (i : Nat) : RegRef := ⟨0xC0100C + i * 0x10, 0x0⟩

/-- CDT_COUNT (R463). -/
def Reg.cdtCount (i : Nat) : RegRef := ⟨0xC02000 + i * 0x20, 0x0⟩

/-- CDT_RELOAD (R463). -/
def Reg.cdtReload (i : Nat) : RegRef := ⟨0xC02004 + i * 0x20, 0x0⟩

/-- CDT_PHASE (R463). -/
def Reg.cdtPhase (i : Nat) : RegRef := ⟨0xC02008 + i * 0x20, 0x0⟩

/-- CDT_MATCH (R463). -/
def Reg.cdtMatch (i : Nat) : RegRef := ⟨0xC0200C + i * 0x20, 0x0⟩

/-- CDT_CTL (R463). -/
def Reg.cdtCtl (i : Nat) : RegRef := ⟨0xC02010 + i * 0x20, 0x0⟩

/-- CDT_STAT (R463). -/
def Reg.cdtStat (i : Nat) : RegRef := ⟨0xC02014 + i * 0x20, 0x0⟩

/-- HOST_CFG (R486). -/
def Reg.hostCfg : RegRef := ⟨0xD00000, 0x0⟩

/-- HOST_STAT (R486). -/
def Reg.hostStat : RegRef := ⟨0xD00004, 0x0⟩

/-- HOST_CNT_FETCH (R489), low word. -/
def Reg.hostCntFetch : RegRef := ⟨0xD00010, 0x0⟩

/-- HOST_CNT_POST (R489), low word. -/
def Reg.hostCntPost : RegRef := ⟨0xD00018, 0x0⟩

/-- HOST_CNT_PURGE (R489), low word. -/
def Reg.hostCntPurge : RegRef := ⟨0xD00020, 0x0⟩

/-- HOST_CNT_MEMDROP (R489), low word. -/
def Reg.hostCntMemdrop : RegRef := ⟨0xD00028, 0x0⟩

/-- HOST_SQ_BASE (R487), low word. -/
def Reg.hostSqBase (i : Nat) : RegRef := ⟨0xD01000 + i * 0x20, 0x0⟩

/-- HOST_SQ_CFG (R487). -/
def Reg.hostSqCfg (i : Nat) : RegRef := ⟨0xD01008 + i * 0x20, 0x1⟩

/-- HOST_SQ_TAIL (R487). -/
def Reg.hostSqTail (i : Nat) : RegRef := ⟨0xD0100C + i * 0x20, 0x0⟩

/-- HOST_CQ_BASE (R487), low word. -/
def Reg.hostCqBase (i : Nat) : RegRef := ⟨0xD01010 + i * 0x20, 0x0⟩

/-- HOST_CQ_CFG (R487). -/
def Reg.hostCqCfg (i : Nat) : RegRef := ⟨0xD01018 + i * 0x20, 0x1⟩

/-- HOST_CQ_HEAD (R487). -/
def Reg.hostCqHead (i : Nat) : RegRef := ⟨0xD0101C + i * 0x20, 0x0⟩

/-- HOST_MBOX_CTL (R488). -/
def Reg.hostMboxCtl : RegRef := ⟨0xD02000, 0x0⟩

/-- HOST_MBOX_REQ (R488). -/
def Reg.hostMboxReq (i : Nat) : RegRef := ⟨0xD02100 + i * 0x4, 0x0⟩

/-- HOST_MBOX_RSP (R488). -/
def Reg.hostMboxRsp (i : Nat) : RegRef := ⟨0xD02200 + i * 0x4, 0x0⟩

/-- REC_CFG (R560). -/
def Reg.recCfg : RegRef := ⟨0xE00000, 0x0⟩

/-- REC_STAT (R560). -/
def Reg.recStat : RegRef := ⟨0xE00004, 0x0⟩

/-- REC_OLDEST (R560), low word. -/
def Reg.recOldest : RegRef := ⟨0xE00010, 0x0⟩

/-- REC_RPL_STAT (R560). -/
def Reg.recRplStat : RegRef := ⟨0xE00020, 0x0⟩

/-- REC_DIV_LAP (R560), low word. -/
def Reg.recDivLap : RegRef := ⟨0xE00028, 0x0⟩

/-- REC_DIV_ENG (R560). -/
def Reg.recDivEng (i : Nat) : RegRef := ⟨0xE00040 + i * 0x4, 0x0⟩

/-- REC_PMC_CTL (R560). -/
def Reg.recPmcCtl : RegRef := ⟨0xE00100, 0x0⟩

/-- REC_CL_RES (R562), low word. -/
def Reg.recClRes (i : Nat) (j : Nat) : RegRef := ⟨0xE01000 + i * 0x20 + j * 0x8, 0x0⟩

/-- DBG_CFG (R560). -/
def Reg.dbgCfg : RegRef := ⟨0xE08000, 0x0⟩

/-- DBG_STAT (R560). -/
def Reg.dbgStat : RegRef := ⟨0xE08004, 0x0⟩

/-- EN_FETCH_CFG (R146). -/
def Reg.enFetchCfg (i : Nat) : RegRef := ⟨0x1000040 + i * 0x10000, 0x0⟩

/-- EN_FETCH_STAT (R147). -/
def Reg.enFetchStat (i : Nat) : RegRef := ⟨0x1000044 + i * 0x10000, 0x0⟩

/-- EN_INT_SEL (R178), low word. -/
def Reg.enIntSel (i : Nat) : RegRef := ⟨0x1000050 + i * 0x10000, 0x0⟩

/-- EN_INT_EN (R178). -/
def Reg.enIntEn (i : Nat) : RegRef := ⟨0x1000058 + i * 0x10000, 0x0⟩

/-- EN_EXC_STAT (R179). -/
def Reg.enExcStat (i : Nat) : RegRef := ⟨0x1000060 + i * 0x10000, 0x0⟩

/-- EN_VEC_STAT (R219). -/
def Reg.enVecStat (i : Nat) : RegRef := ⟨0x1000070 + i * 0x10000, 0x0⟩

/-- EN_RES_STAT (R283). -/
def Reg.enResStat (i : Nat) : RegRef := ⟨0x1000080 + i * 0x10000, 0x0⟩

/-- EN_BANK_CE (R319). -/
def Reg.enBankCe (i : Nat) : RegRef := ⟨0x1000090 + i * 0x10000, 0x0⟩

/-- EN_BANK_UE (R319). -/
def Reg.enBankUe (i : Nat) : RegRef := ⟨0x1000094 + i * 0x10000, 0x0⟩

/-- EN_XLATE_STAT (R344). -/
def Reg.enXlateStat (i : Nat) : RegRef := ⟨0x10000A0 + i * 0x10000, 0x0⟩

/-- EN_INT_PEND (R461). -/
def Reg.enIntPend (i : Nat) : RegRef := ⟨0x10000B0 + i * 0x10000, 0x0⟩

/-- EN_LBIST_STAT (R546). -/
def Reg.enLbistStat (i : Nat) : RegRef := ⟨0x10000C0 + i * 0x10000, 0x0⟩

/-- EN_LBIST_SIG (R546), low word. -/
def Reg.enLbistSig (i : Nat) : RegRef := ⟨0x10000C8 + i * 0x10000, 0x0⟩

/-- EN_PMC_CYC (R561), low word. -/
def Reg.enPmcCyc (i : Nat) : RegRef := ⟨0x1000100 + i * 0x10000, 0x0⟩

/-- EN_PMC_RET (R561), low word. -/
def Reg.enPmcRet (i : Nat) : RegRef := ⟨0x1000108 + i * 0x10000, 0x0⟩

/-- EN_PMC_FETCH (R561), low word. -/
def Reg.enPmcFetch (i : Nat) : RegRef := ⟨0x1000110 + i * 0x10000, 0x0⟩

/-- EN_PMC_VELEM (R561), low word. -/
def Reg.enPmcVelem (i : Nat) : RegRef := ⟨0x1000118 + i * 0x10000, 0x0⟩

/-- EN_PMC_STALL (R561), low word. -/
def Reg.enPmcStall (i : Nat) : RegRef := ⟨0x1000120 + i * 0x10000, 0x0⟩

/-- EN_PMC_TLBMISS (R561), low word. -/
def Reg.enPmcTlbmiss (i : Nat) : RegRef := ⟨0x1000128 + i * 0x10000, 0x0⟩

/-- EN_PMC_BANKLOSS (R561), low word. -/
def Reg.enPmcBankloss (i : Nat) : RegRef := ⟨0x1000130 + i * 0x10000, 0x0⟩

/-- Rows of the register index, part 1. -/
def regRows0 : List RegRow := [
  ⟨0x0, [], 32, [⟨31, 24, .ro, 0x16⟩, ⟨23, 16, .ro, 0x1⟩, ⟨15, 0, .ro, 0x7200⟩]⟩,
  ⟨0x4, [], 32, [⟨11, 8, .ro, 0x2⟩, ⟨3, 0, .ro, 0x2⟩]⟩,
  ⟨0x8, [], 32, [⟨1, 1, .wo, 0x0⟩, ⟨0, 0, .wo, 0x0⟩]⟩,
  ⟨0xC, [], 32, [⟨0, 0, .wo, 0x0⟩]⟩,
  ⟨0x10, [], 64, [⟨63, 0, .ro, 0x0⟩]⟩,
  ⟨0x100000, [], 32, [⟨31, 24, .ro, 0x0⟩, ⟨23, 16, .ro, 0x0⟩, ⟨11, 11, .ro, 0x0⟩, ⟨10, 10, .ro, 0x0⟩, ⟨9, 9, .ro, 0x0⟩, ⟨8, 8, .ro, 0x0⟩, ⟨1, 0, .ro, 0x0⟩]⟩,
  ⟨0x100004, [], 32, [⟨31, 0, .ro, 0x0⟩]⟩,
  ⟨0x100010, [], 32, [⟨31, 0, .rw, 0x0⟩]⟩,
  ⟨0x100014, [], 32, [⟨31, 31, .ro, 0x0⟩, ⟨30, 28, .ro, 0x0⟩, ⟨1, 0, .wo, 0x0⟩]⟩,
  ⟨0x100100, [(64, 0x4)], 32, [⟨31, 0, .rw, 0x0⟩]⟩,
  ⟨0x108000, [(1024, 0x8)], 64, [⟨63, 0, .rwp, 0x0⟩]⟩,
  ⟨0x10A000, [(1024, 0x4)], 32, [⟨31, 0, .ro, 0x0⟩]⟩,
  ⟨0x10B000, [], 32, [⟨31, 31, .w1c, 0x0⟩, ⟨30, 30, .ro, 0x0⟩, ⟨9, 0, .ro, 0x0⟩]⟩,
  ⟨0x200000, [], 32, [⟨15, 0, .rl, 0x7D0⟩]⟩,
  ⟨0x200004, [], 32, [⟨31, 29, .ro, 0x0⟩, ⟨28, 19, .ro, 0x0⟩, ⟨18, 9, .ro, 0x0⟩, ⟨8, 8, .ro, 0x0⟩, ⟨7, 0, .ro, 0x0⟩]⟩,
  ⟨0x200008, [], 64, [⟨63, 0, .ro, 0x0⟩]⟩,
  ⟨0x200100, [(32, 0x4)], 32, [⟨15, 8, .rl, 0x10⟩, ⟨1, 0, .rl, 0x0⟩]⟩,
  ⟨0x200200, [(32, 0x4)], 32, [⟨31, 30, .ro, 0x0⟩, ⟨15, 0, .rc, 0x0⟩]⟩,
  ⟨0x200400, [(32, 0x8)], 64, [⟨63, 0, .rl, 0x0⟩]⟩,
  ⟨0x208000, [], 32, [⟨15, 8, .w1c, 0x0⟩, ⟨7, 0, .ro, 0x0⟩]⟩,
  ⟨0x208004, [], 32, [⟨7, 0, .ro, 0x0⟩]⟩,
  ⟨0x208008, [], 32, [⟨3, 2, .ro, 0x0⟩, ⟨1, 1, .ro, 0x0⟩, ⟨0, 0, .ro, 0x0⟩]⟩,
  ⟨0x208010, [], 32, [⟨7, 0, .rl, 0x64⟩]⟩,
  ⟨0x208014, [], 32, [⟨31, 31, .ro, 0x0⟩, ⟨30, 30, .ro, 0x0⟩, ⟨23, 18, .ro, 0x0⟩, ⟨11, 0, .rc, 0x0⟩]⟩,
  ⟨0x208020, [(36, 0x4)], 32, [⟨11, 0, .ro, 0x0⟩]⟩,
  ⟨0x300000, [], 32, [⟨31, 16, .rl, 0x3E80⟩, ⟨5, 0, .rl, 0xA⟩]⟩,
  ⟨0x300008, [], 64, [⟨63, 0, .ro, 0x0⟩]⟩,
  ⟨0x300010, [], 32, [⟨31, 0, .ro, 0x2710⟩]⟩,
  ⟨0x301000, [], 32, [⟨2, 2, .rl, 0x0⟩, ⟨1, 1, .rw, 0x1⟩, ⟨0, 0, .rw, 0x0⟩]⟩,
  ⟨0x301004, [], 32, [⟨31, 31, .ro, 0x0⟩, ⟨21, 5, .ro, 0x10000⟩, ⟨4, 0, .ro, 0x0⟩]⟩,
  ⟨0x301020, [], 64, [⟨63, 0, .ro, 0x0⟩]⟩,
  ⟨0x301028, [], 64, [⟨63, 0, .ro, 0x0⟩]⟩,
  ⟨0x301030, [], 64, [⟨63, 0, .ro, 0x0⟩]⟩]

/-- Rows of the register index, part 2. -/
def regRows1 : List RegRow := [
  ⟨0x301038, [], 64, [⟨63, 0, .ro, 0x0⟩]⟩,
  ⟨0x301100, [], 32, [⟨23, 0, .rl, 0x0⟩]⟩,
  ⟨0x301104, [], 32, [⟨23, 0, .rl, 0x0⟩]⟩,
  ⟨0x301108, [], 32, [⟨19, 0, .rl, 0x0⟩]⟩,
  ⟨0x30110C, [], 32, [⟨23, 0, .rl, 0x0⟩]⟩,
  ⟨0x301110, [], 32, [⟨27, 0, .rl, 0x0⟩]⟩,
  ⟨0x301400, [(32, 0x10)], 32, [⟨23, 0, .rl, 0x0⟩]⟩,
  ⟨0x301404, [(32, 0x10)], 32, [⟨19, 0, .rl, 0x0⟩]⟩,
  ⟨0x301408, [(32, 0x10)], 32, [⟨23, 0, .rl, 0x0⟩]⟩,
  ⟨0x30140C, [(32, 0x10)], 32, [⟨15, 0, .rl, 0x0⟩]⟩,
  ⟨0x301600, [(32, 0x10)], 32, [⟨23, 0, .rl, 0x0⟩]⟩,
  ⟨0x301604, [(32, 0x10)], 32, [⟨19, 0, .rl, 0x0⟩]⟩,
  ⟨0x301608, [(32, 0x10)], 32, [⟨23, 0, .rl, 0x0⟩]⟩,
  ⟨0x30160C, [(32, 0x10)], 32, [⟨15, 0, .rl, 0x0⟩]⟩,
  ⟨0x301800, [(32, 0x4)], 32, [⟨16, 0, .ro, 0x10000⟩]⟩,
  ⟨0x301C00, [], 32, [⟨15, 0, .rw, 0x0⟩]⟩,
  ⟨0x301C40, [(16, 0x4)], 32, [⟨31, 0, .ro, 0x0⟩]⟩,
  ⟨0x400000, [], 32, [⟨31, 16, .rc, 0x0⟩, ⟨15, 0, .rc, 0x0⟩]⟩,
  ⟨0x401000, [(42, 0x20), (7, 0x4)], 32, [⟨31, 28, .rl, 0x8⟩, ⟨27, 24, .rl, 0x8⟩, ⟨23, 20, .rl, 0x8⟩, ⟨19, 16, .rl, 0x8⟩, ⟨15, 12, .rl, 0x8⟩, ⟨11, 8, .rl, 0x8⟩, ⟨7, 4, .rl, 0x8⟩, ⟨3, 0, .rl, 0x8⟩]⟩,
  ⟨0x500000, [(12, 0x10000)], 32, [⟨11, 8, .rl, 0x0⟩, ⟨7, 7, .rl, 0x0⟩, ⟨6, 5, .rl, 0x0⟩, ⟨4, 0, .rl, 0x1⟩]⟩,
  ⟨0x500004, [(12, 0x10000)], 32, [⟨31, 16, .rc, 0x0⟩, ⟨3, 3, .ro, 0x0⟩, ⟨2, 2, .ro, 0x0⟩, ⟨1, 1, .ro, 0x0⟩, ⟨0, 0, .ro, 0x0⟩]⟩,
  ⟨0x5C0000, [(2, 0x10000)], 32, [⟨11, 0, .rl, 0x258⟩]⟩,
  ⟨0x5C0008, [(2, 0x10000)], 64, [⟨63, 0, .ro, 0x0⟩]⟩,
  ⟨0x500010, [(14, 0x10000)], 64, [⟨63, 0, .ro, 0x0⟩]⟩,
  ⟨0x500018, [(14, 0x10000)], 64, [⟨63, 0, .ro, 0x0⟩]⟩,
  ⟨0x600000, [], 32, [⟨31, 0, .rc, 0x0⟩]⟩,
  ⟨0x600010, [(4, 0x100)], 64, [⟨63, 0, .ro, 0x0⟩]⟩,
  ⟨0x600018, [(4, 0x100)], 64, [⟨63, 0, .ro, 0x0⟩]⟩,
  ⟨0x700000, [(14, 0x100)], 64, [⟨63, 0, .ro, 0x0⟩]⟩,
  ⟨0x700008, [(14, 0x100)], 64, [⟨63, 0, .ro, 0x0⟩]⟩,
  ⟨0x700010, [(14, 0x100)], 64, [⟨63, 0, .ro, 0x0⟩]⟩,
  ⟨0x800000, [], 32, [⟨31, 16, .rl, 0x0⟩, ⟨13, 8, .rl, 0x0⟩, ⟨4, 0, .rl, 0x0⟩]⟩,
  ⟨0x800004, [], 32, [⟨31, 30, .ro, 0x0⟩, ⟨29, 25, .ro, 0x0⟩, ⟨24, 20, .ro, 0x0⟩, ⟨19, 19, .ro, 0x0⟩, ⟨18, 18, .ro, 0x0⟩]⟩]

/-- Rows of the register index, part 3. -/
def regRows2 : List RegRow := [
  ⟨0x800008, [], 32, [⟨31, 0, .ro, 0x0⟩]⟩,
  ⟨0x80000C, [], 32, [⟨31, 0, .ro, 0x0⟩]⟩,
  ⟨0x800010, [], 32, [⟨31, 16, .ro, 0x0⟩]⟩,
  ⟨0x800020, [], 64, [⟨63, 0, .ro, 0x0⟩]⟩,
  ⟨0x800028, [], 64, [⟨63, 0, .ro, 0x0⟩]⟩,
  ⟨0x800030, [], 64, [⟨63, 0, .ro, 0x0⟩]⟩,
  ⟨0x800038, [], 64, [⟨63, 0, .ro, 0x0⟩]⟩,
  ⟨0x800040, [], 64, [⟨63, 0, .ro, 0x0⟩]⟩,
  ⟨0x800048, [], 64, [⟨63, 0, .ro, 0x0⟩]⟩,
  ⟨0x800100, [(2, 0x100)], 32, [⟨7, 6, .rl, 0x1⟩, ⟨5, 4, .rl, 0x2⟩, ⟨3, 0, .rl, 0x5⟩]⟩,
  ⟨0x800104, [(2, 0x100)], 32, [⟨31, 28, .ro, 0x0⟩, ⟨27, 26, .ro, 0x0⟩, ⟨25, 25, .ro, 0x0⟩, ⟨24, 20, .ro, 0x0⟩, ⟨19, 16, .ro, 0x0⟩, ⟨15, 0, .ro, 0x0⟩]⟩,
  ⟨0x800108, [(2, 0x100)], 32, [⟨15, 0, .ro, 0x0⟩]⟩,
  ⟨0x800110, [(2, 0x100)], 64, [⟨63, 0, .ro, 0x0⟩]⟩,
  ⟨0x800118, [(2, 0x100)], 64, [⟨63, 0, .ro, 0x0⟩]⟩,
  ⟨0x800120, [(2, 0x100)], 64, [⟨63, 0, .ro, 0x0⟩]⟩,
  ⟨0x800128, [(2, 0x100)], 64, [⟨63, 0, .ro, 0x0⟩]⟩,
  ⟨0x810000, [(2, 0x10000), (1024, 0x4)], 32, [⟨31, 0, .rl, 0x0⟩]⟩,
  ⟨0x900000, [], 32, [⟨1, 0, .rl, 0x0⟩]⟩,
  ⟨0x900004, [], 32, [⟨31, 28, .ro, 0x0⟩, ⟨27, 27, .ro, 0x0⟩, ⟨26, 26, .ro, 0x0⟩, ⟨25, 25, .ro, 0x0⟩, ⟨24, 24, .ro, 0x0⟩, ⟨23, 23, .w1c, 0x0⟩]⟩,
  ⟨0x900008, [], 64, [⟨63, 0, .ro, 0x0⟩]⟩,
  ⟨0x900010, [], 64, [⟨63, 0, .rw, 0x0⟩]⟩,
  ⟨0x900020, [], 64, [⟨63, 0, .ro, 0x0⟩]⟩,
  ⟨0x900028, [], 64, [⟨63, 0, .ro, 0x0⟩]⟩,
  ⟨0x900030, [], 64, [⟨63, 0, .ro, 0x0⟩]⟩,
  ⟨0xA00000, [], 32, [⟨31, 31, .w1c, 0x0⟩, ⟨30, 29, .ro, 0x0⟩, ⟨10, 0, .ro, 0x0⟩]⟩,
  ⟨0xA00004, [], 32, [⟨0, 0, .wo, 0x0⟩]⟩,
  ⟨0xA00008, [], 32, [⟨16, 16, .ro, 0x0⟩, ⟨15, 8, .ro, 0x0⟩, ⟨7, 0, .ro, 0x0⟩]⟩,
  ⟨0xA00010, [(8, 0x4)], 32, [⟨31, 0, .ro, 0x0⟩]⟩,
  ⟨0xA00040, [], 64, [⟨63, 0, .ro, 0x0⟩]⟩,
  ⟨0xA00048, [], 64, [⟨63, 0, .ro, 0x0⟩]⟩,
  ⟨0xA00050, [], 64, [⟨63, 0, .ro, 0x0⟩]⟩,
  ⟨0xA00100, [(64, 0x4)], 32, [⟨31, 0, .rc, 0x0⟩]⟩,
  ⟨0xB00000, [], 32, [⟨31, 16, .rl, 0xFFFF⟩, ⟨0, 0, .rl, 0x0⟩]⟩]

/-- Rows of the register index, part 4. -/
def regRows3 : List RegRow := [
  ⟨0xB00004, [], 32, [⟨15, 0, .rw, 0xFFFF⟩]⟩,
  ⟨0xB00008, [], 32, [⟨31, 16, .rc, 0x0⟩, ⟨15, 0, .rc, 0x0⟩]⟩,
  ⟨0xB0000C, [], 32, [⟨8, 8, .wo, 0x0⟩, ⟨7, 0, .wo, 0x0⟩]⟩,
  ⟨0xB00010, [(8, 0x4)], 32, [⟨31, 0, .w1c, 0x0⟩]⟩,
  ⟨0xB00030, [], 32, [⟨31, 16, .w1c, 0x0⟩, ⟨15, 0, .ro, 0x0⟩]⟩,
  ⟨0xB00040, [(16, 0x4)], 32, [⟨31, 24, .rl, 0x0⟩, ⟨1, 0, .rl, 0x0⟩]⟩,
  ⟨0xB00100, [(32, 0x4)], 32, [⟨31, 30, .rl, 0x0⟩, ⟨29, 25, .rl, 0x0⟩, ⟨24, 16, .rl, 0x0⟩, ⟨15, 15, .rl, 0x0⟩]⟩,
  ⟨0xB01000, [(256, 0x20)], 32, [⟨31, 30, .rl, 0x0⟩, ⟨29, 21, .rl, 0x0⟩, ⟨20, 20, .rl, 0x0⟩, ⟨19, 19, .rl, 0x0⟩, ⟨15, 0, .rl, 0x0⟩]⟩,
  ⟨0xB01004, [(256, 0x20), (4, 0x4)], 32, [⟨25, 16, .rl, 0x0⟩, ⟨9, 0, .rl, 0x0⟩]⟩,
  ⟨0xB01014, [(256, 0x20), (2, 0x4)], 32, [⟨31, 0, .rl, 0x0⟩]⟩,
  ⟨0xB0101C, [(256, 0x20)], 32, [⟨31, 24, .rc, 0x0⟩, ⟨23, 16, .rc, 0x0⟩, ⟨15, 8, .rc, 0x0⟩, ⟨1, 1, .w1c, 0x0⟩, ⟨0, 0, .w1c, 0x0⟩]⟩,
  ⟨0xC00000, [], 64, [⟨63, 0, .ro, 0x0⟩]⟩,
  ⟨0xC01000, [(64, 0x10)], 64, [⟨63, 0, .rw, 0x0⟩]⟩,
  ⟨0xC01008, [(64, 0x10)], 32, [⟨31, 31, .rw, 0x0⟩, ⟨30, 30, .rw, 0x0⟩, ⟨29, 29, .w1c, 0x0⟩]⟩,
  ⟨0xC0100C, [(64, 0x10)], 32, [⟨31, 0, .rw, 0x0⟩]⟩,
  ⟨0xC02000, [(32, 0x20)], 32, [⟨31, 0, .rw, 0x0⟩]⟩,
  ⟨0xC02004, [(32, 0x20)], 32, [⟨31, 0, .rw, 0x0⟩]⟩,
  ⟨0xC02008, [(32, 0x20)], 32, [⟨31, 0, .rw, 0x0⟩]⟩,
  ⟨0xC0200C, [(32, 0x20)], 32, [⟨31, 0, .rw, 0x0⟩]⟩,
  ⟨0xC02010, [(32, 0x20)], 32, [⟨31, 31, .wo, 0x0⟩, ⟨30, 30, .wo, 0x0⟩, ⟨29, 29, .wo, 0x0⟩, ⟨28, 24, .rw, 0x0⟩, ⟨23, 22, .rw, 0x0⟩, ⟨21, 17, .rw, 0x0⟩, ⟨16, 15, .rw, 0x0⟩, ⟨14, 11, .rw, 0x0⟩, ⟨10, 10, .rw, 0x0⟩]⟩,
  ⟨0xC02014, [(32, 0x20)], 32, [⟨31, 24, .rc, 0x0⟩, ⟨0, 0, .ro, 0x0⟩]⟩,
  ⟨0xD00000, [], 32, [⟨13, 7, .rw, 0x0⟩, ⟨6, 0, .rw, 0x0⟩]⟩,
  ⟨0xD00004, [], 32, [⟨31, 31, .ro, 0x0⟩, ⟨30, 28, .ro, 0x0⟩, ⟨27, 23, .ro, 0x0⟩, ⟨22, 21, .ro, 0x0⟩, ⟨20, 20, .w1c, 0x0⟩, ⟨19, 19, .w1c, 0x0⟩, ⟨7, 0, .rc, 0x0⟩]⟩,
  ⟨0xD00010, [], 64, [⟨63, 0, .ro, 0x0⟩]⟩,
  ⟨0xD00018, [], 64, [⟨63, 0, .ro, 0x0⟩]⟩,
  ⟨0xD00020, [], 64, [⟨63, 0, .ro, 0x0⟩]⟩,
  ⟨0xD00028, [], 64, [⟨63, 0, .ro, 0x0⟩]⟩,
  ⟨0xD01000, [(64, 0x20)], 64, [⟨63, 12, .rw, 0x0⟩]⟩,
  ⟨0xD01008, [(64, 0x20)], 32, [⟨31, 31, .rw, 0x0⟩, ⟨29, 24, .rw, 0x0⟩, ⟨23, 12, .ro, 0x0⟩, ⟨3, 0, .rw, 0x1⟩]⟩,
  ⟨0xD0100C, [(64, 0x20)], 32, [⟨11, 0, .wo, 0x0⟩]⟩,
  ⟨0xD01010, [(64, 0x20)], 64, [⟨63, 12, .rw, 0x0⟩]⟩,
  ⟨0xD01018, [(64, 0x20)], 32, [⟨31, 31, .rw, 0x0⟩, ⟨30, 30, .wo, 0x0⟩, ⟨29, 23, .rw, 0x0⟩, ⟨20, 5, .ro, 0x0⟩, ⟨4, 0, .rw, 0x1⟩]⟩,
  ⟨0xD0101C, [(64, 0x20)], 32, [⟨15, 0, .wo, 0x0⟩]⟩]

/-- Rows of the register index, part 5. -/
def regRows4 : List RegRow := [
  ⟨0xD02000, [], 32, [⟨31, 31, .w1s, 0x0⟩, ⟨30, 28, .ro, 0x0⟩, ⟨15, 0, .rw, 0x0⟩]⟩,
  ⟨0xD02100, [(64, 0x4)], 32, [⟨31, 0, .rw, 0x0⟩]⟩,
  ⟨0xD02200, [(64, 0x4)], 32, [⟨31, 0, .ro, 0x0⟩]⟩,
  ⟨0xE00000, [], 32, [⟨31, 18, .rl, 0x0⟩, ⟨17, 11, .rl, 0x0⟩, ⟨4, 4, .rl, 0x0⟩, ⟨3, 3, .rl, 0x0⟩, ⟨2, 2, .rl, 0x0⟩, ⟨1, 1, .rl, 0x0⟩, ⟨0, 0, .rl, 0x0⟩]⟩,
  ⟨0xE00004, [], 32, [⟨31, 31, .ro, 0x0⟩, ⟨30, 30, .ro, 0x0⟩, ⟨29, 29, .ro, 0x0⟩, ⟨28, 28, .ro, 0x0⟩, ⟨23, 0, .rc, 0x0⟩]⟩,
  ⟨0xE00010, [], 64, [⟨63, 0, .ro, 0x0⟩]⟩,
  ⟨0xE00020, [], 32, [⟨31, 29, .ro, 0x0⟩, ⟨28, 28, .ro, 0x0⟩, ⟨27, 24, .ro, 0x0⟩, ⟨23, 0, .ro, 0x0⟩]⟩,
  ⟨0xE00028, [], 64, [⟨63, 0, .ro, 0x0⟩]⟩,
  ⟨0xE00040, [(16, 0x4)], 32, [⟨31, 0, .ro, 0x0⟩]⟩,
  ⟨0xE00100, [], 32, [⟨1, 1, .ro, 0x0⟩, ⟨0, 0, .rw, 0x0⟩]⟩,
  ⟨0xE01000, [(32, 0x20), (4, 0x8)], 64, [⟨63, 0, .ro, 0x0⟩]⟩,
  ⟨0xE08000, [], 32, [⟨0, 0, .rl, 0x0⟩]⟩,
  ⟨0xE08004, [], 32, [⟨15, 0, .rc, 0x0⟩]⟩,
  ⟨0x1000040, [(512, 0x10000)], 32, [⟨0, 0, .rl, 0x0⟩]⟩,
  ⟨0x1000044, [(512, 0x10000)], 32, [⟨31, 16, .rc, 0x0⟩, ⟨0, 0, .ro, 0x0⟩]⟩,
  ⟨0x1000050, [(512, 0x10000)], 64, [⟨63, 56, .rl, 0x0⟩, ⟨55, 48, .rl, 0x0⟩, ⟨47, 40, .rl, 0x0⟩, ⟨39, 32, .rl, 0x0⟩, ⟨31, 24, .rl, 0x0⟩, ⟨23, 16, .rl, 0x0⟩, ⟨15, 8, .rl, 0x0⟩, ⟨7, 0, .rl, 0x0⟩]⟩,
  ⟨0x1000058, [(512, 0x10000)], 32, [⟨7, 0, .rl, 0x0⟩]⟩,
  ⟨0x1000060, [(512, 0x10000)], 32, [⟨31, 24, .rc, 0x0⟩, ⟨23, 16, .rc, 0x0⟩, ⟨15, 8, .rc, 0x0⟩, ⟨3, 2, .ro, 0x0⟩, ⟨1, 1, .ro, 0x0⟩, ⟨0, 0, .ro, 0x0⟩]⟩,
  ⟨0x1000070, [(512, 0x10000)], 32, [⟨31, 24, .rc, 0x0⟩, ⟨23, 16, .rc, 0x0⟩, ⟨15, 8, .rc, 0x0⟩, ⟨7, 0, .rc, 0x0⟩]⟩,
  ⟨0x1000080, [(512, 0x10000)], 32, [⟨31, 24, .rc, 0x0⟩, ⟨23, 16, .rc, 0x0⟩, ⟨6, 0, .ro, 0x0⟩]⟩,
  ⟨0x1000090, [(512, 0x10000)], 32, [⟨31, 0, .rc, 0x0⟩]⟩,
  ⟨0x1000094, [(512, 0x10000)], 32, [⟨31, 0, .rc, 0x0⟩]⟩,
  ⟨0x10000A0, [(512, 0x10000)], 32, [⟨31, 24, .rc, 0x0⟩, ⟨23, 16, .rc, 0x0⟩, ⟨15, 0, .rc, 0x0⟩]⟩,
  ⟨0x10000B0, [(512, 0x10000)], 32, [⟨8, 8, .ro, 0x0⟩, ⟨7, 0, .ro, 0x0⟩]⟩,
  ⟨0x10000C0, [(512, 0x10000)], 32, [⟨1, 1, .ro, 0x0⟩, ⟨0, 0, .ro, 0x0⟩]⟩,
  ⟨0x10000C8, [(512, 0x10000)], 64, [⟨63, 0, .ro, 0x0⟩]⟩,
  ⟨0x1000100, [(512, 0x10000)], 64, [⟨63, 0, .ro, 0x0⟩]⟩,
  ⟨0x1000108, [(512, 0x10000)], 64, [⟨63, 0, .ro, 0x0⟩]⟩,
  ⟨0x1000110, [(512, 0x10000)], 64, [⟨63, 0, .ro, 0x0⟩]⟩,
  ⟨0x1000118, [(512, 0x10000)], 64, [⟨63, 0, .ro, 0x0⟩]⟩,
  ⟨0x1000120, [(512, 0x10000)], 64, [⟨63, 0, .ro, 0x0⟩]⟩,
  ⟨0x1000128, [(512, 0x10000)], 64, [⟨63, 0, .ro, 0x0⟩]⟩,
  ⟨0x1000130, [(512, 0x10000)], 64, [⟨63, 0, .ro, 0x0⟩]⟩]

/-- Every register of the window (Table 19.4). -/
def regRows : List RegRow := regRows0 ++ regRows1 ++ regRows2 ++ regRows3 ++ regRows4

/-- The distance of an offset from the start of the instance of a replicated register that holds it, if one does. -/
def dimOffset : List (Nat × Nat) → Nat → Option Nat
  | [], d => some d
  | (n, st) :: t, d => if d / st < n then dimOffset t (d % st) else none

/-- The byte of the register that an offset names, if it lies in one of the row's instances. -/
def RegRow.at (r : RegRow) (off : Nat) : Option Nat :=
  if off < r.base then none
  else
    match dimOffset r.dims (off - r.base) with
    | some d => if d < r.width / 8 then some d else none
    | none => none

/-- The register that holds a window offset, with the byte offset inside it: 0 for the low word, 4 for the high
word. None where no chapter defines the offset (R8). -/
def findReg (off : Nat) : List RegRow → Option (RegRow × Nat)
  | [] => none
  | r :: t =>
    match r.at off with
    | some d => some (r, d)
    | none => findReg off t

/-- The reset value of the whole register. -/
def RegRow.rst (r : RegRow) : Nat := r.fields.foldl (fun a f => a + f.rst * 2 ^ f.lo) 0

end Sys2Proof.Machine
end

