-- ==== Sys2Proof/Machine/Ops.lean ====
section
/-!
DEFINITION. The operations every unit shares: register fields and counters, the clock and the Laps, the Domain, fault
records and the Fault Collector, the Event Fabric and the countdown timers' actions.
-/
namespace Sys2Proof

/-- Bits `hi` to `lo` of a number (R5). -/
def bitsOf (w hi lo : Nat) : Nat := w / 2 ^ lo % 2 ^ (hi + 1 - lo)

/-- The number with bits `hi` to `lo` replaced by the low bits of `v`. -/
def putBits (w hi lo v : Nat) : Nat :=
  w % 2 ^ lo + (v % 2 ^ (hi + 1 - lo)) * 2 ^ lo + w / 2 ^ (hi + 1) * 2 ^ (hi + 1)

/-- CLASS of a fault record (Table 12.7). -/
def FaultRec.cls (r : FaultRec) : Nat := bitsOf r.w0.toNat 47 40
/-- SEV of a fault record (Table 12.7). -/
def FaultRec.sev (r : FaultRec) : Nat := bitsOf r.w0.toNat 39 38
/-- SIDE of a fault record (Table 12.7). -/
def FaultRec.side (r : FaultRec) : Nat := bitsOf r.w0.toNat 37 37
/-- ORIGIN of a fault record (Table 12.7). -/
def FaultRec.origin (r : FaultRec) : Nat := bitsOf r.w0.toNat 35 18
/-- LAP of a fault record (Table 12.7). -/
def FaultRec.lap16 (r : FaultRec) : Nat := bitsOf r.w0.toNat 63 48
/-- EPOCH of a fault record (Table 12.7). -/
def FaultRec.epoch (r : FaultRec) : Nat := bitsOf r.w2.toNat 63 48
/-- TASK of a fault record (Table 12.7). -/
def FaultRec.task (r : FaultRec) : Nat := bitsOf r.w2.toNat 47 32
/-- DETAIL of a fault record (Table 12.7). -/
def FaultRec.detail (r : FaultRec) : Nat := bitsOf r.w2.toNat 31 0
/-- TBLO of a fault record (Table 12.7). -/
def FaultRec.tblo (r : FaultRec) : Nat := bitsOf r.w3.toNat 31 0

/-- The coalescing key: ORIGIN, SIDE and CLASS (R421). -/
def FaultRec.key (r : FaultRec) : Nat := r.origin * 512 + r.side * 256 + r.cls

/-- The record with one more occurrence counted, saturating (Table 12.7). -/
def FaultRec.again (r : FaultRec) : FaultRec :=
  if bitsOf r.w3.toNat 63 32 = 0xFFFFFFFF then r else { r with w3 := r.w3 + 0x100000000 }

/-- The record as received from another part or the partner: FWD is 1. -/
def FaultRec.fwd (r : FaultRec) : FaultRec := { r with w0 := r.w0 ||| 0x1000000000 }

end Sys2Proof

namespace Sys2Proof.Machine

/-! ### Fields of registers (R7, R8, R71) -/

/-- The high word of a 64-bit register; every high word resets to 0 (Table 19.4). -/
def RegRef.high (r : RegRef) : RegRef := ⟨r.off + 4, 0⟩

/-- The word of a register. -/
def State.rd (s : State) (r : RegRef) : BitVec 32 := SMap.get r.rst s.regs r.off

/-- Write the word of a register. -/
def State.wr (s : State) (r : RegRef) (v : BitVec 32) : State :=
  { s with regs := SMap.set r.rst s.regs r.off v }

/-- A field of a register. -/
def State.fld (s : State) (r : RegRef) (hi lo : Nat) : Nat := bitsOf (s.rd r).toNat hi lo

/-- Write a field of a register. -/
def State.setFld (s : State) (r : RegRef) (hi lo v : Nat) : State :=
  s.wr r (BitVec.ofNat 32 (putBits (s.rd r).toNat hi lo v))

/-- A one-bit field. -/
def State.bit (s : State) (r : RegRef) (b : Nat) : Bool := s.fld r b b = 1

/-- Write a one-bit field. -/
def State.setBit (s : State) (r : RegRef) (b : Nat) (v : Bool) : State := s.setFld r b b v.toNat

/-- A 64-bit register. -/
def State.rd64 (s : State) (r : RegRef) : W64 := s.rd r.high ++ s.rd r

/-- Write a 64-bit register. -/
def State.wr64 (s : State) (r : RegRef) (v : W64) : State :=
  (s.wr r (v.setWidth 32)).wr r.high (BitVec.ofNat 32 (v.toNat / 2 ^ 32))

/-- Add to a 64-bit counter, which wraps (R71, R389, R427, R429, R489, R561). -/
def State.add64 (s : State) (r : RegRef) (n : Nat) : State := s.wr64 r (s.rd64 r + BitVec.ofNat 64 n)

/-- Increment a counter field that saturates (R179, R219, R283, R319, R458, R460). -/
def State.satInc (s : State) (r : RegRef) (hi lo : Nat) : State :=
  if s.fld r hi lo + 1 < 2 ^ (hi + 1 - lo) then s.setFld r hi lo (s.fld r hi lo + 1) else s

/-! ### Time and Laps (R34 to R36, R448) -/

/-- LAP_TICKS: ticks of a Lap (R34). -/
def State.lapTicks (s : State) : Nat := s.fld Reg.lapCfg 5 0 * 1000

/-- LAP_NUM: the current Lap (R35). -/
def State.lap (s : State) : Nat := s.tb / s.lapTicks

/-- CCLK_PER_LAP (R34). -/
def State.cclk (s : State) : Nat := s.fld Reg.lapCfg 31 16

/-- The bookable cycles U of an engine in a Lap (R36). -/
def State.uCycles (s : State) : Nat := s.cclk - 2400

/-- The hub cycle of the present tick: 1.6 or 1.4 cycles a tick (R6, R430). -/
def State.hubNow (s : State) : Nat := if s.ord14 then s.tb * 7 / 5 else s.tb * 8 / 5

/-- Cycle `c` of the present Lap has come (R34). -/
def State.pastCycle (s : State) (c : Nat) : Bool := c ≤ s.tb % s.lapTicks * (if s.ord14 then 7 else 8) / 5

/-- The modes in which Tasks run (R504). -/
def Mode.running : Mode → Bool
  | .solo | .ring | .lead | .trail | .degraded | .replay => true
  | .off | .hold | .dawn | .prep | .dusk | .service => false

/-- Tasks run in the running modes and in the Drain of Dusk (R504, R522). -/
def State.runs (s : State) : Bool := s.mode.running || (s.mode = .dusk && s.fld Reg.pwrDuskStat 31 29 = 1)

/-- LEAD and TRAIL mode (spec/12). -/
def Mode.mirrored : Mode → Bool
  | .lead | .trail => true
  | .off | .hold | .dawn | .prep | .solo | .ring | .degraded | .replay | .dusk | .service => false

/-- The modes whose engines read the view V and whose Time Base reads are frozen at the Lap (R112, R168, R447). -/
def Mode.viewed : Mode → Bool
  | .lead | .trail | .replay => true
  | .off | .hold | .dawn | .prep | .solo | .ring | .degraded | .dusk | .service => false

/-- The mode whose rules of sides, inputs and time apply: in the Drain and Post of Dusk that of the mode before (R524). -/
def State.actMode (s : State) : Mode :=
  if s.mode = .dusk && 1 ≤ s.fld Reg.pwrDuskStat 31 29 && s.fld Reg.pwrDuskStat 31 29 ≤ 2 then s.drainMode else s.mode

/-- The mode's number in DEV_MODE (Table 15.20). -/
def Mode.code : Mode → Nat
  | .off => 0 | .hold => 1 | .dawn => 2 | .prep => 3 | .solo => 4 | .ring => 5 | .lead => 6 | .trail => 7
  | .degraded => 8 | .replay => 9 | .dusk => 10 | .service => 11

/-! ### The Domain (R25) -/

/-- This part's number. -/
def State.pos (s : State) : Nat := s.fld Reg.ringCfg 4 0

/-- The ring size; 0 in SOLO. -/
def State.ringSize (s : State) : Nat := s.fld Reg.ringCfg 13 8

/-- The part number names a part of the Domain (R25). -/
def State.inDomain (s : State) (n : Nat) : Bool := if s.ringSize = 0 then n = s.pos else n < s.ringSize

/-! ### Fault records (R419 to R422) -/

/-- ORIGIN from part, kind and index (R420). -/
def originOf (part kind idx : Nat) : Nat := part % 32 * 2 ^ 13 + kind % 16 * 2 ^ 9 + idx % 512

/-- This part is on the Trail side: in mirrored operation its mode says so, since a survivor that leads again keeps its
ROLE (R394, R425, Table 12.7). -/
def State.onTrail (s : State) : Bool :=
  if s.actMode.mirrored then s.actMode = .trail else s.fld Reg.pairCfg 1 0 = 2

/-- A fault record of this part at the present tick (Table 12.7). -/
def State.mkRec (s : State) (cls sev origin addr epoch task detail : Nat) : FaultRec :=
  { w0 := BitVec.ofNat 64 (s.lap % 65536 * 2 ^ 48 + cls % 256 * 2 ^ 40 + sev % 4 * 2 ^ 38
      + (if s.onTrail then 2 ^ 37 else 0) + origin % 2 ^ 18 * 2 ^ 18 + 3),
    w1 := BitVec.ofNat 64 addr,
    w2 := BitVec.ofNat 64 (epoch % 65536 * 2 ^ 48 + task % 65536 * 2 ^ 32 + detail % 2 ^ 32),
    w3 := BitVec.ofNat 64 (s.tb % 2 ^ 32) }

/-- Place a record behind the head in descending SEV order and order of arrival (R422). -/
def placeRec (r : FaultRec) : List FaultRec → List FaultRec
  | [] => [r]
  | h :: t => if h.sev < r.sev then r :: h :: t else h :: placeRec r t

/-- Count one more occurrence on the first record with the key. -/
def coalesceRec (k : Nat) : List FaultRec → List FaultRec
  | [] => []
  | h :: t => if h.key = k then h.again :: t else h :: coalesceRec k t

/-- Queueing a record (R421, R422). -/
def State.queueRec (s : State) (r : FaultRec) : State :=
  match s.flt.queue with
  | [] => { s with flt := { s.flt with queue := [r] } }
  | h :: t =>
    if t.any (fun x => x.key = r.key) then
      { s with flt := { s.flt with queue := h :: coalesceRec r.key t } }.add64 Reg.fltCntCoal 1
    else if t.length + 1 < 1024 then { s with flt := { s.flt with queue := h :: placeRec r t } }
    else (s.satInc (Reg.fltOvf r.cls) 31 0).setBit Reg.fltStat 31 true

/-- Send something out of the part. -/
def State.emit (s : State) (o : Out) : State := { s with host := { s.host with out := s.host.out ++ [o] } }

/-- Port `p`: 0 East, 1 West, 2 Pair. -/
def State.port (s : State) (p : Nat) : Port := SMap.get Port.init s.ring.ports p

/-- Write port `p`. -/
def State.setPort (s : State) (p : Nat) (x : Port) : State :=
  { s with ring := { s.ring with ports := SMap.set Port.init s.ring.ports p x } }

/-- Change port `p`. -/
def State.updPort (s : State) (p : Nat) (f : Port → Port) : State := s.setPort p (f (s.port p))

/-- Put a flit on a port's injection queue (R361). -/
def State.inject (s : State) (p : Nat) (f : Flit) : State := s.updPort p (fun x => { x with inject := x.inject ++ [f] })

/-- A flit of this part with its ring fields; SEQ, ACK and ESEQ are set when it is sent (R355, R370). -/
def State.mkFlit (s : State) (kind dst vc cls reqr : Nat) (body : List W64) : Flit :=
  { kind := BitVec.ofNat 3 kind, seq := 0, ack := 0, nak := 0, crd := 0, src := BitVec.ofNat 5 s.pos,
    dst := BitVec.ofNat 5 dst, cls := BitVec.ofNat 2 cls, vc := BitVec.ofNat 2 vc,
    laptag := BitVec.ofNat 8 s.lap, hops := 0, loop := 0, eseq := 0, dlen := 0, sts := 0,
    reqr := BitVec.ofNat 10 reqr, body := body ++ List.replicate (32 - body.length) 0 }

/-- The body of a PKT flit with one packet: header, TYPE codes, slots (R366). -/
def pktBody (epoch ty : Nat) (ws : List W64) : List W64 :=
  let n := (ws.length + 1) / 2
  [BitVec.ofNat 64 (epoch % 65536 * 2 ^ 48 + n % 16 * 2 ^ 32),
   BitVec.ofNat 64 ((List.range n).foldl (fun a i => a + (if i = 0 then ty else 0xF) * 2 ^ (4 * i)) 0)] ++ ws

/-- The channel of a pair packet by its TYPE (Tables 12.2, 12.3). -/
def pairVc (ty : Nat) : Nat := if ty = 7 then 1 else if 8 ≤ ty then 3 else 0

/-- Send a pair packet to the partner (R403, R404). -/
def State.sendPair (s : State) (ty : Nat) (ws : List W64) : State :=
  s.inject 2 (s.mkFlit 1 s.pos (pairVc ty) 0 1023 (pktBody 0 ty ws))

/-- The sending side of a triple: `k` is DST × 4 + VC, and 128 + VC on the pair port. The first ESEQ is 1 (DESIGN CHOICE, log 12). -/
def State.tx (s : State) (k : Nat) : TxE2e := SMap.get ⟨1, 0, []⟩ s.ring.tx2e k

/-- Write the sending side of a triple. -/
def State.setTx (s : State) (k : Nat) (x : TxE2e) : State :=
  { s with ring := { s.ring with tx2e := SMap.set ⟨1, 0, []⟩ s.ring.tx2e k x } }

/-- A flit goes to a ring port's injection queue; at a lost port it is turned back, and lost where both are (R378). -/
def State.toPort (s : State) (p : Nat) (f : Flit) : State :=
  if !(s.port p).lost then s.inject p f
  else if (s.port (1 - p)).lost then s.add64 Reg.ringCntDrop 1
  else s.inject (1 - p) { f with loop := 1, hops := 0 }

/-- Broadcast a message on CTL from both ports; a broadcast names its own part as destination, and both copies bear
one ESEQ (R372, DESIGN CHOICE, log 18). -/
def State.sendCtl (s : State) (ws : List W64) : State :=
  if s.ringSize = 0 then s
  else
    let x := s.tx (s.pos * 4 + 3)
    let f := { s.mkFlit 1 s.pos 3 2 1023 (pktBody 0 6 ws) with eseq := x.next }
    ((s.setTx (s.pos * 4 + 3) { x with next := x.next + 1 }).toPort 0 f).toPort 1 f

/-- Classes that identify a side in mirrored operation (FENCE of Table 12.5). -/
def fenceClass (cls : Nat) : Bool :=
  [0x02, 0x03, 0x05, 0x07, 0x08, 0x09, 0x0A, 0x0B, 0x0C, 0x0D, 0x0E, 0x10].contains cls

/-- The full Lap number that a 16-bit LAP names: the latest at or before the present Lap. -/
def State.fullLap (s : State) (l16 : Nat) : Nat := s.lap - (s.lap + 65536 - l16 % 65536) % 65536

/-- Mirrored operation in force: LEAD or TRAIL and no Handoff has divided the sides (R412). -/
def State.mirroredNow (s : State) : Bool :=
  s.actMode.mirrored && !s.bit Reg.pairStat 27 && !s.bit Reg.pairStat 26

/-- Fix the Handoff by a record and the side to fence (R411, R412): h is d + 4. -/
def State.fixHandoff (s : State) (r : FaultRec) (trail : Bool) : State :=
  ({ s with pair := { s.pair with ident := some r, handoff := some (s.fullLap r.lap16 + 4, trail) } }.setBit
    Reg.pairStat 25 true).wr64 Reg.pairHandoffLap (BitVec.ofNat 64 (s.fullLap r.lap16 + 4))

/-- A record whose class fences identifies its side; the earlier of two decides, and the Trail ring is fenced when
they are equal (R411). -/
def State.identifyBy (s : State) (r : FaultRec) (time : FaultRec → Nat) : State :=
  if s.mirroredNow && fenceClass r.cls then
    match s.pair.ident with
    | none => s.fixHandoff r (r.side = 1)
    | some q =>
      if q.side = r.side then s
      else
        if time r < time q then s.fixHandoff r (r.side = 1)
        else if time q = time r then s.fixHandoff q true else s
  else s

/-- The side that a record gives fault is identified, by the full Lap and the low half of the timebase that the records
carry (R422). -/
def State.identify (s : State) (r : FaultRec) : State :=
  s.identifyBy r (fun q => s.fullLap q.lap16 * 2 ^ 32 + q.tblo)

/-- Where a record comes from. -/
inductive RecSrc where
  | own | ring | partner
deriving DecidableEq, Repr

/-- The Fault Collector takes a record in: broadcast, Handoff, queue (R412, R421, R422). -/
def State.collect (s : State) (r : FaultRec) (src : RecSrc) : State :=
  let seen := s.flt.keys.contains r.key
  let s1 := if seen then s else { s with flt := { s.flt with keys := s.flt.keys ++ [r.key] } }
  let s2 :=
    if src = .own && 2 ≤ r.sev && !seen && s.ringSize ≠ 0 then (s1.sendCtl [r.w0, r.w1, r.w2, r.w3]).add64 Reg.fltCntFwd 1 else s1
  let s3 :=
    if src ≠ .partner && s.mirroredNow && fenceClass r.cls then s2.sendPair 0xA [r.w0, r.w1, r.w2, r.w3] else s2
  let s4 := s3.identify r
  s4.queueRec (if src = .own then r else r.fwd)

/-- SEV of each class (Table 12.5). -/
def classSev (cls : Nat) : Nat :=
  if [0x01, 0x04, 0x13, 0x16].contains cls then 0
  else if [0x06, 0x0D, 0x12, 0x15].contains cls then 1
  else if [0x07, 0x08, 0x09, 0x0C].contains cls then 3
  else 2

/-- Raise a fault of this part (R410, R421). -/
def State.fault (s : State) (cls origin addr epoch task detail : Nat) : State :=
  s.collect (s.mkRec cls (classSev cls) origin addr epoch task detail) .own

/-! ### Countdown timers (R451 to R453) -/

/-- The count that START and RESET load (R452). -/
def State.cdtLoad (s : State) (j : Nat) : BitVec 32 :=
  if s.rd (Reg.cdtPhase j) ≠ 0 then s.rd (Reg.cdtPhase j) else s.rd (Reg.cdtReload j)

/-- CDT_STAT.RUN. -/
def State.cdtRun (s : State) (j : Nat) : Bool := s.bit (Reg.cdtStat j) 0

/-- A step that has reached 0 stops the timer or reloads its count, and a reload to MATCH is a MATCH (R451). The pulse follows. -/
def State.cdtReloadNow (s : State) (j : Nat) : State :=
  if SMap.get 0 s.evt.zeroDue j ≠ 1 then s
  else
    let s1 := { s with evt := { s.evt with zeroDue := SMap.set 0 s.evt.zeroDue j 2 } }
    let rel := s.rd (Reg.cdtReload j)
    if s.bit (Reg.cdtCtl j) 10 || rel = 0 then s1.setBit (Reg.cdtStat j) 0 false
    else
      let s2 := s1.wr (Reg.cdtCount j) rel
      if s.rd (Reg.cdtMatch j) = rel then
        { s2 with evt := { s2.evt with matchDue := SMap.set false s2.evt.matchDue j true } }
      else s2

/-- START on a timer, after what its last step left due (R452, R453, R440). -/
def State.cdtStart (s0 : State) (j : Nat) : State :=
  let s := s0.cdtReloadNow j
  if s.cdtRun j then s.satInc (Reg.cdtStat j) 31 24
  else if s.cdtLoad j = 0 then s
  else (s.wr (Reg.cdtCount j) (s.cdtLoad j)).setBit (Reg.cdtStat j) 0 true

/-- STOP halts the timer and keeps its count (R452). -/
def State.cdtStop (s : State) (j : Nat) : State := (s.cdtReloadNow j).setBit (Reg.cdtStat j) 0 false

/-- RESET loads the count and keeps the running state (R452). -/
def State.cdtReset (s : State) (j : Nat) : State := (s.cdtReloadNow j).wr (Reg.cdtCount j) (s.cdtLoad j)

/-- The actions that meet one timer in one tick: STOP wins; RESET and START together act as a START (R453). -/
def State.cdtActs (s : State) (j : Nat) (acts : List Nat) : State :=
  if acts.contains 2 then s.cdtStop j
  else if acts.contains 1 then s.cdtStart j
  else if acts.contains 3 then s.cdtReset j
  else s

/-- Actions on several timers, given as (action, timer), that act in one tick. -/
def State.timerActs (s : State) (acts : List (Nat × Nat)) : State :=
  (List.range 32).foldl
    (fun s j => s.cdtActs j ((acts.filter (fun a => a.2 = j)).map (fun a => a.1))) s

/-! ### The Event Fabric (R431 to R444) -/

/-- The ten-bit producer codes of a channel's eight slots (R433). -/
def State.chSources (s : State) (c : Nat) : List Nat :=
  (List.range 4).flatMap (fun k => [s.fld (Reg.evtChSrc c k) 9 0, s.fld (Reg.evtChSrc c k) 25 16])

/-- The channel lists the producer code. -/
def State.lists (s : State) (c code : Nat) : Bool := (s.chSources c).contains code

/-- The consumer codes of a channel's eight slots (R434). -/
def State.chConsumers (s : State) (c : Nat) : List Nat :=
  (List.range 2).flatMap (fun k => (List.range 4).map (fun i => s.fld (Reg.evtChDst c k) (8 * i + 7) (8 * i)))

/-- The channel's live flag. -/
def State.flag (s : State) (c : Nat) : Bool := s.bit (Reg.evtFlag (c / 32)) (c % 32)

/-- Set or clear the live flag. -/
def State.setFlag (s : State) (c : Nat) (v : Bool) : State := s.setBit (Reg.evtFlag (c / 32)) (c % 32) v

/-- The channel's group accepts pulses: always in FORK mode (R441, R442). -/
def State.groupOn (s : State) (c : Nat) : Bool :=
  !s.bit Reg.evtCfg 0 || s.bit Reg.evtGroupEn (c / 16 % 16)

/-- The bits of the groups that consumers with the given action name. -/
def groupMask (cons : List Nat) (act : Nat) : BitVec 32 :=
  cons.foldl (fun m x => if x / 32 = act then m ||| (1#32 <<< (x % 16)) else m) 0

/-- Group operations of one hub cycle: GROUP_OFF wins (R435). -/
def State.groupOps (s : State) (on off : BitVec 32) : State :=
  s.wr Reg.evtGroupEn ((s.rd Reg.evtGroupEn ||| on) &&& ~~~off)

/-- The channels that list channel `c` as a producer (R431). -/
def State.forwards (s : State) (c : Nat) : List Nat := (List.range 256).filter (fun d => s.lists d (0x100 + c))

/-- A flag that is set is seen by the engines that wait for it (R111). -/
def State.wake (s : State) (c : Nat) : State :=
  { s with engines := SMap.remap Engine.init (fun _ x =>
      match x.waite with
      | some (k, n) => if k = c then { x with waite := some (256, n) } else x
      | none => x) s.engines }

/-- An accepted pulse: flag, storm count, consumers, forwards one hub cycle later (R431, R434, R444). -/
def State.acceptPulse (s : State) (c now : Nat) : State :=
  let n := SMap.get 0 s.evt.count c + 1
  let cons := s.chConsumers c
  let s0 := if s.actMode.viewed then s.setFlag c true else (s.setFlag c true).wake c
  let s1 := { s0 with
    evt := { s.evt with
      lastAcc := SMap.set 0 s.evt.lastAcc c (now + 1), count := SMap.set 0 s.evt.count c n,
      fwd := s.evt.fwd ++ (s.forwards c).map (fun d => (d, now + 1)) } }
  let storm := s.fld (Reg.evtChCfg c) 15 0
  let s2 :=
    if storm ≠ 0 ∧ storm < n then
      (s1.setBit (Reg.evtChStat c) 0 true).setBit (Reg.evtChStat c) 1
        (s1.bit (Reg.evtChStat c) 1 || s1.bit (Reg.evtChCfg c) 19)
    else s1
  let s3 :=
    if s.bit Reg.evtCfg 0 then s2.groupOps (groupMask cons 4) (groupMask cons 5) else s2
  s3.timerActs ((cons.filter (fun x => 1 ≤ x / 32 ∧ x / 32 ≤ 3)).map (fun x => (x / 32, x % 32)))

/-- A pulse reaches channel `c` in hub cycle `now` (R431, R440, R442, R444). Pulses of one cycle merge. -/
def State.pulse (s : State) (c now : Nat) : State :=
  let last := SMap.get 0 s.evt.lastAcc c
  if !s.groupOn c then s.satInc (Reg.evtChStat c) 15 8
  else if s.bit (Reg.evtChStat c) 1 then s.satInc (Reg.evtChStat c) 31 24
  else if last ≠ 0 ∧ now + 1 = last then s
  else if last ≠ 0 ∧ now + 1 ≤ last + 3 then s.satInc (Reg.evtChStat c) 31 24
  else s.acceptPulse c now

/-- Every channel that lists the producer code is pulsed (R433). -/
def State.fireCode (s : State) (code now : Nat) : State :=
  ((List.range 256).filter (fun c => s.lists c code)).foldl (fun s c => s.pulse c now) s

/-- A software pulse: denied where no slot lists code 0x0C0 (R433). -/
def State.softPulse (s : State) (c now : Nat) : State :=
  if s.lists c 0x0C0 then s.pulse c now else s.satInc (Reg.evtChStat c) 23 16

/-- The flag of channel `c` as the engines see it (R447). -/
def State.seenFlag (s : State) (c : Nat) : Bool :=
  if s.actMode.viewed then s.evt.view.getLsbD c else s.flag c

/-- The 256 live flags as one value. -/
def State.allFlags (s : State) : BitVec 256 :=
  BitVec.ofNat 256 ((List.range 8).foldl (fun a k => a + (s.rd (Reg.evtFlag k)).toNat * 2 ^ (32 * k)) 0)

/-- A Domain channel pulse from part `part` arrives: local channels listing 0x200 + d are pulsed (R445, R446). -/
def State.domArrive (s : State) (d now : Nat) : State := s.fireCode (0x200 + d % 32) now

/-! ### Engines -/

/-- Engine `e`; 512 is the Steward's Sequencer (R30). -/
def State.eng (s : State) (e : Nat) : Engine := SMap.get Engine.init s.engines e

/-- Write engine `e`. -/
def State.setEng (s : State) (e : Nat) (x : Engine) : State :=
  { s with engines := SMap.set Engine.init s.engines e x }

/-- Change engine `e`. -/
def State.updEng (s : State) (e : Nat) (f : Engine → Engine) : State := s.setEng e (f (s.eng e))

/-- The engine number of the Steward's Sequencer. -/
def steward : Nat := 512

/-- The engines that differ from their reset value. -/
def State.listed (s : State) : List Nat := s.engines.map (fun p => p.1)

/-- Take the next free value's number. -/
def State.bump (s : State) : State := { s with freeCtr := s.freeCtr + 1 }

end Sys2Proof.Machine
end

