-- ==== Sys2Proof/Machine/Float.lean ====
section
/-!
DEFINITION. Floating point (spec/08_arithmetic.md, R265 to R274): binary32 and binary64 computed exactly on integers
and rounded once.
-/
namespace Sys2Proof.Machine

/-- A binary format: fraction bits and exponent bits. -/
structure FFmt where
  frac : Nat
  exp : Nat
deriving DecidableEq, Repr

/-- binary64. -/
def f64 : FFmt := ⟨52, 11⟩
/-- binary32. -/
def f32 : FFmt := ⟨23, 8⟩

/-- The IEEE 754 exceptions of one operation. -/
structure FFlags where
  nv : Bool
  dz : Bool
  of : Bool
  uf : Bool
  nx : Bool
deriving DecidableEq, Repr

def FFlags.none : FFlags := ⟨false, false, false, false, false⟩
def FFlags.invalid : FFlags := ⟨true, false, false, false, false⟩

/-- Union of exceptions. -/
def FFlags.or (a b : FFlags) : FFlags := ⟨a.nv || b.nv, a.dz || b.dz, a.of || b.of, a.uf || b.uf, a.nx || b.nx⟩

/-- Rounding direction and FTZ, DAZ (Table 3.3). -/
structure FEnv where
  rm : Nat
  ftz : Bool
  daz : Bool
deriving DecidableEq, Repr

/-- A decoded value: NaN with its bits, infinity, or (−1)^s · m · 2^e with m = 0 for a zero. -/
inductive FVal where
  | nan (bits : Nat)
  | inf (s : Bool)
  | num (s : Bool) (m : Nat) (e : Int)
deriving DecidableEq, Repr

/-- Bits of the exponent field all ones, in place. -/
def FFmt.infBits (f : FFmt) : Nat := (2 ^ f.exp - 1) * 2 ^ f.frac
/-- The sign bit. -/
def FFmt.signBit (f : FFmt) : Nat := 2 ^ (f.frac + f.exp)
/-- The exponent of the least significant fraction bit of a subnormal. -/
def FFmt.qmin (f : FFmt) : Int := 2 - (2 : Int) ^ (f.exp - 1) - f.frac

/-- Attach a sign. -/
def FFmt.withSign (f : FFmt) (s : Bool) (mag : Nat) : Nat := if s then f.signBit + mag else mag

/-- The sign of an encoding. -/
def FFmt.sign (f : FFmt) (x : Nat) : Bool := x / f.signBit % 2 = 1

/-- The default NaN (R268). -/
def FFmt.defNan (f : FFmt) : Nat := f.infBits + 2 ^ (f.frac - 1)

/-- The encoding is a NaN. -/
def FFmt.isNan (f : FFmt) (x : Nat) : Bool := f.infBits < x % f.signBit
/-- The encoding is a signalling NaN (R268). -/
def FFmt.isSnan (f : FFmt) (x : Nat) : Bool := f.isNan x && x / 2 ^ (f.frac - 1) % 2 = 0
/-- A NaN with its quiet bit set (R268). -/
def FFmt.quiet (f : FFmt) (x : Nat) : Nat := if x / 2 ^ (f.frac - 1) % 2 = 0 then x + 2 ^ (f.frac - 1) else x

/-- Decode an operand; with DAZ a subnormal reads as zero (R267). -/
def FFmt.decode (f : FFmt) (daz : Bool) (x : Nat) : FVal :=
  let mag := x % f.signBit
  let s := f.sign x
  let ef := mag / 2 ^ f.frac
  let fr := mag % 2 ^ f.frac
  if mag = f.infBits then .inf s
  else if f.infBits < mag then .nan x
  else if ef = 0 then .num s (if daz then 0 else fr) f.qmin
  else .num s (fr + 2 ^ f.frac) (f.qmin + ef - 1)

/-- Divide `m` by 2^k with the rounding direction; the second part says whether it was inexact. -/
def roundShift (rm : Nat) (s : Bool) (m k : Nat) : Nat × Bool :=
  let q := m / 2 ^ k
  let r := m % 2 ^ k
  let up :=
    match rm with
    | 0 => 2 ^ k < 2 * r || (2 * r = 2 ^ k && q % 2 = 1)
    | 1 => false
    | 2 => !s && r ≠ 0
    | _ => s && r ≠ 0
  (q + up.toNat, r ≠ 0)

/-- Scale `m · 2^e` to units of 2^q, rounding where bits are lost. -/
def toUnits (rm : Nat) (s : Bool) (m : Nat) (e q : Int) : Nat × Bool :=
  if e ≤ q then roundShift rm s m (q - e).toNat else (m * 2 ^ (e - q).toNat, false)

/-- Round (−1)^s · m · 2^e, m > 0, into the format (R266, R267). -/
def FFmt.round (f : FFmt) (env : FEnv) (s : Bool) (m : Nat) (e : Int) : Nat × FFlags :=
  let top : Int := e + Nat.log2 m
  let q0 := top - f.frac
  let q := if q0 < f.qmin then f.qmin else q0
  let (mant, inexact) := toUnits env.rm s m e q
  let mu := (toUnits env.rm s m e q0).1
  let emin := f.qmin + f.frac
  let tiny := top < emin ∧ ¬ (top + 1 = emin ∧ mu = 2 ^ (f.frac + 1))
  let mag := (q - f.qmin).toNat * 2 ^ f.frac + mant
  if f.infBits ≤ mag then
    let toInf := match env.rm with | 0 => true | 1 => false | 2 => !s | _ => s
    (f.withSign s (if toInf then f.infBits else f.infBits - 1), ⟨false, false, true, false, true⟩)
  else if env.ftz ∧ 0 < mag ∧ mag < 2 ^ f.frac then
    (f.withSign s 0, ⟨false, false, false, true, true⟩)
  else (f.withSign s mag, ⟨false, false, false, tiny && inexact, inexact⟩)

/-- The first NaN among the operands, made quiet, with NV for a signalling one (R268). -/
def FFmt.nanOf (f : FFmt) (ops : List Nat) : Option (Nat × FFlags) :=
  match ops.filter (fun x => f.isNan x) with
  | [] => none
  | x :: _ => some (f.quiet x, if ops.any (fun x => f.isSnan x) then FFlags.invalid else FFlags.none)

/-- The sign of an exact zero sum (R269). -/
def zeroSign (rm : Nat) (s1 s2 : Bool) : Bool := if s1 = s2 then s1 else rm = 3

/-- Exact sum of two finite values, rounded once. -/
def FFmt.addNum (f : FFmt) (env : FEnv) (s1 : Bool) (m1 : Nat) (e1 : Int) (s2 : Bool) (m2 : Nat) (e2 : Int) :
    Nat × FFlags :=
  let e := if e1 ≤ e2 then e1 else e2
  let sg := fun (s : Bool) (x : Nat) => if s then -(x : Int) else (x : Int)
  let v := sg s1 (m1 * 2 ^ (e1 - e).toNat) + sg s2 (m2 * 2 ^ (e2 - e).toNat)
  if v = 0 then
    (f.withSign (if m1 = 0 ∧ m2 = 0 then zeroSign env.rm s1 s2 else env.rm = 3) 0, FFlags.none)
  else f.round env (v < 0) v.natAbs e

/-- Addition (R265, R269). -/
def FFmt.add (f : FFmt) (env : FEnv) (a b : Nat) : Nat × FFlags :=
  match f.nanOf [a, b] with
  | some r => r
  | none =>
    match f.decode env.daz a, f.decode env.daz b with
    | .inf s, .inf t => if s = t then (f.withSign s f.infBits, FFlags.none) else (f.defNan, FFlags.invalid)
    | .inf s, _ => (f.withSign s f.infBits, FFlags.none)
    | _, .inf t => (f.withSign t f.infBits, FFlags.none)
    | .num s m e, .num t n g => f.addNum env s m e t n g
    | _, _ => (f.defNan, FFlags.none)

/-- The encoding with its sign inverted. -/
def FFmt.neg (f : FFmt) (x : Nat) : Nat := if f.sign x then x - f.signBit else x + f.signBit

/-- Subtraction; a NaN operand keeps its own sign (R268). -/
def FFmt.sub (f : FFmt) (env : FEnv) (a b : Nat) : Nat × FFlags :=
  match f.nanOf [a, b] with
  | some r => r
  | none => f.add env a (f.neg b)

/-- Multiplication. -/
def FFmt.mul (f : FFmt) (env : FEnv) (a b : Nat) : Nat × FFlags :=
  match f.nanOf [a, b] with
  | some r => r
  | none =>
    match f.decode env.daz a, f.decode env.daz b with
    | .inf s, .inf t => (f.withSign (s != t) f.infBits, FFlags.none)
    | .inf s, .num t m _ | .num t m _, .inf s =>
      if m = 0 then (f.defNan, FFlags.invalid) else (f.withSign (s != t) f.infBits, FFlags.none)
    | .num s m e, .num t n g =>
      if m = 0 ∨ n = 0 then (f.withSign (s != t) 0, FFlags.none) else f.round env (s != t) (m * n) (e + g)
    | _, _ => (f.defNan, FFlags.none)

/-- Division (R269). -/
def FFmt.div (f : FFmt) (env : FEnv) (a b : Nat) : Nat × FFlags :=
  match f.nanOf [a, b] with
  | some r => r
  | none =>
    match f.decode env.daz a, f.decode env.daz b with
    | .inf _, .inf _ => (f.defNan, FFlags.invalid)
    | .inf s, .num t _ _ => (f.withSign (s != t) f.infBits, FFlags.none)
    | .num s _ _, .inf t => (f.withSign (s != t) 0, FFlags.none)
    | .num s m e, .num t n g =>
      if n = 0 then
        if m = 0 then (f.defNan, FFlags.invalid)
        else (f.withSign (s != t) f.infBits, ⟨false, true, false, false, false⟩)
      else if m = 0 then (f.withSign (s != t) 0, FFlags.none)
      else
        let k := f.frac + 4 + Nat.log2 n
        let q := m * 2 ^ k / n
        let st := if m * 2 ^ k % n = 0 then 0 else 1
        f.round env (s != t) (2 * q + st) (e - g - k - 1)
    | _, _ => (f.defNan, FFlags.none)

/-- Integer square root by bits from the top: `fuel` bits. -/
def isqrtBits (fuel n r : Nat) : Nat :=
  match fuel with
  | 0 => r
  | k + 1 => if (r + 2 ^ k) * (r + 2 ^ k) ≤ n then isqrtBits k n (r + 2 ^ k) else isqrtBits k n r

/-- Square root (R269). -/
def FFmt.sqrt (f : FFmt) (env : FEnv) (a : Nat) : Nat × FFlags :=
  match f.nanOf [a] with
  | some r => r
  | none =>
    match f.decode env.daz a with
    | .inf s => if s then (f.defNan, FFlags.invalid) else (a, FFlags.none)
    | .num s m e =>
      if m = 0 then (f.withSign s 0, FFlags.none)
      else if s then (f.defNan, FFlags.invalid)
      else
        let k := 2 * (f.frac + 4) + (if (e - 2 * (f.frac + 4) : Int) % 2 = 0 then 0 else 1)
        let n := m * 2 ^ k
        let r := isqrtBits (Nat.log2 n / 2 + 1) n 0
        let st := if r * r = n then 0 else 1
        f.round env false (2 * r + st) ((e - k) / 2 - 1)
    | .nan _ => (f.defNan, FFlags.none)

/-- Fused multiply-add a × b + d, rounded once; NaN order a, b, d (R268, R269). -/
def FFmt.fma (f : FFmt) (env : FEnv) (a b d : Nat) : Nat × FFlags :=
  let va := f.decode env.daz a
  let vb := f.decode env.daz b
  let zinf : Bool :=
    match va, vb with
    | .inf _, .num _ m _ | .num _ m _, .inf _ => decide (m = 0)
    | _, _ => false
  match f.nanOf [a, b, d] with
  | some r => (r.1, if zinf then r.2.or FFlags.invalid else r.2)
  | none =>
    if zinf then (f.defNan, FFlags.invalid)
    else
      let vd := f.decode env.daz d
      let sp := f.sign a != f.sign b
      match va, vb, vd with
      | .num _ m e, .num _ n g, .num t k h => f.addNum env sp (m * n) (e + g) t k h
      | .num _ _ _, .num _ _ _, _ => (d, FFlags.none)
      | _, _, .inf t => if sp = t then (d, FFlags.none) else (f.defNan, FFlags.invalid)
      | _, _, _ => (f.withSign sp f.infBits, FFlags.none)

/-- Result of a comparison: less, equal, greater or unordered. -/
inductive FOrd where
  | lt | eq | gt | un
deriving DecidableEq, Repr

/-- Quiet comparison with DAZ (R267, R271). -/
def FFmt.cmp (f : FFmt) (daz : Bool) (a b : Nat) : FOrd :=
  if f.isNan a || f.isNan b then .un
  else
    let key := fun x =>
      match f.decode daz x with
      | .num s m _ => if m = 0 then (0 : Int) else if s then -((x % f.signBit : Nat) : Int) else ((x % f.signBit : Nat) : Int)
      | _ => if f.sign x then -((x % f.signBit : Nat) : Int) else ((x % f.signBit : Nat) : Int)
    if key a < key b then .lt else if key a = key b then .eq else .gt

/-- totalOrder, as a key to compare (R225, R265). -/
def FFmt.totalKey (f : FFmt) (x : Nat) : Int :=
  if f.sign x then -1 - ((x % f.signBit : Nat) : Int) else ((x % f.signBit : Nat) : Int)

/-- A subnormal reads as zero of its sign under DAZ. -/
def FFmt.daz (f : FFmt) (on : Bool) (x : Nat) : Nat :=
  if on && x % f.signBit < 2 ^ f.frac then f.withSign (f.sign x) 0 else x

/-- minimumNumber (`wantMin`) and maximumNumber (R268); −0 is below +0. -/
def FFmt.minmax (f : FFmt) (env : FEnv) (wantMin : Bool) (a b : Nat) : Nat × FFlags :=
  let fl := if f.isSnan a || f.isSnan b then FFlags.invalid else FFlags.none
  if f.isNan a && f.isNan b then (f.quiet a, fl)
  else if f.isNan a then (f.daz env.daz b, fl)
  else if f.isNan b then (f.daz env.daz a, fl)
  else
    let x := f.daz env.daz a
    let y := f.daz env.daz b
    let aFirst := f.totalKey x ≤ f.totalKey y
    (if aFirst = wantMin then x else y, FFlags.none)

/-- Round a value to an integer by the rounding direction: the integer and whether it was inexact. -/
def roundInt (rm : Nat) (s : Bool) (m : Nat) (e : Int) : Int × Bool :=
  let (q, nx) := toUnits rm s m e 0
  (if s then -(q : Int) else (q : Int), nx)

/-- Outcome of a conversion to an integer: in range, out of range (with its sign) or NaN. -/
inductive IConv where
  | ok (v : Int) (nx : Bool)
  | out (neg : Bool)
  | nan
deriving DecidableEq, Repr

/-- Convert to an integer in lo ≤ v ≤ hi (R270). -/
def FFmt.toInt (f : FFmt) (env : FEnv) (lo hi : Int) (x : Nat) : IConv :=
  match f.decode env.daz x with
  | .nan _ => .nan
  | .inf s => .out s
  | .num s m e =>
    let (v, nx) := roundInt env.rm s m e
    if lo ≤ v ∧ v ≤ hi then .ok v nx else .out s

/-- Convert an integer into the format. -/
def FFmt.ofInt (f : FFmt) (env : FEnv) (v : Int) : Nat × FFlags :=
  if v = 0 then (0, FFlags.none) else f.round env (v < 0) v.natAbs 0

/-- Convert between binary32 and binary64 (R268). -/
def fconv (src dst : FFmt) (env : FEnv) (x : Nat) : Nat × FFlags :=
  match src.decode env.daz x with
  | .nan b =>
    let fr := b % 2 ^ src.frac
    let fr' := if dst.frac < src.frac then fr / 2 ^ (src.frac - dst.frac) else fr * 2 ^ (dst.frac - src.frac)
    (dst.quiet (dst.withSign (src.sign b) (dst.infBits + fr')),
      if src.isSnan b then FFlags.invalid else FFlags.none)
  | .inf s => (dst.withSign s dst.infBits, FFlags.none)
  | .num s m e => if m = 0 then (dst.withSign s 0, FFlags.none) else dst.round env s m e

end Sys2Proof.Machine
end

