-- ==== Sys2Proof/Machine/Operands.lean ====
section
/-!
DEFINITION. The operand forms of the Sequencer (spec/03_sequencer_isa.md): the register files with their banking
(R74, R75), prefixes (R80, R82), immediates (R88), operand width (R87) and the addressing modes (R89, R90).
-/
namespace Sys2Proof

/-- Sign-extend the low `w` bits of a word (R87). -/
def sextW (w : Nat) (x : W64) : W64 := BitVec.ofInt 64 (BitVec.ofNat w x.toNat).toInt

/-- Zero-extend the low `w` bits of a word (R87). -/
def zextW (w : Nat) (x : W64) : W64 := BitVec.ofNat 64 (x.toNat % 2 ^ w)

/-- The order of the low `k` bits reversed (R90, R186). -/
def revBits (k n : Nat) : Nat := (List.range k).foldl (fun r i => r * 2 + n / 2 ^ i % 2) 0

end Sys2Proof

namespace Sys2Proof.Machine

/-! ### Register files -/

/-- PSR.PRIV: Supervisor privilege (R77). -/
def Arch.sup (a : Arch) : Bool := a.psr.getLsbD 0

/-- Read a general register; G31 is banked by privilege (R74). -/
def Arch.rdG (a : Arch) (n : Nat) : W64 :=
  if n = 31 then (if a.sup then a.g31s else a.g31u) else SMap.get 0 a.g n

/-- Write a general register (R74). -/
def Arch.wrG (a : Arch) (n : Nat) (v : W64) : Arch :=
  if n = 31 then (if a.sup then { a with g31s := v } else { a with g31u := v })
  else { a with g := SMap.set 0 a.g n v }

/-- Read a short-vector register. -/
def Arch.rdQ (a : Arch) (n : Nat) : W128 := SMap.get 0 a.q n

/-- Write a short-vector register: all 128 bits (R75). -/
def Arch.wrQ (a : Arch) (n : Nat) (v : W128) : Arch := { a with q := SMap.set 0 a.q n v }

/-- Read a floating-point operand of 64 or 32 bits (R75). -/
def Arch.rdF (a : Arch) (w n : Nat) : Nat := (a.rdQ n).toNat % 2 ^ w

/-- Write a floating-point result of 64 or 32 bits: the rest of Qn is cleared (R75). -/
def Arch.wrF (a : Arch) (w n : Nat) (v : Nat) : Arch := a.wrQ n (BitVec.ofNat 128 (v % 2 ^ w))

/-! ### Prefixes -/

/-- The kinds of prefix (Table 3.4). -/
inductive PKind where
  | pred | width | limm | vlo | reserved
deriving DecidableEq, Repr

/-- The kind of a prefix byte (Table 3.4). -/
def pkind (b : Nat) : PKind :=
  if 0xE0 ≤ b ∧ b < 0xEF then .pred
  else if 0xF0 ≤ b ∧ b ≤ 0xF2 then .width
  else if 0xF4 ≤ b ∧ b ≤ 0xF6 then .limm
  else if 0xF8 ≤ b ∧ b ≤ 0xFB then .vlo
  else .reserved

/-- What the prefixes of an instruction say: condition, width, extension bytes, length override, and the cause that
the prefixes themselves give (R80 to R82). -/
structure PInfo where
  pred : Option Nat
  width : Option Nat
  ext : Nat
  vlo : Option Nat
  kinds : List PKind
  cause : Nat
deriving DecidableEq, Repr

/-- The lowest cause; 0 means none (R82). -/
def lowest (x y : Nat) : Nat := if x = 0 then y else if y = 0 ∨ x < y then x else y

/-- Take in one prefix byte. Of two predicate or width prefixes the first is kept; both are cause 0x04. -/
def PInfo.add (p : PInfo) (b : Nat) : PInfo :=
  let k := pkind b
  let c1 := if k = .reserved then lowest p.cause 0x02 else p.cause
  let c2 := if p.kinds.contains k then lowest c1 0x04 else c1
  { pred := if k = .pred ∧ p.pred = none then some (b - 0xE0) else p.pred,
    width := if k = .width ∧ p.width = none then some (8 * 2 ^ (b - 0xF0)) else p.width,
    ext := if k = .limm then 2 * 2 ^ (b - 0xF4) else p.ext,
    vlo := if k = .vlo ∧ p.vlo = none then some (b - 0xF8) else p.vlo,
    kinds := p.kinds ++ [k], cause := c2 }

/-- What the prefix bytes of an instruction say (R82). -/
def pInfo (p : Pfx) : PInfo :=
  p.bytes.foldl (fun i b => i.add b.toNat) ⟨none, none, 0, none, [], 0⟩

/-- Operand width w (R87). -/
def PInfo.w (p : PInfo) : Nat := p.width.getD 64

/-! ### Immediates (R88) -/

/-- An instruction's immediate of `n` bits with its extension bytes. -/
def PInfo.imm (p : PInfo) (ext : W64) (n : Nat) (v : Nat) (signed : Bool) : W64 :=
  if p.ext = 8 then ext
  else
    let bits := n + 8 * p.ext
    let x := BitVec.ofNat 64 (v + ext.toNat % 2 ^ (8 * p.ext) * 2 ^ n)
    if signed then sextW bits x else zextW bits x

/-- Under an 8-byte extension the instruction's own immediate field must be 0 (R88). -/
def PInfo.immBad (p : PInfo) (v : Nat) : Bool := p.ext = 8 && v ≠ 0

/-! ### Conditions (Table 3.10) -/

/-- FLAGS.N. -/
def flagN (f : W64) : Bool := f.getLsbD 3
/-- FLAGS.Z. -/
def flagZ (f : W64) : Bool := f.getLsbD 2
/-- FLAGS.C. -/
def flagC (f : W64) : Bool := f.getLsbD 1
/-- FLAGS.V. -/
def flagV (f : W64) : Bool := f.getLsbD 0

/-- The condition of a code holds (Table 3.10). -/
def condHolds (c : Nat) (f : W64) : Bool :=
  match c with
  | 0 => flagZ f
  | 1 => !flagZ f
  | 2 => flagN f != flagV f
  | 3 => flagN f == flagV f
  | 4 => flagZ f || (flagN f != flagV f)
  | 5 => !flagZ f && (flagN f == flagV f)
  | 6 => flagC f
  | 7 => !flagC f
  | 8 => flagC f || flagZ f
  | 9 => !flagC f && !flagZ f
  | 10 => flagV f
  | 11 => !flagV f
  | 12 => flagN f
  | 13 => !flagN f
  | _ => true

/-! ### Addressing (R89, R90) -/

/-- An effective address and the register update that comes with it. -/
structure Addr where
  va : W64
  upd : Option (Nat × W64)
deriving DecidableEq, Repr

/-- Rows 0x6 and LEA (R89). -/
def Arch.addrI (a : Arch) (base : Nat) (imm : W64) : Addr := ⟨a.rdG base + imm, none⟩

/-- Row 0x7 (Table 3.9). -/
def Arch.addrX (a : Arch) (mode ra rb sc : Nat) (imm : W64) : Addr :=
  let x := a.rdG ra
  let b := a.rdG rb
  let lo : Nat := b.toNat % 2 ^ 32
  let step := imm <<< sc
  match mode with
  | 0 => ⟨x + (b <<< sc) + imm, none⟩
  | 1 => ⟨x, some (ra, x + step)⟩
  | 2 => ⟨x + step, some (ra, x + step)⟩
  | 3 =>
    let l : Nat := if b.toNat / 2 ^ 32 = 0 then 2 ^ 32 else b.toNat / 2 ^ 32
    let n : Int := ((lo : Int) + step.toInt) % (l : Int)
    ⟨x + BitVec.ofNat 64 lo, some (rb, BitVec.ofNat 64 (b.toNat / 2 ^ 32 * 2 ^ 32 + n.toNat))⟩
  | 4 =>
    let k := bitsOf b.toNat 36 32
    let r := revBits k ((revBits k (b.toNat % 2 ^ k) + imm.toNat) % 2 ^ k)
    ⟨x + (BitVec.ofNat 64 lo <<< sc), if k = 0 then none else some (rb, BitVec.ofNat 64 (b.toNat / 2 ^ k * 2 ^ k + r))⟩
  | _ => ⟨imm, none⟩

/-- The reserved-field rules of row 0x7 (R90): a reserved mode, or a register field that must be 0. -/
def modeBad (mode ra rb : Nat) : Bool :=
  mode ≥ 6 || ((mode = 1 || mode = 2) && rb ≠ 0) || (mode = 5 && (ra ≠ 0 || rb ≠ 0))

/-- The register that a mode updates (R91). -/
def modeUpdates (mode ra rb : Nat) : Option Nat :=
  if mode = 1 || mode = 2 then some ra else if mode = 3 || mode = 4 then some rb else none

/-- Apply a register update. -/
def Arch.applyUpd (a : Arch) (u : Option (Nat × W64)) : Arch :=
  match u with
  | some (n, v) => a.wrG n v
  | none => a

/-! ### Length and loops -/

/-- Base length of an opcode byte (Table 3.7). -/
def baseLen (b : Nat) : Nat :=
  match b / 16 with
  | 0 => 1
  | 1 => 2
  | 2 | 3 | 9 | 10 => 3
  | 4 | 5 | 6 | 8 | 11 => 4
  | 7 => 5
  | 12 | 13 => 8
  | _ => 1

/-- Length of the instruction whose first four bytes are given (R82). -/
def instrLen (bs : List Byte) : Nat :=
  let n := (bs.take 3).takeWhile (fun b => 0xE0 ≤ b.toNat) |>.length
  let ext := ((bs.take n).map (fun b => if pkind b.toNat = .limm then 2 * 2 ^ (b.toNat - 0xF4) else 0)).foldl
    (fun a x => if x = 0 then a else x) 0
  n + baseLen (bs.getD n 0).toNat + ext

/-- PSR.LD. -/
def Arch.ld (a : Arch) : Nat := bitsOf a.psr.toNat 9 8

/-- Write PSR.LD. -/
def Arch.setLd (a : Arch) (d : Nat) : Arch := { a with psr := BitVec.ofNat 64 (putBits a.psr.toNat 9 8 d) }

/-- The hardware-loop end test, by the number of active levels (R100): the state and the next address. -/
def Arch.endTest (a : Arch) (next : W64) : Nat → Arch × W64
  | 0 => (a, next)
  | d + 1 =>
    if next = SMap.get 0 a.le d then
      if 1 < (SMap.get 0 a.lc d).toNat then
        ({ a.setLd (d + 1) with lc := SMap.set 0 a.lc d (SMap.get 0 a.lc d - 1) }, SMap.get 0 a.ls d)
      else ({ a.setLd d with lc := SMap.set 0 a.lc d 0 } : Arch).endTest next d
    else (a, next)

/-! ### Retirement (R96, R100) -/

/-- Where execution goes after an instruction. -/
inductive Ctl where
  /-- on to the following address -/
  | next
  /-- a branch or jump has issued: its outcome, whether its delay slot is annulled, and its target -/
  | branch (taken annul : Bool) (target : W64)
  /-- to an address, without the end test: after LOOP and LOOPI -/
  | goto (target : W64)
deriving DecidableEq, Repr

/-- The registers after an instruction of `len` bytes has retired (R96, R100). -/
def Arch.retire (a : Arch) (len : Nat) (c : Ctl) : Arch :=
  let next := a.pc + BitVec.ofNat 64 len
  match a.ds, c with
  | some d, _ =>
    if d.taken then { a with pc := d.target, ds := none }
    else
      let (a1, n) := { a with ds := none }.endTest next a.ld
      { a1 with pc := n }
  | none, .next =>
    let (a1, n) := a.endTest next a.ld
    { a1 with pc := n }
  | none, .branch t k g => { a with pc := next, ds := some ⟨t, k, g⟩ }
  | none, .goto g => { a with pc := g }

end Sys2Proof.Machine
end

