-- ==== Sys2Proof/Machine/Flags.lean ====
section
/-!
DEFINITION. FLAGS (R78): its fields, and how results set them (R104, R108, R224).
-/
namespace Sys2Proof.Machine

/-- FLAGS with N, Z, C and V replaced. -/
def putNzcv (f : W64) (n z c v : Bool) : W64 :=
  (f &&& ~~~(0xF : W64)) |||
    BitVec.ofNat 64 (n.toNat * 8 + z.toNat * 4 + c.toNat * 2 + v.toNat)

/-- The sticky bits of IEEE 754 exceptions in FLAGS (Table 3.3). -/
def stickyBits (x : FFlags) : W64 :=
  BitVec.ofNat 64 (x.nv.toNat * 2 ^ 12 + x.dz.toNat * 2 ^ 11 + x.of.toNat * 2 ^ 10 + x.uf.toNat * 2 ^ 9 +
    x.nx.toNat * 2 ^ 8)

/-- FLAGS.DI. -/
def diBit (b : Bool) : W64 := if b then 0x2000 else 0

/-- Sticky bits are set and never cleared by hardware (R78). -/
def orSticky (f : W64) (x : FFlags) : W64 := f ||| stickyBits x

/-- The writable fields of FLAGS (Table 3.3): reserved bits ignore a write. -/
def flagsMask : W64 := 0xF3F0F

/-- The writable fields of PSR; PRIV keeps its value in an MTS (Table 3.2). -/
def psrMask : W64 := 0x7C2

/-- The floating-point environment that FLAGS gives (R266, R267). -/
def fenvOf (f : W64) : FEnv := ⟨bitsOf f.toNat 17 16, f.getLsbD 18, f.getLsbD 19⟩

/-- N and Z of a w-bit result. -/
def nzOf (w r : Nat) : Bool × Bool := (r / 2 ^ (w - 1) % 2 = 1, r % 2 ^ w = 0)

end Sys2Proof.Machine
end

