-- ==== Sys2Proof/Machine/Codes.lean ====
section
/-!
DEFINITION. The codes of the part: CRC-32C of images and flits (R355, R494), the CRC-64 of digests (R405), the CRC-16
of Baton markers (R374), HASH64 (R237), and bytes of little-endian numbers (R6).
-/
namespace Sys2Proof.Machine

/-- The first `n` bytes of a number, little-endian. -/
def leBytes : Nat → Nat → List Byte
  | 0, _ => []
  | n + 1, v => BitVec.ofNat 8 v :: leBytes n (v / 256)

/-- The number whose little-endian bytes are given. -/
def ofLe : List Byte → Nat
  | [] => 0
  | b :: t => b.toNat + 256 * ofLe t

/-- One bit of a reflected CRC register. -/
def crcBit {w : Nat} (poly st : BitVec w) : BitVec w :=
  if st.getLsbD 0 then (st >>> 1) ^^^ poly else st >>> 1

/-- Eight bits of a reflected CRC register after one byte is taken in. -/
def crcByte {w : Nat} (poly st : BitVec w) (b : Byte) : BitVec w :=
  (List.range 8).foldl (fun x _ => crcBit poly x) (st ^^^ b.setWidth w)

/-- A reflected CRC over bytes, all ones at start and end; `prev` is the CRC of the bytes before. -/
def crcMore {w : Nat} (poly prev : BitVec w) (bs : List Byte) : BitVec w :=
  ~~~(bs.foldl (crcByte poly) (~~~prev))

/-- CRC-32C (polynomial 0x1EDC_6F41, reflected; R355). -/
def crc32c (bs : List Byte) : BitVec 32 := crcMore 0x82F63B78 0 bs

/-- Continue a CRC-64 (ECMA-182 polynomial, reflected; R405) over further bytes. -/
def crc64More (prev : W64) (bs : List Byte) : W64 := crcMore 0xC96C5795D7870F42 prev bs

/-- CRC-64 of bytes; of no bytes it is 0. -/
def crc64 (bs : List Byte) : W64 := crc64More 0 bs

/-- One byte of the CRC-16 of a marker: polynomial 0x1021, not reflected (R374). -/
def crc16Byte (st : BitVec 16) (b : Byte) : BitVec 16 :=
  (List.range 8).foldl (fun x _ => if x.getLsbD 15 then (x <<< 1) ^^^ 0x1021 else x <<< 1) (st ^^^ (b.setWidth 16 <<< 8))

/-- CRC-16 with initial value 0xFFFF. -/
def crc16 (bs : List Byte) : BitVec 16 := bs.foldl crc16Byte 0xFFFF

/-- One word of HASH64's mixing (R237). -/
def hashMix (h w : W64) : W64 :=
  let x := (h ^^^ w) * 0x0000080000200001
  x ^^^ (x >>> 29)

/-- HASH64 of an element of `l` bytes with value `k` (R237). -/
def hash64 (k : W128) (l : Nat) (seed : W64) : W64 :=
  let kk := k.toNat % 2 ^ (8 * l)
  let h0 := seed ^^^ (BitVec.ofNat 64 l <<< 56)
  let h1 := hashMix h0 (BitVec.ofNat 64 kk)
  let h2 := if 8 < l then hashMix h1 (BitVec.ofNat 64 (kk / 2 ^ 64)) else h1
  let h3 := h2 * 0x0000080000200001
  h3 ^^^ (h3 >>> 32)

end Sys2Proof.Machine
end

