-- ==== Sys2Proof/Machine/Decimal.lean ====
section
/-!
DEFINITION. Packed decimal (spec/08_arithmetic.md, R275 to R278): elements of 15 or 31 digits with a sign nibble.
-/
namespace Sys2Proof.Machine

/-- Nibble `i` of an element. -/
def nibble (v : Nat) (i : Nat) : Nat := v / 16 ^ i % 16

/-- The lowest invalid nibble among `n` nibbles (R276, R278). -/
def decBad (n v : Nat) : Option Nat :=
  ((List.range n).filter (fun i => if i = 0 then nibble v 0 < 10 else 10 ≤ nibble v i)).head?

/-- The magnitude of the digits of an element of `n` nibbles. -/
def decMag (n v : Nat) : Nat := ((List.range (n - 1)).foldl (fun a i => a + nibble v (i + 1) * 10 ^ i) 0)

/-- The sign nibble is negative (R276). -/
def decNeg (v : Nat) : Bool := nibble v 0 = 0xB || nibble v 0 = 0xD

/-- The signed value of a valid element. -/
def decVal (n v : Nat) : Int := if decNeg v then -(decMag n v : Int) else (decMag n v : Int)

/-- The element of a sign and the low n − 1 digits of a magnitude; zero is positive (R276, R277). -/
def decEnc (n : Nat) (neg : Bool) (mag : Nat) : Nat :=
  let m := mag % 10 ^ (n - 1)
  (List.range (n - 1)).foldl (fun a i => a + m / 10 ^ i % 10 * 16 ^ (i + 1))
    (if neg && m ≠ 0 then 0xD else 0xC)

/-- The invalid result: every nibble 0xF (R278). -/
def decInvalid (n : Nat) : Nat := 16 ^ n - 1

/-- The signed value fits in n − 1 digits. -/
def decFits (n : Nat) (v : Int) : Bool := v.natAbs < 10 ^ (n - 1)

end Sys2Proof.Machine
end

