-- ==== Sys2Proof/Machine/VecOps.lean ====
section
/-!
DEFINITION. What a long-vector operation computes from element values (spec/07_vector_operations.md, R220 to R239;
spec/08_arithmetic.md): element types, arithmetic, comparisons, conversions, folds, order, the legal encodings, and
the Sieve predicate (R253 to R255).
-/
namespace Sys2Proof.Machine

/-! ### Element types (Table 6.3) -/

/-- ET is defined. -/
def etOk (et : Nat) : Bool := et ≤ 0x0C || (0x10 ≤ et && et ≤ 0x1F)
/-- U8 to U64. -/
def etU (et : Nat) : Bool := et ≤ 3
/-- I8 to I64. -/
def etI (et : Nat) : Bool := 4 ≤ et && et ≤ 7
/-- F32 and F64. -/
def etF (et : Nat) : Bool := et = 8 || et = 9
/-- P8 and P16. -/
def etP (et : Nat) : Bool := et = 0x0A || et = 0x0B
/-- BIT. -/
def etBit : Nat := 0x0C
/-- KEY1 to KEY16. -/
def etKey (et : Nat) : Bool := 0x10 ≤ et && et ≤ 0x1F

/-- Element size in bytes; 0 for BIT, whose elements are bits. -/
def etSize (et : Nat) : Nat :=
  if et < 8 then 2 ^ (et % 4)
  else if et = 8 then 4
  else if et = 9 || et = 0x0A then 8
  else if et = 0x0B then 16
  else if etKey et then et - 0x0F
  else 0

/-- Alignment of BASE and STRIDE. -/
def etAlign (et : Nat) : Nat := if et = 0x0B then 8 else if etKey et || et = etBit then 1 else etSize et

/-- Elements in a group: four of a one-lane type, two of a two-lane type (R189). -/
def groupSize (et : Nat) : Nat := if et = 0x0B || 0x18 ≤ et then 2 else 4

/-- Width in bits. -/
def etWidth (et : Nat) : Nat := 8 * etSize et

/-- The floating-point format of F32 or F64. -/
def etFmt (et : Nat) : FFmt := if et = 8 then f32 else f64

/-- The signed value of a w-bit number. -/
def sval (w v : Nat) : Int := if v % 2 ^ w < 2 ^ (w - 1) then (v % 2 ^ w : Nat) else ((v % 2 ^ w : Nat) : Int) - 2 ^ w

/-- The value of an integer element: signed for I, unsigned for U. -/
def ival (et v : Nat) : Int := if etI et then sval (etWidth et) v else ((v % 2 ^ etWidth et : Nat) : Int)

/-- The low w bits of an integer. -/
def wrapTo (w : Nat) (v : Int) : Nat := (v % (2 ^ w : Int)).toNat

/-- The smallest and the largest value of an integer type. -/
def etMin (et : Nat) : Int := if etI et then -(2 : Int) ^ (etWidth et - 1) else 0
def etMax (et : Nat) : Int := if etI et then (2 : Int) ^ (etWidth et - 1) - 1 else (2 : Int) ^ etWidth et - 1

/-- The value lies in the range of the integer type (R264). -/
def etFits (et : Nat) (v : Int) : Bool := etMin et ≤ v && v ≤ etMax et

/-! ### Results -/

/-- The values an instruction takes at stage 4 (R208, R224). -/
structure VEnv where
  fe : FEnv
  ove : Bool
  die : Bool
deriving DecidableEq, Repr

/-- A result element: its value, its IEEE flags, the invalid-data indication, and an exception's vector and detail
with the operand it names (false A, true B). -/
structure EV where
  val : Nat
  fl : FFlags
  di : Bool
  exc : Option (Nat × Nat × Bool)
deriving DecidableEq, Repr

/-- A result without flag or exception. -/
def EV.pure (v : Nat) : EV := ⟨v, FFlags.none, false, none⟩
/-- A floating-point result. -/
def EV.flt (r : Nat × FFlags) : EV := ⟨r.1, r.2, false, none⟩
/-- An exact integer result: wrapped, or OVERFLOW under OVE (R264). -/
def EV.int (env : VEnv) (et : Nat) (v : Int) : EV :=
  if env.ove && !etFits et v then ⟨0, FFlags.none, false, some (0x0D, 0, false)⟩ else EV.pure (wrapTo (etWidth et) v)

/-- VALU (Table 7.3). -/
def vAlu (env : VEnv) (fn et a b : Nat) : EV :=
  let w := etWidth et
  let x := ival et a
  let y := ival et b
  let k := b % w
  match fn with
  | 0 => EV.int env et (x + y)
  | 1 => EV.int env et (x - y)
  | 2 => EV.pure (Nat.land a b)
  | 3 => EV.pure (Nat.lor a b)
  | 4 => EV.pure (Nat.xor a b)
  | 5 => EV.pure (Nat.bitwise (fun p q => p && !q) a b)
  | 6 => EV.pure (a * 2 ^ k % 2 ^ w)
  | 7 => EV.pure (a / 2 ^ k)
  | 8 => EV.pure (wrapTo w (x / (2 ^ k : Int)))
  | 9 => EV.pure (if x ≤ y then a else b)
  | _ => EV.pure (if x ≤ y then b else a)

/-- VMUL (Table 7.3). -/
def vMul (env : VEnv) (fn et a b : Nat) : EV :=
  let p := ival et a * ival et b
  if fn = 0 then EV.int env et p else EV.pure (wrapTo (etWidth et) (p / (2 ^ etWidth et : Int)))

/-- VDIV (Table 7.3, R262). -/
def vDiv (env : VEnv) (fn et a b : Nat) : EV :=
  let x := ival et a
  let y := ival et b
  if y = 0 then ⟨0, FFlags.none, false, some (0x0C, 0, false)⟩
  else if fn = 0 then EV.int env et (x.tdiv y)
  else if env.ove && !etFits et (x.tdiv y) then ⟨0, FFlags.none, false, some (0x0D, 0, false)⟩
  else EV.pure (wrapTo (etWidth et) (x.tmod y))

/-- VFP (Table 7.3); `c` is F[REG] of AXPY. -/
def vFp (env : VEnv) (fn et a b c : Nat) : EV :=
  let f := etFmt et
  match fn with
  | 0 => EV.flt (f.add env.fe a b)
  | 1 => EV.flt (f.sub env.fe a b)
  | 2 => EV.flt (f.mul env.fe a b)
  | 3 => EV.flt (f.div env.fe a b)
  | 4 => EV.flt (f.sqrt env.fe a)
  | 5 => EV.flt (f.minmax env.fe true a b)
  | 6 => EV.flt (f.minmax env.fe false a b)
  | _ => EV.flt (f.fma env.fe a c b)

/-- Nibbles of a P type. -/
def pNibbles (et : Nat) : Nat := if et = 0x0A then 16 else 32

/-- The invalid nibble of the operands, A before B, and which operand holds it (R278). -/
def pBad (n a b : Nat) : Option (Nat × Bool) :=
  match decBad n a with
  | some i => some (i, false)
  | none => match decBad n b with | some i => some (i, true) | none => none

/-- VDADD and VDSUB (R277, R278). -/
def vDec (env : VEnv) (sub : Bool) (et a b : Nat) : EV :=
  let n := pNibbles et
  match pBad n a b with
  | some (i, w) =>
    if env.die then ⟨0, FFlags.none, false, some (0x0E, i, w)⟩ else ⟨decInvalid n, FFlags.none, true, none⟩
  | none =>
    let v := if sub then decVal n a - decVal n b else decVal n a + decVal n b
    if decFits n v || !env.ove then EV.pure (decEnc n (v < 0) v.natAbs)
    else ⟨0, FFlags.none, false, some (0x0D, 0, false)⟩

/-- Predicates 0 to 5 from an order of two values (R228). -/
def predOf (fn : Nat) (o : FOrd) : Bool :=
  match fn with
  | 0 => o = .eq
  | 1 => o ≠ .eq
  | 2 => o = .lt
  | 3 => o = .lt || o = .eq
  | 4 => o = .gt
  | 5 => o = .gt || o = .eq
  | _ => o = .un

/-- The order of two integers. -/
def ordInt (x y : Int) : FOrd := if x < y then .lt else if x = y then .eq else .gt

/-- A KEY element as a number whose order is that of its bytes from byte 0 (R225). -/
def keyNum (s v : Nat) : Nat := (leBytes s v).foldl (fun a b => a * 256 + b.toNat) 0

/-- VCMP (R228) and VKCMP (R229). -/
def vCmp (env : VEnv) (fn et a b : Nat) : EV :=
  if etP et then
    match pBad (pNibbles et) a b with
    | some (i, w) =>
      if env.die then ⟨0, FFlags.none, false, some (0x0E, i, w)⟩ else ⟨0, FFlags.none, true, none⟩
    | none => EV.pure (predOf fn (ordInt (decVal (pNibbles et) a) (decVal (pNibbles et) b))).toNat
  else if etF et then EV.pure (predOf fn ((etFmt et).cmp env.fe.daz a b)).toNat
  else if etKey et then EV.pure (predOf fn (ordInt (keyNum (etSize et) a) (keyNum (etSize et) b))).toNat
  else EV.pure (predOf fn (ordInt (ival et a) (ival et b))).toNat

/-- Conversion of an exact integer to an integer type: wrapping, trapping or saturating (R227). -/
def toIntType (env : VEnv) (fn et : Nat) (v : Int) (fl : FFlags) : EV :=
  if etFits et v then ⟨wrapTo (etWidth et) v, fl, false, none⟩
  else if fn = 1 then EV.pure (wrapTo (etWidth et) (if v < 0 then etMin et else etMax et))
  else if env.ove then ⟨0, FFlags.none, false, some (0x0D, 0, false)⟩
  else EV.pure (wrapTo (etWidth et) v)

/-- Conversion of a float to an integer type (R270). -/
def floatToInt (env : VEnv) (fn xet et a : Nat) : EV :=
  let bad : EV :=
    if env.ove then ⟨0, FFlags.none, false, some (0x0D, 0, false)⟩
    else ⟨if etI et then wrapTo (etWidth et) (etMin et) else 0, FFlags.invalid, false, none⟩
  match (etFmt xet).toInt env.fe (etMin et) (etMax et) a with
  | .ok v nx => ⟨wrapTo (etWidth et) v, ⟨false, false, false, false, nx⟩, false, none⟩
  | .out neg => if fn = 1 then EV.pure (wrapTo (etWidth et) (if neg then etMin et else etMax et)) else bad
  | .nan => if fn = 1 then EV.pure 0 else bad

/-- An exact integer as a P type (R227). -/
def intToDec (env : VEnv) (fn et : Nat) (v : Int) : EV :=
  let n := pNibbles et
  if decFits n v then EV.pure (decEnc n (v < 0) v.natAbs)
  else if fn = 1 then EV.pure (decEnc n (v < 0) (10 ^ (n - 1) - 1))
  else if env.ove then ⟨0, FFlags.none, false, some (0x0D, 0, false)⟩
  else EV.pure (decEnc n (v < 0) v.natAbs)

/-- Conversion between F32 and F64 (R227, R268, R270): a value that rounds out of range gives the nearest representable
value under FN 1, which raises NX alone and nothing for a NaN, and OVERFLOW under FN 0 with OVE. -/
def floatToFloat (env : VEnv) (fn xet et a : Nat) : EV :=
  let src := etFmt xet
  let dst := etFmt et
  let (v, fl) := fconv src dst env.fe a
  if fn = 1 then
    if src.isNan a then EV.pure v
    else if fl.of then EV.pure (dst.withSign (src.sign a) (dst.infBits - 1))
    else ⟨v, ⟨false, false, false, false, fl.nx⟩, false, none⟩
  else if fl.of && env.ove then ⟨0, FFlags.none, false, some (0x0D, 0, false)⟩
  else ⟨v, fl, false, none⟩

/-- VCVT (R227, Table 7.4). -/
def vCvt (env : VEnv) (fn xet et a : Nat) : EV :=
  if etP xet then
    let n := pNibbles xet
    match decBad n a with
    | some i =>
      if env.die then ⟨0, FFlags.none, false, some (0x0E, i, false)⟩
      else ⟨if etP et then decInvalid (pNibbles et) else 2 ^ 63, FFlags.none, true, none⟩
    | none =>
      if etP et then intToDec env fn et (decVal n a) else toIntType env fn et (decVal n a) FFlags.none
  else if etF xet then
    if etF et then floatToFloat env fn xet et a else floatToInt env fn xet et a
  else if etF et then EV.flt ((etFmt et).ofInt env.fe (ival xet a))
  else if etP et then intToDec env fn et (ival xet a)
  else toIntType env fn et (ival xet a) FFlags.none

/-- The pairs that Table 7.4 lists. -/
def cvtOk (xet et : Nat) : Bool :=
  let ui := fun x => etU x || etI x
  (ui xet && ui et) || (ui xet && etF et) || (etF xet && ui et) || (etF xet && etF et && xet ≠ et) ||
    (etP xet && (et = 3 || et = 7)) || ((xet = 3 || xet = 7) && etP et) || (etP xet && etP et && xet ≠ et)

/-! ### Folds (R232 to R235) -/

/-- The identity of a fold: FN 0 SUM, 1 MIN, 2 MAX, 3 COUNT (R232). -/
def foldId (fn et : Nat) : Nat :=
  match fn with
  | 1 => if etF et then (etFmt et).infBits else wrapTo (etWidth et) (etMax et)
  | 2 => if etF et then (etFmt et).withSign true (etFmt et).infBits else wrapTo (etWidth et) (etMin et)
  | _ => 0

/-- One fold. On U types a sum wraps (R233). -/
def foldOp (env : VEnv) (fn et run a : Nat) : EV :=
  match fn with
  | 0 =>
    if etF et then EV.flt ((etFmt et).add env.fe run a)
    else if etU et then EV.pure ((run + a) % 2 ^ etWidth et)
    else EV.int env et (ival et run + ival et a)
  | 1 => if etF et then EV.flt ((etFmt et).minmax env.fe true run a) else EV.pure (if ival et run ≤ ival et a then run else a)
  | 2 => if etF et then EV.flt ((etFmt et).minmax env.fe false run a) else EV.pure (if ival et run ≤ ival et a then a else run)
  | _ => EV.pure ((run + 1) % 2 ^ 64)

/-! ### Order (R225) and sorting (R251) -/

/-- The key by which elements are ordered. -/
def ordKey (et v : Nat) : Int :=
  if etF et then (etFmt et).totalKey v
  else if etKey et then (keyNum (etSize et) v : Nat)
  else ival et v

/-- `x` precedes `y` in the order of R225. -/
def precedes (et x y : Nat) : Bool := ordKey et x < ordKey et y

/-- Insert behind every element that the new one does not precede, so that equal elements keep their order. -/
def insertBy {α : Type} (lt : α → α → Bool) (x : α) : List α → List α
  | [] => [x]
  | y :: t => if lt x y then x :: y :: t else y :: insertBy lt x t

/-- Stable sort. -/
def stableSort {α : Type} (lt : α → α → Bool) (l : List α) : List α := l.foldl (fun acc x => insertBy lt x acc) []

/-! ### The operand field (Table 3.7, Table 7.2) -/

/-- FN of the operand field. -/
def opFn (o : BitVec 56) : Nat := bitsOf o.toNat 55 52
/-- D. -/
def opD (o : BitVec 56) : Nat := bitsOf o.toNat 51 48
/-- A. -/
def opA (o : BitVec 56) : Nat := bitsOf o.toNat 47 44
/-- B. -/
def opB (o : BitVec 56) : Nat := bitsOf o.toNat 43 40
/-- M. -/
def opM (o : BitVec 56) : Nat := bitsOf o.toNat 39 36
/-- ET. -/
def opEt (o : BitVec 56) : Nat := bitsOf o.toNat 35 30
/-- ZM. -/
def opZm (o : BitVec 56) : Bool := bitsOf o.toNat 27 27 = 1
/-- BS. -/
def opBs (o : BitVec 56) : Bool := bitsOf o.toNat 26 26 = 1
/-- XET. -/
def opXet (o : BitVec 56) : Nat := bitsOf o.toNat 25 20
/-- ROPD. -/
def opRopd (o : BitVec 56) : Nat := bitsOf o.toNat 19 16
/-- BLK. -/
def opBlk (o : BitVec 56) : Nat := bitsOf o.toNat 12 0
/-- LOGB. -/
def opLogb (o : BitVec 56) : Nat := bitsOf o.toNat 10 6
/-- SE. -/
def opSe (o : BitVec 56) : Bool := bitsOf o.toNat 5 5 = 1
/-- REG. -/
def opReg (o : BitVec 56) : Nat := bitsOf o.toNat 4 0

/-- The operand field of an encoded instruction. -/
def opfOf (f : FmtV) : BitVec 56 := f.fn ++ f.d ++ f.a ++ f.b ++ f.m ++ f.et ++ f.z ++ f.opx

/-- FN values of an opcode (Table 7.1). -/
def fnOk (opc fn et : Nat) : Bool :=
  match opc with
  | 0xC0 => fn ≤ 2
  | 0xC1 => fn ≤ 10
  | 0xC2 | 0xC3 => fn ≤ 1
  | 0xC4 => fn ≤ 7
  | 0xC5 => fn ≤ 5 || (fn = 6 && etF et)
  | 0xC8 | 0xCC | 0xCF | 0xD0 | 0xD4 => fn ≤ 1
  | 0xC9 | 0xCA => fn ≤ 3
  | 0xD1 => fn ≤ 5
  | _ => fn = 0

/-- Element types of an opcode (Table 7.1). -/
def opEtOk (opc fn et xet : Nat) : Bool :=
  let ui := etU et || etI et
  etOk et &&
  match opc with
  | 0xC0 => if fn = 0 then true else if fn = 1 then et ≠ etBit else ui
  | 0xC1 | 0xC2 | 0xC3 => ui
  | 0xC4 => etF et
  | 0xC5 => ui || etF et || etP et
  | 0xC6 | 0xC7 => et ≠ etBit
  | 0xC8 => ui || etF et
  | 0xC9 | 0xCA => if fn = 3 then et ≠ etBit else ui || etF et
  | 0xCB => et ≠ etBit
  | 0xCC => ui || etKey et
  | 0xCD => et = 3 || et = 7 || et = 9
  | 0xCE => et = 3 || et = 7 || et = 9 || et = 0x0A || et = 0x17
  | 0xCF | 0xD0 => ui || etF et || etKey et
  | 0xD1 => etKey et
  | 0xD2 | 0xD3 => etP et
  | _ => etOk xet && cvtOk xet et

/-- The opcode has a BS bit in this form (Table 7.2). -/
def hasBs (opc fn : Nat) : Bool :=
  match opc with
  | 0xC1 | 0xC2 | 0xC3 | 0xC5 | 0xC7 | 0xD1 | 0xD2 | 0xD3 => true
  | 0xC4 => fn ≠ 4 && fn ≠ 7
  | _ => false

/-- The bits of OPX that Table 7.2 assigns to the opcode in this form. -/
def opxMask (opc fn : Nat) (bs se : Bool) : Nat :=
  let zm := if (opc = 0xC0 && fn = 0) || (0xC1 ≤ opc && opc ≤ 0xC4) || opc = 0xD2 || opc = 0xD3 then 2 ^ 27 else 0
  let b := if hasBs opc fn then 2 ^ 26 else 0
  let xet := if opc = 0xD4 then 0x3F * 2 ^ 20 else 0
  let ropd := if opc = 0xCE then 0xF * 2 ^ 16 else 0
  let blk := if opc = 0xD0 then 0x1FFF else 0
  let logb := if opc = 0xCC then 0x1F * 2 ^ 6 else 0
  let sb := if opc = 0xCB then 2 ^ 5 else 0
  let reg :=
    if (opc = 0xC0 && fn ≠ 0) || (opc = 0xC4 && fn = 7) || (opc = 0xCB && se) || opc = 0xCC || (hasBs opc fn && bs)
    then 0x1F else 0
  Nat.lor (Nat.lor (Nat.lor zm b) (Nat.lor xet ropd)) (Nat.lor (Nat.lor blk logb) (Nat.lor sb reg))

/-- Which of A, B and M the operation requires (1), allows (2) or forbids (0) (Table 7.1). -/
def needA (opc fn : Nat) : Nat := if opc = 0xC0 && fn ≠ 0 then 0 else 1
def needB (opc fn : Nat) (bs : Bool) : Nat :=
  match opc with
  | 0xC1 | 0xC2 | 0xC3 | 0xC5 | 0xD1 | 0xD2 | 0xD3 => if bs then 0 else 1
  | 0xC4 => if fn = 4 then 0 else if bs then 0 else 1
  | 0xC9 | 0xCC | 0xCF => 1
  | _ => 0
def needM (opc fn : Nat) : Nat :=
  match opc with
  | 0xC0 => if fn = 0 then 2 else 0
  | 0xC6 | 0xC7 => 1
  | 0xCF | 0xD0 => 0
  | _ => 2

/-- An operand code fits a requirement. -/
def needOk (need code : Nat) : Bool :=
  code ≤ 0xC && (match need with | 0 => code = 0xC | 1 => code ≠ 0xC | _ => true)

/-- A chain slot code. -/
def isSlot (c : Nat) : Bool := 8 ≤ c && c ≤ 0xB

/-- The operand must be a stream (Table 7.1). -/
def streamOnly (opc : Nat) : Bool := opc = 0xC9

/-- The illegal-encoding cause of a long-vector operand field, 0 if none (R83, R113, R180, R220, R221). ROPD is checked
at stage 4 (R245). -/
def vecCause (opc : Nat) (o : BitVec 56) : Nat :=
  let fn := opFn o
  let d := opD o
  let a := opA o
  let b := opB o
  let m := opM o
  let bad :=
    !fnOk opc fn (opEt o) || !opEtOk opc fn (opEt o) (opXet o) ||
    bitsOf o.toNat 29 28 ≠ 0 ||
    Nat.land (bitsOf o.toNat 27 0) (opxMask opc fn (opBs o) (opSe o)) ≠ bitsOf o.toNat 27 0 ||
    d = 0xC || 0xC < d || !needOk (needA opc fn) a || !needOk (needB opc fn (opBs o && hasBs opc fn)) b ||
    !needOk (needM opc fn) m ||
    (isSlot d && (d = a || d = b || d = m)) ||
    (isSlot a && (a = b || a = m)) || (isSlot b && b = m) ||
    (streamOnly opc && (isSlot a || isSlot b || isSlot m)) ||
    ((opc = 0xCD || opc = 0xCE) && isSlot d) ||
    (opc = 0xD0 && (opBlk o = 0 || 4096 < opBlk o))
  if bad then 0x06 else 0

/-- Type of operand A: ET but for VCVT and VPROBE (Table 7.1). -/
def etOfA (opc : Nat) (o : BitVec 56) : Nat := if opc = 0xD4 then opXet o else if opc = 0xCC then 3 else opEt o
/-- Type of operand B (Table 7.1). -/
def etOfB (opc : Nat) (o : BitVec 56) : Nat := if opc = 0xC9 then etBit else opEt o
/-- Type of operand D (Table 7.1). -/
def etOfD (opc : Nat) (o : BitVec 56) : Nat :=
  match opc with
  | 0xC5 | 0xD1 => etBit
  | 0xC9 | 0xCA => if opFn o = 3 then 3 else opEt o
  | 0xCB => 3
  | 0xCC => if opFn o = 0 then 3 else etBit
  | _ => opEt o

/-- The reservation station of an opcode (Table 4.6), as a number. -/
def stationOf (opc : Nat) : Nat :=
  match opc with
  | 0xC0 | 0xC1 | 0xC8 | 0xC9 | 0xCA => 0
  | 0xC2 => 1
  | 0xC3 => 2
  | 0xC4 | 0xD4 => 3
  | 0xC5 | 0xC6 | 0xC7 | 0xD1 => 4
  | 0xCB | 0xCC => 5
  | 0xD2 | 0xD3 => 6
  | 0xCF | 0xD0 => 7
  | _ => 8

/-- Entries of a reservation station (Table 4.6). -/
def stationSize (u : Nat) : Nat := if u = 0 || u = 3 || u = 4 then 4 else 2

/-! ### Sieve predicates (R253 to R255) -/

/-- The 64-byte block as a number. -/
def recNat (r : Rec64) : Nat := r.words.reverse.foldl (fun a w => a * 2 ^ 64 + w.toNat) 0

/-- Eight words of a number, the low one first. -/
def rec64Of (n : Nat) : Rec64 :=
  let w := fun i => BitVec.ofNat 64 (n / 2 ^ (64 * i))
  ⟨w 0, w 1, w 2, w 3, w 4, w 5, w 6, w 7⟩

/-- A bound is a NaN or invalid decimal (R254). -/
def boundBad (et v : Nat) : Bool :=
  (etF et && (etFmt et).isNan v) || (etP et && (decBad (pNibbles et) v).isSome)

/-- The block keeps the rules of R254 for a stream of type `et`. -/
def predOk (r : Rec64) (et : Nat) : Bool :=
  let h := r.w0.toNat
  let n := recNat r
  let lo := n / 2 ^ 64 % 2 ^ 128
  let hi := n / 2 ^ 192 % 2 ^ 128
  let s := etSize et
  let range := bitsOf h 55 54 = 0
  bitsOf h 63 56 = 1 && bitsOf h 55 54 ≤ 1 && bitsOf h 53 48 = et && bitsOf h 36 0 = 0 &&
  (if range then
    (etU et || etI et || etF et || etP et) && bitsOf h 42 42 = 0 && bitsOf h 41 37 = 0 &&
    lo < 2 ^ (8 * s) && hi < 2 ^ (8 * s) && n / 2 ^ 320 = 0 &&
    (bitsOf h 44 44 = 1 || !boundBad et lo) && (bitsOf h 43 43 = 1 || !boundBad et hi)
  else
    (etU et || etI et || etKey et) && (!etKey et || bitsOf h 42 42 = 1) && lo = 0 && n / 2 ^ 192 % 2 ^ 64 = 0 &&
    (if bitsOf h 42 42 = 1 then bitsOf h 41 37 < s else bitsOf h 41 37 = 0))

/-- Order of two elements for a RANGE test, by R228; the Sieve reads no FLAGS (R267). -/
def sieveOrd (et a b : Nat) : FOrd :=
  if etF et then (etFmt et).cmp false a b
  else if etP et then ordInt (decVal (pNibbles et) a) (decVal (pNibbles et) b)
  else ordInt (ival et a) (ival et b)

/-- The element qualifies (R255); the second part marks the invalid-data rule. -/
def sieve (r : Rec64) (et v : Nat) : Bool × Bool :=
  let h := r.w0.toNat
  let n := recNat r
  let neg := bitsOf h 47 47 = 1
  if etP et && (decBad (pNibbles et) v).isSome then (true, true)
  else if bitsOf h 55 54 = 0 then
    let lo := n / 2 ^ 64 % 2 ^ 128
    let hi := n / 2 ^ 192 % 2 ^ 128
    let okLo := bitsOf h 44 44 = 1 || (let o := sieveOrd et v lo; o = .gt || (o = .eq && bitsOf h 46 46 = 0))
    let okHi := bitsOf h 43 43 = 1 || (let o := sieveOrd et v hi; o = .lt || (o = .eq && bitsOf h 45 45 = 0))
    let isNan := etF et && (etFmt et).isNan v
    ((okLo && okHi && !isNan) != neg, false)
  else
    let member := fun x => n / 2 ^ (256 + x) % 2 = 1
    if bitsOf h 42 42 = 1 then ((member (v / 2 ^ (8 * bitsOf h 41 37) % 256)) != neg, false)
    else
      let x := ival et v
      ((0 ≤ x && x ≤ 255 && member x.toNat) != neg, false)

end Sys2Proof.Machine
end

