-- ==== Sys2Proof/Config.lean ====
section
/-!
DEFINITION. The free values of the model: what the manual leaves open, or what lies outside this part. Each is an
opaque function without a body, so nothing can be proved of its value. The first argument is the state's counter
`freeCtr` (DESIGN CHOICE, log 2).
-/
namespace Sys2Proof

/-- The byte that a location of another part's memory returns, where one indivisible step reads it (DESIGN CHOICE, log 9). -/
opaque Config.remoteByte : Nat → Nat → Byte

/-- Bulk memory of another part at an offset lies in one of its expanders (R24, R593, DESIGN CHOICE, log 19). -/
opaque Config.farExpander : Nat → Nat → Bool

/-- An offset of another part is unmapped there when an access reaches it (R26, DESIGN CHOICE, log 128). -/
opaque Config.farUnmapped : Nat → Nat → Nat → Bool

/-- The byte that expander memory returns before anything has written it (R502, DESIGN CHOICE, log 10). -/
opaque Config.expanderByte : Nat → Nat → Byte

/-- A word of the seeds that the training of PREP finds (R512, DESIGN CHOICE, log 11). -/
opaque Config.calibration : Nat → W64

/-- The value that a load of the Steward returns when the access completes with an error status (R26, R305, DESIGN CHOICE, log 23). -/
opaque Config.errorData : Nat → BitVec 256

/-- One less than the length of a delay-slot instruction that cannot be fetched, by its address (R95, R594, DESIGN CHOICE, log 24). -/
opaque Config.slotLen : Nat → Nat

/-- The engine number that ENID gives on the Steward, which has none (R111, DESIGN CHOICE, log 25). -/
opaque Config.stewardNumber : Nat

/-- What a Keep register holds after a commit that fails its verification (R510, DESIGN CHOICE, log 33). -/
opaque Config.keepFailed : Nat → W64

/-- The byte that a flash command ended by FLASHERR leaves, by address or buffer place (R516, DESIGN CHOICE, log 34). -/
opaque Config.flashByte : Nat → Nat → Byte

/-- FOPD and FIDX after a stop that a resume record with a decode fault causes, by the record's first word (R216, DESIGN
CHOICE, log 133). -/
opaque Config.failOperand : Nat → Nat × Nat

/-- Xingeik's PCI-SIG vendor identifier (R466), which the spec does not give (log 126). -/
opaque Config.vendorId : BitVec 16

end Sys2Proof
end

