-- ==== Sys2Proof/Machine/Regs.lean ====
section
/-!
DEFINITION. Management access to the register window: what a read shows, what a write does by the access codes, the
low-half latches and high-half staging buffers, and which master may reach what (R7 to R14, R22, R397, R559).
-/
namespace Sys2Proof.Machine

/-- DEV_ID (R518). -/
def State.devId (s : State) : BitVec 32 := if s.ord14 then 0x14017201 else 0x16017200

/-- DEV_MODE (R518, R491). -/
def State.devMode (s : State) : BitVec 32 :=
  BitVec.ofNat 32 ((match s.pendMode with | some p => p.1.code | none => s.mode.code) * 256 + s.mode.code)

/-- Task Table entries that are not FREE. -/
def State.taskCount (s : State) : Nat := (s.sta.tasks.filter (fun p => p.2.st ≠ .free)).length

/-- STA_STATUS (R70). -/
def State.staStatus (s : State) : BitVec 32 :=
  BitVec.ofNat 32 (s.sta.moving.toNat * 2 ^ 31 + (65536 - s.taskCount) * 2 ^ 5 + s.sta.intake.length % 32)

/-- FLT_STAT (R428): OVF is stored, the rest follows the queue. -/
def State.fltStat (s : State) : BitVec 32 :=
  BitVec.ofNat 32 ((s.bit Reg.fltStat 31).toNat * 2 ^ 31 +
    (match s.flt.queue with | [] => 0 | h :: _ => h.sev) * 2 ^ 29 + s.flt.queue.length % 2 ^ 11)

/-- FLT_FENCES (R428). -/
def State.fltFences (s : State) : BitVec 32 :=
  BitVec.ofNat 32 ((!s.flt.sweeps.isEmpty).toNat * 2 ^ 16 + Nat.min 64 s.flt.retired.length * 256 +
    s.flt.fences.length % 256)

/-- FLT_HEAD_k: bytes 4k to 4k + 3 of the head record (R428). -/
def State.fltHead (s : State) (k : Nat) : BitVec 32 :=
  match s.flt.queue with
  | [] => 0
  | h :: _ =>
    let w : W64 := match k / 2 with | 0 => h.w0 | 1 => h.w1 | 2 => h.w2 | _ => h.w3
    if k % 2 = 0 then w.setWidth 32 else (w >>> 32).setWidth 32

/-- The highest-severity class in an error queue (R173). -/
def errTop (q : List ErrEntry) : Nat := (q.map (fun x => x.cls)).foldl Nat.min 3

/-- EN_EXC_STAT (R179). -/
def State.excStat (s : State) (e : Nat) : BitVec 32 :=
  let a := (s.eng e).arch
  BitVec.ofNat 32 (s.fld (Reg.enExcStat e) 31 8 * 256 + (if a.errq.isEmpty then 0 else errTop a.errq) * 4 +
    a.erract.toNat * 2 + a.escact.toNat)

/-- The channel of interrupt line `i` of engine `e` (R178). -/
def State.intSel (s : State) (e i : Nat) : Nat := bitsOf (s.rd64 (Reg.enIntSel e)).toNat (8 * i + 7) (8 * i)

/-- Interrupt line `i` of engine `e` is pending (R166). -/
def State.intPending (s : State) (e i : Nat) : Bool := s.bit (Reg.enIntEn e) i && s.seenFlag (s.intSel e i)

/-- EN_INT_PEND (R461). -/
def State.intPend (s : State) (e : Nat) : BitVec 32 :=
  BitVec.ofNat 32 ((!(s.eng e).arch.errq.isEmpty).toNat * 256 +
    (List.range 8).foldl (fun a i => a + (s.intPending e i).toNat * 2 ^ i) 0)

/-- EN_FETCH_STAT (R147): LBUF_ACTIVE follows the loop buffer. -/
def State.fetchStat (s : State) (e : Nat) : BitVec 32 :=
  BitVec.ofNat 32 (s.fld (Reg.enFetchStat e) 31 16 * 65536 +
    (match (s.eng e).lbuf with | some b => (!b.capturing).toNat | none => 0))

/-- The word of a register of an engine's block. -/
def State.showEngine (s : State) (e rel : Nat) (stored : BitVec 32) : BitVec 32 :=
  if rel = 0x44 then s.fetchStat e
  else if rel = 0x60 then s.excStat e
  else if rel = 0xB0 then s.intPend e
  else stored

/-- The bits of a register word whose fields read as 0: WO and reserved (Table 0.4, R8). `half` is 0 or 32. -/
def readMask (fs : List RegField) (half : Nat) : Nat :=
  fs.foldl (fun m f => if f.acc = .wo then m else m + (2 ^ (f.hi + 1) - 2 ^ f.lo)) 0 / 2 ^ half % 2 ^ 32

/-- The stored word of the register that holds an offset, with its write-only fields as 0. -/
def State.stored (s : State) (off : Nat) : BitVec 32 :=
  match findReg off regRows with
  | none => 0
  | some (r, d) =>
    s.rd ⟨off, BitVec.ofNat 32 (r.rst / 2 ^ (8 * d))⟩ &&& BitVec.ofNat 32 (readMask r.fields (8 * d))

/-- The paths of the crossbar: master to target (Table 9.8, R308). -/
def xbarPath (m t : Nat) : Bool :=
  if m < 32 then t < 16 || (16 ≤ t && t < 48 && t ≠ 16 + m) || t = 48 || t = 49 || t = 51 || t = 52
  else if m = 32 || m = 33 then t < 48 || t = 50 || t = 51 || t = 52 || t = 55
  else if m = 34 then t < 48 || t = 51 || t = 52 || t = 53
  else if m = 35 then t ≤ 55
  else if m = 36 || m = 37 then t = 53
  else if m = 38 then t ≤ 52
  else if m = 39 || m = 41 then t < 48 || (51 ≤ t && t ≤ 55)
  else if m = 40 then t < 12 || t = 51 || t = 52
  else false

/-- The fields of XBAR_PRIO_m_j whose pair has a path (R314). -/
def prioMask (m j : Nat) : BitVec 32 :=
  BitVec.ofNat 32 ((List.range 8).foldl (fun a k => if xbarPath m (8 * j + k) then a + 15 * 16 ^ k else a) 0)

/-- The word a management read of a window offset shows (R7, R8, R587). -/
def State.show (s : State) (off : Nat) : BitVec 32 :=
  if off = 0x0 then s.devId
  else if off = 0x4 then s.devMode
  else if off = 0x300008 then BitVec.ofNat 32 s.lap
  else if off = 0x30000C then BitVec.ofNat 32 (s.lap / 2 ^ 32)
  else if off = 0x300010 then BitVec.ofNat 32 s.lapTicks
  else if off = 0x301004 then s.staStatus
  else if off = 0xC00000 then BitVec.ofNat 32 s.tb
  else if off = 0xC00004 then BitVec.ofNat 32 (s.tb / 2 ^ 32)
  else if off = 0xA00000 then s.fltStat
  else if off = 0xA00008 then s.fltFences
  else if 0xA00010 ≤ off ∧ off < 0xA00030 then s.fltHead ((off - 0xA00010) / 4)
  else if 0x401000 ≤ off ∧ off < 0x401540 then s.stored off &&& prioMask ((off - 0x401000) / 32) (off % 32 / 4)
  else if 0x1000000 ≤ off ∧ off < 0x3000000 then
    s.showEngine ((off - 0x1000000) / 0x10000) ((off - 0x1000000) % 0x10000) (s.stored off)
  else s.stored off

/-- Masters with a path to the register space (R22): pair ingress, host, downstream CXL ports, Steward, debug. -/
def regMaster (m : Nat) : Bool := xbarPath m 53

/-- The register window is reachable: not in OFF or HOLD (R490). -/
def State.windowUp (s : State) : Bool := s.mode ≠ .off && s.mode ≠ .hold

/-- A management access of width `bytes` at an offset is made at all (R12, R22). -/
def State.accessOk (s : State) (m off bytes : Nat) : Bool :=
  s.windowUp && regMaster m && bytes = 4 && off % 4 = 0

/-- A management access that is not made: without a path it is answered as unmapped, recorded and counted (R26, R309); one of
another width or alignment, or in a part without power or in reset, has no effect (R12, R490). -/
def State.noAccess (s : State) (m off : Nat) : State :=
  if s.windowUp && !regMaster m && m < 42 then
    (s.satInc Reg.xbarStat 15 0).fault 0x13 (originOf s.pos 2 m)
      (s.pos * 2 ^ 46 + 0x3F0000000000 + off % 2 ^ 30) 0 0 0
  else s

/-- A management read that is not made; one of another width or alignment completes with 0 (R12). -/
def State.noRead (s : State) (m off : Nat) : State :=
  if s.windowUp && regMaster m then s.emit (.regData m off 0) else s.noAccess m off

/-- Blocks whose writes stay on their own side in mirrored operation: PAIR, FLT, REC and DBG (R397). -/
def ownSideBlock (off : Nat) : Bool := off / 0x100000 = 0x9 || off / 0x100000 = 0xA || off / 0x100000 = 0xE

/-- A doorbell register (R476). -/
def isDoorbell (off : Nat) : Bool :=
  0xD01000 ≤ off && off < 0xD01800 && ((off - 0xD01000) % 32 = 12 || (off - 0xD01000) % 32 = 28)

/-- The Lead forwards its inputs (R397): LEAD mode, no Handoff yet, and no rejoin under way (R425). -/
def State.forwarding (s : State) : Bool :=
  s.actMode = .lead && !s.bit Reg.pairStat 27 && !s.bit Reg.pairStat 26 && s.pair.rejoinLap.isNone

/-- This part is a Pacer that forwarding reaches (R397, R412, R425): from the first forwarded packet on (DEDUCED, log 13). -/
def State.pacer (s : State) : Bool :=
  s.actMode = .trail && !s.bit Reg.pairStat 27 && !s.bit Reg.pairStat 26 &&
    (s.pair.lapendRx.isSome || s.pair.readyRx.isSome || !s.pair.inputs.isEmpty)

/-- The Lead takes an input in this Lap and forwards it (R397, R398). -/
def State.takeInput (s : State) (i : Input) (ty : Nat) (ws : List W64) : State :=
  ({ s with pair := { s.pair with inputs := s.pair.inputs ++ [i], taken := s.pair.taken + 1 } }.sendPair
    ty ws).add64 Reg.pairCntInput 1

/-- INPUT cells of the pair link that remain in the Lap cover the packets waiting and one more (R398, R403, DEDUCED, log 27). -/
def State.inputRoom (s : State) : Bool :=
  let left := s.lapTicks - s.tb % s.lapTicks
  let waiting := ((s.port 2).inject.filter (fun f => f.vc = 0)).length
  !s.forwarding || decide (waiting + 301 ≤ left * 39 / 100)

/-- An input of the host: taken while it fits into the INPUT cells left in the Lap; else it waits, behind those that wait
already, for a later Lap (R398, R479). -/
def State.offer (s : State) (i : Input) (ty : Nat) (ws : List W64) : State :=
  if s.inputRoom && s.pair.waiting.isEmpty then s.takeInput i ty ws
  else { s with pair := { s.pair with waiting := s.pair.waiting ++ [i] } }

/-- A Record Unit entry of the open Lap (R548, R552): TYPE, A, B and payload words, when recording is active. It is dropped
where the block would exceed 4 MiB or both halves of the buffer are taken. -/
def State.log (s : State) (ty a : Nat) (b : W64) (pay : List W64) : State :=
  if s.bit Reg.recStat 28 then
    let used := (s.recd.cur.map (fun x => 16 + 8 * x.pay.length)).foldl (· + ·) 64
    if used + 16 + 8 * pay.length ≤ 4194304 ∧ s.recd.out.length < 2 then
      let cyc := s.tb % s.lapTicks * s.cclk / s.lapTicks
      { s with recd := { s.recd with cur := s.recd.cur ++ [⟨ty, cyc, a, b, pay⟩] } }
    else { (s.satInc Reg.recStat 23 0) with recd := { s.recd with incomplete := true } }
  else s

/-- Who may write what: the host's writes are forwarded on a Lead and ignored on a Pacer (R397, R482); the debug port
is limited in mirrored modes (R559). `act` is the write's effect. -/
def State.gate (s : State) (m off : Nat) (v : BitVec 32) (act : State → State) : State :=
  if m = 41 && s.actMode.mirrored && !ownSideBlock off then s.satInc Reg.dbgStat 15 0
  else if m = 35 && s.forwarding && !ownSideBlock off then
    s.offer (.regwr s.lap off v) 0x3 [BitVec.ofNat 64 (off % 2 ^ 30), v.setWidth 64]
  else if m = 35 && s.pacer && !ownSideBlock off then
    if isDoorbell off then s.satInc Reg.hostStat 7 0 else s
  else
    act (if (m = 35 || m = 41) && off / 0x100000 ≠ 0xE && !isDoorbell off then
      s.log 0x04 (off % 2 ^ 30) (v.setWidth 64) [] else s)

/-- One field of a 64-bit or 32-bit register after a write of `v` to the bits from `half` on, by its access code
(R7). `rlOk` says that RL fields may be written (Dawn). -/
def fieldWrite (rlOk : Bool) (f : RegField) (half n : Nat) (old v : Nat) : Nat :=
  if f.lo < half ∨ half + n ≤ f.lo then old
  else
    let hi := Nat.min f.hi (half + n - 1)
    let new := bitsOf v (hi - half) (f.lo - half)
    match f.acc with
    | .rw | .rwp => putBits old (hi - half) (f.lo - half) new
    | .rl => if rlOk then putBits old (hi - half) (f.lo - half) new else old
    | .w1c =>
      putBits old (hi - half) (f.lo - half)
        (Nat.bitwise (fun a b => a && !b) (bitsOf old (hi - half) (f.lo - half)) new)
    | .w1s =>
      putBits old (hi - half) (f.lo - half)
        (Nat.bitwise (fun a b => a || b) (bitsOf old (hi - half) (f.lo - half)) new)
    | .ro | .wo | .rc => old

/-- A 32-bit word of a register after a write: a field that spans both halves is written half by half. -/
def wordWrite (rlOk : Bool) (fs : List RegField) (half old v : Nat) : Nat :=
  fs.foldl (fun o f =>
    let g : RegField := { f with lo := Nat.max f.lo half }
    if f.hi < half then o else fieldWrite rlOk g half 32 o v) old

/-- Write a register word by the access codes of its fields. No RW field of Table 19.2 names a reserved encoding of
R9; the queue sizes have the rule of R477. -/
def State.writeWord (s : State) (rlOk : Bool) (off : Nat) (v : BitVec 32) : State :=
  match findReg off regRows with
  | none => s
  | some (r, d) =>
    let ref : RegRef := ⟨off, BitVec.ofNat 32 (r.rst / 2 ^ (8 * d))⟩
    s.wr ref (BitVec.ofNat 32 (wordWrite rlOk r.fields (8 * d) (s.rd ref).toNat v.toNat))

/-- Clear the RC fields of the register word at an offset, as a read does (R7). -/
def State.clearRC (s : State) (off : Nat) : State :=
  match findReg off regRows with
  | none => s
  | some (r, d) =>
    let ref : RegRef := ⟨off, BitVec.ofNat 32 (r.rst / 2 ^ (8 * d))⟩
    s.wr ref (BitVec.ofNat 32 ((r.fields.filter (fun f => f.acc = .rc ∧ f.lo / 32 * 32 = 8 * d)).foldl
      (fun o f => putBits o (f.hi - 8 * d) (f.lo - 8 * d) 0) (s.rd ref).toNat))

/-- The key of a master's latch or staging buffer for a register (R589). -/
def latchKey (m off : Nat) : Nat := off * 64 + m

/-- The register at an offset is 64 bits wide and the offset names its low (0) or high (4) half. -/
def half64 (off : Nat) : Option Nat :=
  match findReg off regRows with
  | some (r, d) => if r.width = 64 then some d else none
  | none => none

/-- What a management read of master `m` returns, and its effect: a low half latches the high half, a high half gives
the latched one, and RC fields clear (R7, R12, R13). -/
def State.readReg (s : State) (m off : Nat) : State × BitVec 32 :=
  match half64 off with
  | some 0 =>
    ((({ s with latch := SMap.set 0 s.latch (latchKey m off) (s.show (off + 4)) } : State).clearRC off), s.show off)
  | some _ => (s.clearRC off, SMap.get 0 s.latch (latchKey m (off - 4)))
  | none => (s.clearRC off, s.show off)

end Sys2Proof.Machine
end

