-- ==== Sys2Proof/Machine/Timers.lean ====
section
/-!
DEFINITION. The Time Base, the compare channels and the countdown timers (spec/13_events_and_time.md, R448 to R454):
the passing of time and the commands COMPARE, CMP_VALUE, CMP_CTL, ZERO, MATCH, START, STOP, RESET, LOADNOW, CDT_COUNT.
-/
namespace Sys2Proof.Machine

/-- The outcome type of a meaning. -/
abbrev Res := Host.Outcome State Fault Refusal

/-- Compare channels and timers work once a running mode has been entered (R448). -/
def State.timersOn (s : State) : Bool := s.mode.running || s.mode = .dusk || s.mode = .service

/-- A running timer steps when the presented Time Base passes a multiple of 2^PRE; a step to 0 or to MATCH makes its event due
(R451). -/
def State.cdtStep (s : State) (j : Nat) : State :=
  if !s.cdtRun j || s.tb % 2 ^ s.fld (Reg.cdtCtl j) 14 11 ≠ 0 then s
  else
    let c := s.rd (Reg.cdtCount j) - 1
    let s1 := s.wr (Reg.cdtCount j) c
    if c = 0 then { s1 with evt := { s1.evt with zeroDue := SMap.set 0 s1.evt.zeroDue j 1 } }
    else if s.rd (Reg.cdtMatch j) = c then
      { s1 with evt := { s1.evt with matchDue := SMap.set false s1.evt.matchDue j true } }
    else s1

/-- One cluster's residency counter of its present state (R562). -/
def State.residency (s : State) (n c : Nat) : State :=
  s.add64 (Reg.recClRes c (s.fld (Reg.pwrClStat c) 31 30)) n

/-- The performance counters of the part count (R558). -/
def State.pmcOn (s : State) : Bool :=
  s.windowUp && s.mode ≠ .dawn && !s.bit Reg.recPmcCtl 1

/-- CCLK in which an engine that holds a placement issues nothing: cycles used and HOLDCNT once it runs, EN_PMC_CYC,
EN_PMC_STALL (R56, R171, R561). -/
def State.engineCycles (s : State) (n e : Nat) : State :=
  match (s.eng e).place with
  | none => s
  | some p =>
    let s1 :=
      if (s.eng e).running then
        s.updEng e (fun x =>
          { x with place := some { p with cyc := p.cyc + n },
                   arch := { x.arch with holdcnt := BitVec.ofNat 32 (x.arch.holdcnt.toNat - n) } })
      else s
    if s.pmcOn then (s1.add64 (Reg.enPmcCyc e) n).add64 (Reg.enPmcStall e) n else s1

/-- Forwarded pulses that are due reach their channels (R431). -/
def State.deliverFwd (s : State) : State :=
  let due := s.evt.fwd.filter (fun p => p.2 ≤ s.hubNow)
  let s1 := { s with evt := { s.evt with fwd := s.evt.fwd.filter (fun p => s.hubNow < p.2) } }
  due.foldl (fun s p => s.pulse p.1 p.2) s1

/-- Link actions of the last tick act (R453). -/
def State.linkActs (s : State) : State :=
  ({ s with evt := { s.evt with links := [] } }).timerActs s.evt.links

/-- A link action, if the field selects one, acts in the next tick (R453). -/
def State.linkNext (s : State) (act j : Nat) : State :=
  if act = 0 then s else { s with evt := { s.evt with links := s.evt.links ++ [(act, j)] } }

/-- COMPARE: an armed channel whose value the Time Base has reached fires once in a tick, and re-arms or disarms (R449). -/
def State.cmpFire (s : State) (k : Nat) : State :=
  if k < 64 && s.timersOn && s.bit (Reg.cmpCtl k) 31 && (s.rd64 (Reg.cmpValue k)).toNat ≤ s.tb &&
      SMap.get 0 s.evt.cmpAt k ≠ s.tb + 1 then
    let s0 := { s with evt := { s.evt with cmpAt := SMap.set 0 s.evt.cmpAt k (s.tb + 1) } }
    let s1 := s0.fireCode (0x040 + k) s.hubNow
    if s.bit (Reg.cmpCtl k) 30 && s.rd (Reg.cmpPeriod k) ≠ 0 then
      s1.add64 (Reg.cmpValue k) (s.rd (Reg.cmpPeriod k)).toNat
    else s1.setBit (Reg.cmpCtl k) 31 false
  else s

/-- ZERO: the timer whose step reached 0 stops or reloads, pulses ZERO, and performs its link (R451, R453). -/
def State.cdtZero (s : State) (j : Nat) : State :=
  if j < 32 && s.timersOn && SMap.get 0 s.evt.zeroDue j ≠ 0 then
    let s1 := s.cdtReloadNow j
    let s2 := { s1 with evt := { s1.evt with zeroDue := SMap.set 0 s1.evt.zeroDue j 0 } }
    (s2.fireCode (0x080 + j) s.hubNow).linkNext (s.fld (Reg.cdtCtl j) 23 22) (s.fld (Reg.cdtCtl j) 28 24)
  else s

/-- MATCH: the timer whose step reached MATCH pulses MATCH and performs its link (R451, R453). -/
def State.cdtMatchFire (s : State) (j : Nat) : State :=
  if j < 32 && s.timersOn && SMap.get false s.evt.matchDue j then
    let s1 := { s with evt := { s.evt with matchDue := SMap.set false s.evt.matchDue j false } }
    (s1.fireCode (0x0A0 + j) s.hubNow).linkNext (s.fld (Reg.cdtCtl j) 16 15) (s.fld (Reg.cdtCtl j) 21 17)
  else s

/-- The events of the present tick that no command has performed yet are performed before the next tick (DESIGN CHOICE,
log 16). -/
def State.dueEvents (s : State) : State :=
  let s1 := (List.range 64).foldl (fun s k => s.cmpFire k) s
  let s2 := (List.range 32).foldl (fun s j => s.cdtZero j) s1
  (List.range 32).foldl (fun s j => s.cdtMatchFire j) s2

/-- One tick of the Time Base: every timer steps, then the actions of the last tick's links act (R448, R453). -/
def State.timeTick (s : State) : State :=
  let s1 := s.dueEvents
  let s2 := { s1 with tb := (s1.tb + 1) % 2 ^ 64 }
  ((List.range 32).foldl (fun s j => s.cdtStep j) s2).linkActs.deliverFwd

/-- No compare channel is armed, no timer runs, and nothing of theirs waits: time then only counts. -/
def State.timersIdle (s : State) : Bool :=
  !s.timersOn ||
    ((List.range 64).all (fun k => !s.bit (Reg.cmpCtl k) 31) && (List.range 32).all (fun j => !s.cdtRun j) &&
      s.evt.links.isEmpty && s.evt.zeroDue.isEmpty && s.evt.matchDue.isEmpty)

/-- The Time Base advances by `n` ticks (R448), and what time drives advances with it: timers and their events, forwarded
pulses, residency, engine cycles. Nothing happens in OFF and HOLD. -/
def State.advanceTime (s : State) (n : Nat) : State :=
  if s.windowUp then
    let s1 :=
      if s.timersIdle then ({ s with tb := (s.tb + n) % 2 ^ 64 } : State).deliverFwd
      else (List.range n).foldl (fun s _ => s.timeTick) s
    let s2 := if s1.pmcOn then (List.range 32).foldl (fun s c => s.residency n c) s1 else s1
    s2.listed.foldl (fun s e => s.engineCycles (s2.hubNow - s.hubNow) e) s2
  else s

/-- One tick: what step does on an empty queue (DESIGN CHOICE, log 16). -/
def State.tick (s : State) : State := s.advanceTime 1

/-! ### Compare channels -/

/-- A write that leaves an armed channel at or below the present count finds its value passed; the tick's evaluation is over, so
the channel fires in the next tick at the earliest. PASSED is what the latest write found (R450, R462; DEDUCED, log 148). -/
def State.cmpPassed (s : State) (k : Nat) : State :=
  let p := s.timersOn && s.bit (Reg.cmpCtl k) 31 && decide ((s.rd64 (Reg.cmpValue k)).toNat ≤ s.tb)
  { s.setBit (Reg.cmpCtl k) 29 p with evt := { s.evt with cmpAt := SMap.set 0 s.evt.cmpAt k (s.tb + 1) } }

/-- The low half staged by a master for a register, or its present low half (R14). -/
def State.stagedLow (s : State) (m off : Nat) (present : BitVec 32) : BitVec 32 :=
  match SMap.get none s.staged (latchKey m off) with
  | some v => v
  | none => present

/-- The staged low half is taken by the commit (R14). -/
def State.unstage (s : State) (m off : Nat) : State :=
  { s with staged := SMap.set none s.staged (latchKey m off) none }

/-- A committed write of CMP_VALUE_k (R450). -/
def State.cmpValueWrite (s : State) (m k : Nat) (hi : BitVec 32) : State :=
  let r := Reg.cmpValue k
  (((s.wr64 r (hi ++ s.stagedLow m r.off (s.rd r))).unstage m r.off)).cmpPassed k

/-- A write of CMP_CTL_k: EN, PER, and PASSED as the write finds it (R450, R462). -/
def State.cmpCtlWrite (s : State) (k : Nat) (v : BitVec 32) : State :=
  (s.setFld (Reg.cmpCtl k) 31 30 (bitsOf v.toNat 31 30)).cmpPassed k

/-- COMPARE (R449). -/
def execCompare (k : Nat) (s : State) : Res := .next (s.cmpFire k)

/-- CMP_VALUE (R450). -/
def execCmpValue (m k : Nat) (hi : BitVec 32) (s : State) : Res :=
  if s.accessOk m 0 4 ∧ k < 64 then
    .next (s.gate m ((Reg.cmpValue k).off + 4) hi (fun s => s.cmpValueWrite m k hi))
  else .next (s.noAccess m ((Reg.cmpValue k).off + 4))

/-- CMP_CTL (R450). -/
def execCmpCtl (m k : Nat) (v : BitVec 32) (s : State) : Res :=
  if s.accessOk m 0 4 ∧ k < 64 then .next (s.gate m (Reg.cmpCtl k).off v (fun s => s.cmpCtlWrite k v))
  else .next (s.noAccess m (Reg.cmpCtl k).off)

/-! ### Countdown timers -/

/-- A write to COUNT: 0 is taken as 1 while the timer runs (R454). -/
def State.cdtCountWrite (s0 : State) (j : Nat) (v : BitVec 32) : State :=
  let s := s0.cdtReloadNow j
  s.wr (Reg.cdtCount j) (if s.cdtRun j ∧ v = 0 then 1 else v)

/-- LOADNOW loads RELOAD (R454). -/
def State.cdtLoadNow (s : State) (j : Nat) : State :=
  (s.cdtReloadNow j).wr (Reg.cdtCount j) (s.rd (Reg.cdtReload j))

/-- A write to CDT_CTL: its RW fields, then LOADNOW, START and STOP; of START and STOP, STOP acts (R454, R463). -/
def State.cdtCtlWrite (s : State) (j : Nat) (v : BitVec 32) : State :=
  let s1 := (s.cdtReloadNow j).setFld (Reg.cdtCtl j) 28 10 (bitsOf v.toNat 28 10)
  let s2 := if bitsOf v.toNat 29 29 = 1 then s1.cdtLoadNow j else s1
  if bitsOf v.toNat 30 30 = 1 then s2.cdtStop j
  else if bitsOf v.toNat 31 31 = 1 && s2.timersOn then s2.cdtStart j
  else s2

/-- ZERO (R451). -/
def execZero (j : Nat) (s : State) : Res := .next (s.cdtZero j)

/-- MATCH (R451). -/
def execMatchEvt (j : Nat) (s : State) : Res := .next (s.cdtMatchFire j)

/-- START (R452). -/
def execStart (j : Nat) (s : State) : Res :=
  if j < 32 ∧ s.timersOn then .next (s.cdtStart j) else .next s

/-- STOP (R452). -/
def execStop (j : Nat) (s : State) : Res :=
  if j < 32 ∧ s.timersOn then .next (s.cdtStop j) else .next s

/-- RESET (R452). -/
def execReset (j : Nat) (s : State) : Res :=
  if j < 32 ∧ s.timersOn then .next (s.cdtReset j) else .next s

/-- LOADNOW (R454). -/
def execLoadnow (j : Nat) (s : State) : Res :=
  if j < 32 ∧ s.windowUp then .next (s.cdtLoadNow j) else .next s

/-- CDT_COUNT (R454). -/
def execCdtCount (m j : Nat) (v : BitVec 32) (s : State) : Res :=
  if s.accessOk m 0 4 ∧ j < 32 then .next (s.gate m (Reg.cdtCount j).off v (fun s => s.cdtCountWrite j v))
  else .next (s.noAccess m (Reg.cdtCount j).off)

end Sys2Proof.Machine
end

