-- ==== Sys2Proof/Machine/Mem.lean ====
section
/-!
DEFINITION. The memory tiers: where a part-window offset lies (R23, R24, R27, R290, R301), what reading and performing
a request do there, error correction and poison (R305 to R307), the counts that targets keep (R43, R293), and
arbitration (R288, R310).
-/
namespace Sys2Proof.Machine

/-! ### Where an offset lies -/

/-- The places an offset of the part window can name (Table 1.3). -/
inductive Tier where
  /-- usable channel and granule within it -/
  | ddr (ch l : Nat)
  /-- downstream port and offset in its expander -/
  | exp (p o : Nat)
  /-- device and device line -/
  | dir (dev line : Nat)
  /-- Home Bank of an engine -/
  | bank (e : Nat)
  /-- the register window -/
  | regs
  | none
deriving DecidableEq, Repr

/-- The numbers of the bits that are 1, ascending. -/
def setBits {w : Nat} (v : BitVec w) : List Nat := (List.range w).filter (fun i => v.getLsbD i)

/-- Capacity of a logical rank in GiB for DENS 0, 1 or 2 (R63). -/
def rankGib (dens : Nat) : Nat := 32 + 16 * dens

/-- Capacity of a channel in bytes (R63). -/
def State.chanBytes (s : State) (ch : Nat) : Nat :=
  s.fld (Reg.ddrCfg ch) 4 0 * rankGib (s.fld (Reg.ddrCfg ch) 6 5) * 2 ^ 30

/-- Channels that ADDRMAP enables. -/
def State.ddrEn (s : State) : List Nat := (List.range 12).filter (fun n => s.img.addr0.getLsbD (4 + n))

/-- The end of DDR5 in bulk memory (R24): the usable channels at their capacities. -/
def State.ddrEnd (s : State) : Nat := ((setBits s.blk.ddrOk).map s.chanBytes).foldl (· + ·) 0

/-- Round up to a 1 GiB boundary. -/
def gibUp (n : Nat) : Nat := (n + 2 ^ 30 - 1) / 2 ^ 30 * 2 ^ 30

/-- Size in bytes of the expander at a port; 0 when it is absent (R24, R303). -/
def State.expBytes (s : State) (p : Nat) : Nat := SMap.get 0 s.blk.expUnits p * 2 ^ 28

/-- Base of the expander at port 0 or 1 (R24). -/
def State.expBase (s : State) (p : Nat) : Nat :=
  if p = 0 then gibUp s.ddrEnd
  else gibUp (if s.expBytes 0 = 0 then s.ddrEnd else gibUp s.ddrEnd + s.expBytes 0)

/-- The fold of R301: xor of the nine nibbles of q. -/
def fold9 (q : Nat) : Nat := (List.range 9).foldl (fun f i => Nat.xor f (q / 16 ^ i % 16)) 0

/-- The interleave function (R301): channel and granule in it, for `chans` the usable channels. -/
def interleave (chans : List Nat) (a : Nat) : Nat × Nat :=
  let c := chans.length
  let g := a / 256
  (chans.getD ((g % c + fold9 (g / c)) % c) 0, g / c)

/-- The lowest offset of granule `l` of channel `ch`: the inverse of R301. -/
def granuleAt (chans : List Nat) (ch l : Nat) : Nat :=
  let c := chans.length
  match (List.range c).find? (fun r => (interleave chans ((l * c + r) * 256)).1 = ch) with
  | some r => (l * c + r) * 256
  | none => 0

/-- A Home Bank is mapped (R27); from Dusk's Test on its port answers as
unmapped (R526). -/
def State.bankUp (s : State) (e : Nat) : Bool :=
  !SMap.get false s.blk.badBank e &&
    !(s.mode = .dusk && (3 ≤ s.fld Reg.pwrDuskStat 31 29 || s.fld Reg.pwrDuskStat 31 29 = 0))

/-- Where an offset of the part window lies (R23, R24, R27, R290, R301). -/
def State.tier (s : State) (off : Nat) : Tier :=
  if off < 0x100000000000 then
    if off < s.ddrEnd then
      let x := interleave (setBits s.blk.ddrOk) off
      .ddr x.1 x.2
    else if s.expBase 0 ≤ off ∧ off < s.expBase 0 + s.expBytes 0 then .exp 0 (off - s.expBase 0)
    else if s.expBase 1 ≤ off ∧ off < s.expBase 1 + s.expBytes 1 then .exp 1 (off - s.expBase 1)
    else .none
  else if 0x200000000000 ≤ off ∧ off < 0x200004000000 then
    let t := off - 0x200000000000
    let ds := setBits s.blk.qdrOk
    if t < ds.length * 2 ^ 24 then .dir (ds.getD (t / 64 % ds.length) 0) (t / 64 / ds.length) else .none
  else if 0x280000000000 ≤ off ∧ off < 0x280008000000 then
    let e := (off - 0x280000000000) / 0x40000
    if s.bankUp e then .bank e else .none
  else if 0x3F0000000000 ≤ off ∧ off < 0x3F0040000000 then .regs
  else .none

/-- Offset of a Home Bank (R17). -/
def bankBase (e : Nat) : Nat := 0x280000000000 + e * 0x40000

/-- The tier is memory that can be read and written. -/
def Tier.isMem : Tier → Bool
  | .ddr _ _ | .exp _ _ | .dir _ _ | .bank _ => true
  | .regs | .none => false

/-- Atomics are performed only in Home Banks and the Directory tier (R247). -/
def Tier.atomicOk : Tier → Bool
  | .dir _ _ | .bank _ => true
  | .ddr _ _ | .exp _ _ | .regs | .none => false

/-- The crossbar target of a tier (Table 1.2); 63 where there is none. -/
def Tier.target : Tier → Nat
  | .ddr ch _ => ch
  | .dir d _ => 12 + d
  | .bank e => 16 + e / 16
  | .exp p _ => 51 + p
  | .regs => 53
  | .none => 63

/-- The unit that reads at an offset: a sub-bank, a device, a channel or a port. Keys of `found`. -/
def unitOf (t : Tier) (off : Nat) : Nat :=
  match t with
  | .bank e => 0x10000 + e * 16 + off / 16 % 16
  | .ddr _ _ | .dir _ _ | .exp _ _ | .regs | .none => t.target

/-- The key of the word or line that poison marks: a 64-byte line in bulk memory, an 8-byte word elsewhere (R306). -/
def healthKey (off : Nat) : Nat := if off < 0x100000000000 then off / 64 * 8 else off / 8

/-! ### Bytes -/

/-- Write cells into memory. -/
def putCells (m : SMap Byte) (cs : List (Nat × Byte)) : SMap Byte :=
  cs.foldl (fun m c => SMap.set 0 m c.1 c.2) m

/-- `n` bytes at an offset. -/
def getBytes (m : SMap Byte) (off n : Nat) : List Byte := (List.range n).map (fun i => SMap.get 0 m (off + i))

/-- Bytes paired with their offsets. -/
def cellsAt (off : Nat) : List Byte → List (Nat × Byte)
  | [] => []
  | b :: t => (off, b) :: cellsAt (off + 1) t

/-- The 8-byte word at an offset as a number. -/
def word8 (m : SMap Byte) (off : Nat) : Nat := ofLe (getBytes m off 8)

/-! ### Performing a request at its target -/

/-- The new value that an atomic stores (R244, R245, R289). -/
def MemOp.result (op : MemOp) (old : Nat) : Nat :=
  match op with
  | .iadd v => (old + v.toNat) % 2 ^ 64
  | .fadd v rm ftz daz => (f64.add ⟨rm.toNat, ftz, daz⟩ old v.toNat).1
  | .swap v _ => v.toNat
  | .write _ => old

/-- The operation is an atomic. -/
def MemOp.isAtomic : MemOp → Bool
  | .write _ => false
  | .iadd _ | .fadd _ _ _ _ | .swap _ _ => true

/-- The offset is covered by a request. -/
def MemReq.covers (r : MemReq) (off : Nat) : Bool :=
  match r.op with
  | .write cs => cs.any (fun c => c.1 = off)
  | .iadd _ | .fadd _ _ _ _ | .swap _ _ => r.off ≤ off && off < r.off + 8

/-- The health keys a write touches, and whether it covers each of them whole (R306). -/
def writeWords (cs : List (Nat × Byte)) : List (Nat × Bool) :=
  let ks := (cs.map (fun c => healthKey c.1)).eraseDups
  ks.map (fun k =>
    let n := (cs.filter (fun c => healthKey c.1 = k)).length
    let o : Nat := ((cs.filter (fun c => healthKey c.1 = k)).map (fun c => c.1)).headD 0
    (k, decide (n = if o < 0x100000000000 then 64 else 8)))

/-- A write or atomic on a memory: the new memory, and whether it met poison and was not performed (R306). -/
def Memory.apply (m : Memory) (r : MemReq) : Memory × Bool :=
  match r.op with
  | .write cs =>
    let ws := writeWords cs
    if ws.any (fun w => !w.2 && SMap.get Health.good m.health w.1 = .poisoned) then (m, true)
    else
      ({ m with
          mem := putCells m.mem cs,
          health := ws.foldl (fun h w =>
            if w.2 || SMap.get Health.good h w.1 = .corrected then SMap.set .good h w.1 .good else h) m.health,
          written := cs.foldl (fun w c =>
            if c.1 < 0x100000000000 then SMap.set false w c.1 true else w) m.written }, false)
  | .iadd _ | .fadd _ _ _ _ | .swap _ _ =>
    if SMap.get Health.good m.health (healthKey r.off) = .poisoned then (m, true)
    else
      ({ m with
          mem := putCells m.mem (cellsAt r.off (leBytes 8 (r.op.result (word8 m.mem r.off)))),
          health := SMap.set .good m.health (healthKey r.off) .good }, false)

/-- Memory as a source sees it: its own posted requests come first (R311). -/
def Memory.seenBy (m : Memory) (src : Src) : Memory :=
  (m.memq.filter (fun r => r.src = src)).foldl (fun m r => (m.apply r).1) m

/-- The byte at an offset: expander memory that nothing has written has a free value (R502, DESIGN CHOICE, log 10). -/
def State.byteIn (s : State) (m : Memory) (off : Nat) : Byte :=
  match s.tier off with
  | .exp _ _ => if SMap.get false m.written off then SMap.get 0 m.mem off else Config.expanderByte s.freeCtr off
  | .ddr _ _ | .dir _ _ | .bank _ | .regs | .none => SMap.get 0 m.mem off

/-! ### Errors of a tier (R305, R307, R319) -/

/-- The DPA of an offset of this part. -/
def State.dpaOf (s : State) (off : Nat) : Nat := s.pos * 2 ^ 46 + off

/-- ORIGIN of a tier (Table 12.8). -/
def State.tierOrigin (s : State) (t : Tier) : Nat :=
  match t with
  | .ddr ch _ => originOf s.pos 3 ch
  | .dir d _ => originOf s.pos 3 (12 + d)
  | .bank e => originOf s.pos 1 e
  | .exp p _ => originOf s.pos 4 p
  | .regs | .none => originOf s.pos 3 t.target

/-- The placement epoch and Lap that an engine's requests carry (R43, R415). -/
def State.epochOf (s : State) (e : Nat) : Nat :=
  match (s.eng e).place with
  | some p => p.epoch
  | none => 0

/-- An error queue with one more error of a class (R173). -/
def addErr (q : List ErrEntry) (x : ErrEntry) : List ErrEntry :=
  if q.any (fun y => y.cls = x.cls) then
    q.map (fun y => if y.cls = x.cls then { y with count := Nat.min (y.count + x.count) (2 ^ 64 - 1) } else y)
  else q.filter (fun y => y.cls < x.cls) ++ [x] ++ q.filter (fun y => x.cls < y.cls)

/-- An error joins the queue that a Task keeps while none of its placements runs (R173). -/
def State.taskErr (s : State) (tti : Nat) (x : ErrEntry) : State :=
  { s with sta := { s.sta with
      tasks := SMap.upd Task.empty s.sta.tasks tti (fun t => { t with errq := addErr t.errq x }) } }

/-- An error enters the error queue of the placement that engine `e` runs (R173); one whose state is not loaded yet gets
it with its state. -/
def State.pushErr (s : State) (e cls : Nat) (addr : W64) : State :=
  match (s.eng e).place with
  | none => s
  | some p =>
    if p.restored then
      s.updEng e (fun x => { x with arch := { x.arch with errq := addErr x.arch.errq ⟨cls, addr, 1, s.tb⟩ } })
    else s.taskErr p.tti ⟨cls, addr, 1, s.tb⟩

/-- An error of the placement with an epoch of this part, which engine `e` ran: none is discarded while its Task is not
settled (R173, R174). -/
def State.errTo (s : State) (e epoch cls : Nat) (addr : W64) : State :=
  if s.epochOf e = epoch then s.pushErr e cls addr
  else
    match s.sta.tasks.find? (fun p => p.2.epoch = epoch && p.2.st ≠ .free && p.2.st ≠ .settled) with
    | some p => s.taskErr p.1 ⟨cls, addr, 1, s.tb⟩
    | none => s

/-- A corrected error at an offset (R305, R307, Table 9.15). A word already poisoned keeps its mark (R306); the error queue
takes the DPA of the corrected word (R173). -/
def State.ceEvent (s : State) (off : Nat) : State :=
  let t := s.tier off
  let mark := fun (s : State) =>
    if SMap.get Health.good s.m.health (healthKey off) = .good then
      { s with m := { s.m with health := SMap.set .good s.m.health (healthKey off) .corrected } }
    else s
  let s1 :=
    match t with
    | .ddr ch _ => s.add64 (Reg.ddrEccCe ch) 1
    | .dir d _ => (mark s).add64 (Reg.dirEccCe d) 1
    | .bank e => ((mark s).satInc (Reg.enBankCe e) 31 0).pushErr e 3 (BitVec.ofNat 64 (s.dpaOf (off / 8 * 8)))
    | .exp p _ => s.add64 (Reg.ddrEccCe (12 + p)) 1
    | .regs | .none => s
  s1.fault 0x01 (s.tierOrigin t) (s.dpaOf off) 0 0 0

/-- An uncorrectable or poisoned read is counted and recorded (R305, R319, Table 9.15). -/
def State.ueCount (s : State) (off : Nat) : State :=
  let t := s.tier off
  let s1 :=
    match t with
    | .ddr ch _ => s.add64 (Reg.ddrEccUe ch) 1
    | .dir d _ => s.add64 (Reg.dirEccUe d) 1
    | .bank e => s.satInc (Reg.enBankUe e) 31 0
    | .exp p _ => s.add64 (Reg.ddrEccUe (12 + p)) 1
    | .regs | .none => s
  s1.fault 0x02 (s.tierOrigin t) (s.dpaOf off) 0 0 0

/-- An uncorrectable word is marked poisoned in place; the part keeps no mark for an expander (R306). -/
def State.poisonWord (s : State) (off : Nat) : State :=
  match s.tier off with
  | .ddr _ _ | .dir _ _ | .bank _ =>
    { s with m := { s.m with health := SMap.set .good s.m.health (healthKey off) .poisoned } }
  | .exp _ _ | .regs | .none => s

/-- An uncorrectable or poisoned read at an offset (R305, R306): the word is marked in place, the read counted. -/
def State.ueEvent (s : State) (off : Nat) : State := (s.poisonWord off).ueCount off

/-- The channel or expander has failed (R300, R304). -/
def State.failed (s : State) (t : Tier) : Bool :=
  match t with
  | .ddr ch _ => s.bit (Reg.ddrStat ch) 2
  | .exp p _ => s.m.expFailed.getLsbD p
  | .dir _ _ | .bank _ | .regs | .none => false

/-- Bring a line to the front of a device's atomic line buffer of 16 lines (R292). -/
def State.bufferLine (s : State) (dev line : Nat) : State :=
  { s with m := { s.m with
      dirBuf := SMap.upd [] s.m.dirBuf dev (fun l => (line :: l.filter (fun x => x ≠ line)).take 16) } }

/-- The offset lies in a line that its device's atomic line buffer holds (R292). -/
def State.lineHeld (s : State) (off : Nat) : Bool :=
  match s.tier off with
  | .dir d l => (SMap.get [] s.m.dirBuf d).contains l
  | .ddr _ _ | .exp _ _ | .bank _ | .regs | .none => false

/-- An access to a line in the atomic line buffer makes it the most recently used (R292). -/
def State.touchLine (s : State) (off : Nat) : State :=
  match s.tier off with
  | .dir d l => if (SMap.get [] s.m.dirBuf d).contains l then s.bufferLine d l else s
  | .ddr _ _ | .exp _ _ | .bank _ | .regs | .none => s

/-- Take what a unit found in the read being made at an offset: the error, applied, and whether data is bad. A line in
the atomic line buffer is read without its device (R292). -/
def State.takeFound (s : State) (off : Nat) : State × Bool :=
  let u := unitOf (s.tier off) off
  let clear := fun (s : State) => { s with m := { s.m with found := SMap.set .clean s.m.found u .clean } }
  if s.lineHeld off then (s.touchLine off, false)
  else
    match SMap.get Upset.clean s.m.found u with
    | .clean => (s, false)
    | .corrected => ((clear s).ceEvent off, false)
    | .uncorrectable => ((clear s).ueEvent off, true)
    | .parity =>
      ((clear s).fault 0x07 (originOf s.pos 3 (s.tier off).target) (s.dpaOf off) 0 0 0, true)

/-- The first offsets of the 16-byte blocks (Home Bank) or of the words that a read of `n` bytes touches. -/
def touched (unit off n : Nat) : List Nat :=
  (List.range ((off + n - 1) / unit + 1 - off / unit)).map (fun i => Nat.max off ((off / unit + i) * unit))

/-- A read of `n` > 0 bytes by a source at an offset of this part (R26, R300, R305, R306). -/
def State.readLocal (s : State) (src : Src) (off n : Nat) : State × RdStat × List Byte :=
  if !(s.tier off).isMem || !(s.tier (off + n - 1)).isMem then (s, .unmapped, [])
  else
    let (s1, bad) := (touched 16 off n).foldl (fun (a : State × Bool) o =>
      let (t, b) := a.1.takeFound o
      (t, a.2 || b)) (s, false)
    let m := s1.m.seenBy src
    let marked := (touched 8 off n).filter (fun o => SMap.get Health.good m.health (healthKey o) = .poisoned)
    if bad then (s1, .poison, [])
    else if s1.failed (s1.tier off) then (s1.ueCount off, .poison, [])
    else
      match marked with
      | o :: _ => (s1.ueEvent o, .poison, [])
      | [] => (s1, .ok, (List.range n).map (fun i => s1.byteIn m (off + i)))

/-- Data of a host CXL.mem read go to the host, with the bytes of held writes held them (R398); a poisoned answer
counts (R481). Nothing goes out while the link is down. -/
def State.hostData (s : State) (dpa : Nat) (held : List (Nat × Byte)) (bs : Option (List Byte)) : State :=
  let full := bs.map (fun l => held.foldl (fun (l : List Byte) (c : Nat × Byte) => l.set (c.1 - dpa) c.2) l)
  let s1 := if s.bit Reg.hostStat 31 then s.emit (.memData dpa full) else s
  if bs.isNone then s1.add64 Reg.hostCntMemdrop 1 else s1

/-! ### Counts at the target (R43, R293) -/

/-- The count of a grant: one more where the grant has room (R43). -/
def State.countGrant (s : State) (k g : Nat) : State × Bool :=
  let used := SMap.get 0 s.m.charged k
  if g ≤ used then (s, false)
  else ({ s with m := { s.m with charged := SMap.set 0 s.m.charged k (used + 1) } }, true)

/-- A controller's count of booked requests from one part in the Lap: within ⌊5g / 4c⌋ (R293). -/
def State.countSpread (s : State) (k g c : Nat) : State × Bool :=
  let q := SMap.get 0 s.m.spread k + 1
  ({ s with m := { s.m with spread := SMap.set 0 s.m.spread k q } }, decide (q ≤ g * 5 / (4 * c)))

/-- A booked request of one unit from part `n` reaches its target: charged to the part's count. It is served as Open
beyond the grant, for a Lap that is neither current nor the one before it, and beyond the spread limit, where it is
counted (R43, R293). The requests of other parts to Home Banks draw on the BULK grant (R593). -/
def State.countTarget (s : State) (n off lap : Nat) (booked : Bool) : State × Bool :=
  let inLap := lap % 256 = s.lap % 256 || (lap + 1) % 256 = s.lap % 256
  if !booked || !inLap then (s, false)
  else
    match s.tier off with
    | .ddr ch _ =>
      let g := s.fld (Reg.staGiveBulk n) 23 0
      match s.countGrant (n * 2 + lap % 2) g with
      | (s1, false) => (s1, false)
      | (s1, true) =>
        match s1.countSpread (ch * 32 + n) g (setBits s.blk.ddrOk).length with
        | (s2, true) => (s2, true)
        | (s2, false) => (s2.satInc (Reg.ddrStat ch) 31 16, false)
    | .dir d _ =>
      let g := s.fld (Reg.staGiveDir n) 19 0
      match s.countGrant ((32 + n) * 2 + lap % 2) g with
      | (s1, false) => (s1, false)
      | (s1, true) =>
        match s1.countSpread ((12 + d) * 32 + n) g (setBits s.blk.qdrOk).length with
        | (s2, true) => (s2, true)
        | (s2, false) => (s2.satInc Reg.dirStat 31 0, false)
    | .exp _ _ => s.countGrant ((64 + n) * 2 + lap % 2) (s.fld (Reg.staGiveCxl n) 23 0)
    | .bank _ => if n = s.pos then (s, true) else s.countGrant (n * 2 + lap % 2) (s.fld (Reg.staGiveBulk n) 23 0)
    | .regs | .none => (s, true)

/-- Units of an offset: granules of bulk memory, 64-byte lines elsewhere (R593). -/
def unitLen (off : Nat) : Nat := if off < 0x100000000000 then 256 else 64

/-- Units that a request of `n` bytes touches (R593). -/
def unitsTouched (off n : Nat) : Nat := (off + n - 1) / unitLen off + 1 - off / unitLen off

/-- A booked read of `n` bytes from part `n` reaches its targets: each unit is counted, and it is booked if all are. -/
def State.countUnits (s : State) (part off n lap : Nat) (booked : Bool) : State × Bool :=
  (List.range (unitsTouched off n)).foldl (fun (a : State × Bool) i =>
    let o := Nat.max off ((off / unitLen off + i) * unitLen off)
    let (t, b) := a.1.countTarget part o lap booked
    (t, a.2 && b)) (s, booked)

/-! ### Posting writes and atomics -/

/-- The epoch fence of a source part holds the request (R416, HB7). -/
def State.fenced (s : State) (r : MemReq) : Bool :=
  match r.src with
  | .engine n _ => s.flt.fences.any (fun f => f.part = n && f.epoch = r.epoch)
  | .master _ _ => false

/-- The request bears a retired epoch, or a sweep of its part covers its Lap (R416, R417). -/
def State.retiredReq (s : State) (r : MemReq) : Bool :=
  match r.src with
  | .engine n _ =>
    s.flt.retired.any (fun f => f.part = n && f.epoch = r.epoch) ||
      (match s.flt.sweeps.find? (fun p => p.1 = n) with | some p => r.lap ≤ p.2 | none => false)
  | .master _ _ => false

/-- The part that a request comes from. -/
def Src.part : Src → Nat
  | .engine n _ => n
  | .master n _ => n

/-- A request arrives at its target: dropped and counted if its epoch is retired, else counted (R43, R293), and it waits
(R311, R416). -/
def State.postReq (s : State) (r : MemReq) : State :=
  if s.retiredReq r then s.add64 Reg.fltCntEpochdrop 1
  else
    let (s1, b) := s.countTarget r.src.part r.off r.lap r.booked
    { s1 with m := { s1.m with memq := s1.m.memq ++ [{ r with booked := b, tick := s.tb, seq := s1.m.arrivals }], arrivals := s1.m.arrivals + 1 } }

/-- Bytes in one unit of a write: a 16-byte block of a Home Bank (R287), a line, a granule (R297). -/
def unitBytes (t : Tier) : Nat :=
  match t with
  | .bank _ => 16
  | .ddr _ _ => 256
  | .dir _ _ | .exp _ _ | .regs | .none => 64

/-- Split cells in ascending order into runs that lie in one unit. -/
def splitCells (u : Nat) : List (Nat × Byte) → List (List (Nat × Byte))
  | [] => []
  | c :: t =>
    match splitCells u t with
    | (d :: r) :: rest => if c.1 / u = d.1 / u then (c :: d :: r) :: rest else [c] :: (d :: r) :: rest
    | other => [c] :: other

/-- The crossbar master by which a source of this part makes its requests (Table 1.2); the Steward's walks and the
saves of placements bear numbers of no master. -/
def Src.via : Src → Nat
  | .engine _ e => e / 16
  | .master _ id => id

/-- Post a write of cells, one request for each unit it touches: `r` gives all but the offset and the cells. -/
def State.postCells (s : State) (r : MemReq) (cs : List (Nat × Byte)) : State :=
  (splitCells (unitBytes (s.tier ((cs.map (fun c => c.1)).headD 0))) cs).foldl
    (fun s c => s.postReq { r with off := (c.map (fun x => x.1)).headD 0, op := .write c }) s

/-- A request of a source of this part, by its own crossbar master. -/
def Src.req (src : Src) (epoch off : Nat) (op : MemOp) (va : W64) (booked : Bool) (lap : Nat) : MemReq :=
  { src := src, epoch := epoch, off := off, op := op, va := va, booked := booked, lap := lap, ret := none, flit := 0,
    via := src.via, tick := 0, seq := 0, entry := false }

/-- Post a write of cells that a source of this part makes. -/
def State.postWrite (s : State) (src : Src) (epoch : Nat) (cs : List (Nat × Byte)) (va : W64) (booked : Bool)
    (lap : Nat) : State := s.postCells (src.req epoch 0 (.write []) va booked lap) cs

/-! ### Arbitration (R248, R288, R310 to R312) -/

/-- The place of a request in a sub-bank's rotation: engines 0 to 15 of the cluster, 16 the bank port (R288). -/
def State.bankSource (s : State) (bank : Nat) (src : Src) : Nat :=
  match src with
  | .engine n e => if n = s.pos && e / 16 = bank / 16 then e % 16 else 16
  | .master _ _ => 16

/-- The place of a request that lies in a Home Bank; 16 elsewhere. -/
def State.placeOf (s : State) (r : MemReq) : Nat :=
  match s.tier r.off with
  | .bank b => s.bankSource b r.src
  | .ddr _ _ | .dir _ _ | .exp _ _ | .regs | .none => 16

/-- The crossbar target of a request. -/
def State.targetOf (s : State) (r : MemReq) : Nat := (s.tier r.off).target

/-- The 8-byte words that a request changes. -/
def MemReq.words (r : MemReq) : List Nat :=
  match r.op with
  | .write cs => (cs.map (fun c => c.1 / 8)).eraseDups
  | .iadd _ | .fadd _ _ _ _ | .swap _ _ => [r.off / 8]

/-- The bank of a request sleeps: it is held at the cluster bank port until its cluster is in Noon (R20, HB4). -/
def State.asleepAt (s : State) (off : Nat) : Bool :=
  match s.tier off with
  | .bank b => s.fld (Reg.pwrClStat (b / 16)) 31 30 ≠ 0
  | .ddr _ _ | .dir _ _ | .exp _ _ | .regs | .none => false

/-- The window that the present tick lies in, one more than its number in the part's life; 0 outside a window (R298). -/
def State.windowNow (s : State) : Nat :=
  let t := s.tb % s.lapTicks
  if t % 1900 < 480 then s.lap * 64 + t / 1900 + 1 else 0

/-- A maintenance window of a usable channel is open: begun at this tick's window and not yet performed (R298). -/
def State.inWindow (s : State) (ch : Nat) : Bool :=
  s.windowUp && s.blk.ddrOk.getLsbD ch && s.windowNow ≠ 0 && SMap.get 0 s.m.window ch ≠ s.windowNow

/-- An access at an offset has to wait: its Home Bank sleeps, or its channel is in a maintenance window (R20, R298). -/
def State.heldAt (s : State) (off : Nat) : Bool :=
  match s.tier off with
  | .ddr ch _ => s.inWindow ch
  | .bank _ => s.asleepAt off
  | .dir _ _ | .exp _ _ | .regs | .none => false

/-- The requests that may be granted: for each source and target the earliest in the queue (HB1, R311), where no fence
holds it (HB7) and no earlier request that has reached the same bank changes one of its words (R248). -/
def State.heads (s : State) : List MemReq :=
  (s.m.memq.foldl (fun (a : List MemReq × List MemReq) r =>
    let behind := fun (b : MemReq) => decide (b.src = r.src ∧ s.targetOf b = s.targetOf r)
    let clash := fun (b : MemReq) =>
      decide (s.placeOf b < 16) && !s.fenced b && r.words.any (fun w => b.words.contains w)
    if s.fenced r || a.2.any (fun b => behind b || clash b) then (a.1, a.2 ++ [r])
    else (a.1 ++ [r], a.2 ++ [r])) ([], [])).1

/-- The requests waiting at the arbiter of crossbar target `t`: those of its masters, Open ones only while no booked one
waits (HB3), and none at the port of a sleeping cluster (HB4, R20). -/
def State.atPort (s : State) (t : Nat) : List MemReq :=
  let rs := s.heads.filter (fun r => s.targetOf r = t && s.placeOf r = 16 && !s.asleepAt r.off)
  if rs.any (fun r => r.booked) then rs.filter (fun r => r.booked) else rs

/-- Remove the first request equal to `r`. -/
def State.dropReq (s : State) (r : MemReq) : State := { s with m := { s.m with memq := s.m.memq.erase r } }

/-- Distance in a rotation of `n` from the place after the previous winner. -/
def rotDist (n last x : Nat) : Nat := (x + 2 * n - 1 - last) % n

/-- The first item with the least key. -/
def leastBy {α : Type} (key : α → Nat) : List α → Option α
  | [] => none
  | r :: t =>
    match leastBy key t with
    | none => some r
    | some q => if key q < key r then some q else some r

/-- A sub-bank grant lost by an engine of this part is counted (R288, R561). -/
def State.bankLoss (s : State) (src : Src) : State :=
  match src with
  | .engine n e => if n = s.pos && s.pmcOn then s.add64 (Reg.enPmcBankloss e) 1 else s
  | .master _ _ => s

/-- XBAR_PRIO of a master at a target (R314). -/
def State.prio (s : State) (m t : Nat) : Nat := s.fld (Reg.xbarPrio m (t / 8)) (4 * (t % 8) + 3) (4 * (t % 8))

/-- Lost arbitrations of a master at a target in a class (R310). -/
def lostKey (t m : Nat) (booked : Bool) : Nat := (t * 64 + m) * 2 + booked.toNat

/-- The key of a master's request at a target arbiter: booked first, then priority (15 after 64 losses in its class), then
rotation (R310). -/
def State.arbKey (s : State) (t m : Nat) (booked : Bool) : Nat :=
  let p := if 64 ≤ SMap.get 0 s.m.lost (lostKey t m booked) then 15 else s.prio m t
  (if booked then 0 else 1) * 1024 + (15 - p) * 64 + rotDist 42 (SMap.get 41 s.m.lastGrant (0x10000 + t)) m

/-- A target has granted master `m`: the other masters that waited in its class have lost, and a promoted winner counts in
AGED (R310, R315). `ws` lists master and class of all that waited. -/
def State.arbitrated (s : State) (t m : Nat) (booked : Bool) (ws : List (Nat × Bool)) : State :=
  let aged := 64 ≤ SMap.get 0 s.m.lost (lostKey t m booked)
  let losers := ((ws.filter (fun q => q.1 ≠ m ∧ q.2 = booked)).map (fun q => q.1)).eraseDups
  let lost := losers.foldl (fun l q => SMap.upd 0 l (lostKey t q booked) (· + 1))
    (SMap.set 0 s.m.lost (lostKey t m booked) 0)
  let s1 := { s with m := { s.m with lost := lost, lastGrant := SMap.set 41 s.m.lastGrant (0x10000 + t) m } }
  if aged then s1.satInc Reg.xbarStat 31 16 else s1

/-- The request that the arbiter of a crossbar target chooses among `ws` (R310). -/
def State.portChoice (s : State) (t : Nat) (ws : List MemReq) : Option MemReq :=
  leastBy (fun r => s.arbKey t r.via r.booked) ws

/-- The winner at a target other than a Home Bank (R310), and the state after the arbitration. -/
def State.xbarWinner (s : State) (t : Nat) : Option (MemReq × State) :=
  let ws := s.atPort t
  match s.portChoice t ws with
  | none => none
  | some r => some (r, s.arbitrated t r.via r.booked (ws.map (fun q => (q.via, q.booked))))

/-- What a sub-bank grants: the waiting part of an engine of the cluster, of the cluster bank port, or of the bank's
atomic unit, with its place in the rotation (R288). -/
structure Grant where
  place : Nat
  req : MemReq
deriving DecidableEq, Repr

/-- CCLK of the Lap in the present tick: the first, and the first of the next tick. -/
def State.cclkSpan (s : State) : Nat × Nat :=
  let t := s.tb % s.lapTicks
  let at_ := fun (k : Nat) => (k * s.cclk + s.lapTicks - 1) / s.lapTicks
  (at_ t, at_ (t + 1))

/-- In LEAD and TRAIL mode every fourth cycle of a sub-bank belongs to the cluster bank port, which takes no other
(R288, R401). A tick holds one or two cycles (DEDUCED, log 127). -/
def State.cycleFor (s : State) (outside : Bool) : Bool :=
  !s.actMode.mirrored ||
    (List.range (s.cclkSpan.2 - s.cclkSpan.1)).any (fun i => ((s.cclkSpan.1 + i) % 4 = 0) == outside)

/-- The parts waiting at a sub-bank. -/
def State.bankGrants (s : State) (bank sub : Nat) : List Grant :=
  let here := fun (r : MemReq) => s.tier r.off = .bank bank && r.off / 16 % 16 = sub
  let own := s.heads.filter (fun r => here r && s.placeOf r < 16 && s.cycleFor false)
  let port := (s.portChoice (16 + bank / 16) ((s.atPort (16 + bank / 16)).filter here)).toList.filter (fun _ => s.cycleFor true)
  (own ++ port).map (fun r => ⟨if r.op.isAtomic then 17 else s.placeOf r, r⟩)

/-- The sub-bank's grant (R288), and the state with the rotation moved on. -/
def State.bankWinner (s : State) (bank sub : Nat) : Option (Grant × State) :=
  let u := bank * 16 + sub
  let ws := s.bankGrants bank sub
  match leastBy (fun (g : Grant) => rotDist 18 (SMap.get 17 s.m.lastGrant u) g.place) ws with
  | none => none
  | some g =>
    let s1 := { s with m := { s.m with lastGrant := SMap.set 17 s.m.lastGrant u g.place } }
    let s2 := ws.foldl (fun s q => if q.req = g.req then s else s.bankLoss q.req.src) s1
    some (g, if s.placeOf g.req < 16 then s2
      else s2.arbitrated (16 + bank / 16) g.req.via g.req.booked
        ((s.atPort (16 + bank / 16)).map (fun q => (q.via, q.booked))))

/-! ### Reports to the issuer -/

/-- A write or atomic met poison: class POISON_WRITE to the placement that issued it, and at the Fault Collector (R173,
R305, Table 12.5); a host write that is not performed counts (R481). -/
def State.poisonReport (s : State) (r : MemReq) : State :=
  let s1 := s.fault 0x03 (s.tierOrigin (s.tier r.off)) (s.dpaOf r.off) r.epoch 0 0
  match r.src with
  | .master n 35 => if n = s.pos then s1.add64 Reg.hostCntMemdrop 1 else s1
  | .engine n e => if n = s.pos then s1.errTo e r.epoch 0 r.va else s1
  | .master _ _ => s1

/-- The short writes of R287 and all atomics read the word they change: what the code finds in that read. -/
def State.upsetWrite (s : State) (r : MemReq) (u : Upset) : State :=
  let rmw :=
    match r.op with
    | .write cs => (writeWords cs).any (fun w => !w.2)
    | .iadd _ | .fadd _ _ _ _ | .swap _ _ => true
  if !rmw then s
  else
    match u with
    | .clean | .parity => s
    | .corrected => s.ceEvent r.off
    | .uncorrectable => s.ueEvent r.off

/-! ### Requests to other parts (R345, R355, R366, R367) -/

/-- The base route to a part goes clockwise, by the East port (R345). -/
def State.clockwise (s : State) (dst : Nat) : Bool :=
  let d := (dst + s.ringSize - s.pos) % s.ringSize
  d < s.ringSize - d || (d = s.ringSize - d && s.pos % 2 = 0)

/-- The port on the present route to a part: 0 East, 1 West (R345, R379). -/
def State.routePort (s : State) (dst : Nat) : Nat :=
  if s.clockwise dst != SMap.get false s.ring.flipped dst then 0 else 1

/-- Put a flit on the route to its destination, or in the drain hold while its route is changing (R378, R380). -/
def State.sendFlit (s : State) (f : Flit) : State :=
  if s.ring.draining.contains f.dst.toNat then
    { s with ring := { s.ring with drainHeld := s.ring.drainHeld ++ [f] } }
  else s.toPort (s.routePort f.dst.toNat) f

/-- The component and its key in the budgets: 1 Home Bank, 2 bulk, 3 Directory, 4 CXL, 5 ring (Table 2.6, R593). Where
another part's bulk memory ends and its expanders begin is not known here: a free value (DESIGN CHOICE, log 19). -/
def State.compOf (s : State) (part off : Nat) : Nat :=
  if 0x280000000000 ≤ off then (if part = s.pos then 1 else 2)
  else if 0x200000000000 ≤ off then 3
  else if part ≠ s.pos then (if Config.farExpander part off then 4 else 2)
  else
    match s.tier off with
    | .exp _ _ => 4
    | .ddr _ _ | .dir _ _ | .bank _ | .regs | .none => 2

/-- Deduct from a part entry; none where the counter is exhausted or the part has no entry (R56, R57). -/
def PartBudget.take (b : PartBudget) (comp k : Nat) : Option PartBudget :=
  if !b.present then none
  else if comp = 2 then (if k ≤ b.bulk then some { b with bulk := b.bulk - k } else none)
  else if comp = 3 then (if k ≤ b.dir then some { b with dir := b.dir - k } else none)
  else if comp = 4 then (if k ≤ b.cxl then some { b with cxl := b.cxl - k } else none)
  else (if k ≤ b.ring then some { b with ring := b.ring - k } else none)

/-- A part entry with one counter exhausted. -/
def PartBudget.zero (b : PartBudget) (comp : Nat) : PartBudget :=
  if comp = 2 then { b with bulk := 0 }
  else if comp = 3 then { b with dir := 0 }
  else if comp = 4 then { b with cxl := 0 }
  else { b with ring := 0 }

/-- Deduct from budgets. -/
def Budget.take (b : Budget) (comp part k : Nat) : Option Budget :=
  if comp = 1 then (if k ≤ b.hb then some { b with hb := b.hb - k } else none)
  else
    match (SMap.get PartBudget.none b.parts part).take comp k with
    | some x => some { b with parts := SMap.set PartBudget.none b.parts part x }
    | none => none

/-- The budgets with one counter exhausted. -/
def Budget.exhaust (b : Budget) (comp part : Nat) : Budget :=
  if comp = 1 then { b with hb := 0 }
  else { b with parts := SMap.upd PartBudget.none b.parts part (fun x => x.zero comp) }

/-- Set an OVR bit of a Task (R57). -/
def State.setOvr (s : State) (tti bit : Nat) : State :=
  { s with
    sta := { s.sta with
      tasks := SMap.upd Task.empty s.sta.tasks tti (fun t => { t with ovr := t.ovr ||| (1#6 <<< bit) }) } }

/-- A placement's request draws on its budget; false says that the request goes as Open (R56, R57, R60). -/
def State.spend (s : State) (e comp part k : Nat) : State × Bool :=
  match (s.eng e).place with
  | none => (s, false)
  | some p =>
    if p.isOpen then (s, false)
    else
      match p.budget.take comp part k with
      | some b => (s.updEng e (fun x => { x with place := some { p with budget := b } }), true)
      | none =>
        ((s.updEng e (fun x => { x with place := some { p with budget := p.budget.exhaust comp part } })).setOvr
          p.tti comp, false)

/-- An engine sends one packet to another part: one packet to a flit (DEDUCED, log 21), charged one ring flit (R373). -/
def State.sendPacket (s : State) (e part ty : Nat) (ws : List W64) (booked : Bool) : State :=
  let (s1, ringOk) := s.spend e 5 part 1
  let cls := if booked && ringOk then 0 else 1
  s1.sendFlit (s1.mkFlit 1 part 0 cls e (pktBody (s1.epochOf e) ty ws))

/-- A write or atomic to another part is outstanding until it is acknowledged as performed (R371, R382). A replay, which
meets no acknowledgement (Table 17.1), waits for none (DEDUCED, log 41). -/
def State.noteRemote (s : State) (part e : Nat) (va : W64) (vc : Nat) (entry : Bool) : State :=
  if s.actMode = .replay then s
  else
    { s with ring := { s.ring with
        remote := s.ring.remote ++ [⟨part, e, s.epochOf e, va, vc, false, 0, s.lap, false, entry⟩] } }

/-- The 8-byte words that bytes at an address touch: aligned address, byte enables, data (R405). -/
def wordsOf (a : Nat) (bs : List Byte) : List (Nat × Nat × Nat) :=
  (touched 8 a bs.length).map (fun o =>
    let w := o / 8 * 8
    (List.range 8).foldl (fun (x : Nat × Nat × Nat) i =>
      if a ≤ w + i ∧ w + i < a + bs.length then
        (x.1, x.2.1 + 2 ^ i, x.2.2 + (bs.getD (w + i - a) 0).toNat * 2 ^ (8 * i))
      else x) (w, 0, 0))

/-- A record enters the engine's digests (R405, R406): kind 0 write, 1 integer add, 2 F64 add, 3 swap, 4 save. -/
def State.digestRec (s : State) (e kind dpa be data : Nat) : State :=
  let r := leBytes 8 (be * 2 ^ 56 + kind * 2 ^ 52 + dpa / 8 * 8) ++ leBytes 8 data
  s.updEng e (fun x => { x with digest := crc64More x.digest r, tend := if kind = 4 then x.tend else crc64More x.tend r })

/-- An engine's write of bytes at an offset of a part leaves the engine: digest, then its target (R311, R405); `entry`
marks a write of an exception entry. -/
def State.issueAt (s : State) (e part off : Nat) (ws : List (Nat × Nat × Nat)) (bs : List Byte) (va : W64)
    (booked entry : Bool) : State :=
  let s1 := ws.foldl (fun s w => s.digestRec e 0 w.1 w.2.1 w.2.2) s
  if part = s.pos then
    s1.postCells { (Src.engine s.pos e).req (s1.epochOf e) 0 (.write []) va booked s1.lap with entry := entry } (cellsAt off bs)
  else
    ws.foldl (fun s w =>
      (s.sendPacket e part 2 [BitVec.ofNat 64 (w.2.1 * 2 ^ 52 + w.1), BitVec.ofNat 64 w.2.2] booked).noteRemote
        part e va 0 entry) s1

/-- An engine's write of bytes at a DPA of the Domain, its part and its offset there taken from the DPA (R23). -/
def State.issueWriteAs (s : State) (e dpa : Nat) (bs : List Byte) (va : W64) (booked entry : Bool) : State :=
  s.issueAt e (dpa / 2 ^ 46) (dpa % 2 ^ 46) (wordsOf dpa bs) bs va booked entry

/-- An engine's write of bytes at a DPA of the Domain leaves the engine. -/
def State.issueWrite (s : State) (e dpa : Nat) (bs : List Byte) (va : W64) (booked : Bool) : State :=
  s.issueWriteAs e dpa bs va booked false

/-- An engine's write of bytes is charged to its placement and issued (R56, R593). -/
def State.engineWrite (s : State) (e dpa : Nat) (bs : List Byte) (va : W64) : State :=
  let part := dpa / 2 ^ 46
  let off := dpa % 2 ^ 46
  let (s1, booked) := s.spend e (s.compOf part off) part (unitsTouched off bs.length)
  s1.issueWrite e dpa bs va booked

/-- Write an element of ROPD: its pieces, charged to the placement that the engine runs where the swap is its own
(R245, R246). -/
def State.ropdWrite (s : State) (e : Nat) (q : SwapOut) (v : W64) : State :=
  (q.pieces.foldl (fun (a : State × List Byte) p =>
    let bs := a.2.take p.2
    (if s.epochOf e = q.epoch then a.1.engineWrite e p.1 bs q.va else a.1.issueWrite e p.1 bs q.va false, a.2.drop p.2))
    (s, leBytes 8 v.toNat)).1

/-- Old values go to ROPD in input order, as far as the swaps have ended (R245). -/
def State.drainSwaps (s : State) (e : Nat) : List SwapOut → State
  | [] => s.updEng e (fun x => { x with swaps := [] })
  | q :: t =>
    match q.old with
    | none => s.updEng e (fun x => { x with swaps := q :: t })
    | some none => s.drainSwaps e t
    | some (some v) => (s.ropdWrite e q v).drainSwaps e t

/-- A numbered swap of an engine has ended, with its old value where it was performed. -/
def State.swapEnds (s : State) (e id : Nat) (old : Option W64) : State :=
  s.drainSwaps e ((s.eng e).swaps.map (fun q => if q.id = id then { q with old := some old } else q))

/-- A request has ended without being performed: a swap among them gives no old value. -/
def State.swapLost (s : State) (r : MemReq) : State :=
  match r.src, r.op with
  | .engine n e, .swap _ (some id) => if n = s.pos then s.swapEnds e id none else s
  | _, _ => s

/-- During a rejoin every write performed here goes to the partner held COPY too (R403, R425): one WR packet of the
Mover for each word. -/
def State.copyOut (s : State) (offs : List Nat) : State :=
  if !(match s.pair.rejoinLap with | some c => decide (s.lap < c) | none => false) then s
  else
    ((offs.map (fun o => o / 8)).eraseDups).foldl (fun s k =>
      let be := (offs.filter (fun o => o / 8 = k)).foldl (fun b o => b + 2 ^ (o % 8)) 0
      s.inject 2 (s.mkFlit 1 s.pos 2 1 513 (pktBody 0 2
        [BitVec.ofNat 64 (be * 2 ^ 52 + s.dpaOf (8 * k)), BitVec.ofNat 64 (ofLe ((List.range 8).map (fun i => s.byteIn s.m (8 * k + i))))]))) s

/-- The offsets a request writes. -/
def MemReq.offs (r : MemReq) : List Nat :=
  match r.op with
  | .write cs => cs.map (fun c => c.1)
  | .iadd _ | .fadd _ _ _ _ | .swap _ _ => (List.range 8).map (fun i => r.off + i)

/-- The source number of a master whose writes the Record Unit records (Table 17.1). -/
def memwrSource (id : Nat) : Option Nat :=
  match id with
  | 35 => some 0 | 41 => some 1 | 39 => some 2 | 38 => some 3
  | _ => none

/-- MEMWR entries of a write that these masters of this part make, one for each 64-byte line (Table 17.1). -/
def State.logWrites (s : State) (r : MemReq) : State :=
  match r.src, r.op with
  | .master n id, .write cs =>
    match memwrSource id with
    | none => s
    | some k =>
      if n ≠ s.pos then s
      else
        ((cs.map (fun c => c.1 / 64)).eraseDups).foldl (fun s l =>
          let mine := cs.filter (fun c => c.1 / 64 = l)
          let be := mine.foldl (fun b c => b + 2 ^ (c.1 % 64)) 0
          let d := mine.foldl (fun b c => b + c.2.toNat * 2 ^ (8 * (c.1 % 64))) 0
          s.log 0x03 k (BitVec.ofNat 64 (s.dpaOf (64 * l)))
            ([BitVec.ofNat 64 be, 0] ++ (List.range 8).map (fun i => BitVec.ofNat 64 (d / 2 ^ (64 * i))))) s
  | _, _ => s

/-- A request that its target has granted is performed (R300, R305, R306, R416): removed from the queue, discarded at
a failed target, else applied. A swap's old value goes to its ROPD element (R245). -/
def State.performReq (s : State) (r : MemReq) (u : Upset) : State :=
  let s0 := s.dropReq r
  if u = .parity then
    let s1 := s0.fault 0x07 (originOf s.pos 3 (s.tier r.off).target) (s.dpaOf r.off) r.epoch 0 0
    (if r.src = .master s.pos 35 then s1.add64 Reg.hostCntMemdrop 1 else s1).swapLost r
  else if s0.failed (s0.tier r.off) then (s0.poisonReport r).swapLost r
  else
    let s1 := s0.upsetWrite r u
    let old := word8 s1.m.mem r.off
    let (m, bad) := s1.m.apply r
    if bad then (s1.poisonReport r).swapLost r
    else
      let s2 := (({ s1 with m := m } : State).copyOut r.offs).logWrites r
      match r.src, r.op with
      | .engine n e, .swap _ (some id) => if n = s.pos then s2.swapEnds e id (some (BitVec.ofNat 64 old)) else s2
      | _, _ => s2

/-! ### Responses to other parts (R362, R368) -/

/-- Bytes cut into runs of 256; `fuel` bounds their number. -/
def runs256 (bs : List Byte) : Nat → List (List Byte)
  | 0 => []
  | fuel + 1 => if bs.isEmpty then [] else bs.take 256 :: runs256 (bs.drop 256) fuel

/-- The 32 words of a body that bytes fill from its start. -/
def bodyOf (bs : List Byte) : List W64 :=
  (List.range 32).map (fun i => BitVec.ofNat 64 (ofLe ((bs.drop (8 * i)).take 8)))

/-- Response bytes to requester `reqr` of part `part` (R362, R368): DATA flits on RSP with the request's class and
LAPTAG, beyond the requester's grant with class Open. -/
def State.respond (s : State) (part reqr cls laptag sts : Nat) (bs : List Byte) : State :=
  (runs256 bs 64).foldl (fun s r =>
    let k := part * 256 + laptag % 256
    let n := SMap.get 0 s.ring.rspLap k
    let s1 := { s with ring := { s.ring with rspLap := SMap.set 0 s.ring.rspLap k (n + 1) } }
    let c := if cls = 0 ∧ s.fld (Reg.staGiveRing part) 15 0 ≤ n then 1 else cls
    s1.sendFlit { s1.mkFlit 2 part 1 c reqr (bodyOf r) with
      laptag := BitVec.ofNat 8 laptag, dlen := BitVec.ofNat 8 (r.length - 1), sts := BitVec.ofNat 2 sts }) s

/-- The responses at the head of a stream that are ready, and those after them. -/
def readyAnswers (part reqr : Nat) (l : List Answer) : List Answer :=
  (l.filter (fun a => a.part = part && a.reqr = reqr)).takeWhile (fun a => a.ready.isSome)

/-- Responses packed together: runs of one class, LAPTAG and status 0; others each of their own (R368). -/
def packAnswers : List Answer → List (Nat × Nat × Nat × List Byte)
  | [] => []
  | a :: t =>
    let x := a.ready.getD (0, [])
    match packAnswers t with
    | (c, l, 0, bs) :: r => if x.1 = 0 ∧ c = a.cls ∧ l = a.laptag then (c, l, 0, x.2 ++ bs) :: r
                            else (a.cls, a.laptag, x.1, x.2) :: (c, l, 0, bs) :: r
    | r => (a.cls, a.laptag, x.1, x.2) :: r

/-- The ready responses at the head of a requester's stream leave (R368). -/
def State.sendAnswers (s : State) (part reqr : Nat) : State :=
  let go := readyAnswers part reqr s.ring.answers
  let ids := go.map (fun a => a.id)
  let s1 := { s with ring := { s.ring with answers := s.ring.answers.filter (fun a => !ids.contains a.id) } }
  (packAnswers go).foldl (fun s g => s.respond part reqr g.1 g.2.1 g.2.2.1 g.2.2.2) s1

/-- A slot for a response of this part (R368). -/
def State.openAnswer (s : State) (a : Answer) : State :=
  { s with ring := { s.ring with
      answers := s.ring.answers ++ [{ a with id := s.ring.answerCtr }], answerCtr := s.ring.answerCtr + 1 } }

/-- The response in a slot is ready: it leaves once those before it in its stream have left (R368). -/
def State.answer (s : State) (id sts : Nat) (bs : List Byte) : State :=
  match s.ring.answers.find? (fun a => a.id = id) with
  | none => s
  | some a =>
    ({ s with ring := { s.ring with
        answers := s.ring.answers.map (fun x => if x.id = id then { x with ready := some (sts, bs) } else x) } } : State).sendAnswers
      a.part a.reqr

/-- The old value goes back to the issuer of a returning atomic of another part (R367, R368): `sts` 1 is poison. -/
def State.returnOld (s : State) (r : MemReq) (sts : Nat) : State :=
  match r.ret with
  | some id => s.answer id sts (leBytes 8 (if sts = 0 then word8 s.m.mem r.off else 0))
  | none => s

/-- A request is dropped without being performed: a response that waits for it is poisoned (DESIGN CHOICE, log 144). -/
def State.loseReq (s : State) (r : MemReq) : State := (s.returnOld r 1).swapLost r

end Sys2Proof.Machine
end

