-- ==== Sys2Proof/Machine/Xlate.lean ====
section
/-!
DEFINITION. Address translation (spec/10_translation.md, R320 to R344): TLB lookup and fill, the walk, permissions and
protection keys.
-/
namespace Sys2Proof.Machine

/-- What an access does. -/
inductive Acc where
  | read | write | fetch
deriving DecidableEq, Repr

/-- A lookup of a virtual address hits the slot (R332). -/
def Slot.hits (x : Slot) (va : Nat) (ctx : BitVec 16) : Bool :=
  x.vbase ≤ va && va < x.vbase + 2 ^ x.log2 && (x.g || x.ctx = ctx)

/-- The better of two hitting slots: the smaller, then the more recently filled (R332). -/
def Slot.better (x y : Slot) : Slot :=
  if x.log2 < y.log2 then x
  else if y.log2 < x.log2 then y
  else if y.seq ≤ x.seq then x else y

/-- The slot that a lookup uses among slots. -/
def bestSlot : List Slot → Option Slot
  | [] => none
  | x :: t => match bestSlot t with | none => some x | some y => some (x.better y)

/-- Move a slot to the front of its TLB, the place of the most recently used. -/
def touchSlot (l : List Slot) (x : Slot) : List Slot := x :: l.erase x

/-- Put a slot in front, dropping the least recently used beyond `n`. -/
def addSlot (n : Nat) (l : List Slot) (x : Slot) : List Slot := (x :: l).take n

/-- The second-level set of a slot (R331). -/
def setOf (log2 va : Nat) : Nat := va / 2 ^ log2 % 256

/-- The second-level slots that a lookup probes: all four sizes at once (R331). -/
def l2Hits (x : Engine) (va : Nat) : List Slot :=
  [16, 21, 29, 34].flatMap (fun k =>
    (SMap.get [] x.l2 (setOf k va)).filter (fun y => y.log2 = k && y.hits va x.arch.ctxid))

/-- The first-level TLB of a requester. -/
def Engine.l1 (x : Engine) (f : Bool) : List Slot := if f then x.itlb else x.dtlb

/-- Replace a first-level TLB. -/
def Engine.setL1 (x : Engine) (f : Bool) (l : List Slot) : Engine := if f then { x with itlb := l } else { x with dtlb := l }

/-- Slots of a first-level TLB (Table 10.5). -/
def l1Size (f : Bool) : Nat := if f then 32 else 64

/-- A lookup in an engine's TLBs: the slot and the engine with its use noted (R331). -/
def Engine.lookup (x : Engine) (f : Bool) (va : Nat) : Option (Slot × Engine) :=
  match bestSlot ((x.l1 f).filter (fun y => y.hits va x.arch.ctxid)) with
  | some y => some (y, x.setL1 f (touchSlot (x.l1 f) y))
  | none =>
    match bestSlot (l2Hits x va) with
    | some y =>
      let k := setOf y.log2 va
      let x1 := { x with l2 := SMap.upd [] x.l2 k (fun l => touchSlot l y) }
      some (y, x1.setL1 f (addSlot (l1Size f) (x1.l1 f) y))
    | none => none

/-- A table entry is malformed (R323). -/
def badEntry (lvl e : Nat) : Bool :=
  bitsOf e 55 52 ≠ 0 || bitsOf e 15 11 ≠ 0 || (bitsOf e 1 1 = 1 && lvl = 1) || (bitsOf e 1 1 = 0 && lvl = 3) ||
    (bitsOf e 1 1 = 0 && bitsOf e 10 2 ≠ 0) || (bitsOf e 1 1 = 1 && lvl = 2 && bitsOf e 28 16 ≠ 0)

/-- The slot that a leaf fills under a CTXID, and whether its contiguity hint failed (R331, R334). -/
def leafSlot (fills : Nat) (ctx : BitVec 16) (va lvl e : Nat) : Slot × Bool :=
  let base := if lvl = 3 then 16 else 29
  let hinted := bitsOf e 5 5 = 1
  let ok := bitsOf e (base + 4) base = va / 2 ^ base % 32
  let log2 := if hinted && ok then base + 5 else base
  ({ vbase := va / 2 ^ log2 * 2 ^ log2, log2 := log2, ctx := ctx, g := bitsOf e 6 6 = 1,
     w := bitsOf e 2 2 = 1, x := bitsOf e 3 3 = 1, u := bitsOf e 4 4 = 1, key := BitVec.ofNat 4 (bitsOf e 10 7),
     oa := bitsOf e 51 16 * 2 ^ 16 / 2 ^ log2 * 2 ^ log2, seq := fills }, hinted && !ok)

/-- A slot enters the second-level TLB and its requester's TLB (R331). -/
def Engine.fill (x : Engine) (f : Bool) (y : Slot) : Engine :=
  let x1 := { x with l2 := SMap.upd [] x.l2 (setOf y.log2 y.vbase) (fun l => addSlot 8 l y), fills := x.fills + 1 }
  x1.setL1 f (addSlot (l1Size f) (x1.l1 f) y)

/-- How a walk stands: ended with a slot or with a code of Table 10.3, or waiting for an entry. -/
inductive WalkEnd where
  | slot (x : Slot)
  | fault (code : Nat)
  | waits (w : Walk)
deriving DecidableEq, Repr

/-- A part's DPAs are in the Domain and not lost (R25, R382). -/
def State.partUp (s : State) (n : Nat) : Bool :=
  s.inDomain n && !s.bit Reg.ringLost (n % 32) && (s.actMode ≠ .replay || n = s.pos || s.bit Reg.recCfg 1)

/-- The offset lies in the register window (Table 1.3). -/
def inRegs (off : Nat) : Bool := 0x3F0000000000 ≤ off && off < 0x3F0040000000

/-- The source that a walk reads as: it sees no posted store (R327). -/
def State.walkSrc (s : State) : Src := .master s.pos 63

/-- SIZE code of a read of `n` bytes, and its bytes (Table 11.8). -/
def rdSize (n : Nat) : Nat × Nat := if n ≤ 8 then (0, 8) else if n ≤ 64 then (1, 64) else (2, 256)

/-- A read request of engine `e` to another part (R367): RD of the aligned block that holds `n` bytes at a DPA, and the
answer awaited. -/
def State.sendRead (s : State) (e dpa n : Nat) (w : ReqFor) (booked : Bool) : State :=
  let part := dpa / 2 ^ 46
  let (code, sz) := rdSize n
  let base := dpa / sz * sz
  let s1 := s.sendPacket e part 1 [BitVec.ofNat 64 (code * 2 ^ 52 + base), 0] booked
  { s1 with ring := { s1.ring with reqs := s1.ring.reqs ++ [⟨part, e, base, sz, w, none, false, s.lap, false⟩] } }

/-- An engine's read goes to an expander's queue (R304). -/
def State.askExp (s : State) (e port dpa n : Nat) (w : ReqFor) (booked : Bool) : State :=
  let src : Src := if e = steward then .master s.pos 39 else .engine s.pos e
  let tti := match (s.eng e).place with | some p => some p.tti | none => none
  let (s1, b) := s.countUnits s.pos (dpa % 2 ^ 46) n s.lap booked
  { s1 with m := { s1.m with
      expq := s1.m.expq ++ [⟨port, src, tti, s.lap, dpa, n, w, none, b, src.via, s.tb, s1.m.arrivals⟩]
      arrivals := s1.m.arrivals + 1 } }

/-- A read of a master of this part waits in a queue: an expander's, or at port 2 that of reads held back (R20, R298). It is
Open. -/
def State.queueRead (s : State) (port id dpa n : Nat) (w : ReqFor) : State :=
  { s with m := { s.m with
      expq := s.m.expq ++ [⟨port, .master s.pos id, none, s.lap, dpa, n, w, none, false, id, s.tb, s.m.arrivals⟩]
      arrivals := s.m.arrivals + 1 } }

/-- The expander port of a DPA of this part. -/
def State.expPort (s : State) (dpa : Nat) : Option Nat :=
  if dpa / 2 ^ 46 ≠ s.pos then none
  else
    match s.tier (dpa % 2 ^ 46) with
    | .exp p _ => some p
    | .ddr _ _ | .dir _ _ | .bank _ | .regs | .none => none

/-- A DPA in a Home Bank of the engine's own cluster, read through the cluster switch (R191). -/
def State.ownCluster (s : State) (e dpa : Nat) : Bool :=
  dpa / 2 ^ 46 = s.pos &&
    (match s.tier (dpa % 2 ^ 46) with
     | .bank b => b / 16 = e / 16
     | .ddr _ _ | .dir _ _ | .exp _ _ | .regs | .none => false)

/-- Charge one request of `n` bytes at a DPA to the placement of an engine (R56, R593); it is booked if that succeeds. The
Steward's are Open. -/
def State.payFor (s : State) (e dpa n : Nat) : State × Bool :=
  if e = steward then (s, false)
  else s.spend e (s.compOf (dpa / 2 ^ 46) (dpa % 2 ^ 46)) (dpa / 2 ^ 46) (unitsTouched (dpa % 2 ^ 46) n)

/-- A read of this part's memory by an engine, counted at its target (R43, R293). -/
def State.readCounted (s : State) (src : Src) (off n : Nat) (booked : Bool) : State × RdStat × List Byte :=
  (s.countUnits s.pos off n s.lap booked).1.readLocal src off n

/-- Keep data for a step of an engine. -/
def State.keepGot (s : State) (e : Nat) (g : Got) : State := s.updEng e (fun x => { x with got := x.got ++ [g] })

/-- A step has used the data of requester `who`. -/
def State.dropGot (s : State) (e who : Nat) : State :=
  s.updEng e (fun x => { x with got := x.got.filter (fun g => g.who ≠ who) })

/-- An engine awaits the data of a read of a step. -/
def State.awaits (s : State) (e who dpa n : Nat) : Bool :=
  s.ring.reqs.any (fun q => q.reqr = e && q.what = .step who dpa n) ||
    s.m.expq.any (fun q => q.src = .engine s.pos e && q.what = .step who dpa n)

/-- A read of `n` bytes at a DPA that is part of a longer step of engine `e`: the data, once they are here. The first
attempt makes the request, charged where `pay` says so; while they are not here the step waits. -/
def State.readFor (s : State) (e who : Nat) (src : Src) (pay : Bool) (dpa n : Nat) :
    State × Option (RdStat × List Byte) :=
  match (s.eng e).got.find? (fun g => g.who = who && g.dpa = dpa && g.n = n) with
  | some g => (s, some (g.st, g.bytes))
  | none =>
    if !s.partUp (dpa / 2 ^ 46) then (s, some (.unmapped, []))
    else if s.awaits e who dpa n then (s, none)
    else if dpa / 2 ^ 46 = s.pos && s.heldAt (dpa % 2 ^ 46) then (s, none)
    else
      let (s1, booked) := if pay then s.payFor e dpa n else (s, false)
      if dpa / 2 ^ 46 ≠ s.pos then (s1.sendRead e dpa n (.step who dpa n) booked, none)
      else
        match s.expPort dpa with
        | some port => (s1.askExp e port dpa n (.step who dpa n) booked, none)
        | none =>
          let (s2, st, bs) := s1.readCounted src (dpa % 2 ^ 46) n booked
          (s2.keepGot e ⟨who, dpa, n, st, bs⟩, some (st, bs))

/-- Where an entry's address cannot be read at all (R324). -/
def State.entryBad (s : State) (ea lvl : Nat) : Option Nat :=
  if inRegs (ea % 2 ^ 46) then some (0x0100 + lvl)
  else if !s.partUp (ea / 2 ^ 46) then some (0x0110 + lvl)
  else if ea / 2 ^ 46 = s.pos ∧ !(s.tier (ea % 2 ^ 46)).isMem then some (0x0110 + lvl)
  else none

/-- The walk's loop over the levels left, by walker `k` (R324). -/
def State.walkFrom (s : State) (e k : Nat) (w : Walk) : Nat → State × WalkEnd
  | 0 => (s, .fault 0x0013)
  | fuel + 1 =>
    let ea := w.ta + 8 * (w.va / 2 ^ (42 - 13 * (w.lvl - 1)) % 2 ^ 13)
    match s.entryBad ea w.lvl with
    | some c => (s, .fault c)
    | none =>
      match s.readFor e k s.walkSrc true ea 8 with
      | (s1, none) => (s1, .waits w)
      | (s1, some (.unmapped, _)) => (s1.dropGot e k, .fault (0x0110 + w.lvl))
      | (s1, some (.poison, _)) => (s1.dropGot e k, .fault (0x0120 + w.lvl))
      | (s1, some (.ok, bs)) =>
        let s2 := s1.dropGot e k
        let v := ofLe bs
        if bitsOf v 0 0 = 0 then (s2, .fault (0x0010 + w.lvl))
        else if badEntry w.lvl v then (s2, .fault (0x0020 + w.lvl))
        else if bitsOf v 1 1 = 1 then
          let (y, hb) := leafSlot (s2.eng e).fills w.ctx w.va w.lvl v
          (if hb then s2.satInc (Reg.enXlateStat e) 23 16 else s2, .slot y)
        else s2.walkFrom e k { w with ta := bitsOf v 51 16 * 2 ^ 16, lvl := w.lvl + 1 } fuel

/-- What walker `k` of an engine holds. -/
def State.walk (s : State) (e k : Nat) : Option Walk := SMap.get none (s.eng e).walks k

/-- Set what walker `k` of an engine holds. -/
def State.setWalk (s : State) (e k : Nat) (w : Option Walk) : State :=
  s.updEng e (fun x => { x with walks := SMap.set none x.walks k w })

/-- A walk goes on as far as it can: it fills the TLBs, ends in a fault that fills nothing, or waits (R324, R327). -/
def State.runWalk (s : State) (e k : Nat) (w : Walk) : State × WalkEnd :=
  match s.walkFrom e k w (4 - w.lvl) with
  | (s1, .slot y) => ((s1.updEng e (fun x => x.fill (k = 0) y)).setWalk e k none, .slot y)
  | (s1, .fault c) => (s1.setWalk e k none, .fault c)
  | (s1, .waits w') => (s1.setWalk e k (some w'), .waits w')

/-- A walk begins (R324, R561), or ends at once where there is no table. -/
def State.beginWalk (s : State) (e k : Nat) (ctx : BitVec 16) (ttb : W64) (va : Nat) : State × WalkEnd :=
  let s1 := if s.pmcOn then s.add64 (Reg.enPmcTlbmiss e) 1 else s
  if bitsOf ttb.toNat 0 0 = 0 then (s1, .fault 0x0010)
  else s1.runWalk e k ⟨va, ctx, ttb, 1, bitsOf ttb.toNat 51 16 * 2 ^ 16, none⟩

/-- The walk of a request by walker `k`: a walk for the same page under the same tables goes on, another one keeps the
walker busy (R326), and a fault that such a walk has ended in is taken. -/
def State.doWalk (s : State) (e k : Nat) (ctx : BitVec 16) (ttb : W64) (va : Nat) : State × WalkEnd :=
  match s.walk e k with
  | none => s.beginWalk e k ctx ttb va
  | some w =>
    if w.va / 2 ^ 16 = va / 2 ^ 16 ∧ w.ctx = ctx ∧ w.ttb = ttb then
      match w.fault with
      | some c => (s.setWalk e k none, .fault c)
      | none => s.runWalk e k w
    else
      match w.fault with
      | some _ => (s.setWalk e k none).beginWalk e k ctx ttb va
      | none => (s, .waits w)

/-- Checks of a slot: the vector and detail of the exception, if any (R328, R329). `user` and `pkr` are those in force
for the request; PKR guards data accesses of User privilege only. -/
def Slot.check (y : Slot) (a : Acc) (atomic user : Bool) (pkr : BitVec 32) : Option (Nat × Nat) :=
  let xl := if a = .fetch then 0x01 else 0x08
  if user && !y.u then some (xl, 0x0030)
  else if a = .write && !y.w then some (xl, 0x0031)
  else if a = .fetch && !y.x then some (xl, 0x0032)
  else if user && a ≠ .fetch then
    let k := y.key.toNat
    let rd := pkr.getLsbD (2 * k)
    let wd := pkr.getLsbD (2 * k + 1)
    if ((a = .read || atomic) && rd) || (a = .write && wd) then some (0x09, k) else none
  else none

/-- Where a translation leads: a DPA, or an exception's vector and detail; `waits` while its walk has not ended. -/
inductive Xl where
  | dpa (d : Nat)
  | trap (vec detail : Nat)
  | waits
deriving DecidableEq, Repr

/-- Translate one virtual address for the requester of walker `k` of engine `e` (R321 to R334): 0 fetch, 1 the scalar
port, 2 and 3 the load-stream ports, 4 the store-stream port (R326). A Walk Fault raised is counted (R325). -/
def State.translate (s : State) (e k : Nat) (a : Acc) (atomic user : Bool) (pkr : BitVec 32) (va : Nat) : State × Xl :=
  let f : Bool := k = 0
  let finish := fun (s : State) (y : Slot) =>
    match y.check a atomic user pkr with
    | some t => (s, Xl.trap t.1 t.2)
    | none => (s, Xl.dpa (y.oa + (va - y.vbase)))
  if 2 ^ 55 ≤ va then (s, .trap (if f then 0x01 else 0x08) 0x0001)
  else
    match (s.eng e).lookup f va with
    | some (y, x) => finish (s.setEng e x) y
    | none =>
      match s.doWalk e k (s.eng e).arch.ctxid (s.eng e).arch.ttb va with
      | (s1, .slot y) => finish s1 y
      | (s1, .fault c) =>
        (if 0x100 ≤ c then s1.satInc (Reg.enXlateStat e) 15 0 else s1, .trap (if f then 0x01 else 0x08) c)
      | (s1, .waits _) => (s1, .waits)

/-- An entry has arrived for walker `k`: the walk goes on, and a fault that it ends in stays for its requester. -/
def State.goOnWalk (s : State) (e k : Nat) : State :=
  match s.walk e k with
  | none => s
  | some w =>
    if w.fault.isSome then s
    else
      match s.runWalk e k w with
      | (s1, .fault c) => s1.setWalk e k (some { w with fault := some c })
      | (s1, .slot _) | (s1, .waits _) => s1

/-- An engine's unanswered reads are abandoned, whose answers are dropped when they come, and its walks with them (R38,
R169, R327). The old values of its swaps are still to come. -/
def State.dropReads (s : State) (e : Nat) : State :=
  let drop := fun (w : ReqFor) =>
    match w with
    | .scalar | .stream _ _ | .step _ _ _ | .taken => ReqFor.taken
    | .ring id => .ring id
    | .dbg => .dbg
    | .swap id => .swap id
    | .host h => .host h
  let s1 := s.updEng e (fun x => { x with walks := [], got := [] })
  { s1 with
    ring := { s1.ring with reqs := s1.ring.reqs.map (fun q => if q.reqr = e then { q with what := drop q.what } else q) }
    m := { s1.m with expq := s1.m.expq.map (fun q =>
      if q.src = .engine s1.pos e then { q with what := drop q.what } else q) } }

/-! ### Invalidation (R336 to R338) -/

/-- Keep the slots of an engine's TLBs that a test does not select. -/
def Engine.dropSlots (x : Engine) (p : Slot → Bool) : Engine :=
  { x with
    itlb := x.itlb.filter (fun y => !p y), dtlb := x.dtlb.filter (fun y => !p y),
    l2 := SMap.remap [] (fun _ l => l.filter (fun y => !p y)) x.l2 }

/-- Scope PAGE: slots whose range holds the address, global or of the context (Table 10.6). -/
def pageSel (va : Nat) (ctx : BitVec 16) (y : Slot) : Bool := y.hits va ctx

/-- TLBI of scope 0, 1 or 2 in one engine (R336). -/
def Engine.tlbi (x : Engine) (scope : Nat) (g : W64) : Engine :=
  let va := bitsOf g.toNat 54 16 * 2 ^ 16
  let ctx := g.setWidth 16
  if scope = 0 then x.dropSlots (pageSel va ctx)
  else if scope = 1 then x.dropSlots (fun y => !y.g && y.ctx = ctx)
  else x.dropSlots (fun _ => true)

end Sys2Proof.Machine
end

