-- ==== Sys2Proof/Machine/Vec.lean ====
section
/-!
DEFINITION. Long vectors in flight (spec/06_vector_streams.md): stream descriptors, footprints, the checks of stage 4,
issue, chain slots, completion, stops with their resume records, and re-issue.
-/
namespace Sys2Proof.Machine

/-! ### The stream descriptor (Table 6.1, Table 6.2) -/

/-- MODE. -/
def Desc.mode (d : Desc) : Nat := bitsOf d.w0.toNat 63 61
/-- ET. -/
def Desc.et (d : Desc) : Nat := bitsOf d.w0.toNat 60 55
/-- BASE. -/
def Desc.base (d : Desc) : Nat := bitsOf d.w0.toNat 54 0
/-- COUNT. -/
def Desc.count (d : Desc) : Nat := bitsOf d.w1.toNat 63 32
/-- INDEX. -/
def Desc.index (d : Desc) : Nat := bitsOf d.w1.toNat 31 0
/-- STRIDE, signed bytes. -/
def Desc.stride (d : Desc) : Int := sval 32 (bitsOf d.w2.toNat 31 0)
/-- BOUND. -/
def Desc.bound (d : Desc) : Nat := bitsOf d.w2.toNat 63 32
/-- IXSRC. -/
def Desc.ixsrc (d : Desc) : Nat := bitsOf d.w2.toNat 31 28
/-- LEN; 0 means 2^32. -/
def Desc.len (d : Desc) : Nat := if bitsOf d.w2.toNat 63 32 = 0 then 2 ^ 32 else bitsOf d.w2.toNat 63 32
/-- OFF. -/
def Desc.off (d : Desc) : Nat := bitsOf d.w2.toNat 31 0
/-- K. -/
def Desc.k (d : Desc) : Nat := bitsOf d.w2.toNat 36 32
/-- SV. -/
def Desc.sv (d : Desc) : Bool := bitsOf d.w3.toNat 63 63 = 1
/-- BMOP. -/
def Desc.bmop (d : Desc) : Nat := bitsOf d.w3.toNat 59 56
/-- The address of the predicate block. -/
def Desc.spa (d : Desc) : Nat := bitsOf d.w3.toNat 54 6 * 64

/-- The descriptor with another cursor. -/
def Desc.setIndex (d : Desc) (i : Nat) : Desc := { d with w1 := BitVec.ofNat 64 (d.count * 2 ^ 32 + i % 2 ^ 32) }

/-- Address of element `i`, with `x` the index taken for it in MODE 2 (Table 6.2), modulo 2^64. -/
def Desc.elemAddr (d : Desc) (i x : Nat) : Nat :=
  let s := etSize d.et
  match d.mode with
  | 1 => ((d.base : Int) + (i : Int) * d.stride).emod (2 ^ 64) |>.toNat
  | 2 => (d.base + x * s) % 2 ^ 64
  | 3 => (d.base + (d.off + i * s) % d.len) % 2 ^ 64
  | 4 => (d.base + (i - i % 2 ^ d.k + revBits d.k (i % 2 ^ d.k)) * s) % 2 ^ 64
  | _ => if d.et = etBit then (d.base + i / 8) % 2 ^ 64 else (d.base + i * s) % 2 ^ 64

/-- The bytes that elements from `i` on may touch: first byte and byte after the last (Table 6.2). -/
def Desc.foot (d : Desc) (i : Nat) : Option (Nat × Nat) :=
  let s := etSize d.et
  if d.count ≤ i then none
  else
    match d.mode with
    | 1 =>
      let a := (d.base : Int) + (i : Int) * d.stride
      let b := (d.base : Int) + ((d.count : Int) - 1) * d.stride
      some ((if a ≤ b then a else b).toNat, ((if a ≤ b then b else a) + s).toNat)
    | 2 => some (d.base, d.base + d.bound * s)
    | 3 => some (d.base, d.base + d.len)
    | 4 => some (d.base + (i - i % 2 ^ d.k) * s, d.base + (d.count + 2 ^ d.k - 1) / 2 ^ d.k * 2 ^ d.k * s)
    | _ =>
      if d.et = etBit then some (d.base + i / 8, d.base + (d.count + 7) / 8)
      else some (d.base + i * s, d.base + d.count * s)

/-- The descriptor breaks a rule of R185 that it shows by itself. -/
def Desc.bad (d : Desc) : Bool :=
  let al := etAlign d.et
  let s := etSize d.et
  let p := d.w2.toNat
  4 < d.mode || !etOk d.et || bitsOf d.w3.toNat 62 60 ≠ 0 || bitsOf d.w3.toNat 55 55 ≠ 0 ||
  bitsOf d.w3.toNat 5 0 ≠ 0 || (!d.sv && (d.bmop ≠ 0 || d.spa ≠ 0)) || d.base % al ≠ 0 ||
  (d.et = etBit && d.mode ≠ 0) || (d.sv && (1 < d.mode || 0xC < d.bmop)) ||
  (match d.mode with
   | 0 => p ≠ 0
   | 1 => bitsOf p 63 32 ≠ 0 || d.stride = 0 || d.stride % (al : Int) ≠ 0
   | 2 => d.bound = 0 || 0xB < d.ixsrc || bitsOf p 27 0 ≠ 0
   | 3 => d.len ≤ d.off || d.off % s ≠ 0 || d.len % s ≠ 0
   | _ => bitsOf p 63 37 ≠ 0 || d.k = 0 || 24 < d.k || bitsOf p 31 0 ≠ 0)

/-! ### What an instruction names -/

/-- The descriptor in stream register `c` of engine `e`. -/
def State.desc (s : State) (e c : Nat) : Desc := SMap.get Desc.zero (s.eng e).arch.str c

/-- Set the cursor of a stream register. -/
def State.setIndex (s : State) (e c i : Nat) : State :=
  s.updEng e (fun x =>
    { x with arch := { x.arch with str := SMap.upd Desc.zero x.arch.str c (fun d => d.setIndex i) } })

/-- The index source of stream `c`, if it is indexed. -/
def State.ixOf (s : State) (e c : Nat) : Option Nat :=
  if c < 8 ∧ (s.desc e c).mode = 2 then some (s.desc e c).ixsrc else none

/-- The index sources that lead to operand `c`, its own first. -/
def State.sourcesOf (s : State) (e c : Nat) : Nat → List Nat
  | 0 => []
  | fuel + 1 =>
    match s.ixOf e c with
    | none => []
    | some x => x :: s.sourcesOf e x fuel

/-- The operand that receives the qualification bitmap of stream `c`. -/
def State.bmopOf (s : State) (e c : Nat) : Option Nat :=
  if c < 8 ∧ (s.desc e c).sv ∧ (s.desc e c).bmop ≠ 0xC then some (s.desc e c).bmop else none

/-- ROPD of VSCSWP; 0xC for every other opcode. -/
def VInst.ropd (v : VInst) : Nat := if v.opc = 0xCE then opRopd v.opf else 0xC
/-- Operand A. -/
def VInst.a (v : VInst) : Nat := opA v.opf
/-- Operand B. -/
def VInst.b (v : VInst) : Nat := opB v.opf
/-- Operand M. -/
def VInst.m (v : VInst) : Nat := opM v.opf
/-- Operand D. -/
def VInst.d (v : VInst) : Nat := opD v.opf

/-- The inputs of R181: A, B, M and every index source. -/
def State.inputsOf (s : State) (e : Nat) (v : VInst) : List Nat :=
  let base := [v.a, v.b, v.m].filter (fun c => c ≠ 0xC)
  (base ++ [v.a, v.b, v.d].flatMap (fun c => s.sourcesOf e c 9)).eraseDups

/-- Every operand code the instruction names, bitmap operands apart. -/
def State.namedOf (s : State) (e : Nat) (v : VInst) : List Nat :=
  (s.inputsOf e v ++ [v.d, v.ropd].filter (fun c => c ≠ 0xC)).eraseDups

/-- The bitmap operands of its streams (R257). -/
def State.bitmapsOf (s : State) (e : Nat) (v : VInst) : List Nat :=
  (s.inputsOf e v).filterMap (fun c => s.bmopOf e c)

/-- The stream registers it names, directly, as an index source or as a bitmap operand. -/
def State.streamsOf (s : State) (e : Nat) (v : VInst) : List Nat :=
  ((s.namedOf e v ++ s.bitmapsOf e v).filter (fun c => c < 8)).eraseDups

/-- The chain slots it delivers into. -/
def State.outSlots (s : State) (e : Nat) (v : VInst) : List Nat := ([v.d] ++ s.bitmapsOf e v).filter isSlot

/-- Progress before the first element. -/
def State.startSnap (s : State) (e : Nat) (v : VInst) (carry : W64) : Snap :=
  ⟨0, (s.inputsOf e v).foldl (fun m c => SMap.set 0 m c (if c < 8 then (s.desc e c).index else 0)) [], 0, carry⟩

/-- Present progress. -/
def VInst.cur (v : VInst) : Snap := ⟨v.taken, v.pos, v.made, v.acc.setWidth 64⟩

/-- The cursor of any stream that an instruction names, at a progress: inputs by their own place, D by the results, ROPD
by the input positions (R245), a bitmap with the source elements of its stream (R257). A register named both as an input and
as D has the input's place alone (R182, DEDUCED, log 44). -/
def State.cursor (s : State) (e : Nat) (v : VInst) (sn : Snap) (c : Nat) : Nat :=
  let start := fun c => if c < 8 then (s.desc e c).index else 0
  if (s.inputsOf e v).contains c then SMap.get 0 sn.pos c
  else if c = v.d then start c + sn.wd
  else if c = v.ropd then start c + sn.n
  else
    match (s.inputsOf e v).find? (fun u => s.bmopOf e u = some c) with
    | some u => start c + (SMap.get 0 sn.pos u - start u)
    | none => start c

/-! ### Instructions and slots -/

/-- The instruction that holds a tag. -/
def Engine.vinst (x : Engine) (tag : Nat) : Option VInst := x.vinsts.find? (fun v => v.tag = tag)

/-- Change the instruction that holds a tag. -/
def State.updV (s : State) (e tag : Nat) (f : VInst → VInst) : State :=
  s.updEng e (fun x => { x with vinsts := x.vinsts.map (fun v => if v.tag = tag then f v else v) })

/-- A chain slot. -/
def State.slot (s : State) (e c : Nat) : Chain := SMap.get Chain.free (s.eng e).chains c

/-- Change a chain slot. -/
def State.updSlot (s : State) (e c : Nat) (f : Chain → Chain) : State :=
  s.updEng e (fun x => { x with chains := SMap.upd Chain.free x.chains c f })

/-- The slot is bound: a producer or a consumer holds it (R195). -/
def Chain.bound (c : Chain) : Bool := c.prod.isSome || c.cons.isSome || c.prodEnd

/-- The buffer of a stream of an instruction. -/
def VInst.buf (v : VInst) (c : Nat) : StreamBuf := SMap.get StreamBuf.empty v.bufs c

/-- Write the buffer of a stream. -/
def VInst.setBuf (v : VInst) (c : Nat) (b : StreamBuf) : VInst :=
  { v with bufs := SMap.set StreamBuf.empty v.bufs c b }

/-- The tags joined to a tag by chain slots (its chain group). -/
def State.groupOf (s : State) (e tag : Nat) : List Nat :=
  (List.range 24).foldl (fun l _ =>
    ((s.eng e).chains.foldl (fun l q =>
      match q.2.prod, q.2.cons with
      | some p, some c => if l.contains p || l.contains c then (p :: c :: l).eraseDups else l
      | _, _ => l) l)) [tag]

/-- The instructions of a chain group, in program order. -/
def State.members (s : State) (e tag : Nat) : List VInst :=
  let tags := s.groupOf e tag
  (s.eng e).vinsts.filter (fun u => tags.contains u.tag)

/-- The instructions in flight before the one with a tag, in program order. -/
def Engine.before (x : Engine) (tag : Nat) : List VInst := x.vinsts.takeWhile (fun u => u.tag ≠ tag)

/-! ### Footprints (R204 to R206) -/

/-- Two byte ranges touch a common 64-byte line (R204). -/
def linesMeet (x y : Nat × Nat) : Bool := x.1 / 64 ≤ (y.2 - 1) / 64 && y.1 / 64 ≤ (x.2 - 1) / 64

/-- The remaining footprints of streams that an instruction names. -/
def State.footsOf (s : State) (e : Nat) (v : VInst) (cs : List Nat) : List (Nat × Nat) :=
  (cs.filter (fun c => c < 8)).filterMap (fun c => (s.desc e c).foot (s.cursor e v v.cur c))

/-- The remaining read footprints. -/
def State.readFoot (s : State) (e : Nat) (v : VInst) : List (Nat × Nat) := s.footsOf e v (s.inputsOf e v)

/-- The stream operands that an instruction writes: D, ROPD and bitmaps (R203, R245, R257). -/
def State.writeRegs (s : State) (e : Nat) (v : VInst) : List Nat :=
  ([v.d, v.ropd] ++ s.bitmapsOf e v).filter (fun c => c < 8)

/-- The remaining write footprints. -/
def State.writeFoot (s : State) (e : Nat) (v : VInst) : List (Nat × Nat) := s.footsOf e v (s.writeRegs e v)

/-- The ROPD elements whose old values are still to be written (R245). -/
def Engine.ropdFoot (x : Engine) : List (Nat × Nat) := x.swaps.map (fun q => (q.va.toNat, q.va.toNat + 8))

/-- Some range of one list meets one of the other. -/
def footsMeet (xs ys : List (Nat × Nat)) : Bool := xs.any (fun x => ys.any (fun y => linesMeet x y))

/-- A linear read stream whose elements lie at or above those of a linear D of the same size does not force serial
mode (R204). The comparison is made position by position. -/
def State.inPlace (s : State) (e : Nat) (v : VInst) (c : Nat) : Bool :=
  let r := s.desc e c
  let d := s.desc e v.d
  let bit := fun (x : Desc) => if x.et = etBit then x.base * 8 + x.index else (x.base + x.index * etSize x.et) * 8
  c < 8 && v.d < 8 && r.mode = 0 && d.mode = 0 && etSize r.et = etSize d.et && (r.et = etBit) == (d.et = etBit) &&
    bit d ≤ bit r

/-- The chain group of an instruction must run in serial mode (R204, R205): a read footprint meets a write footprint of the
group, the pair of a read stream and a D in place apart. -/
def State.mustSerial (s : State) (e : Nat) (v : VInst) : Bool :=
  let g := s.members e v.tag
  g.any (fun u =>
    ((s.inputsOf e u).filter (fun c => c < 8)).any (fun c =>
      let r := s.footsOf e u [c]
      g.any (fun w =>
        (s.writeRegs e w).any (fun d =>
          footsMeet r (s.footsOf e w [d]) && !(w.tag = u.tag && d = w.d && s.inPlace e u c)))))

/-- A posted write or atomic of the engine touches a footprint and is not yet performed, or an old value is still to be
written there. -/
def State.postedIn (s : State) (e : Nat) (foot : List (Nat × Nat)) (skip : MemOp → Bool) : Bool :=
  s.m.memq.any (fun r =>
    r.src = .engine s.pos e && !skip r.op &&
      (match r.op with
       | .write cs => footsMeet [(r.va.toNat, r.va.toNat + cs.length)] foot
       | .iadd _ | .fadd _ _ _ _ | .swap _ _ => footsMeet [(r.va.toNat, r.va.toNat + 8)] foot)) ||
  s.ring.remote.any (fun r => r.e = e && footsMeet [(r.va.toNat, r.va.toNat + 16)] foot) ||
  footsMeet (s.eng e).ropdFoot foot

/-- Atomics of VSCADD of one ET keep their order at the bank, so two such instructions do not wait (R205). -/
def VInst.sameAdd (v : VInst) (op : MemOp) : Bool :=
  v.opc = 0xCD &&
  (match op with
   | .iadd _ => opEt v.opf ≠ 9
   | .fadd _ _ _ _ => opEt v.opf = 9
   | .write _ | .swap _ _ => false)

/-- Two VSCADD of the same ET (R205). -/
def bothAdd (u v : VInst) : Bool := u.opc = 0xCD && v.opc = 0xCD && opEt u.opf = opEt v.opf

/-- An instruction leaves its station: those before it there have left, and nothing earlier outside its chain group that its
footprints meet is incomplete (R122, R205, R206). -/
def State.mayLeave (s : State) (e : Nat) (tags : List Nat) (v : VInst) : Bool :=
  let reads := s.readFoot e v
  let writes := s.writeFoot e v
  let earlier := ((s.eng e).before v.tag).filter (fun u => !tags.contains u.tag)
  !s.postedIn e reads (fun _ => false) && !s.postedIn e writes (fun op => v.sameAdd op) &&
  !earlier.any (fun u =>
    (stationOf u.opc = stationOf v.opc && !u.started) ||
    footsMeet reads (s.writeFoot e u) || (footsMeet writes (s.readFoot e u) && !bothAdd u v))

/-- Old values of swaps made before a stop are still to be written, or their writes to be performed (R246). -/
def State.oldSwaps (s : State) (e : Nat) : Bool :=
  let tti := match (s.eng e).place with | some p => p.tti | none => 0
  s.engines.any (fun q => q.2.swaps.any (fun w => w.late && w.tti = tti)) ||
    s.m.memq.any (fun r => r.src.part = s.pos && (r.src = .engine s.pos e || r.lap < s.lap)) ||
    s.ring.remote.any (fun r => r.e = e || r.lap < s.lap)

/-- The group of an instruction may start: each member that has not started may leave its station. -/
def State.mayStart (s : State) (e : Nat) (v : VInst) : Bool :=
  let tags := s.groupOf e v.tag
  (s.members e v.tag).all (fun u => u.started || (s.mayLeave e tags u && !(u.resumed && s.oldSwaps e)))

/-- Requests of an instruction's streams are no longer wanted. -/
def State.dropStreams (s : State) (e tag : Nat) : State :=
  let drop := fun (w : ReqFor) =>
    match w with
    | .stream t _ => if t = tag then ReqFor.taken else w
    | .scalar | .step _ _ _ | .taken | .swap _ | .host _ | .ring _ | .dbg => w
  { s with
    ring := { s.ring with reqs := s.ring.reqs.map (fun q => if q.reqr = e then { q with what := drop q.what } else q) }
    m := { s.m with expq := s.m.expq.map (fun q =>
      if q.src = .engine s.pos e then { q with what := drop q.what } else q) } }

/-- An instruction goes back to its progress as written, with nothing requested. -/
def State.restart (s : State) (e : Nat) (v : VInst) : State :=
  let bufs := ((s.inputsOf e v).filter (fun c => c < 8)).foldl (fun (m : SMap StreamBuf) c =>
    if (s.desc e c).sv ∧ SMap.get none v.pred c = none then m
    else SMap.set StreamBuf.empty m c { StreamBuf.empty with reqTo := SMap.get 0 v.snap.pos c }) v.bufs
  (s.dropStreams e v.tag).updV e v.tag (fun u =>
    { u with taken := u.snap.n, pos := u.snap.pos, made := u.snap.wd, acc := u.snap.carry.setWidth 128, hold := [],
             full := none, bufs := bufs, block := [], blkSnap := u.snap, delivering := false,
             blkOut := if u.opc = 0xD0 then u.snap.carry.toNat else 0, bitAt := none })

/-- A group turns out serial when some of its members have started and nothing of it has been written: what they have read
ahead is read again, in serial mode (R204; DEDUCED, log 134). -/
def State.restartGroup (s : State) (e : Nat) (g : List VInst) : State :=
  if g.all (fun u => u.snap.n = 0 && u.snap.wd = 0) then
    let tags := g.map (fun u => u.tag)
    let s1 := g.foldl (fun s u => if u.started then s.restart e u else s) s
    s1.updEng e (fun x => { x with chains := x.chains.map (fun q =>
      (q.1, match q.2.prod with
        | some p => if tags.contains p then { q.2 with elems := [], last := none, prodEnd := false } else q.2
        | none => q.2)) })
  else s

/-- Start the group of an instruction if it may start; serial mode is decided and counted now (R204, R205). -/
def State.startGroup (s : State) (e : Nat) (v : VInst) : Option State :=
  if v.started then some s
  else if !s.mayStart e v then none
  else
    let g := s.members e v.tag
    let ser := s.mustSerial e v
    let s1 := if ser && g.any (fun u => u.started && !u.serial) then s.restartGroup e g else s
    some (g.foldl (fun s u =>
      let s1 := s.updV e u.tag (fun w => { w with started := true, serial := ser || w.serial })
      if ser && !u.serial then s1.satInc (Reg.enVecStat e) 15 8 else s1) s1)

/-- The store port still has writes of an earlier instruction to issue before those of this one (R203). -/
def State.storeBehind (s : State) (e : Nat) (v : VInst) : Bool :=
  ((s.eng e).before v.tag).any (fun u => !u.ended && !(s.writeRegs e u).isEmpty)

/-! ### Stage 4 (R185, R188, R241, R245, R256, R257) -/

/-- An exception of an element or of stage 4: vector, detail, operand code, element index, address. -/
structure VErr where
  vec : Nat
  detail : Nat
  fopd : Nat
  fidx : Nat
  va : Nat
deriving DecidableEq, Repr

/-- ILLEGAL with cause 0x06 in the manner of R185. -/
def State.vIll (s : State) (e c : Nat) : VErr := ⟨0x03, 0x06, c, if c < 8 then (s.desc e c).index else 0, 0⟩

/-- Types that an index source may carry (R188). -/
def ixTypeOk (et : Nat) : Bool := et = 1 || et = 2 || et = 3

/-- A named stream or slot breaks R185, R188 or R257, for the types its place admits. -/
def State.operandBad (s : State) (e : Nat) (v : VInst) (c : Nat) (ok : Nat → Bool) : Bool :=
  if c < 8 then
    let d := s.desc e c
    d.bad || !ok d.et ||
    (d.mode = 2 && (d.ixsrc = c || (d.ixsrc < 8 && [v.a, v.b, v.m, v.d].contains d.ixsrc))) ||
    (match s.bmopOf e c with
     | none => false
     | some b =>
       let x := s.desc e b
       (s.namedOf e v).contains b || 1 < ((s.bitmapsOf e v).filter (fun y => y = b)).length ||
       (if b < 8 then !(v.d < 8) || x.bad || x.mode ≠ 0 || x.et ≠ etBit else !isSlot v.d))
  else
    let ch := s.slot e c
    (ch.prod.isSome || ch.prodEnd) && ch.cons = none && !ok ch.et

/-- D of an atomic is not aligned to its 8 bytes, which the alignment of KEY8 would allow (R247; DEDUCED, log 135). -/
def State.atomicOdd (s : State) (e : Nat) (v : VInst) : Bool :=
  let d := s.desc e v.d
  (v.opc = 0xCD || v.opc = 0xCE) && (d.base % 8 ≠ 0 || (d.mode = 1 && d.stride % 8 ≠ 0))

/-- The first operand that stage 4 finds invalid, in the order A, B, M, D, index sources, ROPD, the probe table (R185;
DESIGN CHOICE, log 136). -/
def State.badOperand (s : State) (e : Nat) (v : VInst) : Option VErr :=
  let o := v.opf
  let chk := fun c (ok : Nat → Bool) => if c ≠ 0xC && s.operandBad e v c ok then some (s.vIll e c) else none
  let srcs := ([v.a, v.b, v.d].flatMap (fun c => s.sourcesOf e c 9)).eraseDups
  let ropdBad :=
    v.ropd ≠ 0xC &&
      (7 < v.ropd || [v.a, v.b, v.m, v.d].contains v.ropd || srcs.contains v.ropd ||
        (s.bitmapsOf e v).contains v.ropd || (s.desc e v.ropd).mode ≠ 0 || (s.desc e v.ropd).bad ||
        (s.desc e v.ropd).et ≠ opEt o)
  let probeBad := v.opc = 0xCC && (20 < opLogb o || v.seed.toNat % 64 ≠ 0)
  ((chk v.a (fun t => t = etOfA v.opc o)) <|> (chk v.b (fun t => t = etOfB v.opc o)) <|>
    (chk v.m (fun t => t = etBit)) <|>
    (if v.d < 8 then chk v.d (fun t => t = etOfD v.opc o) else none) <|>
    (if v.d < 8 && s.atomicOdd e v then some (s.vIll e v.d) else none) <|>
    (srcs.findSome? (fun c => chk c ixTypeOk)) <|>
    (if ropdBad then some (s.vIll e v.ropd) else none) <|>
    (if probeBad then some (s.vIll e v.a) else none))

/-- Run a computation with the context and table base of an instruction in force (R208). -/
def State.withXlate {α : Type} (s : State) (e : Nat) (ctx : BitVec 16) (ttb : W64) (f : State → State × α) : State × α :=
  let a := (s.eng e).arch
  let s1 := s.updEng e (fun x => { x with arch := { x.arch with ctxid := ctx, ttb := ttb } })
  let (s2, r) := f s1
  (s2.updEng e (fun x => { x with arch := { x.arch with ctxid := a.ctxid, ttb := a.ttb } }), r)

/-- Translate for an instruction in flight by walker `k` (R208, R326). -/
def State.vXlate (s : State) (e : Nat) (v : VInst) (k : Nat) (acc : Acc) (atomic : Bool) (va : Nat) : State × Xl :=
  s.withXlate e v.ctxid v.ttb (fun s => s.translate e k acc atomic v.user v.pkr va)

/-- The walker that a stream uses: that of a load port, of the two by its number, or that of the store port (R326; which
port serves a stream is a DESIGN CHOICE, log 137). -/
def walkerOf (acc : Acc) (c : Nat) : Nat := match acc with | .write => 4 | .read | .fetch => 2 + c % 2

/-- The identity of the target that holds an offset (Table 1.2), as DATA_ERROR's detail. -/
def State.targetId (s : State) (dpa : Nat) : Nat :=
  if dpa / 2 ^ 46 = s.pos then (s.tier (dpa % 2 ^ 46)).target else 48 + s.routePort (dpa / 2 ^ 46)

/-- ORIGIN of a requester: an engine, or the Steward by its crossbar identity (R26). -/
def State.reqOrigin (s : State) (e : Nat) : Nat := if e < 512 then originOf s.pos 0 e else originOf s.pos 2 39

/-- A DPA to which a requester has no path: the register space for an engine, the ring for the Steward (Table 9.8). -/
def State.noPath (s : State) (e dpa : Nat) : Bool :=
  s.inDomain (dpa / 2 ^ 46) && (if e < 512 then inRegs (dpa % 2 ^ 46) && dpa / 2 ^ 46 = s.pos else dpa / 2 ^ 46 ≠ s.pos)

/-- An access to an unmapped DPA, or one without a path, is recorded once (R26, R309). -/
def State.unmapped (s : State) (e dpa : Nat) : State :=
  (if s.noPath e dpa then s.satInc Reg.xbarStat 15 0 else s).fault 0x13 (s.reqOrigin e) dpa (s.epochOf e) 0 0

/-- A read that an instruction of an engine makes as part of a step: its data, an exception, or a wait. -/
inductive VRead where
  | data (bs : List Byte)
  | trap (vec detail : Nat)
  | waits

/-- Read 64 bytes at a virtual address for an instruction, by requester `who` (R241, R256); `dir` asks for the Directory
tier. -/
def State.vRead (s : State) (e : Nat) (v : VInst) (who va : Nat) (dir : Nat → Bool) : State × VRead :=
  match s.vXlate e v 2 .read false va with
  | (s1, .waits) => (s1, .waits)
  | (s1, .trap vec d) => (s1, .trap vec d)
  | (s1, .dpa p) =>
    if inRegs (p % 2 ^ 46) || !s1.partUp (p / 2 ^ 46) then (s1.unmapped e p, .trap 0x0A 0)
    else if p / 2 ^ 46 = s1.pos && !(s1.tier (p % 2 ^ 46)).isMem then (s1.unmapped e p, .trap 0x0A 0)
    else if !dir p then (s1, .trap 0x0A 0)
    else
      match s1.readFor e who (.engine s.pos e) true p 64 with
      | (s2, none) => (s2, .waits)
      | (s2, some (.ok, bs)) => (s2, .data bs)
      | (s2, some (.poison, _)) => (s2, .trap 0x0B (s2.targetId p))
      | (s2, some (.unmapped, _)) => (s2, .trap 0x0A 0)

/-- Requester numbers of an instruction's steps: the predicate block of stream `c`, a probe, a byte of a BIT stream. -/
def whoPred (c : Nat) : Nat := 8 + c
def whoProbe (tag : Nat) : Nat := 16 * (tag + 1)
def whoBit (tag : Nat) : Nat := 16 * (tag + 1) + 1

/-- How stage 4 leaves an instruction. -/
inductive Stage4 where
  | ok (v : VInst)
  | bad (x : VErr)
  | waits

/-- Read the predicate blocks of an instruction's Sieve streams (R256); an invalid block makes its descriptor invalid, and
a fault stands at the stream's first element. -/
def State.readPreds (s : State) (e : Nat) (v : VInst) : State × Stage4 :=
  ((s.inputsOf e v).filter (fun c => c < 8 && (s.desc e c).sv)).foldl
    (fun (a : State × Stage4) c =>
      match a with
      | (s, .ok v) =>
        let d := s.desc e c
        match s.vRead e v (whoPred c) d.spa (fun _ => true) with
        | (s1, .waits) => (s1, .waits)
        | (s1, .data bs) =>
          let p := rec64Of (ofLe bs)
          if predOk p d.et then (s1, .ok { v with pred := SMap.set none v.pred c (some p) })
          else (s1, .bad (s1.vIll e c))
        | (s1, .trap vec det) =>
          let x : Elem := ⟨0, d.index, BitVec.ofNat 64 d.spa, true, some (vec, det)⟩
          (s1, .ok (if d.index < d.count then v.setBuf c { v.buf c with elems := [x], reqTo := d.count } else v))
      | other => other)
    (s, .ok v)

/-- Predicate blocks read at stage 4 have been used. -/
def State.dropPredReads (s : State) (e : Nat) : State := (List.range 8).foldl (fun s c => s.dropGot e (whoPred c)) s

/-! ### Issue (R114, R122, R123, R183, R195, R222) -/

/-- The scalar register operand of an instruction (R222). -/
def scalarOp (a : Arch) (opc : Nat) (o : BitVec 56) : W128 :=
  let et := opEt o
  let s := etSize et
  if s > 8 then BitVec.ofNat 128 ((a.rdQ (opReg o)).toNat % 2 ^ (8 * s))
  else if opc = 0xD1 then BitVec.ofNat 128 ((a.rdQ (opReg o)).toNat % 2 ^ (8 * s))
  else if etF et then BitVec.ofNat 128 (a.rdF (8 * s) (opReg o))
  else BitVec.ofNat 128 ((a.rdG (opReg o)).toNat % 2 ^ (8 * s))

/-- The carried value at first issue (R212, R226, R233 to R235). -/
def carry0 (a : Arch) (opc : Nat) (o : BitVec 56) : Nat :=
  match opc with
  | 0xC0 => if opFn o = 2 then (a.rdG (opReg o)).toNat % 2 ^ etWidth (opEt o) else 0
  | 0xC9 | 0xCA => foldId (opFn o) (opEt o)
  | _ => 0

/-- An instruction with the values it takes at stage 4. `carry` is given at re-issue. -/
def State.vNew (s : State) (e tag opc : Nat) (o : BitVec 56) (limit : Option Nat) (carry : Option W64) (pc : W64) :
    VInst :=
  let a := (s.eng e).arch
  let c : W64 := carry.getD (BitVec.ofNat 64 (carry0 a opc o))
  let v : VInst :=
    { tag := tag, opc := opc, opf := o, limit := limit, acc := c.setWidth 128, pc := pc, user := !a.sup, pkr := a.pkr,
      ctxid := a.ctxid, ttb := a.ttb, flags := a.flags, ove := a.psr.getLsbD 7, die := a.psr.getLsbD 6,
      scalar := scalarOp a opc o,
      seed := if opc = 0xCC || (opc = 0xCB && opSe o) then a.rdG (opReg o) else 0,
      serial := false, started := false, ended := false, taken := 0, made := 0, pos := [],
      snap := ⟨0, [], 0, 0⟩, hold := [], full := none, bufs := [], block := [], blkSnap := ⟨0, [], 0, 0⟩,
      blkOut := if opc = 0xD0 then c.toNat else 0, delivering := false, wUnit := 0, wBooked := false, bitAt := none,
      resumed := carry.isSome, pred := [] }
  let sn := s.startSnap e v c
  let v1 := { v with pos := sn.pos, snap := sn, blkSnap := sn }
  ((s.inputsOf e v1).filter (fun c => c < 8)).foldl
    (fun v c => v.setBuf c { StreamBuf.empty with reqTo := (s.desc e c).index }) v1

/-- The lowest-numbered free tag (R123). -/
def Engine.freeTag (x : Engine) : Option Nat :=
  (List.range 24).find? (fun t => !x.vinsts.any (fun v => v.tag = t))

/-- The instruction waits in the issue path: no tag, station full, a stream taken, or a slot bound (R122, R123, R183,
R195). -/
def State.vWaits (s : State) (e : Nat) (v : VInst) : Bool :=
  let x := s.eng e
  x.freeTag = none ||
  stationSize (stationOf v.opc) ≤ (x.vinsts.filter (fun u => stationOf u.opc = stationOf v.opc)).length ||
  (s.streamsOf e v).any (fun c => x.vinsts.any (fun u => (s.streamsOf e u).contains c)) ||
  (s.outSlots e v).any (fun c => (s.slot e c).bound)

/-- A slot that the instruction names as an input has a producer and no consumer yet (R195, R199). -/
def State.canBind (s : State) (e c : Nat) : Bool :=
  let ch := s.slot e c
  ch.cons = none && (ch.prod.isSome || ch.prodEnd)

/-- Bind the slots of an instruction at stage 7 (R195); a consumer that finds an input without a producer is counted once
(R199, Table 6.8). -/
def State.bindSlots (s : State) (e : Nat) (v : VInst) : State :=
  let ins := (s.inputsOf e v).filter isSlot
  let s0 := if ins.any (fun c => !s.canBind e c) then s.satInc (Reg.enVecStat e) 31 24 else s
  let s1 := ins.foldl (fun s c =>
    if s.canBind e c then s.updSlot e c (fun x => { x with cons := some v.tag }) else s) s0
  (s.outSlots e v).foldl (fun s c =>
    s.updSlot e c (fun _ => ⟨some v.tag, none, false, if c = v.d then etOfD v.opc v.opf else etBit, [], none⟩)) s1

/-- An input slot of the instruction is not bound to it: that input delivers nothing (R199). -/
def State.unfed (s : State) (e : Nat) (v : VInst) : Bool :=
  (s.inputsOf e v).any (fun c => isSlot c && decide ((s.slot e c).cons ≠ some v.tag))

/-- Put an instruction into flight; with an error of stage 4 it stays recorded (R185). -/
def State.vPush (s : State) (e : Nat) (v : VInst) : State × Stage4 :=
  let add := fun (s : State) (v : VInst) => s.updEng e (fun x => { x with vinsts := x.vinsts ++ [v] })
  match s.badOperand e v with
  | some err => (add s v, .bad err)
  | none =>
    match s.readPreds e v with
    | (s1, .waits) => (s1, .waits)
    | (s1, .bad x) => (add (s1.dropPredReads e) v, .bad x)
    | (s1, .ok v1) => ((add (s1.dropPredReads e) v1).bindSlots e v1, .ok v1)

/-! ### Completion (R182, R195, R198, R201) -/

/-- Set the cursors of an instruction's streams to a progress. -/
def State.setCursors (s : State) (e : Nat) (v : VInst) (sn : Snap) : State :=
  ((s.streamsOf e v).map (fun c => (c, s.cursor e v sn c))).foldl (fun s q => s.setIndex e q.1 q.2) s

/-- Release the predicate entries that an instruction uses at other parts (R369). -/
def State.dropPreds (s : State) (e tag : Nat) : State :=
  { s with ring := { s.ring with predUse := s.ring.predUse.filter (fun p => !(p.2.2.1 = e && p.2.2.2.1 = tag)) } }

/-- The progress at which an instruction completes: that of D's last element where D is full (R181). -/
def VInst.endSnap (v : VInst) : Snap := v.full.getD v.cur

/-- An input has no further element. -/
def State.inputDone (s : State) (e : Nat) (v : VInst) (c : Nat) : Bool :=
  if isSlot c then
    let ch := s.slot e c
    ch.cons ≠ some v.tag || (ch.elems.isEmpty && (ch.prodEnd || ch.prod = none))
  else (s.desc e c).count ≤ SMap.get 0 v.pos c

/-- The instruction has nothing more to deliver: it has ended, or its inputs have (R198). -/
def State.exhausted (s : State) (e : Nat) (v : VInst) : Bool :=
  v.ended ||
  (match v.opc with
   | 0xCA => v.made ≠ 0
   | 0xCF => s.inputDone e v v.a && s.inputDone e v v.b
   | 0xC7 => s.inputDone e v v.m
   | 0xD0 => v.block.isEmpty && s.inputDone e v v.a
   | _ => (s.inputsOf e v).any (fun c => s.inputDone e v c))

/-- A result that waits in a chain slot, in a sort block or in a carried value derives from the instruction with a tag
(R201). -/
def Engine.derives (x : Engine) (tag : Nat) : Bool :=
  let has := fun (d : List (Nat × Snap)) => d.any (fun q => q.1 = tag)
  x.chains.any (fun q => q.2.elems.any (fun y => has y.der)) ||
    x.vinsts.any (fun u => u.tag ≠ tag && (has u.hold || u.block.any (fun y => has y.der)))

/-- The instruction with a tag completes at a progress: its cursors stay, its tag is freed, the slots it consumes are
released, and the producers behind them that still have elements to deliver end with it, at the last element that this
consumer took (R198). -/
def State.vComplete (s : State) (e tag : Nat) (sn : Snap) : Nat → State
  | 0 => s
  | fuel + 1 =>
    match (s.eng e).vinst tag with
    | none => s
    | some v =>
      let s1 := ((((s.setCursors e v sn).dropPreds e tag).dropStreams e tag).dropGot e (whoProbe tag)).dropGot e (whoBit tag)
      let s2 := s1.updEng e (fun x =>
        { x with
          vinsts := x.vinsts.filter (fun u => u.tag ≠ tag),
          chains := (x.chains.map (fun q => (q.1, if q.2.prod = some tag then
            { q.2 with prod := none, prodEnd := true } else q.2))) })
      let scanned : Bool := match v.full with | some o => decide (o.pos ≠ v.pos) | none => false
      let fed := (s2.eng e).chains.filter (fun q => q.2.cons = some tag)
      fed.foldl (fun s q =>
        let s1 := s.updSlot e q.1 (fun _ => Chain.free)
        match q.2.prod with
        | none => s1
        | some p =>
          match (s1.eng e).vinst p with
          | none => s1
          | some pv =>
            if q.2.elems.isEmpty && !scanned && s1.exhausted e pv then s1.updV e p (fun u => { u with ended := true })
            else (s1.satInc (Reg.enVecStat e) 23 16).vComplete e p (q.2.last.getD (s1.startSnap e pv 0)) fuel) s2

/-- Free the tags of the instructions that have ended and whose results have all been written (R123, R201). -/
def State.freeEnded (s : State) (e : Nat) : Nat → State
  | 0 => s
  | fuel + 1 =>
    match (s.eng e).vinsts.find? (fun v => v.ended && !(s.eng e).derives v.tag) with
    | none => s
    | some v => (s.vComplete e v.tag v.endSnap 25).freeEnded e fuel

/-- The instruction has processed its last element: its slots get no more, and it completes once its results are written. -/
def State.vFinish (s : State) (e tag : Nat) : State :=
  (((s.updV e tag (fun v => { v with ended := true })).updEng e (fun x =>
    { x with chains := x.chains.map (fun q =>
        (q.1, if q.2.prod = some tag then { q.2 with prodEnd := true } else q.2)) }))).freeEnded e 25

/-- An instruction that has entered its station with nothing to process completes at once (R114, R199); a VRED without
input still delivers its one result (R234). -/
def State.vBegin (s : State) (e : Nat) (v : VInst) : State :=
  let none_ := v.limit = some 0 && (v.opc ≠ 0xCA || !v.resumed)
  if none_ || (s.unfed e v && v.opc ≠ 0xCA) then s.vFinish e v.tag else s

/-! ### Stops (R210 to R217) -/

/-- VSTATE with its fields (Table 6.7). -/
def vstateOf (nrec : Nat) (lapres dshort fv : Bool) (frec fopd sact fidx : Nat) : W64 :=
  BitVec.ofNat 64 (nrec % 32 * 2 ^ 59 + lapres.toNat * 2 ^ 58 + dshort.toNat * 2 ^ 57 + fv.toNat * 2 ^ 56 +
    frec % 32 * 2 ^ 51 + fopd % 16 * 2 ^ 47 + sact % 256 * 2 ^ 39 + fidx % 2 ^ 32)

/-- NREC. -/
def vsNrec (v : W64) : Nat := bitsOf v.toNat 63 59
/-- LAPRES. -/
def vsLapres (v : W64) : Bool := v.getLsbD 58
/-- DSHORT. -/
def vsDshort (v : W64) : Bool := v.getLsbD 57

/-- A resume record, its three words (Table 6.5). -/
structure VRec where
  w0 : W64
  limit : BitVec 32
  carry : W64
deriving DecidableEq, Repr

/-- The bytes of a resume record. -/
def VRec.bytes (r : VRec) : List Byte :=
  leBytes 8 r.w0.toNat ++ leBytes 8 (r.limit.toNat * 2 ^ 32) ++ leBytes 8 r.carry.toNat

/-- The limit that a record gives: all ones means none (Table 6.5). An override that clamps to all ones and has let no
element pass reads the same (DEDUCED, log 132). -/
def VRec.lim (r : VRec) : Option Nat := if r.limit = 0xFFFFFFFF then none else some r.limit.toNat

/-- What an instruction carries counts as written: every result has been written, and the rest is in CARRY (R211, R212). -/
def VInst.carries (v : VInst) : Bool := (v.opc = 0xC8 || v.opc = 0xC9 || v.opc = 0xCA) && v.snap.wd = v.made

/-- The progress at which an instruction stops (R211, R212). -/
def VInst.stopSnap (v : VInst) : Snap := if v.carries then v.cur else v.snap

/-- The resume record of an instruction (R213). -/
def VInst.record (v : VInst) : VRec :=
  let sn := v.stopSnap
  let lim : BitVec 32 := match v.limit with | none => 0xFFFFFFFF | some n => BitVec.ofNat 32 (n - sn.n)
  let keeps := (v.opc = 0xC0 && opFn v.opf = 2) || (0xC8 ≤ v.opc && v.opc ≤ 0xCA) || v.opc = 0xD0
  ⟨BitVec.ofNat 64 (v.opf.toNat * 256 + v.opc), lim, if keeps then sn.carry else 0⟩

/-- Offset of the Vector Resume Area in a Home Bank (R213). -/
def vraOff : Nat := 0x3DC00

/-- Write resume records from record 0 on into the engine's Vector Resume Area, one request a line (R214, R593); they are
part of an exception entry, whose handler waits for them. -/
def State.writeRecords (s : State) (e : Nat) (rs : List VRec) : State :=
  let base := s.dpaOf (bankBase e + vraOff)
  let bs := rs.flatMap (fun r => r.bytes)
  (List.range ((bs.length + 63) / 64)).foldl
    (fun s i =>
      let l := (bs.drop (64 * i)).take 64
      let (s1, booked) := s.spend e 1 s.pos 1
      s1.issueWriteAs e (base + 64 * i) l (BitVec.ofNat 64 (base + 64 * i)) booked true) s

/-- The streams that records mark, as a bit mask. -/
def sactOf (cs : List Nat) : Nat := cs.eraseDups.foldl (fun m c => m + 2 ^ c) 0

/-- Answers still to come for an instruction that no longer runs are dropped (R38, R169), and its predicate entries
released (R369). -/
def State.abandonReads (s : State) (e : Nat) : State :=
  let s1 := (List.range 24).foldl (fun s t => s.dropStreams e t) s
  { s1 with ring := { s1.ring with predUse := s1.ring.predUse.filter (fun p => p.2.2.1 ≠ e) } }

/-- Read resume record `i` of an engine. -/
def State.readRecord (s : State) (e i : Nat) : VRec :=
  let m := s.m.seenBy (.engine s.pos e)
  let off := bankBase e + vraOff + 24 * i
  ⟨BitVec.ofNat 64 (word8 m.mem off), BitVec.ofNat 32 (word8 m.mem (off + 8) / 2 ^ 32),
    BitVec.ofNat 64 (word8 m.mem (off + 16))⟩

/-- The streams a record's instruction names. -/
def State.recStreams (s : State) (e : Nat) (r : VRec) : List Nat :=
  s.streamsOf e (s.vNew e 0 (r.w0.toNat % 256) (BitVec.ofNat 56 (r.w0.toNat / 256)) r.lim none 0)

/-- The records that a re-issue in progress has not yet issued. They follow the records of a stop (R216; DEDUCED, log 138). -/
def State.restRecords (s : State) (e : Nat) : List VRec :=
  match (s.eng e).reissue with
  | none => []
  | some i => (List.range (vsNrec (s.eng e).arch.vstate - i)).map (fun j => s.readRecord e (i + j))

/-- What an open carried value derives from counts as written with it (R211). -/
def State.markHeld (s : State) (e : Nat) : State :=
  (s.eng e).vinsts.foldl (fun s v =>
    if v.carries then
      v.hold.foldl (fun s d => s.updV e d.1 (fun u => if u.snap.n ≤ d.2.n then { u with snap := d.2 } else u)) s
    else s) s

/-- Long vectors hold tags, or wait to be re-issued: a stop writes resume records. -/
def Engine.vecBusy (x : Engine) : Bool := !x.vinsts.isEmpty || x.reissue.isSome

/-- Stop every long-vector instruction that holds a tag: cursors, VSTATE and records (R210 to R217). `cause` gives the
instruction, operand and element that caused it. -/
def State.vStop (s : State) (e : Nat) (cause : Option (Nat × Nat × Nat)) (lapres : Bool) : State :=
  let s0 := s.markHeld e
  let vs := (s0.eng e).vinsts
  let rest := s0.restRecords e
  let s1 := vs.foldl (fun s v => s.setCursors e v v.stopSnap) s0
  let marks := vs.flatMap (fun v => s0.streamsOf e v) ++ rest.flatMap (fun r => s0.recStreams e r)
  let old := (s.eng e).arch.vstate
  let recs := vs.map (fun v => v.record) ++ rest
  let st : W64 :=
    match cause with
    | none => vstateOf recs.length lapres (vsDshort old) false 0 0 (sactOf marks) 0
    | some (tag, fopd, fidx) =>
      vstateOf recs.length lapres (vsDshort old) true ((vs.map (fun v => v.tag)).findIdx (fun t => t = tag)) fopd
        (sactOf marks) fidx
  let s2 := s1.updEng e (fun x =>
    { x with arch := { x.arch with vstate := st }, vinsts := [], chains := [], reissue := none,
             swaps := x.swaps.map (fun q => { q with late := true }) })
  ((s2.abandonReads e).satInc (Reg.enVecStat e) 7 0).writeRecords e recs

/-- Set NREC and LAPRES of VSTATE. -/
def State.setNrec (s : State) (e n : Nat) (lapres : Bool) : State :=
  s.updEng e (fun x =>
    { x with arch := { x.arch with
        vstate := BitVec.ofNat 64 (putBits (putBits x.arch.vstate.toNat 63 59 n) 58 58 lapres.toNat) } })

/-! ### Re-issue (R170, R216) -/

/-- How a re-issue stands: over, waiting in the issue path, or ended by a record with the cause of its ILLEGAL. -/
inductive Reissue where
  | done
  | waits
  | bad (cause : Nat)
deriving DecidableEq, Repr

/-- A record fails a check: the instructions before it stop, it and the records behind it follow theirs (R216). The operand
and element are those of the check, free where a decode fault names none. -/
def State.recordBad (s : State) (e : Nat) (fopd fidx : Nat) : State :=
  let k := (s.eng e).vinsts.length
  (s.vStop e none false).updEng e (fun x =>
    { x with arch := { x.arch with vstate := x.arch.vstate ||| vstateOf 0 false false true k fopd 0 fidx } })

/-- The re-issue goes on as far as it can, each record as an instruction fetched in its place would (R216): it waits for
streams, slots, a tag and a station like one (R122, R123, R183, R195; DEDUCED, log 22). A RESIDUE error of it later reports the
PC held now, since a record keeps none (R173, DEDUCED, log 150). -/
def State.goReissue (s : State) (e : Nat) : Nat → State × Reissue
  | 0 => (s, .waits)
  | fuel + 1 =>
    match (s.eng e).reissue with
    | none => (s, .done)
    | some i =>
      if vsNrec (s.eng e).arch.vstate ≤ i then
        ((s.setNrec e 0 false).updEng e (fun x => { x with reissue := none }), .done)
      else
        let r := s.readRecord e i
        let opc := r.w0.toNat % 256
        let o := BitVec.ofNat 56 (r.w0.toNat / 256)
        let free := Config.failOperand r.w0.toNat
        if opc < 0xC0 ∨ 0xD4 < opc then (s.recordBad e (free.1 % 16) (free.2 % 2 ^ 32), .bad 0x01)
        else if vecCause opc o ≠ 0 then (s.recordBad e (free.1 % 16) (free.2 % 2 ^ 32), .bad (vecCause opc o))
        else
          let v := s.vNew e ((s.eng e).freeTag.getD 0) opc o r.lim (some r.carry) (s.eng e).arch.pc
          if s.vWaits e v then (s, .waits)
          else
            match s.vPush e v with
            | (s1, .waits) => (s1, .waits)
            | (s1, .bad err) =>
              ((s1.updEng e (fun x => { x with vinsts := x.vinsts.filter (fun u => u.tag ≠ v.tag) })).recordBad e err.fopd
                err.fidx, .bad err.detail)
            | (s1, .ok w) =>
              ((s1.vBegin e w).updEng e (fun x => { x with reissue := some (i + 1) })).goReissue e fuel

/-- Re-issue of all records of VSTATE begins. -/
def State.reissue (s : State) (e : Nat) : State × Reissue :=
  (s.updEng e (fun x => { x with reissue := some 0 })).goReissue e 32

end Sys2Proof.Machine
end

