-- ==== Sys2Proof/Machine/Access.lean ====
section
/-!
DEFINITION. Where the accesses of an engine or of the Steward's Sequencer lead (R162, R320), and one access there; the
length of the instruction at an address (R82).
-/
namespace Sys2Proof.Machine

/-! ### Where an access goes (R162, R320) -/

/-- Size of the Steward's private SRAM (R498). -/
def sramSize : Nat := 0x200000

/-- Where an address of an engine leads: a DPA, an offset of the Steward's SRAM, a third fault (R163), or an exception;
`waits` while its walk has not ended. -/
inductive Loc where
  | dpa (d : Nat)
  | sram (o : Nat)
  | third
  | trap (vec detail : Nat)
  | waits
deriving DecidableEq, Repr

/-- An offset under Escalation: in the engine's Home Bank, or at the top of the Steward's SRAM (R162, R165). -/
def State.escLoc (s : State) (e off : Nat) : Loc :=
  if 0x40000 ≤ off then .third
  else if e = steward then .sram (sramSize - 0x40000 + off)
  else .dpa (s.dpaOf (bankBase e + off))

/-- Where a data or instruction address of an engine leads, at a privilege. -/
def State.locate (s : State) (e : Nat) (a : Acc) (user : Bool) (va : Nat) : State × Loc :=
  let x := (s.eng e).arch
  if x.escact then (s, s.escLoc e va)
  else if e = steward then
    (s, if a = .fetch then (if va < sramSize then .sram va else .trap 0x0A 0)
        else if va < 2 ^ 52 then .dpa va else .trap 0x0A 0)
  else
    match s.translate e (if a = .fetch then 0 else 1) a false user x.pkr va with
    | (s1, .dpa d) => (s1, .dpa d)
    | (s1, .trap v d) => (s1, .trap v d)
    | (s1, .waits) => (s1, .waits)

/-- The source of an engine's requests: the Steward's are those of master 39. -/
def State.srcOf (s : State) (e : Nat) : Src := if e = steward then .master s.pos 39 else .engine s.pos e

/-- A DPA that an engine may access: a part of the Domain that is not lost, and not the register window of an engine's
data (R22, R25, R26, R382). -/
def State.reachable (s : State) (dpa : Nat) : Bool :=
  let part := dpa / 2 ^ 46
  s.partUp part && !inRegs (dpa % 2 ^ 46) && (part ≠ s.pos || (s.tier (dpa % 2 ^ 46)).isMem)

/-- A DPA that a requester may access: the Steward has no path to other parts (Table 9.8). -/
def State.reaches (s : State) (e dpa : Nat) : Bool := s.reachable dpa && (e < 512 || dpa / 2 ^ 46 = s.pos)

/-- An access of a write kind to another part will be answered as unmapped there (R26): which offsets that part maps is
not known here (DESIGN CHOICE, log 128). -/
def State.farHole (s : State) (dpa : Nat) : Bool :=
  dpa / 2 ^ 46 ≠ s.pos && Config.farUnmapped s.freeCtr (dpa / 2 ^ 46) (dpa % 2 ^ 46)

/-- Write bytes at a location: `cls` is the class that has been paid for, none where the write is to be charged now; `entry`
marks a write of an exception entry. -/
def State.storeLoc (s : State) (e : Nat) (l : Loc) (bs : List Byte) (va : W64) (cls : Option Bool) (entry : Bool) : State :=
  match l with
  | .dpa d =>
    if e = steward then s.postWrite (s.srcOf e) 0 (cellsAt (d % 2 ^ 46) bs) va false s.lap
    else
      let (s1, booked) := match cls with | some b => (s, b) | none => s.payFor e d bs.length
      s1.issueWriteAs e d bs va booked entry
  | .sram o => { s with stew := { s.stew with sram := putCells s.stew.sram (cellsAt o bs) } }
  | .third | .trap _ _ | .waits => s

/-- Read bytes at a location as part of a longer step; nothing while they are not here. -/
def State.readLoc (s : State) (e who : Nat) (src : Src) (l : Loc) (pay : Bool) (n : Nat) :
    State × Option (RdStat × List Byte) :=
  match l with
  | .dpa d => s.readFor e who src pay d n
  | .sram o => (s, some (.ok, getBytes s.stew.sram o n))
  | .third | .trap _ _ | .waits => (s, some (.unmapped, []))

/-! ### Instruction bytes -/

/-- The byte of an instruction at an address: as the prefetch queue or a word in flight holds it, else as memory does (R139);
none where fetch cannot read. -/
def State.codeByte (s : State) (e va : Nat) : Option Byte :=
  match ((s.eng e).pq ++ (s.eng e).flight).find? (fun w => w.addr.toNat = va / 16 * 16) with
  | some w => some (BitVec.ofNat 8 (w.bits.toNat / 256 ^ (va % 16)))
  | none =>
    match (s.locate e .fetch (!(s.eng e).arch.sup) va).2 with
    | .dpa d =>
      if !s.reachable d then none
      else if d / 2 ^ 46 = s.pos then some (s.byteIn s.m (d % 2 ^ 46))
      else some (Config.remoteByte s.freeCtr d)
    | .sram o => some (SMap.get 0 s.stew.sram o)
    | .third | .trap _ _ | .waits => none

/-- Length of the instruction at an address (R82); a free value where a byte of it cannot be fetched (DESIGN CHOICE, log 24). -/
def State.peekLen (s : State) (e va : Nat) : Nat :=
  let bs := (List.range 4).map (fun i => s.codeByte e ((va + i) % 2 ^ 64))
  let n := ((bs.take 3).takeWhile (fun b => match b with | some x => 0xE0 ≤ x.toNat | none => false)).length
  if (bs.take (n + 1)).all (fun b => b.isSome) then instrLen (bs.map (fun b => b.getD 0))
  else Config.slotLen va % 16 + 1

end Sys2Proof.Machine
end

