-- ==== Sys2Proof/Machine/Tasks.lean ====
section
/-!
DEFINITION. Tasks (spec/02_laps_and_admission.md): the Ledger, booking, the Task Table, settling and completion
records, dispatch, placement save and restore, budgets, and what a fault of an engine does to its placement (R416).
-/
namespace Sys2Proof.Machine

/-! ### The Ledger (R40, R54, R55) -/

/-- Engine `e` is usable. -/
def State.usable (s : State) (e : Nat) : Bool := e < 512 && !SMap.get false s.blk.badEngine e

/-- A row at its opening (Table 2.2). -/
def State.openRow (s : State) : Row :=
  let scaled := fun (g n : Nat) => g * s.fld (Reg.staScale n) 16 0 / 65536
  let parts := (List.range 32).filter (fun n => s.inDomain n)
  { u := s.uCycles, eng := (s.blk.badEngine.filter (fun p => p.2)).map (fun p => (p.1, 0)),
    hb := s.fld Reg.staCapHb 27 0,
    bulk := parts.foldl (fun m n => SMap.set 0 m n (scaled (s.fld (Reg.staGrantBulk n) 23 0) n)) [],
    dir := parts.foldl (fun m n => SMap.set 0 m n (scaled (s.fld (Reg.staGrantDir n) 19 0) n)) [],
    cxl := parts.foldl (fun m n => SMap.set 0 m n (scaled (s.fld (Reg.staGrantCxl n) 23 0) n)) [],
    ring := parts.foldl (fun m n => if n = s.pos then m else SMap.set 0 m n (s.fld (Reg.staGrantRing n) 15 0)) [],
    plc := [], bad := false }

/-- The row of a Lap. -/
def State.row (s : State) (l : Nat) : Row := SMap.get Row.zero s.sta.rows l

/-- Write the row of a Lap. -/
def State.setRow (s : State) (l : Nat) (r : Row) : State :=
  { s with sta := { s.sta with rows := SMap.set Row.zero s.sta.rows l r } }

/-- A row is opened: in the 16 Laps that a rejoin keeps free and during Dusk or the drain before SERVICE it opens empty (R425, R522, R532). -/
def State.openAt (s : State) (l : Nat) : State :=
  let closed : Bool :=
    s.mode = .dusk || s.fld Reg.pwrDuskStat 31 29 ≠ 0 ||
      (match s.pair.rejoinLap with
       | some c => c ≤ l && l ≤ c + 15
       | none => false)
  s.setRow l (if closed then Row.zero else s.openRow)

/-- The counter of an engine in a row. -/
def Row.ctr (r : Row) (e : Nat) : Nat := SMap.get r.u r.eng e

/-- Write the counter of an engine. -/
def Row.setCtr (r : Row) (e v : Nat) : Row := { r with eng := SMap.set r.u r.eng e v }

/-- Placements that an engine holds in a row. -/
def Row.held (r : Row) (e : Nat) : Nat := (r.plc.filter (fun b => b.engine = e)).length

/-- The engines of a PLACE range (Table 2.3). -/
def placeRange (cv : CostVec) : List Nat :=
  match cv.place with
  | 0 => List.range 512
  | 1 => (List.range 16).map (fun i => cv.placeId * 16 + i)
  | _ => [cv.placeId]

/-- Cycles that a booking takes from an engine (R55). -/
def Row.charge (r : Row) (cv : CostVec) (e : Nat) : Nat := cv.cyc + (if r.held e = 0 then 0 else 192)

/-- The engine that a placement takes in a row (R55). -/
def State.pick (s : State) (cv : CostVec) (r : Row) : Option Nat :=
  if 2048 ≤ r.plc.length then none
  else (placeRange cv).find? (fun e => s.usable e && r.charge cv e ≤ r.ctr e && r.held e < 8)

/-- The reason why a cost vector does not fit a row, with the part it names; reason 0 means that it fits (R54). -/
def State.fits (s : State) (cv : CostVec) (r : Row) : Nat × Nat :=
  if r.bad || s.pick cv r = none then (0x10, 0)
  else if r.hb < cv.hb then (0x11, 0)
  else
    (cv.parts.findSome? (fun p =>
      if SMap.get 0 r.bulk p.part < p.bulk then some (0x12, p.part)
      else if SMap.get 0 r.dir p.part < p.dir then some (0x13, p.part)
      else if SMap.get 0 r.cxl p.part < p.cxl then some (0x14, p.part)
      else if SMap.get 0 r.ring p.part < p.ring then some (0x15, p.part)
      else none)).getD (0, 0)

/-- Deduct (`sub`) or give back the components of a cost vector other than the engine's cycles. -/
def Row.comps (r : Row) (cv : CostVec) (sub : Bool) : Row :=
  let f := fun (x y : Nat) => if sub then x - y else x + y
  cv.parts.foldl (fun r p =>
    { r with
      bulk := SMap.upd 0 r.bulk p.part (fun x => f x p.bulk), dir := SMap.upd 0 r.dir p.part (fun x => f x p.dir),
      cxl := SMap.upd 0 r.cxl p.part (fun x => f x p.cxl), ring := SMap.upd 0 r.ring p.part (fun x => f x p.ring) })
    { r with hb := f r.hb cv.hb }

/-- Book a placement of a Task on an engine in a row (R54, R55). -/
def Row.book (r : Row) (cv : CostVec) (tti e : Nat) : Row :=
  let c := r.charge cv e
  let r1 := (r.setCtr e (r.ctr e - c)).comps cv true
  { r1 with plc := r1.plc ++ [⟨e, tti, c, false⟩] }

/-- Book a Task in the row of a Lap, on the engine that pick chooses. -/
def State.bookLap (s : State) (cv : CostVec) (tti l : Nat) : State :=
  match s.pick cv (s.row l) with
  | none => s
  | some e => s.setRow l ((s.row l).book cv tti e)

/-- Take a Task's bookings out of a row and give their capacity back. -/
def Row.release (r : Row) (cv : CostVec) (tti : Nat) : Row :=
  (r.plc.filter (fun b => b.tti = tti)).foldl
    (fun r b => ((r.setCtr b.engine (r.ctr b.engine + b.charge)).comps cv false))
    { r with plc := r.plc.filter (fun b => b.tti ≠ tti) }

/-! ### The Task Table (R48, R49) -/

/-- A Task Table entry. -/
def State.task (s : State) (t : Nat) : Task := SMap.get Task.empty s.sta.tasks t

/-- Change a Task Table entry. -/
def State.updTask (s : State) (t : Nat) (f : Task → Task) : State :=
  { s with sta := { s.sta with tasks := SMap.upd Task.empty s.sta.tasks t f } }

/-- The first number from `n` on that a rising list of keys does not hold. -/
def firstGap (n : Nat) : List Nat → Nat
  | [] => n
  | k :: t => if k = n then firstGap (n + 1) t else n

/-- The lowest-numbered FREE entry (R48). -/
def State.freeTask (s : State) : Option Nat :=
  let n := firstGap 0 (s.sta.tasks.map (fun p => p.1))
  if n < 65536 then some n else none

/-- Give back a Task's bookings: in rows not yet current they return; in the current row they are not run. -/
def State.returnBookings (s : State) (t : Nat) : State :=
  let cv := (s.task t).cv
  let rows := SMap.remap Row.zero (fun l r =>
    if s.lap < l then r.release cv t else { r with plc := r.plc.filter (fun b => b.tti ≠ t || b.taken) }) s.sta.rows
  ({ s with sta := { s.sta with rows := rows, openq := s.sta.openq.filter (fun x => x ≠ t) } }).updTask
    t (fun x => { x with lapsLeft := 0 })

/-! ### Completion records (R472, Table 14.4) -/

/-- The completion queue of a submission queue. -/
def State.cqOf (s : State) (q : Nat) : Nat := s.fld (Reg.hostSqCfg q) 29 24

/-- A completion queue's hidden state. -/
def State.cq (s : State) (q : Nat) : CQueue := SMap.get CQueue.init s.host.cq q

/-- Change a completion queue. -/
def State.updCq (s : State) (q : Nat) (f : CQueue → CQueue) : State :=
  { s with host := { s.host with cq := SMap.upd CQueue.init s.host.cq q f } }

/-- A record joins the records waiting at a completion queue. -/
def State.hold (s : State) (q : Nat) (r : CRec) : State := s.updCq q (fun x => { x with held := x.held ++ [r] })

/-- OUTCOME's code (Tables 2.6, 14.4). -/
def Outcome.code : Outcome → Nat
  | .none => 0 | .delivered => 1 | .overrun => 2 | .failed => 3 | .cancelled => 4

/-- Word 0 of a record. -/
def crecW0 (cid sq ovr : Nat) (xlate late : Bool) (outcome ty : Nat) : W64 :=
  BitVec.ofNat 64 (cid % 65536 * 2 ^ 48 + sq % 256 * 2 ^ 40 + ovr % 64 * 2 ^ 26 + xlate.toNat * 2 ^ 25 +
    late.toNat * 2 ^ 24 + outcome % 16 * 2 ^ 16 + ty % 256)

/-- Word 1 of a record. -/
def crecW1 (sqhead vector part reason tti : Nat) : W64 :=
  BitVec.ofNat 64 (sqhead % 4096 * 2 ^ 40 + vector % 256 * 2 ^ 32 + part % 32 * 2 ^ 24 + reason % 256 * 2 ^ 16 +
    tti % 65536)

/-- The COMPLETE record of a settled Task. -/
def State.completeRec (s : State) (tti : Nat) : CRec :=
  let t := s.task tti
  { w0 := crecW0 t.cid t.sq t.ovr.toNat t.xlate t.late t.outcome.code 0x01,
    w1 := crecW1 t.sqhead t.vector 0 t.cause tti, w2 := BitVec.ofNat 64 t.settleLap, w3 := BitVec.ofNat 64 t.cyc,
    frees := some tti }

/-- The COMPLETE record of a refusal (R53). -/
def State.refusal (s : State) (m : Subm) (reason part : Nat) : CRec :=
  { w0 := crecW0 (bitsOf m.r.w0.toNat 31 16) m.sq 0 false false 5 0x01, w1 := crecW1 m.sqhead 0 part reason 0,
    w2 := BitVec.ofNat 64 s.lap, w3 := 0, frees := none }

/-! ### Settling (R58, R59, R61, R67, R473) -/

/-- Settle a Task (R49): outcome, late, counters, bookings returned, its record waiting to be posted. -/
def State.settle (s : State) (tti : Nat) (o : Outcome) (cause vector : Nat) : State :=
  let t := s.task tti
  if t.st = .free || t.st = .settled then s
  else
    let late := t.cls ≠ 2 && t.deadlineLap < s.lap
    let s1 := (s.returnBookings tti).updTask tti (fun x =>
      { x with
        st := .settled, outcome := o, cause := cause, vector := vector, settleLap := s.lap, late := late,
        ovr := if o = .overrun && x.ovr = 0 then 1 else x.ovr })
    let s2 := if o = .overrun then s1.add64 Reg.staCountOverrun 1 else s1
    let s3 := if late then s2.add64 Reg.staCountLate 1 else s2
    s3.hold (s3.cqOf t.sq) (s3.completeRec tti)

/-- Settle a Task Failed with a cause of Table 14.5. -/
def State.fail (s : State) (tti cause : Nat) : State := s.settle tti .failed cause 0

/-! ### Placement save and restore (Table 5.11) -/

/-- A byte list of 64-bit words. -/
def wordBytes (ws : List W64) : List Byte := ws.flatMap (fun w => leBytes 8 w.toNat)

/-- The bytes of a descriptor. -/
def Desc.bytes (d : Desc) : List Byte := wordBytes [d.w0, d.w1, d.w2, d.w3]

/-- The save area's image of a placement state, with its resume records (Table 5.11). -/
def Arch.saveBytes (a : Arch) (recs : List VRec) : List Byte :=
  let ds : W64 := match a.ds with | some d => BitVec.ofNat 64 (d.taken.toNat * 2 + 1) | none => 0
  let bt : W64 := match a.ds with | some d => d.target | none => 0
  let errq := (List.range 4).flatMap (fun c =>
    match a.errq.find? (fun x => x.cls = c) with
    | some x => wordBytes [BitVec.ofNat 64 (2 ^ 63 + c), x.addr, BitVec.ofNat 64 x.count]
    | none => wordBytes [BitVec.ofNat 64 0, 0, 0])
  wordBytes [a.pc, a.psr, a.flags, BitVec.ofNat 64 (a.pkr.toNat * 2 ^ 32 + a.ctxid.toNat), a.ttb, a.evec, a.esp,
    a.holdcnt.setWidth 64, a.g31u, a.g31s, a.vstate, BitVec.ofNat 64 (a.erract.toNat * 2 + a.escact.toNat)] ++
  wordBytes ((List.range 3).map (fun i => SMap.get 0 a.ls i)) ++
  wordBytes ((List.range 3).map (fun i => SMap.get 0 a.le i)) ++
  wordBytes ((List.range 3).map (fun i => SMap.get 0 a.lc i)) ++ wordBytes [ds, bt] ++ List.replicate 72 0 ++
  wordBytes ((List.range 31).map (fun i => SMap.get 0 a.g i)) ++ List.replicate 8 0 ++
  ((List.range 32).flatMap (fun i => leBytes 16 (a.rdQ i).toNat)) ++
  ((List.range 8).flatMap (fun i => (SMap.get Desc.zero a.str i).bytes)) ++
  ((List.range 24).flatMap (fun i => match recs[i]? with | some r => r.bytes | none => List.replicate 24 0)) ++
  errq ++ List.replicate 96 0

/-- The placement state that a save area's image gives (R150). -/
def archOf (bs : List Byte) : Arch :=
  let w := fun (o : Nat) => ofLe ((bs.drop o).take 8)
  let v := fun (o : Nat) => (BitVec.ofNat 64 (w o) : W64)
  let regs := fun (o n : Nat) => (List.range n).foldl (fun (m : SMap W64) i => SMap.set 0 m i (v (o + 8 * i))) []
  { pc := v 0x000,
    ds := if bitsOf (w 0x0A8) 0 0 = 1 then some ⟨bitsOf (w 0x0A8) 1 1 = 1, false, v 0x0B0⟩ else none,
    g := regs 0x100 31, g31u := v 0x040, g31s := v 0x048,
    q := (List.range 32).foldl (fun (m : SMap W128) i =>
      SMap.set 0 m i (BitVec.ofNat 128 (ofLe ((bs.drop (0x200 + 16 * i)).take 16)))) [],
    psr := v 0x008 &&& (psrMask ||| 1), flags := v 0x010 &&& flagsMask,
    pkr := BitVec.ofNat 32 (w 0x018 / 2 ^ 32), ctxid := BitVec.ofNat 16 (w 0x018),
    ttb := v 0x020 &&& 0x000FFFFFFFFF0001, evec := v 0x028 &&& 0x007FFFFFFFFFFF00,
    esp := BitVec.ofNat 64 (w 0x030 % 2 ^ 19), holdcnt := BitVec.ofNat 32 (w 0x038 % 2 ^ 13),
    vstate := BitVec.ofNat 64 (bitsOf (w 0x050) 63 39 * 2 ^ 39 + w 0x050 % 2 ^ 32),
    ls := regs 0x060 3, le := regs 0x078 3, lc := regs 0x090 3,
    str := (List.range 8).foldl (fun (m : SMap Desc) i =>
      let o := 0x400 + 32 * i
      SMap.set Desc.zero m i ⟨v o, v (o + 8), v (o + 16), v (o + 24)⟩) [],
    errq := ((List.range 4).filter (fun c => bitsOf (w (0x740 + 24 * c)) 63 63 = 1)).map
      (fun c => ⟨c, v (0x748 + 24 * c), w (0x750 + 24 * c), 0⟩),
    escact := bitsOf (w 0x058) 0 0 = 1, erract := bitsOf (w 0x058) 1 1 = 1 }

/-- Write bytes at a local DPA at once: the saves of placements, which no placement pays for. A failed channel discards
them, and a part of a poisoned word is not written (R300, R306). -/
def State.putNow (s : State) (src : Src) (epoch dpa : Nat) (bs : List Byte) : State :=
  let cs := cellsAt (dpa % 2 ^ 46) bs
  (splitCells (unitBytes (s.tier (dpa % 2 ^ 46))) cs).foldl (fun s c =>
    s.performReq (src.req epoch ((c.map (fun x => x.1)).headD 0) (.write c) (BitVec.ofNat 64 dpa) true s.lap) .clean) s

/-- An annulled delay slot that is pending at a stop counts as retired (R594). -/
def State.dropAnnulled (s : State) (e : Nat) : State :=
  match (s.eng e).arch.ds with
  | none => s
  | some d =>
    if !d.annul then s
    else if d.taken then
      s.updEng e (fun x => { x with arch := { x.arch with pc := d.target, ds := none } })
    else
      let a := (s.eng e).arch
      let len := s.peekLen e a.pc.toNat
      let (a1, next) := { a with ds := none }.endTest (a.pc + BitVec.ofNat 64 len) a.ld
      s.updEng e (fun x => { x with arch := { a1 with pc := next } })

/-- Save the placement state of an engine to a save area (R149, R150): the whole area, as kind 4 records of
the engine's digest (R405). -/
def State.savePlacement (s0 : State) (e dpa : Nat) : State :=
  let s := s0.dropAnnulled e
  let a := (s.eng e).arch
  let recs := (List.range (vsNrec a.vstate)).map (fun i => s.readRecord e i)
  let bs := a.saveBytes recs
  let s1 := s.putNow (.engine s.pos e) (s.epochOf e) dpa bs
  (wordsOf dpa bs).foldl (fun s w => s.digestRec e 4 w.1 w.2.1 w.2.2) s1

/-- The initial state of a Task (R470). -/
def Task.initArch (t : Task) : Arch :=
  { Arch.init with
    pc := t.entry, ttb := t.ttb &&& 0x000FFFFFFFFF0001, pkr := t.pkr, ctxid := t.ctxid,
    g := SMap.set 0 (SMap.set 0 [] 1 t.arg0) 2 t.arg1 }

/-- The budget of a placement (R56). -/
def CostVec.budget (cv : CostVec) : Budget :=
  { cyc := cv.cyc, hb := cv.hb,
    parts := cv.parts.foldl (fun m p =>
      SMap.set PartBudget.none m p.part ⟨true, p.bulk, p.dir, p.cxl, p.ring⟩) [] }

/-! ### Dispatch (R37, R49, R60, R591) -/

/-- In mirrored operation the placements of a Lap are kept for the decision of R408. -/
def State.noteRan (s : State) (e tti : Nat) : State :=
  if s.mirroredNow then
    { s with pair := { s.pair with ran := s.pair.ran ++ [(s.lap, e, tti, (s.task tti).epoch)] } }
  else s

/-- An engine takes a placement of a Task; its state is loaded by PLACEMENT_RESTORE. -/
def State.takePlacement (s : State) (e tti : Nat) (isOpen : Bool) : State :=
  let t := s.task tti
  let s1 := (s.noteRan e tti).updEng e (fun x =>
    { x with
      running := false, waite := none, pend := none,
      place := some { tti := tti, lap := s.lap, isOpen := isOpen, epoch := t.epoch, budget := t.cv.budget, cyc := 0,
                      restored := false, save := t.saveDpa } })
  let s2 := s1.updTask tti (fun x =>
    { x with st := .running, engine := e, lapsLeft := if isOpen then x.lapsLeft else x.lapsLeft - 1 })
  if isOpen then { s2 with sta := { s2.sta with openq := s2.sta.openq.filter (fun x => x ≠ tti) } }
  else
    let r := s2.row s2.lap
    s2.setRow s2.lap { r with
      plc := r.plc.map (fun b => if b.engine = e ∧ b.tti = tti then { b with taken := true } else b) }

/-- The first placement booked on an engine in the current row that has not been taken: placements run in the order in which
they were booked (R55), also one of a Task that another engine still holds, whose sweep is to come. -/
def State.nextBooked (s : State) (e : Nat) : Option Nat :=
  ((s.row s.lap).plc.find? (fun b =>
    b.engine = e && !b.taken && ((s.task b.tti).st = .booked || (s.task b.tti).st = .parked || (s.task b.tti).st = .running) &&
      (s.task b.tti).ovr = 0)).map (fun b => b.tti)

/-- The oldest waiting Open Task whose PLACE range includes the engine (R60); one whose save is not done yet does not
wait. -/
def State.nextOpen (s : State) (e : Nat) : Option Nat :=
  s.sta.openq.find? (fun t => (s.task t).st = .queued && (placeRange (s.task t).cv).contains e &&
    !s.engines.any (fun p => match p.2.place with | some q => q.tti = t | none => false))

/-- The engine has no placement, and wants no answer of the one it had (R38). -/
def State.clearPlace (s : State) (e : Nat) : State :=
  (s.dropReads e).updEng e (fun x =>
    { x with running := false, place := none, waite := none, pend := none, vinsts := [], chains := [], lbuf := none,
             entry := none, reissue := none, arch := { x.arch with errq := [], escact := false, erract := false } })

/-- Engine cycles used join CYC_TOTAL, which saturates (Table 2.6): when the placement stops or ends. Whether a snapshot
shows the cycles of a placement in progress the spec does not say (DESIGN CHOICE, log 130). -/
def State.chargeCyc (s : State) (e : Nat) : State :=
  match (s.eng e).place with
  | none => s
  | some p => s.updTask p.tti (fun t => { t with cyc := Nat.min (t.cyc + p.cyc) 0xFFFFFFFF })

/-- The next placement booked in the Lap begins on the engine (R591). -/
def State.advanceEngine (s : State) (e : Nat) : State :=
  if e < 512 && s.usable e && !(s.eng e).hung && s.runs then
    match s.nextBooked e with
    | some t => s.takePlacement e t false
    | none => s
  else s

/-- The placement of an engine ends without a save and the next one begins. -/
def State.endPlacement (s : State) (e : Nat) : State := ((s.chargeCyc e).clearPlace e).advanceEngine e

/-- The Task whose placement an engine holds is settled Failed and the engine goes on (R158, R163, R473). -/
def State.failPlacement (s : State) (e cause vector : Nat) : State :=
  match (s.eng e).place with
  | none => s
  | some p => (((s.chargeCyc e).settle p.tti .failed cause vector).clearPlace e).advanceEngine e

/-- An ERROR whose entry has not been completed goes back to the queue (R173). -/
def Engine.undoEntry (x : Engine) : Engine :=
  match x.entry with
  | some en =>
    match en.err with
    | some c => { x with entry := none, arch := { x.arch with
        errq := addErr (x.arch.errq.filter (fun y => y.cls ≠ c)) ⟨c, en.f.faddr, en.f.aux.toNat +
          ((x.arch.errq.filter (fun y => y.cls = c)).map (fun y => y.count)).foldl (· + ·) 0, 0⟩ } }
    | none => { x with entry := none }
  | none => x

/-- Stop an engine's issue: long vectors stop at an element boundary, unanswered reads and walks are abandoned, an entry
not completed is to be made again, a WAITE completes, the loop buffer empties (R37, R38, R111, R130, R211, R215, R327). -/
def State.stopIssue (s : State) (e : Nat) : State :=
  let s1 := if (s.eng e).vecBusy then s.vStop e none true else s
  ((s1.dropReads e).updEng e Engine.undoEntry).updEng e (fun x =>
    { x with
      running := false, pend := none, waite := none, lbuf := none,
      arch := match x.waite with | some w => x.arch.retire w.2 .next | none => x.arch })

/-- What the part keeps with a Task between its placements, beside the save area (DEDUCED, log 15): where the frame of the
ERROR in force lies, and the Lap of a TLBI DOMAIN that a TSYNC has still to wait for (R339). -/
def Task.keep (t : Task) (x : Engine) : Task := { t with errFrame := x.errFrame, tsync := x.tsyncLap }

/-- A placement is stopped under R57: saved, its Task parked while it still holds a booking, the next one begun. -/
def State.stopUnder57 (s : State) (e : Nat) : State :=
  match (s.eng e).place with
  | none => s
  | some p =>
    let s0 := s.stopIssue e
    let s1 := if p.restored then (s0.savePlacement e p.save).updTask p.tti (fun t => { t.keep (s0.eng e) with started := true }) else s0
    let s2 := (s1.chargeCyc e).clearPlace e
    (s2.updTask p.tti (fun t =>
      { t with st := if t.lapsLeft = 0 then t.st else .parked })).advanceEngine e

/-! ### Epochs (R415) -/

/-- The next epoch that has no retired entry here; the counter runs from 1 to 0xFFFE. -/
def State.nextEpoch (s : State) : State × Nat :=
  let inc := fun (x : Nat) => if x = 0xFFFE then 1 else x + 1
  let free := fun (x : Nat) => !s.flt.retired.any (fun r => r.part = s.pos && r.epoch = x)
  let x := (List.range 65).foldl (fun (x : Nat) _ => if free x then x else inc x) s.sta.epochCtr
  ({ s with sta := { s.sta with epochCtr := inc x } }, x)

/-! ### Faults of an engine (R409, R416) -/

/-- Begin a fence of an epoch of a part (R416). -/
def State.beginFence (s : State) (part epoch lap : Nat) : State :=
  if s.flt.fences.any (fun f => f.part = part ∧ f.epoch = epoch) then s
  else { s with flt := { s.flt with fences := s.flt.fences ++ [⟨part, epoch, lap, false⟩] } }

/-- Retired entries of this part's epochs. -/
def State.ownRetired (s : State) : Nat := (s.flt.retired.filter (fun r => r.part = s.pos)).length

/-- A sweep of part `n` covers its Laps up to `f` (R417): its requests of those Laps that wait here are dropped and counted. -/
def State.sweepPart (s : State) (n f : Nat) : State :=
  let s1 : State := { s with flt := { s.flt with sweeps := SMap.ins s.flt.sweeps n f } }
  let gone := s1.m.memq.filter (fun r => (match r.src with | .engine k _ => k = n | .master _ _ => false) && r.lap ≤ f)
  (gone.foldl (fun s r => (s.dropReq r).loseReq r) s1).add64 Reg.fltCntEpochdrop gone.length

/-- A sweep (R417): every engine stops; every running or booked Task is to be handled as R418 gives. -/
def State.sweepOwn (s : State) : State :=
  let f := s.lap
  let s1 := s.collect (s.mkRec 0x05 2 (originOf s.pos 7 0) 0 0xFFFF 0 0) .own
  let victims := (s1.sta.tasks.filter (fun p =>
    (p.2.st = .running || p.2.st = .booked || p.2.st = .parked) && !s1.flt.rerun.any (fun q => q.1 = p.1))).map (fun p => p.1)
  let s2 := (s1.listed.filter (fun e => e < 512)).foldl (fun s e => (s.chargeCyc e).clearPlace e) s1
  let s3 := victims.foldl (fun s t => s.returnBookings t) s2
  ({ s3 with flt := { s3.flt with rerun := s3.flt.rerun ++ victims.map (fun t => (t, f)) } } : State).sweepPart s3.pos f

/-- An engine fault stops a placement without save (R282, R416): in SOLO, RING and DEGRADED its bookings return and its epoch
is fenced; STATE stays as it is until the re-run (R49, R418). In mirrored modes the record identifies the side (R411). The
engine takes its next booked placement in every mode. Replay has no partner and is handled as SOLO. -/
def State.engineFault (s : State) (e cls addr detail : Nat) : State :=
  match (s.eng e).place with
  | none => s.fault cls (originOf s.pos 0 e) addr 0 0 detail
  | some p =>
    let s1 := s.fault cls (originOf s.pos 0 e) addr p.epoch p.tti detail
    let s2 := (s1.chargeCyc e).clearPlace e
    if s2.mirroredNow then s2.advanceEngine e
    else if 64 ≤ s2.ownRetired then s2.sweepOwn
    else
      let s3 := (s2.returnBookings p.tti).beginFence s2.pos p.epoch s2.lap
      ({ s3 with flt := { s3.flt with rerun := s3.flt.rerun ++ [(p.tti, s3.lap)] } }).advanceEngine e

/-- An engine is marked unusable (R64): its counter is 0 in every row not yet current; a move is to be made. -/
def State.loseEngine (s : State) (e : Nat) : State :=
  { s with
    blk := { s.blk with badEngine := SMap.set false s.blk.badEngine e true, unsaved := true },
    sta := { s.sta with
      moving := true,
      rows := SMap.remap Row.zero (fun l r => if s.lap < l then r.setCtr e 0 else r) s.sta.rows } }

/-- A parity error of an engine (Table 12.5): stopped without save, unusable, its placement fenced. -/
def State.engineParity (s : State) (e : Nat) (pc : W64) : State :=
  let s1 := s.engineFault e 0x07 pc.toNat 0
  if s1.mirroredNow then s1 else s1.loseEngine e

/-- A re-execution of `cost` cycles uses that much of the allowance, which saturates (R280, R283). EN_PMC_CYC counts its
cycles; the placement's budget, AUX and CYC_TOTAL do not (R281, R561). -/
def State.reExecuted (s : State) (e cost : Nat) : State :=
  let used := s.fld (Reg.enResStat e) 6 0
  let s1 := s.setFld (Reg.enResStat e) 6 0 (Nat.min (used + cost) 127)
  if s1.pmcOn then s1.add64 (Reg.enPmcCyc e) cost else s1

/-- A residue mismatch that the re-execution corrects (R280, R281): RESIDUE in the error queue and at the Fault
Collector, CORR counted, `cost` cycles of the allowance used. False means that the allowance of 96 is exhausted. -/
def State.residueOnce (s : State) (e : Nat) (pc : W64) (cost : Nat) : State × Bool :=
  let used := s.fld (Reg.enResStat e) 6 0
  if 96 < used + cost then (s, false)
  else
    let s1 := ((s.satInc (Reg.enResStat e) 23 16).reExecuted e cost).pushErr e 2 pc
    (s1.fault 0x04 (originOf s.pos 0 e) pc.toNat (s.epochOf e) 0 0, true)

/-- A second mismatch or an exhausted allowance (R282): RESIDUE_HARD. A re-execution that the allowance has room for has
been made, `cost` cycles of it. -/
def State.residueHard (s : State) (e : Nat) (pc : W64) (cost : Nat) : State :=
  let s1 := if s.fld (Reg.enResStat e) 6 0 + cost ≤ 96 then s.reExecuted e cost else s
  (s1.satInc (Reg.enResStat e) 31 24).engineFault e 0x05 pc.toNat 0

end Sys2Proof.Machine
end

