-- ==== Sys2Proof/Machine/Exceptions.lean ====
section
/-!
DEFINITION. Exceptions (spec/05_exceptions.md): where an engine's accesses go, taking an exception with its frame,
vector and handler, Escalation and third faults, the return from them, interrupts and error reports. The commands
EXCEPTION_ENTRY, INTERRUPT, ERROR and HOLDCNT_ZERO.
-/
namespace Sys2Proof.Machine

/-! ### The frame (Table 5.2) -/

/-- The eight words of a frame for the state before entry (Table 5.2). -/
def Frame.words (f : Frame) (a : Arch) : List W64 :=
  let ds := a.ds.isSome
  let bt : Bool := match a.ds with | some d => d.taken | none => false
  let tgt : W64 := match a.ds with | some d => d.target | none => 0
  [a.pc, a.psr, a.flags,
    BitVec.ofNat 64 (f.hld.toNat * 2 ^ 51 + f.vecStop.toNat * 2 ^ 50 + bt.toNat * 2 ^ 49 + ds.toNat * 2 ^ 48 +
      f.estep % 16 * 2 ^ 44 + f.evec % 256 * 2 ^ 32 + f.detail % 65536 * 2 ^ 8 + f.vec % 256),
    f.faddr, tgt, a.g31u, f.aux]

/-- PSR after entry: PRIV 1, IE 0, LD 0 (R155). -/
def entryPsr (p : W64) : W64 := (p &&& ~~~(0x302 : W64)) ||| 1

/-- Flush of the branch predictor (R136), and of what fetch holds. -/
def Engine.refetch (x : Engine) (flush : Bool) : Engine :=
  { x with btb := if flush then [] else x.btb, pq := [], flight := [], lbuf := none, fetches := x.fetches + 1,
             got := x.got.filter (fun g => g.who < 1000) }

/-! ### Steward reset and third faults (R31, R163) -/

/-- The Steward is reset as by an expiry of its watchdog; its firmware is reloaded
from the copy held since Dawn, and a second expiry within 256 Laps halts it (R31). -/
def State.stewardExpire (s : State) : State :=
  let halt : Bool := match s.stew.lastExpiry with | some l => s.lap ≤ l + 256 | none => false
  let s1 := s.fault 0x12 (originOf s.pos 6 1) 0 0 0 0
  { s1.setEng steward { Engine.init with running := !halt } with
    stew := { s1.stew with
      up := !halt, halted := halt, kickLap := s1.lap, lastExpiry := some s1.lap,
      sram := putCells s1.stew.sram s1.img.fw } }

/-- A third fault (R163). -/
def State.thirdFault (s : State) (e : Nat) : State :=
  if e = steward then s.stewardExpire
  else
    let s1 := s.satInc (Reg.enExcStat e) 23 16
    let (epoch, tti) := match (s1.eng e).place with | some p => (p.epoch, p.tti) | none => (0, 0)
    let s2 := s1.fault 0x06 (originOf s.pos 0 e) 0 epoch tti 0
    let s3 := s2.dropReads e
    let s4 := s3.updEng e (fun x =>
      { x.refetch true with
        arch := { x.arch with g := [], g31u := 0, g31s := 0, q := [] }, itlb := [], dtlb := [], l2 := [],
        vinsts := [], chains := [], waite := none, pend := none, entry := none, reissue := none })
    s4.failPlacement e 0x02 0

/-! ### Taking an exception (R152 to R163) -/

/-- A byte range of ESP that an Escalation frame may use (R163). -/
def espOk (p : Nat) : Bool := p % 8 = 0 && 0x3F840 ≤ p && p ≤ 0x40000

/-- Escalation entry (R160, R162): the frame at ESP − 64, the handler at 0x3_E000. -/
def State.escalate (s : State) (e : Nat) (f : Frame) (step evec : Nat) : State :=
  let a := (s.eng e).arch
  let p := a.esp.toNat
  if !espOk p then s.thirdFault e
  else
    let l := s.escLoc e (p - 64)
    let s1 := s.storeLoc e l (wordBytes ({ f with estep := step, evec := evec }.words a)) (BitVec.ofNat 64 (p - 64)) none true
    (s1.satInc (Reg.enExcStat e) 31 24).updEng e (fun x =>
      { x.refetch (!a.sup) with
        entry := none, errFrame := if f.vec = 0x10 then some .esc else x.errFrame,
        arch := { a with esp := BitVec.ofNat 64 (p - 64), psr := entryPsr a.psr, pc := 0x3E000, ds := none,
                         escact := true, erract := a.erract || f.vec = 0x10, vstate := x.arch.vstate } })

/-- Where a frame word goes: a fault that its push meets stands as a trap (R157, R160). -/
def State.pushLoc (s : State) (e va : Nat) : State × Loc :=
  if va % 8 ≠ 0 then (s, .trap 0x07 0)
  else if 2 ^ 55 ≤ va then (s, .trap 0x08 0)
  else
    match s.locate e .write false va with
    | (s1, .dpa d) =>
      if !s1.reaches e d then (s1.unmapped e d, .trap 0x0A 0)
      else if s1.farHole d then (s1, .trap 0x0A 0)
      else (s1, .dpa d)
    | (s1, .third) => (s1, .trap 0x08 0)
    | (s1, l) => (s1, l)

/-- How a frame push stands: done, ended by a fault with a vector, or waiting with some words pushed. -/
inductive PushEnd where
  | done
  | fault (vec : Nat)
  | waits (pushed : Nat) (booked : Bool)

/-- A frame word is charged where its unit begins (R593). -/
def State.payWord (s : State) (e i va : Nat) (l : Loc) (booked : Bool) : State × Bool :=
  match l with
  | .dpa d => if i = 0 || va % unitLen (d % 2 ^ 46) = 0 then s.payFor e d 8 else (s, booked)
  | .sram _ | .third | .trap _ _ | .waits => (s, booked)

/-- Push the words of a frame one by one, from word `i` on. -/
def State.pushWords (s : State) (e va i : Nat) (booked : Bool) : List W64 → State × PushEnd
  | [] => (s, .done)
  | w :: t =>
    match s.pushLoc e va with
    | (s1, .waits) => (s1, .waits i booked)
    | (s1, .trap v _) => (s1, .fault v)
    | (s1, l) =>
      let (s2, b) := s1.payWord e i va l booked
      (s2.storeLoc e l (leBytes 8 w.toNat) (BitVec.ofNat 64 va) (some b) true).pushWords e (va + 8) (i + 1) b t

/-- What a read of the entry itself gives: a value, or the vector of the fault that it meets. -/
inductive EntryRead where
  | value (v : Nat)
  | fault (vec : Nat)
  | waits

/-- A read of `n` bytes of instruction memory at an address during an entry, by requester `who` (R157, R160): a fault in
translation has vector 0x01, an uncorrectable error 0x02, an unmapped address 0x0A (DEDUCED, log 129). `paid` says that the
read is not charged when it lies in a Home Bank of the engine's own cluster. -/
def State.entryRead (s : State) (e who va at_ n : Nat) (code : Bool) : State × EntryRead :=
  if 2 ^ 55 ≤ va then (s, .fault 0x01)
  else
    match s.locate e .fetch false va with
    | (s1, .trap v _) => (s1, .fault v)
    | (s1, .third) => (s1, .fault 0x01)
    | (s1, .waits) => (s1, .waits)
    | (s1, .sram o) => (s1, .value (ofLe (getBytes s1.stew.sram (o / at_ * at_) n)))
    | (s1, .dpa d) =>
      if !s1.reaches e d then (s1.unmapped e d, .fault 0x0A)
      else
        match s1.readLoc e who (s1.srcOf e) (.dpa (d / at_ * at_)) (!(code && s1.ownCluster e d)) n with
        | (s2, none) => (s2, .waits)
        | (s2, some (.ok, bs)) => (s2, .value (ofLe bs))
        | (s2, some (.poison, _)) => (s2, .fault 0x02)
        | (s2, some (.unmapped, _)) => (s2, .fault 0x0A)

/-- Re-issue of the stopped instructions as a return with VEC set makes it (R170, R216); a record that fails a check
leaves its cause, to be raised as ILLEGAL. -/
def State.resumeVec (s : State) (e : Nat) (vec : Bool) : State × Option Nat :=
  if vec then
    match s.reissue e with
    | (s1, .bad c) => (s1, some c)
    | (s1, .done) | (s1, .waits) => (s1, none)
  else (s, none)

/-- An entry is over without a handler: what it has read is dropped. -/
def State.endEntry (s : State) (e : Nat) : State :=
  (s.updEng e (fun x => { x with entry := none })).dropGot e 5 |>.dropGot e 6

/-- A vector entry of 0 (R158, R173): an ERROR of class 2 or 3 is discarded and the placement goes on, as a return with VEC
would let it, `bad` raising the cause of a record that fails a check; else the Task fails. The Steward, which has no Task,
escalates at step 2 with the cause's own vector (DEDUCED, log 86). -/
def State.noHandler (s : State) (e : Nat) (en : Entry) (bad : State → Nat → State) : State :=
  let s1 := s.endEntry e
  if e = steward then s1.escalate e en.f 2 en.f.vec
  else
    match en.err with
    | some c =>
      if 2 ≤ c then
        match (s1.satInc (Reg.enExcStat e) 15 8).resumeVec e en.f.vecStop with
        | (s2, none) => s2
        | (s2, some k) => bad s2 k
      else s1.failPlacement e 0x01 en.f.vec
    | none => s1.failPlacement e 0x01 en.f.vec

/-- The handler is entered (R154, R155): its first word is in the queue. -/
def State.beginHandler (s : State) (e : Nat) (en : Entry) (h : W64) (bits : Nat) : State :=
  let a := (s.eng e).arch
  let sp := a.g31s - 64
  let s1 := (s.endEntry e).updEng e (fun x =>
    { x.refetch (!a.sup) with
      pq := [⟨BitVec.ofNat 64 (h.toNat / 16 * 16), BitVec.ofNat 128 bits⟩],
      errFrame := if en.err.isSome then some (.stack sp) else x.errFrame,
      arch := { x.arch with
        g31s := sp, psr := entryPsr a.psr, pc := h, ds := none, erract := a.erract || en.err.isSome } })
  if e < 512 && s1.pmcOn then s1.add64 (Reg.enPmcFetch e) 1 else s1

/-- Entry proper, once long vectors have stopped (R154 to R160): frame push, vector read, handler fetch, each of which may
have to wait; what has been done so far stands in the engine. -/
def State.enterAs (s : State) (e : Nat) (en : Entry) (bad : State → Nat → State) : State :=
  let a := (s.eng e).arch
  let sp := (a.g31s - 64).toNat
  let stay := fun (s : State) (n : Nat) (b : Bool) =>
    s.updEng e (fun x => { x with entry := some { en with pushed := n, booked := b } })
  match s.pushWords e (sp + 8 * en.pushed) en.pushed en.booked ((en.f.words a).drop en.pushed) with
  | (s1, .waits n b) => stay s1 n b
  | (s1, .fault v) => (s1.endEntry e).escalate e en.f 1 v
  | (s1, .done) =>
    match s1.entryRead e 5 (a.evec.toNat + 8 * en.f.vec) 8 8 false with
    | (s2, .waits) => stay s2 8 en.booked
    | (s2, .fault v) => (s2.endEntry e).escalate e en.f 2 v
    | (s2, .value h) =>
      if h = 0 then s2.noHandler e en bad
      else
        match s2.entryRead e 6 h 16 16 true with
        | (s3, .waits) => stay s3 8 en.booked
        | (s3, .fault v) => (s3.endEntry e).escalate e en.f 3 v
        | (s3, .value bits) => s3.beginHandler e en (BitVec.ofNat 64 h) bits

/-- What every recognised cause does first (R152, R169): long vectors stop, unanswered reads are abandoned; then the frame
is built from the state before entry. -/
def State.recognise (s : State) (e vec detail : Nat) (faddr : W64) (cause : Option (Nat × Nat × Nat)) (stopped : Bool)
    (err : Option (Nat × Nat)) : State × Entry :=
  let x := s.eng e
  let any := x.vecBusy
  let s1 := if any then s.vStop e cause false else s
  let cyc := match x.place with | some p => p.cyc | none => 0
  let f : Frame :=
    { vec := vec, detail := detail, faddr := faddr,
      aux := match err with | some p => BitVec.ofNat 64 p.2 | none => BitVec.ofNat 64 cyc,
      hld := x.arch.holdcnt ≠ 0, vecStop := any || stopped, estep := 0, evec := 0 }
  ((s1.dropReads e).updEng e (fun x => { x with waite := none, pend := none }),
    ⟨f, err.map (fun p => p.1), 0, true⟩)

/-- ILLEGAL of a resume record that fails a check (R216), raised as long vectors stand stopped. -/
def State.recordFails (s : State) (e c : Nat) : State :=
  let (s1, en) := s.recognise e 0x03 c 0 none true none
  s1.enterAs e en (fun s _ => s)

/-- Entry goes on, or begins. -/
def State.enter (s : State) (e : Nat) (en : Entry) : State := s.enterAs e en (fun s c => s.recordFails e c)

/-- Taking an exception, the one operation that every cause of entry uses. `cause` names the long-vector element that
caused it, `stopped` says that long vectors stand stopped already (R216). -/
def State.except (s : State) (e vec detail : Nat) (faddr : W64) (cause : Option (Nat × Nat × Nat)) (stopped : Bool)
    (err : Option (Nat × Nat)) : State :=
  if (s.eng e).arch.escact then s.thirdFault e
  else
    let (s1, en) := s.recognise e vec detail faddr cause stopped err
    s1.enter e en

/-- An entry that waits tries again. -/
def State.goOnEntry (s : State) (e : Nat) : State :=
  match (s.eng e).entry with
  | some en => s.enter e en
  | none => s

/-! ### Return (R159, R164) -/

/-- Restore what a frame's words hold (R159). -/
def Arch.restoreFrame (a : Arch) (w : Nat → W64) : Arch :=
  let c := (w 3).toNat
  { a with
    pc := w 0, psr := w 1 &&& (psrMask ||| 1), flags := w 2 &&& flagsMask, g31u := w 6,
    ds := if bitsOf c 48 48 = 1 then some ⟨bitsOf c 49 49 = 1, false, w 5⟩ else none }

/-- Word `i` of bytes. -/
def wordAt (bs : List Byte) (i : Nat) : W64 := BitVec.ofNat 64 (ofLe ((bs.drop (8 * i)).take 8))

/-- A return that has read its frame: state restored, predictor flushed when PRIV changes, long vectors resumed. -/
def State.returnFrom (s : State) (e : Nat) (bs : List Byte) (adj : Arch → Arch) : State :=
  let a := (s.eng e).arch
  let w := wordAt bs
  let a1 := adj (a.restoreFrame w)
  let s1 := s.updEng e (fun x => { x.refetch (a1.sup != a.sup) with arch := a1 })
  match s1.resumeVec e (bitsOf (w 3).toNat 50 50 = 1) with
  | (s2, none) => s2
  | (s2, some c) => s2.except e 0x03 c 0 none true none

/-- The return from a frame removes that of the active ERROR (R173); VECTOR is not read (R159). Where that frame lies is
kept with the Task over a save (DEDUCED, log 15). -/
def Engine.endsError (x : Engine) (at_ : ErrFrame) : Bool := x.arch.erract && x.errFrame = some at_

/-! ### Asynchronous causes (R166 to R173) -/

/-- The engine runs a restored placement, or is the Steward while it is up. -/
def State.active (s : State) (e : Nat) : Bool :=
  if e = steward then s.stew.up && !s.stew.halted && s.windowUp && s.mode ≠ .dawn
  else e < 512 && (s.eng e).running && (match (s.eng e).place with | some p => p.restored | none => false)

/-- The tick of cycle 1,024 of a Lap. -/
def State.tick1024 (s : State) : Nat := if s.ord14 then 1024 * 5 / 7 else 1024 * 5 / 8

/-- Mirrored and replaying engines take the causes that they have sampled at cycle 1,024 of the Lap (R168); the view of the
flags that they sample stands from then on (R447). -/
def State.sampled (s : State) : Bool := !s.actMode.viewed || s.tick1024 ≤ s.tb % s.lapTicks

/-- An entry of the error queue that the sample of cycle 1,024 has found there, where the mode samples (R168). -/
def State.errSampled (s : State) (x : ErrEntry) : Bool :=
  !s.actMode.viewed || x.tick ≤ s.tb / s.lapTicks * s.lapTicks + s.tick1024

/-- An asynchronous cause may be taken: the engine awaits nothing, no HOLD window is open and Escalation is not active
(R167). -/
def State.asyncOk (s : State) (e : Nat) : Bool :=
  let x := s.eng e
  x.pend = none && x.entry = none && x.arch.holdcnt = 0 && !x.arch.escact && s.sampled

/-- An ERROR is acceptable (R167). -/
def State.errorReady (s : State) (e : Nat) : Bool :=
  s.asyncOk e && (s.eng e).arch.errq.any (fun x => s.errSampled x) && !(s.eng e).arch.erract

/-- ERROR takes the highest-severity entry of the queue (R173). -/
def State.takeError (s : State) (e : Nat) : State :=
  match (s.eng e).arch.errq.find? (fun x => s.errSampled x) with
  | none => s
  | some x =>
    let s1 := (s.updEng e (fun y => { y with arch := { y.arch with errq := y.arch.errq.erase x } })).dropAnnulled e
    s1.except e 0x10 x.cls x.addr none false (some (x.cls, x.count))

/-- The interrupt line that would be taken, if any (R166, R167). -/
def State.intLine (s : State) (e : Nat) : Option Nat :=
  if s.asyncOk e && (s.eng e).arch.psr.getLsbD 1 then (List.range 8).find? (fun i => s.intPending e i) else none

/-- Take the interrupt of a line. -/
def State.takeInterrupt (s : State) (e i : Nat) : State :=
  (s.dropAnnulled e).except e (0x11 + i) (s.intSel e i) 0 none false none

/-- EXCEPTION_ENTRY (R156): an entry in progress goes on; else a cause of Table 5.1 is recognised, the asynchronous causes
only when acceptable. -/
def execExceptionEntry (e vec detail : Nat) (faddr : BitVec 64) (s : State) : Res :=
  if !s.active e then .next s
  else if (s.eng e).entry.isSome then .next (s.goOnEntry e)
  else if vec = 0x10 then .next (if s.errorReady e then s.takeError e else s)
  else if 0x11 ≤ vec ∧ vec ≤ 0x18 then
    .next (if !s.errorReady e && s.intLine e = some (vec - 0x11) then s.takeInterrupt e (vec - 0x11) else s)
  else if 0x01 ≤ vec ∧ vec ≤ 0x0E then .next ((s.dropAnnulled e).except e vec detail faddr none false none)
  else .next s

/-- INTERRUPT (R167): ERROR is accepted first. -/
def execInterrupt (e : Nat) (s : State) : Res :=
  if !s.active e || s.errorReady e then .next s
  else
    match s.intLine e with
    | some i => .next (s.takeInterrupt e i)
    | none => .next s

/-- ERROR (R173). -/
def execError (e : Nat) (s : State) : Res :=
  if s.active e && s.errorReady e then .next (s.takeError e) else .next s

/-- HOLDCNT_ZERO (R171): the window's last cycle passes, and causes become acceptable at the next boundary. -/
def execHoldcntZero (e : Nat) (s : State) : Res :=
  if s.active e ∧ (s.eng e).arch.holdcnt ≤ 1 then
    .next (s.updEng e (fun x => { x with arch := { x.arch with holdcnt := 0 } }))
  else .next s

end Sys2Proof.Machine
end

