-- ==== Sys2Proof/Machine/Scalar.lean ====
section
/-!
DEFINITION. How the Sequencer executes one instruction (spec/03_sequencer_isa.md, spec/04_sequencer_pipeline.md): the
gate, not-executed instructions, illegal encodings, residue and parity checks, privilege, the effect, retirement with
its delay slot and loop end test; and the data accesses of scalar loads and stores.
-/
namespace Sys2Proof.Machine

/-! ### Rows of the opcode map -/

/-- The instruction accepts a predicate prefix (Table 3.5). -/
def predOkOp (op : Nat) : Bool :=
  !(op / 16 = 8 || op / 16 = 12 || op / 16 = 13 ||
    [0x10, 0x11, 0x06, 0x07, 0x01, 0x0C, 0xB2, 0xB3, 0xB4].contains op)

/-- The operand widths that an instruction accepts in a width prefix (Table 3.5). -/
def widthsOk (op : Nat) : List Nat :=
  if op / 16 = 2 || op / 16 = 3 || op / 16 = 4 || [0x60, 0x61, 0x62, 0x70, 0x71, 0x72].contains op then [8, 16, 32]
  else if op = 0xAE || op = 0xAF then [32]
  else if op / 16 = 10 then [8, 16, 32]
  else if op / 16 = 9 || [0x63, 0x64, 0x73, 0x74].contains op then [32]
  else []

/-- The instruction requires a width prefix (Table 3.5). -/
def needsWidth (op : Nat) : Bool := [0x61, 0x71, 0x3D, 0x3E].contains op

/-- The instruction accepts a long immediate (Table 3.5). -/
def limmOk (op : Nat) : Bool := op / 16 = 4 || op / 16 = 6 || op / 16 = 7

/-- Instructions that a delay slot must not hold (R97). -/
def isCtl (op : Nat) : Bool :=
  op / 16 = 8 || [0x10, 0x11, 0x06, 0x07, 0x01, 0xB5, 0xB2, 0xB3, 0x0C, 0xB4].contains op

/-- Branches and jumps (R96). -/
def isJump (op : Nat) : Bool := op / 16 = 8 || op = 0x10 || op = 0x11

/-- Instructions that need Supervisor privilege whatever their operands (R115). -/
def isPriv (op : Nat) : Bool := [0x06, 0x07, 0x09, 0x14, 0xB4].contains op

/-- Rows 0xC and 0xD. -/
def isVec (op : Nat) : Bool := op / 16 = 12 || op / 16 = 13

/-- The prefixes break Table 3.5 for an opcode (R81). -/
def PInfo.refused (i : PInfo) (op : Nat) : Bool :=
  (i.kinds.contains .pred && !predOkOp op) ||
  (match i.width with
   | some w => !(widthsOk op).contains w
   | none => needsWidth op) ||
  (i.kinds.contains .limm && !limmOk op) || (i.kinds.contains .vlo && !isVec op)

/-- Length of an instruction (R82). -/
def pLen (p : Pfx) (op : Nat) : Nat := p.bytes.length + baseLen op + (pInfo p).ext

/-- The illegal-encoding cause of an instruction that would execute (R82, R83, R97, R101, R163, R30). `bad` is the
cause of its own fields. -/
def Arch.illegal (a : Arch) (e : Nat) (p : Pfx) (op bad : Nat) : Nat :=
  let i := pInfo p
  if 3 < p.bytes.length then lowest i.cause 0x03
  else
    let c1 := lowest i.cause (if i.refused op then 0x05 else 0)
    let c2 := lowest c1 bad
    let c3 := lowest c2 (if a.ds.isSome && isCtl op then 0x08 else 0)
    let c4 := lowest c3
      (if isJump op && a.ld ≠ 0 && a.pc + BitVec.ofNat 64 (pLen p op) = SMap.get 0 a.le (a.ld - 1) then 0x09 else 0)
    lowest c4 (if isVec op && (e = steward || a.escact) then 0x0A else 0)

/-! ### Retirement -/

/-- What an instruction does once it executes. -/
inductive Act where
  /-- it completes -/
  | done (s : State) (c : Ctl)
  /-- it raises an exception -/
  | trap (s : State) (vec detail : Nat) (faddr : W64)
  /-- it waits: nothing has changed -/
  | wait
  /-- the state stands as given: the engine stops, waits for an answer, or runs on elsewhere -/
  | stop (s : State)

/-- Instructions that end a loop-buffer capture: those that a delay slot must not hold, and IFENCE (R129). -/
def endsCapture (op : Nat) : Bool := isCtl op || op = 0x02

/-- The loop buffer after a retirement (R129, R130). -/
def lbufStep (b : Option LoopBuf) (op : Nat) (c : Ctl) (a a' : Arch) : Option LoopBuf :=
  match b, c with
  | some _, .goto _ => b
  | some b, _ =>
    if a'.ld ≤ b.level then none
    else if !b.capturing then some b
    else if endsCapture op || 64 ≤ b.count then none
    else if SMap.get 0 a'.lc b.level ≠ SMap.get 0 a.lc b.level then some { b with capturing := false, count := b.count + 1 }
    else some { b with count := b.count + 1 }
  | none, _ => none

/-- The loop buffer supplies the loop (R129). -/
def LoopBuf.supplies (b : Option LoopBuf) : Bool := match b with | some x => !x.capturing | none => false

/-- Fetch takes up another path: words asked for on the old one are no longer wanted (R126). -/
def Engine.newPath (x : Engine) : Engine :=
  { x with fetches := x.fetches + 1, got := x.got.filter (fun g => g.who < 1000) }

/-- The words that fetch holds once the first `n` of them are done with. -/
def Engine.dropWords (x : Engine) (n : Nat) : Engine :=
  { x with pq := x.pq.drop n, flight := x.flight.drop (n - x.pq.length) }

/-- Fetch holds nothing, and goes on elsewhere. -/
def Engine.noWords (x : Engine) : Engine := { x with pq := [], flight := [] }.newPath

/-- The first word that fetch holds is that of an address. -/
def Engine.holds (x : Engine) (pc : W64) : Bool :=
  match (x.pq ++ x.flight).head? with
  | some y => y.addr.toNat = pc.toNat / 16 * 16
  | none => true

/-- Words that execution passes in going from an instruction to an address: all of the instruction's own unless it goes on at its
end. -/
def wordsPassed (old new : W64) (len : Nat) : Nat :=
  if new = old + BitVec.ofNat 64 len then (old.toNat + len) / 16 - old.toNat / 16
  else (old.toNat + len - 1) / 16 - old.toNat / 16 + 1

/-- A branch that has not been taken may have been predicted taken: its entry, counted down since, has been 2 or more (R133, R134). -/
def Engine.mispredicted (x : Engine) (pc : Nat) : Bool :=
  match SMap.get none x.btb (pc % 512) with
  | some y => y.tag = pc / 512 % 2 ^ 46 && 1 ≤ y.ctr
  | none => false

/-- What fetch holds once execution has gone from an instruction to an address (R126): words done with are gone, a taken branch
keeps only the word of its delay slot, and words of another path are dropped. -/
def Engine.consume (x : Engine) (old new : W64) (len : Nat) (c : Ctl) : Engine :=
  let y := x.dropWords (wordsPassed old new len)
  if !y.holds new then y.noWords
  else
    match c with
    | .branch true _ _ => { y with pq := y.pq.take 1, flight := if y.pq.isEmpty then y.flight.take 1 else [] }.newPath
    | .branch false _ _ => if x.mispredicted old.toNat then y.newPath else y
    | .next | .goto _ => y

/-- An engine once an instruction has retired: its registers go on, and what fetch holds with them (R84, R100). While the
loop buffer supplies a loop the queue holds the words after it alone (R130). -/
def Engine.retired (x : Engine) (op len : Nat) (c : Ctl) : Engine :=
  let a := x.arch.retire len c
  let lb := lbufStep x.lbuf op c x.arch a
  let y : Engine := { x with arch := a, lbuf := lb }
  if LoopBuf.supplies x.lbuf then (if LoopBuf.supplies lb || y.holds a.pc then y else y.noWords)
  else if LoopBuf.supplies lb then y.noWords
  else y.consume x.arch.pc a.pc len c

/-- A performance counter of an engine of this part counts one, while counting is on (R561). -/
def State.pmcCount (s : State) (e : Nat) (r : RegRef) : State := if e < 512 && s.pmcOn then s.add64 r 1 else s

/-- An instruction retires: the registers go on, and EN_PMC_RET counts it (R84, R100, R561). -/
def State.retire (s : State) (e op len : Nat) (c : Ctl) : State :=
  (s.updEng e (fun x => x.retired op len c)).pmcCount e (Reg.enPmcRet e)

/-- The placement after one more engine cycle (R56). -/
def Placement.ticked (p : Placement) : Placement := { p with cyc := p.cyc + 1 }

/-- The registers after one more engine cycle: HOLDCNT counts down to 0 (R171). -/
def Arch.held (a : Arch) : Arch := { a with holdcnt := if a.holdcnt = 0 then 0 else a.holdcnt - 1 }

/-- One engine cycle of a placement passes (R56, R171, R561, DESIGN CHOICE, log 8). -/
def State.cycle (s : State) (e : Nat) : State :=
  (s.updEng e (fun x => { x with place := x.place.map Placement.ticked, arch := x.arch.held })).pmcCount e (Reg.enPmcCyc e)

/-! ### The gate -/

/-- Every write of an exception entry has been performed at its target: its frame words and resume records (R156, R214). -/
def State.entryWritten (s : State) (e : Nat) : Bool :=
  !s.m.memq.any (fun r => r.entry && r.src = s.srcOf e) && !s.ring.remote.any (fun r => r.entry && r.e = e)

/-- The engine issues an instruction: it runs a placement, waits for no load, no entry and no re-issue, and a WAITE whose
flag is set completes first (R37, R111, R170). The first instruction of a handler waits until its frame can be read (R156, R214). -/
def State.ready (s : State) (e : Nat) : Option State :=
  let x := s.eng e
  if !s.active e || x.pend.isSome || x.entry.isSome || x.reissue.isSome || !s.entryWritten e then none
  else
    match x.waite with
    | none => some s
    | some (c, len) =>
      if c = 256 || (c < 256 && s.seenFlag c) then
        some ((s.updEng e (fun x => { x with waite := none })).retire e 0x18 len .next)
      else none

/-- The checks of the engine's own hardware (R279 to R282, R409): the state and whether the instruction goes on. -/
def State.checked (s : State) (e : Nat) (chk : Check) (lat : Option Nat) : State × Bool :=
  if 512 ≤ e then (s, true)
  else
    let pc := (s.eng e).arch.pc
    match chk, lat with
    | .parity, _ => (s.engineParity e pc, false)
    | .once, some l =>
      let (s1, ok) := s.residueOnce e pc (l + 3)
      if ok then (s1, true) else (s.residueHard e pc (l + 3), false)
    | .twice, some l => (s.residueHard e pc (l + 3), false)
    | .good, _ | .once, none | .twice, none => (s, true)

/-! ### One instruction -/

/-- The instruction is executed: it is not in an annulled delay slot, and its predicate holds (R84, R96). -/
def Arch.selects (a : Arch) (p : Pfx) : Bool :=
  (match a.ds with | some d => !d.annul | none => true) &&
    (match (pInfo p).pred with | some c => condHolds c a.flags | none => true)

/-- The instruction executes: its effect, then retirement, or the exception it raises. -/
def State.perform (s : State) (e op len : Nat) (body : State → Act) : State :=
  match body (s.cycle e) with
  | .done s1 c => s1.retire e op len c
  | .trap s1 vec detail faddr => s1.except e vec detail faddr none false none
  | .wait => s
  | .stop s1 => s1

/-- While instructions wait to be re-issued, that goes on, and no instruction issues (R170, R216). -/
def State.stalled (s : State) (e : Nat) : State :=
  if s.active e && (s.eng e).reissue.isSome then
    match s.goReissue e 32 with
    | (s1, .done) | (s1, .waits) => s1
    | (s1, .bad c) => s1.except e 0x03 c 0 none true none
  else s

/-- One instruction of engine `e` (R82 to R84, R96, R115, R152, R280). `bad` is the illegal-encoding cause of its
fields, `lat` its latency where its unit is residue-checked (Table 8.8). RFX outside Escalation has detail 0x0001 in both
privileges (R165). -/
def State.scalar (s : State) (e : Nat) (p : Pfx) (op : Nat) (bad : Arch → Nat) (lat : Arch → Option Nat)
    (body : State → Act) : State :=
  match s.ready e with
  | none => s.stalled e
  | some s0 =>
    let a := (s0.eng e).arch
    if !a.selects p then (s0.cycle e).retire e op (pLen p op) .next
    else
      let c := a.illegal e p op (bad a)
      if c ≠ 0 then s0.except e 0x03 c 0 none false none
      else
        match s0.checked e p.chk (lat a) with
        | (s1, false) => s1
        | (s1, true) =>
          if isPriv op && !a.sup then s1.except e 0x04 (if op = 0x07 && !a.escact then 1 else 0) 0 none false none
          else s1.perform e op (pLen p op) body

/-- The result of an instruction that works on registers alone. -/
inductive Alu where
  | ok (a : Arch)
  | trap (vec : Nat)

/-- An instruction that works on registers alone. -/
def State.regOp (s : State) (e : Nat) (p : Pfx) (op bad : Nat) (lat : Arch → Option Nat) (f : Arch → Alu) : State :=
  s.scalar e p op (fun _ => bad) lat (fun s =>
    match f (s.eng e).arch with
    | .ok a => .done (s.updEng e (fun x => { x with arch := a })) .next
    | .trap v => .trap s v 0 0)

/-! ### Data accesses (R89 to R92, R106, R107, R206) -/

/-- Two byte ranges overlap. -/
def bytesMeet (x y : Nat × Nat) : Bool := x.1 < y.2 && y.1 < x.2

/-- A scalar access is held while its bytes touch a footprint of an incomplete long-vector instruction, or an element whose
old value is still to be written (R206, R246). -/
def State.heldByVec (s : State) (e va n : Nat) (store : Bool) : Bool :=
  (s.eng e).vinsts.any (fun v =>
    (s.writeFoot e v ++ (if store then s.readFoot e v else [])).any (fun f => bytesMeet (va, va + n) f)) ||
  (s.eng e).ropdFoot.any (fun f => bytesMeet (va, va + n) f)

/-- An uncorrectable or poisoned read: DATA_ERROR; in mirrored operation the placement stops instead, and the record
identifies the side (Tables 5.1, 12.5). The Steward's access ends with an error status. -/
def State.dataError (s : State) (e dpa : Nat) (va : W64) : Act :=
  if e < 512 && s.mirroredNow then .stop ((s.chargeCyc e).clearPlace e)
  else .trap s 0x0B (s.targetId dpa) va

/-- The Steward's access ended with an error (R26, R305). -/
def State.stewErr (s : State) : State := { s with stew := { s.stew with err := true } }

/-- Write the result of a load: register file 0 G, 1 F, 2 Q, 3 stream. -/
def Arch.putLoad (a : Arch) (file reg n : Nat) (sext : Bool) (v : Nat) : Arch :=
  match file with
  | 0 => a.wrG reg (if sext then sextW (8 * n) (BitVec.ofNat 64 v) else zextW (8 * n) (BitVec.ofNat 64 v))
  | 1 => a.wrF (8 * n) reg v
  | 2 => a.wrQ reg (BitVec.ofNat 128 v)
  | _ =>
    let d : Desc :=
      ⟨BitVec.ofNat 64 v, BitVec.ofNat 64 (v / 2 ^ 64), BitVec.ofNat 64 (v / 2 ^ 128), BitVec.ofNat 64 (v / 2 ^ 192)⟩
    { a with str := SMap.set Desc.zero a.str reg d }

/-- A load: where it reads, and what its result is written to. -/
structure LoadOp where
  va : W64
  n : Nat
  sext : Bool
  file : Nat
  reg : Nat
  upd : Option (Nat × W64)
  len : Nat

/-- The load's registers with a value read. -/
def Arch.finishLoad (a : Arch) (l : LoadOp) (v : Nat) : Arch := (a.applyUpd l.upd).putLoad l.file l.reg l.n l.sext v

/-- The load has its value. -/
def State.loaded (s : State) (e : Nat) (l : LoadOp) (bs : List Byte) : Act :=
  .done (s.updEng e (fun x => { x with arch := x.arch.finishLoad l (ofLe bs) })) .next

/-- The load waits for an answer from outside the part. -/
def State.awaitLoad (s : State) (e dpa : Nat) (l : LoadOp) : State :=
  s.updEng e (fun x =>
    { x with pend := some { dpa := dpa, va := l.va, size := l.n, sext := l.sext, file := l.file, reg := l.reg,
                            upd := l.upd, len := l.len } })

/-- The Steward's load of a register of its own part (Table 9.8): a management read by master 39. -/
def State.stewardRead (s : State) (off n : Nat) : State × List Byte :=
  if n = 4 ∧ s.accessOk 39 off 4 then ((s.readReg 39 off).1, leBytes 4 (s.readReg 39 off).2.toNat)
  else (s, List.replicate n 0)

/-- The Steward's load of a DPA ends with an error status and a free value (R26, R305). -/
def State.stewardError (s : State) (l : LoadOp) : Act :=
  (s.stewErr.bump).loaded steward l (leBytes l.n (Config.errorData s.freeCtr).toNat)

/-- Perform a load at a DPA that the address leads to (R20, R26, R298, R304, R593). -/
def State.loadAt (s : State) (e dpa : Nat) (l : LoadOp) : Act :=
  let off := dpa % 2 ^ 46
  if e = steward && dpa / 2 ^ 46 = s.pos && inRegs off then
    (s.stewardRead (off - 0x3F0000000000) l.n).1.loaded e l (s.stewardRead (off - 0x3F0000000000) l.n).2
  else if !s.reaches e dpa then
    if e = steward then (s.unmapped e dpa).stewardError l else .trap (s.unmapped e dpa) 0x0A 0 l.va
  else if dpa / 2 ^ 46 = s.pos && s.heldAt off then .wait
  else
    let (s1, booked) := s.payFor e dpa l.n
    if dpa / 2 ^ 46 ≠ s.pos then .stop ((s1.sendRead e dpa l.n .scalar booked).awaitLoad e dpa l)
    else
      match s1.expPort dpa with
      | some port => .stop ((s1.askExp e port dpa l.n .scalar booked).awaitLoad e dpa l)
      | none =>
        match s1.readCounted (s.srcOf e) off l.n booked with
        | (s2, .ok, bs) => s2.loaded e l bs
        | (s2, .poison, _) => if e = steward then s2.stewardError l else s2.dataError e dpa l.va
        | (s2, .unmapped, _) => .trap (s2.unmapped e dpa) 0x0A 0 l.va

/-- A scalar load (R92, R106): alignment, translation, then the access. -/
def State.loadOp (s : State) (e : Nat) (l : LoadOp) : Act :=
  if l.va.toNat % l.n ≠ 0 then .trap s 0x07 l.n l.va
  else
    match s.locate e .read (!(s.eng e).arch.sup) l.va.toNat with
    | (s1, .trap v d) => if e = steward then .trap (s1.unmapped e l.va.toNat) v d l.va else .trap s1 v d l.va
    | (s1, .third) => .stop (s1.thirdFault e)
    | (s1, .waits) => .stop s1
    | (s1, .sram o) => s1.loaded e l (getBytes s1.stew.sram o l.n)
    | (s1, .dpa d) => if s.heldByVec e l.va.toNat l.n false then .wait else s1.loadAt e d l

/-- What the Steward's store to a register of its own part does is the management write's effect; the rest of a store
is one operation for all (R92, R106, R311). `adj` is the register update that comes with it; `mgmt` performs a
management write. A store that another part answers as unmapped is sent and raises UNMAPPED (R26). -/
def State.storeOp (s : State) (e : Nat) (va : W64) (bs : List Byte) (adj : Arch → Arch)
    (mgmt : State → Nat → BitVec 32 → State) : Act :=
  let fin := fun (s : State) => Act.done (s.updEng e (fun x => { x with arch := adj x.arch })) .next
  if va.toNat % bs.length ≠ 0 then .trap s 0x07 bs.length va
  else
    match s.locate e .write (!(s.eng e).arch.sup) va.toNat with
    | (s1, .trap v d) => if e = steward then .trap (s1.unmapped e va.toNat) v d va else .trap s1 v d va
    | (s1, .third) => .stop (s1.thirdFault e)
    | (s1, .waits) => .stop s1
    | (s1, .sram o) => fin (s1.storeLoc e (.sram o) bs va none false)
    | (s1, .dpa d) =>
      let off := d % 2 ^ 46
      if e = steward && d / 2 ^ 46 = s.pos && inRegs off then
        fin (if bs.length = 4 then mgmt s1 (off - 0x3F0000000000) (BitVec.ofNat 32 (ofLe bs)) else s1)
      else if !s1.reaches e d then
        if e = steward then fin (s1.unmapped e d).stewErr else .trap (s1.unmapped e d) 0x0A 0 va
      else if s.heldByVec e va.toNat bs.length true then .wait
      else if s1.farHole d then .trap (s1.storeLoc e (.dpa d) bs va none false) 0x0A 0 va
      else fin (s1.storeLoc e (.dpa d) bs va none false)

end Sys2Proof.Machine
end

