-- ==== Sys2Proof/Machine/Integer.lean ====
section
/-!
DEFINITION. The integer instructions (spec/03_sequencer_isa.md, R87, R88, R104, R105; spec/08_arithmetic.md, R259 to
R263): rows 0x2, 0x3 and 0x4.
-/
namespace Sys2Proof.Machine

/-! ### Results at width w -/

/-- An integer result: the w-bit value for G[D], if any, whether it is sign-extended, the new FLAGS and the vector of
the exception (0: none). -/
structure IRes where
  val : Option Nat
  sext : Bool
  flags : W64
  trap : Nat

/-- A result that leaves FLAGS alone. -/
def IRes.plain (f : W64) (sext : Bool) (v : Nat) : IRes := ⟨some v, sext, f, 0⟩

/-- The result raises OVERFLOW if `ov` holds under PSR.OVE (R105). -/
def IRes.orOverflow (r : IRes) (ove ov : Bool) : IRes := if ove && ov then { r with trap := 0x0D } else r

/-- a + b + c at width w: result, carry and overflow. -/
def addW (w a b c : Nat) : Nat × Bool × Bool :=
  let r := (a + b + c) % 2 ^ w
  (r, 2 ^ w ≤ a + b + c, sval w a + sval w b + (c : Int) ≠ sval w r)

/-- a − b at width w: result, borrow and overflow. -/
def subW (w a b : Nat) : Nat × Bool × Bool :=
  let r := (a + 2 ^ w - b) % 2 ^ w
  (r, a < b, sval w a - sval w b ≠ sval w r)

/-- FLAGS N Z C V of a w-bit result. -/
def flagsOf (f : W64) (w r : Nat) (c v : Bool) : W64 := putNzcv f (nzOf w r).1 (nzOf w r).2 c v

/-- FLAGS with V alone replaced. -/
def putV (f : W64) (v : Bool) : W64 := (f &&& ~~~(1 : W64)) ||| BitVec.ofNat 64 v.toNat

/-- ADD, ADDI and ADDC. -/
def intAdd (f : W64) (ove : Bool) (w a b c : Nat) : IRes :=
  let r := addW w a b c
  (⟨some r.1, true, flagsOf f w r.1 r.2.1 r.2.2, 0⟩ : IRes).orOverflow ove r.2.2

/-- SUB. -/
def intSub (f : W64) (ove : Bool) (w a b : Nat) : IRes :=
  let r := subW w a b
  (⟨some r.1, true, flagsOf f w r.1 r.2.1 r.2.2, 0⟩ : IRes).orOverflow ove r.2.2

/-- CMP and CMPI. -/
def intCmp (f : W64) (w a b : Nat) : IRes :=
  let r := subW w a b
  ⟨none, true, flagsOf f w r.1 r.2.1 r.2.2, 0⟩

/-- The value does not lie in the signed range of w bits. -/
def outside (w : Nat) (x : Int) : Bool := x < -(2 : Int) ^ (w - 1) || (2 : Int) ^ (w - 1) ≤ x

/-- The low w bits of an integer. -/
def lowBits (w : Nat) (x : Int) : Nat := (x % (2 : Int) ^ w).toNat

/-- MUL and MULI. -/
def intMul (f : W64) (ove : Bool) (w a b : Nat) : IRes :=
  let x := sval w a * sval w b
  (⟨some (lowBits w x), true, putV f (outside w x), 0⟩ : IRes).orOverflow ove (outside w x)

/-- Upper half of the product: signed (MULH) or unsigned (MULHU). -/
def intMulh (f : W64) (w : Nat) (signed : Bool) (a b : Nat) : IRes :=
  if signed then IRes.plain f true (lowBits w ((sval w a * sval w b) / (2 : Int) ^ w))
  else IRes.plain f false (a * b / 2 ^ w)

/-- DIV: rounded toward zero; a zero divisor raises DIVZERO (R105, R261, R262). -/
def intDiv (f : W64) (ove : Bool) (w a b : Nat) : IRes :=
  if b = 0 then ⟨none, true, f, 0x0C⟩
  else
    let x := (sval w a).tdiv (sval w b)
    (⟨some (lowBits w x), true, putV f (outside w x), 0⟩ : IRes).orOverflow ove (outside w x)

/-- REM: the sign of a. -/
def intRem (f : W64) (w a b : Nat) : IRes :=
  if b = 0 then ⟨none, true, f, 0x0C⟩ else IRes.plain f true (lowBits w ((sval w a).tmod (sval w b)))

/-- DIVU and REMU. -/
def intDivu (f : W64) (rem : Bool) (a b : Nat) : IRes :=
  if b = 0 then ⟨none, true, f, 0x0C⟩ else IRes.plain f false (if rem then a % b else a / b)

/-- The kinds of shift. -/
inductive Shift where
  | shl | shr | sar | rol
deriving DecidableEq, Repr

/-- A shift or rotation by b mod w. -/
def intShift (f : W64) (k : Shift) (w a b : Nat) : IRes :=
  let n := b % w
  match k with
  | .shl => IRes.plain f false (a * 2 ^ n % 2 ^ w)
  | .shr => IRes.plain f false (a / 2 ^ n)
  | .sar => IRes.plain f true (lowBits w (sval w a / (2 : Int) ^ n))
  | .rol => IRes.plain f false (a * 2 ^ n % 2 ^ w + a / 2 ^ (w - n))

/-- MIN and MAX (signed), MINU and MAXU. -/
def intMinMax (f : W64) (wantMin signed : Bool) (w a b : Nat) : IRes :=
  let lt : Bool := if signed then sval w a < sval w b else a < b
  IRes.plain f signed (if lt = wantMin then a else b)

/-- SLT, SLTI (signed); SLTU, SLTIU. -/
def intSlt (f : W64) (signed : Bool) (w a b : Nat) : IRes :=
  let lt : Bool := if signed then sval w a < sval w b else a < b
  IRes.plain f signed lt.toNat

/-- Leading zeros at width w. -/
def clzW (w a : Nat) : Nat := if a = 0 then w else w - 1 - Nat.log2 a

/-- Trailing zeros at width w. -/
def ctzW (w a : Nat) : Nat := ((List.range w).find? (fun i => a.testBit i)).getD w

/-- One bits at width w. -/
def popW (w a : Nat) : Nat := ((List.range w).filter (fun i => a.testBit i)).length

/-- The w/8 bytes in reverse order. -/
def bswapW (w a : Nat) : Nat := (List.range (w / 8)).foldl (fun r i => r * 256 + a / 256 ^ i % 256) 0

/-! ### Operands and latencies -/

/-- PSR.OVE. -/
def Arch.ove (a : Arch) : Bool := a.psr.getLsbD 7

/-- The low w bits of a general register. -/
def Arch.srcW (a : Arch) (w n : Nat) : Nat := (a.rdG n).toNat % 2 ^ w

/-- Write an integer result (R87). -/
def Arch.putInt (a : Arch) (w d : Nat) (r : IRes) : Alu :=
  if r.trap ≠ 0 then .trap r.trap
  else
    let a1 := { a with flags := r.flags }
    match r.val with
    | some v => .ok (a1.wrG d (if r.sext then sextW w (BitVec.ofNat 64 v) else zextW w (BitVec.ofNat 64 v)))
    | none => .ok a1

/-- Cause 0x06 where a field must be 0. -/
def must0 (xs : List Nat) : Nat := if xs.all (fun x => x = 0) then 0 else 0x06

/-- Significant length of an operand (R259). -/
def sigLen (w : Nat) (signed : Bool) (x : Nat) : Nat :=
  if signed then
    let v := sval w x
    let m := if v < 0 then (-v - 1).toNat else v.toNat
    (if m = 0 then 0 else Nat.log2 m + 1) + 1
  else if x = 0 then 0 else Nat.log2 x + 1

/-- Iteration count k of a product (R259). -/
def mulIters (w : Nat) (signed : Bool) (a b : Nat) : Nat :=
  Nat.max 1 ((Nat.min (sigLen w signed a) (sigLen w signed b) + 15) / 16)

/-- Not residue-checked (Table 8.8). -/
def latNone (_ : Arch) : Option Nat := none

/-- An adder of the scalar ALUs: latency 1 (Tables 4.8, 8.8). -/
def latAdd (_ : Arch) : Option Nat := some 1

/-- The divider: w + 2. -/
def latDiv (p : Pfx) (_ : Arch) : Option Nat := some ((pInfo p).w + 2)

/-- The multiplier: 1 + k, for register operands. -/
def latMul (p : Pfx) (signed : Bool) (f : FmtR) (a : Arch) : Option Nat :=
  let w := (pInfo p).w
  some (1 + mulIters w signed (a.srcW w f.a.toNat) (a.srcW w f.b.toNat))

/-- A register-register integer instruction: `g` computes from FLAGS, OVE, a and b at width w. -/
def State.intR (s : State) (e : Nat) (p : Pfx) (op : Nat) (f : FmtR) (zero : List Nat) (lat : Arch → Option Nat)
    (g : W64 → Bool → Nat → Nat → Nat → IRes) : Res :=
  let w := (pInfo p).w
  .next (s.regOp e p op (must0 (f.z.toNat :: zero)) lat (fun a =>
    a.putInt w f.d.toNat (g a.flags a.ove w (a.srcW w f.a.toNat) (a.srcW w f.b.toNat))))

/-- The immediate of row 0x4 (R88). -/
def immI (p : Pfx) (f : FmtI) (signed : Bool) : W64 := (pInfo p).imm p.ext 14 f.imm.toNat signed

/-- Cause 0x06 of an immediate field that an 8-byte extension leaves non-zero (R88). -/
def immCause (p : Pfx) (v : Nat) : Nat := if (pInfo p).immBad v then 0x06 else 0

/-- An integer instruction with an immediate. -/
def State.intI (s : State) (e : Nat) (p : Pfx) (op : Nat) (f : FmtI) (zero : List Nat) (signed : Bool)
    (lat : Arch → Option Nat) (g : W64 → Bool → Nat → Nat → Nat → IRes) : Res :=
  let w := (pInfo p).w
  let b := (immI p f signed).toNat % 2 ^ w
  .next (s.regOp e p op (lowest (must0 zero) (immCause p f.imm.toNat)) lat (fun a =>
    a.putInt w f.d.toNat (g a.flags a.ove w (a.srcW w f.a.toNat) b)))

/-! ### Rows 0x2 and 0x3 -/

/-- ADD (R104). -/
def execAdd (e : Nat) (p : Pfx) (f : FmtR) (s : State) : Res :=
  s.intR e p 0x20 f [] latAdd (fun f o w a b => intAdd f o w a b 0)

/-- SUB (R104). -/
def execSub (e : Nat) (p : Pfx) (f : FmtR) (s : State) : Res :=
  s.intR e p 0x21 f [] latAdd (fun f o w a b => intSub f o w a b)

/-- AND (R104). -/
def execAnd (e : Nat) (p : Pfx) (f : FmtR) (s : State) : Res :=
  s.intR e p 0x22 f [] latNone (fun f _ _ a b => IRes.plain f false (a &&& b))

/-- OR (R104). -/
def execOr (e : Nat) (p : Pfx) (f : FmtR) (s : State) : Res :=
  s.intR e p 0x23 f [] latNone (fun f _ _ a b => IRes.plain f false (a ||| b))

/-- XOR (R104). -/
def execXor (e : Nat) (p : Pfx) (f : FmtR) (s : State) : Res :=
  s.intR e p 0x24 f [] latNone (fun f _ _ a b => IRes.plain f false (a ^^^ b))

/-- ANDN (R104). -/
def execAndn (e : Nat) (p : Pfx) (f : FmtR) (s : State) : Res :=
  s.intR e p 0x25 f [] latNone (fun f _ w a b => IRes.plain f false (a &&& (2 ^ w - 1 - b)))

/-- SHL (R104). -/
def execShl (e : Nat) (p : Pfx) (f : FmtR) (s : State) : Res :=
  s.intR e p 0x26 f [] latNone (fun f _ w a b => intShift f .shl w a b)

/-- SHR (R104). -/
def execShr (e : Nat) (p : Pfx) (f : FmtR) (s : State) : Res :=
  s.intR e p 0x27 f [] latNone (fun f _ w a b => intShift f .shr w a b)

/-- SAR (R104). -/
def execSar (e : Nat) (p : Pfx) (f : FmtR) (s : State) : Res :=
  s.intR e p 0x28 f [] latNone (fun f _ w a b => intShift f .sar w a b)

/-- ROL (R104). -/
def execRol (e : Nat) (p : Pfx) (f : FmtR) (s : State) : Res :=
  s.intR e p 0x29 f [] latNone (fun f _ w a b => intShift f .rol w a b)

/-- MUL (R104). -/
def execMul (e : Nat) (p : Pfx) (f : FmtR) (s : State) : Res :=
  s.intR e p 0x2A f [] (latMul p true f) (fun f o w a b => intMul f o w a b)

/-- MULH (R104). -/
def execMulh (e : Nat) (p : Pfx) (f : FmtR) (s : State) : Res :=
  s.intR e p 0x2B f [] (latMul p true f) (fun f _ w a b => intMulh f w true a b)

/-- MULHU (R104). -/
def execMulhu (e : Nat) (p : Pfx) (f : FmtR) (s : State) : Res :=
  s.intR e p 0x2C f [] (latMul p false f) (fun f _ w a b => intMulh f w false a b)

/-- DIV (R104). -/
def execDiv (e : Nat) (p : Pfx) (f : FmtR) (s : State) : Res :=
  s.intR e p 0x2D f [] (latDiv p) (fun f o w a b => intDiv f o w a b)

/-- DIVU (R104). -/
def execDivu (e : Nat) (p : Pfx) (f : FmtR) (s : State) : Res :=
  s.intR e p 0x2E f [] (latDiv p) (fun f _ _ a b => intDivu f false a b)

/-- REM (R104). -/
def execRem (e : Nat) (p : Pfx) (f : FmtR) (s : State) : Res :=
  s.intR e p 0x2F f [] (latDiv p) (fun f _ w a b => intRem f w a b)

/-- REMU (R104). -/
def execRemu (e : Nat) (p : Pfx) (f : FmtR) (s : State) : Res :=
  s.intR e p 0x30 f [] (latDiv p) (fun f _ _ a b => intDivu f true a b)

/-- CMP (R104). -/
def execCmp (e : Nat) (p : Pfx) (f : FmtR) (s : State) : Res :=
  s.intR e p 0x31 f [f.d.toNat] latAdd (fun f _ w a b => intCmp f w a b)

/-- MIN (R104). -/
def execMin (e : Nat) (p : Pfx) (f : FmtR) (s : State) : Res :=
  s.intR e p 0x32 f [] latAdd (fun f _ w a b => intMinMax f true true w a b)

/-- MAX (R104). -/
def execMax (e : Nat) (p : Pfx) (f : FmtR) (s : State) : Res :=
  s.intR e p 0x33 f [] latAdd (fun f _ w a b => intMinMax f false true w a b)

/-- MINU (R104). -/
def execMinu (e : Nat) (p : Pfx) (f : FmtR) (s : State) : Res :=
  s.intR e p 0x34 f [] latAdd (fun f _ w a b => intMinMax f true false w a b)

/-- MAXU (R104). -/
def execMaxu (e : Nat) (p : Pfx) (f : FmtR) (s : State) : Res :=
  s.intR e p 0x35 f [] latAdd (fun f _ w a b => intMinMax f false false w a b)

/-- SLT (R104). -/
def execSlt (e : Nat) (p : Pfx) (f : FmtR) (s : State) : Res :=
  s.intR e p 0x36 f [] latAdd (fun f _ w a b => intSlt f true w a b)

/-- SLTU (R104). -/
def execSltu (e : Nat) (p : Pfx) (f : FmtR) (s : State) : Res :=
  s.intR e p 0x37 f [] latAdd (fun f _ w a b => intSlt f false w a b)

/-- MOV (R104). -/
def execMov (e : Nat) (p : Pfx) (f : FmtR) (s : State) : Res :=
  s.intR e p 0x38 f [f.b.toNat] latNone (fun f _ _ a _ => IRes.plain f false a)

/-- CLZ (R104). -/
def execClz (e : Nat) (p : Pfx) (f : FmtR) (s : State) : Res :=
  s.intR e p 0x39 f [f.b.toNat] latNone (fun f _ w a _ => IRes.plain f false (clzW w a))

/-- CTZ (R104). -/
def execCtz (e : Nat) (p : Pfx) (f : FmtR) (s : State) : Res :=
  s.intR e p 0x3A f [f.b.toNat] latNone (fun f _ w a _ => IRes.plain f false (ctzW w a))

/-- POPC (R104). -/
def execPopc (e : Nat) (p : Pfx) (f : FmtR) (s : State) : Res :=
  s.intR e p 0x3B f [f.b.toNat] latNone (fun f _ w a _ => IRes.plain f false (popW w a))

/-- BSWAP (R104). -/
def execBswap (e : Nat) (p : Pfx) (f : FmtR) (s : State) : Res :=
  s.intR e p 0x3C f [f.b.toNat] latNone (fun f _ w a _ => IRes.plain f false (bswapW w a))

/-- SEXT (R104). -/
def execSext (e : Nat) (p : Pfx) (f : FmtR) (s : State) : Res :=
  s.intR e p 0x3D f [f.b.toNat] latNone (fun f _ _ a _ => IRes.plain f true a)

/-- ZEXT (R104). -/
def execZext (e : Nat) (p : Pfx) (f : FmtR) (s : State) : Res :=
  s.intR e p 0x3E f [f.b.toNat] latNone (fun f _ _ a _ => IRes.plain f false a)

/-- ADDC (R104). -/
def execAddc (e : Nat) (p : Pfx) (f : FmtR) (s : State) : Res :=
  s.intR e p 0x3F f [] latAdd (fun f o w a b => intAdd f o w a b (flagC f).toNat)

/-! ### Row 0x4 -/

/-- The multiplier with an immediate: 1 + k. -/
def latMuli (p : Pfx) (f : FmtI) (a : Arch) : Option Nat :=
  let w := (pInfo p).w
  some (1 + mulIters w true (a.srcW w f.a.toNat) ((immI p f true).toNat % 2 ^ w))

/-- ADDI (R104). -/
def execAddi (e : Nat) (p : Pfx) (f : FmtI) (s : State) : Res :=
  s.intI e p 0x40 f [] true latAdd (fun f o w a b => intAdd f o w a b 0)

/-- ANDI (R104). -/
def execAndi (e : Nat) (p : Pfx) (f : FmtI) (s : State) : Res :=
  s.intI e p 0x41 f [] false latNone (fun f _ _ a b => IRes.plain f false (a &&& b))

/-- ORI (R104). -/
def execOri (e : Nat) (p : Pfx) (f : FmtI) (s : State) : Res :=
  s.intI e p 0x42 f [] false latNone (fun f _ _ a b => IRes.plain f false (a ||| b))

/-- XORI (R104). -/
def execXori (e : Nat) (p : Pfx) (f : FmtI) (s : State) : Res :=
  s.intI e p 0x43 f [] false latNone (fun f _ _ a b => IRes.plain f false (a ^^^ b))

/-- SHLI (R104). -/
def execShli (e : Nat) (p : Pfx) (f : FmtI) (s : State) : Res :=
  s.intI e p 0x44 f [] true latNone (fun f _ w a b => intShift f .shl w a b)

/-- SHRI (R104). -/
def execShri (e : Nat) (p : Pfx) (f : FmtI) (s : State) : Res :=
  s.intI e p 0x45 f [] true latNone (fun f _ w a b => intShift f .shr w a b)

/-- SARI (R104). -/
def execSari (e : Nat) (p : Pfx) (f : FmtI) (s : State) : Res :=
  s.intI e p 0x46 f [] true latNone (fun f _ w a b => intShift f .sar w a b)

/-- ROLI (R104). -/
def execRoli (e : Nat) (p : Pfx) (f : FmtI) (s : State) : Res :=
  s.intI e p 0x47 f [] true latNone (fun f _ w a b => intShift f .rol w a b)

/-- MULI (R104). -/
def execMuli (e : Nat) (p : Pfx) (f : FmtI) (s : State) : Res :=
  s.intI e p 0x48 f [] true (latMuli p f) (fun f o w a b => intMul f o w a b)

/-- CMPI (R104). -/
def execCmpi (e : Nat) (p : Pfx) (f : FmtI) (s : State) : Res :=
  s.intI e p 0x49 f [f.d.toNat] true latAdd (fun f _ w a b => intCmp f w a b)

/-- SLTI (R104). -/
def execSlti (e : Nat) (p : Pfx) (f : FmtI) (s : State) : Res :=
  s.intI e p 0x4A f [] true latAdd (fun f _ w a b => intSlt f true w a b)

/-- SLTIU (R104). -/
def execSltiu (e : Nat) (p : Pfx) (f : FmtI) (s : State) : Res :=
  s.intI e p 0x4B f [] true latAdd (fun f _ w a b => intSlt f false w a b)

/-- MOVI (R104). -/
def execMovi (e : Nat) (p : Pfx) (f : FmtI) (s : State) : Res :=
  s.intI e p 0x4C f [f.a.toNat] true latNone (fun f _ _ _ b => IRes.plain f true b)

/-- TSTI (R104). -/
def execTsti (e : Nat) (p : Pfx) (f : FmtI) (s : State) : Res :=
  s.intI e p 0x4E f [f.d.toNat] false latNone (fun f _ w a b => ⟨none, false, flagsOf f w (a &&& b) false false, 0⟩)

end Sys2Proof.Machine
end

