-- ==== Sys2Proof/Machine/Branch.lean ====
section
/-!
DEFINITION. Branches, jumps and hardware loops (spec/03_sequencer_isa.md, R93 to R102), with what they do to the branch
target buffer and the loop buffer (spec/04_sequencer_pipeline.md, R129, R133, R134, R137).
-/
namespace Sys2Proof.Machine

/-- The branch target buffer after a branch or jump has resolved (R134, R137): `ind` marks JR and JLR. -/
def Engine.btbUpdate (x : Engine) (taken ind : Bool) (target : W64) : Engine :=
  let pc := x.arch.pc.toNat
  let k := pc % 512
  let supplied : Bool := match x.lbuf with | some b => !b.capturing | none => false
  if x.arch.psr.getLsbD 10 || supplied then x
  else
    let tag := pc / 512 % 2 ^ 46
    let miss := if taken then some ⟨tag, target, 2⟩ else SMap.get none x.btb k
    let en :=
      match SMap.get none x.btb k with
      | some y =>
        if y.tag = tag then
          some { y with
            ctr := if taken then Nat.min 3 (y.ctr + 1) else y.ctr - 1,
            target := if ind && taken then target else y.target }
        else miss
      | none => miss
    { x with btb := SMap.set none x.btb k en }

/-- The delay slot is annulled (Table 3.11). -/
def annuls (always taken an : Bool) : Bool := an && (always || !taken)

/-- A branch or jump: the link register written if `link`, the predictor updated, the delay slot pending (R95, R96). -/
def State.jump (s : State) (e op : Nat) (p : Pfx) (always taken an link ind : Bool) (target : W64) : Act :=
  let s1 := s.updEng e (fun x => if e < 512 then x.btbUpdate taken ind target else x)
  let a := (s.eng e).arch
  let slot := a.pc + BitVec.ofNat 64 (pLen p op)
  let s2 :=
    if link then
      s1.updEng e (fun x => { x with arch := x.arch.wrG 30 (slot + BitVec.ofNat 64 (s.peekLen e slot.toNat)) })
    else s1
  .done s2 (.branch taken (annuls always taken an) target)

/-- A branch of row 0x8 (R95). -/
def State.branchOp (s : State) (e : Nat) (p : Pfx) (op : Nat) (f : FmtB) : Res :=
  let code := op % 16
  .next (s.scalar e p op (fun _ => 0) latNone (fun s =>
    let a := (s.eng e).arch
    s.jump e op p (14 ≤ code) (condHolds code a.flags) (f.an = 1) (code = 15) false
      (a.pc + sextW 23 (f.disp.setWidth 64))))

/-- JR and JLR (R95). -/
def State.jumpReg (s : State) (e : Nat) (p : Pfx) (op : Nat) (f : FmtG) (link : Bool) : Res :=
  .next (s.scalar e p op (fun _ => must0 [f.sub.toNat / 2]) latNone (fun s =>
    s.jump e op p true true (f.sub.toNat % 2 = 1) link true ((s.eng e).arch.rdG f.g.toNat)))

/-- Open a loop level, or skip the body of a loop with count 0 (R99); an eligible loop is captured (R129). -/
def State.openLoop (s : State) (e op : Nat) (p : Pfx) (count : W64) (body : Nat) : Act :=
  let a := (s.eng e).arch
  let d := a.ld
  let start := a.pc + BitVec.ofNat 64 (pLen p op)
  let drop := fun (b : Option LoopBuf) => match b with | some x => if x.capturing then none else some x | none => none
  if count = 0 then
    .done (s.updEng e (fun x => { x with lbuf := drop x.lbuf })) (.goto (start + BitVec.ofNat 64 body))
  else
    let capture := e < 512 && s.bit (Reg.enFetchCfg e) 0 && 2 ≤ count.toNat
    .done (s.updEng e (fun x =>
      { x with
        lbuf := if capture then some ⟨d, true, 0⟩ else drop x.lbuf,
        arch := { a.setLd (d + 1) with
          ls := SMap.set 0 a.ls d start, le := SMap.set 0 a.le d (start + BitVec.ofNat 64 body),
          lc := SMap.set 0 a.lc d count } })) (.goto start)

/-- Cause 0x09 of LOOP and LOOPI (R99). -/
def loopCause (body : Nat) (a : Arch) : Nat := if a.ld = 3 || body = 0 then 0x09 else 0

/-- LOOP (R99). -/
def execLoop (e : Nat) (p : Pfx) (f : FmtI) (s : State) : Res :=
  .next (s.scalar e p 0xB2 (fun a => lowest (must0 [f.d.toNat]) (loopCause f.imm.toNat a)) latNone (fun s =>
    s.openLoop e 0xB2 p ((s.eng e).arch.rdG f.a.toNat) f.imm.toNat))

/-- LOOPI (R99): COUNT is bits 23:14 of the operand field. -/
def execLoopi (e : Nat) (p : Pfx) (f : FmtI) (s : State) : Res :=
  .next (s.scalar e p 0xB3 (loopCause f.imm.toNat) latNone (fun s =>
    s.openLoop e 0xB3 p (BitVec.ofNat 64 (f.d.toNat * 32 + f.a.toNat)) f.imm.toNat))

/-- LEXIT (R102). -/
def execLexit (e : Nat) (p : Pfx) (s : State) : Res :=
  .next (s.scalar e p 0x0C (fun _ => 0) latNone (fun s =>
    .done (s.updEng e (fun x =>
      let a := x.arch
      if a.ld = 0 then x
      else { x with arch := { a.setLd (a.ld - 1) with lc := SMap.set 0 a.lc (a.ld - 1) 0 } })) .next))

/-- JR (R95). -/
def execJr (e : Nat) (p : Pfx) (f : FmtG) (s : State) : Res := s.jumpReg e p 0x10 f false

/-- JLR (R95). -/
def execJlr (e : Nat) (p : Pfx) (f : FmtG) (s : State) : Res := s.jumpReg e p 0x11 f true

/-- BEQ (R95). -/
def execBeq (e : Nat) (p : Pfx) (f : FmtB) (s : State) : Res := s.branchOp e p 0x80 f

/-- BNE (R95). -/
def execBne (e : Nat) (p : Pfx) (f : FmtB) (s : State) : Res := s.branchOp e p 0x81 f

/-- BLT (R95). -/
def execBlt (e : Nat) (p : Pfx) (f : FmtB) (s : State) : Res := s.branchOp e p 0x82 f

/-- BGE (R95). -/
def execBge (e : Nat) (p : Pfx) (f : FmtB) (s : State) : Res := s.branchOp e p 0x83 f

/-- BLE (R95). -/
def execBle (e : Nat) (p : Pfx) (f : FmtB) (s : State) : Res := s.branchOp e p 0x84 f

/-- BGT (R95). -/
def execBgt (e : Nat) (p : Pfx) (f : FmtB) (s : State) : Res := s.branchOp e p 0x85 f

/-- BLTU (R95). -/
def execBltu (e : Nat) (p : Pfx) (f : FmtB) (s : State) : Res := s.branchOp e p 0x86 f

/-- BGEU (R95). -/
def execBgeu (e : Nat) (p : Pfx) (f : FmtB) (s : State) : Res := s.branchOp e p 0x87 f

/-- BLEU (R95). -/
def execBleu (e : Nat) (p : Pfx) (f : FmtB) (s : State) : Res := s.branchOp e p 0x88 f

/-- BGTU (R95). -/
def execBgtu (e : Nat) (p : Pfx) (f : FmtB) (s : State) : Res := s.branchOp e p 0x89 f

/-- BVS (R95). -/
def execBvs (e : Nat) (p : Pfx) (f : FmtB) (s : State) : Res := s.branchOp e p 0x8A f

/-- BVC (R95). -/
def execBvc (e : Nat) (p : Pfx) (f : FmtB) (s : State) : Res := s.branchOp e p 0x8B f

/-- BMI (R95). -/
def execBmi (e : Nat) (p : Pfx) (f : FmtB) (s : State) : Res := s.branchOp e p 0x8C f

/-- BPL (R95). -/
def execBpl (e : Nat) (p : Pfx) (f : FmtB) (s : State) : Res := s.branchOp e p 0x8D f

/-- BAL (R95). -/
def execBal (e : Nat) (p : Pfx) (f : FmtB) (s : State) : Res := s.branchOp e p 0x8E f

/-- CALL (R95). -/
def execCall (e : Nat) (p : Pfx) (f : FmtB) (s : State) : Res := s.branchOp e p 0x8F f

end Sys2Proof.Machine
end

