-- ==== Sys2Proof/Machine/EventFabric.lean ====
section
/-!
DEFINITION. The Event Fabric's commands (spec/13_events_and_time.md, R430 to R447, R455 to R457): PULSE, EVT_FIRE, DOM,
EVT_FLAG, EVT_GROUP_EN, CLOSED, PIN and STUCK.
-/
namespace Sys2Proof.Machine

/-- A management master may act on a local channel: Steward and debug port on any, the host on its own (R438). Writes
forwarded to a Pacer are the host's. -/
def State.mgmtOwns (s : State) (m c : Nat) : Bool :=
  m = 39 || m = 41 || ((m = 35 || m = 34) && s.fld (Reg.evtChCfg c) 31 30 = 1 && !(s.actMode = .replay && m = 35))

/-- A refused pulse or clear is counted (R436 to R438). -/
def State.denied (s : State) (c : Nat) : State := s.satInc (Reg.evtChStat c) 23 16

/-- A management master may send a Domain channel: its owner, or Steward and debug port (R438, R445). -/
def State.mgmtOwnsDom (s : State) (m d : Nat) : Bool :=
  m = 39 || m = 41 || ((m = 35 || m = 34) && s.fld (Reg.evtDchCfg d) 31 30 = 1 &&
    s.fld (Reg.evtDchCfg d) 29 25 = s.pos && !(s.actMode = .replay && m = 35))

/-- A permitted send of Domain channel `d`: at most one per 4 hub cycles, broadcast on CTL and taken as an arrival at
once (R445; MTYPE 0x01 of Table 11.9). -/
def State.domSend (s : State) (d now : Nat) : State :=
  let last := SMap.get 0 s.evt.domLast d
  if last ≠ 0 ∧ now + 1 < last + 4 then s.satInc Reg.evtStat 31 16
  else
    let s1 := { s with evt := { s.evt with domLast := SMap.set 0 s.evt.domLast d (now + 1) } }
    (s1.sendCtl [BitVec.ofNat 64 (d * 256 + 0x01), 0]).domArrive d now

/-- A management write of EVT_FIRE (R438, R445). -/
def State.evtFireWrite (s : State) (m : Nat) (v : BitVec 32) (now : Nat) : State :=
  let c := bitsOf v.toNat 7 0
  if bitsOf v.toNat 8 8 = 1 then
    if s.mgmtOwnsDom m (c % 32) then s.domSend (c % 32) now else s.satInc Reg.evtStat 15 0
  else if s.mgmtOwns m c then s.softPulse c now
  else s.denied c

/-- A management clear of one flag (R438). -/
def State.flagClear (s : State) (m c : Nat) : State :=
  if s.mgmtOwns m c then s.setFlag c false else s.denied c

/-- A management write of EVT_FLAG_k: every 1 clears, by R438. -/
def State.evtFlagWrite (s : State) (m k : Nat) (v : BitVec 32) : State :=
  ((List.range 32).filter (fun b => v.getLsbD b)).foldl (fun s b => s.flagClear m (32 * k + b)) s

/-- A management write of EVT_GROUP_EN, applied before the group operations of its cycle; ignored in FORK mode
(R435, R458). -/
def State.groupEnWrite (s : State) (v : BitVec 32) (on off : BitVec 16) : State :=
  if s.bit Reg.evtCfg 0 then
    (s.wr Reg.evtGroupEn ((v.setWidth 16).setWidth 32)).groupOps (on.setWidth 32) (off.setWidth 32)
  else s

/-- A management write of 1 to CLOSED reopens the channel (R444). -/
def State.reopen (s : State) (m c : Nat) : State :=
  if s.mgmtOwns m c then s.setBit (Reg.evtChStat c) 1 false else s.denied c

/-- A management write of EVT_CH_STAT_c: STORMED is W1C, CLOSED as R444 gives. -/
def State.chStatWrite (s : State) (m c : Nat) (v : BitVec 32) : State :=
  let s1 := if v.getLsbD 0 then s.setBit (Reg.evtChStat c) 0 false else s
  if v.getLsbD 1 then s1.reopen m c else s1

/-- PULSE (R431): a pulse of a producer that the channel lists. -/
def execPulse (c code at_ : Nat) (s : State) : Res :=
  if s.windowUp ∧ c < 256 ∧ code ≠ 0 ∧ s.lists c code then .next (s.pulse c at_) else .next s

/-- EVT_FIRE (R438). -/
def execEvtFire (m : Nat) (v : BitVec 32) (at_ : Nat) (s : State) : Res :=
  if s.accessOk m 0 4 then .next (s.gate m Reg.evtFire.off v (fun s => s.evtFireWrite m v at_))
  else .next (s.noAccess m Reg.evtFire.off)

/-- DOM (R445): an EVT_FIRE write with DOM set. -/
def execDom (m : Nat) (v : BitVec 32) (at_ : Nat) (s : State) : Res :=
  if s.accessOk m 0 4 then
    .next (s.gate m Reg.evtFire.off (v ||| 0x100) (fun s => s.evtFireWrite m (v ||| 0x100) at_))
  else .next (s.noAccess m Reg.evtFire.off)

/-- EVT_FLAG (R438). -/
def execEvtFlag (m k : Nat) (v : BitVec 32) (s : State) : Res :=
  if s.accessOk m 0 4 ∧ k < 8 then .next (s.gate m (Reg.evtFlag k).off v (fun s => s.evtFlagWrite m k v))
  else .next (s.noAccess m (Reg.evtFlag k).off)

/-- EVT_GROUP_EN (R435). -/
def execEvtGroupEn (m : Nat) (v : BitVec 32) (on off : BitVec 16) (s : State) : Res :=
  if s.accessOk m 0 4 then .next (s.gate m Reg.evtGroupEn.off v (fun s => s.groupEnWrite v on off))
  else .next (s.noAccess m Reg.evtGroupEn.off)

/-- CLOSED (R444). -/
def execClosed (m c : Nat) (s : State) : Res :=
  if s.accessOk m 0 4 ∧ c < 256 then .next (s.gate m (Reg.evtChStat c).off 2 (fun s => s.reopen m c))
  else .next (s.noAccess m (Reg.evtChStat c).off)

/-! ### EVT pins (R455 to R457) -/

/-- The edge selected by EVT_PIN_CFG_i.EDGE (R456). -/
def edgeSelected (edge : Nat) (rising : Bool) : Bool :=
  edge = 2 || (edge = 0 && rising) || (edge = 1 && !rising)

/-- An accepted edge of pin `i`: level, stuck count, edge filter of 30 ns, code 0x010 + i, PIN log entry
(R456, R457). -/
def State.pinEdge (s : State) (i : Nat) (level : Bool) (stamp : Nat) : State :=
  let last := SMap.get 0 s.evt.pinLast i
  let s1 := s.setBit Reg.evtPinStat i level
  let s2 := { s1 with evt := { s1.evt with pinLaps := SMap.set 0 s1.evt.pinLaps i 0 } }
  if last ≠ 0 ∧ stamp + 1 < last + 30 then s2
  else
    let s3 := { s2 with evt := { s2.evt with pinLast := SMap.set 0 s2.evt.pinLast i (stamp + 1) } }
    let s4 := s3.log 0x06 (level.toNat * 16 + i) (BitVec.ofNat 64 stamp) []
    if edgeSelected (s.fld (Reg.evtPinCfg i) 1 0) level then s4.fireCode (0x010 + i) s4.hubNow else s4

/-- PIN (R456): live pins have no effect in REPLAY (R554). -/
def execPin (i : Nat) (level : Bool) (stamp : Nat) (s : State) : Res :=
  if s.windowUp ∧ s.actMode ≠ .replay ∧ i < 16 ∧ s.bit Reg.evtPinStat i ≠ level then .next (s.pinEdge i level stamp)
  else .next s

/-- At a Lap boundary every active pin counts the Lap; 999 marks a pin already reported (R457). -/
def State.countPinLaps (s : State) : State :=
  let f := fun (m : SMap Nat) i =>
    if s.bit Reg.evtPinStat i && SMap.get 0 m i < 256 then SMap.upd 0 m i (· + 1) else m
  { s with evt := { s.evt with pinLaps := (List.range 16).foldl f s.evt.pinLaps } }

/-- STUCK (R457): the pin has been active for STUCK full Laps and has not been reported. -/
def execStuck (i : Nat) (s : State) : Res :=
  let n := SMap.get 0 s.evt.pinLaps i
  let lim := s.fld (Reg.evtPinCfg i) 31 24
  if s.windowUp ∧ s.actMode ≠ .replay ∧ i < 16 ∧ s.bit Reg.evtPinStat i ∧ lim ≠ 0 ∧ lim < n ∧ n ≤ 256 then
    let s1 := s.setBit Reg.evtPinStat (16 + i) true
    .next (({ s1 with evt := { s1.evt with pinLaps := SMap.set 0 s1.evt.pinLaps i 999 } }).fireCode (0x020 + i) s.hubNow)
  else .next s

end Sys2Proof.Machine
end

