-- ==== Sys2Proof/Machine/System.lean ====
section
/-!
DEFINITION. The control and system instructions (spec/03_sequencer_isa.md, R76, R106, R107, R111, R112, R115): rows
0x0, 0x1 and 0xB but for branches, loops and memory; with R39, R59, R140, R159, R164, R171, R336 to R339, R407, R436.
-/
namespace Sys2Proof.Machine

/-- An instruction without an operand field. -/
def State.sysOp (s : State) (e : Nat) (p : Pfx) (op : Nat) (body : State → Act) : Res :=
  .next (s.scalar e p op (fun _ => 0) latNone body)

/-- An instruction of row 0x1 whose SUB must satisfy `bad`. -/
def State.sysG (s : State) (e : Nat) (p : Pfx) (op bad : Nat) (body : State → Act) : Res :=
  .next (s.scalar e p op (fun _ => bad) latNone body)

/-- Change the engine's registers and go on. -/
def State.toArch (s : State) (e : Nat) (g : Arch → Arch) : Act :=
  .done (s.updEng e (fun x => { x with arch := g x.arch })) .next

/-! ### Waiting for the engine's own work (R39, R107, R124, R140) -/

/-- Every result tag is free: no long-vector instruction is incomplete (R123). -/
def Engine.tagsFree (x : Engine) : Bool := x.vinsts.isEmpty

/-- Every write and atomic of the engine has been performed at its target, and every old value written (R107, R245). -/
def State.writesDone (s : State) (e : Nat) : Bool :=
  !s.m.memq.any (fun r => r.src = s.srcOf e) && !s.ring.remote.any (fun r => r.e = e) && (s.eng e).swaps.isEmpty

/-- Both. -/
def State.drained (s : State) (e : Nat) : Bool := (s.eng e).tagsFree && s.writesDone e

/-! ### TEND (R39, R59, R164, R407, R591) -/

/-- A Task whose TEND has retired is Delivered (R59). -/
def State.deliver (s : State) (tti : Nat) : State := s.settle tti .delivered 0 0

/-- A TEND digest of one side meets that of the other: equal digests deliver the Task, others wait for the decision of
R408. Without a counterpart it waits (R407). -/
def State.meetTend (s : State) (t : Tendd) : State :=
  match s.pair.tends.find? (fun x => x.tti = t.tti && x.epoch = t.epoch && x.own != t.own) with
  | none => { s with pair := { s.pair with tends := s.pair.tends ++ [t] } }
  | some x =>
    let s1 := { s with pair := { s.pair with tends := s.pair.tends.erase x } }
    if x.digest = t.digest then s1.deliver t.tti
    else { s1 with pair := { s1.pair with diffTasks := s1.pair.diffTasks ++ [((if t.own then t.lap else x.lap), t.tti)] } }

/-- The TEND digest goes to the partner and waits for its counterpart (R407, Table 12.3). -/
def State.sendTend (s : State) (e : Nat) (p : Placement) : State :=
  let d := (s.eng e).tend
  (s.sendPair 0x8 [BitVec.ofNat 64 (e % 512 * 2 ^ 32 + p.epoch % 65536 * 65536 + p.tti % 65536), d]).meetTend
    ⟨p.tti, p.epoch, e, d, s.lap, true⟩

/-- The placement has used more engine cycles than its budget (R57), or an Open Task more than its limit (R60). -/
def State.overCycles (s : State) (p : Placement) : Bool :=
  let t := s.task p.tti
  if p.isOpen then t.cv.cyc * (t.cv.span + 1) < t.cyc + p.cyc else p.budget.cyc < p.cyc

/-- TEND retires on an engine that holds a placement. -/
def State.retireTend (s : State) (e : Nat) (p : Placement) : State :=
  let s1 := if s.overCycles p then s.setOvr p.tti 0 else s
  let s2 := (s1.chargeCyc e).updTask p.tti (fun t => { t with ended := true })
  if (s2.eng e).arch.escact then ((s2.settle p.tti .failed 0x03 0).clearPlace e).advanceEngine e
  else if (s2.task p.tti).ovr ≠ 0 then (s2.clearPlace e).advanceEngine e
  else
    let s3 := if s2.mirroredNow then s2.sendTend e p else s2.deliver p.tti
    (s3.clearPlace e).advanceEngine e

/-- TEND (R39). The Steward holds no placement, so its TEND only waits. -/
def execTend (e : Nat) (p : Pfx) (s : State) : Res :=
  s.sysOp e p 0x01 (fun s =>
    if !s.drained e then .wait
    else
      match (s.eng e).place with
      | some q => .stop (s.retireTend e q)
      | none => .done s .next)

/-! ### Row 0x0 -/

/-- NOP (R111). -/
def execNop (e : Nat) (p : Pfx) (s : State) : Res := s.sysOp e p 0x00 (fun s => .done s .next)

/-- IFENCE (R140). -/
def execIfence (e : Nat) (p : Pfx) (s : State) : Res :=
  s.sysOp e p 0x02 (fun s =>
    if s.drained e then .done (s.updEng e (fun x => x.refetch false)) .next else .wait)

/-- BPFLUSH (R136). -/
def execBpflush (e : Nat) (p : Pfx) (s : State) : Res :=
  s.sysOp e p 0x03 (fun s => .done (s.updEng e (fun x => { x with btb := [] })) .next)

/-- PSR.NBP written. -/
def Arch.setNbp (a : Arch) (b : Bool) : Arch := { a with psr := BitVec.ofNat 64 (putBits a.psr.toNat 10 10 b.toNat) }

/-- BPBAR (R137). -/
def execBpbar (e : Nat) (p : Pfx) (s : State) : Res := s.sysOp e p 0x04 (fun s => s.toArch e (fun a => a.setNbp true))

/-- BPALLOW (R137). -/
def execBpallow (e : Nat) (p : Pfx) (s : State) : Res := s.sysOp e p 0x05 (fun s => s.toArch e (fun a => a.setNbp false))

/-- How the read of a frame stands: its bytes, an exception with its address, or a wait. -/
inductive FrameRead where
  | bytes (bs : List Byte)
  | trap (vec detail addr : Nat)
  | waits

/-- One word of a frame on the current stack, read as an ordinary load would (R159): charged where its unit begins (R593). -/
def State.frameWord (s : State) (e a : Nat) (first : Bool) : State × FrameRead :=
  if a % 8 ≠ 0 then (s, .trap 0x07 8 a)
  else
    match s.locate e .read false a with
    | (s1, .waits) => (s1, .waits)
    | (s1, .trap v d) => (s1, .trap v d a)
    | (s1, .third) => (s1, .trap 0x08 0 a)
    | (s1, .sram o) => (s1, .bytes (getBytes s1.stew.sram o 8))
    | (s1, .dpa d) =>
      if !s1.reaches e d then (s1.unmapped e d, .trap 0x0A 0 a)
      else
        match s1.readFor e 7 (s1.srcOf e) (first || a % unitLen (d % 2 ^ 46) = 0) d 8 with
        | (s2, none) => (s2, .waits)
        | (s2, some (.ok, w)) => (s2, .bytes w)
        | (s2, some (.poison, _)) => (s2, .trap 0x0B (s2.targetId d) a)
        | (s2, some (.unmapped, _)) => (s2.unmapped e d, .trap 0x0A 0 a)

/-- Read words of a frame from word `8 - n` on. -/
def State.frameFrom (s : State) (e va : Nat) (bs : List Byte) : Nat → State × FrameRead
  | 0 => (s, .bytes bs)
  | n + 1 =>
    match s.frameWord e ((va + 8 * (7 - n)) % 2 ^ 64) (n = 7) with
    | (s1, .bytes w) => s1.frameFrom e va (bs ++ w) n
    | other => other

/-- Read the eight words of a frame on the current stack (R159). -/
def State.readFrame (s : State) (e va : Nat) : State × FrameRead :=
  match s.frameFrom e va [] 8 with
  | (s1, .waits) => (s1, .waits)
  | (s1, r) => (s1.dropGot e 7, r)

/-- RFE (R159, R163). -/
def execRfe (e : Nat) (p : Pfx) (s : State) : Res :=
  s.sysOp e p 0x06 (fun s =>
    let x := s.eng e
    if x.arch.escact then .stop (s.thirdFault e)
    else
      let sp := x.arch.g31s
      match s.readFrame e sp.toNat with
      | (s1, .waits) => .stop s1
      | (s1, .trap v d a) =>
        if v = 0x0B && e < 512 && s1.mirroredNow then .stop ((s1.chargeCyc e).clearPlace e)
        else .trap s1 v d (BitVec.ofNat 64 a)
      | (s1, .bytes bs) =>
        let done := x.endsError (.stack sp)
        let s2 := if done then s1.updEng e (fun x => { x with errFrame := none }) else s1
        .stop (s2.returnFrom e bs (fun a => { a with g31s := sp + 64, erract := a.erract && !done })))

/-- RFX (R164, R165). -/
def execRfx (e : Nat) (p : Pfx) (s : State) : Res :=
  s.sysOp e p 0x07 (fun s =>
    let x := s.eng e
    let sp := x.arch.esp.toNat
    if !x.arch.escact then .trap s 0x04 0x0001 0
    else if sp % 8 ≠ 0 || 0x40000 < sp + 64 then .stop (s.thirdFault e)
    else
      match s.readLoc e 7 (s.srcOf e) (s.escLoc e sp) true 64 with
      | (s1, none) => .stop s1
      | (s1, some (.ok, bs)) =>
        let done := x.endsError .esc
        let s2 := if done then s1.updEng e (fun x => { x with errFrame := none }) else s1
        .stop ((s2.dropGot e 7).returnFrom e bs (fun a =>
          { a with esp := BitVec.ofNat 64 ((sp + 64) % 2 ^ 19), escact := false, erract := a.erract && !done }))
      | (s1, some (_, _)) => .stop ((s1.dropGot e 7).thirdFault e))

/-- DSYNC (R107). -/
def execDsync (e : Nat) (p : Pfx) (s : State) : Res :=
  s.sysOp e p 0x08 (fun s => if s.drained e then .done s .next else .wait)

/-- The present tick holds cycle 1,024 of the Lap. -/
def State.at1024 (s : State) : Bool := s.tb % s.lapTicks = s.tick1024

/-- Every request issued in any part of the ring in a Lap or earlier has been performed (R339, R376). -/
def State.ringDone (s : State) (lap : Nat) : Bool :=
  !s.m.memq.any (fun r => r.lap ≤ lap) &&
    (List.range 32).all (fun n => n = s.pos || s.ringSize ≤ n || s.bit Reg.ringLost n || lap ≤ SMap.get 0 s.ring.doneLap n)

/-- TSYNC (R339). -/
def execTsync (e : Nat) (p : Pfx) (s : State) : Res :=
  s.sysOp e p 0x09 (fun s =>
    match (s.eng e).tsyncLap with
    | none => if s.writesDone e then .done s .next else .wait
    | some n =>
      if n + 3 ≤ s.lap && s.at1024 && s.writesDone e && s.ringDone (n + 1) then
        .done (s.updEng e (fun x => { x with tsyncLap := none })) .next
      else .wait)

/-- VWAIT (R107). -/
def execVwait (e : Nat) (p : Pfx) (s : State) : Res :=
  s.sysOp e p 0x0A (fun s => if s.drained e then .done s .next else .wait)

/-- BRK (R151). -/
def execBrk (e : Nat) (p : Pfx) (s : State) : Res := s.sysOp e p 0x0B (fun s => .trap s 0x05 0 0)

/-! ### Row 0x1 -/

/-- TLBI (R336 to R338). -/
def execTlbi (e : Nat) (p : Pfx) (f : FmtG) (s : State) : Res :=
  s.sysG e p 0x14 (must0 [f.sub.toNat / 4]) (fun s =>
    let g := (s.eng e).arch.rdG f.g.toNat
    let scope := f.sub.toNat % 4
    let va := bitsOf g.toNat 54 16 * 2 ^ 16
    if 512 ≤ e then .done s .next
    else if scope < 3 then .done (s.updEng e (fun x => x.tlbi scope g)) .next
    else
      let s1 := s.updEng e (fun x => { x.tlbi 0 g with tsyncLap := some s.lap })
      let s2 := { s1 with tlbi := s1.tlbi ++ [(s.lap + 2, va, g.setWidth 16)] }
      .done (s2.sendCtl [BitVec.ofNat 64 (s.lap % 256 * 256 + 0x02),
        BitVec.ofNat 64 (va + g.toNat % 65536)]) .next)

/-- RDPKR (R111). -/
def execRdpkr (e : Nat) (p : Pfx) (f : FmtG) (s : State) : Res :=
  s.sysG e p 0x15 (must0 [f.sub.toNat]) (fun s => s.toArch e (fun a => a.wrG f.g.toNat (a.pkr.setWidth 64)))

/-- WRPKR (R111). -/
def execWrpkr (e : Nat) (p : Pfx) (f : FmtG) (s : State) : Res :=
  s.sysG e p 0x16 (must0 [f.sub.toNat]) (fun s =>
    s.toArch e (fun a => { a with pkr := (a.rdG f.g.toNat).setWidth 32 }))

/-- The owner's condition of R436 for an engine: cluster or engine, or the Steward for its own Sequencer. -/
def ownsAs (e owner ownId : Nat) : Bool :=
  if 512 ≤ e then true else (owner = 2 && ownId = e / 16) || (owner = 3 && ownId = e)

/-- EVSIG on a local channel (R436). -/
def State.evsigLocal (s : State) (e : Nat) (g : W64) : State :=
  let c := g.toNat % 256
  let r := Reg.evtChCfg c
  let owner := ownsAs e (s.fld r 31 30) (s.fld r 29 21)
  let line := (List.range 8).any (fun i => s.bit (Reg.enIntEn e) i && s.intSel e i = c)
  let sec := s.bit r 20 || (s.eng e).arch.sup
  if g.getLsbD 8 then
    if (owner || (e < 512 && line)) && sec then
      let s1 := s.setFlag c false
      { s1 with
        evt := { s1.evt with view := s1.evt.view &&& ~~~(1#256 <<< c) }
        pair := { s1.pair with cleared := s1.pair.cleared ||| (1#256 <<< c) } }
    else s.denied c
  else if owner && sec then s.softPulse c s.hubNow
  else s.denied c

/-- EVSIG on a Domain channel (R445). -/
def State.evsigDom (s : State) (e : Nat) (g : W64) : State :=
  let d := g.toNat % 32
  let r := Reg.evtDchCfg d
  let owner := ownsAs e (s.fld r 31 30) (s.fld r 24 16) && (512 ≤ e || s.fld r 29 25 = s.pos)
  if owner && (s.bit r 15 || (s.eng e).arch.sup) then s.domSend d s.hubNow else s.satInc Reg.evtStat 15 0

/-- EVSIG (R436, R445). -/
def execEvsig (e : Nat) (p : Pfx) (f : FmtG) (s : State) : Res :=
  s.sysG e p 0x17 (must0 [f.sub.toNat / 2]) (fun s =>
    let g := (s.eng e).arch.rdG f.g.toNat
    .done (if f.sub = 1 then s.evsigDom e g else s.evsigLocal e g) .next)

/-- WAITE (R111, R437). -/
def execWaite (e : Nat) (p : Pfx) (f : FmtG) (s : State) : Res :=
  s.sysG e p 0x18 (must0 [f.sub.toNat]) (fun s =>
    let a := (s.eng e).arch
    let c := (a.rdG f.g.toNat).toNat % 256
    let wait := fun (s : State) (k : Nat) => s.updEng e (fun x => { x with waite := some (k, pLen p 0x18) })
    if !s.bit (Reg.evtChCfg c) 20 && !a.sup then .stop (wait (s.denied c) 257)
    else if s.seenFlag c then .done s .next
    else .stop (wait s c))

/-- TIME (R112). -/
def execTime (e : Nat) (p : Pfx) (f : FmtG) (s : State) : Res :=
  s.sysG e p 0x19 (must0 [f.sub.toNat]) (fun s =>
    s.toArch e (fun a =>
      a.wrG f.g.toNat (BitVec.ofNat 64 (if s.actMode.viewed then s.lap * s.lapTicks else s.tb))))

/-- LAPN (R111). -/
def execLapn (e : Nat) (p : Pfx) (f : FmtG) (s : State) : Res :=
  s.sysG e p 0x1A (must0 [f.sub.toNat]) (fun s => s.toArch e (fun a => a.wrG f.g.toNat (BitVec.ofNat 64 s.lap)))

/-- ENID (R111): the Steward has no engine number (DESIGN CHOICE, log 25). -/
def execEnid (e : Nat) (p : Pfx) (f : FmtG) (s : State) : Res :=
  s.sysG e p 0x1B (must0 [f.sub.toNat]) (fun s =>
    let n := if e < 512 then e else Config.stewardNumber % 512
    s.toArch e (fun a => a.wrG f.g.toNat (BitVec.ofNat 64 (s.pos * 512 + n))))

/-! ### Row 0xB (R76) -/

/-- The system register of a number: its index among three, for LS, LE and LC (Table 3.1). -/
inductive SysReg where
  | psr | flags | pkr | ctxid | evec | esp | holdcnt | vstate | usp | ttb
  | ls (i : Nat)
  | le (i : Nat)
  | lc (i : Nat)
deriving DecidableEq, Repr

/-- The register that a number names; none is reserved (R76). -/
def sysReg (n : Nat) : Option SysReg :=
  match n with
  | 0 => some .psr | 1 => some .flags | 2 => some .pkr | 3 => some .ctxid | 4 => some .evec | 5 => some .esp
  | 6 => some .holdcnt | 7 => some .vstate | 8 => some .usp | 9 => some .ttb
  | 0x10 => some (.ls 0) | 0x11 => some (.ls 1) | 0x12 => some (.ls 2)
  | 0x14 => some (.le 0) | 0x15 => some (.le 1) | 0x16 => some (.le 2)
  | 0x18 => some (.lc 0) | 0x19 => some (.lc 1) | 0x1A => some (.lc 2)
  | _ => none

/-- User privilege may read (`wr` false) or write the register (Table 3.1). -/
def SysReg.user (r : SysReg) (wr : Bool) : Bool :=
  match r with
  | .flags | .pkr | .ls _ | .le _ | .lc _ => true
  | .psr | .vstate => !wr
  | .ctxid | .evec | .esp | .holdcnt | .usp | .ttb => false

/-- Read a system register. -/
def Arch.sysRead (a : Arch) (r : SysReg) : W64 :=
  match r with
  | .psr => a.psr
  | .flags => a.flags
  | .pkr => a.pkr.setWidth 64
  | .ctxid => a.ctxid.setWidth 64
  | .evec => a.evec
  | .esp => a.esp
  | .holdcnt => a.holdcnt.setWidth 64
  | .vstate => a.vstate
  | .usp => a.g31u
  | .ttb => a.ttb
  | .ls i => SMap.get 0 a.ls i
  | .le i => SMap.get 0 a.le i
  | .lc i => SMap.get 0 a.lc i

/-- Write a system register: reserved bits ignore the write; PRIV and HOLDCNT keep their values (R76, R77, R218). -/
def Arch.sysWrite (a : Arch) (r : SysReg) (v : W64) : Arch :=
  match r with
  | .psr => { a with psr := (a.psr &&& 1) ||| (v &&& psrMask) }
  | .flags => { a with flags := v &&& flagsMask }
  | .pkr => { a with pkr := v.setWidth 32 }
  | .ctxid => { a with ctxid := v.setWidth 16 }
  | .evec => { a with evec := v &&& 0x007FFFFFFFFFFF00 }
  | .esp => { a with esp := BitVec.ofNat 64 (v.toNat % 2 ^ 19) }
  | .holdcnt => a
  | .vstate =>
    let n := if 25 ≤ bitsOf v.toNat 63 59 then vsNrec a.vstate else bitsOf v.toNat 63 59
    { a with vstate := BitVec.ofNat 64 (n * 2 ^ 59 + bitsOf v.toNat 58 39 * 2 ^ 39 + v.toNat % 2 ^ 32) }
  | .usp => { a with g31u := v }
  | .ttb => { a with ttb := v &&& 0x000FFFFFFFFF0001 }
  | .ls i => { a with ls := SMap.set 0 a.ls i v }
  | .le i => { a with le := SMap.set 0 a.le i v }
  | .lc i => { a with lc := SMap.set 0 a.lc i v }

/-- The loop buffer after an MTS (R130). -/
def mtsLbuf (b : Option LoopBuf) (r : SysReg) : Option LoopBuf :=
  match b, r with
  | some _, .psr => none
  | some x, .ls i | some x, .le i | some x, .lc i => if i = x.level then none else some x
  | b, _ => b

/-- MFS (R76). -/
def execMfs (e : Nat) (p : Pfx) (f : FmtI) (s : State) : Res :=
  let r := sysReg f.imm.toNat
  .next (s.scalar e p 0xB0 (fun _ => if r.isNone then 0x06 else must0 [f.a.toNat]) latNone (fun s =>
    match r with
    | none => .wait
    | some r =>
      if !(s.eng e).arch.sup && !r.user false then .trap s 0x04 0 0
      else if r = .vstate && !(s.eng e).tagsFree then .wait
      else s.toArch e (fun a => a.wrG f.d.toNat (a.sysRead r))))

/-- MTS (R76). -/
def execMts (e : Nat) (p : Pfx) (f : FmtI) (s : State) : Res :=
  let r := sysReg f.imm.toNat
  .next (s.scalar e p 0xB1 (fun _ => if r.isNone || r = some .holdcnt then 0x06 else must0 [f.d.toNat]) latNone
    (fun s =>
      match r with
      | none => .wait
      | some r =>
        if !(s.eng e).arch.sup && !r.user true then .trap s 0x04 0 0
        else if r = .vstate && !(s.eng e).tagsFree then .wait
        else
          .done (s.updEng e (fun x =>
            { x with
              arch := x.arch.sysWrite r (x.arch.rdG f.a.toNat),
              btb := if r = .ctxid then [] else x.btb, lbuf := mtsLbuf x.lbuf r })) .next))

/-- HOLD (R111, R171): a window that is open when it issues stays as it is, down to its last cycle. -/
def execHold (e : Nat) (p : Pfx) (f : FmtI) (s : State) : Res :=
  let n := f.imm.toNat
  .next (s.scalar e p 0xB4
    (fun _ => lowest (must0 [f.d.toNat, f.a.toNat]) (if n = 0 || 4096 < n then 0x0B else 0)) latNone (fun t =>
      t.toArch e (fun a => if (s.eng e).arch.holdcnt = 0 then { a with holdcnt := BitVec.ofNat 32 n } else a)))

/-- TRAP (R111). -/
def execTrap (e : Nat) (p : Pfx) (f : FmtI) (s : State) : Res :=
  .next (s.scalar e p 0xB5 (fun _ => must0 [f.d.toNat, f.a.toNat]) latNone (fun s =>
    .trap s 0x06 f.imm.toNat 0))

end Sys2Proof.Machine
end

