-- ==== Sys2Proof/Machine/Laps.lean ====
section
/-!
DEFINITION. Placements at and between Lap boundaries (spec/02_laps_and_admission.md): the Steward watchdog, the
preemption sweep, restore, Open work, the exhausted engine-cycle counter and the booking move. The commands KICK,
STEWARD_WATCHDOG, PREEMPTION_SWEEP, PLACEMENT_RESTORE, OPEN_TASK, ENGINE_CYCLE_COUNTER_EXHAUSTED, BOOKING_MOVE.
-/
namespace Sys2Proof.Machine

/-! ### The Steward watchdog (R31) -/

/-- A write of DEV_STEWARD_KICK. -/
def State.kickWrite (s : State) (v : BitVec 32) : State :=
  if v.getLsbD 0 && s.stew.up then { s with stew := { s.stew with kickLap := s.lap } } else s

/-- KICK (R31). -/
def execKick (m : Nat) (v : BitVec 32) (s : State) : Res :=
  if s.accessOk m 0xC 4 then .next (s.gate m 0xC v (fun s => s.kickWrite v))
  else .next (s.noAccess m 0xC)

/-- STEWARD_WATCHDOG (R31): 64 Laps have passed without a kick. -/
def execStewardWatchdog (s : State) : Res :=
  if s.windowUp ∧ !s.stew.halted ∧ s.stew.kickLap + 64 ≤ s.lap then .next s.stewardExpire else .next s

/-! ### Digests of the closing Lap (R406) -/

/-- The digest Le(n) of an engine closes: at its sweep, after the save. -/
def State.closeEngine (s : State) (e : Nat) : State :=
  if s.pair.closed then s
  else
    let d := (s.eng e).digest
    { s.updEng e (fun x => { x with digest := 0 }) with
      pair := { s.pair with own := if d = 0 then s.pair.own else SMap.set 0 s.pair.own e d } }

/-- LAPDIG and its 16 DATA flits go to the partner (R406, Table 12.3). -/
def State.sendLapDig (s : State) : State :=
  if !s.mirroredNow then s
  else
    (List.range 16).foldl (fun s k =>
      s.inject 2 { s.mkFlit 2 s.pos 3 0 1023 ((List.range 32).map (fun i => SMap.get 0 s.pair.own (32 * k + i))) with
        dlen := 255 }) (s.sendPair 0x9 [BitVec.ofNat 64 (s.lap - 1), s.pair.ownPart])

/-- The digests of the Lap that the latest boundary closed are complete (R406): engines whose sweep took no part close
now, and the part digest follows. -/
def State.closeDigests (s : State) : State :=
  if s.pair.closed then s
  else
    let late := s.listed.filter (fun e =>
      e < 512 && (match (s.eng e).place with | some p => decide (p.lap < s.lap) | none => false))
    let s1 := late.foldl (fun s e => s.closeEngine e) s
    let bs := (List.range 512).flatMap (fun e => leBytes 8 (SMap.get 0 s1.pair.own e).toNat) ++
      leBytes 8 s1.pair.closeIn.toNat ++ leBytes 8 s1.pair.closeDec.toNat
    ({ s1 with pair := { s1.pair with ownPart := crc64More 0 bs, closed := true } } : State).sendLapDig

/-! ### The preemption sweep (R37, R38, R49) -/

/-- A cluster's engines run in Noon only (R535). -/
def State.awake (s : State) (e : Nat) : Bool := s.fld (Reg.pwrClStat (e / 16)) 31 30 = 0

/-- An engine can take work: usable, awake, in a running mode, and its part not fenced (R412). -/
def State.canRun (s : State) (e : Nat) : Bool :=
  e < 512 && s.usable e && !(s.eng e).hung && s.awake e && s.runs && !s.bit Reg.pairStat 26

/-- The outgoing placement of an engine is saved; its Task is parked while it holds a later booking (R37, R49), unless another
engine has taken its next placement already. -/
def State.saveOut (s : State) (e : Nat) : State :=
  match (s.eng e).place with
  | none => s
  | some p =>
    let s1 := if p.restored then s.savePlacement e p.save else s
    (s1.updTask p.tti (fun t =>
      if t.epoch = p.epoch ∧ t.st ≠ .free then
        { (if p.restored then t.keep (s.eng e) else t) with
                 started := t.started || p.restored,
                 st := if t.st = .running ∧ t.engine = e ∧ t.cls ≠ 2 ∧ t.lapsLeft ≠ 0 then .parked else t.st }
      else t)).clearPlace e

/-- Resume records that a placement stop left are re-issued (R215, R216). -/
def State.lapResume (s : State) (e : Nat) : State :=
  if vsLapres (s.eng e).arch.vstate then
    match s.resumeVec e true with
    | (s1, none) => s1
    | (s1, some c) => s1.except e 0x03 c 0 none true none
  else s

/-- The same Task goes on in the new Lap without save or restore (R37), with fresh budgets (R56). -/
def State.resumeSame (s : State) (e : Nat) (p : Placement) : State :=
  let cv := (s.task p.tti).cv
  let s1 := (s.noteRan e p.tti).updEng e (fun x =>
    { x with running := p.restored, place := some { p with lap := s.lap, budget := cv.budget, cyc := 0 } })
  let s2 := s1.updTask p.tti (fun t => { t with engine := e, lapsLeft := t.lapsLeft - 1 })
  let r := s2.row s2.lap
  let s3 := s2.setRow s2.lap { r with
    plc := r.plc.map (fun b => if b.engine = e ∧ b.tti = p.tti then { b with taken := true } else b) }
  if p.restored then s3.lapResume e else s3

/-- The invalidations of TLBI DOMAIN that are due act on an engine, once for each boundary (R338). -/
def Engine.applyDue (x : Engine) (lap : Nat) (l : List (Nat × Nat × BitVec 16)) : Engine :=
  { (l.filter (fun t => t.1 ≤ lap && x.swept < t.1)).foldl (fun (y : Engine) t => y.dropSlots (pageSel t.2.1 t.2.2)) x with
    swept := Nat.max x.swept lap }

/-- Due invalidations of TLBI DOMAIN act on an engine before a placement of the Lap runs there (R338). -/
def State.sweepTlb (s : State) (e : Nat) : State := s.updEng e (fun x => x.applyDue s.lap s.tlbi)

/-- A corrected error in a read of the Ledger is recorded (R305, Table 9.7). -/
def State.ledgerCe (s : State) (ce : Bool) : State := if ce then s.fault 0x01 (originOf s.pos 6 0) 0 0 0 0 else s

/-- Uncorrectable errors in entries of an engine's placement list (R41, Table 12.5): `bad` gives their places among its
placements of the current row that are not yet taken. Their Tasks are settled Failed. -/
def State.badEntries (s : State) (e : Nat) (bad : List Nat) : State :=
  let mine := ((s.row s.lap).plc.filter (fun b => b.engine = e && !b.taken)).map (fun b => b.tti)
  (bad.filterMap (fun i => mine[i]?)).foldl (fun s t =>
    let s1 := s.fault 0x0A (originOf s.pos 6 0) 0 (s.task t).epoch t 0
    let r := s1.row s1.lap
    let s2 := s1.setRow s1.lap { r with plc := r.plc.filter (fun b => !(b.engine = e && b.tti = t)) }
    if s2.mirroredNow then s2 else s2.fail t 0x08) s

/-- The engine takes its first booked placement, or Open work. -/
def State.takeNext (s : State) (e : Nat) : State :=
  if !s.canRun e then s
  else
    match s.nextBooked e with
    | some t => s.takePlacement e t false
    | none =>
      match s.nextOpen e with
      | some t => s.takePlacement e t true
      | none => s

/-- The Task that an engine holds is the one that its row books first, and may go on (R37). -/
def State.sameTask (s : State) (e : Nat) (p : Placement) : Bool :=
  let t := s.task p.tti
  s.canRun e && !p.isOpen && t.st = .running && t.epoch = p.epoch && t.ovr = 0 && !t.cancelReq &&
    ((s.row s.lap).plc.find? (fun b => b.engine = e && !b.taken)).map (fun b => b.tti) = some p.tti

/-- PREEMPTION_SWEEP (R37): once per engine and Lap. `found` names the entries of its placement list that have an
uncorrectable error. -/
def execPreemptionSweep (e : Nat) (found : LedgerRead) (s : State) : Res :=
  if e < 512 && !(s.eng e).hung then
    let s0 := ((s.ledgerCe found.ce).badEntries e found.bad).sweepTlb e
    match (s0.eng e).place with
    | none => .next (s0.takeNext e)
    | some p =>
      if p.lap = s0.lap then .next s
      else if s0.sameTask e p then .next ((s0.closeEngine e).resumeSame e p)
      else .next (((s0.saveOut e).closeEngine e).takeNext e)
  else .next s

/-! ### Restore (R150, R170, R215, R470, R591) -/

/-- The bytes of a save area; a poisoned one gives free values (DESIGN CHOICE, log 26). -/
def State.readSave (s : State) (dpa : Nat) : State × List Byte :=
  match s.readLocal (.master s.pos 63) (dpa % 2 ^ 46) 2048 with
  | (s1, .ok, bs) => (s1, bs)
  | (s1, _, _) =>
    ({ s1 with freeCtr := s1.freeCtr + 64 },
      (List.range 64).flatMap (fun i => leBytes 32 (Config.errorData (s1.freeCtr + i)).toNat))

/-- Another engine still holds the Task: its placement is not yet saved. -/
def State.heldElsewhere (s : State) (e tti : Nat) : Bool :=
  s.engines.any (fun q => q.1 ≠ e && (match q.2.place with | some p => p.tti = tti | none => false))

/-- A granule of a save area lies in a channel whose maintenance window is open (R298). -/
def State.saveHeld (s : State) (dpa : Nat) : Bool :=
  (List.range 8).any (fun i => s.heldAt (dpa % 2 ^ 46 + 256 * i))

/-- The registers of a restored placement: errors that its Task has kept join its error queue (R173), all of them there
from now on. -/
def State.restoredArch (s : State) (t : Task) (a : Arch) : Arch :=
  { a with errq := (t.errq.foldl (fun q x => addErr q x) a.errq).map (fun x => { x with tick := s.tb }) }

/-- PLACEMENT_RESTORE (R215, R470): once the Task's last placement is saved; the predictor is flushed, and the placement may
run (R148). -/
def execPlacementRestore (e : Nat) (s : State) : Res :=
  match (s.eng e).place with
  | none => .next s
  | some p =>
    if e < 512 ∧ !p.restored ∧ s.runs ∧ !s.heldElsewhere e p.tti then
      let t := s.task p.tti
      let go := fun (x : Engine) (a : Arch) =>
        { x.refetch true with
          arch := s.restoredArch t a, running := true, place := some { p with restored := true }, tend := 0,
          errFrame := t.errFrame, tsyncLap := t.tsync, vinsts := [], chains := [], reissue := none }
      let taken := fun (s : State) => s.updTask p.tti (fun t => { t with started := true, errq := [], errFrame := none, tsync := none })
      if !t.started then .next (taken (s.updEng e (fun x => go x t.initArch)))
      else if s.saveHeld p.save then .next s
      else
        let (s1, bs) := s.readSave p.save
        let a := archOf bs
        let s2 := s1.putNow (.engine s.pos e) p.epoch (s.dpaOf (bankBase e + vraOff))
          ((bs.drop 0x500).take (24 * vsNrec a.vstate))
        .next ((taken (s2.updEng e (fun x => go x a))).lapResume e)
    else .next s

/-! ### Within a Lap (R57, R60) -/

/-- OPEN_TASK (R60): no booked placement is left, and the engine holds none. -/
def execOpenTask (e : Nat) (s : State) : Res :=
  if s.canRun e ∧ (s.eng e).place = none ∧ s.nextBooked e = none then
    match s.nextOpen e with
    | some t => .next ((s.sweepTlb e).takePlacement e t true)
    | none => .next s
  else .next s

/-- ENGINE_CYCLE_COUNTER_EXHAUSTED (R57): OVR is recorded; with another placement booked on the engine the Task is
stopped and saved, else it runs on as Open use. -/
def execEngineCycleCounterExhausted (e : Nat) (s : State) : Res :=
  match (s.eng e).place with
  | none => .next s
  | some p =>
    if e < 512 ∧ p.restored ∧ !p.isOpen ∧ p.budget.cyc ≤ p.cyc then
      let s1 := s.setOvr p.tti 0
      if (s1.nextBooked e).isSome then .next (s1.stopUnder57 e) else .next s1
    else .next s

/-! ### Booking moves (R64) -/

/-- The first row from Lap `l` on, up to a Task's deadline, that fits and holds no placement of the Task. -/
def State.laterRow (s : State) (tti l : Nat) : Option Nat :=
  let t := s.task tti
  let last := Nat.min t.deadlineLap (s.lap + 256)
  ((List.range (last + 1 - l)).map (fun i => l + i)).find? (fun k =>
    !((s.row k).plc.any (fun b => b.tti = tti)) && (s.fits t.cv (s.row k)).1 = 0)

/-- Move one placement of a Task out of the row of a Lap: within the row unless it is the current one, else later. -/
def State.moveOne (s : State) (e l tti : Nat) : State :=
  let t := s.task tti
  if t.st = .free || t.st = .settled then s
  else
    let r := s.row l
    let now : Bool := l = s.lap
    let r1 := if now then { r with plc := r.plc.filter (fun b => !(b.engine = e && b.tti = tti && !b.taken)) }
      else (r.release t.cv tti).setCtr e 0
    let s1 := s.setRow l r1
    if !now && (s1.fits t.cv r1).1 = 0 then s1.bookLap t.cv tti l
    else
      match (if t.cls = 1 then s1.laterRow tti (l + 1) else none) with
      | some k => s1.bookLap t.cv tti k
      | none => s1.fail tti 0x09

/-- Move every placement of a lost engine, in row order and list order. -/
def State.moveBookings (s : State) (e : Nat) : State :=
  let rows := s.sta.rows.filter (fun p => s.lap ≤ p.1)
  let moves := rows.flatMap (fun p =>
    (p.2.plc.filter (fun b => b.engine = e && !(p.1 = s.lap && b.taken))).map (fun b => (p.1, b.tti)))
  moves.foldl (fun s (m : Nat × Nat) => s.moveOne e m.1 m.2) s

/-- A lost engine still holds bookings that are to be moved. -/
def State.toMove (s : State) : Bool :=
  s.sta.rows.any (fun p => s.lap ≤ p.1 && p.2.plc.any (fun b => !s.usable b.engine && !(p.1 = s.lap && b.taken)))

/-- BOOKING_MOVE (R64): the move of a lost engine's placements is complete. -/
def execBookingMove (e : Nat) (s : State) : Res :=
  if s.sta.moving ∧ e < 512 ∧ !s.usable e then
    let s1 := s.moveBookings e
    .next { s1 with sta := { s1.sta with moving := s1.toMove } }
  else .next s

end Sys2Proof.Machine
end

