-- ==== Sys2Proof/Machine/Admission.lean ====
section
/-!
DEFINITION. Submission, admission and completion records (spec/02_laps_and_admission.md, R45 to R55, R60 to R62;
spec/14_host_port.md, R469 to R478). The commands SQ_FETCH, SUBMIT, COST_VECTOR_READ, DECISION, CANCEL, STA_TT_INDEX,
COMPLETE, ACCEPT and NOTICE.
-/
namespace Sys2Proof

/-- OPC is CANCEL (Table 14.3). -/
def Rec64.isCancel (r : Rec64) : Bool := bitsOf r.w0.toNat 7 0 = 2
/-- CID. -/
def Rec64.cid (r : Rec64) : Nat := bitsOf r.w0.toNat 31 16
/-- ACKREQ. -/
def Rec64.ackreq (r : Rec64) : Bool := bitsOf r.w0.toNat 8 8 = 1
/-- CV_DPA. -/
def Rec64.cvDpa (r : Rec64) : Nat := bitsOf r.w1.toNat 51 0
/-- SAVE_DPA. -/
def Rec64.saveDpa (r : Rec64) : Nat := bitsOf r.w2.toNat 51 0

end Sys2Proof

namespace Sys2Proof.Machine

/-! ### Roles of the host port (R33, R399, R425, R471, R482) -/

/-- The host link is up and the port in D0 (R465, R471). -/
def State.portOn (s : State) : Bool := s.bit Reg.hostStat 31 && !s.host.d3

/-- A Trail part that no forwarding has reached: it works on its own and refuses with PACER (R425). -/
def State.rejoining (s : State) : Bool :=
  s.actMode = .trail && !s.bit Reg.pairStat 27 && !s.bit Reg.pairStat 26 && !s.pacer

/-- The modes and roles in which the port fetches (R471). -/
def State.fetches (s : State) : Bool :=
  s.portOn && (s.mode = .prep || s.mode = .dusk || s.mode = .service || s.mode.running) && s.actMode ≠ .replay &&
    (s.actMode ≠ .trail || s.bit Reg.pairStat 27 || s.rejoining)

/-- The part posts records (R399, R412, R425, R471, R554). -/
def State.posts (s : State) : Bool :=
  s.portOn && s.windowUp && s.mode ≠ .dawn && s.actMode ≠ .replay && !s.bit Reg.pairStat 26 &&
    (s.actMode ≠ .trail || s.bit Reg.pairStat 27 || s.rejoining)

/-! ### Fetching (R62, R471) -/

/-- Records of a queue of 2^LOG2SIZE. -/
def State.sqSize (s : State) (q : Nat) : Nat := 2 ^ s.fld (Reg.hostSqCfg q) 3 0

/-- HEAD. -/
def State.sqHead (s : State) (q : Nat) : Nat := s.fld (Reg.hostSqCfg q) 23 12

/-- Fetches of a queue whose HEAD has not advanced yet: in flight, or not acknowledged by the Pacer (R398). -/
def State.sqAhead (s : State) (q : Nat) : Nat :=
  (s.sta.fetching.filter (fun x => x = q)).length + (s.pair.cmdAck.filter (fun x => x = q)).length

/-- The queue has a record to fetch (R471). -/
def State.sqReady (s : State) (q : Nat) : Bool :=
  s.bit (Reg.hostSqCfg q) 31 && (s.sqHead q + s.sqAhead q) % s.sqSize q ≠ SMap.get 0 s.host.sqTail q

/-- The next queue in turn (R471). -/
def State.nextSq (s : State) : Option Nat :=
  ((List.range 64).map (fun k => (s.host.lastSq + 1 + k) % 64)).find? (fun q => s.sqReady q)

/-- Submissions counted against the limit of 16: also those forwarded to the Pacer, whose cost-vector reads are due at
their release (R51, R62, R397). -/
def State.counted (s : State) : Nat :=
  s.sta.intake.length + s.sta.cvReads.length + s.sta.fetching.length +
    (s.pair.inputs.filter (fun i => match i with | .hostcmd _ _ _ _ _ => true | .hostwr _ _ _ _ _ | .regwr _ _ _ => false)).length

/-- SQ_FETCH (R471). -/
def execSqFetch (s : State) : Res :=
  if s.fetches ∧ s.counted < 16 ∧ s.inputRoom then
    match s.nextSq with
    | some q =>
      .next { s with host := { s.host with lastSq := q }, sta := { s.sta with fetching := s.sta.fetching ++ [q] } }
    | none => .next s
  else .next s

/-! ### A record arrives (R45, R51, R469, R478) -/

/-- A DPA names this part. -/
def State.mine (s : State) (dpa : Nat) : Bool := dpa / 2 ^ 46 = s.pos

/-- A cost vector may be read at a DPA (R51): local, in a Home Bank, the Directory tier or DDR5, aligned to 64. -/
def State.cvPlace (s : State) (dpa : Nat) : Bool :=
  s.mine dpa && dpa % 64 = 0 &&
    (match s.tier (dpa % 2 ^ 46) with
     | .ddr _ _ | .dir _ _ | .bank _ => true
     | .exp _ _ | .regs | .none => false)

/-- A submission enters the intake queue, which is recorded (R50, R548). -/
def State.enterIntake (s : State) (m : Subm) : State :=
  ({ s with sta := { s.sta with intake := s.sta.intake ++ [m] } }).log 0x02 m.sq 0 m.r.words

/-- A record goes on from the host port: a CANCEL, or a SUBMIT refused with LOCATION, at once; else its cost vector is
read first (R51, R471). -/
def State.present (s : State) (sq sqhead : Nat) (r : Rec64) : State :=
  let m : Subm := { sq := sq, r := r, sqhead := sqhead, cv := CostVec.zero, location := false }
  if r.isCancel then s.enterIntake m
  else if s.cvPlace r.cvDpa then { s with sta := { s.sta with cvReads := s.sta.cvReads ++ [m] } }
  else s.enterIntake { m with location := true }

/-- SUBMIT (R51, R478): the record of the oldest fetch arrives; a Lead forwards it (R397, R398). -/
def execSubmit (r : Rec64) (ok : Bool) (s : State) : Res :=
  match s.sta.fetching with
  | [] => .next s
  | q :: rest =>
    let s1 := { s with sta := { s.sta with fetching := rest } }
    if !ok then
      .next ((({ s1 with sta := { s1.sta with fetching := rest.filter (fun x => x ≠ q) } } : State).setBit
        (Reg.hostSqCfg q) 31 false).setBit Reg.hostStat 19 true)
    else
      let s2 := s1.add64 Reg.hostCntFetch 1
      let ahead := (s.pair.cmdAck.filter (fun x => x = q)).length
      let head := (s2.sqHead q + ahead + 1) % s2.sqSize q
      if s2.forwarding then
        let n := s2.pair.taken
        let s3 := s2.takeInput (.hostcmd s2.lap n q head r) 0x1
          ([BitVec.ofNat 64 s2.lap, BitVec.ofNat 64 n] ++ r.words)
        .next { s3 with pair := { s3.pair with cmdAck := s3.pair.cmdAck ++ [q] } }
      else .next ((s2.setFld (Reg.hostSqCfg q) 23 12 head).present q head r)

/-! ### The cost vector (R45, R51) -/

/-- A part entry of Table 2.4. -/
def cvEntryOf (w0 w1 : Nat) : CvEntry :=
  { part := bitsOf w0 52 48, ring := bitsOf w0 47 32, bulk := bitsOf w0 23 0, dir := bitsOf w1 43 24,
    cxl := bitsOf w1 23 0, rsvdOk := bitsOf w0 63 53 = 0 && bitsOf w0 31 24 = 0 && bitsOf w1 63 44 = 0 }

/-- Word `i` of bytes as a number. -/
def natAt (bs : List Byte) (i : Nat) : Nat := ofLe ((bs.drop (8 * i)).take 8)

/-- The cost vector in bytes (Tables 2.3, 2.4). -/
def costVecOf (bs : List Byte) : CostVec :=
  let c := natAt bs 0
  let l := natAt bs 1
  let n := bitsOf c 24 19
  { version := bitsOf c 63 56, cls := bitsOf c 55 54, restart := bitsOf c 53 53 = 1,
    rsvdOk := bitsOf c 52 52 = 0 && bitsOf c 18 0 = 0 && bitsOf l 63 40 = 0, span := bitsOf c 51 44,
    deadline := bitsOf c 43 36, place := bitsOf c 35 34, placeId := bitsOf c 33 25, npart := n, hb := bitsOf l 39 16,
    cyc := bitsOf l 15 0,
    parts := if 32 < n then [] else (List.range n).map (fun i => cvEntryOf (natAt bs (2 + 2 * i)) (natAt bs (3 + 2 * i))) }

/-- Take units of a component of this part out of the current row; none where too little is left (R51). In a mode without a
current row there is nothing to charge (DESIGN CHOICE, log 139). -/
def State.chargeRow (s : State) (off n : Nat) : Option State :=
  let r := s.row s.lap
  let k := unitsTouched off n
  if !s.runs then some s
  else
  match s.tier off with
  | .bank _ => if k ≤ r.hb then some (s.setRow s.lap { r with hb := r.hb - k }) else none
  | .dir _ _ =>
    if k ≤ SMap.get 0 r.dir s.pos then
      some (s.setRow s.lap { r with dir := SMap.upd 0 r.dir s.pos (· - k) }) else none
  | .ddr _ _ =>
    if k ≤ SMap.get 0 r.bulk s.pos then
      some (s.setRow s.lap { r with bulk := SMap.upd 0 r.bulk s.pos (· - k) }) else none
  | .exp _ _ | .regs | .none => none

/-- Bytes of the cost vector that are read: NPART above 32 is read no further than the header. The header is what master 35
reads. -/
def State.cvBytes (s : State) (off : Nat) : Nat :=
  let n := bitsOf (word8 (s.m.seenBy (.master s.pos 35)).mem off) 24 19
  if 32 < n then 16 else 16 + 16 * n

/-- COST_VECTOR_READ (R51): a booked read of this part through master 35; `ue` says that it meets an uncorrectable
error. Without capacity in the current row it waits. -/
def execCostVectorRead (ue : Bool) (s : State) : Res :=
  match s.sta.cvReads with
  | [] => .next s
  | m :: rest =>
    let off := m.r.cvDpa % 2 ^ 46
    let n := s.cvBytes off
    match s.chargeRow off n with
    | none => .next s
    | some s1 =>
      let s2 := (s1.countUnits s.pos off n s.lap true).1
      let s3 := { s2 with sta := { s2.sta with cvReads := rest } }
      if s.heldAt off then .next s
      else if ue then .next ((s3.ueEvent off).enterIntake { m with location := true })
      else
        match s3.readLocal (.master s3.pos 35) off n with
        | (s4, .ok, bs) => .next (s4.enterIntake { m with cv := costVecOf bs })
        | (s4, _, _) => .next (s4.enterIntake { m with location := true })

/-! ### The decision (R46, R50 to R55) -/

/-- A rule of R46 is broken. -/
def State.formatBad (s : State) (cv : CostVec) : Bool :=
  cv.version ≠ 1 || cv.cls = 3 || cv.place = 3 || !cv.rsvdOk || cv.cyc = 0 || 32 < cv.npart ||
    cv.parts.any (fun p => !p.rsvdOk || !s.partUp p.part || (p.part = s.pos && p.ring ≠ 0)) ||
    !(cv.parts.map (fun p => p.part)).Nodup ||
    (cv.cls = 0 && (cv.span ≠ 0 || cv.deadline ≠ 0)) || (cv.cls = 1 && cv.deadline < cv.span)

/-- The save area is local, aligned to 2 KiB, in one Home Bank or in DDR5 (R45). -/
def State.saveOk (s : State) (dpa : Nat) : Bool :=
  s.mine dpa && dpa % 2048 = 0 &&
    (match s.tier (dpa % 2 ^ 46) with
     | .bank _ => true
     | .ddr _ _ =>
       (match s.tier (dpa % 2 ^ 46 + 2047) with
        | .ddr _ _ => true
        | .exp _ _ | .dir _ _ | .bank _ | .regs | .none => false)
     | .exp _ _ | .dir _ _ | .regs | .none => false)

/-- PLACE_ID is out of range or names nothing usable (Table 2.7). -/
def State.placeBad (s : State) (cv : CostVec) : Bool :=
  match cv.place with
  | 1 => 31 < cv.placeId || !(placeRange cv).any (fun e => s.usable e)
  | 2 => !s.usable cv.placeId
  | _ => false

/-- The checks of codes 0x01 to 0x07, in order (R54); 0 means that all hold. -/
def State.refusalCode (s : State) (m : Subm) : Nat :=
  if !s.bit Reg.staAdmitCtrl 0 then 0x01
  else if s.rejoining then 0x02
  else if m.location || !s.saveOk m.r.saveDpa then 0x03
  else if s.formatBad m.cv then 0x04
  else if s.freeTask = none then 0x05
  else if s.placeBad m.cv then 0x06
  else if m.cv.cls = 2 && !s.bit Reg.staAdmitCtrl 1 then 0x07
  else 0

/-- The search of R54 from Lap `l` on, over at most `fuel` Laps: the Laps chosen, and the first reason met. -/
def State.choose (s : State) (cv : CostVec) (l need : Nat) : Nat → List Nat × (Nat × Nat)
  | 0 => ([], (0, 0))
  | fuel + 1 =>
    if need = 0 then ([], (0, 0))
    else
      let r := s.fits cv (s.row l)
      if r.1 = 0 then
        let x := s.choose cv (l + 1) (need - 1) fuel
        (l :: x.1, x.2)
      else
        let x := s.choose cv (l + 1) need fuel
        (x.1, r)

/-- A decision is recorded: counted in the part digest, compared in a replay, logged (R406, R548, R555). -/
def State.noteDecision (s : State) (tti reason sq cid : Nat) : State :=
  let a := tti % 65536 + reason % 256 * 2 ^ 16 + sq % 64 * 2 ^ 24
  let cyc := s.tb % s.lapTicks * s.cclk / s.lapTicks
  let bs := leBytes 8 (0x0801 * 2 ^ 48 + cyc % 65536 * 2 ^ 32 + a) ++ leBytes 8 cid
  ({ s with
      pair := { s.pair with decCrc := crc64More s.pair.decCrc bs },
      sta := { s.sta with decisions := if s.mode = Mode.replay then s.sta.decisions ++ [(tti, reason, sq, cid)]
                                       else s.sta.decisions } }).log 0x08 a (BitVec.ofNat 64 cid) []

/-- Refuse a submission (R53). -/
def State.refuse (s : State) (m : Subm) (reason part : Nat) : State :=
  ((s.add64 Reg.staCountRefuse 1).hold (s.cqOf m.sq)
    (s.refusal m reason (if 0x12 ≤ reason then part else 0))).noteDecision 0 reason m.sq m.r.cid

/-- The ACCEPT record of an accepted SUBMIT with ACKREQ (R472). -/
def State.acceptRec (s : State) (m : Subm) (tti : Nat) : CRec :=
  { w0 := crecW0 m.r.cid m.sq 0 false false 0 0x02, w1 := crecW1 m.sqhead 0 0 0 tti, w2 := BitVec.ofNat 64 s.lap,
    w3 := 0, frees := none }

/-- The Task Table entry of an accepted submission (R47 to R49, R415, R470). -/
def State.newTask (s : State) (m : Subm) (laps epoch : Nat) : Task :=
  let cv := m.cv
  { Task.empty with
    st := if cv.cls = 2 then .queued else .booked, cls := cv.cls, restart := cv.restart, epoch := epoch, sq := m.sq,
    cid := m.r.cid, acceptLap := s.lap,
    deadlineLap := if cv.cls = 2 then 2 ^ 64 - 1 else s.lap + cv.deadline + 1, cvDpa := m.r.cvDpa,
    saveDpa := m.r.saveDpa, entry := BitVec.ofNat 64 (bitsOf m.r.w3.toNat 54 0), cv := cv, ttb := m.r.w4,
    pkr := BitVec.ofNat 32 (m.r.w5.toNat / 2 ^ 32), ctxid := BitVec.ofNat 16 m.r.w5.toNat, arg0 := m.r.w6,
    arg1 := m.r.w7, lapsLeft := laps, sqhead := m.sqhead, ackreq := m.r.ackreq, order := s.sta.accepted }

/-- Accept a submission into entry `tti`, booked in the chosen Laps (R54). -/
def State.admitSubm (s : State) (m : Subm) (tti : Nat) (laps : List Nat) : State :=
  let (s1, ep) := s.nextEpoch
  let s2 := s1.updTask tti (fun _ => s1.newTask m laps.length ep)
  let s3 := laps.foldl (fun s l => s.bookLap m.cv tti l) s2
  let s4 := { s3 with sta := { s3.sta with
    accepted := s3.sta.accepted + 1, openq := if m.cv.cls = 2 then s3.sta.openq ++ [tti] else s3.sta.openq } }
  let s5 := s4.add64 Reg.staCountAccept 1
  (if m.r.ackreq then s5.hold (s5.cqOf m.sq) (s5.acceptRec m tti) else s5).noteDecision tti 0 m.sq m.r.cid

/-- The Starter decides a SUBMIT. -/
def State.decideSubm (s : State) (m : Subm) : State :=
  let code := s.refusalCode m
  if code ≠ 0 then s.refuse m code 0
  else
    match s.freeTask with
    | none => s.refuse m 0x05 0
    | some tti =>
      if m.cv.cls = 2 then s.admitSubm m tti []
      else
        let need := m.cv.span + 1
        let x := s.choose m.cv (s.lap + 1) need (m.cv.deadline + 1)
        if x.1.length < need then s.refuse m x.2.1 x.2.2 else s.admitSubm m tti x.1

/-- Capacity counters of rows found uncorrectable: the rows refuse further bookings, and it is recorded (R41). -/
def State.badRows (s : State) (bad : List Nat) : State :=
  bad.foldl (fun s l =>
    if s.lap < l ∧ l ≤ s.lap + 256 ∧ !(s.row l).bad then
      (s.setRow l { s.row l with bad := true }).fault 0x0A (originOf s.pos 6 0) 0 0 0 0
    else s) s

/-- The Starter decides: not in HOLD or DAWN, not in cycles 0 to 63 of a boundary (R50), and not during a booking move
(R52). -/
def State.decides (s : State) : Bool := s.windowUp && s.mode ≠ .dawn && !s.sta.moving && s.pastCycle 64

/-- DECISION (R54): the front of the intake queue is a SUBMIT. `found` lists the Laps whose rows have a capacity counter
with an uncorrectable error. -/
def execDecision (found : LedgerRead) (s : State) : Res :=
  match s.sta.intake with
  | [] => .next s
  | m :: rest =>
    if s.decides ∧ !m.r.isCancel then
      .next (((({ s with sta := { s.sta with intake := rest } } : State).ledgerCe found.ce).badRows found.bad).decideSubm m)
    else .next s

/-- CANCEL (R61, R471): the front of the intake queue is a CANCEL. -/
def execCancel (s : State) : Res :=
  match s.sta.intake with
  | [] => .next s
  | m :: rest =>
    if s.decides ∧ m.r.isCancel then
      let tti := bitsOf m.r.w1.toNat 15 0
      let s1 := ({ s with sta := { s.sta with intake := rest } } : State).noteDecision tti 0 m.sq m.r.cid
      let t := s1.task tti
      if t.sq ≠ m.sq ∨ t.cid ≠ bitsOf m.r.w1.toNat 31 16 ∨ t.ovr ≠ 0 then .next s1
      else
        match t.st with
        | .booked | .parked | .queued => .next (s1.settle tti .cancelled 0 0)
        | .running => .next (s1.updTask tti (fun t => { t with cancelReq := true }))
        | .free | .settled => .next s1
    else .next s

/-! ### STA_TT_INDEX (R73, Table 2.6) -/

/-- STATE's code. -/
def TState.code : TState → Nat
  | .free => 0 | .booked => 1 | .running => 2 | .parked => 3 | .queued => 4 | .settled => 5

/-- The eight words of a Task Table entry. -/
def Task.words (t : Task) : List Nat :=
  [t.st.code * 2 ^ 60 + t.outcome.code * 2 ^ 57 + t.cls * 2 ^ 55 + t.restart.toNat * 2 ^ 54 + t.ended.toNat * 2 ^ 53 +
    t.ovr.toNat * 2 ^ 47 + t.epoch % 65536 * 2 ^ 31 + t.engine % 512 * 2 ^ 22 + t.lapsLeft % 512 * 2 ^ 13,
    t.sq % 256 * 2 ^ 48 + t.cid % 65536 * 2 ^ 32, t.acceptLap, t.deadlineLap, t.cvDpa, t.saveDpa, t.entry.toNat, t.cyc]

/-- A write of STA_TT_INDEX: the whole entry is copied. -/
def State.ttIndexWrite (s : State) (v : BitVec 32) : State :=
  let i := bitsOf v.toNat 15 0
  let ws := (s.task i).words
  (List.range 16).foldl
    (fun s k => s.wr (Reg.staTtData k) (BitVec.ofNat 32 (ws.getD (k / 2) 0 / 2 ^ (32 * (k % 2)))))
    (s.setFld Reg.staTtIndex 15 0 i)

/-- STA_TT_INDEX (R73). -/
def execStaTtIndex (m : Nat) (v : BitVec 32) (s : State) : Res :=
  if s.accessOk m 0 4 then .next (s.gate m Reg.staTtIndex.off v (fun s => s.ttIndexWrite v))
  else .next (s.noAccess m Reg.staTtIndex.off)

/-! ### Posting (R48, R399, R472, R474, R475) -/

/-- Records of a CQ of 2^LOG2SIZE. -/
def State.cqSize (s : State) (q : Nat) : Nat := 2 ^ s.fld (Reg.hostCqCfg q) 4 0

/-- TAIL. -/
def State.cqTail (s : State) (q : Nat) : Nat := s.fld (Reg.hostCqCfg q) 20 5

/-- The CQ is full (R474). -/
def State.cqFull (s : State) (q : Nat) : Bool := (s.cqTail q + 1) % s.cqSize q = (s.cq q).head

/-- MSI-X vector: sent, or pending while it is masked or MSI-X is disabled (R474); reset leaves MSI-X disabled and every
vector masked (PRESUMED, log 28). -/
def State.sendMsix (s : State) (v : Nat) : State :=
  if !s.portOn || !s.host.msixOn || SMap.get true s.host.msixMask v then
    { s with host := { s.host with msixPend := SMap.set false s.host.msixPend v true } }
  else s.emit (.msix v)

/-- TAIL and the phase advance past one record. -/
def State.advanceTail (s : State) (q : Nat) : State :=
  let n := (s.cqTail q + 1) % s.cqSize q
  (s.setFld (Reg.hostCqCfg q) 20 5 n).updCq q (fun c => { c with phase := if n = 0 then !c.phase else c.phase })

/-- The entry of a posted COMPLETE record: FREE at once, or at cycle 1,024 of the next Lap (R48, R399). -/
def State.freePosted (s : State) (r : CRec) : State :=
  match r.frees with
  | none => s
  | some t =>
    if s.actMode.mirrored then { s with pair := { s.pair with postedFree := s.pair.postedFree ++ [(t, s.lap + 1)] } }
    else s.updTask t (fun _ => Task.empty)

/-- Post the front record of a CQ, if its TYPE is `ty` (R472). A replay sends no record; the Task's entry is freed where the
record would go (R554, DEDUCED, log 35). -/
def State.post (s : State) (q ty : Nat) : State :=
  match (s.cq q).held with
  | [] => s
  | r :: rest =>
    if s.actMode = .replay && bitsOf r.w0.toNat 7 0 = ty then (s.updCq q (fun c => { c with held := rest })).freePosted r
    else if s.posts && q < 64 && s.bit (Reg.hostCqCfg q) 31 && !s.cqFull q && bitsOf r.w0.toNat 7 0 = ty then
      let c := s.cq q
      let w0 := r.w0 ||| (if c.phase then 0x100000000 else 0)
      let s1 := ((s.updCq q (fun c => { c with held := rest })).emit (.record q (s.cqTail q) w0 r.w1 r.w2 r.w3)).advanceTail q
      let s2 := (s1.add64 Reg.hostCntPost 1).sendMsix (s.fld (Reg.hostCqCfg q) 29 23)
      let s3 := s2.freePosted r
      if s.forwarding then
        s3.sendPair 0x6 [BitVec.ofNat 64 (bitsOf r.w1.toNat 15 0),
          BitVec.ofNat 64 (bitsOf r.w0.toNat 47 40 * 65536 + bitsOf r.w0.toNat 63 48)]
      else s3
    else s

/-- COMPLETE (R472). -/
def execComplete (q : Nat) (s : State) : Res := .next (s.post q 0x01)

/-- ACCEPT (R472). -/
def execAccept (q : Nat) (s : State) : Res := .next (s.post q 0x02)

/-- A NOTICE record (Table 14.7). -/
def State.noticeRec (s : State) (reason : Nat) : CRec :=
  { w0 := 3, w1 := crecW1 0 0 0 reason 0, w2 := BitVec.ofNat 64 s.lap, w3 := 0, frees := none }

/-- NOTICE (R483): HOST_STAT.NOTICE is set and vector NOTICE_VEC sent too. -/
def execNotice (q : Nat) (s : State) : Res :=
  match (s.cq q).held with
  | [] => .next s
  | r :: _ =>
    let s1 := s.post q 0x03
    if bitsOf r.w0.toNat 7 0 = 3 ∧ (s1.cq q).held.length < (s.cq q).held.length then
      .next ((s1.setBit Reg.hostStat 20 true).sendMsix (s.fld Reg.hostCfg 6 0))
    else .next s

end Sys2Proof.Machine
end

