-- ==== Sys2Proof/Machine/VectorIssue.lean ====
section
/-!
DEFINITION. Issue of the long-vector instructions (spec/03_sequencer_isa.md, R113, R114; spec/06_vector_streams.md, R180
to R188, R195; spec/07_vector_operations.md, R220 to R222): rows 0xC and 0xD. What their units do once they are in flight
is in VectorUnit.
-/
namespace Sys2Proof.Machine

/-- The limit of an instruction: the override of R114, clamped; none without a prefix. -/
def Arch.vLimit (a : Arch) (i : PInfo) : Option Nat :=
  match i.vlo with
  | none => none
  | some j => some (Nat.min (a.rdG (24 + j)).toNat 0xFFFFFFFF)

/-- An instruction that stage 4 finds invalid leaves the Sequencer, and its exception is recognised at the next
instruction boundary (R153, R185). -/
def State.vRaise (s : State) (e tag : Nat) (x : VErr) : State :=
  (s.dropAnnulled e).except e x.vec x.detail (BitVec.ofNat 64 x.va) (some (tag, x.fopd, x.fidx)) false none

/-- One instruction of rows 0xC and 0xD at issue: it waits for what the issue path must have, and for its predicate blocks. -/
def State.vIssue (s : State) (e : Nat) (p : Pfx) (opc : Nat) (f : FmtV) : Res :=
  let o := opfOf f
  .next (s.scalar e p opc (fun _ => vecCause opc o) latNone (fun s =>
    let a := (s.eng e).arch
    let lim := a.vLimit (pInfo p)
    let v := s.vNew e ((s.eng e).freeTag.getD 0) opc o lim none a.pc
    if s.vWaits e v then .wait
    else
      match s.vPush e v with
      | (s1, .waits) => .stop s1
      | (s1, .ok w) => .done (s1.vBegin e w) .next
      | (s1, .bad err) => .stop ((s1.retire e opc (pLen p opc) .next).vRaise e v.tag err)))

/-- VMOV (R226). -/
def execVmov (e : Nat) (p : Pfx) (f : FmtV) (s : State) : Res := s.vIssue e p 0xC0 f
/-- VALU (R226). -/
def execValu (e : Nat) (p : Pfx) (f : FmtV) (s : State) : Res := s.vIssue e p 0xC1 f
/-- VMUL (R226). -/
def execVmul (e : Nat) (p : Pfx) (f : FmtV) (s : State) : Res := s.vIssue e p 0xC2 f
/-- VDIV (R226). -/
def execVdiv (e : Nat) (p : Pfx) (f : FmtV) (s : State) : Res := s.vIssue e p 0xC3 f
/-- VFP (R226). -/
def execVfp (e : Nat) (p : Pfx) (f : FmtV) (s : State) : Res := s.vIssue e p 0xC4 f
/-- VCMP (R228). -/
def execVcmp (e : Nat) (p : Pfx) (f : FmtV) (s : State) : Res := s.vIssue e p 0xC5 f
/-- VCOMP (R230). -/
def execVcomp (e : Nat) (p : Pfx) (f : FmtV) (s : State) : Res := s.vIssue e p 0xC6 f
/-- VEXP (R231). -/
def execVexp (e : Nat) (p : Pfx) (f : FmtV) (s : State) : Res := s.vIssue e p 0xC7 f
/-- VSCAN (R233). -/
def execVscan (e : Nat) (p : Pfx) (f : FmtV) (s : State) : Res := s.vIssue e p 0xC8 f
/-- VSEGR (R235). -/
def execVsegr (e : Nat) (p : Pfx) (f : FmtV) (s : State) : Res := s.vIssue e p 0xC9 f
/-- VRED (R234). -/
def execVred (e : Nat) (p : Pfx) (f : FmtV) (s : State) : Res := s.vIssue e p 0xCA f
/-- VHASH (R239). -/
def execVhash (e : Nat) (p : Pfx) (f : FmtV) (s : State) : Res := s.vIssue e p 0xCB f
/-- VPROBE (R241). -/
def execVprobe (e : Nat) (p : Pfx) (f : FmtV) (s : State) : Res := s.vIssue e p 0xCC f
/-- VSCADD (R244). -/
def execVscadd (e : Nat) (p : Pfx) (f : FmtV) (s : State) : Res := s.vIssue e p 0xCD f
/-- VSCSWP (R245). -/
def execVscswp (e : Nat) (p : Pfx) (f : FmtV) (s : State) : Res := s.vIssue e p 0xCE f
/-- VMERGE (R250). -/
def execVmerge (e : Nat) (p : Pfx) (f : FmtV) (s : State) : Res := s.vIssue e p 0xCF f
/-- VSORT (R251). -/
def execVsort (e : Nat) (p : Pfx) (f : FmtV) (s : State) : Res := s.vIssue e p 0xD0 f
/-- VKCMP (R229). -/
def execVkcmp (e : Nat) (p : Pfx) (f : FmtV) (s : State) : Res := s.vIssue e p 0xD1 f
/-- VDADD (R277). -/
def execVdadd (e : Nat) (p : Pfx) (f : FmtV) (s : State) : Res := s.vIssue e p 0xD2 f
/-- VDSUB (R277). -/
def execVdsub (e : Nat) (p : Pfx) (f : FmtV) (s : State) : Res := s.vIssue e p 0xD3 f
/-- VCVT (R227). -/
def execVcvt (e : Nat) (p : Pfx) (f : FmtV) (s : State) : Res := s.vIssue e p 0xD4 f

end Sys2Proof.Machine
end

