-- ==== Sys2Proof/Machine/VectorLoad.lean ====
section
/-!
DEFINITION. The load side of long vectors (spec/06_vector_streams.md, R186, R190 to R192, R204 to R209;
spec/07_vector_operations.md, R253 to R258): requests of a stream, beats, and Sieve evaluation. The commands
STREAM_REQUEST and BEAT.
-/
namespace Sys2Proof.Machine

/-! ### Where an element lies -/

/-- Bytes at a virtual address, cut at a 64 KiB page (R208). -/
def pageCut (va n : Nat) : List (Nat × Nat) :=
  let k := 65536 - va % 65536
  if n ≤ k then [(va, n)] else [(va, k), (va + k, n - k)]

/-- Bytes that one element occupies; a BIT element is read and written with its byte. -/
def elemBytes (et : Nat) : Nat := Nat.max 1 (etSize et)

/-- Where an element lies: its pieces, an exception, or a walk that has not ended. -/
inductive Place where
  | ok (ps : List (Nat × Nat))
  | err (x : VErr)
  | waits

/-- The pieces of an element, translated and checked (R186, R208, R209), or its exception. `x` is its index in MODE 2. -/
def State.vPlace (s : State) (e : Nat) (v : VInst) (c i x : Nat) (acc : Acc) (atomic : Bool) : State × Place :=
  let d := s.desc e c
  let va := d.elemAddr i x
  if d.mode = 2 ∧ d.bound ≤ x then (s, .err ⟨0x0A, 0, c, i, va⟩)
  else
    (pageCut va (elemBytes d.et)).foldl (fun (r : State × Place) q =>
      match r with
      | (s, .ok ps) =>
        match s.vXlate e v (walkerOf acc c) acc atomic (q.1 % 2 ^ 64) with
        | (s1, .waits) => (s1, .waits)
        | (s1, .trap vec det) => (s1, .err ⟨vec, det, c, i, va⟩)
        | (s1, .dpa p) =>
          if !s1.reaches e p then (s1.unmapped e p, .err ⟨0x0A, 0, c, i, va⟩) else (s1, .ok (ps ++ [(p, q.2)]))
      | other => other) (s, .ok [])

/-- The first DPA of an element's pieces. -/
def firstDpa (ps : List (Nat × Nat)) : Nat := (ps.map (fun p => p.1)).headD 0

/-- The index that element `i` of stream `c` takes, if it waits at its source (R186). -/
def State.ixVal (s : State) (e : Nat) (v : VInst) (c i : Nat) : Option Nat :=
  match s.ixOf e c with
  | none => some 0
  | some x =>
    let k := i - SMap.get 0 v.pos c
    if isSlot x then
      if (s.slot e x).cons = some v.tag then ((s.slot e x).elems[k]?).map (fun y => y.val.toNat) else none
    else
      match ((v.buf x).elems.filter (fun y => y.qual || y.fault.isSome))[k]? with
      | some y => if y.fault.isSome then none else some y.val.toNat
      | none => none

/-- Element `i` of stream `c` may be asked for: below COUNT and within the limit (R114, R208). -/
def State.mayAsk (s : State) (e : Nat) (v : VInst) (c i : Nat) : Bool :=
  let d := s.desc e c
  i < d.count &&
    (match v.limit with
     | none => true
     | some n =>
       if d.sv then v.taken + ((v.buf c).elems.filter (fun y => y.qual)).length < n else i < d.index + n)

/-- A write or atomic of an engine is not yet performed (R204). -/
def State.writesOut (s : State) (e : Nat) : Bool :=
  s.m.memq.any (fun r => r.src = .engine s.pos e) || s.ring.remote.any (fun r => r.e = e)

/-- In serial mode an instruction goes on only when nothing that derives from an earlier element is outstanding (R204). -/
def State.serialHold (s : State) (e : Nat) (v : VInst) : Bool :=
  v.serial && (s.writesOut e || (s.outSlots e v).any (fun c => !(s.slot e c).elems.isEmpty))

/-- In serial mode the next element is read only when the previous one has entered. -/
def State.readHold (s : State) (e : Nat) (v : VInst) (c : Nat) : Bool :=
  v.serial && (s.serialHold e v || !(v.buf c).elems.isEmpty || !(v.buf c).want.isEmpty)

/-- The instruction and stream of a command of the load side: it has started (R205) and reads the stream. -/
def State.loadSide (s : State) (e tag c : Nat) : Option (State × VInst) :=
  if !s.active e || 512 ≤ e then none
  else
    match (s.eng e).vinst tag with
    | none => none
    | some v =>
      if v.ended || 8 ≤ c || !(s.inputsOf e v).contains c then none
      else
        match s.startGroup e v with
        | none => none
        | some s1 => ((s1.eng e).vinst tag).map (fun w => (s1, w))

/-! ### STREAM_REQUEST (R191, R192, R368, R369) -/

/-- The free predicate entry of a part for a stream, or the one that it holds (R369). -/
def State.predEntry (s : State) (part e tag c : Nat) : Option (Nat × Bool) :=
  match s.ring.predUse.find? (fun p => p.1 = part && p.2.2 = (e, tag, c)) with
  | some p => some (p.2.1, false)
  | none =>
    ((List.range 64).find? (fun k => !s.ring.predUse.any (fun p => p.1 = part && p.2.1 = k))).map (fun k => (k, true))

/-- The elements from `i` on that one request answers, up to `fuel`: those that lie in the units it touches (or, for a
Sieve at another part, that begin there). -/
def State.askElems (s : State) (e : Nat) (v : VInst) (c uA uB unit : Nat) (first one : Bool) (i : Nat) :
    Nat → State × List Want
  | 0 => (s, [])
  | fuel + 1 =>
    match s.mayAsk e v c i, s.ixVal e v c i with
    | true, some x =>
      let d := s.desc e c
      let va := d.elemAddr i x
      let a := va / unit
      let b := (va + elemBytes d.et - 1) / unit
      let inU := fun u => u = uA || u + 1 = uB
      if inU a && (first || inU b) then
        match s.vPlace e v c i x .read false with
        | (s1, .ok ps) =>
          if one then (s1, [⟨i, va, ps, 0, none⟩])
          else
            let (s2, ws) := s1.askElems e v c uA uB unit first one (i + 1) fuel
            (s2, ⟨i, va, ps, 0, none⟩ :: ws)
        | (s1, .waits) => (s1, [])
        | (_, .err _) => (s, [])
      else (s, [])
    | _, _ => (s, [])

/-- Put the bytes of a request on the last of the elements that it answers. -/
def sizeLast (n : Nat) : List Want → List Want
  | [] => []
  | [w] => [{ w with sz := n }]
  | w :: t => w :: sizeLast n t

/-- The stream is Sieved at another part that holds a DPA: in bulk memory, where its elements follow one another at whole
element sizes, as the granule's elements that the target evaluates do (R192, R368; others are evaluated here, DEDUCED, log
140). -/
def State.farSieve (s : State) (e c dpa : Nat) : Bool :=
  let d := s.desc e c
  d.sv && dpa / 2 ^ 46 ≠ s.pos && dpa % 2 ^ 46 < 0x100000000000 && (d.mode = 0 || d.stride % (elemBytes d.et : Int) = 0)

/-- A Sieved read of another part: PRED ahead of the first, then RD with SV = 1 from the lowest element wanted on (R368,
R369); none while no entry is free. -/
def State.askSieve (s : State) (e : Nat) (v : VInst) (c : Nat) (ws : List Want) (booked : Bool) : Option State :=
  let dpas := ws.map (fun w => firstDpa w.pieces)
  let dpa := dpas.foldl Nat.min (dpas.headD 0)
  let part := dpa / 2 ^ 46
  let sz := elemBytes (s.desc e c).et
  match s.predEntry part e v.tag c, SMap.get none v.pred c with
  | some (k, new), some r =>
    let s1 :=
      if new then
        let s0 := s.sendPacket e part 5 ([BitVec.ofNat 64 k, 0] ++ r.words) booked
        { s0 with ring := { s0.ring with predUse := s0.ring.predUse ++ [(part, k, e, v.tag, c)] } }
      else s
    let s2 := s1.sendPacket e part 1 [BitVec.ofNat 64 (k * 2 ^ 55 + 2 ^ 54 + 2 * 2 ^ 52 + dpa), 0] booked
    let sv := ((256 - dpa % 256 + sz - 1) / sz, sz, dpas.map (fun d => (d - dpa) / sz))
    some { s2 with ring := { s2.ring with
      reqs := s2.ring.reqs ++ [⟨part, e, dpa, 256, .stream v.tag c, some sv, false, s.lap, false⟩] } }
  | _, _ => none

/-- Bytes that a Sieve has returned and the stream has not yet taken: data and bitmap (R192). -/
def StreamBuf.returned (b : StreamBuf) (d : Desc) : Nat :=
  (b.elems.filter (fun x => x.qual)).length * elemBytes d.et + (if d.bmop = 0xC then 0 else (b.elems.length + 7) / 8) +
    (b.lines.map (fun l => l.2.2.length)).foldl (· + ·) 0

/-- One request of a stream: the unit at its next element (R191). -/
def State.askUnit (s : State) (e : Nat) (v : VInst) (c x : Nat) : State :=
  let b := v.buf c
  let d := s.desc e c
  let i := b.reqTo
  let va := d.elemAddr i x
  match s.vPlace e v c i x .read false with
  | (s1, .waits) => s1
  | (s1, .err err) => s1.updV e v.tag (fun w =>
      w.setBuf c { b with want := b.want ++ [⟨i, err.va, [], 0, some (err.vec, err.detail)⟩], reqTo := d.count })
  | (s1, .ok ps) =>
    let dpa := firstDpa ps
    if s1.ownCluster e dpa then s
    else
      let part := dpa / 2 ^ 46
      let bulk := dpa % 2 ^ 46 < 0x100000000000
      let wide := bulk && d.mode ≤ 1
      let unit := if wide then 256 else 64
      let sieve := d.sv && bulk
      let room := if sieve then 16384 else 4096
      if room < b.outB + unit || (sieve && 4096 ≤ b.returned d) then s
      else
        let u := if va / unit + 1 = b.lastU then (va + elemBytes d.et - 1) / unit else va / unit
        let base := dpa / unit * unit + (u - va / unit) * unit
        let (s2, booked) := s1.payFor e base 1
        let far := s2.farSieve e c dpa
        let (s3, ws) := s2.askElems e v c u b.lastU unit far (d.mode = 2) i 2048
        let note := fun (s : State) =>
          s.updV e v.tag (fun w =>
            let b := w.buf c
            w.setBuf c { b with
              reqTo := i + ws.length, outB := b.outB + unit, want := b.want ++ sizeLast (unit + b.loose) ws,
              lastU := if d.mode = 2 && !ws.isEmpty then 0 else u + 1,
              loose := if ws.isEmpty then b.loose + unit else 0 })
        if far then
          match s3.askSieve e v c ws booked with
          | some s4 => note s4
          | none => s
        else if part ≠ s.pos then note (s3.sendRead e base unit (.stream v.tag c) booked)
        else
          match s3.expPort dpa with
          | some port => (note s3).askExp e port base unit (.stream v.tag c) booked
          | none => note (s3.countUnits s.pos (base % 2 ^ 46) unit s.lap booked).1

/-- STREAM_REQUEST (R191). -/
def execStreamRequest (e tag sreg : Nat) (s : State) : Res :=
  match s.loadSide e tag sreg with
  | none => .next s
  | some (s1, v) =>
    let i := (v.buf sreg).reqTo
    if s1.readHold e v sreg || !s1.mayAsk e v sreg i then .next s1
    else
      match s1.ixVal e v sreg i with
      | none => .next s1
      | some x => .next (s1.askUnit e v sreg x)

/-! ### BEAT (R190, R191, R255) -/

/-- The bytes of a piece of an element: read here, or from the answers of an outside memory; none while unanswered or held
(R20, R298). The
second part is 0, or the vector of the exception. -/
def State.readPiece (s : State) (e : Nat) (b : StreamBuf) (p : Nat × Nat) : State × Option (List Byte × Nat) :=
  if p.1 / 2 ^ 46 = s.pos && s.heldAt (p.1 % 2 ^ 46) then (s, none)
  else if p.1 / 2 ^ 46 = s.pos && s.expPort p.1 = none then
    match s.readLocal (.engine s.pos e) (p.1 % 2 ^ 46) p.2 with
    | (s1, .ok, bs) => (s1, some (bs, 0))
    | (s1, .poison, _) => (s1, some ([], 0x0B))
    | (s1, .unmapped, _) => (s1.unmapped e p.1, some ([], 0x0A))
  else
    match b.lines.find? (fun l => l.1 ≤ p.1 && p.1 + p.2 ≤ l.1 + l.2.2.length) with
    | none => (s, none)
    | some l =>
      if l.2.1 = 0 then (s, some ((l.2.2.drop (p.1 - l.1)).take p.2, 0))
      else if l.2.1 = 2 then (s, some ([], 0x0A))
      else (s, some ([], 0x0B))

/-- The bytes of an element. -/
def State.readPieces (s : State) (e : Nat) (b : StreamBuf) : List (Nat × Nat) → State × Option (List Byte × Nat)
  | [] => (s, some ([], 0))
  | p :: t =>
    match s.readPiece e b p with
    | (s1, none) => (s1, none)
    | (s1, some (bs, 0)) =>
      match s1.readPieces e b t with
      | (s2, some (cs, k)) => (s2, some (bs ++ cs, k))
      | (s2, none) => (s2, none)
    | (s1, some (_, k)) => (s1, some ([], k))

/-- The Sieve unit that evaluates an element at a DPA of this part (R258). -/
def State.sieveUnit (s : State) (dpa : Nat) : Nat :=
  if dpa / 2 ^ 46 ≠ s.pos then 0
  else
    match s.tier (dpa % 2 ^ 46) with
    | .ddr ch _ => ch
    | .exp p _ => 12 + p
    | .dir _ _ | .bank _ | .regs | .none => 0

/-- Count one evaluation (R258). -/
def State.countSieve (s : State) (u : Nat) (r : Bool × Bool) : State :=
  let s1 := s.add64 (Reg.sieveEval u) 1
  let s2 := if r.1 then s1.add64 (Reg.sieveQual u) 1 else s1
  if r.2 then s2.add64 (Reg.sieveBaddec u) 1 else s2

/-- An element that its bytes make: a BIT of its byte, or the value, with the outcome of the Sieve (R192, R255). -/
def State.mkElem (s : State) (e : Nat) (v : VInst) (c : Nat) (w : Want) (bs : List Byte) (vec : Nat) : State × Elem :=
  let d := s.desc e c
  let dpa := firstDpa w.pieces
  if vec ≠ 0 then (s, ⟨0, w.idx, BitVec.ofNat 64 w.va, true, some (vec, if vec = 0x0B then s.targetId dpa else 0)⟩)
  else
    let val := if d.et = etBit then ofLe bs / 2 ^ (w.idx % 8) % 2 else ofLe bs
    match SMap.get none v.pred c with
    | some r =>
      let q := sieve r d.et val
      (s.countSieve (s.sieveUnit dpa) q, ⟨BitVec.ofNat 128 val, w.idx, BitVec.ofNat 64 w.va, q.1, none⟩)
    | none => (s, ⟨BitVec.ofNat 128 val, w.idx, BitVec.ofNat 64 w.va, true, none⟩)

/-- Two elements travel in one beat: one aligned 32-byte block, and one group unless they are BITs (R190). -/
def sameBeat (d : Desc) (w u : Want) : Bool :=
  let n := elemBytes d.et
  w.va / 32 = u.va / 32 && (u.va + n - 1) / 32 = u.va / 32 && (w.va + n - 1) / 32 = w.va / 32 &&
    (d.et = etBit || (w.idx - d.index) / groupSize d.et = (u.idx - d.index) / groupSize d.et)

/-- An element that a Sieve of another part has evaluated: the first answer is its own (R368). -/
def State.farElem (s : State) (w : Want) (l : Nat × Nat × List Byte) : Elem :=
  let dpa := firstDpa w.pieces
  let va : W64 := BitVec.ofNat 64 w.va
  if l.2.1 = 32 then ⟨0, w.idx, va, false, none⟩
  else if l.2.1 = 0 then ⟨BitVec.ofNat 128 (ofLe l.2.2), w.idx, va, true, none⟩
  else if l.2.1 = 2 then ⟨0, w.idx, va, true, some (0x0A, 0)⟩
  else ⟨0, w.idx, va, true, some (0x0B, s.targetId dpa)⟩

/-- Deliver the elements of one beat from those requested. -/
def State.beatWant (s : State) (e : Nat) (v : VInst) (c : Nat) (w0 : Want) : List Want → StreamBuf → State × StreamBuf
  | [], b => (s, b)
  | w :: t, b =>
    let d := s.desc e c
    if w.idx ≠ w0.idx && !sameBeat d w0 w then (s, b)
    else
      match w.fault with
      | some (vec, det) =>
        if w.idx = w0.idx then
          (s, { b with elems := b.elems ++ [⟨0, w.idx, BitVec.ofNat 64 w.va, true, some (vec, det)⟩], want := [] })
        else (s, b)
      | none =>
        if s.farSieve e c (firstDpa w.pieces) then
          match b.lines with
          | [] => (s, b)
          | l :: ls =>
            s.beatWant e v c w0 t
              { b with elems := b.elems ++ [s.farElem w l], want := t, lines := ls, outB := b.outB - w.sz }
        else
          match s.readPieces e b w.pieces with
          | (_, none) => (s, b)
          | (s1, some (bs, vec)) =>
            let (s2, x) := s1.mkElem e v c w bs vec
            let lines :=
              if w.sz = 0 then b.lines
              else b.lines.filter (fun l => (b.lines.getLast? = some l) ||
                t.any (fun u => u.pieces.any (fun p => l.1 < p.1 + p.2 && p.1 < l.1 + l.2.2.length)))
            s2.beatWant e v c w0 t { b with elems := b.elems ++ [x], want := t, lines := lines, outB := b.outB - w.sz }

/-- The elements of one beat in a Home Bank of the engine's own cluster: no request precedes it. -/
def State.beatOwn (s : State) (e : Nat) (v : VInst) (c : Nat) (w0 : Option Want) : Nat → State × List Want
  | 0 => (s, [])
  | fuel + 1 =>
    let i := match w0 with | some w => w.idx + 1 | none => (v.buf c).reqTo
    match s.mayAsk e v c i, s.ixVal e v c i with
    | true, some x =>
      let d := s.desc e c
      let va := d.elemAddr i x
      let u : Want := ⟨i, va, [], 0, none⟩
      let goes := match w0 with | some w => sameBeat d w u && !v.serial | none => true
      if !goes then (s, [])
      else
        match s.vPlace e v c i x .read false with
        | (s1, .waits) => (s1, [])
        | (s1, .err err) =>
          if w0.isSome then (s, []) else (s1, [{ u with va := err.va, fault := some (err.vec, err.detail) }])
        | (s1, .ok ps) =>
          if !s1.ownCluster e (firstDpa ps) || s1.heldAt (firstDpa ps % 2 ^ 46) then (s, [])
          else
            let w := { u with pieces := ps }
            let (s2, t) := s1.beatOwn e v c (some w) fuel
            (s2, w :: t)
    | _, _ => (s, [])

/-- What the beat finds at the target that it reads (Table 9.7). -/
def State.findAt (s : State) (dpa : Nat) (u : Upset) : State :=
  if dpa / 2 ^ 46 ≠ s.pos || u = .clean then s
  else
    { s with m := { s.m with
        found := SMap.set .clean s.m.found (unitOf (s.tier (dpa % 2 ^ 46)) (dpa % 2 ^ 46)) u } }

/-- Charge a beat of the cluster switch: one unit for each line it touches (R593). -/
def State.chargeBeat (s : State) (e : Nat) (ws : List Want) : State :=
  let ls := (ws.flatMap (fun w => w.pieces.flatMap (fun p =>
    (List.range ((p.1 + p.2 - 1) / 64 + 1 - p.1 / 64)).map (fun k => p.1 / 64 + k)))).eraseDups
  ls.foldl (fun s _ => (s.spend e 1 s.pos 1).1) s

/-- BEAT (R190). -/
def execBeat (e tag sreg : Nat) (upset : Upset) (s : State) : Res :=
  match s.loadSide e tag sreg with
  | none => .next s
  | some (s1, v) =>
    let b := v.buf sreg
    match b.want with
    | w :: _ =>
      let s2 := if w.fault.isSome then s1 else s1.findAt ((w.pieces.map (fun p => p.1)).headD s.pos) upset
      let (s3, b3) := s2.beatWant e v sreg w b.want b
      if b3 = b then .next s1 else .next (s3.updV e tag (fun x => x.setBuf sreg b3))
    | [] =>
      if s1.readHold e v sreg then .next s1
      else
        match s1.beatOwn e v sreg none 256 with
        | (s2, []) => .next s2
        | (s2, w :: t) =>
          let ws := w :: t
          let s3 := (s2.chargeBeat e ws).findAt (firstDpa w.pieces) (if w.fault.isSome then .clean else upset)
          let (s4, b4) := s3.beatWant e v sreg w ws
            { b with want := ws, reqTo := if w.fault.isSome then (s.desc e sreg).count else b.reqTo + ws.length }
          .next (s4.updV e tag (fun x => x.setBuf sreg b4))

end Sys2Proof.Machine
end

