-- ==== Sys2Proof/Machine/VectorUnit.lean ====
section
/-!
DEFINITION. The units and the store port of long vectors (spec/06_vector_streams.md, R181, R189, R193 to R205, R210;
spec/07_vector_operations.md, R223 to R251; spec/08_arithmetic.md, R279 to R282): one group of an instruction. The
command GROUP.
-/
namespace Sys2Proof.Machine

/-- How one position of an instruction ends. -/
inductive VStep where
  /-- it is processed -/
  | go (s : State)
  /-- something that it needs is missing: nothing has changed -/
  | wait
  /-- a walk or a read that it needs is under way -/
  | stall (s : State)
  /-- the instruction has no further position -/
  | fin (s : State)
  /-- an element raises an exception -/
  | trap (s : State) (x : VErr)

/-! ### Inputs -/

/-- An element present at an input: its operand code, the element, what it derives from and its sticky bits. -/
structure Fed where
  c : Nat
  x : Elem
  der : List (Nat × Snap)
  fl : W64
deriving DecidableEq, Repr

/-- The next element of an input. -/
inductive Head where
  | fin
  | wait
  | elem (g : Fed)
  | fault (x : VErr)

/-- The head of an input (R181, R186, R199). A source element that does not qualify is passed over first (R192), and a
stream whose index raises an exception stands behind that exception. -/
def State.head (s : State) (e : Nat) (v : VInst) (c : Nat) : Nat → Head
  | 0 => .wait
  | fuel + 1 =>
    let p := SMap.get 0 v.pos c
    if isSlot c then
      let ch := s.slot e c
      if ch.cons ≠ some v.tag then .fin
      else
        match ch.elems with
        | y :: _ => .elem ⟨c, ⟨y.val, p, 0, true, none⟩, y.der, y.fl⟩
        | [] => if ch.prodEnd || ch.prod = none then .fin else .wait
    else
      match (v.buf c).elems with
      | y :: _ =>
        match y.fault with
        | some (vec, det) => .fault ⟨vec, det, c, y.idx, y.va.toNat⟩
        | none => if y.qual then .elem ⟨c, y, [], 0⟩ else .wait
      | [] =>
        if (s.desc e c).count ≤ p then .fin
        else
          match s.ixOf e c with
          | none => .wait
          | some x =>
            match s.head e v x fuel with
            | .fin => .fin
            | .fault err => .fault err
            | .wait | .elem _ => .wait

/-- The heads of several inputs. -/
inductive Heads where
  | fin
  | wait
  | all (gs : List Fed)
  | fault (x : VErr)

/-- The heads of inputs together: an end comes before a wait, and a wait before an exception. -/
def State.inputHeads (s : State) (e : Nat) (v : VInst) (cs : List Nat) : Heads :=
  let hs := cs.map (fun c => s.head e v c 9)
  if hs.any (fun h => match h with | .fin => true | .wait | .elem _ | .fault _ => false) then .fin
  else if hs.any (fun h => match h with | .wait => true | .fin | .elem _ | .fault _ => false) then .wait
  else
    match hs.findSome? (fun h => match h with | .fault x => some x | .fin | .wait | .elem _ => none) with
    | some x => .fault x
    | none => .all (hs.filterMap (fun h => match h with | .elem g => some g | .fin | .wait | .fault _ => none))

/-- The value at an input of those taken. -/
def gotVal (gs : List Fed) (c dflt : Nat) : Nat :=
  match gs.find? (fun g => g.c = c) with
  | some g => g.x.val.toNat
  | none => dflt

/-- What elements taken derive from. -/
def fedDer (gs : List Fed) : List (Nat × Snap) := gs.flatMap (fun g => g.der)

/-- The sticky bits of elements taken. -/
def fedFl (gs : List Fed) : W64 := gs.foldl (fun f g => f ||| g.fl) 0

/-! ### Progress that counts as written (R201, R211) -/

/-- A result has been written: what it derives from counts. -/
def State.mark (s : State) (e : Nat) (ds : List (Nat × Snap)) : State :=
  ds.foldl (fun s d => s.updV e d.1 (fun u => if u.snap.n ≤ d.2.n then { u with snap := d.2 } else u)) s

/-- The furthest progress of each instruction among many. -/
def furthest (ds : List (Nat × Snap)) : List (Nat × Snap) :=
  ds.foldl (fun l d =>
    match l.find? (fun x => x.1 = d.1) with
    | none => l ++ [d]
    | some x => if x.2.n ≤ d.2.n then l.map (fun y => if y.1 = d.1 then d else y) else l) []

/-- Sticky flags of an element that is written (R224). -/
def State.stick (s : State) (e : Nat) (f : W64) : State :=
  s.updEng e (fun x => { x with arch := { x.arch with flags := x.arch.flags ||| f } })

/-- The sticky bits that an element sets. -/
def EV.sticky (r : EV) : W64 := stickyBits r.fl ||| diBit r.di

/-! ### The store port (R190, R203, R244 to R247, R593) -/

/-- Charge the units that a piece touches, but for the one that this group has been charged for. -/
def State.chargeStore (s : State) (e tag dpa n : Nat) : State :=
  let off := dpa % 2 ^ 46
  let unit := unitLen off
  ((List.range ((dpa + n - 1) / unit + 1 - dpa / unit)).map (fun k => dpa / unit + k)).foldl (fun s u =>
    match (s.eng e).vinst tag with
    | none => s
    | some v =>
      if v.wUnit = u + 1 then s
      else
        let (s1, ok) := s.spend e (s.compOf (dpa / 2 ^ 46) off) (dpa / 2 ^ 46) 1
        s1.updV e tag (fun w => { w with wUnit := u + 1, wBooked := ok })) s

/-- Write the pieces of an element. -/
def State.writePieces (s : State) (e tag : Nat) (va : W64) : List (Nat × Nat) → List Byte → State
  | [], _ => s
  | p :: t, bs =>
    let s1 := s.chargeStore e tag p.1 p.2
    let booked := match (s1.eng e).vinst tag with | some v => v.wBooked | none => false
    (s1.issueWrite e p.1 (bs.take p.2) va booked).writePieces e tag va t (bs.drop p.2)

/-- One bit of a byte replaced. -/
def putBit (b : Byte) (k : Nat) (v : Bool) : Byte :=
  BitVec.ofNat 8 (b.toNat % 2 ^ k + v.toNat * 2 ^ k + b.toNat / 2 ^ (k + 1) * 2 ^ (k + 1))

/-- An element that is to be written: its address and pieces, its size, and for a BIT its place in the byte found. -/
structure Store where
  va : W64
  ps : List (Nat × Nat)
  size : Nat
  bit : Option (Nat × Byte)

/-- What must be known before an element is written. -/
inductive Plan (α : Type) where
  | ok (a : α)
  | wait
  | stall
  | trap (x : VErr)

/-- The read of a byte of another part (log 131). -/
def State.farByte (s : State) (e : Nat) (v : VInst) (dpa : Nat) : State × Plan Byte :=
  match s.readFor e (whoBit v.tag) (.engine s.pos e) true dpa 1 with
  | (s1, none) => (s1, .stall)
  | (s1, some (.ok, bs)) => (s1, .ok (bs.headD 0))
  | (s1, some (.poison, _)) => (s1, .ok (Config.remoteByte s1.freeCtr dpa))
  | (s1, some (.unmapped, _)) => (s1, .trap ⟨0x0A, 0, 0xC, 0, 0⟩)

/-- The byte that holds a BIT element: as this engine sees it here, and in another part by a read of it, once for a run of
bits (R187; DESIGN CHOICE, log 131). -/
def State.bitByte (s : State) (e : Nat) (v : VInst) (dpa : Nat) : State × Plan Byte :=
  if dpa / 2 ^ 46 = s.pos then (s, .ok (s.byteIn (s.m.seenBy (.engine s.pos e)) (dpa % 2 ^ 46)))
  else
    match v.bitAt with
    | some (d, b) => if d = dpa then (s, .ok b) else s.farByte e v dpa
    | none => s.farByte e v dpa

/-- Element `i` of stream `c` is about to be written: in its turn (R203), with its place (R208, R209); an address that its
part will answer as unmapped raises UNMAPPED (R26). -/
def State.planElem (s : State) (e : Nat) (v : VInst) (c i x : Nat) : State × Plan Store :=
  if s.storeBehind e v then (s, .wait)
  else
    let d := s.desc e c
    let va := d.elemAddr i x
    match s.vPlace e v c i x .write false with
    | (s1, .waits) => (s1, .stall)
    | (s1, .err err) => (s1, .trap err)
    | (s1, .ok ps) =>
      if ps.any (fun p => s1.farHole p.1) then (s1, .trap ⟨0x0A, 0, c, i, va⟩)
      else if d.et = etBit then
        match s1.bitByte e v (firstDpa ps) with
        | (s2, .ok b) => (s2, .ok ⟨BitVec.ofNat 64 va, ps, 1, some (i % 8, b)⟩)
        | (s2, .trap _) => (s2, .trap ⟨0x0A, 0, c, i, va⟩)
        | (s2, .wait) => (s2, .wait)
        | (s2, .stall) => (s2, .stall)
      else (s1, .ok ⟨BitVec.ofNat 64 va, ps, etSize d.et, none⟩)

/-- Write an element where it has been found to lie (R182, R203). -/
def State.writeElem (s : State) (e tag : Nat) (p : Store) (val : Nat) : State :=
  match p.bit with
  | none => s.writePieces e tag p.va p.ps (leBytes p.size val)
  | some (k, b) =>
    let nb := putBit b k (val % 2 = 1)
    let dpa := firstDpa p.ps
    let s1 := s.writePieces e tag p.va [(dpa, 1)] [nb]
    if dpa / 2 ^ 46 = s.pos then s1
    else (s1.updV e tag (fun w => { w with bitAt := some (dpa, nb) })).dropGot e (whoBit tag)

/-- The digest kind of an atomic (R405). -/
def MemOp.kind : MemOp → Nat
  | .write _ => 0
  | .iadd _ => 1
  | .fadd _ _ _ _ => 2
  | .swap _ _ => 3

/-- The AT packet of an atomic (Table 11.8). -/
def atWords (dpa : Nat) (op : MemOp) (ret : Bool) : List W64 :=
  let base := dpa / 8 * 8 + ret.toNat * 2 ^ 56
  match op with
  | .iadd v => [BitVec.ofNat 64 base, v]
  | .fadd v rm ftz daz =>
    [BitVec.ofNat 64 (base + 2 ^ 52 + rm.toNat * 2 ^ 57 + ftz.toNat * 2 ^ 59 + daz.toNat * 2 ^ 60), v]
  | .swap v _ => [BitVec.ofNat 64 (base + 2 * 2 ^ 52), v]
  | .write _ => [BitVec.ofNat 64 base, 0]

/-- Operand of an atomic. -/
def MemOp.operand : MemOp → W64
  | .write _ => 0
  | .iadd v => v
  | .fadd v _ _ _ => v
  | .swap v _ => v

/-- Atomics may be performed at a DPA: a Home Bank or the Directory tier (R247). -/
def State.atomicAt (s : State) (dpa : Nat) : Bool :=
  if dpa / 2 ^ 46 = s.pos then (s.tier (dpa % 2 ^ 46)).atomicOk else 0x200000000000 ≤ dpa % 2 ^ 46

/-- The old value of a swap is to go to an element of ROPD (R245). -/
def State.noteSwap (s : State) (e : Nat) (ps : List (Nat × Nat)) (va : W64) : State × Nat :=
  let id := (s.eng e).swapCtr
  let tti := match (s.eng e).place with | some p => p.tti | none => 0
  (s.updEng e (fun x =>
    { x with swapCtr := id + 1, swaps := x.swaps ++ [⟨id, ps, va, s.epochOf e, tti, none, false⟩] }), id)

/-- Issue an atomic of an engine (R244 to R248). -/
def State.issueAtomic (s : State) (e dpa : Nat) (op : MemOp) (va : W64) : State :=
  let part := dpa / 2 ^ 46
  let off := dpa % 2 ^ 46
  let (s1, booked) := s.spend e (s.compOf part off) part 1
  let s2 := s1.digestRec e op.kind dpa 0xFF op.operand.toNat
  let rop := match op with | .swap _ r => r | .write _ | .iadd _ | .fadd _ _ _ _ => none
  if part = s.pos then s2.postReq ((Src.engine s.pos e).req (s2.epochOf e) off op va booked s2.lap)
  else
    let s3 := (s2.sendPacket e part 4 (atWords dpa op rop.isSome) booked).noteRemote part e va 0 false
    match rop with
    | none => s3
    | some id =>
      { s3 with ring := { s3.ring with reqs := s3.ring.reqs ++ [⟨part, e, dpa, 8, .swap id, none, false, s.lap, false⟩] } }

/-! ### Results -/

/-- D can take a result: a slot with room, or a stream element in its turn and place. -/
def State.planD (s : State) (e : Nat) (v : VInst) (ix : Nat) : State × Plan (Option Store) :=
  if isSlot v.d then (s, if 64 ≤ (s.slot e v.d).elems.length then .wait else .ok none)
  else
    match s.planElem e v v.d ((s.desc e v.d).index + v.made) ix with
    | (s1, .ok p) => (s1, .ok (some p))
    | (s1, .wait) => (s1, .wait)
    | (s1, .stall) => (s1, .stall)
    | (s1, .trap x) => (s1, .trap x)

/-- Deliver one result to D (R182, R196, R203): `snap` is the progress with it, `ds` what it derives from, `fl` the sticky
bits that it sets once it is written (R201, R224). -/
def State.give (s : State) (e tag : Nat) (val : Nat) (p : Option Store) (snap : Snap) (ds : List (Nat × Snap)) (fl : W64) :
    State :=
  match (s.eng e).vinst tag with
  | none => s
  | some v =>
    let der := (tag, snap) :: ds
    let s1 := s.updV e tag (fun w => { w with made := w.made + 1 })
    match p with
    | none => s1.updSlot e v.d (fun ch => { ch with elems := ch.elems ++ [⟨BitVec.ofNat 128 val, der, fl⟩] })
    | some q => ((s1.writeElem e tag q val).mark e der).stick e fl

/-! ### Taking inputs -/

/-- The operand that takes the bitmap bit of an element, while the instruction has not ended (R257). -/
def State.bitTo (s : State) (e : Nat) (v : VInst) (g : Fed) : Option Nat :=
  if v.full.isSome || isSlot g.c then none else s.bmopOf e g.c

/-- The bitmap bits of elements can be delivered. -/
def State.planBits (s : State) (e : Nat) (v : VInst) : List Fed → State × Plan (List (Fed × Option Store))
  | [] => (s, .ok [])
  | g :: t =>
    let rest := fun (s : State) (p : Option Store) =>
      match s.planBits e v t with
      | (s1, .ok l) => (s1, .ok ((g, p) :: l))
      | other => other
    match s.bitTo e v g with
    | none => rest s none
    | some b =>
      if isSlot b then (if 64 ≤ (s.slot e b).elems.length then (s, .wait) else rest s none)
      else
        match s.planElem e v b ((s.desc e b).index + (g.x.idx - (s.desc e g.c).index)) 0 with
        | (s1, .ok p) => rest s1 (some p)
        | (s1, .wait) => (s1, .wait)
        | (s1, .stall) => (s1, .stall)
        | (s1, .trap x) => (s1, .trap x)

/-- Take the element at the head of an input: its buffer or slot, its cursor, its bitmap bit (R182, R198, R257). -/
def State.takeOne (s : State) (e tag : Nat) (g : Fed) (p : Option Store) : State :=
  match (s.eng e).vinst tag with
  | none => s
  | some v =>
    let step := fun (s : State) (k : Nat) => s.updV e tag (fun w => { w with pos := SMap.set 0 w.pos g.c k })
    if isSlot g.c then
      step (s.updSlot e g.c (fun ch =>
        { ch with elems := ch.elems.tail,
                  last := if v.full.isSome then ch.last else
                    match ch.prod with
                    | some p => (match g.der.find? (fun d => d.1 = p) with | some d => some d.2 | none => ch.last)
                    | none => ch.last })) (SMap.get 0 v.pos g.c + 1)
    else
      let s1 := step (s.updV e tag (fun w => w.setBuf g.c { w.buf g.c with elems := (w.buf g.c).elems.tail })) (g.x.idx + 1)
      match s.bitTo e v g with
      | none => s1
      | some b =>
        match p with
        | some q => s1.writeElem e tag q g.x.qual.toNat
        | none =>
          let snap : Snap := { v.cur with pos := SMap.set 0 v.pos g.c (g.x.idx + 1) }
          s1.updSlot e b (fun ch =>
            { ch with elems := ch.elems ++ [⟨BitVec.ofNat 128 g.x.qual.toNat, [(tag, snap)], 0⟩] })

/-- Take the elements at the heads of several inputs. -/
def State.takeAll (s : State) (e tag : Nat) (ps : List (Fed × Option Store)) : State :=
  ps.foldl (fun s q => s.takeOne e tag q.1 q.2) s

/-- Bitmap bits written to a stream count as written with the elements that they stand for (R211). VSORT's block decides
for itself (R251). -/
def State.markBits (s : State) (e tag : Nat) (ps : List (Fed × Option Store)) : State :=
  match (s.eng e).vinst tag with
  | none => s
  | some v => if v.opc = 0xD0 || ps.all (fun q => q.2.isNone) then s else s.mark e [(tag, v.cur)]

/-- Go through a list of steps. -/
def VStep.each {α : Type} (f : State → α → VStep) : List α → State → VStep
  | [], s => .go s
  | x :: t, s =>
    match f s x with
    | .go s1 => VStep.each f t s1
    | other => other

/-- Source elements that do not qualify are passed over, each with its bitmap bit (R192, R257), as far as the bits can be
delivered. -/
def State.skipSieve (s : State) (e tag c : Nat) : Nat → VStep
  | 0 => .go s
  | fuel + 1 =>
    match (s.eng e).vinst tag with
    | none => .wait
    | some v =>
      match (v.buf c).elems with
      | x :: _ =>
        if x.fault.isSome || x.qual then .go s
        else
          match s.planBits e v [⟨c, x, [], 0⟩] with
          | (s1, .ok ps) => ((s1.takeAll e tag ps).markBits e tag ps).skipSieve e tag c fuel
          | (_, .wait) => .go s
          | (s1, .stall) => .stall s1
          | (s1, .trap y) => .trap s1 y
      | [] => .go s

/-! ### One position -/

/-- The values an instruction took at stage 4. -/
def VInst.env (v : VInst) : VEnv := ⟨fenvOf v.flags, v.ove, v.die⟩

/-- The B value: an element or the scalar (R222). -/
def VInst.bval (v : VInst) (gs : List Fed) : Nat :=
  if hasBs v.opc (opFn v.opf) && opBs v.opf then v.scalar.toNat else gotVal gs v.b 0

/-- The result of an element-wise operation (R223, R226 to R229, R239). -/
def VInst.calc (v : VInst) (m : Bool) (a b : Nat) : EV :=
  let fn := opFn v.opf
  let et := opEt v.opf
  let off := EV.pure (if opZm v.opf then 0 else a)
  match v.opc with
  | 0xC0 => if m then EV.pure a else off
  | 0xC1 => if m then vAlu v.env fn et a b else off
  | 0xC2 => if m then vMul v.env fn et a b else off
  | 0xC3 => if m then vDiv v.env fn et a b else off
  | 0xC4 => if m then vFp v.env fn et a b v.scalar.toNat else off
  | 0xD2 => if m then vDec v.env false et a b else off
  | 0xD3 => if m then vDec v.env true et a b else off
  | 0xC5 | 0xD1 => if m then vCmp v.env fn et a b else EV.pure 0
  | 0xCB => if m then EV.pure (hash64 (BitVec.ofNat 128 a) (etSize et) v.seed).toNat else EV.pure 0
  | 0xD4 => if m then vCvt v.env fn (opXet v.opf) et a else EV.pure 0
  | _ => EV.pure a

/-- The exception of a unit: its operand and element (R210). -/
def unitErr (v : VInst) (gs : List Fed) (vec det : Nat) (b : Bool) : VErr :=
  let c := if b && v.b ≠ 0xC then v.b else v.a
  ⟨vec, det, c, (match gs.find? (fun g => g.c = c) with | some g => g.x.idx | none => 0), 0⟩

/-- The inputs of a position that D's index source is not counted among. -/
def State.posInputs (s : State) (e : Nat) (v : VInst) : List Nat :=
  ([v.a, v.b, v.m].filter (fun c => c ≠ 0xC) ++ [v.a, v.b].flatMap (fun c => s.sourcesOf e c 9)).eraseDups

/-- D's index sources. -/
def State.dSources (s : State) (e : Nat) (v : VInst) : List Nat := s.sourcesOf e v.d 9

/-- The index that D's next element takes. -/
def State.dIndex (s : State) (e : Nat) (v : VInst) (gs : List Fed) : Nat :=
  match s.ixOf e v.d with
  | some x => gotVal gs x 0
  | none => 0

/-- The limit is reached (R114, R181). -/
def VInst.atLimit (v : VInst) : Bool := match v.limit with | none => false | some n => n ≤ v.taken

/-- D has reached its COUNT (R181). -/
def State.dFull (s : State) (e : Nat) (v : VInst) : Bool :=
  v.d < 8 && (s.desc e v.d).count ≤ (s.desc e v.d).index + v.made

/-- Set VSTATE.DSHORT. -/
def State.setDshort (s : State) (e : Nat) : State :=
  s.updEng e (fun x => { x with arch := { x.arch with vstate := x.arch.vstate ||| 0x0200000000000000 } })

/-- An input still to come is unknown: a slot whose producer runs, or a Sieve stream. -/
def State.unknown (s : State) (e : Nat) (v : VInst) (cs : List Nat) : Bool :=
  cs.any (fun c => (isSlot c || (s.desc e c).sv) &&
    (match s.head e v c 9 with | .wait => true | .fin | .elem _ | .fault _ => false))

/-- A masked-off position of the operation gives no result (R223, R230, R244). -/
def VInst.drops (v : VInst) : Bool := (v.opc = 0xC6 || v.opc = 0xCD || v.opc = 0xCE) && v.m ≠ 0xC

/-- The mask bit: an M of 0xC selects every position (R223). -/
def VInst.sel (v : VInst) (gs : List Fed) : Bool := gotVal gs v.m 1 = 1

/-- D is full: the instruction ends, with DSHORT if inputs remain that would give results (R181). Where the mask decides
that, the positions left are looked through, without any effect, to the first that is selected; an element that cannot be
read stands for a result (DESIGN CHOICE, log 88). -/
def State.endFull (s : State) (e : Nat) (v : VInst) (cs : List Nat) : VStep :=
  match s.inputHeads e v cs with
  | .fin => .fin s
  | .wait => if v.drops || s.unknown e v cs then .wait else .fin (s.setDshort e)
  | .fault _ => .fin (s.setDshort e)
  | .all gs =>
    if v.drops && !v.sel gs then
      .go ((s.takeAll e v.tag (gs.map (fun g => (g, none)))).updV e v.tag (fun w => { w with taken := w.taken + 1 }))
    else .fin (s.setDshort e)

/-- A position is over: inputs taken, the carried value, the count, and, if it produces one, its result, which derives
from the elements taken and from `held`. Nothing happens before all of it can. -/
def State.position (s : State) (e : Nat) (v : VInst) (gs : List Fed) (acc : Nat) (r : EV) (out : Option Nat)
    (held : List (Nat × Snap)) : VStep :=
  let planned : State × Plan (Option Store) :=
    match out with
    | none => (s, .ok none)
    | some _ => s.planD e v (s.dIndex e v gs)
  match planned with
  | (_, .wait) => .wait
  | (s1, .stall) => .stall s1
  | (s1, .trap x) => .trap s1 x
  | (s1, .ok p) =>
    match s1.planBits e v gs with
    | (_, .wait) => .wait
    | (s2, .stall) => .stall s2
    | (s2, .trap x) => .trap s2 x
    | (s2, .ok ps) =>
      let s3 := ((s2.takeAll e v.tag ps).updV e v.tag (fun w =>
        { w with taken := w.taken + 1, acc := BitVec.ofNat 128 acc })).add64 (Reg.enPmcVelem e) 1
      let fl := r.sticky ||| fedFl gs
      match out with
      | none => .go ((s3.markBits e v.tag ps).stick e fl)
      | some val =>
        match (s3.eng e).vinst v.tag with
        | none => .wait
        | some w => .go (s3.give e v.tag val p { w.cur with wd := w.made + 1 } (furthest (held ++ fedDer gs)) fl)

/-- An operation that gives one result for every position (R226 to R229, R233, R239): a unit's exception comes before
D's. -/
def State.posEach (s : State) (e : Nat) (v : VInst) (f : List Fed → EV × Nat) : VStep :=
  if s.dFull e v then s.endFull e v (s.posInputs e v)
  else
    match s.inputHeads e v (s.posInputs e v ++ (s.dSources e v).filter (fun c => !(s.posInputs e v).contains c)) with
    | .fin => .fin s
    | .wait => .wait
    | .fault x => .trap s x
    | .all gs =>
      let (r, acc) := f gs
      match r.exc with
      | some (vec, det, b) => .trap s (unitErr v gs vec det b)
      | none => s.position e v gs acc r (some r.val) []

/-- The heads of D's index sources, for an operation that gives results at some positions only: an index is taken for each
result alone (R186; DEDUCED, log 141). -/
def State.withD (s : State) (e : Nat) (v : VInst) (gs : List Fed) (f : List Fed → VStep) : VStep :=
  match s.inputHeads e v ((s.dSources e v).filter (fun c => !gs.any (fun g => g.c = c))) with
  | .fin => .fin s
  | .wait => .wait
  | .fault x => .trap s x
  | .all hs => f (gs ++ hs)

/-- The inputs of a position, for an operation that gives results at some positions only. -/
def State.withIn (s : State) (e : Nat) (v : VInst) (f : List Fed → VStep) : VStep :=
  if s.dFull e v then s.endFull e v (s.posInputs e v)
  else
    match s.inputHeads e v (s.posInputs e v) with
    | .fin => .fin s
    | .wait => .wait
    | .fault x => .trap s x
    | .all gs => f gs

/-! ### The operations that differ -/

/-- VSCAN (R233): a masked-off element folds the identity, and sets no flag. -/
def VInst.scan (v : VInst) (gs : List Fed) : EV × Nat :=
  let et := opEt v.opf
  let run := v.acc.toNat
  let r := if v.sel gs then foldOp v.env 0 et run (gotVal gs v.a 0) else { foldOp v.env 0 et run 0 with fl := FFlags.none }
  ({ r with val := if opFn v.opf = 0 then r.val else run }, r.val)

/-- A fold of VRED and VSEGR: a masked-off element does not fold (R223). -/
def VInst.fold (v : VInst) (gs : List Fed) : EV :=
  if v.sel gs then foldOp v.env (opFn v.opf) (opEt v.opf) v.acc.toNat (gotVal gs v.a 0) else EV.pure v.acc.toNat

/-- VCOMP (R230). -/
def State.posComp (s : State) (e : Nat) (v : VInst) : VStep :=
  s.withIn e v (fun gs =>
    if v.sel gs then
      s.withD e v gs (fun all => s.position e v all 0 (EV.pure 0) (some (gotVal gs v.a 0)) [])
    else s.position e v gs 0 (EV.pure 0) none [])

/-- The element just taken is the last: A, B or M has no further element, or the limit is reached (R235). `none` while
a Sieve has not told. -/
def State.lastElem (s : State) (e : Nat) (v : VInst) (gs : List Fed) : Option Bool :=
  if ({ v with taken := v.taken + 1 } : VInst).atLimit then some true
  else
    ([v.a, v.b, v.m].filter (fun c => c < 8)).foldl (fun (r : Option Bool) c =>
      let next := match gs.find? (fun g => g.c = c) with | some g => g.x.idx + 1 | none => SMap.get 0 v.pos c
      let more := (v.buf c).elems.tail.any (fun x => x.qual || x.fault.isSome)
      let fin : Option Bool :=
        if (s.desc e c).count ≤ next then some true
        else if !(s.desc e c).sv || more then some false
        else if (v.buf c).elems.tail.length + next = (s.desc e c).count then some true
        else none
      match r, fin with
      | some true, _ => some true
      | _, some true => some true
      | none, _ => none
      | _, none => none
      | some false, some false => some false) (some false)

/-- An element is in the carried value: it counts as written with it, and with it what it derives from (R211). -/
def State.holdIn (s : State) (e : Nat) (v : VInst) (gs : List Fed) : State :=
  s.updV e v.tag (fun w => { w with hold := furthest (w.hold ++ fedDer gs) })

/-- VSEGR (R235). -/
def State.posSegr (s : State) (e : Nat) (v : VInst) : VStep :=
  s.withIn e v (fun gs =>
    match s.lastElem e v gs with
    | none => .wait
    | some last =>
      let r := v.fold gs
      match r.exc with
      | some (vec, det, b) => .trap s (unitErr v gs vec det b)
      | none =>
        if last || gotVal gs v.b 0 = 1 then
          s.withD e v gs (fun all =>
            match s.position e v all (foldId (opFn v.opf) (opEt v.opf)) r (some r.val) v.hold with
            | .go s1 => .go (s1.updV e v.tag (fun w => { w with hold := [] }))
            | other => other)
        else
          match s.position e v gs r.val r none [] with
          | .go s1 => .go (s1.holdIn e v gs)
          | other => other)

/-- VRED (R234): an element held in CARRY counts as written (R211). -/
def State.posRed (s : State) (e : Nat) (v : VInst) : VStep :=
  s.withIn e v (fun gs =>
    let r := v.fold gs
    match r.exc with
    | some (vec, det, b) => .trap s (unitErr v gs vec det b)
    | none =>
      match s.position e v gs r.val r none [] with
      | .go s1 => .go (s1.holdIn e v gs)
      | other => other)

/-- VEXP (R231): A is taken only for a bit of 1. -/
def State.posExp (s : State) (e : Nat) (v : VInst) : VStep :=
  let full := s.dFull e v
  let short := fun (cs : List Nat) => if s.unknown e v cs then VStep.wait else .fin (s.setDshort e)
  match s.inputHeads e v [v.m] with
  | .fin => .fin s
  | .wait => if full then short [v.m] else .wait
  | .fault x => if full then .fin (s.setDshort e) else .trap s x
  | .all ms =>
    if gotVal ms v.m 0 = 1 then
      match s.inputHeads e v ((v.a :: s.sourcesOf e v.a 9).filter (fun c => c ≠ v.m)) with
      | .fin => .fin s
      | .wait => if full then short [v.a] else .wait
      | .fault x => if full then .fin (s.setDshort e) else .trap s x
      | .all as =>
        if full then .fin (s.setDshort e)
        else s.withD e v (ms ++ as) (fun all => s.position e v all 0 (EV.pure 0) (some (gotVal as v.a 0)) [])
    else if full then .fin (s.setDshort e)
    else s.withD e v ms (fun all =>
      s.position e v all 0 (EV.pure 0) (some (if opBs v.opf then v.scalar.toNat else 0)) [])

/-- VMERGE (R250): which input delivers; `true` is A. -/
def mergeTakesA (fn et x y : Nat) : Bool := if fn = 0 then !precedes et y x else !precedes et x y

/-- VMERGE. -/
def State.posMerge (s : State) (e : Nat) (v : VInst) : VStep :=
  let full := s.dFull e v
  let side := fun (c : Nat) => s.inputHeads e v (c :: s.sourcesOf e c 9)
  let out := fun (gs : List Fed) (c : Nat) =>
    if full then .fin (s.setDshort e)
    else s.withD e v gs (fun all => s.position e v all 0 (EV.pure 0) (some (gotVal gs c 0)) [])
  let short := fun (cs : List Nat) => if s.unknown e v cs then VStep.wait else .fin (s.setDshort e)
  match side v.a, side v.b with
  | .fin, .fin => .fin s
  | .wait, .fin => if full then short [v.a] else .wait
  | .fin, .wait => if full then short [v.b] else .wait
  | .wait, _ | _, .wait => if full then short [v.a, v.b] else .wait
  | .fault x, _ => if full then .fin (s.setDshort e) else .trap s x
  | _, .fault x => if full then .fin (s.setDshort e) else .trap s x
  | .all gs, .fin => out gs v.a
  | .fin, .all hs => out hs v.b
  | .all gs, .all hs =>
    if mergeTakesA (opFn v.opf) (opEt v.opf) (gotVal gs v.a 0) (gotVal hs v.b 0) then out gs v.a else out hs v.b

/-- The block of VSORT in its order (R251). -/
def sortBlock (fn et : Nat) (b : List ChainElem) : List ChainElem :=
  stableSort (fun x y => if fn = 0 then precedes et x.val.toNat y.val.toNat else precedes et y.val.toNat x.val.toNat) b

/-- The block is complete: its delivery begins, past the results already written (R251). -/
def State.sortClose (s : State) (e : Nat) (v : VInst) : State :=
  let n := v.block.length
  if v.blkOut < n then
    s.updV e v.tag (fun w => { w with block := sortBlock (opFn w.opf) (opEt w.opf) w.block, delivering := true })
  else
    (s.updV e v.tag (fun w =>
      { w with block := [], blkOut := 0, delivering := false, blkSnap := { w.cur with carry := 0 },
               snap := { w.cur with carry := 0 } })).mark e (furthest (v.block.flatMap (fun b => b.der)))

/-- The progress of VSORT with one more result of its block: before the block, but for D's index sources, and past it with
the last (R211, R251). -/
def State.sortSnap (s : State) (e : Nat) (v w : VInst) (last : Bool) : Snap :=
  if last then { w.cur with wd := v.made + 1, carry := 0 }
  else
    { v.blkSnap with
      wd := v.made + 1, carry := BitVec.ofNat 64 (v.blkOut + 1),
      pos := (s.dSources e v).foldl (fun m c => SMap.set 0 m c (SMap.get 0 w.pos c)) v.blkSnap.pos }

/-- VSORT delivers one result of its block. -/
def State.sortGive (s : State) (e : Nat) (v : VInst) (b : ChainElem) (gs : List Fed) : VStep :=
  let last : Bool := v.blkOut + 1 = v.block.length
  match s.planD e v (s.dIndex e v gs) with
  | (_, .wait) => .wait
  | (s1, .stall) => .stall s1
  | (s1, .trap x) => .trap s1 x
  | (s1, .ok p) =>
    match s1.planBits e v gs with
    | (_, .wait) => .wait
    | (s2, .stall) => .stall s2
    | (s2, .trap x) => .trap s2 x
    | (s2, .ok ps) =>
      let s3 := s2.takeAll e v.tag ps
      match (s3.eng e).vinst v.tag with
      | none => .wait
      | some w =>
        let ds := if last then furthest (v.block.flatMap (fun b => b.der) ++ fedDer gs) else fedDer gs
        let s4 := s3.give e v.tag b.val.toNat p (s.sortSnap e v w last) ds (b.fl ||| fedFl gs)
        .go (s4.updV e v.tag (fun w =>
          if last then { w with block := [], blkOut := 0, delivering := false, blkSnap := { w.cur with carry := 0 } }
          else { w with blkOut := w.blkOut + 1 }))

/-- VSORT takes in a block, or delivers it (R251). -/
def State.posSort (s : State) (e : Nat) (v : VInst) : VStep :=
  if v.delivering then
    if s.dFull e v then .fin (s.setDshort e)
    else
      match v.block[v.blkOut]? with
      | none => .wait
      | some b => s.withD e v [] (fun gs => s.sortGive e v b gs)
  else if v.atLimit then (if v.block.isEmpty then .fin s else .go (s.sortClose e v))
  else
    match s.withIn e v (fun gs =>
      match s.planBits e v gs with
      | (_, .wait) => .wait
      | (s1, .stall) => .stall s1
      | (s1, .trap x) => .trap s1 x
      | (s1, .ok ps) =>
        let s2 := (s1.takeAll e v.tag ps).updV e v.tag (fun w =>
          { w with taken := w.taken + 1,
                   block := w.block ++ [⟨BitVec.ofNat 128 (gotVal gs v.a 0), fedDer gs, fedFl gs⟩] })
        let s3 := s2.add64 (Reg.enPmcVelem e) 1
        match (s3.eng e).vinst v.tag with
        | some w => .go (if opBlk v.opf ≤ w.block.length then s3.sortClose e w else s3)
        | none => .wait) with
    | .fin s1 => if v.block.isEmpty || s.dFull e v then .fin s1 else .go (s.sortClose e v)
    | other => other

/-! ### VPROBE (R240 to R243) -/

/-- A part-window offset of the Directory tier (Table 1.3). -/
def State.inDirectory (s : State) (dpa : Nat) : Bool :=
  if dpa / 2 ^ 46 = s.pos then (match s.tier (dpa % 2 ^ 46) with | .dir _ _ => true | _ => false)
  else 0x200000000000 ≤ dpa % 2 ^ 46 && dpa % 2 ^ 46 < 0x280000000000

/-- The payload of the slot of a bucket that holds a key (R240, R241). -/
def bucketFind (q : List Byte) (key s : Nat) : Option Nat :=
  let at' := fun (o n : Nat) => ofLe ((q.drop o).take n)
  if at' 0 1 % 2 = 1 && at' 0x10 s = key then some (at' 0x20 8)
  else if at' 0 1 / 2 % 2 = 1 && at' 0x28 s = key then some (at' 0x38 8)
  else none

/-- Stands for the DATA_ERROR of a link that fails (R241): no read was uncorrectable. -/
def linkFailed : Nat := 0x20B

/-- What a probe finds: the payload or a miss, an exception with its address, or a bucket still to come. -/
inductive Probe where
  | found (pay : Option Nat)
  | trap (vec detail va : Nat)
  | waits

/-- Follow a chain of buckets. -/
def State.probe (s : State) (e : Nat) (v : VInst) (key sz bkt : Nat) : Nat → State × Probe
  | 0 => (s, .found none)
  | fuel + 1 =>
    let va := (v.seed.toNat + 64 * bkt) % 2 ^ 64
    match s.vRead e v (whoProbe v.tag) va s.inDirectory with
    | (s1, .waits) => (s1, .waits)
    | (s1, .trap vec d) => (s1, .trap vec d va)
    | (s1, .data q) =>
      match bucketFind q key sz with
      | some pay => (s1, .found (some pay))
      | none =>
        let w0 := ofLe (q.take 8)
        let next := ofLe ((q.drop 8).take 8) % 2 ^ 20
        if w0 / 2 ^ 63 = 0 then (s1, .found none)
        else if 2 ^ opLogb v.opf ≤ next || fuel = 0 then
          (s1, .trap linkFailed (match s1.vXlate e v 2 .read false va with | (s2, .dpa p) => s2.targetId p | _ => 0) va)
        else s1.probe e v key sz next fuel

/-- VPROBE. -/
def State.posProbe (s : State) (e : Nat) (v : VInst) : VStep :=
  if s.dFull e v then s.endFull e v (s.posInputs e v)
  else
    match s.inputHeads e v (s.posInputs e v ++ (s.dSources e v).filter (fun c => !(s.posInputs e v).contains c)) with
    | .fin => .fin s
    | .wait => .wait
    | .fault x => .trap s x
    | .all gs =>
      let out := fun (s : State) (r : Option Nat) =>
        s.position e v gs 0 (EV.pure 0)
          (some (if opFn v.opf = 0 then r.getD 0xFFFFFFFFFFFFFFFF else r.isSome.toNat)) []
      if v.sel gs then
        match s.probe e v (gotVal gs v.b 0) (etSize (opEt v.opf)) (gotVal gs v.a 0 / 2 ^ (64 - opLogb v.opf)) 4 with
        | (s1, .waits) => .stall s1
        | (s1, .trap vec det va) => .trap (s1.dropGot e (whoProbe v.tag)) { unitErr v gs vec det false with va := va }
        | (s1, .found r) =>
          match out s1 r with
          | .go s2 => .go (s2.dropGot e (whoProbe v.tag))
          | other => other
      else out s none

/-! ### VSCADD and VSCSWP (R244 to R248) -/

/-- The atomic of a position. -/
def VInst.atomic (v : VInst) (val : Nat) (id : Option Nat) : MemOp :=
  if v.opc = 0xCE then .swap (BitVec.ofNat 64 val) id
  else if opEt v.opf = 9 then
    .fadd (BitVec.ofNat 64 val) (BitVec.ofNat 2 v.env.fe.rm) v.env.fe.ftz v.env.fe.daz
  else .iadd (BitVec.ofNat 64 val)

/-- Where the old value of a position goes; a ROPD stream at its COUNT accepts no element. -/
def State.ropdPlace (s : State) (e : Nat) (v : VInst) : State × Plan (Option (List (Nat × Nat) × W64)) :=
  if v.ropd = 0xC then (s, .ok none)
  else
    let d := s.desc e v.ropd
    let i := d.index + v.taken
    if d.count ≤ i then (s, .ok none)
    else
      match s.vPlace e v v.ropd i 0 .write false with
      | (s1, .waits) => (s1, .stall)
      | (s1, .err x) => (s1, .trap x)
      | (s1, .ok ps) => (s1, .ok (some (ps, BitVec.ofNat 64 (d.elemAddr i 0))))

/-- Where the atomic of a position goes: a Home Bank or the Directory tier (R247), in its turn at the store port (R203). -/
def State.atomicPlace (s : State) (e : Nat) (v : VInst) (i ix : Nat) : State × Plan Nat :=
  if s.storeBehind e v then (s, .wait)
  else
    match s.vPlace e v v.d i ix .write true with
    | (s1, .waits) => (s1, .stall)
    | (s1, .err x) => (s1, .trap x)
    | (s1, .ok ps) =>
      let dpa := firstDpa ps
      if !s1.atomicAt dpa || s1.farHole dpa then (s1, .trap ⟨0x0A, 0, v.d, i, (s.desc e v.d).elemAddr i ix⟩)
      else (s1, .ok dpa)

/-- The atomic of a position issues, with the note of where its old value goes. -/
def State.doAtomic (s : State) (e : Nat) (v : VInst) (dpa val : Nat) (va : W64) (rop : Option (List (Nat × Nat) × W64)) :
    State :=
  match rop with
  | none => s.issueAtomic e dpa (v.atomic val none) va
  | some (ps, rva) =>
    let (s1, id) := s.noteSwap e ps rva
    s1.issueAtomic e dpa (v.atomic val (some id)) va

/-- VSCADD and VSCSWP. A masked-off position issues no atomic, and D's cursor still advances. -/
def State.posAtomic (s : State) (e : Nat) (v : VInst) : VStep :=
  if s.dFull e v then s.endFull e v (s.posInputs e v)
  else
    match s.inputHeads e v (s.posInputs e v ++ (s.dSources e v).filter (fun c => !(s.posInputs e v).contains c)) with
    | .fin => .fin s
    | .wait => .wait
    | .fault x => .trap s x
    | .all gs =>
      let i := (s.desc e v.d).index + v.made
      let ix := s.dIndex e v gs
      let passed := fun (s : State) =>
        match s.position e v gs 0 (EV.pure 0) none [] with
        | .go s1 => VStep.go (s1.updV e v.tag (fun w => { w with made := w.made + 1 }))
        | other => other
      if !v.sel gs then passed s
      else
        match s.atomicPlace e v i ix with
        | (_, .wait) => .wait
        | (s1, .stall) => .stall s1
        | (s1, .trap x) => .trap s1 x
        | (s1, .ok dpa) =>
          match s1.ropdPlace e v with
          | (_, .wait) => .wait
          | (s2, .stall) => .stall s2
          | (s2, .trap x) => .trap s2 x
          | (s2, .ok rop) =>
            match passed s2 with
            | .go s3 =>
              let s4 := s3.doAtomic e v dpa (gotVal gs v.a 0) (BitVec.ofNat 64 ((s.desc e v.d).elemAddr i ix)) rop
              match (s4.eng e).vinst v.tag with
              | some w => .go (s4.mark e ((v.tag, w.cur) :: fedDer gs))
              | none => .wait
            | other => other

/-! ### One group -/

/-- FILL and IOTA: no source; every element of D (R226). -/
def State.posMake (s : State) (e : Nat) (v : VInst) : VStep :=
  if s.dFull e v then (if (s.dSources e v).isEmpty then .fin s else s.endFull e v (s.dSources e v))
  else
    match s.inputHeads e v (s.dSources e v) with
    | .fin => .fin s
    | .wait => .wait
    | .fault x => .trap s x
    | .all gs =>
      if opFn v.opf = 1 then s.position e v gs 0 (EV.pure 0) (some v.scalar.toNat) []
      else
        s.position e v gs ((v.acc.toNat + 1) % 2 ^ etWidth (opEt v.opf)) (EV.pure 0) (some v.acc.toNat) []

/-- Sieve inputs of an instruction. -/
def State.sieves (s : State) (e : Nat) (v : VInst) : List Nat := (s.inputsOf e v).filter (fun c => c < 8 && (s.desc e c).sv)

/-- Source elements that do not qualify are passed over at every Sieve input, unless the limit has been reached: then INDEX
and bitmap stand behind the last element processed (R114, R192; DESIGN CHOICE, log 149). -/
def State.passSieves (s : State) (e tag : Nat) : VStep :=
  match (s.eng e).vinst tag with
  | none => .wait
  | some v => if v.atLimit then .go s else VStep.each (fun s c => s.skipSieve e tag c 4096) (s.sieves e v) s

/-- D is found full: the progress at that point is the instruction's last (R181, R182). -/
def State.noteFull (s : State) (e tag : Nat) : State :=
  match (s.eng e).vinst tag with
  | none => s
  | some v => if v.full.isNone && s.dFull e v then s.updV e tag (fun w => { w with full := some w.cur }) else s

/-- One position of an instruction. -/
def State.vPos (s : State) (e tag : Nat) : VStep :=
  match (s.noteFull e tag).passSieves e tag with
  | .go s1 =>
    match (s1.eng e).vinst tag with
    | none => .wait
    | some v =>
      if s1.unfed e v then .fin s1
      else if v.opc = 0xD0 then s1.posSort e v
      else if v.atLimit then .fin s1
      else
        match v.opc with
        | 0xC0 => if opFn v.opf = 0 then s1.posEach e v (fun gs => (v.calc (v.sel gs) (gotVal gs v.a 0) 0, 0)) else s1.posMake e v
        | 0xC6 => s1.posComp e v
        | 0xC7 => s1.posExp e v
        | 0xC8 => s1.posEach e v v.scan
        | 0xC9 => s1.posSegr e v
        | 0xCA => s1.posRed e v
        | 0xCC => s1.posProbe e v
        | 0xCD | 0xCE => s1.posAtomic e v
        | 0xCF => s1.posMerge e v
        | _ => s1.posEach e v (fun gs => (v.calc (v.sel gs) (gotVal gs v.a 0) (v.bval gs), 0))
  | other => other

/-- Elements in a group of an instruction (R189): the least that its operands' types give; one in serial mode. -/
def VInst.groupLen (v : VInst) : Nat :=
  if v.serial then 1
  else Nat.min (groupSize (etOfA v.opc v.opf)) (Nat.min (groupSize (opEt v.opf)) (groupSize (etOfD v.opc v.opf)))

/-- The positions of one group: whole, unless the instruction ends or an element raises an exception within it, or waits for
a walk or a read. Where a bitmap goes to a chain slot, whose bits have no fixed number in a group, the positions done stand
(R196, R257; DEDUCED, log 142). -/
def State.runGroup (s : State) (e tag : Nat) (bits begun : Bool) : Nat → VStep
  | 0 => .go s
  | fuel + 1 =>
    match s.vPos e tag with
    | .go s1 => s1.runGroup e tag bits true fuel
    | .wait => if bits && begun then .go s else .wait
    | .stall s1 => .go s1
    | other => other

/-- What an instruction still owes when it has no further position: VRED its result (R234), VSCSWP its old values
(R245). -/
def State.vEnd (s : State) (e tag : Nat) : VStep :=
  match (s.eng e).vinst tag with
  | none => .wait
  | some v =>
    if v.opc = 0xCE && (s.eng e).swaps.any (fun q => !q.late) then .wait
    else if v.opc = 0xCA && v.made = 0 && !s.dFull e v then
      match s.withD e v [] (fun gs =>
        match s.planD e v (s.dIndex e v gs) with
        | (_, .wait) => .wait
        | (s1, .stall) => .stall s1
        | (s1, .trap x) => .trap s1 x
        | (s1, .ok p) =>
          let s2 := s1.takeAll e tag (gs.map (fun g => (g, none)))
          .go ((s2.give e tag v.acc.toNat p { v.cur with wd := 1 } (furthest (v.hold ++ fedDer gs)) (fedFl gs)).updV e tag
            (fun w => { w with hold := [] }))) with
      | .go s1 => .go (s1.vFinish e tag)
      | .fin s1 => .go (s1.vFinish e tag)
      | other => other
    else .go (s.vFinish e tag)

/-- The latency of a residue-checked group (Tables 6.4, 8.8, R236): none where the unit is not checked. `k` is the
multiplier's iteration count. -/
def VInst.checkedLat (v : VInst) (k : Nat) : Option Nat :=
  let et := opEt v.opf
  let fn := opFn v.opf
  let dbl := et = 9
  match v.opc with
  | 0xC0 => if fn = 2 then some 1 else none
  | 0xC1 => if fn ≤ 1 || 9 ≤ fn then some 1 else none
  | 0xC2 => some (1 + k)
  | 0xC3 => some (etWidth et + 2)
  | 0xC4 =>
    some (match fn with
      | 3 => if dbl then 24 else 14
      | 4 => if dbl then 32 else 18
      | 5 | 6 => 2
      | 7 => 5
      | _ => 4)
  | 0xC8 | 0xC9 | 0xCA => if etF et then some (if v.opc = 0xC8 || fn = 0 then 16 else if fn = 3 then 2 else 8) else if etU et || etI et then some 2 else none
  | 0xD2 | 0xD3 => some 3
  | _ => none

/-- The largest iteration count among the lanes of the next group of a VMUL (R259, R260). -/
def State.groupIters (s : State) (e : Nat) (v : VInst) : Nat :=
  let vals := fun (c : Nat) =>
    if isSlot c then (s.slot e c).elems.map (fun x => x.val.toNat)
    else ((v.buf c).elems.filter (fun x => x.qual)).map (fun x => x.val.toNat)
  (List.range (groupSize (opEt v.opf))).foldl (fun k i =>
    match (vals v.a)[i]? with
    | none => k
    | some a =>
      let b := if opBs v.opf then v.scalar.toNat else ((vals v.b)[i]?).getD 0
      if v.m ≠ 0xC && ((vals v.m)[i]?).getD 1 = 0 then k
      else Nat.max k (mulIters (etWidth (opEt v.opf)) (etI (opEt v.opf)) a b)) 1

/-- A group enters its unit and its results leave it. -/
def State.doGroup (s : State) (e tag : Nat) : VStep :=
  match (s.eng e).vinst tag with
  | none => .wait
  | some v =>
    if isSlot v.d && 64 < (s.slot e v.d).elems.length + v.groupLen then .wait
    else
      match (s.updV e tag (fun w => { w with wUnit := 0, wBooked := false })).runGroup e tag
          ((s.bitmapsOf e v).any isSlot) false v.groupLen with
      | .fin s1 =>
        match s1.vEnd e tag with
        | .wait => .go s1
        | .stall s2 => .go s2
        | other => other
      | other => other

/-- An element raises its exception (R153, R209, R210): long vectors stop and the handler is entered. In mirrored
operation an uncorrectable read stops the placement instead (Table 12.5). -/
def State.elemTrap (s : State) (e tag : Nat) (x : VErr) : State :=
  if x.vec = 0x0B && s.mirroredNow then (s.chargeCyc e).clearPlace e
  else s.vRaise e tag { x with vec := x.vec % 256 }

/-- A group is processed: its results leave, an exception is raised, or nothing can be done. Tags whose results have all been
written are freed (R123, R201). -/
def State.afterGroup (s : State) (e tag : Nat) : VStep → State
  | .wait => s
  | .go s1 | .fin s1 | .stall s1 => s1.freeEnded e 25
  | .trap s1 x => s1.elemTrap e tag x

/-- GROUP (R194). Source elements that do not qualify are passed over first, whether the group is ready or not (R192). -/
def execGroup (e tag : Nat) (chk : Check) (s : State) : Res :=
  if !s.active e || 512 ≤ e then .next s
  else
    match (s.eng e).vinst tag with
    | none => .next s
    | some v0 =>
      if v0.ended then .next s
      else
        match s.startGroup e v0 with
        | none => .next s
        | some s0 =>
          let v := ((s0.eng e).vinst tag).getD v0
          if s0.serialHold e v then .next s0
          else
            match (s0.noteFull e tag).passSieves e tag with
            | .go s1 =>
              match s1.doGroup e tag with
              | .wait => .next s1
              | .stall s2 => .next s2
              | .go _ | .fin _ | .trap _ _ =>
                match chk, v.checkedLat (s1.groupIters e v) with
                | .parity, _ => .next (s1.engineParity e v.pc)
                | .once, some l =>
                  match s1.residueOnce e v.pc (l + 1) with
                  | (s2, true) => .next (s2.afterGroup e tag (s2.doGroup e tag))
                  | (s2, false) => .next (s2.residueHard e v.pc (l + 1))
                | .twice, some l => .next (s1.residueHard e v.pc (l + 1))
                | .good, _ | .once, none | .twice, none => .next (s1.afterGroup e tag (s1.doGroup e tag))
            | other => .next (s0.afterGroup e tag other)

end Sys2Proof.Machine
end

