-- ==== Sys2Proof/Machine/Fetch.lean ====
section
/-!
DEFINITION. Instruction fetch (spec/04_sequencer_pipeline.md, R125 to R142; R79, R82, R83 for what cannot be executed),
walks made on their own (spec/10_translation.md, R324 to R333), reports of poisoned writes (R173) and engines that do
not stop (R410, R416). The commands FETCH, WALK, POISON_WRITE and ENGINE_HANG.
-/
namespace Sys2Proof.Machine

/-! ### Bytes of the instruction at an address -/

/-- The opcode byte names an instruction (Table 3.8). -/
def definedOp (op : Nat) : Bool :=
  match op / 16 with
  | 0 => op % 16 ≤ 12
  | 1 => op % 16 ≤ 13
  | 2 | 3 | 8 | 9 | 10 | 12 => true
  | 4 => op % 16 ≤ 12 || op % 16 = 14
  | 6 | 7 => op % 16 ≤ 7
  | 11 => op % 16 ≤ 5
  | 13 => op % 16 ≤ 4
  | _ => false

/-- The byte at an address as fetched words hold it. -/
def wordByte (ws : List FWord) (va : Nat) : Option Byte :=
  (ws.find? (fun w => w.addr.toNat = va / 16 * 16)).map (fun w => BitVec.ofNat 8 (w.bits.toNat / 256 ^ (va % 16)))

/-- The prefix bytes of the instruction at an address as far as fetched words hold them, and its opcode byte (R82). -/
def wordOp (ws : List FWord) (va : Nat) : Nat → List Byte × Option Nat
  | 0 => ([], none)
  | fuel + 1 =>
    match wordByte ws (va % 2 ^ 64) with
    | none => ([], none)
    | some b =>
      if 0xE0 ≤ b.toNat ∧ fuel ≠ 0 then (b :: (wordOp ws (va + 1) fuel).1, (wordOp ws (va + 1) fuel).2)
      else ([], some b.toNat)

/-- The instruction at an address in fetched words: its prefixes, its opcode and its length (R82). -/
def instrIn (ws : List FWord) (va : Nat) : Option (Pfx × Nat × Nat) :=
  match wordOp ws va 4 with
  | (ps, some op) => some (⟨ps, 0, .good⟩, op, pLen ⟨ps, 0, .good⟩ op)
  | (_, none) => none

/-! ### The next word (R126, R127, R130, R131, R133) -/

/-- The target that the branch target buffer predicts for a branch or jump at an address (R133, R137); the Steward's Sequencer
has none and never fills it (R117). -/
def Engine.predicted (x : Engine) (va op : Nat) : Option W64 :=
  if x.arch.psr.getLsbD 10 || !isJump op then none
  else
    match SMap.get none x.btb (va % 512) with
    | some y => if y.tag = va / 512 % 2 ^ 46 && (2 ≤ y.ctr || op < 0x80 || 0x8E ≤ op) then some y.target else none
    | none => none

/-- Where fetch goes on: the words of the queue that lie on its path, the address of the first word that does not, whether the
path goes beyond an unresolved branch or jump (R127), and whether the word belongs to the instruction at pc. -/
structure Ahead where
  kept : Nat
  next : Nat
  unresolved : Bool
  now : Bool
deriving DecidableEq, Repr

/-- Follow the path through fetched words: an instruction at a time, with its delay slot, predicted target and loop-back. None
where the words do not end within the path's bound. -/
def Engine.follow (x : Engine) (a : Arch) (ws : List FWord) (r : Ahead) : Nat → Option Ahead
  | 0 => none
  | fuel + 1 =>
    let pc := a.pc.toNat
    let w := pc / 16 * 16
    let held := fun (i : Nat) => (match ws[i]? with | some y => y.addr.toNat = (w + 16 * i) % 2 ^ 64 | none => false)
    if !held 0 then some { r with next := w }
    else
      let second : Option Ahead := some { r with kept := r.kept + 1, next := (w + 16) % 2 ^ 64 }
      match instrIn (if held 1 then ws.take 2 else ws.take 1) pc with
      | none => second
      | some (_, op, len) =>
        let more := (pc + len - 1) / 16 - pc / 16
        if more ≠ 0 && !held 1 then second
        else
          let c : Ctl := match x.predicted pc op with | some t => .branch true false t | none => if isJump op then .branch false false 0 else .next
          let a1 := a.retire len c
          let n := if a1.pc = a.pc + BitVec.ofNat 64 len then (pc + len) / 16 - pc / 16 else more + 1
          x.follow a1 (ws.drop n) { kept := r.kept + n, next := 0, unresolved := r.unresolved || isJump op, now := false } fuel

/-- The loop buffer supplies the loop, with the passes left (R130). -/
def Engine.supplied (x : Engine) : Option Nat :=
  match x.lbuf with
  | some b => if b.capturing then none else some (SMap.get 0 x.arch.lc b.level).toNat
  | none => none

/-- Where fetch goes on from pc, or from LE in the final pass of a loop that the loop buffer supplies (R130). -/
def Engine.ahead (x : Engine) : Option Ahead :=
  match x.lbuf, x.supplied with
  | some b, some _ =>
    x.follow { x.arch.setLd b.level with pc := SMap.get 0 x.arch.le b.level, ds := none } x.pq ⟨0, 0, false, false⟩ 65
  | _, _ => x.follow x.arch x.pq ⟨0, 0, false, true⟩ 65

/-! ### Reading a word -/

/-- What a fetch meets: the word, the vector and detail of its exception, or nothing yet. -/
inductive FetchEnd where
  | word (bits : W128)
  | trap (vec detail : Nat)
  | waits

/-- Requester of the words of the path that fetch follows. -/
def Engine.fetchWho (x : Engine) : Nat := 1000 + x.fetches

/-- Read a word: it sees no posted store of the engine (R141), and is charged unless it comes from a Home Bank of the engine's own
cluster (R126). The Steward fetches from its SRAM (R117). -/
def State.fetchWord (s : State) (e w : Nat) : State × FetchEnd :=
  match s.locate e .fetch (!(s.eng e).arch.sup) w with
  | (s1, .trap v d) => (s1, .trap v d)
  | (s1, .third) => (s1, .trap 0x01 0)
  | (s1, .waits) => (s1, .waits)
  | (s1, .sram o) => (s1, .word (BitVec.ofNat 128 (ofLe (getBytes s1.stew.sram o 16))))
  | (s1, .dpa d) =>
    if !s1.reaches e d then (s1.unmapped e d, .trap 0x0A 0)
    else
      let who := (s1.eng e).fetchWho
      match s1.readFor e who s1.walkSrc (!s1.ownCluster e d) d 16 with
      | (s2, none) => (s2, .waits)
      | (s2, some (.ok, bs)) => (s2.dropGot e who, .word (BitVec.ofNat 128 (ofLe bs)))
      | (s2, some (.poison, _)) => (s2, .trap 0x02 0)
      | (s2, some (.unmapped, _)) => (s2, .trap 0x0A 0)

/-- Fetch beyond an unresolved branch: a Home Bank of the own cluster through an instruction-TLB hit alone (R127). -/
def State.mayRunAhead (s : State) (e w : Nat) : Bool :=
  let x := s.eng e
  if x.arch.escact then true
  else
    match bestSlot (x.itlb.filter (fun y => y.hits w x.arch.ctxid)) with
    | none => false
    | some y => (y.check .fetch false (!x.arch.sup) x.arch.pkr).isNone && s.ownCluster e (y.oa + (w - y.vbase))

/-- The instruction at pc cannot be executed: a reserved opcode or a fourth prefix. It raises ILLEGAL, or is passed over
when it is not executed (R82 to R84). -/
def State.badOpcode (s : State) (e : Nat) : State :=
  match instrIn (s.eng e).pq (s.eng e).arch.pc.toNat with
  | none => s
  | some (p, op, _) =>
    if definedOp op then s
    else
      let cause := lowest (pInfo p).cause (if 0xE0 ≤ op then 0x03 else 0x01)
      s.scalar e p op (fun _ => cause) latNone (fun s => .done s .next)

/-- A byte of the instruction at pc cannot be fetched (R79): an instruction that is not executed is passed over (R84, R152), with
a free length where a byte that gives it is not known (log 24); in mirrored operation an uncorrectable error stops the
placement (Table 12.5). -/
def State.fetchFault (s : State) (e v d : Nat) : State :=
  let x := s.eng e
  let (ps, op) := wordOp x.pq x.arch.pc.toNat 4
  if !x.arch.selects ⟨ps, 0, .good⟩ then (s.cycle e).retire e (op.getD 0) (s.peekLen e x.arch.pc.toNat) .next
  else if v = 0x02 && e < 512 && s.mirroredNow then (s.chargeCyc e).clearPlace e
  else s.except e v d x.arch.pc none false none

/-- The branch target buffer entry that a fetch reads has an uncorrectable error (R137, R138). -/
def State.btbError (s : State) (e w : Nat) : State :=
  let x := s.eng e
  if 512 ≤ e || x.arch.psr.getLsbD 10 then s
  else
    match (List.range 16).find? (fun i => (SMap.get none x.btb ((w + i) % 512)).isSome) with
    | none => s
    | some i =>
      (s.setEng e { x with btb := SMap.set none x.btb ((w + i) % 512) none }).satInc (Reg.enFetchStat e) 31 16

/-- The next word of the path is requested, if the queue has room: words that are not on the path are dropped. A fault in a word
that is only fetched ahead raises nothing, and such a word is not asked for (DEDUCED, log 143). -/
def State.fetchNext (s : State) (e : Nat) (btbUe : Bool) (r : Ahead) : State :=
  let s0 := s.updEng e (fun x => { x with pq := x.pq.take r.kept })
  if 4 ≤ r.kept || (r.unresolved && !s0.mayRunAhead e r.next) then s0
  else
    match (if btbUe then s0.btbError e r.next else s0).fetchWord e r.next with
    | (s1, .word bits) =>
      (s1.updEng e (fun x => { x with flight := [⟨BitVec.ofNat 64 r.next, bits⟩] })).pmcCount e (Reg.enPmcFetch e)
    | (s1, .waits) => s1
    | (s1, .trap v d) => if r.now then s1.fetchFault e v d else s0

/-- The word that was in flight enters the queue. -/
def State.queueWord (s : State) (e : Nat) : State := s.updEng e (fun x => { x with pq := x.pq ++ x.flight, flight := [] })

/-- FETCH (R126): the word in flight enters the queue, and the next word of the path is requested. An entry in progress goes on
instead. Nothing is fetched while the loop buffer supplies the loop, but for the words at LE in the last pass (R130). -/
def execFetch (e : Nat) (btbUe : Bool) (s : State) : Res :=
  if !s.active e then .next s
  else if (s.eng e).entry.isSome then .next (s.goOnEntry e)
  else
    let pass := (s.eng e).supplied
    if pass.isSome && pass ≠ some 1 then .next s
    else
      let s1 := s.queueWord e
      let s2 := match (s1.eng e).ahead with | some r => s1.fetchNext e btbUe r | none => s1
      if (s2.eng e).arch.pc = (s.eng e).arch.pc && s2.active e then .next (s2.badOpcode e) else .next s2

/-! ### Walks (R324 to R334) -/

/-- The slot that a lookup would use has an uncorrectable error: it is invalidated and counted (R333). -/
def State.slotError (s : State) (e : Nat) (f : Bool) (va : Nat) : State :=
  let x := s.eng e
  let count := fun (s : State) => s.satInc (Reg.enXlateStat e) 31 24
  match bestSlot ((x.l1 f).filter (fun y => y.hits va x.arch.ctxid)) with
  | some y => count (s.setEng e (x.setL1 f ((x.l1 f).erase y)))
  | none =>
    match bestSlot (l2Hits x va) with
    | some y => count (s.setEng e { x with l2 := SMap.upd [] x.l2 (setOf y.log2 va) (fun l => l.erase y) })
    | none => s

/-- Number of the walker of a kind of requester (R326). -/
def walkerNum (k : Walker) : Nat :=
  match k with
  | .fetch => 0
  | .scalar => 1
  | .load0 => 2
  | .load1 => 3
  | .store => 4

/-- The CTXID and TTB in force for a request of a walker: those of the engine, or those of the oldest long-vector instruction for a
stream (R208, R324). -/
def Engine.walkTables (x : Engine) (k : Walker) : BitVec 16 × W64 :=
  match k, x.vinsts.head? with
  | .load0, some v | .load1, some v | .store, some v => (v.ctxid, v.ttb)
  | .load0, none | .load1, none | .store, none | .fetch, _ | .scalar, _ => (x.arch.ctxid, x.arch.ttb)

/-- A walk is made for a walker: a fault that it ends in stays with the walker until its request takes it. -/
def State.walkAhead (s : State) (e k : Nat) (ctx : BitVec 16) (ttb : W64) (va : Nat) : State :=
  if (s.walk e k).isSome then s.goOnWalk e k
  else
    match s.doWalk e k ctx ttb va with
    | (s1, .fault c) => s1.setWalk e k (some ⟨va, ctx, ttb, 1, 0, some c⟩)
    | (s1, .slot _) | (s1, .waits _) => s1

/-- WALK (R324): a TLB slot with an uncorrectable error is dropped and counts as a miss (R333); a request that misses
every TLB walks, or its walk goes on. -/
def execWalk (e : Nat) (va : BitVec 64) (kind : Walker) (tlbUe : Bool) (s : State) : Res :=
  if e < 512 ∧ (s.eng e).place.isSome ∧ !(s.eng e).arch.escact ∧ va.toNat < 2 ^ 55 then
    let f : Bool := kind = .fetch
    let s1 := if tlbUe then s.slotError e f va.toNat else s
    let (ctx, ttb) := (s1.eng e).walkTables kind
    .next (s1.withXlate e ctx ttb (fun s =>
      match (s.eng e).lookup f va.toNat with
      | some _ => (s, ())
      | none => (s.walkAhead e (walkerNum kind) ctx ttb va.toNat, ()))).1
  else .next s

/-! ### Reports -/

/-- POISON_WRITE (R173): the report of a target outside this part's own performance of requests (DEDUCED, log 20). -/
def execPoisonWrite (e : Nat) (va : BitVec 64) (s : State) : Res :=
  if e < 512 then .next (s.pushErr e 0 va) else .next s

/-- ENGINE_HANG (R410, R416): an engine has not obeyed a stop order; with `stopped`, it has stopped and saved after all,
and the fence ends without retiring the epoch. -/
def execEngineHang (e : Nat) (stopped : Bool) (s : State) : Res :=
  match (s.eng e).place with
  | none => .next s
  | some p =>
    let x := s.eng e
    if 512 ≤ e || x.running || !p.restored || x.hung != stopped then .next s
    else
      let s1 := s.fault 0x08 (originOf s.pos 0 e) 0 p.epoch p.tti stopped.toNat
      let hang := fun (s : State) (b : Bool) => s.updEng e (fun x => { x with hung := b })
      if stopped then
        let s2 := { s1 with flt := { s1.flt with
          fences := s1.flt.fences.map (fun (f : Fence) => if f.part = s.pos ∧ f.epoch = p.epoch then { f with lifted := true } else f) } }
        .next (hang (s2.saveOut e) false)
      else if s1.mirroredNow then .next (hang s1 true)
      else if 64 ≤ s1.ownRetired then .next s1.sweepOwn
      else
        let s2 := (s1.returnBookings p.tti).beginFence s1.pos p.epoch s1.lap
        .next (hang { s2 with flt := { s2.flt with rerun := s2.flt.rerun ++ [(p.tti, s2.lap)] } } true)

end Sys2Proof.Machine
end

