-- ==== Sys2Proof/Machine/MemSys.lean ====
section
/-!
DEFINITION. What the memory targets do (spec/09_memory_system.md): sub-bank grants, atomic units, line slots, granules,
maintenance windows, write-backs and expander responses. The commands SUB_BANK_GRANT, ATOMIC, LINE_SLOT, GRANULE,
MAINTENANCE_WINDOW, WRITE_BACK, EXPANDER_RESPONSE, EXPANDER_TIMEOUT.
-/
namespace Sys2Proof.Machine

/-! ### Answers to loads, streams and steps -/

/-- A granted request is performed, and answered where an old value is asked for. -/
def State.performAnswer (s : State) (r : MemReq) (u : Upset) : State :=
  let s0 := s.upsetWrite r u
  let bad := u = .parity || s0.failed (s0.tier r.off) ||
    SMap.get Health.good s0.m.health (healthKey r.off) = .poisoned
  (s0.returnOld r (if bad then 1 else 0)).performReq r (if u = .parity then u else .clean)

/-- A unit that performs a read found an error in it (Table 9.7): it is applied when the reader takes the data. -/
def State.noteFound (s : State) (unit : Nat) (u : Upset) : State :=
  if u = .clean then s else { s with m := { s.m with found := SMap.set .clean s.m.found unit u } }

/-- The load that an engine waits for is answered (R26, R107, R305, R382): status 0 data, 1 poison, 2 unmapped,
3 target lost. -/
def State.answerLoad (s : State) (e status : Nat) (bs : List Byte) : State :=
  match (s.eng e).pend with
  | none => s
  | some q =>
    let s0 := s.updEng e (fun x => { x with pend := none })
    let l : LoadOp := ⟨q.va, q.size, q.sext, q.file, q.reg, q.upd, q.len⟩
    let fin := fun (s : State) (v : Nat) =>
      (s.updEng e (fun x => { x with arch := x.arch.finishLoad l v })).retire e 0x60 q.len .next
    if status = 0 then fin s0 (ofLe bs)
    else if e = steward then fin s0.stewErr.bump (Config.errorData s0.freeCtr).toNat
    else if status = 3 then s0.except e 0x0B (s0.targetId q.dpa) q.va none false none
    else if status = 1 then
      match s0.dataError e q.dpa q.va with
      | .trap s1 vec det fa => s1.except e vec det fa none false none
      | .stop s1 => s1
      | .done s1 _ => s1
      | .wait => s0
    else (if q.dpa / 2 ^ 46 = s.pos then s0.unmapped e q.dpa else s0).except e 0x0A 0 q.va none false none

/-- Data from outside the part reach the buffer of a stream (R190, R191). -/
def State.answerStream (s : State) (e tag c dpa status : Nat) (bs : List Byte) : State :=
  s.updV e tag (fun v =>
    let b := v.buf c
    v.setBuf c { b with lines := b.lines ++ [(dpa, status, bs)] })

/-- Data that a step of engine `e` waits for are here: walks and entries go on at once, other steps when they are next taken.
A word of a path that fetch has left is dropped (R126). -/
def State.answerStep (s : State) (e who dpa n : Nat) (st : RdStat) (bs : List Byte) : State :=
  if 1000 ≤ who ∧ who ≠ (s.eng e).fetchWho then s
  else
    let s1 := s.keepGot e ⟨who, dpa, n, st, bs⟩
    if who < 5 then s1.goOnWalk e who
    else if who = 5 ∨ who = 6 then s1.goOnEntry e
    else s1

/-- How a read ended, by the status of its answer: a lost target is poison to a step (R382). -/
def statOf (status : Nat) : RdStat := match status with | 0 => .ok | 2 => .unmapped | _ => .poison

/-- The status of a read on the response stream. -/
def RdStat.code : RdStat → Nat
  | .ok => 0 | .poison => 1 | .unmapped => 2

/-- A Sieved read: the elements whose first byte lies in the granule from the address on, each read whole; the bitmap,
then the qualifying elements (R255, R257, R368). -/
def State.sieveRead (s : State) (src : Src) (dpa : Nat) (r : Rec64) : State × Nat × List Byte :=
  let et := bitsOf r.w0.toNat 53 48
  let sz := Nat.max 1 (etSize et)
  let n := (256 - dpa % 256 + sz - 1) / sz
  let a := (List.range n).foldl (fun (a : State × Nat × List Nat × List Byte) i =>
    match a.1.readLocal src ((dpa + i * sz) % 2 ^ 46) sz with
    | (s1, .ok, bs) =>
      let q := sieve r et (ofLe bs)
      (s1.countSieve (s1.sieveUnit dpa) q, a.2.1, a.2.2.1 ++ (if q.1 then [i] else []),
        a.2.2.2 ++ (if q.1 then bs else []))
    | (s1, st, _) => (s1, Nat.max a.2.1 st.code, a.2.2)) (s, 0, [], [])
  let bitmap := (List.range ((n + 7) / 8)).map (fun j =>
    (BitVec.ofNat 8 ((a.2.2.1.filter (fun i => i / 8 = j)).foldl (fun b i => b + 2 ^ (i % 8)) 0) : Byte))
  (a.1, a.2.1, bitmap ++ a.2.2.2)

/-! ### The adders of an atomic unit (R289, R292) -/

/-- An atomic is performed under the residue check of its adder. `origin` is the bank's or the device's. -/
def State.addAtomic (s : State) (r : MemReq) (u : Upset) (adder : AdderCheck) (origin : Nat) : State :=
  match r.op, adder with
  | .swap _ _, _ | .write _, _ | _, .good => s.performAnswer r u
  | _, .once => (s.fault 0x04 origin (s.dpaOf r.off) 0 0 0).performAnswer r u
  | _, .twice =>
    let s1 := (s.returnOld r 1).dropReq r
    let s2 :=
      match r.src with
      | .engine n e => if n = s.pos then s1.errTo e r.epoch 0 r.va else s1
      | .master _ _ => s1
    s2.fault 0x05 origin (s.dpaOf r.off) r.epoch 0 0

/-! ### Home Banks (R287 to R289) -/

/-- SUB_BANK_GRANT (R288). `upset` is what the code finds in the read of the word. Where the rotation has come to the
bank's atomic unit, the grant is that of ATOMIC. -/
def execSubBankGrant (bank sub : Nat) (upset : Upset) (s : State) : Res :=
  match s.bankWinner bank sub with
  | some (g, s1) => if g.place = 17 then .next s else .next (s1.performAnswer g.req upset)
  | none => .next (s.noteFound (0x10000 + bank * 16 + sub) upset)

/-- The grants of a bank that the rotation of their sub-bank gives to the atomic unit, the earliest sub-bank first. -/
def State.atomicGrants (s : State) (bank : Nat) : List (MemReq × State) :=
  (List.range 16).filterMap (fun sub =>
    match s.bankWinner bank sub with
    | some (g, s1) => if g.place = 17 then some (g.req, s1) else none
    | none => none)

/-- ATOMIC (R288, R289): of the atomics that their sub-banks grant, the unit starts the one that arrived first. -/
def execAtomic (bank : Nat) (upset : Upset) (adder : AdderCheck) (s : State) : Res :=
  let gs := s.atomicGrants bank
  match s.m.memq.find? (fun r => gs.any (fun g => g.1 = r)) with
  | none => .next s
  | some r =>
    match gs.find? (fun g => g.1 = r) with
    | some (_, s1) => .next (s1.addAtomic r upset adder (originOf s.pos 1 bank))
    | none => .next s

/-! ### The Directory tier (R291, R292) -/

/-- LINE_SLOT (R291). A buffered line is served without its device, so that no error of the device is met (R292). -/
def execLineSlot (dev : Nat) (upset : Upset) (adder : AdderCheck) (s : State) : Res :=
  match s.xbarWinner (12 + dev) with
  | none => .next (s.noteFound (12 + dev) upset)
  | some (r, s1) =>
    let line := match s.tier r.off with | .dir _ l => l | .ddr _ _ | .exp _ _ | .bank _ | .regs | .none => 0
    let u := if s.lineHeld r.off && upset ≠ .parity then .clean else upset
    if r.op.isAtomic then .next ((s1.bufferLine dev line).addAtomic r u adder (originOf s.pos 3 (12 + dev)))
    else .next ((s1.touchLine r.off).performAnswer r u)

/-! ### DDR5 (R297, R298, R300) -/

/-- A channel fails (R300): MEM_FAIL, with the channel as origin; it is to be marked in the bad-block map. -/
def State.channelFails (s : State) (ch : Nat) : State :=
  (({ s with blk := { s.blk with badDdr := s.blk.badDdr ||| (1#12 <<< ch), unsaved := true } } : State).setBit
    (Reg.ddrStat ch) 2 true).fault 0x09 (originOf s.pos 3 ch) 0 0 0 0

/-- GRANULE (R297). `parityRetryFails` says that a command parity retry failed again. A request that arrives during a
maintenance window waits for it (R298). -/
def execGranule (ch : Nat) (upset : Upset) (parityRetryFails : Bool) (s : State) : Res :=
  if s.inWindow ch then .next s
  else
    let s0 := if parityRetryFails && !s.bit (Reg.ddrStat ch) 2 then s.channelFails ch else s
    match s0.xbarWinner ch with
    | some (r, s1) => .next (s1.performAnswer r upset)
    | none => .next (s0.noteFound ch upset)

/-- Granules of a logical rank of a channel, R (R297). -/
def State.rankGranules (s : State) (ch : Nat) : Nat := rankGib (s.fld (Reg.ddrCfg ch) 6 5) * 2 ^ 30 / 256

/-- The place of a 64-byte line of DDR5 (Table 9.5, R297): logical rank, bank group, bank, column block and row of its granule,
the subchannel and the burst. -/
structure DdrPlace where
  rank : Nat
  group : Nat
  bank : Nat
  col : Nat
  row : Nat
  sub : Nat
  burst : Nat
deriving DecidableEq, Repr

/-- The mapping within a channel (Table 9.5): `rg` granules to a logical rank, granule `l` of the channel, bulk offset `a`. -/
def ddrPlace (rg l a : Nat) : DdrPlace :=
  { rank := l / rg, group := Nat.xor (bitsOf l 2 0) (bitsOf l 13 11), bank := Nat.xor (bitsOf l 4 3) (bitsOf l 16 15),
    col := bitsOf l 10 5, row := l % rg / 2 ^ 11, sub := bitsOf a 7 7, burst := bitsOf a 6 6 }

/-- Where a part-window offset lies in DDR5: its channel and place there. -/
def State.ddrAt (s : State) (off : Nat) : Option (Nat × DdrPlace) :=
  match s.tier off with
  | .ddr ch l => some (ch, ddrPlace (s.rankGranules ch) l off)
  | .dir _ _ | .exp _ _ | .bank _ | .regs | .none => none

/-- The soft-repair row of the bad-block map that names a channel and place (Table 15.7). -/
def repairRow (ch : Nat) (p : DdrPlace) : W64 :=
  BitVec.ofNat 64 (2 ^ 63 + ch * 2 ^ 59 + p.rank * 2 ^ 55 + p.group * 2 ^ 52 + p.bank * 2 ^ 50 + p.row * 2 ^ 32)

/-- An offset lies in a DDR5 row that PREP has repaired (R296). -/
def State.rowRepaired (s : State) (off : Nat) : Bool :=
  match s.ddrAt off with
  | some (ch, p) => s.blk.repaired.contains (repairRow ch p)
  | none => false

/-- Patrol scrub of one granule (R298, R305, R307): the word `mark` is the first that is poisoned. -/
def State.scrubGranule (s : State) (ch : Nat) (upset : Upset) : State :=
  let l := SMap.get 0 s.m.scrub ch
  let off := granuleAt (setBits s.blk.ddrOk) ch l
  let n := s.chanBytes ch / 256
  let s1 := { s with m := { s.m with scrub := SMap.set 0 s.m.scrub ch (if l + 1 < n then l + 1 else 0) } }
  let bad := (List.range 4).find? (fun i => SMap.get Health.good s.m.health (healthKey (off + 64 * i)) = .poisoned)
  match bad, upset with
  | some i, _ => s1.ueEvent (off + 64 * i)
  | none, .corrected => s1.ceEvent off
  | none, .uncorrectable => s1.ueEvent off
  | none, .clean | none, .parity => s1

/-- MAINTENANCE_WINDOW (R298): once for each window of a usable channel. `retrained` is false where the window cannot
complete its retraining step (R300). -/
def execMaintenanceWindow (ch : Nat) (retrained : Bool) (upset : Upset) (s : State) : Res :=
  if !s.inWindow ch || s.bit (Reg.ddrStat ch) 2 then .next s
  else
    let s1 := { s with m := { s.m with window := SMap.set 0 s.m.window ch s.windowNow } }
    if !retrained then .next (s1.channelFails ch) else .next (s1.scrubGranule ch upset)

/-- WRITE_BACK (R307): the corrected word at a part-window offset is written back once no request waits for its
sub-bank or device. -/
def execWriteBack (word : Nat) (s : State) : Res :=
  let k := healthKey word
  let busy := s.m.memq.any (fun r => unitOf (s.tier r.off) r.off = unitOf (s.tier word) word)
  if SMap.get Health.good s.m.health k = .corrected ∧ !busy then
    .next { s with m := { s.m with health := SMap.set .good s.m.health k .good } }
  else .next s

/-! ### Expanders (R304, R400) -/

/-- What waits at an expander port: an engine's or master's read, or a write. -/
inductive ExpItem where
  | read (q : ExpReq)
  | write (r : MemReq)
deriving DecidableEq, Repr

/-- The master that an item enters by, its class, its number of arrival, and the tick of its issue. -/
def ExpItem.via : ExpItem → Nat | .read q => q.via | .write r => r.via
def ExpItem.booked : ExpItem → Bool | .read q => q.booked | .write r => r.booked
def ExpItem.seq : ExpItem → Nat | .read q => q.seq | .write r => r.seq
def ExpItem.tick : ExpItem → Nat | .read q => q.tick | .write r => r.tick
def ExpItem.src : ExpItem → Src | .read q => q.src | .write r => r.src

/-- The items at a port that no earlier one of their source precedes (R311), held answers apart. -/
def State.expItems (s : State) (port : Nat) : List ExpItem :=
  let rs := (s.m.expq.filter (fun q => q.port = port && q.held = none)).map ExpItem.read
  let ws := (s.m.memq.filter (fun r => s.targetOf r = 51 + port)).map ExpItem.write
  let all := rs ++ ws
  let free := fun (x : ExpItem) => (match x with | .read _ => true | .write r => s.heads.contains r)
  all.filter (fun x => free x && !all.any (fun y => y.src = x.src && y.seq < x.seq))

/-- The item that a port serves next, by the arbitration of R310. -/
def State.expChoice (s : State) (port : Nat) : Option ExpItem :=
  leastBy (fun x => s.arbKey (51 + port) x.via x.booked) (s.expItems port)

/-- The port has served an item (R310). -/
def State.expServed (s : State) (port : Nat) (x : ExpItem) : State :=
  s.arbitrated (51 + port) x.via x.booked ((s.expItems port).map (fun y => (y.via, y.booked)))

/-- An answer of an expander reaches its requester: `poison` says that the read is poisoned. Writes of its source that came
before it have been performed, and later ones are not seen (R311). -/
def State.expAnswer (s : State) (q : ExpReq) (poison : Bool) : State :=
  let s0 := { s with m := { s.m with expq := s.m.expq.erase q } }
  let off := q.dpa % 2 ^ 46
  let s1 := if poison then s0.ueEvent off else s0
  let (s2, st, bs) := if poison then (s1, RdStat.poison, []) else s1.readLocal s1.walkSrc off q.size
  let code := st.code
  let full := if bs.isEmpty then List.replicate q.size 0 else bs
  let e := match q.src with | .engine _ e => e | .master _ _ => steward
  match q.what with
  | .scalar => if ((s2.eng e).pend.map (fun p => p.dpa)) = some q.dpa then s2.answerLoad e code full else s2
  | .stream tag c => s2.answerStream e tag c q.dpa code full
  | .step who dpa n => s2.answerStep e who dpa n st full
  | .host held => s2.hostData q.dpa held (if code = 0 then some full else none)
  | .ring id =>
    match (s2.ring.answers.find? (fun a => a.id = id)).bind (fun a => a.sv) with
    | some r =>
      if poison then s2.answer id 1 full
      else
        let (s3, sts, rs) := s1.sieveRead s1.walkSrc q.dpa r
        s3.answer id sts rs
    | none => s2.answer id code full
  | .dbg => s2.emit (.dbgData q.dpa (if code = 0 then some full else none))
  | .swap _ | .taken => s2

/-- A response later than L_X (R304): LATE counts, CXL_LATE is recorded and the Task is marked. -/
def State.expLate (s : State) (port : Nat) (tti : Option Nat) (dpa : Nat) : State :=
  let s1 := (s.add64 (Reg.ddrCxlStat port) 1).fault 0x16 (originOf s.pos 4 port) dpa 0 (tti.getD 0) 0
  match tti with
  | some t => s1.updTask t (fun x => if x.st = .free then x else { x with xlate := true })
  | none => s1

/-- The Task of the placement that a request belongs to. -/
def State.taskOf (s : State) (r : MemReq) : Option Nat :=
  match r.src with
  | .engine n e =>
    if n ≠ s.pos then none
    else (s.eng e).place.bind (fun p => if p.epoch = r.epoch then some p.tti else none)
  | .master _ _ => none

/-- Hold the answer of a read until its release (R400). -/
def State.holdAnswer (s : State) (q : ExpReq) (poison : Bool) : State :=
  { s with m := { s.m with expq := s.m.expq.map (fun x => if x = q then { x with held := some poison } else x) } }

/-- EXPANDER_RESPONSE (R304): the request that the port has served is answered. `poison` is the poison bit of a read, or the
error status of a write to poisoned memory (R306). In mirrored operation a late answer is held (R400). -/
def execExpanderResponse (port : Nat) (late poison : Bool) (s : State) : Res :=
  match s.expChoice port with
  | none => .next s
  | some (.read q) =>
    let s1 := s.expServed port (.read q)
    let s2 := if late then s1.expLate port q.tti q.dpa else s1
    .next (if late && s2.mirroredNow then s2.holdAnswer q poison else s2.expAnswer q poison)
  | some (.write r) =>
    let s1 := s.expServed port (.write r)
    let s2 := if late then s1.expLate port (s1.taskOf r) (s1.dpaOf r.off) else s1
    .next (if poison then ((s2.dropReq r).poisonReport r).loseReq r else s2.performReq r .clean)

/-- A port fails (R304): reported once. -/
def State.portFails (s : State) (port : Nat) : State :=
  if s.m.expFailed.getLsbD port then s
  else
    let t := s.fault 0x09 (originOf s.pos 4 port) 0 0 0 0
    { t with
      m := { t.m with expFailed := t.m.expFailed ||| (1#2 <<< port) }
      blk := { t.blk with badExp := t.blk.badExp ||| (1#2 <<< port), unsaved := true } }

/-- EXPANDER_TIMEOUT (R304): the earliest request at the port that has had no response for LAP_TICKS since it issued. -/
def execExpanderTimeout (port : Nat) (s : State) : Res :=
  match leastBy ExpItem.seq ((s.expItems port).filter (fun x => decide (x.tick + s.lapTicks ≤ s.tb))) with
  | some (.read q) => .next ((s.portFails port).expAnswer q true)
  | some (.write r) => .next ((s.portFails port).performReq r .clean)
  | none => .next s

end Sys2Proof.Machine
end

