-- ==== Sys2Proof/Machine/RingLink.lean ====
section
/-!
DEFINITION. The lanes, links and flits of the ring and pair ports (spec/11_ohmian_ring.md, R345 to R366, R370, R371,
R374 to R378, R383): training, frames, Baton markers, cells, the link layer, and the acceptance of flits.
-/
namespace Sys2Proof.Machine

/-! ### Modes (R490, R491) -/

/-- A trigger of a transition from a running mode: pending until the first boundary after it, in mirrored operation the
boundary of its release, which is the present one (R397); a second one waits. -/
def State.trigger (s : State) (m : Mode) : State :=
  if s.pendMode.isSome then { s with nextMode := some m }
  else { s with pendMode := some (m, if s.mirroredNow then s.lap else s.lap + 1) }

/-- Training state of a port (Table 11.3). -/
def State.lts (s : State) (p : Nat) : Nat := if p < 2 then s.fld (Reg.ringPortStat p) 31 28 else s.fld Reg.pairStat 31 28

/-- Set the training state. -/
def State.setLts (s : State) (p v : Nat) : State :=
  if p < 2 then s.setFld (Reg.ringPortStat p) 31 28 v else s.setFld Reg.pairStat 31 28 v

/-- Set a ring port's trained generation (Table 11.19). -/
def State.setGen (s : State) (p v : Nat) : State := if p < 2 then s.setFld (Reg.ringPortStat p) 27 26 v else s

/-- A ring or pair port goes to OFF (R351). -/
def State.portOff (s : State) (p : Nat) : State := ((s.setLts p 0).setGen p 0).setPort p Port.init

/-- SERVICE mode is entered (R515): admission off, no engine runs, the ports OFF, the bypass closing. -/
def State.enterService (s : State) : State :=
  let s1 := (((s.setBit Reg.staAdmitCtrl 0 false).portOff 0).portOff 1).portOff 2
  let s2 := (s1.listed.filter (fun e => e < 512)).foldl (fun s e => s.clearPlace e) s1
  { s2 with
    mode := .service, pendMode := none, nextMode := none,
    ring := { s2.ring with bypass := if s2.ring.bypass = .closed then .closed else .closing } }

/-! ### Training (R351 to R353) -/

/-- Ports train in PREP and the running modes: a ring port of a ring member behind an open bypass, the pair port of a
paired part that is not fenced; none for a replay (R346, R383, R412, R515). -/
def State.trains (s : State) (p : Nat) : Bool :=
  (s.mode = .prep || s.mode.running) && s.mode ≠ .replay && !s.replayFlag &&
    (if p < 2 then s.ringSize ≠ 0 && s.ring.bypass = .opened else s.fld Reg.pairCfg 1 0 ≠ 0 && !s.bit Reg.pairStat 26)

/-- TRAINING_ATTEMPT (R351). -/
def execTrainingAttempt (p : Nat) (s : State) : Res :=
  if s.trains p ∧ s.lts p = 0 then
    let s1 := s.setLts p 1
    .next (if p < 2 then s1.add64 (Reg.ringPortTrain p) 1 else s1)
  else .next s

/-- DETECT (R348, R351): the lanes that lock within 1 ms, and those that are received inverted. -/
def execDetect (p : Nat) (locked inverted : BitVec 16) (s : State) : Res :=
  if s.lts p ≠ 1 then .next s
  else
    let all := if p < 2 then locked = 0xFFFF else locked &&& 0xFF = 0xFF
    if !all then .next (s.setLts p 0)
    else
      let s1 := s.setLts p 2
      .next (if p < 2 then s1.setFld (Reg.ringPortStat p) 15 0 inverted.toNat else s1)

/-- The parts that a port may accept: in ring order up to the next that is not in RING_LOST (R352); a lost part before it
that returns by its own Dawn is one of them (R384, R506, DEDUCED, log 36). -/
def State.nextParts (s : State) (p : Nat) : List Nat :=
  let n := s.ringSize
  let ring := (List.range n).map (fun k => if p = 0 then (s.pos + k + 1) % n else (s.pos + n - (k + 1) % n) % n)
  ring.takeWhile (fun q => s.bit Reg.ringLost q) ++ (ring.find? (fun q => !s.bit Reg.ringLost q)).toList

/-- MINGEN and MAXGEN of a port; the pair port runs OR-2 only (R353). -/
def State.gens (s : State) (p : Nat) : Nat × Nat :=
  if p < 2 then (s.fld (Reg.ringPortCfg p) 7 6, s.fld (Reg.ringPortCfg p) 5 4) else (2, 2)

/-- The ring partner is the one that R352 asks for. -/
def State.capsOk (s : State) (p : Nat) (f : CapsFrame) : Bool :=
  f.ringid.toNat = s.fld Reg.ringCfg 31 16 && f.digest = s.img.gdigest && f.port = 1 - p && (s.nextParts p).contains f.part

/-- The pair partner is the one that R505 asks for. -/
def State.pairCapsOk (s : State) (f : CapsFrame) : Bool :=
  f.part = s.pos && f.size = s.ringSize && f.lenUs = s.fld Reg.lapCfg 5 0 && f.digest = s.img.gdigest &&
    f.role = 3 - s.fld Reg.pairCfg 1 0

/-- EQ begins at a generation with the preset of RING_PORT_CFG (R350). -/
def State.beginEq (s : State) (p gen : Nat) : State :=
  let s1 := (s.setLts p 3).updPort p (fun x => { x with gen := gen })
  if p < 2 then s1.setFld (Reg.ringPortStat p) 19 16 (s.fld (Reg.ringPortCfg p) 3 0) else s1

/-- The identity is refused (R352, R505). -/
def State.idFail (s : State) (p : Nat) : State :=
  let s1 := s.setLts p 7
  if s.mode ≠ .prep then s1.fault 0x0E (originOf s.pos 5 p) 0 0 0 0
  else if p = 2 then (s1.setBit Reg.dawnStat 11 true).enterService
  else
    let s2 := s1.setBit Reg.dawnStat 10 true
    if s2.lts (1 - p) = 7 then s2.enterService else s2

/-- CAPS (R352, R505). `intime` is false where the partner is not accepted within 1 ms. -/
def execCaps (p : Nat) (f : CapsFrame) (intime : Bool) (s : State) : Res :=
  if s.lts p ≠ 2 then .next s
  else if !intime then .next (s.setLts p 0)
  else
    let s1 :=
      if p < 2 then
        let adj := if p = 0 then (s.pos + 1) % s.ringSize else (s.pos + s.ringSize - 1) % s.ringSize
        (s.setFld (Reg.ringPortStat p) 24 20 f.part).setBit (Reg.ringPortStat p) 25 (f.part ≠ adj)
      else s
    if !(if p < 2 then s.capsOk p f else s.pairCapsOk f) then .next (s1.idFail p)
    else
      let g := s.gens p
      .next ((s1.updPort p (fun x => { x with minGen := Nat.max g.1 (if p < 2 then f.mingen else 2) })).beginEq p
        (if p < 2 then Nat.min g.2 f.maxgen else 2))

/-- EQ (R350): equalisation has converged. -/
def execEq (p : Nat) (s : State) : Res := if s.lts p = 3 then .next (s.setLts p 4) else .next s

/-- A failed CHECK: EQ at OR-1 after OR-2 on a ring port, otherwise OFF (Table 11.3, R353). -/
def State.checkFails (s : State) (p : Nat) : State :=
  if p < 2 ∧ (s.port p).gen = 2 then s.beginEq p 1 else s.setLts p 0

/-- EQ_TIMEOUT (R351). -/
def execEqTimeout (p : Nat) (s : State) : Res := if s.lts p = 3 then .next (s.checkFails p) else .next s

/-- CHECK (R351). -/
def execCheck (p : Nat) (biterror : Bool) (s : State) : Res :=
  if s.lts p ≠ 4 then .next s else if biterror then .next (s.checkFails p) else .next (s.setLts p 5)

/-! ### Spans and switches (R379, R384) -/

/-- A notice of a break or join of the span from A's East port to B's West port; of two breaks the lower Lap applies. -/
def State.noteSwitch (s : State) (a b lap : Nat) (joins : Bool) : State :=
  let k := a * 32 + b
  let same := fun (x : Switch) => decide (x.span = k) && (x.joins == joins)
  let sw :=
    if s.ring.switches.any same then
      s.ring.switches.map (fun x => if same x then { x with lap := Nat.min x.lap lap } else x)
    else s.ring.switches ++ [⟨k, lap, joins⟩]
  { s with ring := { s.ring with switches := sw } }

/-- The ends of the span at a ring port: A, whose East port it is, and B. -/
def State.spanAt (s : State) (p : Nat) : Nat × Nat :=
  let q := s.fld (Reg.ringPortStat p) 24 20
  if p = 0 then (s.pos, q) else (q, s.pos)

/-- Broadcast BREAK (MTYPE 4) or JOIN (MTYPE 5) for the span at a port, with switch Lap d + 4. -/
def State.announce (s : State) (p : Nat) (joins : Bool) : State :=
  let x := s.spanAt p
  let w : Nat := (if joins then 5 else 4) + x.1 * 2 ^ 8 + x.2 * 2 ^ 13
  (s.sendCtl [BitVec.ofNat 64 w, BitVec.ofNat 64 (s.lap + 4)]).noteSwitch x.1 x.2 (s.lap + 4) joins

/-- ALIGN (R351, R375, R384): a port that becomes ACTIVE in a running mode announces its span. -/
def execAlign (p : Nat) (ok : Bool) (delay : BitVec 16) (s : State) : Res :=
  if s.lts p ≠ 5 then .next s
  else
    let x := s.port p
    if !ok || x.gen < x.minGen then .next (s.setLts p 0)
    else
      let s1 := ((s.setLts p 6).setGen p x.gen).setPort p
        { Port.init with gen := x.gen, minGen := x.minGen, inject := x.inject }
      let s2 := if p < 2 then s1.setFld (Reg.ringPortDly p) 15 0 delay.toNat else s1
      .next (if p < 2 && s.mode.running then s2.announce p true else s2)

/-! ### Loss (R377, R378, R404) -/

/-- A flit that has been injected is turned back at a lost port (R378). -/
def State.turnBack (s : State) (p : Nat) (f : Flit) : State :=
  if f.loop = 1 || (s.port (1 - p)).lost then s.add64 Reg.ringCntDrop 1
  else s.updPort (1 - p) (fun x => { x with transit := x.transit ++ [(3, { f with loop := 1, hops := 0 })] })

/-- PAIR_LOST (R404, R411): the part decides at cycle 0 of Lap d + 2. -/
def State.pairLost (s : State) : State :=
  if s.mirroredNow && s.pair.lostLap.isNone && s.pair.handoff.isNone then
    ({ s with pair := { s.pair with lostLap := some s.lap } } : State).fault 0x0F (originOf s.pos 5 2) 0 0 0 0
  else s

/-- A port declares its link lost (R377, R378); the LCTL LINK_DOWN that leaves before it stops is no state of the part
(DEDUCED, log 39). -/
def State.linkLost (s : State) (p : Nat) : State :=
  if s.lts p ≠ 6 then (if s.lts p = 7 then s else s.setLts p 0)
  else
    let x := s.port p
    let s1 := ((s.setLts p 0).setGen p 0).setPort p { Port.init with lost := true }
    if p = 2 then (s1.updPort 2 (fun y => { y with inject := x.inject })).pairLost
    else
      let sent := (x.replay.filter (fun f => f.kind ≠ 4)) ++ x.transit.map (fun q => q.2)
      let s2 := sent.foldl (fun s f => s.turnBack p f) s1
      let s3 := x.inject.foldl (fun s f => s.toPort p f) s2
      if s.mode.running || s.mode = .dusk then (s3.announce p false).fault 0x0B (originOf s.pos 5 p) 0 0 0 0 else s3

/-- LOSS_OF_SIGNAL (R377). -/
def execLossOfSignal (p : Nat) (s : State) : Res := .next (s.linkLost p)

/-- LINK_DOWN (R377): an LCTL LINK_DOWN is received. -/
def execLinkDown (p : Nat) (s : State) : Res := if s.lts p = 6 then .next (s.linkLost p) else .next s

/-- RETRAIN (R355): an LCTL RETRAIN takes its place in the link's sequence; the spec gives it no other effect. -/
def execRetrain (p : Nat) (s : State) : Res :=
  if s.lts p = 6 then .next (s.updPort p (fun x => { x with rxSeq := x.rxSeq + 1 })) else .next s

/-- The transmitter resends every flit of its replay buffer (R356); the eighth time without progress loses the link. -/
def State.resendAll (s : State) (p : Nat) : State :=
  let x := s.port p
  if x.replay.isEmpty then s
  else if 8 ≤ x.tries + 1 then s.linkLost p
  else s.setPort p { x with resend := x.replay.length, tries := x.tries + 1 }

/-- REPLAY_TIMEOUT (R356). -/
def execReplayTimeout (p : Nat) (s : State) : Res := if s.lts p = 6 then .next (s.resendAll p) else .next s

/-! ### Frames and Baton markers (R354, R374 to R376, R395) -/

/-- FRAME (R354): a frame begins; after three without a valid marker the link is lost (R377). -/
def execFrame (p : Nat) (s : State) : Res :=
  if s.lts p ≠ 6 then .next s
  else if 3 ≤ (s.port p).missed then .next (s.linkLost p)
  else .next (s.updPort p (fun x => { x with missed := x.missed + 1, frame := s.tb % s.lapTicks / 1000 }))

/-- The time master: the lowest-numbered part that is not in RING_LOST (R375). -/
def State.timeMaster (s : State) : Nat :=
  ((List.range s.ringSize).find? (fun n => !s.bit Reg.ringLost n)).getD s.pos

/-- This part takes no time from another: the master, but not that of a Trail ring (R375, R395). -/
def State.isMaster (s : State) : Bool := s.timeMaster = s.pos && !s.onTrail

/-- The upstream port (R375, R395): of the ring ports with a locked sender the one of smaller MHOPS, West where equal. -/
def State.chooseUp (s : State) : Nat :=
  if s.timeMaster = s.pos then 2
  else
    let ok := fun (p : Nat) => s.lts p = 6 && (s.port p).mv
    if ok 0 && (!ok 1 || (s.port 0).mhops < (s.port 1).mhops) then 0 else if ok 1 then 1 else s.ring.upstream

/-- A signed number of 1/64 ns in the 16 bits of a register field. -/
def field16 (x : Int) : Nat := (x % 65536).toNat

/-- Move the Time Base by a signed number of 1/64 ns. -/
def State.moveTime (s : State) (d : Int) : State :=
  let t : Int := (s.tb : Int) * 64 + s.tbFrac + d
  { s with tb := (t / 64).toNat, tbFrac := t % 64 }

/-- The Time Base is stepped to a new count; what waits on the old one waits no longer (R375, R448, R553). -/
def State.stepTime (s : State) (n : Nat) (frac : Int) : State :=
  let t := { s with
    tb := n, tbFrac := frac
    evt := { s.evt with lastAcc := [], domLast := [], pinLast := [], fwd := s.evt.fwd.map (fun (p : Nat × Nat) => (p.1, 0)) } }
  { t with stew := { t.stew with kickLap := t.lap, lastExpiry := none }, lastLap := t.lap }

/-- A valid marker corrects the Time Base: the first lock in PREP steps it, later ones move it by at most 1/64 ns. -/
def State.marker (s : State) (p : Nat) (k : Marker) (m1 : Int) : State :=
  let d := (m1 + k.rxd) / 2
  let th := (m1 - k.rxd) / 2
  let s1 := s.updPort p (fun x => { x with missed := 0, mhops := k.mhops, mv := k.mv, rxd := m1 })
  let s2 := if p < 2 then s1.setFld (Reg.ringPortDly p) 15 0 (field16 d) else s1
  let up := s2.chooseUp
  let s3 := { s2 with ring := { s2.ring with upstream := up } }
  let note := fun (s : State) (th : Int) =>
    let good := if -8 ≤ th ∧ th ≤ 8 then s.ring.good + 1 else 0
    ({ s with ring := { s.ring with good := Nat.min good 16 } } : State).setBit Reg.ringStat 19 (decide (16 ≤ good))
  if s3.isMaster then note s3 0
  else if up ≠ p ∨ !k.mv then s3
  else
    let s4 := (s3.setFld Reg.ringSync 31 16 (field16 th)).setFld Reg.ringStat 24 20 (k.mhops + 1)
    if s.mode = .prep && !s.ring.locked then
      let t := s4.moveTime (-th)
      { t.stepTime t.tb t.tbFrac with ring := { s4.ring with locked := true } }
    else (note s4 th).moveTime (if 0 < th then -1 else if th < 0 then 1 else 0)

/-- BATON (R374 to R376). `rxd` is this part's own measure on the span. -/
def execBaton (p : Nat) (k : Marker) (crcOk : Bool) (rxd : Int) (s : State) : Res :=
  if s.lts p ≠ 6 then .next s
  else
    let first := s.mode = .prep && !s.ring.locked
    let agrees := k.lap = s.lap && k.frame = s.tb % s.lapTicks / 1000
    if !crcOk || (!first && !agrees) then .next (if p < 2 then s.add64 (Reg.ringPortMkerr p) 1 else s)
    else .next (s.marker p k rxd)

/-- HOLDOVER (R376): three frames without a valid marker from upstream. -/
def execHoldover (s : State) : Res :=
  let up := s.ring.upstream
  if !s.isMaster && s.mode.running && s.lts up = 6 && 3 ≤ (s.port up).missed then
    let other := 1 - up
    let s1 := s.fault 0x15 (originOf s.pos 6 4) 0 0 0 0
    .next { s1 with ring := { s1.ring with
      upstream := if up < 2 && s1.lts other = 6 && (s1.port other).mv && (s1.port other).missed = 0 then other else up } }
  else .next s

/-! ### Acknowledgements to other parts (R371) -/

/-- The receiving side of a triple: `k` is SRC × 4 + VC, and 128 + VC on the pair port. -/
def State.rxT (s : State) (k : Nat) : RxE2e := SMap.get ⟨0⟩ s.ring.rx2e k

/-- Distance from `a` back to `b` in ESEQ numbers. -/
def seqBack (a b : BitVec 12) : Nat := (a - b).toNat

/-- The ESEQs of a source part and VC whose transactions are not all performed. -/
def State.unperformed (s : State) (src vc : Nat) (pair : Bool) : List (BitVec 12) :=
  ((s.ring.rx.filter (fun x => x.vc = vc ∧ (if pair then x.port = 2 else x.port < 2 ∧ x.src = src))).map
    (fun x => x.eseq)) ++
  (if pair then []
   else
    ((s.m.memq.filter (fun r => match r.src with | .engine n _ | .master n _ => n = src && n ≠ s.pos && r.flit / 4096 = vc)).map
      (fun r => BitVec.ofNat 12 r.flit)) ++
    ((s.ring.answers.filter (fun a => a.part = src && a.flit / 4096 = vc)).map (fun a => BitVec.ofNat 12 a.flit)) ++
    ((s.pair.hold.filter (fun h => h.1.src.toNat = src && h.1.vc.toNat = vc)).map (fun h => h.1.eseq)))

/-- PACK: the last ESEQ up to which every transaction has been performed. -/
def State.packOf (s : State) (k src vc : Nat) (pair : Bool) : BitVec 12 :=
  let last := (s.rxT k).last
  (s.unperformed src vc pair).foldl (fun p x => if seqBack last p < seqBack last (x - 1) then x - 1 else p) last

/-- The ACK flit's body words for a source part; 32 is the pair partner (Table 11.10). -/
def State.ackWords (s : State) (n : Nat) : W64 × W64 :=
  let pair := decide (n = 32)
  let rack := fun (vc : Nat) => (s.rxT (n * 4 + vc)).last.toNat
  (BitVec.ofNat 64 ((s.packOf (n * 4) n 0 pair).toNat * 2 ^ 48 + rack 3 * 2 ^ 36 + rack 2 * 2 ^ 24 + rack 1 * 2 ^ 12 + rack 0),
   BitVec.ofNat 64 (s.packOf (n * 4 + 2) n 2 pair).toNat)

/-- The ACK flit that is due to a part: its values have changed, and the last was sent at least 1 µs ago. -/
def State.ackDue (s : State) (n : Nat) : Option Flit :=
  let w := s.ackWords n
  let last := SMap.get ((0 : W64), (0 : W64), 0) s.ring.ackSent n
  if w = (last.1, last.2.1) ∨ (last ≠ ((0 : W64), (0 : W64), 0) ∧ s.tb < last.2.2 + 1000) then none
  else some (s.mkFlit 3 (if n = 32 then s.pos else n) 3 2 1023 [w.1, w.2])

/-! ### Cells (R357, R359, R361, R370, R403) -/

/-- The code of a cell in a port's Slot Map (R359). -/
def State.cellCode (s : State) (p c : Nat) : Nat := s.fld (Reg.ringSlotmap p (c / 16)) (2 * (c % 16) + 1) (2 * (c % 16))

/-- Credits held for a VC. -/
def Port.credit (x : Port) (vc : Nat) : Nat := SMap.get 0 x.credits vc

/-- Credit returns that the next flit carries, 3 bits a VC, and the port after it (Table 11.4). -/
def Port.takeCrd (x : Port) : BitVec 12 × Port :=
  let n := fun (vc : Nat) => Nat.min 7 (SMap.get 0 x.returns vc)
  (BitVec.ofNat 12 (n 0 * 512 + n 1 * 64 + n 2 * 8 + n 3),
   { x with nakOut := false, returns := [0, 1, 2, 3].foldl (fun m vc => SMap.upd 0 m vc (fun y => y - n vc)) x.returns })

/-- A flit with a SEQ leaves by a port (R356, R357): `n` credits of its VC are used. -/
def State.launch (s : State) (p : Nat) (f : Flit) : State :=
  let x := s.port p
  let (crd, y) := x.takeCrd
  let f1 := { f with seq := x.txSeq + 1, ack := x.rxSeq, nak := if x.nakOut then 1 else 0, crd := crd }
  s.setPort p { y with
    txSeq := x.txSeq + 1, replay := x.replay ++ [f1],
    credits := SMap.upd 0 y.credits f.vc.toNat (fun c => c - 1) }

/-- A buffer of a port is free again: its credit goes back to the partner (R357). -/
def State.freeBuf (s : State) (p vc : Nat) : State :=
  if 3 ≤ p then s else s.updPort p (fun x => { x with returns := SMap.upd 0 x.returns vc (· + 1) })

/-- A flit waits in the replay order (R356). -/
def State.tryReplay (s : State) (p : Nat) : Option State :=
  let x := s.port p
  if x.resend = 0 then none
  else
    let s1 := s.setPort p { x.takeCrd.2 with resend := x.resend - 1, replays := x.replays + 1 }
    some (if p < 2 then s1.add64 (Reg.ringPortReplay p) 1 else s1)

/-- The oldest transit flit of a class that has a credit. -/
def State.tryTransit (s : State) (p : Nat) (want : Flit → Bool) : Option State :=
  let x := s.port p
  if 512 ≤ x.replay.length then none
  else
    match x.transit.find? (fun q => want q.2 && 1 ≤ x.credit q.2.vc.toNat) with
    | none => none
    | some q => some (((s.setPort p { x with transit := x.transit.erase q }).launch p q.2).freeBuf q.1 q.2.vc.toNat)

/-- The key of a flit's triple at its source. -/
def txKey (p : Nat) (f : Flit) : Nat := if p = 2 then 128 + f.vc.toNat else f.dst.toNat * 4 + f.vc.toNat

/-- The class a flit has at injection: beyond the Lap's grant it is Open (R362). -/
def State.injCls (s : State) (p : Nat) (f : Flit) : Nat :=
  let used := SMap.get 0 s.ring.sentLap (f.dst.toNat * 256 + f.laptag.toNat)
  if p < 2 ∧ f.cls = 0 ∧ f.vc ≠ 1 ∧ s.fld (Reg.staGrantRing f.dst.toNat) 15 0 ≤ used then 1 else f.cls.toNat

/-- Mark the first outstanding write and the first outstanding read that a sent packet carries. -/
def State.markSent (s : State) (f : Flit) : State :=
  let dst := f.dst.toNat
  let e := f.reqr.toNat
  let ty := bitsOf (f.body.getD 1 0).toNat 3 0
  let ret := bitsOf (f.body.getD 2 0).toNat 56 56 = 1
  let wr := f.kind = 1 ∧ f.vc = 0 ∧ (ty = 2 ∨ ty = 3 ∨ ty = 4)
  let rd := f.kind = 1 ∧ f.vc = 0 ∧ (ty = 1 ∨ (ty = 4 ∧ ret))
  let i := s.ring.remote.findIdx (fun (r : Remote) => r.part = dst && r.e = e && !r.sent)
  let j := s.ring.reqs.findIdx (fun (q : RemoteReq) => q.part = dst && q.reqr = e && !q.sent)
  let open' := decide (f.cls ≠ 0)
  { s with ring := { s.ring with
      remote := if wr then s.ring.remote.modify i (fun r => { r with sent := true, eseq := f.eseq, isOpen := open' }) else s.ring.remote,
      reqs := if rd then s.ring.reqs.modify j (fun q => { q with sent := true, isOpen := open' }) else s.ring.reqs } }

/-- The end-to-end buffer of a ring port, 2 MiB, has no room for one more flit of 272 bytes (R370, DESIGN CHOICE, log 147). -/
def State.e2eFull (s : State) (p : Nat) : Bool :=
  p < 2 && 2 ^ 21 < 272 * (1 + ((s.ring.tx2e.filter (fun t => t.1 < 128 && s.routePort (t.1 / 4) = p)).map
    (fun t => t.2.unacked.length)).foldl (· + ·) 0)

/-- The first waiting flit of this part that may be injected: two credits, room in its port's end-to-end buffer and in its triple, and no earlier flit of
its requester to the same part on the same VC (R357, R370, R372). -/
def State.tryInject (s : State) (p : Nat) (want : Flit → Bool) : Option State :=
  let x := s.port p
  let blocked := fun (i : Nat) (f : Flit) =>
    (x.inject.take i).any (fun g => g.dst = f.dst && g.vc = f.vc && g.reqr = f.reqr)
  let ok := fun (i : Nat) =>
    match x.inject[i]? with
    | none => false
    | some f => want { f with cls := BitVec.ofNat 2 (s.injCls p f) } && 2 ≤ x.credit f.vc.toNat && !blocked i f &&
        (s.tx (txKey p f)).unacked.length < 2047 && !s.e2eFull p
  if 512 ≤ x.replay.length then none
  else
    match (List.range x.inject.length).find? ok with
    | none => none
    | some i =>
      match x.inject[i]? with
      | none => none
      | some f0 =>
        let s1 := s.setPort p { x with inject := x.inject.eraseIdx i }
        if p < 2 ∧ f0.vc = 3 then some (s1.launch p f0)
        else
          let t := s.tx (txKey p f0)
          let f := { f0 with cls := BitVec.ofNat 2 (s.injCls p f0), eseq := t.next }
          let s2 := s1.setTx (txKey p f) { t with next := t.next + 1, unacked := t.unacked ++ [f] }
          let s3 := if p = 2 then s2 else s2.markSent f
          let s4 := if p < 2 ∧ f.cls = 0 ∧ f.vc ≠ 1 then
              { s3 with ring := { s3.ring with
                sentLap := SMap.upd 0 s3.ring.sentLap (f.dst.toNat * 256 + f.laptag.toNat) (· + 1) } }
            else s3
          some (s4.launch p f)

/-- The ACK flit that is due on a port, for the lowest-numbered part (R371). -/
def State.tryAck (s : State) (p : Nat) : Option State :=
  let x := s.port p
  if 512 ≤ x.replay.length ∨ x.credit 3 < 2 then none
  else
    let ns := if p = 2 then [32] else (List.range s.ringSize).filter (fun n => n ≠ s.pos && s.routePort n = p)
    ns.findSome? (fun n =>
      (s.ackDue n).map (fun f =>
        let w := s.ackWords n
        { s with ring := { s.ring with ackSent := SMap.set (0, 0, 0) s.ring.ackSent n (w.1, w.2, s.tb) } }.launch p f))

/-- The first candidate that has a flit ready. -/
def firstOf : List (Option State) → Option State
  | [] => none
  | some s :: _ => some s
  | none :: t => firstOf t

/-- Fill one slot of a cell (Table 11.5; Table 12.2 on the pair port); with nothing to send, IDLE. No
LCTL flit ever waits (DEDUCED, log 39). -/
def State.fillSlot (s : State) (p code : Nat) : State :=
  let sched := fun (f : Flit) => decide (f.cls = 0)
  let open' := fun (f : Flit) => decide (f.cls = 1)
  let ctl := fun (f : Flit) => decide (f.cls = 2 ∧ f.kind ≠ 3)
  let ackF := fun (f : Flit) => decide (f.kind = 3)
  let vc := fun (n : Nat) (f : Flit) => decide (f.vc.toNat = n)
  let l :=
    if p = 2 then
      [s.tryReplay p, s.tryAck p, s.tryTransit p (fun _ => true), s.tryInject p (vc 3), s.tryInject p (vc 1),
        s.tryInject p (vc 0), s.tryInject p (vc 2)]
    else if code = 1 then
      [s.tryReplay p, s.tryTransit p sched, s.tryInject p sched, s.tryTransit p open', s.tryInject p open']
    else if code = 2 then
      [s.tryReplay p, s.tryTransit p ctl, s.tryInject p ctl, s.tryTransit p ackF, s.tryAck p]
    else
      [s.tryReplay p, s.tryTransit p ackF, s.tryAck p, s.tryTransit p open', s.tryInject p open',
        s.tryTransit p sched, s.tryInject p sched]
  match firstOf l with
  | some t => t
  | none => s.updPort p (fun x => x.takeCrd.2)

/-- CELL (R361): a cell carries one flit, two on a ring port at OR-2 (R354). -/
def execCell (p c : Nat) (s : State) : Res :=
  if s.lts p ≠ 6 ∨ 390 * s.fld Reg.lapCfg 5 0 ≤ c then .next s
  else
    let code := if p < 2 then s.cellCode p c else 0
    let s1 := s.fillSlot p code
    .next (if p < 2 ∧ (s.port p).gen = 2 then s1.fillSlot p code else s1)

/-! ### Receiving flits (R355 to R358, R370) -/

/-- The header of a flit as a number (Table 11.4). -/
def flitHeader (f : Flit) : Nat :=
  f.kind.toNat * 2 ^ 93 + f.seq.toNat * 2 ^ 83 + f.ack.toNat * 2 ^ 73 + f.nak.toNat * 2 ^ 72 + f.crd.toNat * 2 ^ 60 +
  f.src.toNat * 2 ^ 55 + f.dst.toNat * 2 ^ 50 + f.cls.toNat * 2 ^ 48 + f.vc.toNat * 2 ^ 46 + f.laptag.toNat * 2 ^ 38 +
  f.hops.toNat * 2 ^ 33 + f.loop.toNat * 2 ^ 32 + f.eseq.toNat * 2 ^ 20 + f.dlen.toNat * 2 ^ 12 + f.sts.toNat * 2 ^ 10 +
  f.reqr.toNat

/-- The bytes of a flit's body. -/
def flitBytes (f : Flit) : List Byte := f.body.flatMap (fun w => leBytes 8 w.toNat)

/-- The CRC of a flit (R355). -/
def flitCrc (f : Flit) : BitVec 32 := crc32c (leBytes 12 (flitHeader f) ++ flitBytes f)

/-- A receiver asks once for a replay and discards until it comes (R356). -/
def State.askReplay (s : State) (p : Nat) : State :=
  s.updPort p (fun x => if x.nakSent then x else { x with nakSent := true, nakOut := true })

/-- The link fields of a flit: acknowledgement, NAK and credits (R356, R357). -/
def State.linkFields (s : State) (p : Nat) (f : Flit) : State :=
  let x := s.port p
  let keep := x.replay.filter (fun g => (512 ≤ (f.ack - g.seq).toNat))
  let moved := keep.length < x.replay.length
  let c := f.crd.toNat
  let back := [(0, c / 512), (1, c / 64 % 8), (2, c / 8 % 8), (3, c % 8)]
  let s1 := s.setPort p { x with
    acked := f.ack, replay := keep, resend := Nat.min x.resend keep.length, tries := if moved then 0 else x.tries,
    credits := back.foldl (fun m (q : Nat × Nat) => SMap.upd 0 m q.1 (· + q.2)) x.credits }
  if f.nak = 1 then s1.resendAll p else s1

/-- A receiver's link layer (R355, R356): the state, and whether a flit with a SEQ goes on. -/
def State.rxLink (s : State) (p : Nat) (f : Flit) (crc : BitVec 32) : State × Bool :=
  if s.lts p ≠ 6 then (s, false)
  else if crc ≠ flitCrc f then
    ((if p < 2 then s.add64 (Reg.ringPortCrcerr p) 1 else s).askReplay p, false)
  else
    let s1 := s.linkFields p f
    if f.kind = 0 ∨ s1.lts p ≠ 6 then (s1, false)
    else if f.seq ≠ (s1.port p).rxSeq + 1 then (s1.askReplay p, false)
    else
      let s2 := s1.updPort p (fun x => { x with rxSeq := f.seq, nakSent := false })
      let badReqr := 513 < f.reqr.toNat ∧ f.reqr.toNat ≠ 1023
      if 4 < f.kind.toNat ∨ f.cls = 3 ∨ badReqr then
        let n := if p < 2 then s.fld (Reg.ringPortStat p) 24 20 else s.pos
        (((s2.freeBuf p f.vc.toNat).add64 Reg.ringCntBadpkt 1).fault 0x0D (originOf n 7 0) 0 0 0 0, false)
      else (s2, true)

/-! ### Packets (R366, R367, R404) -/

/-- A packet of Table 11.8 obeys its format; its words are those of its slots. -/
def pktOk (ty : Nat) (ws : List W64) : Bool :=
  let w0 := (ws.getD 0 0).toNat
  let w1 := (ws.getD 1 0).toNat
  let n := ws.length
  match ty with
  | 1 => n = 2 && w0 / 2 ^ 61 = 0 && bitsOf w0 53 52 ≠ 3 && w1 = 0
  | 2 => n = 2 && w0 % 8 = 0 && w0 / 2 ^ 60 = 0
  | 3 => n = 2 && w0 % 64 = 0 && w0 / 2 ^ 54 = 0 && (bitsOf w0 53 52 = 1 || bitsOf w0 53 52 = 2) && w1 = 0
  | 4 => n = 2 && w0 % 8 = 0 && w0 / 2 ^ 61 = 0 && bitsOf w0 55 52 ≤ 2
  | 5 => n = 10 && w0 / 64 = 0 && w1 = 0
  | 6 =>
    match w0 % 256 with
    | 1 => n = 2 && w0 / 2 ^ 13 = 0 && w1 = 0
    | 2 => n = 2 && w0 / 2 ^ 16 = 0 && w1 / 2 ^ 55 = 0
    | 3 => n = 4
    | 4 | 5 => n = 2 && w0 / 2 ^ 18 = 0
    | 6 => n = 2 && w0 / 2 ^ 25 = 0 && w1 = 0
    | 7 => n = 2 && w0 / 256 = 0
    | _ => false
  | _ => false

/-- The packets of a PKT body: type and words, from slot `i` on. -/
def packetsFrom (b : List W64) (n i : Nat) : Nat → List (Nat × List W64)
  | 0 => []
  | fuel + 1 =>
    if n ≤ i then []
    else
      let ty := fun (k : Nat) => bitsOf (b.getD 1 0).toNat (4 * k + 3) (4 * k)
      if ty i = 0 then packetsFrom b n (i + 1) fuel
      else
        let more := ((List.range (n - i - 1)).takeWhile (fun k => ty (i + 1 + k) = 0xF)).length
        (ty i, (b.drop (2 + 2 * i)).take (2 * (more + 1))) :: packetsFrom b n (i + 1 + more) fuel

/-- The packets of a PKT flit. -/
def flitPackets (f : Flit) : List (Nat × List W64) := packetsFrom f.body (bitsOf (f.body.getD 0 0).toNat 35 32) 0 15

/-- A packet discarded under R367; the fault's origin is the source part. -/
def State.badPacket (s : State) (src : Nat) : State :=
  (s.add64 Reg.ringCntBadpkt 1).fault 0x0D (originOf src 7 0) 0 0 0 0

/-- A packet names an address of a register window: on the pair port it is bad (R22). -/
def windowPkt (k : Nat × List W64) : Bool := 1 ≤ k.1 && k.1 ≤ 4 && inRegs ((k.2.getD 0 0).toNat % 2 ^ 46)

/-- The packets of an accepted PKT flit wait to be performed. On the pair port only COPY carries packets of Table 11.8, none of
which reaches a register window (R22); the others, and fault records, come as commands with their contents. -/
def State.unpack (s : State) (p : Nat) (f : Flit) : State :=
  let ringPkt := p < 2 || f.vc = 2
  (flitPackets f).foldl (fun s k =>
    if !ringPkt then (if 1 ≤ k.1 ∧ k.1 ≤ 10 then s else s.badPacket f.src.toNat)
    else if !pktOk k.1 k.2 || (p = 2 && windowPkt k) then s.badPacket f.src.toNat
    else if k.1 = 6 ∧ (k.2.getD 0 0).toNat % 256 = 3 then s
    else
      { s with ring := { s.ring with rx := s.ring.rx ++
          [⟨p, f.src.toNat, f.reqr.toNat, f.vc.toNat, f.cls.toNat, f.laptag.toNat,
            bitsOf (f.body.getD 0 0).toNat 63 48, f.eseq, k.1, k.2⟩] } }) s

/-! ### Response streams (R368, R373, R382) -/

/-- The elements of a Sieved answer: for each of the granule's that the stream takes, in its order, the status and bytes; status 32
is an element that does not qualify. -/
def sievedElems (e sz sts : Nat) (idxs : List Nat) (bs : List Byte) : List (Nat × List Byte) :=
  let set := fun (i : Nat) => (bs.getD (i / 8) 0).getLsbD (i % 8)
  let data := bs.drop ((e + 7) / 8)
  idxs.map (fun i =>
    if sts ≠ 0 then (sts, [])
    else if set i then (0, (data.drop (((List.range i).filter set).length * sz)).take sz)
    else (32, []))

/-- An answered request reaches its requester: status and bytes. -/
def State.answerReq (s : State) (q : RemoteReq) (sts : Nat) (bs : List Byte) : State :=
  match q.what with
  | .scalar =>
    match (s.eng q.reqr).pend with
    | none => s
    | some w =>
      if q.dpa ≤ w.dpa ∧ w.dpa + w.size ≤ q.dpa + q.size then
        s.answerLoad q.reqr sts ((bs.drop (w.dpa - q.dpa)).take w.size)
      else s
  | .stream tag c =>
    match q.sv with
    | none => s.answerStream q.reqr tag c q.dpa sts bs
    | some (e, sz, idxs) =>
      (sievedElems e sz sts idxs bs).foldl (fun s x => s.answerStream q.reqr tag c q.dpa x.1 x.2) s
  | .step who dpa n => s.answerStep q.reqr who dpa n (statOf sts) ((bs.drop (dpa - q.dpa)).take n)
  | .swap id => s.swapEnds q.reqr id (if sts = 0 then some (BitVec.ofNat 64 (ofLe (bs.take 8))) else none)
  | .host held => s.hostData q.dpa held (if sts = 0 then some (bs.take 64) else none)
  | .ring _ | .dbg | .taken => s

/-- Bytes that a request's answer takes, from the bytes at the head of its stream. -/
def RemoteReq.need (q : RemoteReq) (bs : List Byte) : Nat :=
  match q.sv with
  | none => q.size
  | some (e, sz, _) =>
    (e + 7) / 8 + ((List.range e).filter (fun i => (bs.getD (i / 8) 0).getLsbD (i % 8))).length * sz

/-- Match the bytes of a response stream to the oldest requests of a requester at a part. -/
def State.matchRsp (s : State) (part reqr : Nat) : Nat → State
  | 0 => s
  | fuel + 1 =>
    let k := part * 1024 + reqr
    let st := SMap.get [] s.ring.rsp k
    match s.ring.reqs.find? (fun q => q.part = part && q.reqr = reqr) with
    | none => s
    | some q =>
      let n := q.need (st.map (fun x => x.2))
      let short : Bool := match q.sv with | some (e, _, _) => decide (st.length < (e + 7) / 8) | none => false
      if short ∨ st.length < n ∨ n = 0 then s
      else
        let mine := st.take n
        let sts := (mine.map (fun x => x.1)).foldl Nat.max 0
        let s1 := { s with ring := { s.ring with
          rsp := SMap.set [] s.ring.rsp k (st.drop n), reqs := s.ring.reqs.erase q } }
        (s1.answerReq q sts (mine.map (fun x => x.2))).matchRsp part reqr fuel

/-- A DATA flit that this part takes (R368, R373): long-write data, or bytes of a response stream, charged to the placement that
made the request whose answer it begins with or goes on with. -/
def State.takeData (s : State) (f : Flit) : State :=
  let src := f.src.toNat
  let reqr := f.reqr.toNat
  let bs := (flitBytes f).take (f.dlen.toNat + 1)
  if f.vc = 1 then
    let wanted : Bool := match s.ring.reqs.find? (fun q => q.part = src && q.reqr = reqr) with
      | some q => decide (q.what ≠ .taken)
      | none => false
    let s1 := if reqr < 512 && wanted then (s.spend reqr 5 src 1).1 else s
    let s2 := { s1 with ring := { s1.ring with
      rsp := SMap.upd [] s1.ring.rsp (src * 1024 + reqr) (fun l => l ++ bs.map (fun b => (f.sts.toNat, b))) } }
    s2.matchRsp src reqr 260
  else
    { s with ring := { s.ring with
        wdata := SMap.upd [] s.ring.wdata ((src * 1024 + reqr) * 4 + f.vc.toNat) (fun l => l ++ bs) } }

/-! ### Acceptance (R370 to R372, R378, R400, R548) -/

/-- An Open-class flit joins the run that the log's last entry holds, or begins one (OPENARR, Table 17.1). -/
def State.logOpen (s : State) (f : Flit) : State :=
  let flow := f.src.toNat + f.vc.toNat * 32
  let begin_ := s.log 0x07 (flow + f.eseq.toNat * 128) 1 []
  match s.recd.cur.getLast? with
  | none => begin_
  | some x =>
    if x.ty = 7 ∧ x.a % 128 = flow ∧ (x.a / 128 + x.b.toNat) % 4096 = f.eseq.toNat ∧ s.bit Reg.recStat 28 then
      { s with recd := { s.recd with cur := s.recd.cur.dropLast ++ [{ x with b := x.b + 1 }] } }
    else begin_

/-- What an accepted flit brings takes effect. -/
def State.deliverFlit (s : State) (p : Nat) (f : Flit) : State :=
  let s1 := if p < 2 ∧ f.cls = 1 then s.logOpen f else s
  if f.kind = 1 then s1.unpack p f else s1.takeData f

/-- The end-to-end check of R370, then delivery; in mirrored operation an Open flit is held, and so are the flits of its
requester behind it (R400). -/
def State.acceptFlit (s : State) (p : Nat) (f : Flit) : State :=
  let k := if p = 2 then 128 + f.vc.toNat else f.src.toNat * 4 + f.vc.toNat
  let x := s.rxT k
  let d := (f.eseq - x.last).toNat
  if d = 0 ∨ 2048 < d then s.add64 Reg.ringCntE2edup 1
  else if d ≠ 1 then s.add64 Reg.ringCntE2egap 1
  else
    let s1 := { s with ring := { s.ring with rx2e := SMap.set ⟨0⟩ s.ring.rx2e k { x with last := f.eseq } } }
    let s2 := if p < 2 ∧ s.bit Reg.recCfg 1 then
        s1.log 0x09 p 0 ([BitVec.ofNat 64 (flitHeader f), BitVec.ofNat 64 ((flitHeader f) / 2 ^ 64)] ++ f.body)
      else s1
    let behind := s.pair.hold.any (fun h => h.1.src = f.src && h.1.vc = f.vc && h.1.reqr = f.reqr)
    if p < 2 && s.mirroredNow && (f.cls = 1 || behind) then
      { s2 with pair := { s2.pair with hold := s2.pair.hold ++ [(f, s.lap)] } }
    else s2.deliverFlit p f

/-- An ACK flit for this part (R371): RACK frees the end-to-end buffer, PACK completes writes. On the pair port a
HOSTCMD acknowledged advances its queue's HEAD (R398). -/
def State.takeAck (s : State) (p : Nat) (f : Flit) : State :=
  let w0 := (f.body.getD 0 0).toNat
  let w1 := (f.body.getD 1 0).toNat
  let n := if p = 2 then 32 else f.src.toNat
  let covered := fun (r x : BitVec 12) => decide ((r - x).toNat < 2048)
  let cmds :=
    if p = 2 then
      ((s.tx 128).unacked.filter (fun g =>
        covered (BitVec.ofNat 12 w0) g.eseq && bitsOf (g.body.getD 1 0).toNat 3 0 = 1)).length
    else 0
  let s1 := [0, 1, 2, 3].foldl (fun s vc =>
    let r : BitVec 12 := BitVec.ofNat 12 (w0 / 2 ^ (12 * vc))
    let t := s.tx (n * 4 + vc)
    s.setTx (n * 4 + vc) { t with rack := r, unacked := t.unacked.filter (fun g => !covered r g.eseq) }) s
  let s2 :=
    if p = 2 then s1
    else
      { s1 with ring := { s1.ring with remote := s1.ring.remote.filter (fun (r : Remote) =>
          !(r.part = n && r.sent && covered (BitVec.ofNat 12 (if r.vc = 2 then w1 else w0 / 2 ^ 48)) r.eseq)) } }
  (s2.pair.cmdAck.take cmds).foldl (fun s q =>
    { (s.setFld (Reg.hostSqCfg q) 23 12 ((s.fld (Reg.hostSqCfg q) 23 12 + 1) % 2 ^ s.fld (Reg.hostSqCfg q) 3 0)) with
      pair := { s.pair with cmdAck := s.pair.cmdAck.drop 1 } }) s2

/-- A flit goes on around the ring, turned back at a lost port (R378). -/
def State.forward (s : State) (p : Nat) (f : Flit) : State :=
  let out := 1 - p
  if (s.port out).lost then
    if f.loop = 1 then (s.freeBuf p f.vc.toNat).add64 Reg.ringCntDrop 1
    else s.updPort p (fun x => { x with transit := x.transit ++ [(p, { f with loop := 1, hops := 0 })] })
  else if f.hops = 31 then (s.freeBuf p f.vc.toNat).add64 Reg.ringCntDrop 1
  else s.updPort out (fun x => { x with transit := x.transit ++ [(p, { f with hops := f.hops + 1 })] })

/-- Links that a broadcast copy travels (R372): half the ring, or all of it once turned back. -/
def State.castHops (s : State) (f : Flit) : Nat := if f.loop = 1 then s.ringSize - 1 else s.ringSize / 2

/-- A good flit with a SEQ arrives (R362, R371, R372, R378). -/
def State.route (s : State) (p : Nat) (f : Flit) : State :=
  let src := f.src.toNat
  let dst := f.dst.toNat
  let vc := f.vc.toNat
  let here := fun (s : State) => if f.kind = 3 then s.takeAck p f else s.acceptFlit p f
  if f.kind = 4 then s.freeBuf p vc
  else if p = 2 then here (s.freeBuf p vc)
  else if s.bit Reg.ringLost src then (s.freeBuf p vc).add64 Reg.ringCntDrop 1
  else if vc = 3 ∧ f.kind = 1 ∧ src = dst then
    let s1 := if src = s.pos then s else s.acceptFlit p f
    if f.hops.toNat + 1 < s.castHops f then s1.forward p f else s1.freeBuf p vc
  else if dst = s.pos then here (s.freeBuf p vc)
  else if s.bit Reg.ringLost dst then (s.freeBuf p vc).add64 Reg.ringCntDrop 1
  else s.forward p f

/-- A flit of the kind that a command names arrives at a port. -/
def State.receive (s : State) (p : Nat) (f : Flit) (crc : BitVec 32) (kinds : List Nat) : Res :=
  if !kinds.contains f.kind.toNat then .next s
  else
    match s.rxLink p f crc with
    | (s1, false) => .next s1
    | (s1, true) => .next (s1.route p f)

/-- IDLE (R355). -/
def execIdle (p : Nat) (f : Flit) (crc : BitVec 32) (s : State) : Res := s.receive p f crc [0]

/-- PKT (R366); a flit of a reserved KIND is discarded (R358). -/
def execPkt (p : Nat) (f : Flit) (crc : BitVec 32) (s : State) : Res := s.receive p f crc [1, 5, 6, 7]

/-- DATA (R368). -/
def execData (p : Nat) (f : Flit) (crc : BitVec 32) (s : State) : Res := s.receive p f crc [2]

/-- ACK (R371). -/
def execAck (p : Nat) (f : Flit) (crc : BitVec 32) (s : State) : Res := s.receive p f crc [3]

/-! ### Resends, the drain hold and the bypass (R371, R380, R383) -/

/-- Resend the unacknowledged flits of a triple from RACK + 1; a key from 128 on is the pair port's. -/
def State.resendTriple (s : State) (k : Nat) : State :=
  let fs := (s.tx k).unacked
  let p := if 128 ≤ k then 2 else s.routePort (k / 4)
  let s1 := s.updPort p (fun x => { x with transit := x.transit ++ fs.map (fun f => (3, f)) })
  s1.add64 Reg.ringCntResend fs.length

/-- RESEND (R371). A destination equal to this part's number is its pair partner (R403). -/
def execResend (dst vc : Nat) (s : State) : Res :=
  .next (s.resendTriple (if dst = s.pos then 128 + vc else dst * 4 + vc))

/-- DRAIN_HOLD_END (R380): held flits leave on their new routes, then the triples whose route changed are resent. -/
def execDrainHoldEnd (s : State) : Res :=
  if s.bit Reg.ringStat 18 then
    let held := s.ring.drainHeld
    let ds := s.ring.draining
    let s1 := ({ s with ring := { s.ring with drainHeld := [], draining := [] } } : State).setBit Reg.ringStat 18 false
    let s2 := held.foldl (fun s f => s.sendFlit f) s1
    .next (ds.foldl (fun s d => [0, 1, 2].foldl (fun s vc => s.resendTriple (d * 4 + vc)) s) s2)
  else .next s

/-- BYPASS_CLOSE (R383). -/
def execBypassClose (s : State) : Res :=
  if s.ring.bypass = .closing then .next { s with ring := { s.ring with bypass := .closed } } else .next s

/-- BYPASS_OPEN (R383). -/
def execBypassOpen (s : State) : Res :=
  if s.ring.bypass = .opening then .next { s with ring := { s.ring with bypass := .opened } } else .next s

end Sys2Proof.Machine
end

