-- ==== Sys2Proof/Machine/RingMsg.lean ====
section
/-!
DEFINITION. The packets of the ring at their destination (spec/11_ohmian_ring.md, R365 to R369, R372, R379, R384;
spec/12_pairs_and_faults.md, R416, R417, R421): reads, writes, atomics, predicates and messages. The commands RD, WR,
WRL, AT, PRED, EVT, TLBI_MSG, FLT, BREAK, JOIN, SCALE and DONE, each of which performs the first packet of its kind
that no earlier packet of its requester precedes.
-/
namespace Sys2Proof.Machine

/-! ### The packets that wait -/

/-- Two packets of one requester and VC, from the ring or from the partner (R372). -/
def sameFlow (x y : RxPkt) : Bool := (x.port = 2) == (y.port = 2) && x.src = y.src && x.reqr = y.reqr && x.vc = y.vc

/-- The first packet that satisfies `want` with none of its flow before it; `seen` are the packets before. -/
def firstPkt (want : RxPkt → Bool) (seen : List RxPkt) : List RxPkt → Option RxPkt
  | [] => none
  | x :: t => if want x && !seen.any (fun y => sameFlow y x) then some x else firstPkt want (x :: seen) t

/-- A message of type `k` (Table 11.9). -/
def RxPkt.isMsg (x : RxPkt) (k : Nat) : Bool := x.ty = 6 && (x.words.getD 0 0).toNat % 256 = k

/-- Word `i` of a packet. -/
def RxPkt.w (x : RxPkt) (i : Nat) : Nat := (x.words.getD i 0).toNat

/-- Perform the first packet that satisfies `want`. -/
def State.onPkt (s : State) (want : RxPkt → Bool) (act : State → RxPkt → State) : Res :=
  match firstPkt want [] s.ring.rx with
  | none => .next s
  | some x => .next (act { s with ring := { s.ring with rx := s.ring.rx.erase x } } x)

/-- The source of a packet's accesses: its engine, the host port or the Mover (Table 11.4, R311). -/
def RxPkt.srcOf (x : RxPkt) : Src :=
  if x.reqr < 512 then .engine x.src x.reqr else .master x.src (if x.reqr = 512 then 35 else 38)

/-- The Lap that a LAPTAG names: the latest at or before the present one. -/
def State.tagLap (s : State) (t : Nat) : Nat := s.lap - (s.lap + 256 - t % 256) % 256

/-- A DPA that a packet names lies in this part's memory (R23, R308). -/
def State.pktMem (s : State) (dpa n : Nat) : Bool :=
  dpa / 2 ^ 46 = s.pos && (s.tier (dpa % 2 ^ 46)).isMem && (s.tier ((dpa + n - 1) % 2 ^ 46)).isMem

/-- An access of a packet is unmapped here: recorded once, with the requester as origin (R26, R309). -/
def State.pktUnmapped (s : State) (x : RxPkt) (dpa : Nat) : State :=
  let s1 := if dpa / 2 ^ 46 = s.pos && inRegs (dpa % 2 ^ 46) then s.satInc Reg.xbarStat 15 0 else s
  let o := match x.srcOf with | .engine n e => originOf n 0 e | .master n id => originOf n 2 id
  s1.fault 0x13 o dpa x.epoch 0 0

/-! ### Reads (R367, R368) -/

/-- The crossbar master by which a packet's accesses enter: ring ingress East or West, or the pair ingress (Table 1.2). -/
def RxPkt.via (x : RxPkt) : Nat := 32 + x.port

/-- VC × 4,096 + ESEQ of the flit that brought a packet. -/
def RxPkt.flit (x : RxPkt) : Nat := x.vc * 4096 + x.eseq.toNat

/-- The DPA that a packet names. -/
def RxPkt.dpa (x : RxPkt) : Nat := x.w 0 % 2 ^ 52

/-- The slot for a packet's response (R368). -/
def RxPkt.slot (x : RxPkt) (booked : Bool) (sv : Option Rec64) (ready : Option (Nat × List Byte)) : Answer :=
  { id := 0, part := x.src, reqr := x.reqr, cls := if booked then 0 else 1, laptag := x.laptag, flit := x.flit, dpa := x.dpa,
    sv := sv, ready := ready }

/-- A packet is answered at once (R368). -/
def State.answerNow (s : State) (x : RxPkt) (booked : Bool) (sts : Nat) (bs : List Byte) : State :=
  (s.openAnswer (x.slot booked none (some (sts, bs)))).sendAnswers x.src x.reqr

/-- Bytes of a read packet. -/
def RxPkt.rdBytes (x : RxPkt) : Nat := match bitsOf (x.w 0) 53 52 with | 0 => 8 | 1 => 64 | _ => 256

/-- A read packet goes to an expander's queue, with its response to come (R304). -/
def State.queueRd (s : State) (x : RxPkt) (port n : Nat) (booked : Bool) (sv : Option Rec64) : State :=
  let id := s.ring.answerCtr
  let s1 := s.openAnswer (x.slot booked sv none)
  { s1 with m := { s1.m with
      expq := s1.m.expq ++
        [⟨port, x.srcOf, none, s.tagLap x.laptag, x.dpa, n, .ring id, none, booked, x.via, s.tb, s1.m.arrivals⟩]
      arrivals := s1.m.arrivals + 1 } }

/-- Perform a read packet and answer it: counted at its targets (R43, R293), and served as they count it. -/
def State.doRd (s : State) (x : RxPkt) : State :=
  let off := x.dpa % 2 ^ 46
  let n := x.rdBytes
  let sv := bitsOf (x.w 0) 54 54 = 1
  let pred := if sv then SMap.get none s.ring.preds (x.src * 64 + bitsOf (x.w 0) 60 55) else none
  if !s.pktMem x.dpa 1 then (s.pktUnmapped x x.dpa).answerNow x (decide (x.cls = 0)) 2 (List.replicate n 0)
  else if sv && pred.isNone then s.badPacket x.src
  else
    let (s1, booked) := s.countUnits x.src off n (s.tagLap x.laptag) (decide (x.cls = 0))
    match s1.expPort x.dpa with
    | some port => s1.queueRd x port n booked pred
    | none =>
      match pred with
      | some r =>
        let (s2, sts, bs) := s1.sieveRead x.srcOf x.dpa r
        s2.answerNow x booked sts bs
      | none =>
        match s1.readLocal x.srcOf off n with
        | (s2, .ok, bs) => s2.answerNow x booked 0 bs
        | (s2, .poison, _) => s2.answerNow x booked 1 (List.replicate n 0)
        | (s2, .unmapped, _) => (s2.pktUnmapped x x.dpa).answerNow x booked 2 (List.replicate n 0)

/-- A read packet has to wait: for its Home Bank or channel (R20, R298), or behind a fenced request of its source at the same
target (R416, HB1). -/
def State.rdHeld (s : State) (x : RxPkt) : Bool :=
  x.dpa / 2 ^ 46 = s.pos &&
    (s.heldAt (x.dpa % 2 ^ 46) ||
      s.m.memq.any (fun r => s.fenced r && r.src = x.srcOf && s.targetOf r = (s.tier (x.dpa % 2 ^ 46)).target))

/-- RD (R367). -/
def execRd (s : State) : Res := s.onPkt (fun x => x.ty = 1 && !s.rdHeld x) (fun s x => s.doRd x)

/-! ### Writes and atomics (R311, R367, R416) -/

/-- The request that a packet makes at an offset of this part. -/
def State.pktReq (s : State) (x : RxPkt) (off : Nat) (op : MemOp) (ret : Option Nat) : MemReq :=
  { x.srcOf.req x.epoch off op 0 (decide (x.cls = 0)) (s.tagLap x.laptag) with ret := ret, flit := x.flit, via := x.via }

/-- Post the cells of a write packet, one request for each unit. -/
def State.postPkt (s : State) (x : RxPkt) (cs : List (Nat × Byte)) : State := s.postCells (s.pktReq x 0 (.write []) none) cs

/-- Write bytes that packet `x` brings to a DPA, those that `be` enables. -/
def State.doWrite (s : State) (x : RxPkt) (dpa : Nat) (bs : List Byte) (be : Nat) : State :=
  if !s.pktMem dpa bs.length then s.pktUnmapped x dpa
  else s.postPkt x ((cellsAt (dpa % 2 ^ 46) bs).filter (fun c => be.testBit (c.1 - dpa % 2 ^ 46)))

/-- WR (R367). -/
def execWr (s : State) : Res :=
  s.onPkt (fun x => x.ty = 2) (fun s x =>
    s.doWrite x (x.w 0 % 2 ^ 52) (leBytes 8 (x.w 1)) (bitsOf (x.w 0) 59 52))

/-- Bytes of a long write. -/
def RxPkt.wrlBytes (x : RxPkt) : Nat := if bitsOf (x.w 0) 53 52 = 1 then 64 else 256

/-- The key of the long-write data of a packet's flow. -/
def RxPkt.dataKey (x : RxPkt) : Nat := (x.src * 1024 + x.reqr) * 4 + x.vc

/-- WRL (R367): once its DATA flits are here. -/
def execWrl (s : State) : Res :=
  s.onPkt (fun x => x.ty = 3 && x.wrlBytes ≤ (SMap.get [] s.ring.wdata x.dataKey).length) (fun s x =>
    let bs := SMap.get [] s.ring.wdata x.dataKey
    ({ s with ring := { s.ring with wdata := SMap.set [] s.ring.wdata x.dataKey (bs.drop x.wrlBytes) } } : State).doWrite x
      (x.w 0 % 2 ^ 52) (bs.take x.wrlBytes) (2 ^ 256 - 1))

/-- The operation of an AT packet (Table 11.8). -/
def RxPkt.atOp (x : RxPkt) : MemOp :=
  let v : W64 := x.words.getD 1 0
  match bitsOf (x.w 0) 55 52 with
  | 0 => .iadd v
  | 1 => .fadd v (BitVec.ofNat 2 (bitsOf (x.w 0) 58 57)) (bitsOf (x.w 0) 59 59 = 1) (bitsOf (x.w 0) 60 60 = 1)
  | _ => .swap v none

/-- An atomic packet waits at its target, which performs it; where its RET is 1 the old value takes a slot of its requester's
stream, poisoned where the epoch is retired (DESIGN CHOICE, log 144). -/
def State.doAt (s : State) (x : RxPkt) : State :=
  let ret := bitsOf (x.w 0) 56 56 = 1
  let booked := decide (x.cls = 0)
  if !s.pktMem x.dpa 8 || !(s.tier (x.dpa % 2 ^ 46)).atomicOk then
    let s1 := s.pktUnmapped x x.dpa
    if ret then s1.answerNow x booked 2 (List.replicate 8 0) else s1
  else
    let r := s.pktReq x (x.dpa % 2 ^ 46) x.atOp (if ret then some s.ring.answerCtr else none)
    let s1 := if ret then s.openAnswer (x.slot booked none none) else s
    if s1.retiredReq r then (s1.postReq r).returnOld r 1 else s1.postReq r

/-- AT (R367). -/
def execAtPkt (s : State) : Res := s.onPkt (fun x => x.ty = 4) (fun s x => s.doAt x)

/-- PRED (R369): the block enters the source part's predicate entry. -/
def execPred (s : State) : Res :=
  s.onPkt (fun x => x.ty = 5) (fun s x =>
    let g := fun (i : Nat) => x.words.getD (2 + i) 0
    { s with ring := { s.ring with
        preds := SMap.set none s.ring.preds (x.src * 64 + x.w 0 % 64)
          (some ⟨g 0, g 1, g 2, g 3, g 4, g 5, g 6, g 7⟩) } })

/-! ### Messages (Table 11.9) -/

/-- EVT (R446). -/
def execEvt (s : State) : Res :=
  s.onPkt (fun x => x.isMsg 1) (fun s x => s.domArrive (bitsOf (x.w 0) 12 8) s.hubNow)

/-- An invalidation acts on every engine at once. -/
def State.tlbiNow (s : State) (va : Nat) (ctx : BitVec 16) : State :=
  { s with engines := SMap.remap Engine.init (fun _ x => x.dropSlots (pageSel va ctx)) s.engines }

/-- TLBI (R338): every engine applies it at its sweep of the boundary that begins Lap n + 2; one that comes later acts at once
(DEDUCED, log 145). -/
def execTlbiMsg (s : State) : Res :=
  s.onPkt (fun x => x.isMsg 2) (fun s x =>
    let va := bitsOf (x.w 1) 54 16 * 65536
    let due := s.tagLap (bitsOf (x.w 0) 15 8) + 2
    if due ≤ s.lap then s.tlbiNow va (BitVec.ofNat 16 (x.w 1))
    else { s with tlbi := s.tlbi ++ [(due, va, BitVec.ofNat 16 (x.w 1))] })

/-- The hardware actions of a record of another part (R416, R417): an engine fault begins a fence of its epoch, EPOCH
0xFFFF a sweep of its part, and ENGINE_HANG with DETAIL 1 lifts a fence. In mirrored modes the record fences the side. -/
def State.recActs (s : State) (r : FaultRec) : State :=
  let part := r.origin / 2 ^ 13
  let kind := r.origin / 2 ^ 9 % 16
  let lap := s.fullLap r.lap16
  if s.mirroredNow || part = s.pos then s
  else if r.epoch = 0xFFFF then s.sweepPart part lap
  else if kind ≠ 0 || r.epoch = 0 then s
  else if r.cls = 0x08 ∧ r.detail = 1 then
    { s with flt := { s.flt with fences := s.flt.fences.map (fun (f : Fence) =>
        if f.part = part ∧ f.epoch = r.epoch then { f with lifted := true } else f) } }
  else if [0x05, 0x07, 0x08].contains r.cls then s.beginFence part r.epoch lap
  else s

/-- FLT (R421): a record of this part, or one received from the ring. -/
def execFlt (r : FaultRec) (received : Bool) (s : State) : Res :=
  if received then .next ((s.recActs r).collect r .ring) else .next (s.collect r .own)

/-- BREAK (R379). -/
def execBreakMsg (s : State) : Res :=
  s.onPkt (fun x => x.isMsg 4) (fun s x => s.noteSwitch (bitsOf (x.w 0) 12 8) (bitsOf (x.w 0) 17 13) (x.w 1) false)

/-- JOIN (R384). A part in PREP that the span joins enters its running mode at the switch Lap (R506). -/
def execJoin (s : State) : Res :=
  s.onPkt (fun x => x.isMsg 5) (fun s x =>
    let a := bitsOf (x.w 0) 12 8
    let b := bitsOf (x.w 0) 17 13
    let s1 := s.noteSwitch a b (x.w 1) true
    if s.mode = .prep && (a = s.pos || b = s.pos) then
      let m : Mode := match s.fld Reg.pairCfg 1 0 with | 0 => .ring | 1 => .lead | _ => .trail
      { s1 with pendMode := some (m, x.w 1) }
    else s1)

/-- SCALE (R63): the sender's announced scale applies to the grants held from it. -/
def execScale (s : State) : Res :=
  s.onPkt (fun x => x.isMsg 6) (fun s x => s.setFld (Reg.staScale x.src) 16 0 (bitsOf (x.w 0) 24 8))

/-- DONE (R376). -/
def execDoneMsg (s : State) : Res :=
  s.onPkt (fun x => x.isMsg 7) (fun s x =>
    { s with ring := { s.ring with doneLap := SMap.upd 0 s.ring.doneLap x.src (fun l => Nat.max l (x.w 1)) } })

end Sys2Proof.Machine
end

