-- ==== Sys2Proof/Machine/PairUnit.lean ====
section
/-!
DEFINITION. The Fault Collector's deadlines and the pair protocol (spec/12_pairs_and_faults.md): fence ends, re-runs,
the packets of a mirrored pair, Handoff and rejoin. The commands FENCE_END, RE_RUN, FLT_POP, HOSTCMD, HOSTWR, REGWR,
EVENTS, LAPEND, POSTED, READY, TENDD, LAPDIG, FENCE, HANDOFF, PAIR_REJOIN and REJOIN.
-/
namespace Sys2Proof.Machine

/-! ### Fences and re-runs (R416 to R418) -/

/-- The epoch of a fence is retired: held requests are dropped and counted together (R416). -/
def State.retireEpoch (s : State) (f : Fence) : State :=
  let mine := fun (r : MemReq) =>
    match r.src with
    | .engine n _ => n = f.part && r.epoch = f.epoch
    | .master _ _ => false
  let gone := s.m.memq.filter mine
  let ent : Retired := ⟨f.part, f.epoch, f.lap⟩
  let s1 : State := { s with
    m := { s.m with memq := s.m.memq.filter (fun r => !mine r) }
    flt := { s.flt with retired := s.flt.retired ++ [ent] } }
  (gone.foldl (fun s r => s.loseReq r) s1).add64 Reg.fltCntEpochdrop gone.length

/-- A hung engine that still holds the fenced placement is unusable (Table 12.5). -/
def State.dropHung (s : State) (f : Fence) : State :=
  if f.part ≠ s.pos then s
  else
    (s.listed.filter (fun e => e < 512 && (s.eng e).hung && s.epochOf e = f.epoch)).foldl
      (fun s e => (s.clearPlace e).loseEngine e) s

/-- FENCE_END (R416): from cycle 0 of Lap f + 2 on. A part that needs a 65th retired entry of its own sweeps instead (R417). -/
def execFenceEnd (part epoch : Nat) (s : State) : Res :=
  match s.flt.fences.find? (fun (f : Fence) => f.part = part && f.epoch = epoch) with
  | none => .next s
  | some f =>
    if s.lap < f.lap + 2 then .next s
    else
      let s1 := { s with flt := { s.flt with fences := s.flt.fences.erase f } }
      if f.lifted then .next s1
      else if f.part = s.pos && 64 ≤ s1.ownRetired then .next ((s1.sweepOwn).dropHung f)
      else .next ((s1.retireEpoch f).dropHung f)

/-- A stopped Task runs again, or is settled Failed with cause FAULT (R418); one that is to be cancelled is settled Cancelled (R61). -/
def State.reRun (s : State) (tti f : Nat) : State :=
  let t := s.task tti
  if t.st = .free || t.st = .settled then s
  else if t.cancelReq && t.ovr = 0 then s.settle tti .cancelled 0 0
  else if !t.restart then s.fail tti 0x05
  else if t.cls = 2 then
    let (s1, ep) := s.nextEpoch
    let s2 := s1.updTask tti (fun t => { t with st := .queued, epoch := ep, ovr := 0, started := false, ended := false })
    { s2 with sta := { s2.sta with openq := tti :: s2.sta.openq.filter (fun x => x ≠ tti) } }
  else
    let need := t.cv.span + 1
    let (laps, _) := s.choose t.cv (f + 3) need (t.deadlineLap + 1 - (f + 3))
    if laps.length < need then s.fail tti 0x05
    else
      let (s1, ep) := s.nextEpoch
      let s2 := s1.updTask tti (fun t =>
        { t with st := .booked, epoch := ep, ovr := 0, started := false, ended := false, lapsLeft := need })
      laps.foldl (fun s l => s.bookLap t.cv tti l) s2

/-- RE_RUN (R418): from cycle 64 of Lap f + 2 on. -/
def execReRun (tti : Nat) (s : State) : Res :=
  match s.flt.rerun.find? (fun p => p.1 = tti) with
  | none => .next s
  | some p =>
    if s.lap < p.2 + 2 ∨ (s.lap = p.2 + 2 ∧ !s.pastCycle 64) then .next s
    else
      let s1 := { s with flt := { s.flt with rerun := s.flt.rerun.erase p } }
      .next (s1.reRun tti p.2)

/-- A write of FLT_POP: 1 removes the head record (R422), which the Steward's fault log keeps (DEDUCED, log 29). -/
def State.fltPopWrite (s : State) (v : BitVec 32) : State :=
  if v.getLsbD 0 then
    { s with
      flt := { s.flt with queue := s.flt.queue.drop 1 },
      host := { s.host with fltLog := s.host.fltLog ++ s.flt.queue.take 1 } }
  else s

/-- FLT_POP (R422). -/
def execFltPop (m : Nat) (v : BitVec 32) (s : State) : Res :=
  if s.accessOk m 0xA00004 4 then .next (s.gate m 0xA00004 v (fun s => s.fltPopWrite v))
  else .next (s.noAccess m 0xA00004)

/-! ### Packets from the Lead (R397, R399, R447) -/

/-- This part is a Pacer: in TRAIL mode with no Handoff done. -/
def State.trails (s : State) : Bool := s.actMode = .trail && !s.bit Reg.pairStat 27 && !s.bit Reg.pairStat 26

/-- A forwarded input is received and held (R397). -/
def State.heldInput (s : State) (i : Input) : Res :=
  if s.trails then
    .next (({ s with pair := { s.pair with inputs := s.pair.inputs ++ [i] } } : State).add64 Reg.pairCntInput 1)
  else .next s

/-- HOSTCMD (R397). The Pacer derives the queue at release. -/
def execHostcmd (lap order : Nat) (r : Rec64) (s : State) : Res := s.heldInput (.hostcmd lap order 64 0 r)

/-- HOSTWR (R397); one that addresses a register window is a bad packet (R22). -/
def execHostwr (lap line : Nat) (isRead : Bool) (be : BitVec 64) (d : Rec64) (s : State) : Res :=
  if s.trails && inRegs (line * 64 % 2 ^ 46) then .next (s.badPacket s.pos)
  else s.heldInput (.hostwr lap line isRead be d)

/-- REGWR (R397). -/
def execRegwr (lap off : Nat) (v : BitVec 32) (s : State) : Res := s.heldInput (.regwr lap off v)

/-- EVENTS (R447): the Lead's flags at the end of a Lap; V takes them at the release. -/
def execEvents (lap : Nat) (flags : BitVec 256) (s : State) : Res :=
  if s.trails ∧ lap + 1 = s.lap then .next { s with pair := { s.pair with recorded := flags } } else .next s

/-- LAPEND (R397, R404). -/
def execLapend (lap count : Nat) (s : State) : Res :=
  if s.trails then .next { s with pair := { s.pair with lapendRx := some (lap, count) } } else .next s

/-- POSTED (R399): the record posted by the Lead leaves the queue of this part's CQ; its entry is freed at cycle 1,024
of the next Lap. -/
def execPosted (tti sq cid : Nat) (s : State) : Res :=
  let same := fun (r : CRec) =>
    bitsOf r.w0.toNat 63 48 = cid && bitsOf r.w0.toNat 47 40 = sq && bitsOf r.w1.toNat 15 0 = tti
  if !s.trails then .next s
  else
    match s.host.cq.find? (fun p => p.2.held.any same) with
    | none => .next s
    | some p =>
      match p.2.held.find? same with
      | none => .next s
      | some r => .next (((s.updCq p.1 (fun c => { c with held := c.held.erase r })).advanceTail p.1).freePosted r)

/-! ### READY, digests and faults (R400, R406 to R408, R411) -/

/-- READY (R400); the packets of one boundary are taken together. -/
def execReady (lap : Nat) (entries : List ReadyEntry) (s : State) : Res :=
  if s.mirroredNow then
    let old := match s.pair.readyRx with | some (l, es) => if l = lap then es else [] | none => []
    .next { s with pair := { s.pair with readyRx := some (lap, old ++ entries) } }
  else .next s

/-- TENDD (R407). -/
def execTendd (tti epoch eng : Nat) (digest : BitVec 64) (s : State) : Res :=
  if s.mirroredNow then .next (s.meetTend ⟨tti, epoch, eng, digest, s.lap, false⟩) else .next s

/-- LAPDIG (R406): the digests of the Lap that the latest boundary closed; differences wait for R408. Number 512 stands
for the part digest. -/
def execLapdig (lap : Nat) (part : BitVec 64) (engines : List (BitVec 64)) (s : State) : Res :=
  if s.mirroredNow ∧ lap + 1 = s.lap then
    let s1 := s.closeDigests
    let es := (List.range 512).filter (fun e => SMap.get 0 s1.pair.own e ≠ engines.getD e 0)
    let ds := es ++ (if part ≠ s1.pair.ownPart then [512] else [])
    .next { s1 with pair := { s1.pair with diff := s1.pair.diff ++ ds.map (fun e => (lap, e)) } }
  else .next s

/-- FENCE (R412): the partner's record. -/
def execFence (r : FaultRec) (s : State) : Res := .next (s.collect r .partner)

/-! ### Handoff (R411, R412) -/

/-- This part's ring is fenced: engines stop without saving, admission ends, the pair link stops. -/
def State.becomeFenced (s : State) : State :=
  let s1 := (s.listed.filter (fun e => e < 512)).foldl (fun s e => (s.chargeCyc e).clearPlace e) s
  (((s1.setBit Reg.staAdmitCtrl 0 false).portOff 2).setBit Reg.pairStat 26 true).setBit Reg.pairStat 25 false

/-- A Task whose placement a fault of the surviving side has stopped is handled as in DEGRADED mode (R411, R416, DEDUCED, log 40). -/
def State.adoptStopped (s : State) : State :=
  let held := fun (t : Nat) => s.engines.any (fun p => match p.2.place with | some q => q.tti = t | none => false)
  let lost := (s.sta.tasks.filter (fun p => p.2.st = .running && !p.2.ended && !held p.1)).map (fun p => p.1)
  lost.foldl (fun s t =>
    let s1 := (s.returnBookings t).beginFence s.pos (s.task t).epoch s.lap
    { s1 with flt := { s1.flt with rerun := s1.flt.rerun ++ [(t, s1.lap)] } }) s

/-- This part serves alone. -/
def State.becomeSurvivor (s : State) : State :=
  ((s.setBit Reg.pairStat 27 true).setBit Reg.pairStat 25 false).adoptStopped

/-- HANDOFF (R412): cycle 0 of Lap h has come. -/
def execHandoff (s : State) : Res :=
  match s.pair.handoff with
  | none => .next s
  | some (h, trail) =>
    if s.lap < h ∨ !s.mirroredNow then .next s
    else
      let s1 := { s with pair := { s.pair with handoff := none, lostLap := none } }
      .next (if s.onTrail = trail then s1.becomeFenced else s1.becomeSurvivor)

/-! ### Rejoin (R425) -/

/-- A write of PAIR_REJOIN: Lap c, at least 257 Laps ahead; on a survivor the copy begins, and SYNCED is 0 until it is complete
(Table 12.9; DEDUCED, log 81). -/
def State.rejoinWrite (s : State) (v : W64) : State :=
  if v.toNat < s.lap + 257 then s
  else
    let s1 := s.wr64 Reg.pairRejoin v
    if s.bit Reg.pairStat 27 && (s.mode.mirrored || s.mode = .degraded) then
      { s1 with pair := { s1.pair with rejoinLap := some v.toNat, copyAt := 0 } }.setBit Reg.pairStat 24 false
    else s1

/-- PAIR_REJOIN (R425). -/
def execPairRejoin (m : Nat) (v : BitVec 64) (s : State) : Res :=
  if s.accessOk m 0x900010 4 then
    .next (s.gate m 0x900010 (v.setWidth 32) (fun s => s.rejoinWrite v))
  else .next (s.noAccess m 0x900010)

/-- Every TLB and branch predictor of the part is invalidated. -/
def State.flushAll (s : State) : State :=
  { s with engines := SMap.remap Engine.init (fun _ x => { x.dropSlots (fun _ => true) with btb := [] }) s.engines }

/-- REJOIN (R425): at Lap c mirrored operation resumes, or the rejoin is abandoned. A rejoining part counts as reached
by forwarding from the first packet on (DEDUCED, log 13). -/
def execRejoin (allSynced : Bool) (s : State) : Res :=
  match s.pair.rejoinLap with
  | some c =>
    if s.lap < c ∨ !s.bit Reg.pairStat 27 then .next s
    else if allSynced then
      .next (({ s.flushAll with mode := .lead, runLap := s.lap }.setBit Reg.pairStat 27 false).setBit Reg.pairStat 24 true)
    else .next ({ s with pair := { s.pair with rejoinLap := none } }.setBit Reg.pairStat 23 true)
  | none =>
    if s.rejoining then
      if allSynced then .next (s.flushAll.setBit Reg.pairStat 24 true) else .next (s.setBit Reg.pairStat 23 true)
    else .next s

end Sys2Proof.Machine
end

