-- ==== Sys2Proof/Machine/HostPort.lean ====
section
/-!
DEFINITION. The host port (spec/14_host_port.md, R464 to R489): doorbells and queue control, HDM decoders and CXL.mem
access, reset and link loss, D-states, MSI-X masks and the Steward mailbox. The commands HOST_SQ_TAIL, HOST_CQ_HEAD,
HOST_SQ_CFG, HOST_CQ_CFG, PURGE, CXL_MEM_READ, CXL_MEM_WRITE, COMMIT, HOST_LINK_UP, HOST_LINK_DOWN, HOT_RESET, PERST_N,
FUNCTION_LEVEL_RESET, D3HOT, D0, MSI_X_UNMASK, ENTER_DUSK, ENTER_SERVICE, FAULT_READ, KEEP_READ and UNSUPPORTED.
-/
namespace Sys2Proof.Machine

/-! ### Configuration space (R466) -/

/-- The capabilities that configuration space carries (R466). -/
inductive Capability where
  | powerManagement | pciExpress | msix | aer | deviceSerialNumber | secondaryPciExpress | dataLinkFeature
  | physicalLayer16 | physicalLayer32 | physicalLayer64 | laneMargining | dataObjectExchange
  | dvsecCxlDevices | dvsecFlexBusPort | dvsecRegisterLocator
deriving DecidableEq, Repr

/-- What configuration space reports (R466, R467): `bars` gives the first register and the size of each 64-bit BAR, both
non-prefetchable; BAR4 and BAR5 read as 0. `capacity` is the volatile capacity in bytes (R480). -/
structure ConfigSpace where
  classCode : BitVec 24
  vendorId : BitVec 16
  deviceId : BitVec 16
  revision : BitVec 8
  serial : W64
  caps : List Capability
  bars : List (Nat × Nat)
  capacity : Nat
deriving DecidableEq, Repr

/-- What CDAT reports (R467): the worst-case read latency of Open traffic, none where it is unbounded, and the DDR5 peak in MB/s,
8 data bytes per transfer on each enabled channel. -/
structure Cdat where
  openLatency : Option Nat
  bandwidth : Nat
deriving DecidableEq, Repr

/-- The CDAT tables of this part. -/
def State.cdat (s : State) : Cdat :=
  { openLatency := none
    bandwidth := s.ddrEn.foldl (fun n ch => n + (s.fld (Reg.ddrCfg ch) 11 8 + 8) * 400 * 8) 0 }

/-- Configuration space as the host reads it, in D3hot too (R465, R466). The vendor identifier is a free value (log 126). -/
def State.configSpace (s : State) : ConfigSpace :=
  { classCode := 0x050210, vendorId := Config.vendorId, deviceId := s.devId.setWidth 16
    revision := BitVec.ofNat 8 (s.devId.toNat / 2 ^ 16), serial := s.rd64 Reg.devSerial
    caps := [.powerManagement, .pciExpress, .msix, .aer, .deviceSerialNumber, .secondaryPciExpress, .dataLinkFeature,
             .physicalLayer16, .physicalLayer32, .physicalLayer64, .laneMargining, .dataObjectExchange,
             .dvsecCxlDevices, .dvsecFlexBusPort, .dvsecRegisterLocator]
    bars := [(0, 2 ^ 30), (2, 2 ^ 18)]
    capacity := 2 ^ 46 * Nat.max 1 s.ringSize }

/-! ### Doorbells (R476) -/

/-- A doorbell that is ignored is counted. -/
def State.badBell (s : State) : State := s.satInc Reg.hostStat 7 0

/-- A write of HOST_SQ_TAIL_q. -/
def State.sqTailWrite (s : State) (q : Nat) (v : BitVec 32) : State :=
  let s1 := s.log 0x01 q (v.setWidth 64) []
  let t := bitsOf v.toNat 11 0
  if !s.bit (Reg.hostSqCfg q) 31 || s.sqSize q ≤ t then s1.badBell
  else { s1 with host := { s1.host with sqTail := SMap.set 0 s1.host.sqTail q t } }

/-- A write of HOST_CQ_HEAD_q. -/
def State.cqHeadWrite (s : State) (q : Nat) (v : BitVec 32) : State :=
  let s1 := s.log 0x01 (64 + q) (v.setWidth 64) []
  let h := bitsOf v.toNat 15 0
  if !s.bit (Reg.hostCqCfg q) 31 || s.cqSize q ≤ h then s1.badBell
  else s1.updCq q (fun c => { c with head := h })

/-- HOST_SQ_TAIL (R476). -/
def execHostSqTail (m q : Nat) (v : BitVec 32) (s : State) : Res :=
  if s.accessOk m 0 4 ∧ q < 64 then .next (s.gate m (Reg.hostSqTail q).off v (fun s => s.sqTailWrite q v))
  else .next (s.noAccess m (Reg.hostSqTail q).off)

/-- HOST_CQ_HEAD (R476). -/
def execHostCqHead (m q : Nat) (v : BitVec 32) (s : State) : Res :=
  if s.accessOk m 0 4 ∧ q < 64 then .next (s.gate m (Reg.hostCqHead q).off v (fun s => s.cqHeadWrite q v))
  else .next (s.noAccess m (Reg.hostCqHead q).off)

/-! ### Queue control (R477) -/

/-- A write of HOST_SQ_CFG_q: EN alone while EN is 1; setting EN clears HEAD and tail. -/
def State.sqCfgWrite (s : State) (q : Nat) (v : BitVec 32) : State :=
  let r := Reg.hostSqCfg q
  let en := bitsOf v.toNat 31 31 = 1
  if s.bit r 31 then (if en then s else s.setBit r 31 false)
  else
    let s1 := (s.setFld r 29 24 (bitsOf v.toNat 29 24)).setFld r 3 0 (bitsOf v.toNat 3 0)
    let n := bitsOf v.toNat 3 0
    if en && 1 ≤ n && n ≤ 12 then
      { (s1.setBit r 31 true).setFld r 23 12 0 with
        host := { s1.host with sqTail := SMap.set 0 s1.host.sqTail q 0 } }
    else s1

/-- PURGE while EN is 0: the held records of a CQ are discarded and counted, their entries freed. -/
def State.purgeCq (s : State) (q : Nat) : State :=
  if s.bit (Reg.hostCqCfg q) 31 then s
  else
    let held := (s.cq q).held
    let s1 := held.foldl (fun s r => match r.frees with | some t => s.updTask t (fun _ => Task.empty) | none => s) s
    (s1.updCq q (fun c => { c with held := [] })).add64 Reg.hostCntPurge held.length

/-- A write of HOST_CQ_CFG_q: setting EN clears TAIL and head and starts at phase 1; after a link loss the NOTICE
LINK_RESUMED goes first (R477, R484). -/
def State.cqCfgWrite (s : State) (q : Nat) (v : BitVec 32) : State :=
  let r := Reg.hostCqCfg q
  let en := bitsOf v.toNat 31 31 = 1
  if s.bit r 31 then (if en then s else s.setBit r 31 false)
  else
    let s0 := if bitsOf v.toNat 30 30 = 1 then s.purgeCq q else s
    let s1 := (s0.setFld r 29 23 (bitsOf v.toNat 29 23)).setFld r 4 0 (bitsOf v.toNat 4 0)
    let n := bitsOf v.toNat 4 0
    if en && 1 ≤ n && n ≤ 16 then
      ((s1.setBit r 31 true).setFld r 20 5 0).updCq q (fun c =>
        { head := 0, phase := true, linkLost := false,
          held := if c.linkLost && !c.held.isEmpty then s1.noticeRec 2 :: c.held else c.held })
    else s1

/-- HOST_SQ_CFG (R477). -/
def execHostSqCfg (m q : Nat) (v : BitVec 32) (s : State) : Res :=
  if s.accessOk m 0 4 ∧ q < 64 then .next (s.gate m (Reg.hostSqCfg q).off v (fun s => s.sqCfgWrite q v))
  else .next (s.noAccess m (Reg.hostSqCfg q).off)

/-- HOST_CQ_CFG (R477). -/
def execHostCqCfg (m q : Nat) (v : BitVec 32) (s : State) : Res :=
  if s.accessOk m 0 4 ∧ q < 64 then .next (s.gate m (Reg.hostCqCfg q).off v (fun s => s.cqCfgWrite q v))
  else .next (s.noAccess m (Reg.hostCqCfg q).off)

/-- PURGE (R477): a write of 1 to PURGE that leaves the other fields as they are. -/
def execPurge (m q : Nat) (s : State) : Res :=
  if s.accessOk m 0 4 ∧ q < 64 then
    .next (s.gate m (Reg.hostCqCfg q).off (s.rd (Reg.hostCqCfg q) ||| 0x40000000) (fun s => s.purgeCq q))
  else .next (s.noAccess m (Reg.hostCqCfg q).off)

/-! ### HDM decoders (R480) -/

/-- A decoder. -/
def State.hdm (s : State) (n : Nat) : Hdm := SMap.get Hdm.init s.host.hdm n

/-- Where the DPA range of decoder `n` begins: past the ranges before it, each after its skip. -/
def State.hdmBase (s : State) (n : Nat) : Nat :=
  (List.range n).foldl (fun a k => a + (s.hdm k).skip + (s.hdm k).size) 0 + (s.hdm n).skip

/-- CXLVER. -/
def State.cxlVer (s : State) : Nat := s.fld Reg.hostStat 22 21

/-- COMMIT (R480): without CXL there is no window; CXL 1.1 has two ranges and no skip (PRESUMED, log 30). A decoder that stands
committed keeps its range. -/
def execCommit (n base size skip : Nat) (s : State) : Res :=
  if !s.bit Reg.hostStat 31 ∨ s.cxlVer = 0 ∨ 4 ≤ n ∨ (s.cxlVer = 1 ∧ 2 ≤ n) ∨ (s.hdm n).committed then .next s
  else
    let h : Hdm := { base := base, size := size, skip := if s.cxlVer = 1 then 0 else skip, committed := false, err := false }
    let put := fun (x : Hdm) => ({ s with host := { s.host with hdm := SMap.set Hdm.init s.host.hdm n x } } : State)
    let s1 := put h
    let bad := base % 2 ^ 28 ≠ 0 || size % 2 ^ 28 ≠ 0 || size = 0 || 2 ^ 52 < s1.hdmBase n + size
    .next (put { h with committed := !bad, err := bad })

/-- The DPA of a host physical address in a committed window. -/
def State.hdmDpa (s : State) (hpa : Nat) : Option Nat :=
  ((List.range 4).find? (fun n =>
    (s.hdm n).committed && (s.hdm n).base ≤ hpa && hpa < (s.hdm n).base + (s.hdm n).size)).map
      (fun n => s.hdmBase n + (hpa - (s.hdm n).base))

/-! ### CXL.mem (R397, R398, R412, R481, R482, R554) -/

/-- Memory is trained and zeroed, and the mode serves the windows (R481, R524). -/
def State.memServed (s : State) : Bool :=
  s.mode.running || s.mode = .dusk || (s.mode = .service && s.prepLap.isSome)

/-- A request that is not performed: a read gets poisoned data, a write is discarded, and it counts. -/
def State.hostDrop (s : State) (dpa : Nat) (isRead : Bool) : State :=
  if isRead then s.hostData dpa [] none else s.add64 Reg.hostCntMemdrop 1

/-- A request to an unmapped DPA (R26). -/
def State.hostUnmapped (s : State) (dpa : Nat) (isRead : Bool) : State :=
  (s.fault 0x13 (originOf s.pos 2 35) dpa 0 0 0).hostDrop dpa isRead

/-- A line's DPA is mapped: memory of this part, or a part that is reachable. -/
def State.lineMapped (s : State) (dpa : Nat) : Bool :=
  dpa < 2 ^ 52 && s.partUp (dpa / 2 ^ 46) && !inRegs (dpa % 2 ^ 46) &&
    (dpa / 2 ^ 46 ≠ s.pos || (s.tier (dpa % 2 ^ 46)).isMem)

/-- The bytes of a line that its byte enables select, with their offsets. -/
def lineCells (off : Nat) (be : BitVec 64) (d : Rec64) : List (Nat × Byte) :=
  (cellsAt off (d.words.flatMap (fun w => leBytes 8 w.toNat))).filter (fun c => be.getLsbD (c.1 - off))

/-- Perform a host write of a line (R481): a local request of master 35, or packets to another part. -/
def State.hostWrite (s : State) (dpa : Nat) (be : BitVec 64) (d : Rec64) : State :=
  if !s.lineMapped dpa then s.hostUnmapped dpa false
  else if dpa / 2 ^ 46 = s.pos then
    s.postWrite (.master s.pos 35) 0 (lineCells (dpa % 2 ^ 46) be d) 0 false s.lap
  else
    (List.range 8).foldl (fun s i =>
      let b := be.toNat / 2 ^ (8 * i) % 256
      if b = 0 then s
      else s.sendPacket 512 (dpa / 2 ^ 46) 2 [BitVec.ofNat 64 (b * 2 ^ 52 + dpa + 8 * i), d.words.getD i 0] false) s

/-- A read of this part's memory by master `id`, to whom `give` brings the data: at once, or through a queue where an expander
holds the address, or its Home Bank or channel is held back (R20, R298, R304). -/
def State.masterRead (s : State) (id dpa n : Nat) (w : ReqFor) (give : State → Option (List Byte) → State) : State :=
  match s.expPort dpa with
  | some p => s.queueRead p id dpa n w
  | none =>
    if s.heldAt (dpa % 2 ^ 46) then s.queueRead 2 id dpa n w
    else
      match s.readLocal (.master s.pos id) (dpa % 2 ^ 46) n with
      | (s1, .ok, bs) => give s1 (some bs)
      | (s1, .poison, _) | (s1, .unmapped, _) => give s1 none

/-- Perform a host read of a line; `held` holds the bytes of held writes; `give` is false where the data are not the
host's (a forwarded read on a Pacer). -/
def State.hostRead (s : State) (dpa : Nat) (held : List (Nat × Byte)) (give : Bool) : State :=
  if !s.lineMapped dpa then (if give then s.hostUnmapped dpa true else s)
  else if dpa / 2 ^ 46 = s.pos then
    s.masterRead 35 dpa 64 (if give then .host held else .taken) (fun s bs => if give then s.hostData dpa held bs else s)
  else if give then
    let s1 := s.sendPacket 512 (dpa / 2 ^ 46) 1 [BitVec.ofNat 64 (2 ^ 52 + dpa), 0] false
    { s1 with ring := { s1.ring with
        reqs := s1.ring.reqs ++ [⟨dpa / 2 ^ 46, 512, dpa, 64, .host held, none, false, s1.lap, false⟩] } }
  else s

/-- Reads that have been held back and need wait no longer are answered (R20, R298). -/
def State.releaseReads (s : State) : State :=
  (s.m.expq.filter (fun q => q.port = 2 && !s.heldAt (q.dpa % 2 ^ 46))).foldl (fun s q => s.expAnswer q false) s

/-- Bulk memory, which a Lead serves at once (Table 12.1). -/
def isBulk (dpa : Nat) : Bool := dpa % 2 ^ 46 < 0x100000000000

/-- Bytes of held host writes to a line (R398). -/
def State.heldBytes (s : State) (dpa : Nat) : List (Nat × Byte) :=
  (s.pair.inputs ++ s.pair.waiting).flatMap (fun i =>
    match i with
    | .hostwr _ line false be d => if line * 64 = dpa then lineCells dpa be d else []
    | _ => [])

/-- The packet of a forwarded CXL.mem request (Table 12.3). -/
def hostwrWords (dpa : Nat) (isRead : Bool) (be : BitVec 64) (d : Rec64) : List W64 :=
  [BitVec.ofNat 64 (isRead.toNat * 2 ^ 52 + dpa), be] ++ d.words

/-- A host CXL.mem request on a line, by mode and side. A Lead without INPUT cells makes it wait (R398, R479). -/
def State.hostMem (s : State) (dpa : Nat) (isRead : Bool) (be : BitVec 64) (d : Rec64) : State :=
  if !s.memServed then s.hostUnmapped dpa isRead
  else if s.bit Reg.pairStat 26 then s.hostDrop dpa isRead
  else if !isRead && (s.actMode = .replay || s.trails) then s.hostDrop dpa false
  else if s.forwarding && !(isRead && isBulk dpa) then
    s.offer (.hostwr s.lap (dpa / 64) isRead be d) 0x2 (hostwrWords dpa isRead be d)
  else if isRead then s.hostRead dpa (if s.forwarding then s.heldBytes dpa else []) true
  else s.hostWrite dpa be d

/-- A line of zeros. -/
def Rec64.zero : Rec64 := ⟨0, 0, 0, 0, 0, 0, 0, 0⟩

/-- CXL_MEM_READ (R481): a read of the 64-byte line that holds the address. -/
def execCxlMemRead (hpa _n : Nat) (s : State) : Res :=
  if !s.windowUp || !s.bit Reg.hostStat 31 || s.cxlVer = 0 then .next s
  else
    match s.hdmDpa hpa with
    | none => .next s
    | some dpa => .next (s.hostMem (dpa / 64 * 64) true 0 Rec64.zero)

/-- CXL_MEM_WRITE (R481): a write of the enabled bytes of a 64-byte line. -/
def execCxlMemWrite (hpa : Nat) (be : BitVec 64) (d : Rec64) (s : State) : Res :=
  if !s.windowUp || !s.bit Reg.hostStat 31 || s.cxlVer = 0 then .next s
  else
    match s.hdmDpa hpa with
    | none => .next s
    | some dpa => .next (s.hostMem (dpa / 64 * 64) false be d)

/-! ### Reset and link loss (R484) -/

/-- Every queue's EN is cleared, and every doorbell. -/
def State.clearQueues (s : State) : State :=
  let s1 := (List.range 64).foldl (fun s q =>
    (if s.bit (Reg.hostSqCfg q) 31 then s.setBit (Reg.hostSqCfg q) 31 false else s)) s
  let s2 := (List.range 64).foldl (fun s q =>
    (if s.bit (Reg.hostCqCfg q) 31 then s.setBit (Reg.hostCqCfg q) 31 false else s).updCq q
      (fun c => { c with head := 0 })) s1
  { s2 with host := { s2.host with sqTail := [] } }

/-- Unanswered reads of the host are dropped: their answers reach nobody. -/
def State.dropHostReads (s : State) : State :=
  let drop := fun (w : ReqFor) =>
    match w with
    | .host _ => ReqFor.taken
    | .scalar | .stream _ _ | .swap _ | .step _ _ _ | .ring _ | .dbg | .taken => w
  { s with
    m := { s.m with expq := s.m.expq.map (fun q => { q with what := drop q.what }) }
    ring := { s.ring with reqs := s.ring.reqs.map (fun (q : RemoteReq) => { q with what := drop q.what }) } }

/-- The host port alone is reset: link down, hot reset, PERST# (R484). -/
def State.hostReset (s : State) : State :=
  let s1 := (s.clearQueues.dropHostReads).setFld Reg.hostStat 31 21 0
  let s2 := (List.range 64).foldl (fun s q => s.updCq q (fun c => { c with linkLost := true })) s1
  { s2 with
    sta := { s2.sta with fetching := [] },
    host := { s2.host with
      d3 := false, msixOn := false, msixMask := [], msixPend := [],
      hdm := (s2.host.hdm.map (fun (p : Nat × Hdm) => (p.1, { p.2 with committed := false }))).filter
        (fun p => p.2 ≠ Hdm.init) } }

/-- HOST_LINK_DOWN (R484). -/
def execHostLinkDown (s : State) : Res := if s.windowUp ∧ s.bit Reg.hostStat 31 then .next s.hostReset else .next s

/-- HOT_RESET (R484). -/
def execHotReset (s : State) : Res := if s.windowUp ∧ s.bit Reg.hostStat 31 then .next s.hostReset else .next s

/-- PERST_N (R484). -/
def execPerstN (s : State) : Res := if s.windowUp then .next s.hostReset else .next s

/-- FUNCTION_LEVEL_RESET (R484): queue enables, doorbells and the mailbox. -/
def execFunctionLevelReset (s : State) : Res :=
  if !s.windowUp then .next s
  else
    let s1 := s.clearQueues.wr Reg.hostMboxCtl 0
    let s2 := (List.range 64).foldl (fun s k => (s.wr (Reg.hostMboxReq k) 0).wr (Reg.hostMboxRsp k) 0) s1
    .next { s2 with host := { s2.host with mboxBusy := false } }

/-- HOST_LINK_UP (R484, Table 14.9): SPEED, WIDTH and CXLVER. -/
def execHostLinkUp (speed width cxl : Nat) (s : State) : Res :=
  if !s.windowUp then .next s
  else .next ((((s.setBit Reg.hostStat 31 true).setFld Reg.hostStat 30 28 speed).setFld Reg.hostStat 27 23 width).setFld
    Reg.hostStat 22 21 cxl)

/-- D3HOT (R465). -/
def execD3hot (s : State) : Res :=
  if s.windowUp then .next { s with host := { s.host with d3 := true } } else .next s

/-- A pending vector that nothing holds back is sent (R474). -/
def State.sendPend (s : State) (v : Nat) : State :=
  if SMap.get false s.host.msixPend v && s.portOn && s.host.msixOn && !SMap.get true s.host.msixMask v then
    ({ s with host := { s.host with msixPend := SMap.set false s.host.msixPend v false } } : State).emit (.msix v)
  else s

/-- D0 (R465). -/
def execD0 (s : State) : Res :=
  if s.windowUp then
    let s1 := { s with host := { s.host with d3 := false } }
    .next ((List.range 128).foldl (fun s v => s.sendPend v) s1)
  else .next s

/-- MSI_X_UNMASK (R474): MSI-X is enabled and the vector unmasked; a pending message goes out (PRESUMED, log 28). -/
def execMsiXUnmask (vec : Nat) (s : State) : Res :=
  if s.windowUp ∧ s.bit Reg.hostStat 31 ∧ vec < 128 then
    .next (({ s with host := { s.host with msixOn := true, msixMask := SMap.set true s.host.msixMask vec false } } : State).sendPend vec)
  else .next s

/-! ### The Steward mailbox (R485, R515) -/

/-- The boot ROM answers the mailbox: SERVICE entered from DAWN (R515). -/
def State.bootRom (s : State) : Bool := s.mode = .service && s.img.loaded = 0

/-- A request with this CMD is pending and the Steward can act on it. -/
def State.mboxAsks (s : State) (p : Nat → Bool) : Bool :=
  s.windowUp && s.mode ≠ .dawn && s.bit Reg.hostMboxCtl 31 && p (s.fld Reg.hostMboxCtl 15 0) && !s.host.mboxBusy &&
    (s.bootRom || (s.stew.up && !s.stew.halted))

/-- The answer of a request: STATUS, GO cleared, and the message of MBOX_VEC, which a Pacer does not send (R482). -/
def State.mboxEnd (s : State) (status : Nat) : State :=
  let s1 := (s.setFld Reg.hostMboxCtl 30 28 status).setBit Reg.hostMboxCtl 31 false
  let s2 := { s1 with host := { s1.host with mboxBusy := false, duskCmd := false } }
  if s2.trails then s2 else s2.sendMsix (s2.fld Reg.hostCfg 13 7)

/-- The request waits: for the mode reached by a pending transition (R491), or for the end of Dusk (R531). -/
def State.mboxWait (s : State) : State := { s with host := { s.host with mboxBusy := true } }

/-- ENTER_DUSK (R485, R490): answered at the end of Record (R531). -/
def execEnterDusk (s : State) : Res :=
  if !s.mboxAsks (fun c => c = 1) then .next s
  else if s.bootRom then .next (s.mboxEnd 4)
  else if s.pendMode.isSome && s.mode ≠ .prep then .next (s.mboxWait.trigger .dusk)
  else if s.mode.running then
    let s1 := (s.trigger .dusk).mboxWait
    .next { s1 with host := { s1.host with duskCmd := true } }
  else .next (s.mboxEnd 4)

/-- ENTER_SERVICE (R485, R490, R532): from PREP at once; from a running mode after the drain. -/
def execEnterService (s : State) : Res :=
  if !s.mboxAsks (fun c => c = 2) then .next s
  else if s.bootRom then .next (s.mboxEnd 4)
  else if s.mode = .prep then .next (s.enterService.mboxEnd 2)
  else if s.pendMode.isSome then .next (s.mboxWait.trigger .service)
  else if s.mode.running then .next ((s.trigger .service).mboxEnd 2)
  else .next (s.mboxEnd 4)

/-- Write response words from word 0 on. -/
def State.mboxRsp (s : State) (ws : List (BitVec 32)) : State :=
  (List.range ws.length).foldl (fun s k => s.wr (Reg.hostMboxRsp k) (ws.getD k 0)) s

/-- The two halves of a 64-bit word, low half first. -/
def halves (w : W64) : List (BitVec 32) := [w.setWidth 32, (w >>> 32).setWidth 32]

/-- FAULT_READ (R485): the oldest record of the fault log, or zeros (DEDUCED, log 29). -/
def execFaultRead (s : State) : Res :=
  if !s.mboxAsks (fun c => c = 3) then .next s
  else
    let ws := match s.host.fltLog with
      | r :: _ => halves r.w0 ++ halves r.w1 ++ halves r.w2 ++ halves r.w3
      | [] => List.replicate 8 0
    .next ((s.mboxRsp ws).mboxEnd 2)

/-- KEEP_READ (R485): an index that names no Keep register is answered with ERROR (DEDUCED, log 31). -/
def execKeepRead (s : State) : Res :=
  if !s.mboxAsks (fun c => c = 4) then .next s
  else
    let i := (s.rd (Reg.hostMboxReq 0)).toNat
    if 1024 ≤ i then .next (s.mboxEnd 4)
    else .next ((s.mboxRsp (halves (s.rd64 (Reg.keepReg i)) ++ [s.rd (Reg.keepWcnt i)])).mboxEnd 2)

/-- UNSUPPORTED (R485). -/
def execUnsupported (s : State) : Res :=
  if s.mboxAsks (fun c => c = 0 || 4 < c) then .next (s.mboxEnd (if s.bootRom then 4 else 3)) else .next s

/-! ### Other registers of the block (R477, R485, R488) -/

/-- A write of HOST_MBOX_CTL: ignored while GO is 1; 1 to GO makes STATUS busy. -/
def State.mboxCtlWrite (s : State) (v : BitVec 32) : State :=
  if s.bit Reg.hostMboxCtl 31 then s
  else
    let s1 := s.setFld Reg.hostMboxCtl 15 0 (bitsOf v.toNat 15 0)
    if bitsOf v.toNat 31 31 = 1 then (s1.setBit Reg.hostMboxCtl 31 true).setFld Reg.hostMboxCtl 30 28 1 else s1

end Sys2Proof.Machine
end

