-- ==== Sys2Proof/Machine/Mgmt.lean ====
section
/-!
DEFINITION. Management writes by register (R7 to R14, R22, R508 to R510, R516, R559): the Keep tile, the flash unit, and
what a write of a register word does. The commands KEEP_REG and FLASH_COMMAND_END.
-/
namespace Sys2Proof.Machine

/-! ### The Keep tile (R508 to R510) -/

/-- A master with a path to the Keep tile that may write register `i`: registers 0 to 255 are the Steward's (R508,
Table 9.8). A forwarded write of the host arrives as master 34. -/
def keepMaster (m i : Nat) : Bool := m = 39 || (256 ≤ i && (m = 34 || m = 35 || m = 41))

/-- A write by the debug port to memory or the Keep tile is performed: in SERVICE mode, elsewhere with RUNOPEN, and never in
LEAD or TRAIL mode (R559). -/
def State.dbgWrites (s : State) : Bool := s.mode = .service || (s.bit Reg.dbgCfg 0 && !s.actMode.mirrored)

/-- One commit to a Keep register, with its counter and its verification (R509, R510). A register whose verification
fails holds a free value (DESIGN CHOICE, log 33). -/
def State.keepCommit (s : State) (i : Nat) (v : W64) (verified : Bool) : State :=
  let s1 := s.satInc (Reg.keepWcnt i) 31 0
  let s2 := if 1000000 < (s1.rd (Reg.keepWcnt i)).toNat then s1.setBit Reg.keepStat 30 true else s1
  if verified then s2.wr64 (Reg.keepReg i) v
  else
    ((((s2.wr64 (Reg.keepReg i) (Config.keepFailed s2.freeCtr)).bump).setBit Reg.keepStat 31 true).setFld
      Reg.keepStat 9 0 i).fault 0x02 (originOf s.pos 6 2) 0 0 0 0

/-- The high half of a Keep register is written: both halves commit. A write that is not allowed is ignored. -/
def State.keepWrite (s : State) (m i : Nat) (hi : BitVec 32) (verified : Bool) : State :=
  if !keepMaster m i then s
  else if m = 41 && !s.dbgWrites then s.satInc Reg.dbgStat 15 0
  else
    let r := Reg.keepReg i
    (s.unstage m r.off).keepCommit i (hi ++ s.stagedLow m r.off (s.rd r)) verified

/-- KEEP_REG (R509): a write of the high half of KEEP_REG_i. -/
def execKeepReg (m i : Nat) (hi : BitVec 32) (verified : Bool) (s : State) : Res :=
  if s.accessOk m 0 4 ∧ i < 1024 then
    .next (s.gate m ((Reg.keepReg i).off + 4) hi (fun s => s.keepWrite m i hi verified))
  else .next (s.noAccess m ((Reg.keepReg i).off + 4))

/-! ### The flash unit (R493, R516) -/

/-- A flash address lies in the range of the copy loaded. -/
def State.flashProtected (s : State) (a : Nat) : Bool :=
  (s.img.loaded = 1 && a < 0x4000000) || (s.img.loaded = 2 && 0x4000000 ≤ a && a < 0x8000000)

/-- The byte of the flash at an address; erased flash reads 0xFF (PRESUMED, log 6). -/
def State.flashAt (s : State) (a : Nat) : Byte := SMap.get 0xFF s.flash a

/-- Replace a run of flash bytes. -/
def State.flashPut (s : State) (a : Nat) (bs : List Byte) : State :=
  { s with flash := s.flash.filter (fun p => p.1 < a) ++ (cellsAt a bs).filter (fun p => p.2 ≠ 0xFF) ++
      s.flash.filter (fun p => a + bs.length ≤ p.1) }

/-- The page of a flash buffer. -/
def State.flashBuf (s : State) : List Byte :=
  (List.range 64).flatMap (fun k => leBytes 4 (s.rd (Reg.dawnFlashBuf k)).toNat)

/-- A write of DAWN_FLASH_CMD: ignored while BUSY; refused at once outside SERVICE, in the loaded copy's range and above
128 MiB. OP stays with the unit until the command ends; it reads as 0. -/
def State.flashCmdWrite (s : State) (v : BitVec 32) : State :=
  let op := bitsOf v.toNat 1 0
  let a := (s.rd Reg.dawnFlashAddr).toNat
  let st := fun (n : Nat) => s.setFld Reg.dawnFlashCmd 30 28 n
  if s.bit Reg.dawnFlashCmd 31 || op = 0 then s
  else if s.mode ≠ .service then st 2
  else if s.flashProtected a then st 1
  else if 0x8000000 ≤ a then st 4
  else (s.setBit Reg.dawnFlashCmd 31 true).setFld Reg.dawnFlashCmd 1 0 op

/-- What a flash command leaves: the page read into the buffer, the page programmed, or the sector erased. A command
that fails leaves free values there (DESIGN CHOICE, log 34). -/
def State.flashDone (s : State) (ok : Bool) : State :=
  let a := (s.rd Reg.dawnFlashAddr).toNat
  let page := a / 256 * 256
  let sect := a / 65536 * 65536
  let bytes := fun (good : Nat → Byte) (n : Nat) =>
    (List.range n).map (fun i => if ok then good i else Config.flashByte s.freeCtr i)
  let s1 := if ok then s else s.bump
  match s.fld Reg.dawnFlashCmd 1 0 with
  | 1 =>
    let bs := bytes (fun i => s.flashAt (page + i)) 256
    (List.range 64).foldl (fun s k => s.wr (Reg.dawnFlashBuf k) (BitVec.ofNat 32 (ofLe ((bs.drop (4 * k)).take 4)))) s1
  | 2 => s1.flashPut page (bytes (fun i => s.flashBuf.getD i 0) 256)
  | 3 => s1.flashPut sect (bytes (fun _ => 0xFF) 65536)
  | _ => s1

/-- FLASH_COMMAND_END (R516). -/
def execFlashCommandEnd (ok : Bool) (s : State) : Res :=
  if s.windowUp ∧ s.bit Reg.dawnFlashCmd 31 then
    .next ((((s.flashDone ok).setBit Reg.dawnFlashCmd 31 false).setFld Reg.dawnFlashCmd 1 0 0).setFld
      Reg.dawnFlashCmd 30 28 (if ok then 0 else 3))
  else .next s

/-! ### A management write by register -/

/-- A low half is staged for its master (R14). -/
def State.stage (s : State) (m off : Nat) (v : BitVec 32) : State :=
  { s with staged := SMap.set none s.staged (latchKey m off) (some v) }

/-- A 64-bit register of the ordinary kind is committed by the write of its high half at `off` (R14). -/
def State.commit64 (s : State) (rlOk : Bool) (m off : Nat) (hi : BitVec 32) : State :=
  let low := off - 4
  let s1 := match SMap.get none s.staged (latchKey m low) with
    | some v => s.writeWord rlOk low v
    | none => s
  (s1.unstage m low).writeWord rlOk off hi

/-- A write of the high half of a 64-bit register: compare values, PAIR_REJOIN, the queue bases (ignored while the queue
is enabled, R477), the Keep registers, and the rest. -/
def State.highWrite (s : State) (rlOk : Bool) (m off : Nat) (hi : BitVec 32) : State :=
  let low := off - 4
  if 0xC01000 ≤ low && low < 0xC01400 then s.cmpValueWrite m ((low - 0xC01000) / 16) hi
  else if low = 0x900010 then (s.unstage m low).rejoinWrite (hi ++ s.stagedLow m low (s.rd Reg.pairRejoin))
  else if 0xD01000 ≤ low && low < 0xD01800 && low % 32 = 0 && s.bit (Reg.hostSqCfg ((low - 0xD01000) / 32)) 31 then
    s.unstage m low
  else if 0xD01000 ≤ low && low < 0xD01800 && low % 32 = 16 && s.bit (Reg.hostCqCfg ((low - 0xD01000) / 32)) 31 then
    s.unstage m low
  else if 0x108000 ≤ low && low < 0x10A000 then s.keepWrite m ((low - 0x108000) / 8) hi true
  else s.commit64 rlOk m off hi

/-- A write of a register word in the timer block (R450, R454). -/
def State.timerWrite (s : State) (rlOk : Bool) (off : Nat) (v : BitVec 32) : State :=
  let d := off - 0xC02000
  if 0xC01000 ≤ off && off < 0xC01400 && off % 16 = 8 then s.cmpCtlWrite ((off - 0xC01000) / 16) v
  else if 0xC02000 ≤ off && off < 0xC02400 && d % 32 = 0 then s.cdtCountWrite (d / 32) v
  else if 0xC02000 ≤ off && off < 0xC02400 && d % 32 = 16 then s.cdtCtlWrite (d / 32) v
  else if 0xC02000 ≤ off && off < 0xC02400 then (s.cdtReloadNow (d / 32)).writeWord rlOk off v
  else s.writeWord rlOk off v

/-- A write of a register word in the Event Fabric's block (R435, R438, R444). -/
def State.eventWrite (s : State) (rlOk : Bool) (m off : Nat) (v : BitVec 32) : State :=
  if off = 0xB00004 then s.groupEnWrite v 0 0
  else if off = 0xB0000C then s.evtFireWrite m v s.hubNow
  else if 0xB00010 ≤ off && off < 0xB00030 then s.evtFlagWrite m ((off - 0xB00010) / 4) v
  else if 0xB01000 ≤ off && off < 0xB03000 && off % 32 = 28 then
    (s.chStatWrite m ((off - 0xB01000) / 32) v)
  else s.writeWord rlOk off v

/-- A write of a register word in the host port's block (R476, R477, R485). -/
def State.hostRegWrite (s : State) (rlOk : Bool) (off : Nat) (v : BitVec 32) : State :=
  let q := (off - 0xD01000) / 32
  if 0xD01000 ≤ off && off < 0xD01800 then
    match off % 32 with
    | 8 => s.sqCfgWrite q v
    | 12 => s.sqTailWrite q v
    | 24 => s.cqCfgWrite q v
    | 28 => s.cqHeadWrite q v
    | _ => s
  else if off = 0xD02000 then s.mboxCtlWrite v
  else if 0xD02100 ≤ off && off < 0xD02200 && s.bit Reg.hostMboxCtl 31 then s
  else s.writeWord rlOk off v

/-- A write of a 32-bit register word by master `m`, after every check of who may write; `rlOk` says that RL fields may be
written (Dawn). Writes of DEV_CTL come on top (R515). -/
def State.regWrite (s : State) (rlOk : Bool) (m off : Nat) (v : BitVec 32) : State :=
  match half64 off with
  | some 0 => s.stage m off v
  | some _ => s.highWrite rlOk m off v
  | none =>
    if off = 0xC then s.kickWrite v
    else if off = 0x100014 then s.flashCmdWrite v
    else if 0x100100 ≤ off && off < 0x100200 && s.bit Reg.dawnFlashCmd 31 then s
    else if off = 0x301C00 then s.ttIndexWrite v
    else if off = 0xA00004 then s.fltPopWrite v
    else if off / 0x100000 = 0xB then s.eventWrite rlOk m off v
    else if off / 0x100000 = 0xC then s.timerWrite rlOk off v
    else if off / 0x100000 = 0xD then s.hostRegWrite rlOk off v
    else s.writeWord rlOk off v

end Sys2Proof.Machine
end

