-- ==== Sys2Proof/Machine/Power.lean ====
section
/-!
DEFINITION. HOLD and reset, the supply, clock and thermal monitors, the power states of clusters, and the test access port
(spec/15, 16, 18: R490, R535 to R546, R574 to R576, R580 to R585). The commands POWER_ON, VDD_CORE_REMOVED,
RESET_N_ASSERTED, PGOOD, RESET_N_RELEASED, TO_HOLD, STATE_CHOICE, WAKE, EARLY_WAKE, WARNING, WARNING_END, SUPPLY_RESET,
SUPPLY_RECOVERY, CLOCK_LOSS, CLOCK_RECOVERY, THERMAL_WARNING, THERMAL_WARNING_END, TRIP, EXTEST, SAMPLE_PRELOAD, IDCODE,
CLAMP, HIGHZ, EXTEST_PULSE, EXTEST_TRAIN, DBG_ACCESS, BYPASS and TRST_N.
-/
namespace Sys2Proof.Machine

/-! ### What a reset keeps (R490, R509, R546, R584) -/

/-- The word of a register at an offset after a reset: the persistent and fused registers, the level bits of the monitors
and the registers of R546 and R584 stay; all others take their reset values. -/
def keptWord (off : Nat) (v : BitVec 32) : BitVec 32 :=
  if off = 0x10 || off = 0x14 || off = 0x200008 || off = 0x20000C then v
  else if 0x108000 ≤ off && off < 0x10B000 then v
  else if off = 0x10B000 then v &&& 0x40000000
  else if off = 0x208000 then v &&& 0xFF
  else if off = 0x208004 || off = 0x208008 then v
  else if off = 0x208014 then v &&& 0xC0000000
  else 0

/-- A kept register's entry of the register file. -/
def keptRegs (m : SMap (BitVec 32)) : SMap (BitVec 32) :=
  SMap.remap 0 keptWord m

/-- A flash PROGRAM or ERASE that a reset cuts short leaves free values, as a failed one does (DESIGN CHOICE, log 34). -/
def State.cutFlash (s : State) : State := if s.bit Reg.dawnFlashCmd 31 then s.flashDone false else s

/-- The reset value of LAP_CFG that an FV7200-14 has for that of Table 19.4: 14,000 CCLK in a Lap (R1, R2, R68). -/
def State.ordDefaults (s : State) : State := if s.ord14 then s.wr Reg.lapCfg 0x36B0000A else s

/-- The part after a reset, in mode `md`: everything at its reset value but what outlives a reset: the flash, the Keep tile,
fuses, monitors, pins, test port and bypass switches; and the cells of expander memory, which the Record Unit's log may lie
in (R502, R553, DEDUCED, log 32). LAP_CFG has the reset value of the ordering code. -/
def State.afterReset (s0 : State) (md : Mode) : State :=
  let s := s0.cutFlash
  State.ordDefaults { State.reset with
    pending := s.pending
    freeCtr := s.freeCtr
    mode := md
    ord14 := s.ord14
    regs := keptRegs s.regs
    m := { State.reset.m with
      mem := s.m.mem.filter (fun p => match s.tier p.1 with
        | .exp _ _ => true
        | .ddr _ _ | .dir _ _ | .bank _ | .regs | .none => false) }
    host := { State.reset.host with out := s.host.out }
    ring := { State.reset.ring with bypass := s.ring.bypass }
    pwr := { s.pwr with plans := [], expPerstN := false }
    scan := s.scan
    flash := s.flash }

/-- ALERT_N (R580). -/
def State.alerts (s : State) : Bool :=
  s.bit Reg.supThermStat 30 || s.fld Reg.supStat 7 0 ≠ 0 ||
    (s.mode = .hold && (s.pwr.supplyHold || s.pwr.clockHold))

/-- The pins follow their causes (R580). -/
def State.drivePins (s : State) : State :=
  { s with pwr := { s.pwr with alertN := !s.alerts, thermtripN := !s.pwr.tripHold } }

/-- HOLD is entered at once (R491): the bypass closes (R383). Fault records taken before stay to be seen until reset ends. -/
def State.enterHold (s : State) : State :=
  let r := s.afterReset .hold
  ({ r with
      flt := s.flt
      ring := { r.ring with bypass := if s.ring.bypass = .closed then .closed else .closing } } : State).drivePins

/-- A cause that holds the part in HOLD (R544, R574 to R576, R580, R583, R531). -/
def State.held (s : State) : Bool :=
  !s.pwr.resetN || !s.pwr.pgood || s.pwr.supplyHold || s.pwr.clockHold || s.pwr.tripHold || s.pwr.duskHold ||
    s.scan.pins ≠ 0

/-- HOLD is left for DAWN when nothing holds the part; the Time Base starts from 0 (R448, R490, R576). -/
def State.tryLeave (s : State) : State :=
  if s.mode = .hold && !s.held then (s.afterReset .dawn).drivePins else s

/-! ### Power, RESET_N and PGOOD (R490, R575, R576) -/

/-- POWER_ON (R490): from OFF, with RESET_N asserted. SUP_LAST and SUP_CLK_STAT.LOST are reset (R546, R584). -/
def execPowerOn (ord14 : Bool) (s : State) : Res :=
  if s.mode = .off then
    let s1 := { s with ord14 := ord14, pwr := { s.pwr with powered := true, resetN := false, pgood := false } }
    .next ((s1.wr Reg.supLast 0).wr Reg.supClkStat 0).enterHold
  else .next s

/-- VDD_CORE_REMOVED (R490, R580, R584): OFF. `keepRail` says that VDD_KEEP stays, without which TRIPPED is reset. -/
def execVddCoreRemoved (keepRail : Bool) (s : State) : Res :=
  let s1 := s.enterHold
  let s2 := { s1 with
    mode := .off
    flt := State.reset.flt
    pwr := { s1.pwr with powered := false, supplyHold := false, clockHold := false, tripHold := false, duskHold := false } }
  .next (if keepRail then s2 else s2.setBit Reg.supThermStat 31 false).drivePins

/-- RESET_N_ASSERTED (R490, R531): a release that follows ends the HOLD after Dusk. -/
def execResetNAsserted (s : State) : Res :=
  if s.mode = .off then .next s
  else .next ({ s with pwr := { s.pwr with resetN := false, duskHold := false } } : State).enterHold

/-- PGOOD (R575). -/
def execPgood (level : Bool) (s : State) : Res :=
  if s.mode = .off then .next s
  else if level then .next ({ s with pwr := { s.pwr with pgood := true } } : State).tryLeave
  else .next ({ s with pwr := { s.pwr with pgood := false, duskHold := false } } : State).enterHold

/-- RESET_N_RELEASED (R575, R576). -/
def execResetNReleased (s : State) : Res :=
  if s.mode = .off then .next s
  else .next ({ s with pwr := { s.pwr with resetN := true } } : State).tryLeave

/-- TO_HOLD (R531): 1 ms after the Dusk answer, PHASE 4 done. -/
def execToHold (s : State) : Res :=
  if s.mode = .dusk ∧ s.fld Reg.pwrDuskStat 31 29 = 0 then
    .next ({ s with pwr := { s.pwr with duskHold := true } } : State).enterHold
  else .next s

/-! ### Supply monitor (R541 to R544) -/

/-- WARNING (R543, R530): a rail crosses its warning threshold. -/
def execWarning (rail : Nat) (s : State) : Res :=
  if s.mode = .off ∨ 8 ≤ rail ∨ s.bit Reg.supStat rail then .next s
  else
    let s1 := (s.setBit Reg.supStat rail true).setBit Reg.supStat (8 + rail) true
    if !s.windowUp then .next s1.drivePins
    else
      let s2 := (s1.fault 0x14 (originOf s.pos 6 5) 0 0 0 rail).emit .stewardIrq
      let void : Bool := rail ≤ 1 && s.mode = .dusk && s.fld Reg.pwrDuskStat 31 29 = 3
      .next ({ s2 with blk := { s2.blk with voided := s2.blk.voided || void } } : State).drivePins

/-- WARNING_END (R542). -/
def execWarningEnd (rail : Nat) (s : State) : Res :=
  if s.mode = .off ∨ 8 ≤ rail then .next s else .next (s.setBit Reg.supStat rail false).drivePins

/-- SUPPLY_RESET (R544): `rails` are the rails below their reset thresholds. -/
def execSupplyReset (rails : BitVec 8) (s : State) : Res :=
  if s.mode = .off ∨ rails = 0 then .next s
  else
    .next (({ s with pwr := { s.pwr with supplyHold := true } } : State).wr Reg.supLast (rails.setWidth 32)).enterHold

/-- SUPPLY_RECOVERY (R544): no rail warns any more. -/
def execSupplyRecovery (s : State) : Res :=
  if s.mode = .hold ∧ s.fld Reg.supStat 7 0 = 0 then
    .next ({ s with pwr := { s.pwr with supplyHold := false } } : State).drivePins.tryLeave
  else .next s

/-! ### Reference clocks (R574) -/

/-- CLOCK_LOSS (R574). -/
def execClockLoss (ring : Bool) (s : State) : Res :=
  if s.mode = .off then .next s
  else
    let i := ring.toNat
    let s1 := (s.setFld Reg.supClkStat 3 2 (i + 1)).setBit Reg.supClkStat i false
    let s2 := if s.windowUp then s1.fault 0x14 (originOf s.pos 6 6) 0 0 0 (0x100 + i) else s1
    .next ({ s2 with pwr := { s2.pwr with clockHold := true } } : State).enterHold

/-- CLOCK_RECOVERY (R574): both clocks are good, and no rail warns. -/
def execClockRecovery (s : State) : Res :=
  if s.mode = .hold ∧ s.fld Reg.supStat 7 0 = 0 then
    .next (({ s with pwr := { s.pwr with clockHold := false } } : State).setFld Reg.supClkStat 1 0 3).drivePins.tryLeave
  else .next s

/-! ### Temperature (R580, R585) -/

/-- A signed temperature as a number from which order can be read. -/
def tempKey (v : Nat) : Nat := (v + 2048) % 4096

/-- A sensor's reading is taken: SUP_TEMP_k, MAXTEMP and HOTTEST (R584, R585). -/
def State.takeTemp (s : State) (k : Nat) (v : BitVec 12) : State :=
  let s1 := s.wr (Reg.supTemp k) (v.setWidth 32)
  let old := s1.fld Reg.supThermStat 11 0
  let s2 := if old = 0 || tempKey old < tempKey v.toNat then s1.setFld Reg.supThermStat 11 0 v.toNat else s1
  let t := fun (i : Nat) => tempKey (s2.fld (Reg.supTemp i) 11 0)
  s2.setFld Reg.supThermStat 23 18 ((List.range 36).foldl (fun b i => if t b < t i then i else b) 0)

/-- THERMAL_WARNING (R580): a reading above WARN_C, in quarters of a degree. -/
def execThermalWarning (sensor : Nat) (reading : BitVec 12) (s : State) : Res :=
  if !s.windowUp ∨ 36 ≤ sensor ∨ reading.toInt ≤ 4 * (s.fld Reg.supThermCfg 7 0 : Int) then .next s
  else
    let s1 := s.takeTemp sensor reading
    if s.bit Reg.supThermStat 30 then .next s1
    else
      .next ((s1.setBit Reg.supThermStat 30 true).fault 0x14 (originOf s.pos 6 7) 0 0 0 (0x200 + sensor)).drivePins

/-- THERMAL_WARNING_END (R580). -/
def execThermalWarningEnd (s : State) : Res :=
  if s.mode = .off then .next s else .next (s.setBit Reg.supThermStat 30 false).drivePins

/-- TRIP (R580): 115 °C or more. -/
def execTrip (sensor : Nat) (reading : BitVec 12) (s : State) : Res :=
  if s.mode = .off ∨ 36 ≤ sensor ∨ reading.toInt < 460 then .next s
  else
    .next (({ s with pwr := { s.pwr with tripHold := true } } : State).setBit Reg.supThermStat 31 true).enterHold

/-! ### Power states of clusters (R535 to R540) -/

/-- A cluster's state: 0 Noon, 1 Evening, 2 Night, 3 Midnight. -/
def State.clState (s : State) (c : Nat) : Nat := s.fld (Reg.pwrClStat c) 31 30

/-- Entry time in ns (Table 16.2). -/
def entryNs (st : Nat) : Nat := match st with | 0 => 0 | 1 => 10 | 2 => 1000 | _ => 5000

/-- Wake time in ns (Table 16.2). -/
def wakeNs (st : Nat) : Nat := match st with | 0 => 0 | 1 => 40 | 2 => 3000 | _ => 50000

/-- GUARD, at least 100 (R545). -/
def State.guardNs (s : State) : Nat := Nat.max 100 (s.fld Reg.pwrCfg 15 0)

/-- The usable engines of a cluster. -/
def State.clEngines (s : State) (c : Nat) : List Nat :=
  ((List.range 16).map (fun i => c * 16 + i)).filter (fun e => s.usable e)

/-- The modes in which a cluster may leave Noon (R536). -/
def Mode.sleeps : Mode → Bool
  | .solo | .ring | .degraded => true
  | .off | .hold | .dawn | .prep | .lead | .trail | .replay | .dusk | .service => false

/-- The cluster is idle (R536). -/
def State.clIdle (s : State) (c : Nat) : Bool :=
  !(s.clEngines c).isEmpty && (s.clEngines c).all (fun e =>
    (s.eng e).place.isNone && (s.nextBooked e).isNone && (s.eng e).waite.isNone && (s.nextOpen e).isNone)

/-- The row of a Lap holds a placement on the cluster. -/
def State.rowUses (s : State) (c l : Nat) : Bool := (s.row l).plc.any (fun b => b.engine / 16 = c && !(l = s.lap && b.taken))

/-- t_end of R537. -/
def State.sleepEnd (s : State) (c : Nat) : Nat :=
  let nextLap := (((List.range 256).map (fun i => s.lap + 1 + i)).find? (fun l => s.rowUses c l)).getD (s.lap + 257)
  let cmps := (List.range 64).filter (fun k => (s.rd64 (Reg.pwrClCmp c)).getLsbD k && s.bit (Reg.cmpCtl k) 31)
  let limit := Nat.min (nextLap * s.lapTicks) (s.tb + Nat.max 1 (s.fld (Reg.pwrClCfg c) 15 8) * s.lapTicks)
  cmps.foldl (fun t k => Nat.min t (s.rd64 (Reg.cmpValue k)).toNat) limit

/-- A cluster enters a state until `tend`; from Night on the rows before `tend` are withheld (R538). -/
def State.sleep (s : State) (c st tend : Nat) : State :=
  let laps := if st < 2 then [] else
    ((List.range 256).map (fun i => s.lap + 1 + i)).filter (fun l => l * s.lapTicks < tend)
  let s1 := laps.foldl (fun s l => s.setRow l ((List.range 16).foldl (fun (r : Row) i => r.setCtr (c * 16 + i) 0) (s.row l))) s
  let s2 := { s1 with pwr := { s1.pwr with
    plans := SMap.set (0, 0, []) s1.pwr.plans c (tend - wakeNs st - s.guardNs, tend,
      laps ++ (SMap.get (0, 0, []) s.pwr.plans c).2.2.filter (fun l => s.lap < l && !laps.contains l)) } }
  s2.setFld (Reg.pwrClStat c) 31 30 st

/-- The deepest state that fits before `tend`, or none (R537). -/
def State.sleepChoice (s : State) (c tend : Nat) : Option Nat :=
  [3, 2, 1].find? (fun st =>
    st ≤ s.fld (Reg.pwrClCfg c) 1 0 && entryNs st + wakeNs st + s.guardNs ≤ tend - s.tb)

/-- STATE_CHOICE (R537): when the cluster becomes idle, and at cycle 1,024 of each Lap; only a deeper state replaces the
one held. -/
def execStateChoice (c : Nat) (s : State) : Res :=
  if !s.mode.sleeps || 32 ≤ c || !s.clIdle c then .next s
  else
    match s.sleepChoice c (s.sleepEnd c) with
    | some st => if s.clState c < st then .next (s.sleep c st (s.sleepEnd c)) else .next s
    | none => .next s

/-- The plan of a sleeping cluster: the tick at which its wake starts, t_end, and the Laps withheld. -/
def State.plan (s : State) (c : Nat) : Nat × Nat × List Nat := SMap.get (0, 0, []) s.pwr.plans c

/-- The cluster is back at Noon. -/
def State.toNoon (s : State) (c : Nat) : State :=
  ({ s with pwr := { s.pwr with plans := SMap.set (0, 0, []) s.pwr.plans c (0, 0, []) } } : State).setFld
    (Reg.pwrClStat c) 31 30 0

/-- Every cluster is at Noon, as it stays in every mode outside `Mode.sleeps` (R536). -/
def State.allNoon (s : State) : State := (List.range 32).foldl (fun s c => s.toNoon c) s

/-- WAKE (R535, R537): a wake that has run its time brings the cluster to Noon. -/
def execWake (c : Nat) (s : State) : Res :=
  if 32 ≤ c ∨ s.clState c = 0 ∨ s.tb < (s.plan c).1 + wakeNs (s.clState c) then .next s else .next (s.toNoon c)

/-- EARLY_WAKE (R539): a wake starts now, unless one is in progress; the withheld rows that begin late enough get their
counters back. -/
def execEarlyWake (c : Nat) (s : State) : Res :=
  if 32 ≤ c ∨ s.clState c = 0 ∨ (s.plan c).1 ≤ s.tb then .next s
  else
    let p := s.plan c
    let from_ := s.tb + wakeNs (s.clState c) + s.guardNs
    let back := p.2.2.filter (fun l => from_ ≤ l * s.lapTicks)
    let s1 := back.foldl (fun s l =>
      s.setRow l ((s.clEngines c).foldl (fun (r : Row) e => r.setCtr e r.u) (s.row l))) s
    let s2 := { s1 with pwr := { s1.pwr with
      plans := SMap.set (0, 0, []) s1.pwr.plans c (s.tb, p.2.1, p.2.2.filter (fun l => l * s.lapTicks < from_)) } }
    .next (s2.satInc (Reg.pwrClStat c) 15 0)

/-! ### The test access port (R559, R582, R583) -/

/-- The IDCODE (R582). -/
def State.idcode (s : State) : BitVec 32 :=
  BitVec.ofNat 32 (2 ^ 28 + (if s.ord14 then 0x7201 else 0x7200) * 2 ^ 12 + 0x2D3 * 2 + 1)

/-- Load an instruction that takes control of the pins: only in HOLD; elsewhere it acts as BYPASS (R583). `kind` names
the control. -/
def State.pinInstr (s : State) (code : BitVec 8) (kind : Nat) : State :=
  if s.mode = .off then s
  else if s.mode = .hold then { s with scan := { s.scan with ir := code, pins := kind } }
  else { s with scan := { s.scan with ir := 0xFF, pins := 0 } }

/-- Load an instruction that leaves the pins alone; it may let DAWN begin (R583). -/
def State.quietInstr (s : State) (code : BitVec 8) : State :=
  if s.mode = .off then s else ({ s with scan := { s.scan with ir := code, pins := 0 } } : State).tryLeave

/-- EXTEST (R583). -/
def execExtest (s : State) : Res := .next (s.pinInstr 0x00 1)

/-- SAMPLE_PRELOAD (R582): the boundary cells hold what is preloaded. -/
def execSamplePreload (cells : List Bool) (s : State) : Res :=
  if s.mode = .off then .next s
  else .next (({ s with scan := { s.scan with cells := cells } } : State).quietInstr 0x01)

/-- IDCODE (R582). -/
def execIdcode (s : State) : Res := .next (s.quietInstr 0x02)

/-- CLAMP (R583). -/
def execClamp (s : State) : Res := .next (s.pinInstr 0x03 2)

/-- HIGHZ (R583). -/
def execHighz (s : State) : Res := .next (s.pinInstr 0x04 3)

/-- EXTEST_PULSE (R583). -/
def execExtestPulse (s : State) : Res := .next (s.pinInstr 0x05 4)

/-- EXTEST_TRAIN (R583). -/
def execExtestTrain (s : State) : Res := .next (s.pinInstr 0x06 5)

/-- Memory of this part that the debug port has a path to and that exists (R26, R308). -/
def State.dbgMem (s : State) (dpa n : Nat) : Bool :=
  dpa / 2 ^ 46 = s.pos && (s.tier (dpa % 2 ^ 46)).isMem && (s.tier ((dpa + n - 1) % 2 ^ 46)).isMem

/-- An access of the debug port to an unmapped DPA, or to another part, to which it has no path (R26, R309). -/
def State.dbgUnmapped (s : State) (dpa : Nat) : State :=
  (if s.inDomain (dpa / 2 ^ 46) && dpa / 2 ^ 46 ≠ s.pos then s.satInc Reg.xbarStat 15 0 else s).fault 0x13
    (originOf s.pos 2 41) dpa 0 0 0

/-- A read of memory by the debug port (R559): untranslated and Open; an error or an unmapped address gives no data. -/
def State.dbgRead (s : State) (dpa n : Nat) : State :=
  if s.dbgMem dpa n then s.masterRead 41 dpa n .dbg (fun t bs => t.emit (.dbgData dpa bs))
  else (s.dbgUnmapped dpa).emit (.dbgData dpa none)

/-- A write of memory by the debug port (R559): outside its limits it is ignored and counted. -/
def State.dbgWrite (s : State) (dpa : Nat) (be : BitVec 64) (d : Rec64) : State :=
  if !s.dbgWrites then s.satInc Reg.dbgStat 15 0
  else if s.dbgMem dpa 64 then
    s.postWrite (.master s.pos 41) 0 (lineCells (dpa % 2 ^ 46) be d) 0 false s.lap
  else s.dbgUnmapped dpa

/-- DBG_ACCESS (R559, R582): the debug port is selected, and reads or writes memory. Its accesses to the register window
are the management commands of master 41. -/
def execDbgAccess (s : State) (x : DbgOp := .select) : Res :=
  let s1 := s.quietInstr 0x10
  if !s1.windowUp then .next s1
  else
    match x with
    | .select => .next s1
    | .read dpa n => .next (s1.dbgRead dpa.toNat n)
    | .write dpa be d => .next (s1.dbgWrite dpa.toNat be d)

/-- BYPASS (R582). -/
def execBypass (s : State) : Res := .next (s.quietInstr 0xFF)

/-- TRST_N (R583): Test-Logic-Reset selects IDCODE. -/
def execTrstN (s : State) : Res := .next (s.quietInstr 0x02)

end Sys2Proof.Machine
end

