-- ==== Sys2Proof/Machine/Dawn.lean ====
section
/-!
DEFINITION. Dawn (spec/15_dawn_and_persistence.md, R492 to R501, R511 to R514, R533): structured Keep records, the
self-test, the configuration image with its checks, and the entry to PREP or SERVICE. The command DAWN.
-/
namespace Sys2Proof.Machine

/-! ### Structured records (R511 to R514) -/

/-- The words of a bank of a record of `n` data words. -/
def State.recWords (s : State) (base n : Nat) : List W64 := (List.range (n + 2)).map (fun k => s.rd64 (Reg.keepReg (base + k)))

/-- SEQ of a bank. -/
def State.recSeq (s : State) (base : Nat) : Nat := bitsOf (s.rd64 (Reg.keepReg base)).toNat 63 32

/-- A bank is valid (R513). -/
def State.recValid (s : State) (ty n base : Nat) : Bool :=
  let ws := s.recWords base n
  bitsOf (ws.getD 0 0).toNat 31 0 = ty * 2 ^ 24 + 2 ^ 16 + n &&
    (crc32c (wordBytes (ws.take (n + 1)))).toNat = bitsOf (ws.getD (n + 1) 0).toNat 31 0

/-- X is newer than Y (R497). -/
def seqNewer (x y : Nat) : Bool := 1 ≤ (x + 2 ^ 32 - y % 2 ^ 32) % 2 ^ 32 && (x + 2 ^ 32 - y % 2 ^ 32) % 2 ^ 32 < 2 ^ 31

/-- The data words of a record, from the valid bank that is newer, or bank A (R513). -/
def State.readRec (s : State) (ty n a b : Nat) : Option (List W64) :=
  let pick := fun (x : Nat) => some (((s.recWords x n).drop 1).take n)
  match s.recValid ty n a, s.recValid ty n b with
  | true, true => if seqNewer (s.recSeq b) (s.recSeq a) then pick b else pick a
  | true, false => pick a
  | false, true => pick b
  | false, false => none

/-- The Steward writes a record (R512), word by word; not while it is down (R31). -/
def State.writeRec (s : State) (ty n a b : Nat) (ds : List W64) : State :=
  let va := s.recValid ty n a
  let vb := s.recValid ty n b
  let (tgt, seq) :=
    if va && vb then (if seqNewer (s.recSeq a) (s.recSeq b) then (b, s.recSeq a + 1) else (a, s.recSeq b + 1))
    else if va then (b, s.recSeq a + 1)
    else if vb then (a, s.recSeq b + 1)
    else (a, 1)
  let ws := BitVec.ofNat 64 (seq % 2 ^ 32 * 2 ^ 32 + ty * 2 ^ 24 + 2 ^ 16 + n) :: (ds ++ List.replicate (n - ds.length) 0)
  let all := ws ++ [(crc32c (wordBytes ws)).setWidth 64]
  if !s.stew.up then s
  else (List.range (n + 2)).foldl (fun s k => s.keepCommit (tgt + k) (all.getD k 0) true) s

/-- POSITION (Table 15.6). -/
def State.posRec (s : State) : Option (List W64) := s.readRec 1 2 0 4
/-- SHUTDOWN (Table 15.6). -/
def State.shutdown (s : State) : Option (List W64) := s.readRec 2 2 8 12
/-- BADBLOCK (Table 15.6). -/
def State.badblock (s : State) : Option (List W64) := s.readRec 3 33 16 51

/-- SHUTDOWN is written, with the Lap of the write. -/
def State.writeShutdown (s : State) (clean : Bool) : State :=
  s.writeRec 2 2 8 12 [if clean then 1 else 0, BitVec.ofNat 64 s.lap]

/-- The numbers below 512 whose bit is set in eight words from word `k` on. -/
def bitsIn (ws : List W64) (k : Nat) : List Nat :=
  (List.range 512).filter (fun e => (ws.getD (k + e / 64) 0).getLsbD (e % 64))

/-- A set of numbers as a sparse map. -/
def markAll (es : List Nat) : SMap Bool := es.foldl (fun m e => SMap.set false m e true) []

/-- The marks of the BADBLOCK record are taken (R514); an absent record counts as empty (R513). -/
def State.takeBadblock (s : State) : State :=
  let ws := s.badblock.getD []
  let w17 := (ws.getD 16 0).toNat
  { s with blk := { s.blk with
      badEngine := markAll (bitsIn ws 0), badBank := markAll (bitsIn ws 8),
      badDdr := BitVec.ofNat 12 w17, badQdr := BitVec.ofNat 4 (w17 / 2 ^ 12), badExp := BitVec.ofNat 2 (w17 / 2 ^ 16) } }

/-- Eight words with the bits of the marked numbers. -/
def markWords (m : SMap Bool) : List W64 :=
  (List.range 8).map (fun k => BitVec.ofNat 64 ((m.filter (fun p => p.2 && p.1 / 64 = k)).foldl
    (fun a p => a + 2 ^ (p.1 % 64)) 0))

/-- The BADBLOCK data words of the present marks; the soft-repair rows stay (Table 15.7). -/
def State.badWords (s : State) : List W64 :=
  markWords s.blk.badEngine ++ markWords s.blk.badBank ++
    [BitVec.ofNat 64 (s.blk.badDdr.toNat + s.blk.badQdr.toNat * 2 ^ 12 + s.blk.badExp.toNat * 2 ^ 16)] ++
    ((s.badblock.getD []).drop 17 ++ List.replicate 16 0).take 16

/-- BADBLOCK is written with the present marks. -/
def State.writeBadblock (s : State) : State :=
  let s1 := s.writeRec 3 33 16 51 s.badWords
  { s1 with blk := { s1.blk with unsaved := s1.blk.unsaved && !s1.stew.up } }

/-! ### Self-test (R525 to R530, R533) -/

/-- The two waves of Test: every engine's signature and bank result are recorded. An engine whose signature is not given
leaves the expected one (DESIGN CHOICE, log 11). Without a warning of VDD_CORE or VDD_SRAM the failures are marked. -/
def State.selfTest (s : State) (sigs : List (Nat × W64)) (banks : List Nat) : State :=
  let gold := s.rd64 Reg.pwrLbistGold
  let sig := fun (e : Nat) => match sigs.find? (fun p => p.1 = e) with | some p => p.2 | none => gold
  let logic := (List.range 512).filter (fun e => sig e ≠ gold)
  let bank := (List.range 512).filter (fun e => banks.contains e)
  let s1 := (List.range 512).foldl (fun s e =>
    (s.wr64 (Reg.enLbistSig e) (sig e)).wr (Reg.enLbistStat e)
      (BitVec.ofNat 32 ((bank.contains e).toNat * 2 + (logic.contains e).toNat))) s
  let void : Bool := s.blk.voided || s.bit Reg.supStat 0 || s.bit Reg.supStat 1
  let mark := fun (m : SMap Bool) (es : List Nat) => es.foldl (fun m e => SMap.set false m e true) m
  let s2 := { s1 with blk := { s1.blk with voided := void } }
  let s3 := ((s2.setFld Reg.pwrDuskStat 28 19 logic.length).setFld Reg.pwrDuskStat 18 9 bank.length).setBit
    Reg.pwrDuskStat 8 void
  if void then s3
  else
    { s3 with blk := { s3.blk with
        badEngine := mark (mark s3.blk.badEngine logic) bank, badBank := mark s3.blk.badBank bank
        unsaved := s3.blk.unsaved || logic.any (fun e => !SMap.get false s.blk.badEngine e) ||
          bank.any (fun e => !SMap.get false s.blk.badEngine e || !SMap.get false s.blk.badBank e) } }

/-! ### The image (R493 to R497) -/

/-- Bytes of the flash. -/
def State.flashBytes (s : State) (a n : Nat) : List Byte := (List.range n).map (fun i => s.flashAt (a + i))

/-- A little-endian number of `n` bytes in the flash. -/
def State.flashLe (s : State) (a n : Nat) : Nat := ofLe (s.flashBytes a n)

/-- Where a copy begins: 1 names copy A, 2 copy B (R493). -/
def copyBase (c : Nat) : Nat := if c = 2 then 0x4000000 else 0

/-- LENGTH of a copy. -/
def State.imgLen (s : State) (c : Nat) : Nat := s.flashLe (copyBase c + 0x0C) 4
/-- SEQ of a copy. -/
def State.imgSeq (s : State) (c : Nat) : Nat := s.flashLe (copyBase c + 0x08) 4
/-- SECT_OFF of a copy. -/
def State.imgSect (s : State) (c : Nat) : Nat := s.flashLe (copyBase c + 0x10) 4
/-- PREP_LIMIT of a copy. -/
def State.imgPrep (s : State) (c : Nat) : Nat := s.flashLe (copyBase c + 0x16) 2
/-- NSECT of a copy. -/
def State.imgNsect (s : State) (c : Nat) : Nat := s.flashLe (copyBase c + 0x14) 2

/-- Why a copy's header is not valid: 0 valid, 1 HEADER, 2 HCRC (R497, Table 15.2). -/
def State.headerReason (s : State) (c : Nat) : Nat :=
  let b := copyBase c
  let n := s.imgLen c
  if s.flashLe b 4 ≠ 0x32375646 || s.flashLe (b + 4) 4 ≠ 0x00400001 || n % 64 ≠ 0 || n < 0x80 || 0x4000000 < n ||
      s.imgSect c % 8 ≠ 0 || s.imgSect c < 0x40 || s.imgPrep c < 1 || 3600 < s.imgPrep c || s.imgNsect c < 1 ||
      256 < s.imgNsect c || s.flashLe (b + 0x38) 4 ≠ 0 then 1
  else if (crc32c (s.flashBytes b 0x3C)).toNat ≠ s.flashLe (b + 0x3C) 4 then 2
  else 0

/-- A section table entry: TYPE, FLAGS, the upper word, SOFF and SLEN (Table 15.3). -/
structure Sect where
  ty : Nat
  flags : Nat
  rsvd : Nat
  off : Nat
  len : Nat
deriving DecidableEq, Repr

/-- The section table. -/
def State.sects (s : State) (c : Nat) : List Sect :=
  (List.range (s.imgNsect c)).map (fun i =>
    let a := copyBase c + s.imgSect c + 16 * i
    { ty := s.flashLe a 2, flags := s.flashLe (a + 2) 2, rsvd := s.flashLe (a + 4) 4, off := s.flashLe (a + 8) 4,
      len := s.flashLe (a + 12) 4 })

/-- The section has a type of Table 15.4. -/
def Sect.known (x : Sect) : Bool := 1 ≤ x.ty && x.ty ≤ 7

/-- Two byte ranges, by start and length, overlap. -/
def rangesMeet (x y : Nat × Nat) : Bool := 0 < x.2 && 0 < y.2 && x.1 < y.1 + y.2 && y.1 < x.1 + x.2

/-- Some two ranges of a list overlap. -/
def anyMeet : List (Nat × Nat) → Bool
  | [] => false
  | x :: t => t.any (fun y => rangesMeet x y) || anyMeet t

/-- A section's content breaks Table 15.4: its size, a reserved field, a HOMEBANK range or a GIB. -/
def State.sectBad (s : State) (c : Nat) (x : Sect) : Bool :=
  let a := copyBase c + x.off
  let w0 := s.flashLe a 8
  let w1 := s.flashLe (a + 8) 8
  match x.ty with
  | 1 => x.len % 8 ≠ 0
  | 2 => x.len ≠ 16384
  | 3 =>
    x.len ≠ 16 || bitsOf w0 3 2 ≠ 0 || bitsOf w0 63 20 ≠ 0 || bitsOf w1 15 11 ≠ 0 || bitsOf w1 63 27 ≠ 0 ||
      (bitsOf w0 0 0 = 1 && (bitsOf w1 10 0 < 1 || 1024 < bitsOf w1 10 0)) ||
      (bitsOf w0 1 1 = 1 && (bitsOf w1 26 16 < 1 || 1024 < bitsOf w1 26 16))
  | 4 => 2088960 < x.len
  | 5 => 6144 < x.len
  | 6 => 6144 < x.len
  | _ =>
    x.len < 8 || bitsOf w0 13 9 ≠ 0 || bitsOf w0 63 32 ≠ 0 || bitsOf w0 31 14 % 8 ≠ 0 ||
      0x3DC00 < bitsOf w0 31 14 + (x.len - 8)

/-- R495 or R496 is broken (SECTION). -/
def State.sectionBad (s : State) (c : Nat) : Bool :=
  let xs := s.sects c
  let last := s.imgLen c - 4
  let table := (s.imgSect c, 16 * s.imgNsect c)
  last < s.imgSect c + 16 * s.imgNsect c ||
    xs.any (fun x => x.rsvd ≠ 0 || 1 < x.flags || x.off % 8 ≠ 0 || x.off < 0x40 || last < x.off + x.len ||
      (if x.known then s.sectBad c x else x.flags ≠ 1)) ||
    anyMeet (table :: xs.map (fun x => (x.off, x.len))) ||
    [2, 3, 4, 5, 6].any (fun t => (xs.filter (fun x => x.ty = t)).length ≠ 1)

/-- The records of the REGS sections, in order: offset and value. -/
def State.regRecs (s : State) (c : Nat) (x : Sect) : List (Nat × Nat) :=
  (List.range (x.len / 8)).map (fun i =>
    let a := copyBase c + x.off + 8 * i
    (s.flashLe a 4, s.flashLe (a + 4) 4))

/-- A REGS record names no register that an image may set (REGISTER). -/
def regRecBad (off : Nat) : Bool :=
  off % 4 ≠ 0 || (findReg off regRows).isNone || off / 0x100000 = 1 || (0x301400 ≤ off && off < 0x301800)

/-- The one section of a type. -/
def State.sectOf (s : State) (c ty : Nat) : Sect := ((s.sects c).find? (fun x => x.ty = ty)).getD ⟨0, 0, 0, 0, 0⟩

/-- Word `k` of the grant that part `i` makes to part `j` (Table 15.4). -/
def State.grant (s : State) (c i j k : Nat) : Nat :=
  s.flashLe (copyBase c + (s.sectOf c 2).off + 16 * (32 * i + j) + 4 * k) 4

/-- The RING grant that part `i` makes to part `j`. -/
def State.ringGrant (s : State) (c i j : Nat) : Nat := s.grant c i j 3 % 65536

/-! ### Applying an image (R496) -/

/-- One section is applied. Its cells of a bank that is not usable are lost. -/
def State.applySect (s : State) (c : Nat) (x : Sect) : State :=
  let a := copyBase c + x.off
  let bs := s.flashBytes a x.len
  let sram := fun (s : State) (o : Nat) =>
    ({ s with
      stew := { s.stew with sram := putCells s.stew.sram (cellsAt o bs) }
      img := { s.img with fw := s.img.fw ++ cellsAt o bs } } : State)
  let bank := fun (s : State) (e o : Nat) (bs : List Byte) =>
    if s.bankUp e then ({ s with m := { s.m with mem := putCells s.m.mem (cellsAt (bankBase e + o) bs) } } : State) else s
  match x.ty with
  | 1 => (s.regRecs c x).foldl (fun s r => s.regWrite true 39 r.1 (BitVec.ofNat 32 r.2)) s
  | 3 => { s with img := { s.img with
      addr0 := BitVec.ofNat 64 (s.flashLe a 8), addr1 := BitVec.ofNat 64 (s.flashLe (a + 8) 8) } }
  | 4 => sram s 0
  | 5 => sram s (sramSize - 0x2000)
  | 6 => (List.range 512).foldl (fun s e => bank s e 0x3E000 bs) s
  | 7 =>
    let e := s.flashLe a 8 % 512
    let o := bitsOf (s.flashLe a 8) 31 14
    let s1 := bank s e o (bs.drop 8)
    { s1 with img := { s1.img with ranges := s1.img.ranges ++ [(bankBase e + o, x.len - 8)] } }
  | _ => s

/-- Grants given and held are set from the GRANTS section, after all sections (Table 15.4). -/
def State.applyGrants (s : State) (c : Nat) : State :=
  let four := fun (s : State) (r : Nat → RegRef) (i j : Nat) =>
    [0xFFFFFF, 0xFFFFF, 0xFFFFFF, 0xFFFF].zipIdx.foldl (fun (s : State) (m : Nat × Nat) =>
      s.wr (r m.2) (BitVec.ofNat 32 (s.grant c i j m.2) &&& BitVec.ofNat 32 m.1)) s
  let give := fun (n k : Nat) => ([Reg.staGiveBulk n, Reg.staGiveDir n, Reg.staGiveCxl n, Reg.staGiveRing n].getD k ⟨0, 0⟩)
  let held := fun (n k : Nat) => ([Reg.staGrantBulk n, Reg.staGrantDir n, Reg.staGrantCxl n, Reg.staGrantRing n].getD k ⟨0, 0⟩)
  (List.range 32).foldl (fun s n => four (four s (give n) s.pos n) (held n) n s.pos) s

/-- Every section applied in table order. -/
def State.applyImage (s : State) (c : Nat) : State :=
  ((s.sects c).foldl (fun s x => s.applySect c x) s).applyGrants c

/-! ### The checks on what an image sets (R34, R42, R299, R345, R360, R499) -/

/-- Devices that ADDRMAP enables. -/
def State.qdrEn (s : State) : List Nat := (List.range 4).filter (fun d => s.img.addr0.getLsbD (16 + d))
/-- Expanders that ADDRMAP enables. -/
def State.expEn (s : State) : List Nat := (List.range 2).filter (fun p => s.img.addr0.getLsbD p)
/-- LEN_US. -/
def State.lenUs (s : State) : Nat := s.fld Reg.lapCfg 5 0

/-- R34 is broken (LAP). -/
def State.lapBad (s : State) : Bool :=
  s.lenUs < 5 || 40 < s.lenUs || s.cclk ≠ s.lenUs * (if s.ord14 then 1400 else 1600)

/-- The capacities break R42 against the peaks of R592. -/
def State.capBad (s : State) : Bool :=
  let sum := fun (r : Nat → RegRef) (hi : Nat) => ((List.range 32).map (fun n => s.fld (r n) hi 0)).foldl (· + ·) 0
  let mts := (s.ddrEn.map (fun n => (s.fld (Reg.ddrCfg n) 11 8 + 8) * 400)).foldl (· + ·) 0
  let bulk := s.fld Reg.staCapBulk 23 0
  let dir := s.fld Reg.staCapDir 19 0
  let cxl := s.fld Reg.staCapCxl 23 0
  bulk < sum Reg.staGiveBulk 23 + s.fld Reg.staMaintBulk 23 0 || dir < sum Reg.staGiveDir 19 ||
    cxl < sum Reg.staGiveCxl 23 || 7 * mts * s.lenUs < 320 * bulk || 7 * 533 * s.lenUs * s.qdrEn.length < 20 * dir ||
    7 * 125 * s.lenUs * s.expEn.length < 10 * cxl || 7 * 2048 * s.cclk < 10 * s.fld Reg.staCapHb 27 0

/-- The spans on the clockwise way from part `a` to part `b`; span k joins part k's East port to the next part. -/
def arcCw (p a b : Nat) : List Nat := (List.range ((b + p - a) % p)).map (fun k => (a + k) % p)
/-- The spans on the counter-clockwise way. -/
def arcCcw (p a b : Nat) : List Nat := (List.range ((a + p - b) % p)).map (fun k => (a + p - 1 - k) % p)

/-- The base route goes clockwise (R345). -/
def baseCw (p a b : Nat) : Bool :=
  let d := (b + p - a) % p
  d < p - d || (d = p - d && a % 2 = 0)

/-- The route between two parts with spans broken: clockwise or not, and its spans; none where both ways are broken
(R345, R379). -/
def routeOf (p : Nat) (broken : List Nat) (a b : Nat) : Option (Bool × List Nat) :=
  let cw := (true, arcCw p a b)
  let ccw := (false, arcCcw p a b)
  let ways := if baseCw p a b then [cw, ccw] else [ccw, cw]
  ways.find? (fun w => !w.2.any (fun k => broken.contains k))

/-- S of a port's Slot Map, or none where it breaks R360. -/
def State.slotCount (s : State) (p : Nat) : Option Nat :=
  let n := 390 * s.lenUs
  let code := fun (c : Nat) => s.cellCode p c
  let k := ((List.range n).filter (fun c => code c = 1)).length
  if (List.range n).any (fun c => code c = 3) || 3 * n / 4 < k ||
      (List.range n).any (fun c => !(List.range 32).any (fun i => code ((c + i) % n) = 2)) then none
  else some k

/-- The load L of R360 on the link of this part that goes clockwise or not, with spans broken and a part lost. -/
def State.linkLoad (s : State) (c : Nat) (cw : Bool) (broken : List Nat) (lost : Option Nat) : Nat :=
  let p := s.ringSize
  let span := if cw then s.pos else (s.pos + p - 1) % p
  ((List.range p).flatMap (fun a => (List.range p).map (fun b =>
    if a = b || lost = some a || lost = some b then 0
    else
      match routeOf p broken a b with
      | some (d, spans) => if d = cw && spans.contains span then s.ringGrant c a b + s.ringGrant c b a else 0
      | none => 0))).foldl (· + ·) 0

/-- The single breaks of R360: the sets of broken spans, with the part lost. -/
def State.breaks (s : State) : List (List Nat × Option Nat) :=
  let p := s.ringSize
  if s.bit Reg.staAdmitCtrl 2 then
    (List.range p).map (fun k => ([k], none)) ++
      ((List.range p).filter (fun q => q ≠ s.pos)).map (fun q => ([(q + p - 1) % p, q], some q))
  else []

/-- The Slot Maps break R360. -/
def State.slotsBad (s : State) (c : Nat) : Bool :=
  if s.ringSize = 0 then false
  else
    [0, 1].any (fun p =>
      match s.slotCount p with
      | none => true
      | some k =>
        let g := if s.fld (Reg.ringPortCfg p) 7 6 = 1 then 1 else 2
        (([], none) :: s.breaks).any (fun x => k * g < s.linkLoad c (p = 0) x.1 x.2))

/-- GRANTS of Table 15.5. -/
def State.grantsBad (s : State) (c : Nat) : Bool :=
  let x := s.sectOf c 2
  (crc32c (s.flashBytes (copyBase c + x.off) x.len)).toNat ≠ s.flashLe (copyBase c + 0x18) 4 || s.capBad ||
    s.slotsBad c || (List.range 32).any (fun i => s.ringGrant c i i ≠ 0)

/-- Maintenance granules per channel per µs (Table 9.6). -/
def maintRate (dens lranks : Nat) : Nat :=
  let col := if lranks ≤ 4 then 0 else if lranks ≤ 8 then 1 else 2
  (([[7, 9, 13], [10, 12, 16], [12, 14, 18]].getD dens []).getD col 0)

/-- R299 is broken (MAINT). -/
def State.maintBad (s : State) : Bool :=
  let need := ((s.ddrEn.filter (fun n => !s.blk.badDdr.getLsbD n)).map (fun n =>
    s.lenUs * maintRate (s.fld (Reg.ddrCfg n) 6 5) (s.fld (Reg.ddrCfg n) 4 0))).foldl (· + ·) 0
  s.fld Reg.staMaintBulk 23 0 < need

/-- A producer code is not reserved (Table 13.1). -/
def producerOk (x : Nat) : Bool :=
  x = 0 || (0x010 ≤ x && x < 0x030) || (0x040 ≤ x && x < 0x0C2) || (0x100 ≤ x && x < 0x220)

/-- A consumer code is allowed: timer actions, and group operations in GROUP mode (Table 13.2, R434). -/
def consumerOk (group : Bool) (x : Nat) : Bool :=
  x = 0 || (32 ≤ x && x < 128) || (group && 128 ≤ x && x < 192 && x % 32 < 16)

/-- A reserved encoding or range (ENCODING). -/
def State.encodingBad (s : State) : Bool :=
  let group := s.bit Reg.evtCfg 0
  (List.range 12).any (fun n =>
    8 < s.fld (Reg.ddrCfg n) 11 8 || s.fld (Reg.ddrCfg n) 6 5 = 3 || s.fld (Reg.ddrCfg n) 4 0 = 0 ||
      16 < s.fld (Reg.ddrCfg n) 4 0) ||
    [0, 1].any (fun p => s.fld (Reg.ddrCxlCfg p) 11 0 < 100) ||
    s.ringSize = 1 || 32 < s.ringSize || (s.ringSize ≠ 0 && s.ringSize ≤ s.pos) ||
    [0, 1].any (fun p =>
      let mn := s.fld (Reg.ringPortCfg p) 7 6
      let mx := s.fld (Reg.ringPortCfg p) 5 4
      mn = 0 || mn = 3 || mx = 0 || mx = 3 || mx < mn || 10 ≤ s.fld (Reg.ringPortCfg p) 3 0) ||
    s.fld Reg.pairCfg 1 0 = 3 ||
    (List.range 256).any (fun c =>
      (s.chSources c).any (fun x => !producerOk x) || (s.chConsumers c).any (fun x => !consumerOk group x)) ||
    (!group && (8 < s.ringSize || s.fld Reg.pairCfg 1 0 ≠ 0)) ||
    (List.range 16).any (fun i => s.fld (Reg.evtPinCfg i) 1 0 = 3) ||
    s.fld Reg.supThermCfg 7 0 < 70 || 105 < s.fld Reg.supThermCfg 7 0

/-- The first reason of a list that applies, 0 for none. -/
def firstReason : List (Nat × Bool) → Nat
  | [] => 0
  | (r, b) :: t => if b then r else firstReason t

/-- Load a copy: the reason of Table 15.5, 0 for accepted, and the state with the image applied. -/
def State.loadCopy (s : State) (c : Nat) : Nat × State :=
  let b := copyBase c
  let n := s.imgLen c
  let early := firstReason [
    (0x04, (crc32c (s.flashBytes (b + 0x40) (n - 0x44))).toNat ≠ s.flashLe (b + n - 4) 4),
    (0x05, s.sectionBad c),
    (0x06, ((s.sects c).filter (fun x => x.ty = 1)).any (fun x => (s.regRecs c x).any (fun r => regRecBad r.1)))]
  if early ≠ 0 then (early, s)
  else
    let t := s.applyImage c
    (firstReason [(0x07, t.lapBad), (0x08, t.grantsBad c), (0x09, t.maintBad), (0x0A, t.encodingBad),
      (0x0B, t.fld Reg.pairCfg 1 0 ≠ 0 && t.ringSize = 0)], t)

/-! ### Dawn (R498, R500, R502, R533) -/

/-- PREP is entered: the bypass opens, memory is zeroed but for what Dawn loaded, the expanders are let out of reset, the
Steward starts its firmware, and the event groups take GRP_INIT (R442, R496, R502). -/
def State.enterPrep (s : State) : State :=
  let s1 := s.setEng steward { Engine.init with running := true }
  let s2 := if s.bit Reg.evtCfg 0 then s1.wr Reg.evtGroupEn (BitVec.ofNat 32 (s.fld Reg.evtCfg 31 16)) else s1
  { s2 with
    mode := .prep
    ring := { s2.ring with bypass := .opening }
    pwr := { s2.pwr with expPerstN := true }
    stew := { s2.stew with up := true, halted := false, kickLap := s2.lap, lastExpiry := none } }

/-- A copy is accepted: DAWN_STAT, DAWN_SEQ, what the part keeps of the image, the self-test after an unclean shutdown, and
the entry to PREP. -/
def State.acceptCopy (s : State) (c : Nat) (o : DawnOutcome) : State :=
  let s1 := (s.setFld Reg.dawnStat 1 0 c).wr Reg.dawnSeq (BitVec.ofNat 32 (s.imgSeq c))
  let s2 := { s1 with img := { s1.img with
    loaded := c, prepLimit := s.imgPrep c, gdigest := BitVec.ofNat 32 (s.flashLe (copyBase c + 0x18) 4) } }
  let clean : Bool := match s.shutdown with | some ws => (ws.getD 0 0).getLsbD 0 | none => false
  let s3 :=
    if clean then s2
    else
      let t := (s2.selfTest o.signatures o.badBanks).setBit Reg.dawnStat 9 true
      if t.blk.unsaved then t.writeBadblock else t
  s3.enterPrep

/-- The copies to try, newest first, with the reasons of those whose headers are refused (R497, R498). -/
def State.copies (s : State) (o : DawnOutcome) : Nat × Nat × List Nat :=
  let ra := if !o.sfdpOk || o.readErrA then 3 else s.headerReason 1
  let rb := if !o.sfdpOk || o.readErrB then 3 else s.headerReason 2
  let order := if seqNewer (s.imgSeq 2) (s.imgSeq 1) then [2, 1] else [1, 2]
  (ra, rb, order.filter (fun c => (if c = 1 then ra else rb) = 0))

/-- Record a copy's reason. -/
def State.setReason (s : State) (c r : Nat) : State :=
  if c = 1 then s.setFld Reg.dawnStat 23 16 r else s.setFld Reg.dawnStat 31 24 r

/-- Try the copies in turn; a rejected copy leaves nothing but its reason. -/
def State.tryCopies (s : State) (o : DawnOutcome) : List Nat → State
  | [] => s.enterService
  | c :: t =>
    match s.loadCopy c with
    | (0, s1) => s1.acceptCopy c o
    | (r, _) => (s.setReason c r).tryCopies o t

/-- DAWN (R498): the boot ROM runs. Both reference clocks are good by now (R574, R576). -/
def execDawn (o : DawnOutcome) (s : State) : Res :=
  if s.mode ≠ .dawn then .next s
  else
    let s1 := ((s.takeBadblock.setFld Reg.supClkStat 1 0 3).setBit Reg.dawnStat 8 (o.sfdpOk && o.octal))
    let (ra, rb, order) := s1.copies o
    .next (((s1.setReason 1 ra).setReason 2 rb).tryCopies o order)

end Sys2Proof.Machine
end

