-- ==== Sys2Proof/Machine/RecordUnit.lean ====
section
/-!
DEFINITION. The Record Unit and replay (spec/17_replay_and_observation.md, R547 to R558): the log region, Lap blocks, the
entries of a log that a replay takes. The commands BLOCK_WRITE, LOG_ENTRY and FREEZE.
-/
namespace Sys2Proof.Machine

/-! ### The log region (R550) -/

/-- Part-window offset of the log region. -/
def State.logBase (s : State) : Nat := s.fld Reg.recCfg 31 18 * 2 ^ 30

/-- Size of the log region in bytes. -/
def State.logSize (s : State) : Nat := s.fld Reg.recCfg 17 11 * 2 ^ 30

/-- The region is of 1 to 64 GiB and lies wholly in mapped bulk memory, which is mapped in units of 256 MiB. -/
def State.logOk (s : State) : Bool :=
  let n := s.fld Reg.recCfg 17 11
  1 ≤ n && n ≤ 64 && (List.range (4 * n)).all (fun i =>
    let o := s.logBase + i * 2 ^ 28
    o < 0x100000000000 && (s.tier o).isMem)

/-- The Record Unit writes bytes into the region: Open class, master 40 (R552). -/
def State.logPut (s : State) (off : Nat) (bs : List Byte) : State :=
  s.postWrite (.master s.pos 40) 0 (cellsAt (s.logBase + off) bs) 0 false s.lap

/-- The log header (Table 17.2). -/
def State.logHeader (s : State) (first : Nat) : List Byte :=
  let bb : Nat := match s.badblock with | some ws => (crc32c (wordBytes ws)).toNat | none => 0
  let body := leBytes 4 0x4C415052 ++ leBytes 4 1 ++ leBytes 8 (s.rd64 Reg.devSerial).toNat ++
    leBytes 4 (s.rd Reg.dawnSeq).toNat ++ leBytes 4 s.img.gdigest.toNat ++ leBytes 4 bb ++
    leBytes 4 (s.mode.code + s.devId.toNat / 2 ^ 24 * 2 ^ 4 + s.pos * 2 ^ 12) ++ leBytes 8 first ++
    leBytes 4 (s.rd Reg.recCfg).toNat ++ List.replicate 0xFD0 0
  body ++ leBytes 4 (crc32c body).toNat

/-- A new log starts with Lap `first` (R547, R550). -/
def State.startLog (s : State) (first : Nat) : State :=
  if !s.bit Reg.recCfg 0 then s
  else if !s.logOk then s.setBit Reg.recStat 29 true
  else
    let s1 := ((s.setFld Reg.recStat 31 28 1).wr64 Reg.recOldest 0x1000).logPut 0 (s.logHeader first)
    { s1 with recd := { State.reset.recd with off := 0x1000 } }

/-- Recording ends with the Lap that closes (R547). -/
def State.stopLog (s : State) : State := s.setBit Reg.recStat 28 false

/-! ### Blocks (R548, R549, R551, R552) -/

/-- The bytes of an entry (R549). -/
def LogEnt.bytes (x : LogEnt) : List Byte :=
  leBytes 8 (x.ty * 2 ^ 56 + (1 + x.pay.length / 2) * 2 ^ 48 + x.cyc * 2 ^ 32 + x.a) ++ wordBytes (x.b :: x.pay)

/-- Place an entry by its CYC, then its TYPE, behind its equals (R548). -/
def placeEnt (x : LogEnt) : List LogEnt → List LogEnt
  | [] => [x]
  | h :: t => if x.cyc < h.cyc || (x.cyc = h.cyc && x.ty < h.ty) then x :: h :: t else h :: placeEnt x t

/-- The entries of a block in order. -/
def sortEnts (l : List LogEnt) : List LogEnt := l.foldl (fun a x => placeEnt x a) []

/-- The bytes of a Lap's block (Table 17.3), with PAD entries to a multiple of 64, which count among its entries. -/
def LogBlk.bytes (b : LogBlk) : List Byte :=
  let es := sortEnts b.ents
  let body := es.flatMap LogEnt.bytes
  let pads := (64 - body.length % 64) % 64 / 16
  let all := body ++ (List.replicate pads (⟨0, 0, 0, 0, []⟩ : LogEnt)).flatMap LogEnt.bytes
  let head := leBytes 4 0x4C415042 ++
    leBytes 4 (b.incomplete.toNat * 2 ^ 31 + (1 + all.length / 64)) ++ leBytes 8 b.lap ++
    leBytes 4 (es.length + pads) ++ leBytes 4 0 ++ leBytes 8 (b.pdig.getD 0).toNat ++ List.replicate 28 0
  head ++ leBytes 4 (crc32c (head ++ leBytes 4 0 ++ all)).toNat ++ all

/-- The digests of the Lap that the latest boundary closed join its block: PDIG, and with ENGDIG the two entries of engine
digests, taken at the end of the Lap. -/
def State.sealBlock (s : State) : State :=
  let eng := fun (k : Nat) =>
    ⟨0x0A, s.cclk - 1, k, 0, (List.range 256).map (fun i => SMap.get 0 s.pair.own (256 * k + i))⟩
  let fill := fun (b : LogBlk) =>
    if b.pdig.isSome then b
    else { b with pdig := some s.pair.ownPart, ents := b.ents ++ (if s.bit Reg.recCfg 2 then [eng 0, eng 1] else []) }
  { s with recd := { s.recd with out := s.recd.out.map fill } }

/-- The entries of the closing Lap `n` become a block to write; EVENTS is its last input entry (Table 17.1). -/
def State.rollLog (s : State) (n : Nat) : State :=
  if s.bit Reg.recStat 28 then
    let f := s.allFlags.toNat
    let ev : LogEnt := ⟨0x05, s.cclk - 1, 0, 0, (List.range 4).map (fun i => BitVec.ofNat 64 (f / 2 ^ (64 * i)))⟩
    if s.recd.out.length < 2 then
      { s with recd := { s.recd with
          out := s.recd.out ++ [⟨n, s.recd.incomplete, s.recd.cur ++ [ev], none⟩], cur := [], incomplete := false } }
    else { (s.satInc Reg.recStat 23 0) with recd := { s.recd with cur := [], incomplete := true } }
  else s

/-- Blocks that lie in the bytes from `a` to `b` are overwritten. -/
def keepBlocks (l : List (Nat × Nat)) (a b : Nat) : List (Nat × Nat) := l.filter (fun x => x.1 + x.2 ≤ a || b ≤ x.1)

/-- A block is written (R551): at the end of the region it wraps, or recording stops. -/
def State.writeBlock (s : State) (b : LogBlk) (rest : List LogBlk) : State :=
  let bs := b.bytes
  let put := fun (s : State) (o : Nat) =>
    let bl := keepBlocks s.recd.blocks o (o + bs.length) ++ [(o, bs.length)]
    let s1 := s.logPut o bs
    ({ s1 with recd := { s1.recd with out := rest, off := o + bs.length, blocks := bl } } : State).wr64 Reg.recOldest
      (BitVec.ofNat 64 (bl.head?.map (fun x => x.1) |>.getD 0x1000))
  if s.recd.off + bs.length ≤ s.logSize then put s s.recd.off
  else if s.bit Reg.recCfg 3 then
    { ((s.setBit Reg.recStat 30 true).stopLog) with recd := { s.recd with out := [] } }
  else
    let o := s.recd.off
    let s1 :=
      if o + 64 ≤ s.logSize then
        let h := leBytes 4 0x4C415042 ++ List.replicate 56 0
        let t := s.logPut o (h ++ leBytes 4 (crc32c (h ++ leBytes 4 0)).toNat)
        { t with recd := { t.recd with blocks := keepBlocks t.recd.blocks o (o + 64) } }
      else s
    put (s1.setBit Reg.recStat 31 true) 0x1000

/-- BLOCK_WRITE (R552): the oldest block is written, after its digest has closed at cycle 832 of the boundary. -/
def execBlockWrite (s : State) : Res :=
  let s1 := if s.pastCycle 832 && s.mode.running then s.closeDigests else s
  let s2 := if s1.pair.closed then s1.sealBlock else s1
  match s2.recd.out with
  | [] => .next s
  | b :: rest => if b.pdig.isSome then .next (s2.writeBlock b rest) else .next s

/-! ### Reading a log back (R553, R556) -/

/-- Bytes of the log region as memory holds them. -/
def State.logBytes (s : State) (off n : Nat) : List Byte := (List.range n).map (fun i => s.byteIn s.m (s.logBase + off + i))

/-- A read of the log region meets poison or a failed target (R300, R304, R306). -/
def State.logBad (s : State) (off n : Nat) : Bool :=
  (touched 8 (s.logBase + off) n).any (fun o =>
    s.failed (s.tier o) || SMap.get Health.good s.m.health (healthKey o) = .poisoned)

/-- The Record Unit's error status (R305). -/
def State.recErr (s : State) (bad : Bool) : State := if bad then { s with recd := { s.recd with err := true } } else s

/-- A little-endian number in the log region. -/
def State.logLe (s : State) (off n : Nat) : Nat := ofLe (s.logBytes off n)

/-- Why a replay cannot start, by the END code of REC_RPL_STAT; 0 where it can (R553). A log that has wrapped no longer
begins with its first Lap. A header that cannot be read fails its HCRC, and a block its BCRC (R305, DEDUCED, log 146). -/
def State.replayFault (s : State) : Nat :=
  let bb : Nat := match s.badblock with | some ws => (crc32c (wordBytes ws)).toNat | none => 0
  if !s.logOk || s.logBad 0 0x1010 || s.logLe 0 4 ≠ 0x4C415052 || s.logLe 4 4 ≠ 1 || (crc32c (s.logBytes 0 0xFFC)).toNat ≠ s.logLe 0xFFC 4 ||
      s.logLe 0x1008 8 ≠ s.logLe 0x20 8 then 6
  else if s.logLe 0x10 4 ≠ (s.rd Reg.dawnSeq).toNat || s.logLe 0x14 4 ≠ s.img.gdigest.toNat then 4
  else if s.logLe 0x18 4 ≠ bb || s.logLe 0x1C 4 / 16 % 256 ≠ s.devId.toNat / 2 ^ 24 then 5
  else 0

/-- The entries in bytes of a block. -/
def entsFrom (bs : List Byte) : Nat → List LogEnt
  | 0 => []
  | fuel + 1 =>
    if bs.length < 16 then []
    else
      let w0 := ofLe (bs.take 8)
      let len := Nat.max 1 (bitsOf w0 55 48)
      let pay := (List.range (2 * (len - 1))).map (fun i => wordAt bs (2 + i))
      ⟨bitsOf w0 63 56, bitsOf w0 47 32, bitsOf w0 31 0, wordAt bs 1, pay⟩ :: entsFrom (bs.drop (16 * len)) fuel

/-- A DECISION entry: TTI, reason, SQ, CID (Table 17.1). -/
def LogEnt.decision (x : LogEnt) : Nat × Nat × Nat × Nat :=
  (bitsOf x.a 15 0, bitsOf x.a 23 16, bitsOf x.a 29 24, x.b.toNat % 65536)

/-- Load the block of the present Lap; an END code where there is none, or where it is not to be run (R556). -/
def State.loadBlock (s : State) : State :=
  let o := s.recd.playOff
  let len := s.logLe (o + 4) 4 % 2 ^ 31 * 64
  let bs := s.logBytes o len
  let bad := s.logBad o (Nat.max 64 len)
  let fin := fun (c : Nat) =>
    (({ s with recd := { s.recd with play := none, ending := true } } : State).setFld Reg.recRplStat 31 29 c).recErr bad
  if s.logSize < o + 64 ||  s.logLe o 4 ≠ 0x4C415042 || len = 0 || s.logLe (o + 8) 8 ≠ s.lap then fin 1
  else if s.logLe (o + 4) 4 / 2 ^ 31 = 1 then fin 3
  else if bad || (crc32c (bs.take 0x3C ++ leBytes 4 0 ++ bs.drop 0x40)).toNat ≠ s.logLe (o + 0x3C) 4 then fin 7
  else
    let es := entsFrom (bs.drop 64) (s.logLe (o + 0x10) 4)
    let ty := fun (t : Nat) => es.filter (fun x => x.ty = t)
    let b : PlayBlk := {
      lap := s.lap, pdig := BitVec.ofNat 64 (s.logLe (o + 0x18) 8)
      ents := es.filter (fun x => [1, 2, 3, 4, 5, 6, 9].contains x.ty)
      decs := (ty 8).map LogEnt.decision, eng := (ty 0x0A).flatMap (fun x => x.pay), made := [] }
    { s with recd := { s.recd with play := some b, playOff := o + len } }

/-! ### Entries take effect (R554) -/

/-- The flit that a FLIT entry's payload holds. -/
def flitOf (pay : List W64) : Flit :=
  let h := (pay.getD 0 0).toNat + (pay.getD 1 0).toNat % 2 ^ 32 * 2 ^ 64
  { kind := BitVec.ofNat 3 (bitsOf h 95 93), seq := BitVec.ofNat 10 (bitsOf h 92 83), ack := BitVec.ofNat 10 (bitsOf h 82 73),
    nak := BitVec.ofNat 1 (bitsOf h 72 72), crd := BitVec.ofNat 12 (bitsOf h 71 60), src := BitVec.ofNat 5 (bitsOf h 59 55),
    dst := BitVec.ofNat 5 (bitsOf h 54 50), cls := BitVec.ofNat 2 (bitsOf h 49 48), vc := BitVec.ofNat 2 (bitsOf h 47 46),
    laptag := BitVec.ofNat 8 (bitsOf h 45 38), hops := BitVec.ofNat 5 (bitsOf h 37 33), loop := BitVec.ofNat 1 (bitsOf h 32 32),
    eseq := BitVec.ofNat 12 (bitsOf h 31 20), dlen := BitVec.ofNat 8 (bitsOf h 19 12), sts := BitVec.ofNat 2 (bitsOf h 11 10),
    reqr := BitVec.ofNat 10 (bitsOf h 9 0), body := pay.drop 2 }

/-- A logged submission enters the intake queue with its cost vector, which is read as the recorded part read it. -/
def State.replaySubmit (s : State) (q : Nat) (ws : List W64) : State :=
  let w := fun (i : Nat) => ws.getD i 0
  let r : Rec64 := ⟨w 0, w 1, w 2, w 3, w 4, w 5, w 6, w 7⟩
  let m : Subm := { sq := q, r := r, sqhead := s.sqHead q, cv := CostVec.zero, location := false }
  if r.isCancel then s.enterIntake m
  else if !s.cvPlace r.cvDpa then s.enterIntake { m with location := true }
  else
    let off := r.cvDpa % 2 ^ 46
    let n := s.cvBytes off
    let s1 := (s.chargeRow off n).getD s
    match s1.readLocal (.master s1.pos 35) off n with
    | (s2, .ok, bs) => s2.enterIntake { m with cv := costVecOf bs }
    | (s2, _, _) => s2.enterIntake { m with location := true }

/-- An entry takes effect. Its master is one whose own writes a replay does not take. -/
def State.applyEnt (s : State) (x : LogEnt) : State :=
  match x.ty with
  | 1 =>
    if x.a / 64 % 2 = 0 then s.sqTailWrite (x.a % 64) (x.b.setWidth 32) else s.cqHeadWrite (x.a % 64) (x.b.setWidth 32)
  | 2 => s.replaySubmit (x.a % 64) x.pay
  | 3 =>
    let off := x.b.toNat % 2 ^ 46 / 64 * 64
    let be := (x.pay.getD 0 0)
    let cs := (cellsAt off (wordBytes (x.pay.drop 2))).filter (fun c => be.getLsbD (c.1 - off))
    s.performReq ((Src.master s.pos 34).req 0 off (.write cs) 0 false s.lap) .clean
  | 4 => s.regWrite false 34 (x.a % 2 ^ 30) (x.b.setWidth 32)
  | 5 =>
    { s with pair := { s.pair with
        recorded := BitVec.ofNat 256 ((List.range 4).foldl (fun a i => a + (x.pay.getD i 0).toNat * 2 ^ (64 * i)) 0) } }
  | 6 => s.pinEdge (x.a % 16) (x.a / 16 % 2 = 1) x.b.toNat
  | 9 => s.deliverFlit (x.a % 2) (flitOf x.pay)
  | _ => s

/-- An entry is due: at its CYC, a PIN at its stamp. -/
def State.entDue (s : State) (x : LogEnt) : Bool :=
  if x.ty = 6 then x.b.toNat ≤ s.tb else x.cyc ≤ s.tb % s.lapTicks * s.cclk / s.lapTicks

/-- The next entry of the Lap takes effect. -/
def State.nextEnt (s : State) : State :=
  match s.recd.play with
  | none => s
  | some b =>
    match b.ents with
    | [] => s
    | x :: t => ({ s with recd := { s.recd with play := some { b with ents := t } } } : State).applyEnt x

/-- LOG_ENTRY (R554). -/
def execLogEntry (s : State) : Res :=
  match s.recd.play with
  | some b =>
    match b.ents with
    | x :: _ => if s.mode = .replay ∧ b.lap = s.lap ∧ s.entDue x then .next s.nextEnt else .next s
    | [] => .next s
  | none => .next s

/-! ### Comparing (R555) -/

/-- A difference of the given kind in a Lap; the first one is kept. -/
def State.diverge (s : State) (kind lap : Nat) : State :=
  if s.bit Reg.recRplStat 28 then s
  else ((s.setBit Reg.recRplStat 28 true).setFld Reg.recRplStat 27 24 kind).wr64 Reg.recDivLap (BitVec.ofNat 64 lap)

/-- The digests and decisions of the Lap before the closing one are compared with its block. -/
def State.compareLap (s : State) : State :=
  match s.recd.prev with
  | none => s
  | some b =>
    let es := if b.eng.isEmpty then [] else (List.range 512).filter (fun e => SMap.get 0 s.pair.own e ≠ b.eng.getD e 0)
    let part : Bool := b.pdig ≠ s.pair.ownPart
    let dec : Bool := b.decs ≠ b.made
    let s1 := if part then s.diverge 1 b.lap else s
    let s2 := if es.isEmpty then s1 else s1.diverge 2 b.lap
    let s3 := if dec then s2.diverge 3 b.lap else s2
    let s4 := es.foldl (fun s e => s.setBit (Reg.recDivEng (e / 32)) (e % 32) true) s3
    let s5 := if part || dec || !es.isEmpty then s4.satInc Reg.recRplStat 23 0 else s4
    let stop : Bool := (part || dec || !es.isEmpty) && s.bit Reg.recCfg 4
    let s6 := { s5 with recd := { s5.recd with prev := none } }
    if stop && !s.recd.ending then ({ s6 with recd := { s6.recd with ending := true } } : State).setFld Reg.recRplStat 31 29 2
    else s6

/-! ### Performance counters (R558) -/

/-- FREEZE (R558): a write of REC_PMC_CTL; it takes effect at the next boundary. -/
def execFreeze (m : Nat) (v : BitVec 32) (s : State) : Res :=
  if s.accessOk m 0xE00100 4 then .next (s.gate m 0xE00100 v (fun s => s.writeWord false 0xE00100 v))
  else .next (s.noAccess m 0xE00100)

end Sys2Proof.Machine
end

