-- ==== Sys2Proof/Machine/Modes.lean ====
section
/-!
DEFINITION. PREP's end, the transitions of the operating modes, Dusk and REDAWN (spec/15, R490, R491, R502 to R507, R515;
spec/16, R521 to R532; spec/12, R424). The commands PREP_COMPLETE, MODE_TRANSITION, POST, TEST, RECORD, REDAWN, REPLAY.
-/
namespace Sys2Proof.Machine

/-! ### Routes (R345, R379) -/

/-- The spans in the broken set; span k joins part k's East port to the next part. -/
def State.brokenSpans (s : State) : List Nat := (List.range s.ringSize).filter (fun k => s.bit Reg.ringBroken k)

/-- RING_STAT.STATE (Table 11.15). -/
def State.ringState (s : State) : Nat :=
  if s.ringSize = 0 then 0
  else if !s.brokenSpans.isEmpty then 2
  else if s.rd Reg.ringLost ≠ 0 || s.bit (Reg.ringPortStat 0) 25 || s.bit (Reg.ringPortStat 1) 25 then 3
  else 1

/-- The route table is computed anew: RING_LOST loses the parts of `back` and gains those that no way reaches; the
master is chosen again (R375, R379, R384, R506). -/
def State.reroute (s : State) (back : List Nat) : State :=
  let p := s.ringSize
  let others := (List.range p).filter (fun n => n ≠ s.pos)
  let way := fun (n : Nat) => routeOf p s.brokenSpans s.pos n
  let flips := others.filter (fun n => match way n with | some w => w.1 != baseCw p s.pos n | none => false)
  let lost := others.filter (fun n => (way n).isNone || (s.bit Reg.ringLost n && !back.contains n))
  let s1 := ({ s with ring := { s.ring with flipped := markAll flips } } : State).wr Reg.ringLost
    (BitVec.ofNat 32 (lost.foldl (fun a n => a + 2 ^ n) 0))
  (s1.setFld Reg.ringStat 31 30 s1.ringState).setFld Reg.ringStat 29 25 (if p = 0 then 0 else s1.timeMaster)

/-! ### The end of PREP (R63, R295, R303, R396, R502 to R504, R553) -/

/-- The partner's marks join this part's (R396, DEDUCED, log 37). -/
def State.takePartner (s : State) (o : PrepOutcome) : State :=
  if s.fld Reg.pairCfg 1 0 = 0 || s.replayFlag then s
  else
    let mark := fun (m : SMap Bool) (es : List Nat) =>
      (es.filter (fun e => e < 512)).foldl (fun m e => SMap.set false m e true) m
    { s with blk := { s.blk with
        badEngine := mark s.blk.badEngine o.partnerEngines, badBank := mark s.blk.badBank o.partnerBanks
        badDdr := s.blk.badDdr ||| o.partnerBlocks.setWidth 12
        badQdr := s.blk.badQdr ||| BitVec.ofNat 4 (o.partnerBlocks.toNat / 2 ^ 12)
        badExp := s.blk.badExp ||| BitVec.ofNat 2 (o.partnerBlocks.toNat / 2 ^ 16) } }

/-- The DIMMs of a channel as PREP reads them (R295). -/
def dimmsOf (o : PrepOutcome) (ch : Nat) : List Dimm :=
  (o.dimms.find? (fun p => p.1 = ch)).elim [] (fun p => p.2)

/-- A DIMM is one of Table 9.3, of the density in DDR_CFG and rated for the channel's rate. -/
def dimmFits (d : Dimm) (dens rate : Nat) : Bool :=
  d.rdimm && d.gbit = 16 + 8 * dens && dens ≤ 2 && 16 ≤ d.gib && d.gib ≤ 256 && [1, 2, 4].contains d.ranks &&
    [1, 2, 4].contains d.stack && rate ≤ d.rate

/-- A channel's DIMMs agree with DDR_CFG and with Table 9.3 (R295, R316): one DIMM, or two identical ones. -/
def State.ddrFits (s : State) (o : PrepOutcome) (ch : Nat) : Bool :=
  let c := fun (hi lo : Nat) => s.fld (Reg.ddrCfg ch) hi lo
  let ds := dimmsOf o ch
  let rate := (c 11 8 + 8) * 400
  ds.length = 1 + c 7 7 && ds.all (fun d => dimmFits d (c 6 5) rate && (ds.head?.elim true (fun h => h = d))) &&
    ds.foldl (fun n d => n + d.ranks * d.stack) 0 = c 4 0 && c 4 0 ≤ 16 && rate ≤ (if c 7 7 = 1 then 4800 else 6400)

/-- A channel's population: its DIMMs and its DDR_CFG. -/
def State.population (s : State) (o : PrepOutcome) (ch : Nat) : List Dimm × Nat := (dimmsOf o ch, s.fld (Reg.ddrCfg ch) 11 0)

/-- The channels usable for this start-up: enabled, finished, not marked, with DIMMs that agree with DDR_CFG and Table 9.3, and
populated as channel 0 or the lowest usable one (R295). -/
def State.trainedDdr (s : State) (o : PrepOutcome) : List Nat :=
  let cand := s.ddrEn.filter (fun n => o.ddrOk.getLsbD n && !s.blk.badDdr.getLsbD n && s.ddrFits o n)
  cand.filter (fun n => s.population o n = s.population o (cand.head?.getD 0))

/-- The rows of the bad-block map to which PREP applies soft post-package repair, on the channels that train (R296,
Table 15.7). -/
def State.repairs (s : State) (ok : List Nat) : List W64 :=
  (((s.badblock.getD []).drop 17).take 16).filter (fun w => w.getLsbD 63 && ok.contains (bitsOf w.toNat 62 59))

/-- The capacity of an expander in units of 256 MiB, within its GIB cap (R63, R303). -/
def State.trainedExp (s : State) (o : PrepOutcome) (p : Nat) : Nat :=
  if !s.expEn.contains p || s.blk.badExp.getLsbD p then 0
  else Nat.min (if p = 0 then o.exp0 else o.exp1) (4 * bitsOf s.img.addr1.toNat (if p = 0 then 10 else 26) (if p = 0 then 0 else 16))

/-- A sum. -/
def sumNat (l : List Nat) : Nat := l.foldl (· + ·) 0

/-- Capacity of each resource: as the image gives it, and as it is (R63): DDR5, Directory tier, expanders. -/
def State.capacities (s : State) : List (Nat × Nat) :=
  let gib := fun (p : Nat) => 4 * bitsOf s.img.addr1.toNat (if p = 0 then 10 else 26) (if p = 0 then 0 else 16)
  [(sumNat (s.ddrEn.map s.chanBytes), s.ddrEnd), (s.qdrEn.length, (setBits s.blk.qdrOk).length),
    (sumNat (s.expEn.map gib), SMap.get 0 s.blk.expUnits 0 + SMap.get 0 s.blk.expUnits 1)]

/-- Capacities and this part's scale follow what is usable; the scale is announced (R63). -/
def State.scaleCaps (s : State) : State :=
  let c := s.capacities
  let cut := fun (s : State) (r : RegRef) (hi k : Nat) =>
    let x := c.getD k (0, 0)
    if x.1 = 0 then s else s.setFld r hi 0 (s.fld r hi 0 * x.2 / x.1)
  let sc := (c.filter (fun x => x.1 ≠ 0)).foldl (fun a x => Nat.min a (65536 * x.2 / x.1)) 65536
  let s1 := cut (cut (cut s Reg.staCapBulk 23 0) Reg.staCapDir 19 1) Reg.staCapCxl 23 2
  (s1.setFld (Reg.staScale s.pos) 16 0 sc).sendCtl [BitVec.ofNat 64 (6 + sc * 2 ^ 8)]

/-- The memories that PREP has trained, with DDR_STAT. -/
def State.trainMemory (s : State) (o : PrepOutcome) : State :=
  let ok := s.trainedDdr o
  let bits := fun (l : List Nat) => l.foldl (fun a n => a + 2 ^ n) 0
  let qdr := s.qdrEn.filter (fun d => o.qdrOk.getLsbD d && !s.blk.badQdr.getLsbD d)
  let s1 := { s with blk := { s.blk with
    ddrOk := BitVec.ofNat 12 (bits ok), repaired := s.repairs ok, qdrOk := BitVec.ofNat 4 (bits qdr)
    expUnits := SMap.set 0 (SMap.set 0 [] 0 (s.trainedExp o 0)) 1 (s.trainedExp o 1) } }
  s.ddrEn.foldl (fun s n =>
    (((s.setBit (Reg.ddrStat n) 0 (ok.contains n)).setBit (Reg.ddrStat n) 1 (!ok.contains n)).setBit (Reg.ddrStat n) 3
      (o.ecsHigh.getLsbD n))) s1

/-- The CALIBRATION record is written with the seeds found, which are free values (Table 15.6, DESIGN CHOICE, log 11). -/
def State.writeSeeds (s : State) : State :=
  let n := s.freeCtr
  ({ s with freeCtr := n + 64 } : State).writeRec 4 64 86 152 ((List.range 64).map (fun i => Config.calibration (n + i)))

/-- The ports allow PREP to be complete (R503); a replay trains none (R515). -/
def State.portsReady (s : State) : Bool :=
  s.replayFlag ||
    ((s.ringSize = 0 || ((s.lts 0 = 6 || s.lts 0 = 7) && (s.lts 1 = 6 || s.lts 1 = 7) && s.bit Reg.ringStat 19)) &&
      (s.fld Reg.pairCfg 1 0 = 0 || s.lts 2 = 6))

/-- The next Lap whose number is a multiple of 1,024 (R504). -/
def State.startLap (s : State) : Nat := (s.lap / 1024 + 1) * 1024

/-- The target mode and the Lap of its boundary are set pending (R504, R506, R553). A replay steps the Time Base to the Lap
before the log's first; one that cannot start ends at once, with the code in REC_RPL_STAT. -/
def State.setTarget (s : State) : State :=
  if s.replayFlag then
    let f := s.replayFault
    if f ≠ 0 then
      { (s.recErr (s.logBad 0 0x1010)).setFld Reg.recRplStat 31 29 f with
        pendMode := some (.replay, s.startLap), recd := { s.recd with ending := true } }
    else
      let n := s.logLe 0x20 8
      { s.stepTime ((n - 1) * s.lapTicks) 0 with pendMode := some (.replay, n) }
  else
    match s.pendMode with
    | some _ => s
    | none =>
      let m : Mode := if s.ringSize = 0 then .solo
        else match s.fld Reg.pairCfg 1 0 with | 0 => .ring | 1 => .lead | _ => .trail
      { s with pendMode := some (m, s.startLap) }

/-- PREP_COMPLETE (R503, R504). -/
def execPrepComplete (o : PrepOutcome) (s : State) : Res :=
  if s.mode ≠ .prep ∨ s.prepLap.isSome ∨ !(o.limit || s.portsReady) then .next s
  else
    let s1 := (((s.takePartner o).trainMemory o).scaleCaps).writeSeeds
    .next ({ s1 with prepLap := some s1.lap } : State).setTarget

/-! ### Entry to a running mode (R504, R506, R508, R547, R553) -/

/-- POSITION is written if it has changed (Table 15.6). -/
def State.writePosition (s : State) : State :=
  let w := s.pos + s.fld Reg.ringCfg 31 16 * 2 ^ 5 + s.fld Reg.pairCfg 1 0 * 2 ^ 21
  let ds := [BitVec.ofNat 64 w, (s.rd Reg.dawnSeq).setWidth 64]
  if s.posRec = some ds then s else s.writeRec 1 2 0 4 ds

/-- The broken set at entry: the spans of ring ports that are not ACTIVE (R504). -/
def State.brokenAtEntry (s : State) : Nat :=
  if s.ringSize = 0 || s.replayFlag then 0
  else
    let e := if s.lts 0 = 6 then 0 else 2 ^ s.pos
    let w := if s.lts 1 = 6 then 0 else 2 ^ ((s.pos + s.ringSize - 1) % s.ringSize)
    if e = w then e else e + w

/-- A running mode is entered from PREP. -/
def State.enterRunning (s : State) (m : Mode) : State :=
  let s1 := ((s.wr Reg.ringBroken (BitVec.ofNat 32 s.brokenAtEntry)).reroute []).setBit Reg.staAdmitCtrl 0 true
  let s2 := { s1 with mode := m, pendMode := none, nextMode := none, runLap := s1.lap }
  let s3 := (List.range 256).foldl (fun s i => s.openAt (s.lap + 1 + i)) s2
  let s4 := (s3.writePosition).writeShutdown false
  if m = .replay then
    let s5 : State := { s4 with recd := { s4.recd with playOff := 0x1000 } }
    if s5.recd.ending then s5 else s5.loadBlock
  else s4.startLog s4.lap

/-! ### Dusk and the drain before SERVICE (R522 to R532) -/

/-- Admission ends, and waiting Open Tasks are settled Cancelled (R522); PHASE is 1. -/
def State.beginDrain (s : State) : State :=
  let s1 := (s.setBit Reg.staAdmitCtrl 0 false).setFld Reg.pwrDuskStat 31 29 1
  let ts := (s1.sta.tasks.filter (fun p => p.2.st = .queued)).map (fun p => p.1)
  ts.foldl (fun s t => s.settle t .cancelled 0 0) s1

/-- A request that waited for a transition is judged against the mode reached (R491). -/
def State.judgeNext (s : State) : State :=
  match s.nextMode with
  | none => s
  | some m =>
    let s1 := { s with nextMode := none }
    if !s.mode.running then s1.mboxEnd 4
    else if m = .service then (s1.trigger .service).mboxEnd 2
    else
      let s2 := s1.trigger .dusk
      { s2 with host := { s2.host with duskCmd := true } }

/-- DUSK is entered (R522, R536, R547). -/
def State.enterDusk (s : State) : State :=
  let s1 := s.beginDrain.stopLog.allNoon
  ({ s1 with mode := .dusk, pendMode := none, duskLap := s1.lap, drainMode := s.mode } : State).judgeNext

/-- The drain is over and SERVICE is entered (R532, R515). -/
def State.drainToService (s : State) : State :=
  let waits := s.nextMode.isSome
  let s1 := ((s.setFld Reg.pwrDuskStat 31 29 0).stopLog).enterService
  let s2 := s1.allNoon
  if waits then s2.mboxEnd 4 else s2

/-- A block of the part is marked unusable. -/
def State.marked (s : State) : Bool :=
  s.blk.badEngine.any (fun p => p.2) || s.blk.badBank.any (fun p => p.2) || s.blk.badDdr ≠ 0 || s.blk.badQdr ≠ 0 ||
    s.blk.badExp ≠ 0

/-- The cases of DEGRADED mode (R424). -/
def State.degrades (s : State) : Bool :=
  (s.mode = .solo || s.mode = .ring || s.mode = .lead || s.mode = .trail) && s.stew.up && !s.stew.halted &&
    (s.bit Reg.pairStat 27 || (s.fld Reg.pairCfg 1 0 = 0 && s.marked))

/-- DEGRADED mode is entered: engines see the live flags again, and admission is enabled (R69, R424). -/
def State.enterDegraded (s : State) : State :=
  let s1 : State := { s.setBit Reg.staAdmitCtrl 0 true with mode := .degraded }
  (List.range 256).foldl (fun s c => if s.flag c then s.wake c else s) s1

/-- MODE_TRANSITION (R491): the pending transition whose boundary has come; with none pending, the Steward's to DEGRADED at
a boundary (R424, DEDUCED, log 38). -/
def execModeTransition (s : State) : Res :=
  match s.pendMode with
  | some (m, l) =>
    if s.lap < l then .next s
    else if s.mode = .prep then
      if s.prepLap.isSome then .next (s.enterRunning m) else .next s
    else if !s.mode.running then .next s
    else if m = .dusk then .next s.enterDusk
    else if m = .service ∧ s.fld Reg.pwrDuskStat 31 29 = 0 then .next s.beginDrain
    else .next s
  | none =>
    if s.degrades ∧ s.tb % s.lapTicks = 0 then .next s.enterDegraded else .next s

/-- Records still held at the limit are discarded and counted, their entries freed (R523). -/
def State.discardHeld (s : State) : State :=
  let n := sumNat (s.host.cq.map (fun p => p.2.held.length))
  let ts := (s.sta.tasks.filter (fun p => p.2.st = .settled)).map (fun p => p.1)
  let s1 := ts.foldl (fun s t => s.updTask t (fun _ => Task.empty)) s
  let s2 := (List.range 64).foldl (fun s q => if (s.cq q).held.isEmpty then s else s.updCq q (fun c => { c with held := [] })) s1
  s2.setFld Reg.pwrDuskStat 7 0 (Nat.min 255 (s2.fld Reg.pwrDuskStat 7 0 + n))

/-- Post is over: Test begins, or SERVICE is entered (R525, R532). -/
def State.afterPost (s : State) : State :=
  if s.mode = .dusk then
    { s.setFld Reg.pwrDuskStat 31 29 3 with blk := { s.blk with voided := s.bit Reg.supStat 0 || s.bit Reg.supStat 1 } }
  else s.drainToService

/-- POST (R523): it ends when no entry is SETTLED, or 64 ms after Drain. -/
def execPost (s : State) : Res :=
  if s.fld Reg.pwrDuskStat 31 29 ≠ 2 then .next s
  else if !s.sta.tasks.any (fun p => p.2.st = .settled) then .next s.afterPost
  else if s.duskLap * s.lapTicks + 64000000 ≤ s.tb then .next s.discardHeld.afterPost
  else .next s

/-- TEST (R525 to R530): both waves are complete. -/
def execTest (signatures : List (Nat × BitVec 64)) (badBanks : List Nat) (s : State) : Res :=
  if s.mode = .dusk ∧ s.fld Reg.pwrDuskStat 31 29 = 3 then
    .next ((s.selfTest signatures badBanks).setFld Reg.pwrDuskStat 31 29 4)
  else .next s

/-- Every engine is re-initialised, and its Home Bank zeroed (R531); requests that still wait there are lost. -/
def State.clearEngines (s : State) : State :=
  let inBank := fun (o : Nat) => (Nat.ble 0x280000000000 o) && (Nat.blt o 0x280008000000)
  let gone := s.m.memq.filter (fun r => inBank r.off)
  let s1 := gone.foldl (fun s r => s.loseReq r) { s with m := { s.m with memq := s.m.memq.filter (fun r => !inBank r.off) } }
  { s1 with
    engines := s1.engines.filter (fun p => 512 ≤ p.1)
    m := { s1.m with
      mem := s1.m.mem.filter (fun p => !inBank p.1)
      health := s1.m.health.filter (fun p => !inBank (p.1 * 8)) } }

/-- RECORD (R531). -/
def execRecord (s : State) : Res :=
  if s.mode = .dusk ∧ s.fld Reg.pwrDuskStat 31 29 = 4 then
    let s1 := s.clearEngines
    let void := s1.bit Reg.pwrDuskStat 8
    let s2 := if s1.blk.unsaved && !void then s1.writeBadblock else s1
    let s3 := s2.writeShutdown (!void)
    let s4 :=
      if s3.host.duskCmd then
        (s3.mboxRsp [BitVec.ofNat 32 (s3.fld Reg.pwrDuskStat 28 19), BitVec.ofNat 32 (s3.fld Reg.pwrDuskStat 18 9)]).mboxEnd 2
      else s3
    .next (s4.setFld Reg.pwrDuskStat 31 29 0)
  else .next s

/-! ### REDAWN (R515) -/

/-- A write of DEV_CTL: outside SERVICE, and without REDAWN, nothing; else HOLD and then DAWN, where nothing holds the part. -/
def State.devCtlWrite (s : State) (v : BitVec 32) : State :=
  if s.mode = .service && v.getLsbD 0 then { s.enterHold.tryLeave with replayFlag := v.getLsbD 1 } else s

end Sys2Proof.Machine
end

