-- ==== Sys2Proof/Machine/MgmtCmd.lean ====
section
/-!
DEFINITION. Management accesses of the register window as commands (R7, R12 to R14, R515, R516, R554): REGISTER_WRITE,
RC_READ, LOW_HALF_READ, LOW_HALF_WRITE, HIGH_HALF_WRITE, REDAWN, REPLAY, READ, PROGRAM and ERASE.
-/
namespace Sys2Proof.Machine

/-- A management write of a register word by master `m`, wherever it lies. In a replay STA_ADMIT_CTRL follows the log
alone (R554). -/
def State.mgmtWrite (s : State) (m off : Nat) (v : BitVec 32) : State :=
  s.gate m off v (fun s =>
    if off = 8 then s.devCtlWrite v
    else if off = 0x301000 && s.actMode = .replay then s
    else s.regWrite false m off v)

/-- REGISTER_WRITE (R7, R12). -/
def execRegisterWrite (m off : Nat) (v : BitVec 32) (bytes : Nat) (s : State) : Res :=
  if s.accessOk m off bytes then .next (s.mgmtWrite m off v) else .next (s.noAccess m off)

/-- A management read: its data go out to the master (R7, R12, R13). -/
def State.mgmtRead (s : State) (m off : Nat) : State :=
  let x := s.readReg m off
  x.1.emit (.regData m off x.2)

/-- RC_READ (R7, R12). -/
def execRcRead (m off bytes : Nat) (s : State) : Res :=
  if s.accessOk m off bytes then .next (s.mgmtRead m off) else .next (s.noRead m off)

/-- LOW_HALF_READ (R13). -/
def execLowHalfRead (m off : Nat) (s : State) : Res :=
  if !s.accessOk m off 4 then .next (s.noRead m off)
  else if half64 off = some 0 then .next (s.mgmtRead m off)
  else .next s

/-- LOW_HALF_WRITE (R14). -/
def execLowHalfWrite (m off : Nat) (v : BitVec 32) (s : State) : Res :=
  if s.accessOk m off 4 ∧ half64 off = some 0 then .next (s.mgmtWrite m off v) else .next (s.noAccess m off)

/-- HIGH_HALF_WRITE (R14). -/
def execHighHalfWrite (m off : Nat) (v : BitVec 32) (s : State) : Res :=
  if s.accessOk m off 4 ∧ half64 off = some 4 then .next (s.mgmtWrite m off v) else .next (s.noAccess m off)

/-- REDAWN (R515): a write of DEV_CTL with REDAWN 1. -/
def execRedawn (m : Nat) (v : BitVec 32) (s : State) : Res :=
  if s.accessOk m 8 4 then .next (s.mgmtWrite m 8 (v ||| 1))
  else .next (s.noAccess m 8)

/-- REPLAY (R515): a write of DEV_CTL with REPLAY 1; without REDAWN it has no effect. -/
def execReplay (m : Nat) (v : BitVec 32) (s : State) : Res :=
  if s.accessOk m 8 4 then .next (s.mgmtWrite m 8 (v ||| 2))
  else .next (s.noAccess m 8)

/-- READ (R516). -/
def execFlashRead (m : Nat) (s : State) : Res :=
  if s.accessOk m 0x100014 4 then .next (s.mgmtWrite m 0x100014 1)
  else .next (s.noAccess m 0x100014)

/-- PROGRAM (R516). -/
def execFlashProgram (m : Nat) (s : State) : Res :=
  if s.accessOk m 0x100014 4 then .next (s.mgmtWrite m 0x100014 2)
  else .next (s.noAccess m 0x100014)

/-- ERASE (R516). -/
def execFlashErase (m : Nat) (s : State) : Res :=
  if s.accessOk m 0x100014 4 then .next (s.mgmtWrite m 0x100014 3)
  else .next (s.noAccess m 0x100014)

end Sys2Proof.Machine
end

