-- ==== Sys2Proof/Machine/MemInstr.lean ====
section
/-!
DEFINITION. The scalar memory instructions (spec/03_sequencer_isa.md, R88 to R92, R106): PUSH, POP, LDSD, STSD and rows 0x6
and 0x7.
-/
namespace Sys2Proof.Machine

/-! ### Where they access -/

/-- The address of a row 0x6 instruction (R89). -/
def Arch.eaI (a : Arch) (p : Pfx) (f : FmtI) : W64 :=
  (a.addrI f.a.toNat ((pInfo p).imm p.ext 14 f.imm.toNat true)).va

/-- The address and register update of a row 0x7 instruction (R90). -/
def Arch.eaX (a : Arch) (p : Pfx) (f : FmtX) : Addr :=
  a.addrX f.mode.toNat f.a.toNat f.b.toNat f.sc.toNat ((pInfo p).imm p.ext 12 f.imm.toNat (f.mode ≠ 4))

/-- The cause of a row 0x7 instruction's fields; `loadsG` says that it writes G[T] (R88, R90, R91). -/
def causeX (p : Pfx) (f : FmtX) (loadsG : Bool) : Nat :=
  if modeBad f.mode.toNat f.a.toNat f.b.toNat || (pInfo p).immBad f.imm.toNat then 0x06
  else if loadsG && modeUpdates f.mode.toNat f.a.toNat f.b.toNat = some f.t.toNat then 0x07
  else 0

/-- A store of engine `e`; the Steward's stores to its part's registers are management writes by master 39 (Table 9.8). -/
def State.store (s : State) (e : Nat) (va : W64) (bs : List Byte) (adj : Arch → Arch) : Act :=
  s.storeOp e va bs adj (fun s off v => if s.accessOk 39 off 4 then s.mgmtWrite 39 off v else s)

/-- A load of row 0x6: `n` bytes into T of a register file (0 G, 1 F, 2 Q). -/
def State.loadI (s : State) (e : Nat) (p : Pfx) (op : Nat) (f : FmtI) (n : Nat) (sext : Bool) (file : Nat) : State :=
  s.scalar e p op (fun _ => immCause p f.imm.toNat) (fun _ => some 1) (fun s =>
    s.loadOp e ⟨(s.eng e).arch.eaI p f, n, sext, file, f.d.toNat, none, pLen p op⟩)

/-- A store of row 0x6: the `n` low bytes of the value `v`. -/
def State.storeI (s : State) (e : Nat) (p : Pfx) (op : Nat) (f : FmtI) (n : Nat) (v : Arch → Nat) : State :=
  s.scalar e p op (fun _ => immCause p f.imm.toNat) (fun _ => some 1) (fun s =>
    let a := (s.eng e).arch
    s.store e (a.eaI p f) (leBytes n (v a)) id)

/-- A load of row 0x7. -/
def State.loadX (s : State) (e : Nat) (p : Pfx) (op : Nat) (f : FmtX) (n : Nat) (sext : Bool) (file : Nat) : State :=
  s.scalar e p op (fun _ => causeX p f (file = 0)) (fun _ => some 1) (fun s =>
    let x := (s.eng e).arch.eaX p f
    s.loadOp e ⟨x.va, n, sext, file, f.t.toNat, x.upd, pLen p op⟩)

/-- A store of row 0x7: the value is read before the update (R91). -/
def State.storeX (s : State) (e : Nat) (p : Pfx) (op : Nat) (f : FmtX) (n : Nat) (v : Arch → Nat) : State :=
  s.scalar e p op (fun _ => causeX p f false) (fun _ => some 1) (fun s =>
    let a := (s.eng e).arch
    let x := a.eaX p f
    s.store e x.va (leBytes n (v a)) (fun a => a.applyUpd x.upd))

/-- Operand width in bytes (R92). -/
def bytesW (p : Pfx) : Nat := (pInfo p).w / 8

/-! ### Row 0x1 -/

/-- The cause of PUSH and POP. -/
def causeStack (f : FmtG) : Nat := if f.sub ≠ 0 then 0x06 else if f.g = 31 then 0x07 else 0

/-- PUSH (R106). -/
def execPush (e : Nat) (p : Pfx) (f : FmtG) (s : State) : Res :=
  .next (s.scalar e p 0x12 (fun _ => causeStack f) (fun _ => none) (fun s =>
    let a := (s.eng e).arch
    s.store e (a.rdG 31 - 8) (leBytes 8 (a.rdG f.g.toNat).toNat) (fun a => a.wrG 31 (a.rdG 31 - 8))))

/-- POP (R106). -/
def execPop (e : Nat) (p : Pfx) (f : FmtG) (s : State) : Res :=
  .next (s.scalar e p 0x13 (fun _ => causeStack f) (fun _ => none) (fun s =>
    let a := (s.eng e).arch
    s.loadOp e ⟨a.rdG 31, 8, false, 0, f.g.toNat, some (31, a.rdG 31 + 8), pLen p 0x13⟩))

/-- A long-vector instruction that is not complete uses the stream register. -/
def State.streamBusy (s : State) (e c : Nat) : Bool := (s.eng e).vinsts.any (fun v => (s.streamsOf e v).contains c)

/-- LDSD (R106). -/
def execLdsd (e : Nat) (p : Pfx) (f : FmtG) (s : State) : Res :=
  .next (s.scalar e p 0x1C (fun _ => 0) (fun _ => none) (fun s =>
    if s.streamBusy e f.sub.toNat then .wait
    else s.loadOp e ⟨(s.eng e).arch.rdG f.g.toNat, 32, false, 3, f.sub.toNat, none, pLen p 0x1C⟩))

/-- STSD (R106). -/
def execStsd (e : Nat) (p : Pfx) (f : FmtG) (s : State) : Res :=
  .next (s.scalar e p 0x1D (fun _ => 0) (fun _ => none) (fun s =>
    if s.streamBusy e f.sub.toNat then .wait
    else
      let a := (s.eng e).arch
      s.store e (a.rdG f.g.toNat) (SMap.get Desc.zero a.str f.sub.toNat).bytes id))

/-! ### Row 0x6 -/

/-- LD (R106). -/
def execLd (e : Nat) (p : Pfx) (f : FmtI) (s : State) : Res := .next (s.loadI e p 0x60 f (bytesW p) false 0)

/-- LDS (R106). -/
def execLds (e : Nat) (p : Pfx) (f : FmtI) (s : State) : Res := .next (s.loadI e p 0x61 f (bytesW p) true 0)

/-- ST (R106). -/
def execSt (e : Nat) (p : Pfx) (f : FmtI) (s : State) : Res :=
  .next (s.storeI e p 0x62 f (bytesW p) (fun a => (a.rdG f.d.toNat).toNat))

/-- LDF (R106). -/
def execLdf (e : Nat) (p : Pfx) (f : FmtI) (s : State) : Res := .next (s.loadI e p 0x63 f (bytesW p) false 1)

/-- STF (R106). -/
def execStf (e : Nat) (p : Pfx) (f : FmtI) (s : State) : Res :=
  .next (s.storeI e p 0x64 f (bytesW p) (fun a => (a.rdQ f.d.toNat).toNat))

/-- LDQ (R106). -/
def execLdq (e : Nat) (p : Pfx) (f : FmtI) (s : State) : Res := .next (s.loadI e p 0x65 f 16 false 2)

/-- STQ (R106). -/
def execStq (e : Nat) (p : Pfx) (f : FmtI) (s : State) : Res :=
  .next (s.storeI e p 0x66 f 16 (fun a => (a.rdQ f.d.toNat).toNat))

/-- LEA (R89, R106). -/
def execLea (e : Nat) (p : Pfx) (f : FmtI) (s : State) : Res :=
  .next (s.regOp e p 0x67 (immCause p f.imm.toNat) (fun _ => some 1) (fun a => .ok (a.wrG f.d.toNat (a.eaI p f))))

/-! ### Row 0x7 -/

/-- LDX (R106). -/
def execLdx (e : Nat) (p : Pfx) (f : FmtX) (s : State) : Res := .next (s.loadX e p 0x70 f (bytesW p) false 0)

/-- LDSX (R106). -/
def execLdsx (e : Nat) (p : Pfx) (f : FmtX) (s : State) : Res := .next (s.loadX e p 0x71 f (bytesW p) true 0)

/-- STX (R106). -/
def execStx (e : Nat) (p : Pfx) (f : FmtX) (s : State) : Res :=
  .next (s.storeX e p 0x72 f (bytesW p) (fun a => (a.rdG f.t.toNat).toNat))

/-- LDFX (R106). -/
def execLdfx (e : Nat) (p : Pfx) (f : FmtX) (s : State) : Res := .next (s.loadX e p 0x73 f (bytesW p) false 1)

/-- STFX (R106). -/
def execStfx (e : Nat) (p : Pfx) (f : FmtX) (s : State) : Res :=
  .next (s.storeX e p 0x74 f (bytesW p) (fun a => (a.rdQ f.t.toNat).toNat))

/-- LDQX (R106). -/
def execLdqx (e : Nat) (p : Pfx) (f : FmtX) (s : State) : Res := .next (s.loadX e p 0x75 f 16 false 2)

/-- STQX (R106). -/
def execStqx (e : Nat) (p : Pfx) (f : FmtX) (s : State) : Res :=
  .next (s.storeX e p 0x76 f 16 (fun a => (a.rdQ f.t.toNat).toNat))

/-- LEAX (R90, R106). -/
def execLeax (e : Nat) (p : Pfx) (f : FmtX) (s : State) : Res :=
  .next (s.regOp e p 0x77 (causeX p f true) (fun _ => some 1) (fun a =>
    let x := a.eaX p f
    .ok ((a.applyUpd x.upd).wrG f.t.toNat x.va)))

end Sys2Proof.Machine
end

