-- ==== Sys2Proof/Machine/Boundary.lean ====
section
/-!
DEFINITION. The Lap boundary, the release at cycle 1,024 and the tick of an empty queue: what happens at cycle 0 of every
boundary (spec/02, R36 to R61; spec/11, R363, R379 to R384; spec/12, R397 to R417; spec/13, R444, R447; spec/16, R522;
spec/17, R548, R555, R558). The commands LAP_BOUNDARY and RELEASE.
-/
namespace Sys2Proof.Machine

/-! ### Before the boundary -/

/-- Entries of a replayed Lap that have not taken effect yet do so before the Lap ends (R554). -/
def State.finishEnts (s : State) : State :=
  match s.recd.play with
  | none => s
  | some b => b.ents.foldl (fun s _ => s.nextEnt) s

/-- Work of the closing Lap that no command has done: its digests, its log entries, a booking move (R64, R406). -/
def State.closeLap (s : State) : State :=
  let s1 := s.closeDigests.finishEnts
  if s1.sta.moving then
    let es := (s1.blk.badEngine.filter (fun p => p.2)).map (fun p => p.1)
    let s2 := es.foldl (fun s e => s.moveBookings e) s1
    { s2 with sta := { s2.sta with moving := false } }
  else s1

/-! ### Record Unit and replay (R548, R555, R556) -/

/-- The blocks of a recording and of a replay move on as Lap `n` has closed. -/
def State.rollRecord (s : State) (n : Nat) : State :=
  let s1 := (s.sealBlock.rollLog n).compareLap
  let p := s1.recd.play.map (fun (b : PlayBlk) => { b with made := s1.sta.decisions })
  let s2 : State := { s1 with
    recd := { s1.recd with prev := p, play := none }
    sta := { s1.sta with decisions := [] } }
  if s2.mode ≠ .replay then s2
  else
    let s3 := if s2.recd.ending then s2 else s2.loadBlock
    if s3.recd.ending ∧ s3.pendMode = none then { s3 with pendMode := some (.dusk, s3.lap) } else s3

/-! ### The mirrored pair at cycle 0 (R397, R400, R404, R407, R408, R411, R447, R507) -/

/-- The READY report: for each source part and VC the highest ESEQ up to which every flit is here (R400). -/
def State.readyEntries (s : State) : List ReadyEntry :=
  ((s.ring.rx2e.filter (fun p => p.1 < 128 && p.1 % 4 < 3)).map (fun p => ⟨p.1 / 4, p.1 % 4, p.2.last⟩))

/-- An entry in its 32 bits (Table 12.3). -/
def ReadyEntry.code (x : ReadyEntry) : Nat := x.src % 32 * 2 ^ 27 + x.vc % 4 * 2 ^ 25 + x.eseq.toNat * 2 ^ 13

/-- Lists of at most `k` elements, one after the other; `fuel` bounds their number. -/
def chunks {α : Type} (k : Nat) : Nat → List α → List (List α)
  | 0, _ => []
  | fuel + 1, l => if l.isEmpty then [] else l.take k :: chunks k fuel (l.drop k)

/-- The words of a READY packet (Table 12.3). -/
def readyWords (lap : Nat) (es : List ReadyEntry) : List W64 :=
  let w := (chunks 2 64 es).map (fun p =>
    BitVec.ofNat 64 ((p.head?.map ReadyEntry.code).getD 0 + ((p.drop 1).head?.map ReadyEntry.code).getD 0 * 2 ^ 32))
  [BitVec.ofNat 64 lap, 0] ++ w ++ List.replicate ((w.length) % 2) 0

/-- READY goes to the partner; the packets of one report hold at most 56 entries each. -/
def State.sendReady (s : State) : State :=
  let es := s.readyEntries
  let cs := if es.isEmpty then [[]] else chunks 56 8 es
  let s1 := cs.foldl (fun s c => s.sendPair 0x7 (readyWords s.lap c)) s
  { s1 with pair := { s1.pair with readyTx := es } }

/-- EVENTS and LAPEND of Lap `n` go to the Pacer (R397, R404). -/
def State.sendLapEnd (s : State) (n : Nat) : State :=
  if !s.forwarding then s
  else
    let f := s.allFlags.toNat
    (s.sendPair 0x4 ([BitVec.ofNat 64 n, 0] ++ (List.range 4).map (fun i => BitVec.ofNat 64 (f / 2 ^ (64 * i))))).sendPair
      0x5 [BitVec.ofNat 64 n, BitVec.ofNat 64 (s.pair.taken % 2 ^ 32)]

/-- The flags recorded at the end of the Lap: this part's own, but on a Pacer, which gets the Lead's, and in a replay, which
gets the log's (R447). -/
def State.recordFlags (s : State) : State :=
  let own : Bool := !s.pacer && s.mode ≠ .replay
  { s with pair := { s.pair with
      recorded := if own then s.allFlags else s.pair.recorded, cleared := 0, taken := 0 } }

/-- TEND digests without a counterpart at cycle 0 of the second boundary after the TEND count as mismatches (R407). -/
def State.lateTends (s : State) : State :=
  let old := s.pair.tends.filter (fun (t : Tendd) => t.lap + 2 ≤ s.lap)
  { s with pair := { s.pair with
      tends := s.pair.tends.filter (fun (t : Tendd) => s.lap < t.lap + 2)
      diffTasks := s.pair.diffTasks ++ old.map (fun (t : Tendd) => (t.lap, t.tti)) } }

/-- The decision on mismatches of Lap n at cycle 0 of Lap n + 3 (R408). -/
def State.judgeDigests (s : State) : State :=
  let due := fun (p : Nat × Nat) => Nat.ble (p.1 + 3) s.lap
  let ds := s.pair.diff.filter due
  let ts := s.pair.diffTasks.filter due
  let s1 := { s with pair := { s.pair with
    diff := s.pair.diff.filter (fun p => !due p)
    ran := s.pair.ran.filter (fun (x : Nat × Nat × Nat × Nat) => s.lap < x.1 + 3) } }
  if ds.isEmpty && ts.isEmpty then s1
  else if s.pair.ident.isSome then s1
  else
    let hit := s.pair.ran.filter (fun (x : Nat × Nat × Nat × Nat) =>
      ds.contains (x.1, x.2.1) && (s.task x.2.2.1).epoch = x.2.2.2)
    let s2 := { s1 with pair := { s1.pair with diffTasks := s1.pair.diffTasks.filter (fun p => !due p) } }
    let s3 := (hit.map (fun (x : Nat × Nat × Nat × Nat) => x.2.2.1) ++ ts.map (fun p => p.2)).foldl (fun s t => s.fail t 0x04) s2
    (s3.fault 0x11 (originOf s3.pos 7 0) 0 0 0 0).add64 Reg.pairCntDiverge 1

/-- PAIR_LOST is decided at cycle 0 of Lap d + 2: with no identifying record the Trail ring is fenced (R411). -/
def State.judgePairLost (s : State) : State :=
  match s.pair.lostLap with
  | none => s
  | some d =>
    if s.lap < d + 2 then s
    else
      let s1 := { s with pair := { s.pair with lostLap := none } }
      if s1.pair.ident.isSome || !s1.mirroredNow then s1
      else s1.fixHandoff (s1.mkRec 0x0F 2 (originOf s1.pos 5 2) 0 0 0 0) true

/-- The pair's work at cycle 0 of the boundary that ends Lap `n`. -/
def State.pairBoundary (s : State) (n : Nat) : State :=
  let s1 := s.sendLapEnd n
  let s2 := (if s1.mirroredNow then s1.sendReady else s1).recordFlags
  if !s2.mirroredNow then s2
  else
    let s3 := s2.lateTends.judgeDigests.judgePairLost
    if s3.lap = s3.runLap + 1 ∧ s3.lts 2 ≠ 6 then s3.pairLost else s3

/-! ### Engines and Tasks (R37, R56 to R61) -/

/-- An engine stops issuing. The excess over its engine cycles is recorded, and its cycles join the Task's total. -/
def State.stopAtBoundary (s : State) (e : Nat) : State :=
  match (s.eng e).place with
  | none => s
  | some p =>
    if (s.eng e).hung then s
    else
      let s1 := if !p.isOpen && p.restored && p.budget.cyc ≤ p.cyc then s.setOvr p.tti 0 else s
      ((s1.stopIssue e).chargeCyc e).updEng e (fun x => { x with place := x.place.map (fun q => { q with cyc := 0 }) })

/-- An engine holds a placement of the Task. -/
def State.heldBy (s : State) (tti : Nat) : Bool :=
  s.engines.any (fun p => p.1 < 512 && (match p.2.place with | some q => q.tti = tti | none => false))

/-- Place an Open Task in the queue by its order of acceptance (R60). -/
def State.requeue (s : State) (tti : Nat) : State :=
  let k := (s.task tti).order
  let older := s.sta.openq.filter (fun t => (s.task t).order < k)
  let newer := s.sta.openq.filter (fun t => t ≠ tti && k ≤ (s.task t).order)
  { s with sta := { s.sta with openq := older ++ tti :: newer } }.updTask tti (fun t => { t with st := .queued })

/-- Laps from the present one on whose rows book the Task. -/
def State.lapsBooked (s : State) (tti : Nat) : Nat :=
  (s.sta.rows.filter (fun p => s.lap ≤ p.1 && p.2.plc.any (fun b => b.tti = tti && !b.taken))).length

/-- What the boundary that ends a Lap does to a Task (R57 to R61). A Task whose TEND has retired waits for its counterpart
(R407); one that a fault has stopped waits for its re-run. -/
def State.taskBoundary (s : State) (tti : Nat) : State :=
  let t := s.task tti
  if t.st = .free || t.st = .settled || t.st = .queued || s.flt.rerun.any (fun p => p.1 = tti) then s
  else if t.ovr ≠ 0 then
    (if t.cls ≠ 2 && !t.ended && s.lapsBooked tti = 0 then s.setOvr tti 0 else s).settle tti .overrun 0 0
  else if t.ended then s
  else if t.cls = 2 then
    if !s.heldBy tti then s
    else if t.cv.cyc * (t.cv.span + 1) < t.cyc then s.settle tti .overrun 0 0
    else if t.cancelReq then s.settle tti .cancelled 0 0
    else s.requeue tti
  else if t.st = .running ∧ !s.heldBy tti then s
  else if s.lapsBooked tti = 0 then (s.setOvr tti 0).settle tti .overrun 0 0
  else if t.cancelReq then s.settle tti .cancelled 0 0
  else s.updTask tti (fun x => { x with lapsLeft := s.lapsBooked tti })

/-- The Ledger rolls (R40): rows before the present Lap go, and the row 256 Laps ahead opens. -/
def State.rollLedger (s : State) : State :=
  let s1 := { s with sta := { s.sta with rows := s.sta.rows.filter (fun p => s.lap ≤ p.1) } }
  if s1.mode.running || s1.mode = .dusk then s1.openAt (s1.lap + 256) else s1

/-- Engines stop, Tasks get the outcome the Lap's end gives them, and the Ledger rolls. -/
def State.starterBoundary (s : State) : State :=
  let s1 := (s.listed.filter (fun e => e < 512)).foldl (fun s e => s.stopAtBoundary e) s
  let s2 := (s1.sta.tasks.map (fun p => p.1)).foldl (fun s t => s.taskBoundary t) s1
  s2.rollLedger

/-! ### Counts of a Lap (R43, R281, R293, R338, R362, R363, R421, R431, R444, R457, R558) -/

/-- A key of a Lap's counts whose Lap is the one that begins or the one before. -/
def freshKey (m : Nat) (k : Nat) : Bool := k % 256 = m % 256 || (k + 1) % 256 = m % 256

/-- Counters and marks that a Lap begins anew. -/
def State.resetCounts (s : State) : State :=
  let m := s.lap
  let s1 := (s.listed.filter (fun e => e < 512)).foldl (fun s e => s.setFld (Reg.enResStat e) 6 0 0) s
  let s2 := { s1 with
    evt := { s1.evt with count := [] }
    m := { s1.m with spread := [], charged := s1.m.charged.filter (fun p => p.1 % 2 ≠ m % 2) }
    ring := { s1.ring with
      sentLap := s1.ring.sentLap.filter (fun p => freshKey m p.1)
      rspLap := s1.ring.rspLap.filter (fun p => freshKey m p.1) }
    flt := { s1.flt with keys := [] } }
  (s2.countPinLaps.setBit Reg.recPmcCtl 1 (s2.bit Reg.recPmcCtl 0)).fireCode 0x0C1 s2.hubNow

/-- Invalidations of an earlier boundary act on the engines that have made no sweep of it, and are done with (R338). -/
def State.applyTlbi (s : State) : State :=
  let due := s.tlbi.filter (fun t => t.1 < s.lap)
  if due.isEmpty then s
  else
    { s with
      engines := SMap.remap Engine.init (fun e x => if e < 512 then x.applyDue (s.lap - 1) due else x) s.engines
      tlbi := s.tlbi.filter (fun t => s.lap ≤ t.1) }

/-- A link that has replayed more than 64 flits in two Laps running is lost (R363, R377). -/
def State.replayRate (s : State) (p : Nat) : State :=
  let x := s.port p
  let s1 := if s.lts p = 6 ∧ 64 < x.replays ∧ 64 < x.replaysPrev then s.linkLost p else s
  s1.updPort p (fun y => { y with replaysPrev := y.replays, replays := 0 })

/-! ### Route switches (R379 to R384) -/

/-- The spans that a switch names: several across a closed bypass. -/
def Switch.spans (p : Nat) (x : Switch) : List Nat := if p = 0 then [] else arcCw p (x.span / 32 % p) (x.span % 32 % p)

/-- A Task fails at a break: it names a lost part, or with WRAPSAFE 0 it is booked and uses the ring (Table 2.9). -/
def State.failAtBreak (s : State) (lost : List Nat) (breaks : Bool) : State :=
  if s.mirroredNow then s
  else
    let unsafe_ := breaks && !s.bit Reg.staAdmitCtrl 2
    let hit := fun (t : Task) =>
      t.st ≠ .free && t.st ≠ .settled &&
        t.cv.parts.any (fun x => lost.contains x.part || (unsafe_ && t.cls ≠ 2 && x.ring ≠ 0))
    ((s.sta.tasks.filter (fun p => hit p.2)).map (fun p => p.1)).foldl (fun s t => s.fail t 0x07) s

/-- Part `q` joins RING_LOST: every outstanding transaction with it completes (R382). -/
def State.losePart (s : State) (q : Nat) : State :=
  let reqs := s.ring.reqs.filter (fun (r : RemoteReq) => r.part = q)
  let wrs := s.ring.remote.filter (fun (r : Remote) => r.part = q)
  let s1 := { s with
    ring := { s.ring with
      reqs := s.ring.reqs.filter (fun (r : RemoteReq) => r.part ≠ q)
      remote := s.ring.remote.filter (fun (r : Remote) => r.part ≠ q)
      tx2e := s.ring.tx2e.filter (fun x => 128 ≤ x.1 || x.1 / 4 ≠ q)
      rx2e := s.ring.rx2e.filter (fun x => 128 ≤ x.1 || x.1 / 4 ≠ q)
      draining := s.ring.draining.filter (fun d => d ≠ q)
      drainHeld := s.ring.drainHeld.filter (fun f => f.dst.toNat ≠ q)
      rsp := s.ring.rsp.filter (fun x => x.1 / 1024 ≠ q)
      wdata := s.ring.wdata.filter (fun x => x.1 / 4096 ≠ q)
      predUse := s.ring.predUse.filter (fun x => x.1 ≠ q) }
    pair := { s.pair with hold := s.pair.hold.filter (fun h => h.1.src.toNat ≠ q) } }
  let s2 := reqs.foldl (fun s r => s.answerReq r 3 []) s1
  let s3 := wrs.foldl (fun s (r : Remote) => if r.e < 512 then s.errTo r.e r.epoch 1 r.va else s) s2
  (s3.add64 Reg.ringCntDrop (s.ring.drainHeld.filter (fun f => f.dst.toNat = q)).length).fault 0x0C (originOf q 7 0) 0 0 0 0

/-- Waiting flits of a ring port: those to a lost part are dropped, those to a part whose route changed are held. -/
def State.sortInject (s : State) (lost changed : List Nat) (p : Nat) : State :=
  let x := s.port p
  let bound := fun (l : List Nat) (f : Flit) => l.contains f.dst.toNat
  let gone := (x.inject.filter (bound lost)).length
  let s1 := s.setPort p { x with inject := x.inject.filter (fun f => !bound lost f && !bound changed f) }
  ({ s1 with ring := { s1.ring with drainHeld := s1.ring.drainHeld ++ x.inject.filter (bound changed) } }).add64 Reg.ringCntDrop gone

/-- The switches whose Lap begins: joins leave the broken set and breaks enter it, and the routes are computed anew. -/
def State.routeSwitch (s : State) : State :=
  let due := s.ring.switches.filter (fun (x : Switch) => x.lap ≤ s.lap)
  let p := s.ringSize
  if due.isEmpty || p = 0 then s
  else
    let s0 := { s with ring := { s.ring with switches := s.ring.switches.filter (fun (x : Switch) => s.lap < x.lap) } }
    let joins := due.filter (fun (x : Switch) => x.joins)
    let breaks := due.filter (fun (x : Switch) => !x.joins)
    let mark := fun (v : Bool) (s : State) (x : Switch) => (x.spans p).foldl (fun s k => s.setBit Reg.ringBroken k v) s
    let s1 := breaks.foldl (mark true) (joins.foldl (mark false) s0)
    let back := joins.flatMap (fun (x : Switch) => [x.span / 32, x.span % 32])
    let s2 := s1.reroute back
    let others := (List.range p).filter (fun n => n ≠ s.pos)
    let dir := fun (t : State) (n : Nat) => (routeOf p t.brokenSpans s.pos n).map (fun w => w.1)
    let changed := others.filter (fun n => (dir s n).isSome && (dir s2 n).isSome && dir s n != dir s2 n)
    let lost := others.filter (fun n => s2.bit Reg.ringLost n && !s.bit Reg.ringLost n)
    let s3 := [0, 1].foldl (fun s q => s.sortInject lost changed q) s2
    let s4 := if changed.isEmpty then s3 else
      { s3 with ring := { s3.ring with draining := (s3.ring.draining ++ changed).eraseDups } }.setBit Reg.ringStat 18 true
    let s5 := (lost.foldl (fun s q => s.losePart q) s4).failAtBreak lost (!breaks.isEmpty)
    s5.add64 Reg.ringCntSwitch 1

/-! ### DONE and retired epochs (R376, R416, R417) -/

/-- The Laps of the Open requests that this part has issued and that are outstanding; one to another part counts until it has
left with its class. -/
def State.openLaps (s : State) : List Nat :=
  ((s.m.memq.filter (fun r => r.src.part = s.pos && !r.booked)).map (fun r => r.lap)) ++
  ((s.ring.remote.filter (fun (r : Remote) => r.isOpen || !r.sent)).map (fun r => r.lap)) ++
  ((s.ring.reqs.filter (fun (r : RemoteReq) => r.isOpen || !r.sent)).map (fun r => r.lap)) ++
  ((s.m.expq.filter (fun r => r.src.part = s.pos && !r.booked)).map (fun r => r.lap))

/-- No Open request that this part issued in Lap `l` or earlier is outstanding. -/
def State.openDone (s : State) (l : Nat) : Bool := s.openLaps.all (fun k => decide (l < k))

/-- DONE is broadcast at the boundary that ends Lap `n` for the latest Lap up to `n` whose Open requests, and those before it,
have all been performed, unless it has been before (R376; DEDUCED, log 119). The part's own place in `doneLap` holds the Lap
last sent. -/
def State.sendDone (s : State) (n : Nat) : State :=
  let l := s.openLaps.foldl Nat.min (n + 1) - 1
  if s.ringSize ≠ 0 && s.runs && SMap.get 0 s.ring.doneLap s.pos < l then
    { s with ring := { s.ring with doneLap := SMap.set 0 s.ring.doneLap s.pos l } }.sendCtl [7, BitVec.ofNat 64 l]
  else s

/-- An entry of part `q` for Lap `f` may be freed: from cycle 0 of Lap f + 3 on, once its requests up to Lap f are done. -/
def State.mayFree (s : State) (q f : Nat) : Bool :=
  f + 3 ≤ s.lap &&
    (if q = s.pos then s.openDone f else s.bit Reg.ringLost q || f ≤ SMap.get 0 s.ring.doneLap q)

/-- Retired epochs and sweeps that are no longer needed are freed (R416, R417). -/
def State.freeRetired (s : State) : State :=
  { s with flt := { s.flt with
      retired := s.flt.retired.filter (fun (r : Retired) => !s.mayFree r.part r.lap)
      sweeps := s.flt.sweeps.filter (fun p => !s.mayFree p.1 p.2) } }

/-! ### The boundary (R37) -/

/-- The Drain of Dusk, or before SERVICE, ends after the last Lap that holds a booking (R522, R532). -/
def State.drainEnds (s : State) : State :=
  if s.fld Reg.pwrDuskStat 31 29 = 1 && !s.sta.rows.any (fun p => s.lap ≤ p.1 && !p.2.plc.isEmpty) then
    { s.setFld Reg.pwrDuskStat 31 29 2 with duskLap := s.lap }
  else s

/-- A cluster in Evening that the new Lap's row uses is back at Noon in time (R537). -/
def State.wakeEvening (s : State) : State :=
  (List.range 32).foldl (fun s c => if s.clState c = 1 && s.rowUses c s.lap then s.toNoon c else s) s

/-- The digests of the closed Lap are kept until they are complete; those of the new Lap begin (R406). -/
def State.rollDigests (s : State) : State :=
  let r := s.runs
  { s with pair := { s.pair with
      own := [], closed := !r, closeIn := s.pair.inCrc, closeDec := s.pair.decCrc, inCrc := 0, decCrc := 0
      rejoinLap := match s.pair.rejoinLap with
        | some c => if c + 15 ≤ s.lap && !s.bit Reg.pairStat 27 then none else some c
        | none => none } }

/-- A map of bad blocks with marks made in operation is written (R64, R300). -/
def State.saveMarks (s : State) : State :=
  if s.blk.unsaved && s.runs && s.stew.up && !s.stew.halted then s.writeBadblock else s

/-- The words of a forwarded input's packet (Table 12.3). -/
def Input.words (i : Input) : List W64 :=
  match i with
  | .hostcmd lap order _ _ r => [BitVec.ofNat 64 lap, BitVec.ofNat 64 order] ++ r.words
  | .hostwr _ line rd be d => hostwrWords (line * 64) rd be d
  | .regwr _ off v => [BitVec.ofNat 64 (off % 2 ^ 30), v.setWidth 64]

/-- The Lap in which an input was taken. -/
def Input.lap (i : Input) : Nat :=
  match i with
  | .hostcmd l _ _ _ _ | .hostwr l _ _ _ _ | .regwr l _ _ => l

/-- A released submission: on the Pacer's side its queue is the next in turn (R471). -/
def State.releaseCmd (s : State) (sq sqhead : Nat) (r : Rec64) : State :=
  if sq < 64 then s.present sq sqhead r
  else
    match s.nextSq with
    | none => s
    | some q =>
      let h := (s.sqHead q + 1) % s.sqSize q
      ({ s.setFld (Reg.hostSqCfg q) 23 12 h with host := { s.host with lastSq := q } } : State).present q h r

/-- An input takes effect on this side. -/
def State.releaseInput (s0 : State) (i : Input) : State :=
  let s := { s0 with pair := { s0.pair with inCrc := crc64More s0.pair.inCrc (wordBytes i.words) } }
  match i with
  | .hostcmd _ _ sq h r => s.releaseCmd sq h r
  | .hostwr _ line true _ _ => s.hostRead (line * 64) [] (!s.onTrail)
  | .hostwr _ line false be d => s.hostWrite (line * 64) be d
  | .regwr _ off v =>
    (if isDoorbell off then s else s.log 0x04 (off % 2 ^ 30) (v.setWidth 64) []).regWrite false 34 off v

/-- The TYPE of a forwarded input's packet (Table 12.3). -/
def Input.packet (i : Input) : Nat :=
  match i with
  | .hostcmd _ _ _ _ _ => 0x1
  | .hostwr _ _ _ _ _ => 0x2
  | .regwr _ _ _ => 0x3

/-- The same input, taken in Lap `l`. -/
def Input.inLap (i : Input) (l : Nat) : Input :=
  match i with
  | .hostcmd _ o q h r => .hostcmd l o q h r
  | .hostwr _ n rd be d => .hostwr l n rd be d
  | .regwr _ off v => .regwr l off v

/-- An input that has waited is offered again; where nothing is forwarded any more it takes effect (R398, R412). -/
def State.offerAgain (s : State) (i : Input) : State :=
  let j := i.inLap s.lap
  if s.forwarding then s.offer j j.packet j.words else s.releaseInput j

/-- The inputs that have waited for INPUT cells are offered again in the new Lap, in their order (R398, R479). -/
def State.offerWaiting (s : State) : State :=
  s.pair.waiting.foldl (fun s i => s.offerAgain i) { s with pair := { s.pair with waiting := [] } }

/-- What happens at cycle 0 of the Lap that begins. -/
def State.openLap (s : State) : State :=
  let n := s.lap - 1
  let s1 := ((s.rollRecord n).pairBoundary n).offerWaiting
  let s2 := s1.starterBoundary.resetCounts.applyTlbi
  let s3 := [0, 1, 2].foldl (fun s p => s.replayRate p) s2
  let s4 := ((s3.routeSwitch.sendDone n).freeRetired).drainEnds.wakeEvening.rollDigests.saveMarks
  { s4 with lastLap := s4.lap }

/-- Time passes to the next boundary, and the boundary's work is done. -/
def State.lapBoundary (s : State) : State :=
  if !s.windowUp || s.lapTicks = 0 then s
  else if s.lastLap < s.lap then s.openLap
  else (s.closeLap.advanceTime (s.lapTicks - s.tb % s.lapTicks)).openLap

/-- LAP_BOUNDARY (R37). -/
def execLapBoundary (s : State) : Res := .next s.lapBoundary

/-- The Mover copies the next 64 bytes of the part to the returning partner, from the write of PAIR_REJOIN until Lap c (R425):
one line a tick, passing unmapped offsets over in blocks of 256 KiB (DESIGN CHOICE, log 120). At the end the copy is complete
(SYNCED, Table 12.9). -/
def State.moverStep (s : State) : State :=
  match s.pair.rejoinLap with
  | none => s
  | some c =>
    let a := s.pair.copyAt
    let next := fun (s : State) (n : Nat) => ({ s with pair := { s.pair with copyAt := n } } : State)
    if c ≤ s.lap || s.heldAt a then s
    else if 2 ^ 46 ≤ a then s.setBit Reg.pairStat 24 true
    else if !(s.tier a).isMem then next s ((a / 2 ^ 18 + 1) * 2 ^ 18)
    else
      match s.readLocal (.master s.pos 38) a 64 with
      | (s1, .ok, _) => next (s1.copyOut ((List.range 64).map (fun i => a + i))) (a + 64)
      | (s1, .poison, _) | (s1, .unmapped, _) =>
        next { s1 with pair := { s1.pair with moverErr := true } } (a + 64)

/-- The tick of an empty queue, with the boundary where it is reached (DESIGN CHOICE, log 16): reads whose hold has ended are
answered, and the Mover goes on. -/
def State.idleTick (s : State) : State :=
  let s1 := if s.windowUp && (s.tb + 1) % s.lapTicks = 0 then s.closeLap.tick else s.tick
  (if s1.windowUp && s1.lastLap < s1.lap then s1.openLap else s1).releaseReads.moverStep

/-! ### The release at cycle 1,024 (R397, R399, R400, R404, R407, R412, R447) -/

/-- The inputs of earlier Laps, in the order in which the Lead took them. -/
def State.releaseInputs (s : State) : State :=
  let due := s.pair.inputs.filter (fun i => i.lap < s.lap)
  due.foldl (fun s i => s.releaseInput i)
    { s with pair := { s.pair with inputs := s.pair.inputs.filter (fun i => s.lap ≤ i.lap) } }

/-- An entry's ESEQ; none where the report does not name the source part and VC. -/
def reported (l : List ReadyEntry) (src vc : Nat) : Option (BitVec 12) :=
  (l.find? (fun (x : ReadyEntry) => x.src = src && x.vc = vc)).map (fun x => x.eseq)

/-- ESEQ `x` is at or before `r`. -/
def upTo (r x : BitVec 12) : Bool := (r - x).toNat < 2048

/-- A held flit is covered by both reports of this boundary; by this side's alone once the sides are divided. -/
def State.covered (s : State) (f : Flit) : Bool :=
  let by_ := fun (l : List ReadyEntry) =>
    match reported l f.src.toNat f.vc.toNat with
    | some r => upTo r f.eseq
    | none => false
  if !s.mirroredNow then true
  else
    match s.pair.readyRx with
    | some (l, es) => l = s.lap && by_ s.pair.readyTx && by_ es
    | none => false

/-- Held flits are released by source part, VC and ESEQ; then the expanders' late answers, in request order (R400). -/
def State.releaseHeld (s : State) : State :=
  let go := s.pair.hold.filter (fun h => s.covered h.1)
  let order := (List.range 128).flatMap (fun k => go.filter (fun h => h.1.src.toNat * 4 + h.1.vc.toNat = k))
  let s1 := { s with pair := { s.pair with hold := s.pair.hold.filter (fun h => !s.covered h.1) } }
  let s2 := order.foldl (fun (s : State) h =>
    (if h.2 + 1 < s.lap then s.add64 Reg.pairCntHeld 1 else s).deliverFlit 0 h.1) s1
  (s2.m.expq.filter (fun q => q.held.isSome)).foldl (fun s (q : ExpReq) => s.expAnswer q (q.held = some true)) s2

/-- PACE_SLIP (R400): the partner has reported a flit for two Laps that this side lacks. -/
def State.paceSlip (s : State) : State :=
  match s.pair.readyRx with
  | none => s
  | some (_, es) =>
    es.foldl (fun (s : State) (x : ReadyEntry) =>
      let k := x.src * 4 + x.vc
      let mine := (s.rxT k).last
      let put := fun (s : State) (v : Nat × BitVec 12) =>
        { s with pair := { s.pair with slip := SMap.set (0, 0) s.pair.slip k v } }
      let w := SMap.get (0, 0) s.pair.slip k
      if upTo mine x.eseq then put s (0, 0)
      else if w.1 = 0 || upTo mine w.2 then put s (s.lap, x.eseq)
      else if w.1 + 2 ≤ s.lap then (put s (s.lap, x.eseq)).fault 0x10 (originOf x.src 7 0) 0 0 0 0
      else s) s

/-- The packets that the boundary owes this side have not come by cycle 1,024 (R404). -/
def State.pairLate (s : State) : Bool :=
  let ready : Bool := match s.pair.readyRx with | some (l, _) => l = s.lap | none => false
  let lapend : Bool := match s.pair.lapendRx with | some (l, _) => l + 1 = s.lap | none => false
  s.mirroredNow && Nat.ble (s.runLap + 1) s.lap &&
    (if s.actMode = .lead then s.pair.rejoinLap.isNone && !ready else s.pacer && !(ready && lapend))

/-- Entries of posted records are FREE (R399). -/
def State.freeEntries (s : State) : State :=
  let due := s.pair.postedFree.filter (fun p => p.2 ≤ s.lap)
  due.foldl (fun s (p : Nat × Nat) => s.updTask p.1 (fun _ => Task.empty))
    { s with pair := { s.pair with postedFree := s.pair.postedFree.filter (fun p => s.lap < p.2) } }

/-- V takes the recorded flags, but for those that an engine has cleared since (R447). -/
def State.takeView (s : State) : State :=
  let v := s.pair.recorded &&& ~~~s.pair.cleared
  let s1 := { s with evt := { s.evt with view := v } }
  (List.range 256).foldl (fun s c => if v.getLsbD c then s.wake c else s) s1

/-- A survivor settles the Tasks held under R407 on their own digests; from Lap h on one of the Trail ring accepts
submissions, and the host learns of the Handoff first of all on CQ 0 (R412, R483). -/
def State.serveAlone (s : State) : State :=
  let own := (s.pair.tends.filter (fun (t : Tendd) => t.own)).map (fun (t : Tendd) => t.tti)
  let late := (s.pair.diffTasks.map (fun p => p.2)).filter (fun t => (s.task t).ended)
  let s1 := (own ++ late).foldl (fun s t => s.deliver t)
    { s with pair := { s.pair with tends := [], diffTasks := [], diff := [], ran := [] } }
  if s1.pair.ident.isNone || s1.lap < (s1.rd64 Reg.pairHandoffLap).toNat then s1
  else
    let s2 : State := { s1 with pair := { s1.pair with ident := none } }
    if !s2.onTrail then s2
    else
      let s3 := ((List.range 64).filter (fun q => s2.bit (Reg.hostSqCfg q) 31)).foldl (fun s q =>
        { s with host := { s.host with sqTail := SMap.set 0 s.host.sqTail q (s.sqHead q) } }) s2
      s3.updCq 0 (fun c => { c with held := s3.noticeRec 1 :: c.held })

/-- The work of cycle 1,024. -/
def State.release (s : State) : State :=
  let s1 := s.closeDigests
  let s2 := if s1.pairLate then s1.pairLost else s1
  let s3 := (if s2.mirroredNow then s2.paceSlip else s2).releaseInputs.releaseHeld.freeEntries
  let s4 := if s3.actMode.viewed then s3.takeView else s3
  if s4.bit Reg.pairStat 27 then s4.serveAlone else s4

/-- RELEASE (R397): at cycle 1,024, on a side of a pair, in a replay, and where inputs or flits are still held. -/
def execRelease (s : State) : Res :=
  if s.windowUp ∧ s.at1024 ∧
      (s.actMode.viewed ∨ s.bit Reg.pairStat 27 ∨ !s.pair.inputs.isEmpty ∨ !s.pair.hold.isEmpty) then .next s.release
  else .next s

end Sys2Proof.Machine
end

