-- ==== Sys2Proof/Machine/FloatInstr.lean ====
section
/-!
DEFINITION. The floating-point and short-vector instructions (spec/03_sequencer_isa.md, R75, R108 to R110;
spec/08_arithmetic.md, R265 to R274): rows 0x9 and 0xA.
-/
namespace Sys2Proof.Machine

/-- The format of an instruction of row 0x9: binary64, or binary32 under the width-32 prefix. -/
def fmtOf (p : Pfx) : FFmt := if (pInfo p).w = 32 then f32 else f64

/-- A residue-checked latency of row 0x9 (Tables 4.9, 8.8): binary64 and binary32. -/
def latF (p : Pfx) (l64 l32 : Nat) (_ : Arch) : Option Nat := some (if (pInfo p).w = 32 then l32 else l64)

/-- A register instruction of row 0x9. -/
def State.fpOp (s : State) (e : Nat) (p : Pfx) (op : Nat) (f : FmtR) (zero : List Nat) (lat : Arch → Option Nat)
    (g : Arch → Arch) : Res :=
  .next (s.regOp e p op (must0 (f.z.toNat :: zero)) lat (fun a => .ok (g a)))

/-- Write a floating-point result with its exceptions (R75, R78). -/
def Arch.putF (a : Arch) (w d : Nat) (r : Nat × FFlags) : Arch :=
  { a with flags := orSticky a.flags r.2 }.wrF w d r.1

/-- An operation of two operands in a format. -/
def State.fp2 (s : State) (e : Nat) (p : Pfx) (op : Nat) (f : FmtR) (lat : Arch → Option Nat)
    (g : FFmt → FEnv → Nat → Nat → Nat × FFlags) : Res :=
  let w := (pInfo p).w
  s.fpOp e p op f [] lat (fun a =>
    a.putF w f.d.toNat (g (fmtOf p) (fenvOf a.flags) (a.rdF w f.a.toNat) (a.rdF w f.b.toNat)))

/-- N, Z, C, V of FCMP (Table 3.15). -/
def fcmpFlags (f : W64) (o : FOrd) : W64 :=
  match o with
  | .lt => putNzcv f true false true false
  | .eq => putNzcv f false true false false
  | .gt => putNzcv f false false false false
  | .un => putNzcv f false false false true

/-- The result of FCVTFI (R270). -/
def fcvtfi (f : FFmt) (env : FEnv) (x : Nat) : W64 × FFlags :=
  match f.toInt env (-(2 : Int) ^ 63) ((2 : Int) ^ 63 - 1) x with
  | .ok v nx => (BitVec.ofInt 64 v, ⟨false, false, false, false, nx⟩)
  | .out _ | .nan => (0x8000000000000000, FFlags.invalid)

/-- FADD (R108). -/
def execFadd (e : Nat) (p : Pfx) (f : FmtR) (s : State) : Res := s.fp2 e p 0x90 f (latF p 4 4) FFmt.add

/-- FSUB (R108). -/
def execFsub (e : Nat) (p : Pfx) (f : FmtR) (s : State) : Res := s.fp2 e p 0x91 f (latF p 4 4) FFmt.sub

/-- FMUL (R108). -/
def execFmul (e : Nat) (p : Pfx) (f : FmtR) (s : State) : Res := s.fp2 e p 0x92 f (latF p 4 4) FFmt.mul

/-- FDIV (R108). -/
def execFdiv (e : Nat) (p : Pfx) (f : FmtR) (s : State) : Res := s.fp2 e p 0x93 f (latF p 24 14) FFmt.div

/-- FSQRT (R108). -/
def execFsqrt (e : Nat) (p : Pfx) (f : FmtR) (s : State) : Res :=
  let w := (pInfo p).w
  s.fpOp e p 0x94 f [f.b.toNat] (latF p 32 18) (fun a =>
    a.putF w f.d.toNat ((fmtOf p).sqrt (fenvOf a.flags) (a.rdF w f.a.toNat)))

/-- FMIN (R108). -/
def execFmin (e : Nat) (p : Pfx) (f : FmtR) (s : State) : Res :=
  s.fp2 e p 0x95 f latNone (fun t env a b => t.minmax env true a b)

/-- FMAX (R108). -/
def execFmax (e : Nat) (p : Pfx) (f : FmtR) (s : State) : Res :=
  s.fp2 e p 0x96 f latNone (fun t env a b => t.minmax env false a b)

/-- FCMP (R109, R271). -/
def execFcmp (e : Nat) (p : Pfx) (f : FmtR) (s : State) : Res :=
  let w := (pInfo p).w
  let t := fmtOf p
  s.fpOp e p 0x97 f [f.d.toNat] latNone (fun a =>
    let x := a.rdF w f.a.toNat
    let y := a.rdF w f.b.toNat
    let nv := if t.isSnan x || t.isSnan y then FFlags.invalid else FFlags.none
    { a with flags := fcmpFlags (orSticky a.flags nv) (t.cmp (fenvOf a.flags).daz x y) })

/-- FCVTFI (R270). -/
def execFcvtfi (e : Nat) (p : Pfx) (f : FmtR) (s : State) : Res :=
  s.fpOp e p 0x98 f [f.b.toNat] latNone (fun a =>
    let r := fcvtfi (fmtOf p) (fenvOf a.flags) (a.rdF (pInfo p).w f.a.toNat)
    { a with flags := orSticky a.flags r.2 }.wrG f.d.toNat r.1)

/-- FCVTIF (R108). -/
def execFcvtif (e : Nat) (p : Pfx) (f : FmtR) (s : State) : Res :=
  s.fpOp e p 0x99 f [f.b.toNat] latNone (fun a =>
    a.putF (pInfo p).w f.d.toNat ((fmtOf p).ofInt (fenvOf a.flags) (a.rdG f.a.toNat).toInt))

/-- A sign operation: no flags. -/
def State.fpSign (s : State) (e : Nat) (p : Pfx) (op : Nat) (f : FmtR) (g : FFmt → Nat → Nat) : Res :=
  s.fpOp e p op f [f.b.toNat] latNone (fun a =>
    a.wrF (pInfo p).w f.d.toNat (g (fmtOf p) (a.rdF (pInfo p).w f.a.toNat)))

/-- FNEG (R108). -/
def execFneg (e : Nat) (p : Pfx) (f : FmtR) (s : State) : Res := s.fpSign e p 0x9A f FFmt.neg

/-- FABS (R108). -/
def execFabs (e : Nat) (p : Pfx) (f : FmtR) (s : State) : Res := s.fpSign e p 0x9B f (fun t x => x % t.signBit)

/-- FMOV (R108). -/
def execFmov (e : Nat) (p : Pfx) (f : FmtR) (s : State) : Res := s.fpSign e p 0x9C f (fun _ x => x)

/-- FMVFG (R108). -/
def execFmvfg (e : Nat) (p : Pfx) (f : FmtR) (s : State) : Res :=
  s.fpOp e p 0x9D f [f.b.toNat] latNone (fun a =>
    a.wrG f.d.toNat (BitVec.ofNat 64 (a.rdF (pInfo p).w f.a.toNat)))

/-- FMVGF (R108). -/
def execFmvgf (e : Nat) (p : Pfx) (f : FmtR) (s : State) : Res :=
  s.fpOp e p 0x9E f [f.b.toNat] latNone (fun a => a.wrF (pInfo p).w f.d.toNat (a.rdG f.a.toNat).toNat)

/-- FMA (R108): d + a × b, rounded once. -/
def execFma (e : Nat) (p : Pfx) (f : FmtR) (s : State) : Res :=
  let w := (pInfo p).w
  s.fpOp e p 0x9F f [] (latF p 5 5) (fun a =>
    a.putF w f.d.toNat
      ((fmtOf p).fma (fenvOf a.flags) (a.rdF w f.a.toNat) (a.rdF w f.b.toNat) (a.rdF w f.d.toNat)))

/-! ### Short vectors (R110) -/

/-- Lane `i` of w bits. -/
def lane (w i : Nat) (x : W128) : Nat := x.toNat / 2 ^ (w * i) % 2 ^ w

/-- A register from its lanes of w bits. -/
def fromLanes (w : Nat) (ls : List Nat) : W128 :=
  BitVec.ofNat 128 (ls.foldr (fun x acc => x % 2 ^ w + acc * 2 ^ w) 0)

/-- Lane by lane. -/
def lanewise (w : Nat) (g : Nat → Nat → Nat) (a b : W128) : W128 :=
  fromLanes w ((List.range (128 / w)).map (fun i => g (lane w i a) (lane w i b)))

/-- A short-vector instruction without flags. -/
def State.qOp (s : State) (e : Nat) (p : Pfx) (op : Nat) (f : FmtR) (lat : Arch → Option Nat)
    (g : Nat → Nat → Nat → Nat) : Res :=
  s.fpOp e p op f [] lat (fun a =>
    a.wrQ f.d.toNat (lanewise (pInfo p).w (g (pInfo p).w) (a.rdQ f.a.toNat) (a.rdQ f.b.toNat)))

/-- All ones where a relation holds. -/
def onesIf (w : Nat) (b : Bool) : Nat := if b then 2 ^ w - 1 else 0

/-- Latency of QMUL (Table 4.9). -/
def latQmul (p : Pfx) (_ : Arch) : Option Nat :=
  let w := (pInfo p).w
  some (if w = 64 then 5 else if w = 32 then 3 else 2)

/-- QADD (R110). -/
def execQadd (e : Nat) (p : Pfx) (f : FmtR) (s : State) : Res := s.qOp e p 0xA0 f latNone (fun w a b => (a + b) % 2 ^ w)

/-- QSUB (R110). -/
def execQsub (e : Nat) (p : Pfx) (f : FmtR) (s : State) : Res :=
  s.qOp e p 0xA1 f latNone (fun w a b => (a + 2 ^ w - b) % 2 ^ w)

/-- QMUL (R110). -/
def execQmul (e : Nat) (p : Pfx) (f : FmtR) (s : State) : Res :=
  s.qOp e p 0xA2 f (latQmul p) (fun w a b => a * b % 2 ^ w)

/-- QAND (R110). -/
def execQand (e : Nat) (p : Pfx) (f : FmtR) (s : State) : Res := s.qOp e p 0xA3 f latNone (fun _ a b => a &&& b)

/-- QOR (R110). -/
def execQor (e : Nat) (p : Pfx) (f : FmtR) (s : State) : Res := s.qOp e p 0xA4 f latNone (fun _ a b => a ||| b)

/-- QXOR (R110). -/
def execQxor (e : Nat) (p : Pfx) (f : FmtR) (s : State) : Res := s.qOp e p 0xA5 f latNone (fun _ a b => a ^^^ b)

/-- QMIN (R110). -/
def execQmin (e : Nat) (p : Pfx) (f : FmtR) (s : State) : Res :=
  s.qOp e p 0xA6 f latNone (fun w a b => if sval w a ≤ sval w b then a else b)

/-- QMAX (R110). -/
def execQmax (e : Nat) (p : Pfx) (f : FmtR) (s : State) : Res :=
  s.qOp e p 0xA7 f latNone (fun w a b => if sval w a ≤ sval w b then b else a)

/-- QMINU (R110). -/
def execQminu (e : Nat) (p : Pfx) (f : FmtR) (s : State) : Res :=
  s.qOp e p 0xA8 f latNone (fun _ a b => if a ≤ b then a else b)

/-- QMAXU (R110). -/
def execQmaxu (e : Nat) (p : Pfx) (f : FmtR) (s : State) : Res :=
  s.qOp e p 0xA9 f latNone (fun _ a b => if a ≤ b then b else a)

/-- QCEQ (R110). -/
def execQceq (e : Nat) (p : Pfx) (f : FmtR) (s : State) : Res := s.qOp e p 0xAA f latNone (fun w a b => onesIf w (a = b))

/-- QCGT (R110). -/
def execQcgt (e : Nat) (p : Pfx) (f : FmtR) (s : State) : Res :=
  s.qOp e p 0xAB f latNone (fun w a b => onesIf w (sval w b < sval w a))

/-- QCGTU (R110). -/
def execQcgtu (e : Nat) (p : Pfx) (f : FmtR) (s : State) : Res :=
  s.qOp e p 0xAC f latNone (fun w a b => onesIf w (b < a))

/-- QSHUF: bytes of A selected by the control bytes of B; the width prefix is ignored (R110). -/
def execQshuf (e : Nat) (p : Pfx) (f : FmtR) (s : State) : Res :=
  s.fpOp e p 0xAD f [] latNone (fun a =>
    let x := a.rdQ f.a.toNat
    a.wrQ f.d.toNat (fromLanes 8 ((List.range 16).map (fun i =>
      let c := lane 8 i (a.rdQ f.b.toNat)
      if 128 ≤ c then 0 else lane 8 (c % 16) x))))

/-- A floating-point short-vector instruction: the lanes' exceptions are joined (R110). -/
def State.qfOp (s : State) (e : Nat) (p : Pfx) (op : Nat) (f : FmtR)
    (g : FFmt → FEnv → Nat → Nat → Nat × FFlags) : Res :=
  let w := (pInfo p).w
  s.fpOp e p op f [] (latF p 4 4) (fun a =>
    let rs : List (Nat × FFlags) := (List.range (128 / w)).map (fun i =>
      g (fmtOf p) (fenvOf a.flags) (lane w i (a.rdQ f.a.toNat)) (lane w i (a.rdQ f.b.toNat)))
    let fl := rs.foldl (fun x r => x.or r.2) FFlags.none
    ({ a with flags := orSticky a.flags fl } : Arch).wrQ f.d.toNat (fromLanes w (rs.map (fun (r : Nat × FFlags) => r.1))))

/-- QFADD (R110). -/
def execQfadd (e : Nat) (p : Pfx) (f : FmtR) (s : State) : Res := s.qfOp e p 0xAE f FFmt.add

/-- QFMUL (R110). -/
def execQfmul (e : Nat) (p : Pfx) (f : FmtR) (s : State) : Res := s.qfOp e p 0xAF f FFmt.mul

end Sys2Proof.Machine
end

