-- ==== Sys2Proof/Machine/Dispatch.lean ====
section
/-!
DEFINITION. The dispatch: one arm for each command, one call of its meaning.
-/
namespace Sys2Proof.Machine

/-- The effect of a command on everything but the queue of waiting commands. -/
def exec (i : Instr) (s : State) : Host.Outcome State Fault Refusal :=
  match i with
  | .registerWrite m off v bytes => Sys2Proof.Machine.execRegisterWrite m off v bytes s
  | .rcRead m off bytes => Sys2Proof.Machine.execRcRead m off bytes s
  | .lowHalfRead m off => Sys2Proof.Machine.execLowHalfRead m off s
  | .lowHalfWrite m off v => Sys2Proof.Machine.execLowHalfWrite m off v s
  | .highHalfWrite m off v => Sys2Proof.Machine.execHighHalfWrite m off v s
  | .kick m v => Sys2Proof.Machine.execKick m v s
  | .stewardWatchdog => Sys2Proof.Machine.execStewardWatchdog s
  | .lapBoundary => Sys2Proof.Machine.execLapBoundary s
  | .preemptionSweep e found => Sys2Proof.Machine.execPreemptionSweep e found s
  | .placementRestore e => Sys2Proof.Machine.execPlacementRestore e s
  | .sqFetch => Sys2Proof.Machine.execSqFetch s
  | .submit r ok => Sys2Proof.Machine.execSubmit r ok s
  | .costVectorRead ue => Sys2Proof.Machine.execCostVectorRead ue s
  | .decision found => Sys2Proof.Machine.execDecision found s
  | .cancel => Sys2Proof.Machine.execCancel s
  | .engineCycleCounterExhausted e => Sys2Proof.Machine.execEngineCycleCounterExhausted e s
  | .openTask e => Sys2Proof.Machine.execOpenTask e s
  | .bookingMove e => Sys2Proof.Machine.execBookingMove e s
  | .staTtIndex m v => Sys2Proof.Machine.execStaTtIndex m v s
  | .complete q => Sys2Proof.Machine.execComplete q s
  | .accept q => Sys2Proof.Machine.execAccept q s
  | .notice q => Sys2Proof.Machine.execNotice q s
  | .nop e p => Sys2Proof.Machine.execNop e p s
  | .tend e p => Sys2Proof.Machine.execTend e p s
  | .ifence e p => Sys2Proof.Machine.execIfence e p s
  | .bpflush e p => Sys2Proof.Machine.execBpflush e p s
  | .bpbar e p => Sys2Proof.Machine.execBpbar e p s
  | .bpallow e p => Sys2Proof.Machine.execBpallow e p s
  | .rfe e p => Sys2Proof.Machine.execRfe e p s
  | .rfx e p => Sys2Proof.Machine.execRfx e p s
  | .dsync e p => Sys2Proof.Machine.execDsync e p s
  | .tsync e p => Sys2Proof.Machine.execTsync e p s
  | .vwait e p => Sys2Proof.Machine.execVwait e p s
  | .brk e p => Sys2Proof.Machine.execBrk e p s
  | .lexit e p => Sys2Proof.Machine.execLexit e p s
  | .jr e p f => Sys2Proof.Machine.execJr e p f s
  | .jlr e p f => Sys2Proof.Machine.execJlr e p f s
  | .push e p f => Sys2Proof.Machine.execPush e p f s
  | .pop e p f => Sys2Proof.Machine.execPop e p f s
  | .tlbi e p f => Sys2Proof.Machine.execTlbi e p f s
  | .rdpkr e p f => Sys2Proof.Machine.execRdpkr e p f s
  | .wrpkr e p f => Sys2Proof.Machine.execWrpkr e p f s
  | .evsig e p f => Sys2Proof.Machine.execEvsig e p f s
  | .waite e p f => Sys2Proof.Machine.execWaite e p f s
  | .time e p f => Sys2Proof.Machine.execTime e p f s
  | .lapn e p f => Sys2Proof.Machine.execLapn e p f s
  | .enid e p f => Sys2Proof.Machine.execEnid e p f s
  | .ldsd e p f => Sys2Proof.Machine.execLdsd e p f s
  | .stsd e p f => Sys2Proof.Machine.execStsd e p f s
  | .add e p f => Sys2Proof.Machine.execAdd e p f s
  | .sub e p f => Sys2Proof.Machine.execSub e p f s
  | .and e p f => Sys2Proof.Machine.execAnd e p f s
  | .or e p f => Sys2Proof.Machine.execOr e p f s
  | .xor e p f => Sys2Proof.Machine.execXor e p f s
  | .andn e p f => Sys2Proof.Machine.execAndn e p f s
  | .shl e p f => Sys2Proof.Machine.execShl e p f s
  | .shr e p f => Sys2Proof.Machine.execShr e p f s
  | .sar e p f => Sys2Proof.Machine.execSar e p f s
  | .rol e p f => Sys2Proof.Machine.execRol e p f s
  | .mul e p f => Sys2Proof.Machine.execMul e p f s
  | .mulh e p f => Sys2Proof.Machine.execMulh e p f s
  | .mulhu e p f => Sys2Proof.Machine.execMulhu e p f s
  | .div e p f => Sys2Proof.Machine.execDiv e p f s
  | .divu e p f => Sys2Proof.Machine.execDivu e p f s
  | .rem e p f => Sys2Proof.Machine.execRem e p f s
  | .remu e p f => Sys2Proof.Machine.execRemu e p f s
  | .cmp e p f => Sys2Proof.Machine.execCmp e p f s
  | .min e p f => Sys2Proof.Machine.execMin e p f s
  | .max e p f => Sys2Proof.Machine.execMax e p f s
  | .minu e p f => Sys2Proof.Machine.execMinu e p f s
  | .maxu e p f => Sys2Proof.Machine.execMaxu e p f s
  | .slt e p f => Sys2Proof.Machine.execSlt e p f s
  | .sltu e p f => Sys2Proof.Machine.execSltu e p f s
  | .mov e p f => Sys2Proof.Machine.execMov e p f s
  | .clz e p f => Sys2Proof.Machine.execClz e p f s
  | .ctz e p f => Sys2Proof.Machine.execCtz e p f s
  | .popc e p f => Sys2Proof.Machine.execPopc e p f s
  | .bswap e p f => Sys2Proof.Machine.execBswap e p f s
  | .sext e p f => Sys2Proof.Machine.execSext e p f s
  | .zext e p f => Sys2Proof.Machine.execZext e p f s
  | .addc e p f => Sys2Proof.Machine.execAddc e p f s
  | .addi e p f => Sys2Proof.Machine.execAddi e p f s
  | .andi e p f => Sys2Proof.Machine.execAndi e p f s
  | .ori e p f => Sys2Proof.Machine.execOri e p f s
  | .xori e p f => Sys2Proof.Machine.execXori e p f s
  | .shli e p f => Sys2Proof.Machine.execShli e p f s
  | .shri e p f => Sys2Proof.Machine.execShri e p f s
  | .sari e p f => Sys2Proof.Machine.execSari e p f s
  | .roli e p f => Sys2Proof.Machine.execRoli e p f s
  | .muli e p f => Sys2Proof.Machine.execMuli e p f s
  | .cmpi e p f => Sys2Proof.Machine.execCmpi e p f s
  | .slti e p f => Sys2Proof.Machine.execSlti e p f s
  | .sltiu e p f => Sys2Proof.Machine.execSltiu e p f s
  | .movi e p f => Sys2Proof.Machine.execMovi e p f s
  | .tsti e p f => Sys2Proof.Machine.execTsti e p f s
  | .ld e p f => Sys2Proof.Machine.execLd e p f s
  | .lds e p f => Sys2Proof.Machine.execLds e p f s
  | .st e p f => Sys2Proof.Machine.execSt e p f s
  | .ldf e p f => Sys2Proof.Machine.execLdf e p f s
  | .stf e p f => Sys2Proof.Machine.execStf e p f s
  | .ldq e p f => Sys2Proof.Machine.execLdq e p f s
  | .stq e p f => Sys2Proof.Machine.execStq e p f s
  | .lea e p f => Sys2Proof.Machine.execLea e p f s
  | .ldx e p f => Sys2Proof.Machine.execLdx e p f s
  | .ldsx e p f => Sys2Proof.Machine.execLdsx e p f s
  | .stx e p f => Sys2Proof.Machine.execStx e p f s
  | .ldfx e p f => Sys2Proof.Machine.execLdfx e p f s
  | .stfx e p f => Sys2Proof.Machine.execStfx e p f s
  | .ldqx e p f => Sys2Proof.Machine.execLdqx e p f s
  | .stqx e p f => Sys2Proof.Machine.execStqx e p f s
  | .leax e p f => Sys2Proof.Machine.execLeax e p f s
  | .beq e p f => Sys2Proof.Machine.execBeq e p f s
  | .bne e p f => Sys2Proof.Machine.execBne e p f s
  | .blt e p f => Sys2Proof.Machine.execBlt e p f s
  | .bge e p f => Sys2Proof.Machine.execBge e p f s
  | .ble e p f => Sys2Proof.Machine.execBle e p f s
  | .bgt e p f => Sys2Proof.Machine.execBgt e p f s
  | .bltu e p f => Sys2Proof.Machine.execBltu e p f s
  | .bgeu e p f => Sys2Proof.Machine.execBgeu e p f s
  | .bleu e p f => Sys2Proof.Machine.execBleu e p f s
  | .bgtu e p f => Sys2Proof.Machine.execBgtu e p f s
  | .bvs e p f => Sys2Proof.Machine.execBvs e p f s
  | .bvc e p f => Sys2Proof.Machine.execBvc e p f s
  | .bmi e p f => Sys2Proof.Machine.execBmi e p f s
  | .bpl e p f => Sys2Proof.Machine.execBpl e p f s
  | .bal e p f => Sys2Proof.Machine.execBal e p f s
  | .call e p f => Sys2Proof.Machine.execCall e p f s
  | .fadd e p f => Sys2Proof.Machine.execFadd e p f s
  | .fsub e p f => Sys2Proof.Machine.execFsub e p f s
  | .fmul e p f => Sys2Proof.Machine.execFmul e p f s
  | .fdiv e p f => Sys2Proof.Machine.execFdiv e p f s
  | .fsqrt e p f => Sys2Proof.Machine.execFsqrt e p f s
  | .fmin e p f => Sys2Proof.Machine.execFmin e p f s
  | .fmax e p f => Sys2Proof.Machine.execFmax e p f s
  | .fcmp e p f => Sys2Proof.Machine.execFcmp e p f s
  | .fcvtfi e p f => Sys2Proof.Machine.execFcvtfi e p f s
  | .fcvtif e p f => Sys2Proof.Machine.execFcvtif e p f s
  | .fneg e p f => Sys2Proof.Machine.execFneg e p f s
  | .fabs e p f => Sys2Proof.Machine.execFabs e p f s
  | .fmov e p f => Sys2Proof.Machine.execFmov e p f s
  | .fmvfg e p f => Sys2Proof.Machine.execFmvfg e p f s
  | .fmvgf e p f => Sys2Proof.Machine.execFmvgf e p f s
  | .fma e p f => Sys2Proof.Machine.execFma e p f s
  | .qadd e p f => Sys2Proof.Machine.execQadd e p f s
  | .qsub e p f => Sys2Proof.Machine.execQsub e p f s
  | .qmul e p f => Sys2Proof.Machine.execQmul e p f s
  | .qand e p f => Sys2Proof.Machine.execQand e p f s
  | .qor e p f => Sys2Proof.Machine.execQor e p f s
  | .qxor e p f => Sys2Proof.Machine.execQxor e p f s
  | .qmin e p f => Sys2Proof.Machine.execQmin e p f s
  | .qmax e p f => Sys2Proof.Machine.execQmax e p f s
  | .qminu e p f => Sys2Proof.Machine.execQminu e p f s
  | .qmaxu e p f => Sys2Proof.Machine.execQmaxu e p f s
  | .qceq e p f => Sys2Proof.Machine.execQceq e p f s
  | .qcgt e p f => Sys2Proof.Machine.execQcgt e p f s
  | .qcgtu e p f => Sys2Proof.Machine.execQcgtu e p f s
  | .qshuf e p f => Sys2Proof.Machine.execQshuf e p f s
  | .qfadd e p f => Sys2Proof.Machine.execQfadd e p f s
  | .qfmul e p f => Sys2Proof.Machine.execQfmul e p f s
  | .mfs e p f => Sys2Proof.Machine.execMfs e p f s
  | .mts e p f => Sys2Proof.Machine.execMts e p f s
  | .loop e p f => Sys2Proof.Machine.execLoop e p f s
  | .loopi e p f => Sys2Proof.Machine.execLoopi e p f s
  | .hold e p f => Sys2Proof.Machine.execHold e p f s
  | .trap e p f => Sys2Proof.Machine.execTrap e p f s
  | .vmov e p f => Sys2Proof.Machine.execVmov e p f s
  | .valu e p f => Sys2Proof.Machine.execValu e p f s
  | .vmul e p f => Sys2Proof.Machine.execVmul e p f s
  | .vdiv e p f => Sys2Proof.Machine.execVdiv e p f s
  | .vfp e p f => Sys2Proof.Machine.execVfp e p f s
  | .vcmp e p f => Sys2Proof.Machine.execVcmp e p f s
  | .vcomp e p f => Sys2Proof.Machine.execVcomp e p f s
  | .vexp e p f => Sys2Proof.Machine.execVexp e p f s
  | .vscan e p f => Sys2Proof.Machine.execVscan e p f s
  | .vsegr e p f => Sys2Proof.Machine.execVsegr e p f s
  | .vred e p f => Sys2Proof.Machine.execVred e p f s
  | .vhash e p f => Sys2Proof.Machine.execVhash e p f s
  | .vprobe e p f => Sys2Proof.Machine.execVprobe e p f s
  | .vscadd e p f => Sys2Proof.Machine.execVscadd e p f s
  | .vscswp e p f => Sys2Proof.Machine.execVscswp e p f s
  | .vmerge e p f => Sys2Proof.Machine.execVmerge e p f s
  | .vsort e p f => Sys2Proof.Machine.execVsort e p f s
  | .vkcmp e p f => Sys2Proof.Machine.execVkcmp e p f s
  | .vdadd e p f => Sys2Proof.Machine.execVdadd e p f s
  | .vdsub e p f => Sys2Proof.Machine.execVdsub e p f s
  | .vcvt e p f => Sys2Proof.Machine.execVcvt e p f s
  | .engineHang e stopped => Sys2Proof.Machine.execEngineHang e stopped s
  | .fetch e btbUe => Sys2Proof.Machine.execFetch e btbUe s
  | .exceptionEntry e vec detail faddr => Sys2Proof.Machine.execExceptionEntry e vec detail faddr s
  | .interrupt e => Sys2Proof.Machine.execInterrupt e s
  | .error e => Sys2Proof.Machine.execError e s
  | .holdcntZero e => Sys2Proof.Machine.execHoldcntZero e s
  | .poisonWrite e va => Sys2Proof.Machine.execPoisonWrite e va s
  | .group e tag chk => Sys2Proof.Machine.execGroup e tag chk s
  | .streamRequest e tag sreg => Sys2Proof.Machine.execStreamRequest e tag sreg s
  | .beat e tag sreg upset => Sys2Proof.Machine.execBeat e tag sreg upset s
  | .subBankGrant bank sub upset => Sys2Proof.Machine.execSubBankGrant bank sub upset s
  | .atomic bank upset adder => Sys2Proof.Machine.execAtomic bank upset adder s
  | .lineSlot dev upset adder => Sys2Proof.Machine.execLineSlot dev upset adder s
  | .granule ch upset parityRetryFails => Sys2Proof.Machine.execGranule ch upset parityRetryFails s
  | .maintenanceWindow ch retrained upset => Sys2Proof.Machine.execMaintenanceWindow ch retrained upset s
  | .writeBack word => Sys2Proof.Machine.execWriteBack word s
  | .expanderResponse port late poison => Sys2Proof.Machine.execExpanderResponse port late poison s
  | .expanderTimeout port => Sys2Proof.Machine.execExpanderTimeout port s
  | .walk e va kind tlbUe => Sys2Proof.Machine.execWalk e va kind tlbUe s
  | .trainingAttempt p => Sys2Proof.Machine.execTrainingAttempt p s
  | .detect p locked inverted => Sys2Proof.Machine.execDetect p locked inverted s
  | .caps p f intime => Sys2Proof.Machine.execCaps p f intime s
  | .eq p => Sys2Proof.Machine.execEq p s
  | .check p biterror => Sys2Proof.Machine.execCheck p biterror s
  | .align p ok delay => Sys2Proof.Machine.execAlign p ok delay s
  | .frame p => Sys2Proof.Machine.execFrame p s
  | .baton p k crcOk rxd => Sys2Proof.Machine.execBaton p k crcOk rxd s
  | .holdover => Sys2Proof.Machine.execHoldover s
  | .cell p c => Sys2Proof.Machine.execCell p c s
  | .idle p f crc => Sys2Proof.Machine.execIdle p f crc s
  | .pkt p f crc => Sys2Proof.Machine.execPkt p f crc s
  | .data p f crc => Sys2Proof.Machine.execData p f crc s
  | .ack p f crc => Sys2Proof.Machine.execAck p f crc s
  | .linkDown p => Sys2Proof.Machine.execLinkDown p s
  | .retrain p => Sys2Proof.Machine.execRetrain p s
  | .replayTimeout p => Sys2Proof.Machine.execReplayTimeout p s
  | .rd => Sys2Proof.Machine.execRd s
  | .wr => Sys2Proof.Machine.execWr s
  | .wrl => Sys2Proof.Machine.execWrl s
  | .atPkt => Sys2Proof.Machine.execAtPkt s
  | .pred => Sys2Proof.Machine.execPred s
  | .evt => Sys2Proof.Machine.execEvt s
  | .tlbiMsg => Sys2Proof.Machine.execTlbiMsg s
  | .flt r received => Sys2Proof.Machine.execFlt r received s
  | .breakMsg => Sys2Proof.Machine.execBreakMsg s
  | .join => Sys2Proof.Machine.execJoin s
  | .scale => Sys2Proof.Machine.execScale s
  | .doneMsg => Sys2Proof.Machine.execDoneMsg s
  | .resend dst vc => Sys2Proof.Machine.execResend dst vc s
  | .lossOfSignal p => Sys2Proof.Machine.execLossOfSignal p s
  | .drainHoldEnd => Sys2Proof.Machine.execDrainHoldEnd s
  | .bypassClose => Sys2Proof.Machine.execBypassClose s
  | .bypassOpen => Sys2Proof.Machine.execBypassOpen s
  | .hostcmd lap order r => Sys2Proof.Machine.execHostcmd lap order r s
  | .hostwr lap line isRead be d => Sys2Proof.Machine.execHostwr lap line isRead be d s
  | .regwr lap off v => Sys2Proof.Machine.execRegwr lap off v s
  | .events lap flags => Sys2Proof.Machine.execEvents lap flags s
  | .lapend lap count => Sys2Proof.Machine.execLapend lap count s
  | .posted tti sq cid => Sys2Proof.Machine.execPosted tti sq cid s
  | .ready lap entries => Sys2Proof.Machine.execReady lap entries s
  | .tendd tti epoch eng digest => Sys2Proof.Machine.execTendd tti epoch eng digest s
  | .lapdig lap part engines => Sys2Proof.Machine.execLapdig lap part engines s
  | .fence r => Sys2Proof.Machine.execFence r s
  | .release => Sys2Proof.Machine.execRelease s
  | .handoff => Sys2Proof.Machine.execHandoff s
  | .fenceEnd part epoch => Sys2Proof.Machine.execFenceEnd part epoch s
  | .reRun tti => Sys2Proof.Machine.execReRun tti s
  | .fltPop m v => Sys2Proof.Machine.execFltPop m v s
  | .pairRejoin m v => Sys2Proof.Machine.execPairRejoin m v s
  | .rejoin allSynced => Sys2Proof.Machine.execRejoin allSynced s
  | .pulse c code at_ => Sys2Proof.Machine.execPulse c code at_ s
  | .evtFire m v at_ => Sys2Proof.Machine.execEvtFire m v at_ s
  | .dom m v at_ => Sys2Proof.Machine.execDom m v at_ s
  | .evtFlag m k v => Sys2Proof.Machine.execEvtFlag m k v s
  | .evtGroupEn m v on off => Sys2Proof.Machine.execEvtGroupEn m v on off s
  | .closed m c => Sys2Proof.Machine.execClosed m c s
  | .compare k => Sys2Proof.Machine.execCompare k s
  | .cmpValue m k hi => Sys2Proof.Machine.execCmpValue m k hi s
  | .cmpCtl m k v => Sys2Proof.Machine.execCmpCtl m k v s
  | .zero j => Sys2Proof.Machine.execZero j s
  | .matchEvt j => Sys2Proof.Machine.execMatchEvt j s
  | .start j => Sys2Proof.Machine.execStart j s
  | .stop j => Sys2Proof.Machine.execStop j s
  | .reset j => Sys2Proof.Machine.execReset j s
  | .loadnow j => Sys2Proof.Machine.execLoadnow j s
  | .cdtCount m j v => Sys2Proof.Machine.execCdtCount m j v s
  | .pin n level stamp => Sys2Proof.Machine.execPin n level stamp s
  | .stuck n => Sys2Proof.Machine.execStuck n s
  | .hostSqTail m q v => Sys2Proof.Machine.execHostSqTail m q v s
  | .hostCqHead m q v => Sys2Proof.Machine.execHostCqHead m q v s
  | .hostSqCfg m q v => Sys2Proof.Machine.execHostSqCfg m q v s
  | .hostCqCfg m q v => Sys2Proof.Machine.execHostCqCfg m q v s
  | .purge m q => Sys2Proof.Machine.execPurge m q s
  | .cxlMemRead hpa n => Sys2Proof.Machine.execCxlMemRead hpa n s
  | .cxlMemWrite hpa be d => Sys2Proof.Machine.execCxlMemWrite hpa be d s
  | .commit n base size skip => Sys2Proof.Machine.execCommit n base size skip s
  | .hostLinkDown => Sys2Proof.Machine.execHostLinkDown s
  | .hotReset => Sys2Proof.Machine.execHotReset s
  | .perstN => Sys2Proof.Machine.execPerstN s
  | .functionLevelReset => Sys2Proof.Machine.execFunctionLevelReset s
  | .d3hot => Sys2Proof.Machine.execD3hot s
  | .enterDusk => Sys2Proof.Machine.execEnterDusk s
  | .enterService => Sys2Proof.Machine.execEnterService s
  | .faultRead => Sys2Proof.Machine.execFaultRead s
  | .keepRead => Sys2Proof.Machine.execKeepRead s
  | .unsupported => Sys2Proof.Machine.execUnsupported s
  | .powerOn ord14 => Sys2Proof.Machine.execPowerOn ord14 s
  | .vddCoreRemoved keepRail => Sys2Proof.Machine.execVddCoreRemoved keepRail s
  | .resetNAsserted => Sys2Proof.Machine.execResetNAsserted s
  | .pgood level => Sys2Proof.Machine.execPgood level s
  | .resetNReleased => Sys2Proof.Machine.execResetNReleased s
  | .dawn o => Sys2Proof.Machine.execDawn o s
  | .prepComplete o => Sys2Proof.Machine.execPrepComplete o s
  | .modeTransition => Sys2Proof.Machine.execModeTransition s
  | .redawn m v => Sys2Proof.Machine.execRedawn m v s
  | .replay m v => Sys2Proof.Machine.execReplay m v s
  | .flashRead m => Sys2Proof.Machine.execFlashRead m s
  | .flashProgram m => Sys2Proof.Machine.execFlashProgram m s
  | .flashErase m => Sys2Proof.Machine.execFlashErase m s
  | .keepReg m n hi verified => Sys2Proof.Machine.execKeepReg m n hi verified s
  | .post => Sys2Proof.Machine.execPost s
  | .test signatures badBanks => Sys2Proof.Machine.execTest signatures badBanks s
  | .record => Sys2Proof.Machine.execRecord s
  | .toHold => Sys2Proof.Machine.execToHold s
  | .stateChoice c => Sys2Proof.Machine.execStateChoice c s
  | .wake c => Sys2Proof.Machine.execWake c s
  | .earlyWake c => Sys2Proof.Machine.execEarlyWake c s
  | .warning rail => Sys2Proof.Machine.execWarning rail s
  | .warningEnd rail => Sys2Proof.Machine.execWarningEnd rail s
  | .supplyReset rails => Sys2Proof.Machine.execSupplyReset rails s
  | .supplyRecovery => Sys2Proof.Machine.execSupplyRecovery s
  | .clockLoss ring => Sys2Proof.Machine.execClockLoss ring s
  | .thermalWarning sensor reading => Sys2Proof.Machine.execThermalWarning sensor reading s
  | .trip sensor reading => Sys2Proof.Machine.execTrip sensor reading s
  | .blockWrite => Sys2Proof.Machine.execBlockWrite s
  | .logEntry => Sys2Proof.Machine.execLogEntry s
  | .freeze m v => Sys2Proof.Machine.execFreeze m v s
  | .extest => Sys2Proof.Machine.execExtest s
  | .samplePreload cells => Sys2Proof.Machine.execSamplePreload cells s
  | .idcode => Sys2Proof.Machine.execIdcode s
  | .clamp => Sys2Proof.Machine.execClamp s
  | .highz => Sys2Proof.Machine.execHighz s
  | .extestPulse => Sys2Proof.Machine.execExtestPulse s
  | .extestTrain => Sys2Proof.Machine.execExtestTrain s
  | .dbgAccess x => Sys2Proof.Machine.execDbgAccess s x
  | .bypass => Sys2Proof.Machine.execBypass s
  | .trstN => Sys2Proof.Machine.execTrstN s
  | .clockRecovery => Sys2Proof.Machine.execClockRecovery s
  | .thermalWarningEnd => Sys2Proof.Machine.execThermalWarningEnd s
  | .hostLinkUp speed width cxl => Sys2Proof.Machine.execHostLinkUp speed width cxl s
  | .d0 => Sys2Proof.Machine.execD0 s
  | .msiXUnmask vec => Sys2Proof.Machine.execMsiXUnmask vec s
  | .flashCommandEnd ok => Sys2Proof.Machine.execFlashCommandEnd ok s
  | .eqTimeout p => Sys2Proof.Machine.execEqTimeout p s

end Sys2Proof.Machine
end

