-- ==== Sys2Proof/Safety.lean ====
section
/-!
DEFINITION. What statements about the machine are said in: when a step counts as safe, when an instruction executes
normally, what an instruction that retires may change, and frames over registers, engines and memory.
-/
namespace Sys2Proof.Machine

/-! ### Safe steps -/

/-- The step answers a next state: it neither faults nor is refused. -/
def Res.isNext (r : Res) : Bool :=
  match r with
  | .next _ => true
  | .fault _ => false
  | .refused _ => false

/-! ### Frames -/

/-- Every management register whose offset is not listed reads as before. -/
def OnlyRegs (s t : State) (offs : List Nat) : Prop := ∀ r : RegRef, r.off ∉ offs → t.rd r = s.rd r

/-- Every engine but `e` is as before. -/
def OnlyEng (s t : State) (e : Nat) : Prop := ∀ j, j ≠ e → t.eng j = s.eng j

/-- The four words of EN_PMC_CYC and EN_PMC_RET of an engine (R561). -/
def pmcOffs (e : Nat) : List Nat :=
  [(Reg.enPmcCyc e).off, (Reg.enPmcCyc e).off + 4, (Reg.enPmcRet e).off, (Reg.enPmcRet e).off + 4]

/-- Nothing of the part differs but engine `e` and its cycle and retirement counters: no byte of memory, no queue, no
other register, no other engine. -/
def Touches (s t : State) (e : Nat) : Prop :=
  t = { s with engines := t.engines, regs := t.regs } ∧ OnlyEng s t e ∧ OnlyRegs s t (pmcOffs e)

/-- The answers that have come for an engine's streams, walks and steps, those for fetch apart. -/
def Engine.answers (x : Engine) : List Got := x.got.filter (fun g => decide (g.who < 1000))

/-- Nothing of an engine differs but its registers, its placement's cycle count, and what fetch holds and has asked for. -/
def SameUnits (x y : Engine) : Prop :=
  y = { x with arch := y.arch, place := x.place.map Placement.ticked, pq := y.pq, flight := y.flight, lbuf := y.lbuf,
               fetches := y.fetches, got := y.got } ∧ y.answers = x.answers

/-- The same for a branch or jump, which also teaches the branch predictor (R134). -/
def SameUnitsB (x y : Engine) : Prop :=
  y = { x with arch := y.arch, place := x.place.map Placement.ticked, pq := y.pq, flight := y.flight, lbuf := y.lbuf,
               fetches := y.fetches, got := y.got, btb := y.btb } ∧ y.answers = x.answers

/-! ### When an instruction executes normally -/

/-- Engine `e` issues: it is active and waits for nothing (R37, R111): no load, no WAITE, no exception entry and no re-issue is
in progress, and what the latest entry wrote has been performed (R156, R170, R214). -/
def State.issues (s : State) (e : Nat) : Bool :=
  s.active e && (s.eng e).pend.isNone && (s.eng e).waite.isNone && (s.eng e).entry.isNone && (s.eng e).reissue.isNone &&
    s.entryWritten e

/-- The instruction executes normally: it issues, is selected, has no illegal-encoding cause, meets no checker and is
allowed by the privilege. `bad` is the cause that its own operand field gives. -/
def State.executes (s : State) (e : Nat) (p : Pfx) (op bad : Nat) : Bool :=
  s.issues e && (s.eng e).arch.selects p && ((s.eng e).arch.illegal e p op bad == 0) && (p.chk == .good) &&
    (!isPriv op || (s.eng e).arch.sup)

/-- Operand width of an instruction (R87). -/
def opW (p : Pfx) : Nat := (pInfo p).w

/-- The low w bits of a general register. -/
def Arch.opnd (a : Arch) (w n : Nat) : BitVec w := (a.rdG n).setWidth w

/-! ### What an instruction that retires leaves -/

/-- The instruction has executed in engine `e` and retired: its effect on the registers is `g`, then those go on as
retirement says, and nothing else of the part differs. -/
def Retires (s t : State) (e : Nat) (p : Pfx) (op : Nat) (g : Arch → Arch) : Prop :=
  Touches s t e ∧ SameUnits (s.eng e) (t.eng e) ∧
    (t.eng e).arch = (g (s.eng e).arch.held).retire (pLen p op) .next

/-- The same for an instruction that goes on by `c`, as branches and loops do, and may teach the branch predictor. -/
def RetiresB (s t : State) (e : Nat) (p : Pfx) (op : Nat) (g : Arch → Arch) (c : Ctl) : Prop :=
  Touches s t e ∧ SameUnitsB (s.eng e) (t.eng e) ∧ (t.eng e).arch = (g (s.eng e).arch.held).retire (pLen p op) c

/-- A register-register integer instruction whose result on FLAGS, x and y at width w is `v`, already extended to 64
bits, and whose FLAGS are `fl`; `unary` says that B must be 0 and `ok` when it traps nothing. -/
def IntResult (c : Nat → Pfx → FmtR → Instr) (op : Nat) (unary : Bool)
    (ok : (w : Nat) → W64 → Bool → BitVec w → BitVec w → Prop)
    (v : (w : Nat) → W64 → BitVec w → BitVec w → W64) (fl : (w : Nat) → W64 → BitVec w → BitVec w → W64) : Prop :=
  ∀ (s : State) (e : Nat) (p : Pfx) (f : FmtR), f.z = 0 → (unary = true → f.b = 0) → s.executes e p op 0 = true →
    ok (opW p) (s.eng e).arch.flags (s.eng e).arch.ove ((s.eng e).arch.opnd (opW p) f.a.toNat) ((s.eng e).arch.opnd (opW p) f.b.toNat) →
    ∃ t, exec (c e p f) s = .next t ∧
      Retires s t e p op (fun a =>
        { a with flags := fl (opW p) a.flags (a.opnd (opW p) f.a.toNat) (a.opnd (opW p) f.b.toNat) }.wrG f.d.toNat
          (v (opW p) a.flags (a.opnd (opW p) f.a.toNat) (a.opnd (opW p) f.b.toNat)))

/-- An integer instruction of row 0x4; `signed` says how its immediate is extended and `unary` that A must be 0. -/
def ImmResult (c : Nat → Pfx → FmtI → Instr) (op : Nat) (unary signed : Bool)
    (ok : (w : Nat) → W64 → Bool → BitVec w → BitVec w → Prop)
    (v : (w : Nat) → W64 → BitVec w → BitVec w → W64) (fl : (w : Nat) → W64 → BitVec w → BitVec w → W64) : Prop :=
  ∀ (s : State) (e : Nat) (p : Pfx) (f : FmtI), (unary = true → f.a = 0) → immCause p f.imm.toNat = 0 →
    s.executes e p op 0 = true →
    ok (opW p) (s.eng e).arch.flags (s.eng e).arch.ove ((s.eng e).arch.opnd (opW p) f.a.toNat) ((immI p f signed).setWidth (opW p)) →
    ∃ t, exec (c e p f) s = .next t ∧
      Retires s t e p op (fun a =>
        { a with flags := fl (opW p) a.flags (a.opnd (opW p) f.a.toNat) ((immI p f signed).setWidth (opW p)) }.wrG f.d.toNat
          (v (opW p) a.flags (a.opnd (opW p) f.a.toNat) ((immI p f signed).setWidth (opW p))))

/-- Nothing is asked of the operands. -/
def always (w : Nat) (_ : W64) (_ : Bool) (_ _ : BitVec w) : Prop := True

/-- FLAGS stay as they are. -/
def keepFlags (w : Nat) (f : W64) (_ _ : BitVec w) : W64 := f

/-- FLAGS N, Z, C and V of a sum x + y + c (R104). -/
def sumFlags (w : Nat) (f : W64) (x y : BitVec w) (c : Nat) : W64 :=
  let r := x + y + BitVec.ofNat w c
  putNzcv f r.msb (decide (r = 0)) (decide (2 ^ w ≤ x.toNat + y.toNat + c)) (decide (x.toInt + y.toInt + c ≠ r.toInt))

/-- FLAGS N, Z, C and V of a difference x − y; C is the borrow (R104). -/
def diffFlags (w : Nat) (f : W64) (x y : BitVec w) : W64 :=
  let r := x - y
  putNzcv f r.msb (decide (r = 0)) (decide (x.toNat < y.toNat)) (decide (x.toInt - y.toInt ≠ r.toInt))

/-- A register instruction of rows 0x9 and 0xA completes with effect `g` on the registers; `unary` says that B must be
0. -/
def RegResult (c : Nat → Pfx → FmtR → Instr) (op : Nat) (unary : Bool) (g : Pfx → FmtR → Arch → Arch) : Prop :=
  ∀ (s : State) (e : Nat) (p : Pfx) (f : FmtR), f.z = 0 → (unary = true → f.b = 0) → s.executes e p op 0 = true →
    ∃ t, exec (c e p f) s = .next t ∧ Retires s t e p op (g p f)

/-- Lane `i` of a short-vector register. -/
def laneOf (w i : Nat) (x : W128) : BitVec w := x.extractLsb' (w * i) w

/-- A short-vector instruction: every lane of the result is `op` of the lanes of the operands, and nothing else of the
registers differs before retirement. -/
def LaneResult (c : Nat → Pfx → FmtR → Instr) (opc : Nat) (op : (w : Nat) → BitVec w → BitVec w → BitVec w) : Prop :=
  ∀ (s : State) (e : Nat) (p : Pfx) (f : FmtR), f.z = 0 → s.executes e p opc 0 = true →
    ∃ t v, exec (c e p f) s = .next t ∧
      (∀ i, i < 128 / (opW p) → laneOf (opW p) i v =
        op (opW p) (laneOf (opW p) i ((s.eng e).arch.rdQ f.a.toNat)) (laneOf (opW p) i ((s.eng e).arch.rdQ f.b.toNat))) ∧
      Retires s t e p opc (fun a => a.wrQ f.d.toNat v)

/-! ### Management writes -/

/-- A write of master `m` to a window offset takes effect in this part (R22, R397, R482, R559). -/
def State.direct (s : State) (m off : Nat) : Bool :=
  s.accessOk m off 4 && !(m = 41 && s.actMode.mirrored && !ownSideBlock off) &&
    !(m = 35 && (s.forwarding || s.pacer) && !ownSideBlock off)

/-- The state in which a direct write takes effect: a Record Unit that is active has logged the host's and the debug port's
writes, but for its own block and the doorbells (R552). -/
def State.noted (s : State) (m off : Nat) (v : BitVec 32) : State :=
  if (m = 35 || m = 41) && off / 0x100000 ≠ 0xE && !isDoorbell off then s.log 0x04 (off % 2 ^ 30) (v.setWidth 64) [] else s

/-- The registers at the offset follow their access codes alone when written: no register of the events, timers and host
port, and none whose write acts. -/
def plainOffset (off : Nat) : Bool :=
  !([0xB, 0xC, 0xD].contains (off / 0x100000)) && !([8, 0xC, 0x100014, 0x301000, 0x301C00, 0xA00004].contains off) &&
    !(0x100100 ≤ off && off < 0x100200)

/-! ### Pulses -/

/-- The registers that pulses may change: flags, group enables, channel status, timers (R434, R435, R444, R452). -/
def pulseOffs : List Nat :=
  Reg.evtGroupEn.off :: ((List.range 8).map (fun k => (Reg.evtFlag k).off) ++
    (List.range 256).map (fun c => (Reg.evtChStat c).off) ++
    (List.range 32).flatMap (fun j => [(Reg.cdtCount j).off, (Reg.cdtStat j).off]))

/-- Channel `c` alone lists the producer code. -/
def State.soleListener (s : State) (code c : Nat) : Prop :=
  (List.range 256).filter (fun d => s.lists d code) = [c]

/-- A pulse on channel `c` in hub cycle `now` is accepted (R431, R440, R442, R444). -/
def State.accepts (s : State) (c now : Nat) : Bool :=
  s.groupOn c && !s.bit (Reg.evtChStat c) 1 &&
    (SMap.get 0 s.evt.lastAcc c = 0 || SMap.get 0 s.evt.lastAcc c + 3 < now + 1)

/-! ### Links -/

/-- The register that holds a port's training state (Tables 11.19, 12.10). -/
def ltsOff (p : Nat) : Nat := if p < 2 then (Reg.ringPortStat p).off else Reg.pairStat.off

/-- A flit arrives good and in the order of its link, and is of a kind and class that the link layer passes on (R355 to
R358). -/
def State.inOrder (s : State) (p : Nat) (f : Flit) (crc : BitVec 32) : Prop :=
  s.lts p = 6 ∧ crc = flitCrc f ∧ f.nak = 0 ∧ f.seq = (s.port p).rxSeq + 1 ∧ f.kind.toNat ∈ [1, 2, 3, 4] ∧ f.cls ≠ 3 ∧
    (f.reqr.toNat ≤ 513 ∨ f.reqr.toNat = 1023)

/-- A flit on a ring port is for this part alone, from a part that is not lost (R372, R378). -/
def State.forHere (s : State) (f : Flit) : Prop :=
  f.dst.toNat = s.pos ∧ f.src ≠ f.dst ∧ s.bit Reg.ringLost f.src.toNat = false

/-- A record of the class waits at the Fault Collector. -/
def State.reports (s : State) (cls : Nat) : Prop := ∃ r ∈ s.flt.queue, r.cls = cls

/-! ### Resets -/

/-- Registers that a reset of the part may keep: fused numbers, the Keep tile, and the monitors (R509, R546, R584). -/
def outlives (off : Nat) : Bool :=
  [0x10, 0x14, 0x200008, 0x20000C, 0x208000, 0x208004, 0x208008, 0x208014].contains off || (0x108000 ≤ off && off ≤ 0x10B000)

/-- What a reset of the part leaves, whichever way it comes: no engine holds work, no Task is known, no byte of memory outside
the expanders is left, the Time Base is 0, and every register that a reset does not keep has its reset value, LAP_CFG that of the ordering
code. -/
def State.afterAnyReset (s t : State) : Prop :=
  t.engines = [] ∧ t.sta = State.reset.sta ∧ t.tb = 0 ∧ t.pair = State.reset.pair ∧ t.evt = State.reset.evt ∧
    t.recd = State.reset.recd ∧ t.pendMode = none ∧ t.pending = s.pending ∧
    (∀ r : RegRef, outlives r.off = false → (t.ord14 = true → r.off ≠ Reg.lapCfg.off) → t.rd r = r.rst) ∧
    (t.ord14 = true → t.rd Reg.lapCfg = 0x36B0000A) ∧
    (∀ a, SMap.get 0 t.m.mem a = 0 ∨ SMap.get 0 t.m.mem a = SMap.get 0 s.m.mem a) ∧
    (∀ i, i < 1024 → t.rd64 (Reg.keepReg i) = s.rd64 (Reg.keepReg i))

end Sys2Proof.Machine
end

