-- ==== Sys2Proof/Certificates/Slice0/Obligations.lean ====
section
/-!
DEFINITION. The statements for the provers, from the spec's numbered rules.
-/
open Sys2Proof
open Sys2Proof.Machine

/-! ### Integer instructions (spec/03_sequencer_isa.md, R87, R88, R104, R105) -/

/-- R104, R105, R87: ADD, ADDC, SUB and ADDI that do not trap write the w-bit sum or difference, sign-extended, to G[D]
and N, Z, C and V to FLAGS; nothing else differs but what retirement changes. -/
def Claims.AddSubComplete : Prop :=
  IntResult .add 0x20 false (fun w _ ove x y => ove = true → x.toInt + y.toInt = (x + y : BitVec w).toInt)
    (fun _ _ x y => (x + y).signExtend 64) (fun w f x y => sumFlags w f x y 0) ∧
  IntResult .addc 0x3F false
    (fun w f ove x y => ove = true → x.toInt + y.toInt + (flagC f).toNat = (x + y + BitVec.ofNat w (flagC f).toNat).toInt)
    (fun w f x y => (x + y + BitVec.ofNat w (flagC f).toNat).signExtend 64) (fun w f x y => sumFlags w f x y (flagC f).toNat) ∧
  IntResult .sub 0x21 false (fun w _ ove x y => ove = true → x.toInt - y.toInt = (x - y : BitVec w).toInt)
    (fun _ _ x y => (x - y).signExtend 64) diffFlags ∧
  ImmResult .addi 0x40 false true (fun w _ ove x y => ove = true → x.toInt + y.toInt = (x + y : BitVec w).toInt)
    (fun _ _ x y => (x + y).signExtend 64) (fun w f x y => sumFlags w f x y 0)

/-- R104, R87: the logical instructions and the moves write their zero-extended result, MOVI and SEXT their sign-extended
one, and leave FLAGS alone. -/
def Claims.LogicMoveComplete : Prop :=
  IntResult .and 0x22 false always (fun _ _ x y => (x &&& y).setWidth 64) keepFlags ∧
  IntResult .or 0x23 false always (fun _ _ x y => (x ||| y).setWidth 64) keepFlags ∧
  IntResult .xor 0x24 false always (fun _ _ x y => (x ^^^ y).setWidth 64) keepFlags ∧
  IntResult .andn 0x25 false always (fun _ _ x y => (x &&& ~~~y).setWidth 64) keepFlags ∧
  IntResult .mov 0x38 true always (fun _ _ x _ => x.setWidth 64) keepFlags ∧
  IntResult .sext 0x3D true always (fun _ _ x _ => x.signExtend 64) keepFlags ∧
  IntResult .zext 0x3E true always (fun _ _ x _ => x.setWidth 64) keepFlags ∧
  ImmResult .andi 0x41 false false always (fun _ _ x y => (x &&& y).setWidth 64) keepFlags ∧
  ImmResult .ori 0x42 false false always (fun _ _ x y => (x ||| y).setWidth 64) keepFlags ∧
  ImmResult .xori 0x43 false false always (fun _ _ x y => (x ^^^ y).setWidth 64) keepFlags ∧
  ImmResult .movi 0x4C true true always (fun _ _ _ y => y.signExtend 64) keepFlags

/-- R104, R87: shifts and rotates by the operand modulo w. -/
def Claims.ShiftComplete : Prop :=
  IntResult .shl 0x26 false always (fun w _ x y => (x <<< (y.toNat % w)).setWidth 64) keepFlags ∧
  IntResult .shr 0x27 false always (fun w _ x y => (x >>> (y.toNat % w)).setWidth 64) keepFlags ∧
  IntResult .sar 0x28 false always (fun w _ x y => (x.sshiftRight (y.toNat % w)).signExtend 64) keepFlags ∧
  IntResult .rol 0x29 false always (fun w _ x y => (x.rotateLeft (y.toNat % w)).setWidth 64) keepFlags ∧
  ImmResult .shli 0x44 false true always (fun w _ x y => (x <<< (y.toNat % w)).setWidth 64) keepFlags ∧
  ImmResult .shri 0x45 false true always (fun w _ x y => (x >>> (y.toNat % w)).setWidth 64) keepFlags ∧
  ImmResult .sari 0x46 false true always (fun w _ x y => (x.sshiftRight (y.toNat % w)).signExtend 64) keepFlags ∧
  ImmResult .roli 0x47 false true always (fun w _ x y => (x.rotateLeft (y.toNat % w)).setWidth 64) keepFlags

/-- R104, R105: MUL and MULI write the low half of the product and V := ov; MULH and MULHU the high half, FLAGS as before. -/
def Claims.MultiplyComplete : Prop :=
  IntResult .mul 0x2A false (fun w _ ove x y => ove = true → x.toInt * y.toInt = (x * y : BitVec w).toInt)
    (fun _ _ x y => (x * y).signExtend 64) (fun w f x y => putV f (decide (x.toInt * y.toInt ≠ (x * y : BitVec w).toInt))) ∧
  IntResult .mulh 0x2B false always (fun w _ x y => (BitVec.ofInt w (x.toInt * y.toInt / (2 : Int) ^ w)).signExtend 64) keepFlags ∧
  IntResult .mulhu 0x2C false always (fun w _ x y => (BitVec.ofNat w (x.toNat * y.toNat / 2 ^ w)).setWidth 64) keepFlags ∧
  ImmResult .muli 0x48 false true (fun w _ ove x y => ove = true → x.toInt * y.toInt = (x * y : BitVec w).toInt)
    (fun _ _ x y => (x * y).signExtend 64) (fun w f x y => putV f (decide (x.toInt * y.toInt ≠ (x * y : BitVec w).toInt)))

/-- R104, R105, R261, R262: with a divisor other than 0, DIV, DIVU, REM and REMU write the quotient rounded toward zero or
the remainder with the sign of a; V := ov in DIV alone. -/
def Claims.DivideComplete : Prop :=
  IntResult .div 0x2D false
    (fun w _ ove x y => y ≠ 0 ∧ (ove = true → ¬(x = BitVec.intMin w ∧ y = -1#w)))
    (fun _ _ x y => (x.sdiv y).signExtend 64)
    (fun w f x y => putV f (decide (x = BitVec.intMin w ∧ y = -1#w))) ∧
  IntResult .divu 0x2E false (fun _ _ _ _ y => y ≠ 0) (fun _ _ x y => (x / y).setWidth 64) keepFlags ∧
  IntResult .rem 0x2F false (fun _ _ _ _ y => y ≠ 0) (fun _ _ x y => (x.srem y).signExtend 64) keepFlags ∧
  IntResult .remu 0x30 false (fun _ _ _ _ y => y ≠ 0) (fun _ _ x y => (x % y).setWidth 64) keepFlags

/-- R104: the smaller or the larger operand, signed or unsigned, and the set-if-less instructions. -/
def Claims.MinMaxSetComplete : Prop :=
  IntResult .min 0x32 false always (fun _ _ x y => (if x.toInt ≤ y.toInt then x else y).signExtend 64) keepFlags ∧
  IntResult .max 0x33 false always (fun _ _ x y => (if x.toInt ≤ y.toInt then y else x).signExtend 64) keepFlags ∧
  IntResult .minu 0x34 false always (fun _ _ x y => (if x.toNat ≤ y.toNat then x else y).setWidth 64) keepFlags ∧
  IntResult .maxu 0x35 false always (fun _ _ x y => (if x.toNat ≤ y.toNat then y else x).setWidth 64) keepFlags ∧
  IntResult .slt 0x36 false always (fun _ _ x y => if x.toInt < y.toInt then 1 else 0) keepFlags ∧
  IntResult .sltu 0x37 false always (fun _ _ x y => if x.toNat < y.toNat then 1 else 0) keepFlags ∧
  ImmResult .slti 0x4A false true always (fun _ _ x y => if x.toInt < y.toInt then 1 else 0) keepFlags ∧
  ImmResult .sltiu 0x4B false true always (fun _ _ x y => if x.toNat < y.toNat then 1 else 0) keepFlags

/-- R104: CMP, CMPI and TSTI write FLAGS alone; no general register changes. -/
def Claims.CompareComplete : Prop :=
  (∀ (s : State) (e : Nat) (p : Pfx) (f : FmtR), f.z = 0 → f.d = 0 → s.executes e p 0x31 0 = true →
    ∃ t, exec (.cmp e p f) s = .next t ∧ Retires s t e p 0x31 (fun a =>
      { a with flags := diffFlags (opW p) a.flags (a.opnd (opW p) f.a.toNat) (a.opnd (opW p) f.b.toNat) })) ∧
  (∀ (s : State) (e : Nat) (p : Pfx) (f : FmtI), f.d = 0 → immCause p f.imm.toNat = 0 → s.executes e p 0x49 0 = true →
    ∃ t, exec (.cmpi e p f) s = .next t ∧ Retires s t e p 0x49 (fun a =>
      { a with flags := diffFlags (opW p) a.flags (a.opnd (opW p) f.a.toNat) ((immI p f true).setWidth (opW p)) })) ∧
  (∀ (s : State) (e : Nat) (p : Pfx) (f : FmtI), f.d = 0 → immCause p f.imm.toNat = 0 → s.executes e p 0x4E 0 = true →
    ∃ t, exec (.tsti e p f) s = .next t ∧ Retires s t e p 0x4E (fun a =>
      let r := a.opnd (opW p) f.a.toNat &&& (immI p f false).setWidth (opW p)
      { a with flags := putNzcv a.flags r.msb (decide (r = 0)) false false }))

/-- R104: CLZ, CTZ, POPC and BSWAP, each said by what its result means for the bits of its operand. -/
def Claims.BitCountComplete : Prop :=
  ∀ (s : State) (e : Nat) (p : Pfx) (f : FmtR), f.z = 0 → f.b = 0 →
    let x := (s.eng e).arch.opnd (opW p) f.a.toNat
    (s.executes e p 0x39 0 = true → ∃ t n, exec (.clz e p f) s = .next t ∧ n ≤ opW p ∧
      (∀ i, i < n → x.getMsbD i = false) ∧ (n < opW p → x.getMsbD n = true) ∧
      Retires s t e p 0x39 (fun a => a.wrG f.d.toNat (BitVec.ofNat 64 n))) ∧
    (s.executes e p 0x3A 0 = true → ∃ t n, exec (.ctz e p f) s = .next t ∧ n ≤ opW p ∧
      (∀ i, i < n → x.getLsbD i = false) ∧ (n < opW p → x.getLsbD n = true) ∧
      Retires s t e p 0x3A (fun a => a.wrG f.d.toNat (BitVec.ofNat 64 n))) ∧
    (s.executes e p 0x3B 0 = true → ∃ t, exec (.popc e p f) s = .next t ∧
      Retires s t e p 0x3B (fun a => a.wrG f.d.toNat (BitVec.ofNat 64 ((List.range (opW p)).countP (fun i => x.getLsbD i))))) ∧
    (s.executes e p 0x3C 0 = true → ∃ t, ∃ r : BitVec (opW p), exec (.bswap e p f) s = .next t ∧
      (∀ i, i < opW p / 8 → r.extractLsb' (8 * i) 8 = x.extractLsb' (opW p - 8 - 8 * i) 8) ∧
      Retires s t e p 0x3C (fun a => a.wrG f.d.toNat (r.setWidth 64)))

/-- R105: a zero divisor raises the divide-by-zero exception, vector 0x0C, in DIV, DIVU, REM and REMU; one engine cycle
passes, and neither G[D] nor FLAGS is written before the exception's entry. -/
def Claims.DivideByZeroTraps : Prop :=
  ∀ (c : Nat → Pfx → FmtR → Instr) (op : Nat),
    (c, op) ∈ [(Instr.div, 0x2D), (Instr.divu, 0x2E), (Instr.rem, 0x2F), (Instr.remu, 0x30)] →
    ∀ (s : State) (e : Nat) (p : Pfx) (f : FmtR), f.z = 0 → s.executes e p op 0 = true →
      (s.eng e).arch.opnd (opW p) f.b.toNat = 0 →
      exec (c e p f) s = .next ((s.cycle e).except e 0x0C 0 0 none false none)

/-- R105: with PSR.OVE = 1, ADD, ADDI, ADDC, SUB, MUL, MULI and DIV with ov set raise the overflow exception, vector 0x0D, and write
neither G[D] nor FLAGS. -/
def Claims.OverflowTraps : Prop :=
  ∀ (s : State) (e : Nat) (p : Pfx), (s.eng e).arch.ove = true →
    let trapped : State := (s.cycle e).except e 0x0D 0 0 none false none
    (∀ (f : FmtR), f.z = 0 →
      let x := (s.eng e).arch.opnd (opW p) f.a.toNat
      let y := (s.eng e).arch.opnd (opW p) f.b.toNat
      let c := (flagC (s.eng e).arch.flags).toNat
      (s.executes e p 0x20 0 = true → x.toInt + y.toInt ≠ (x + y).toInt → exec (.add e p f) s = .next trapped) ∧
      (s.executes e p 0x3F 0 = true → x.toInt + y.toInt + c ≠ (x + y + BitVec.ofNat (opW p) c).toInt →
        exec (.addc e p f) s = .next trapped) ∧
      (s.executes e p 0x21 0 = true → x.toInt - y.toInt ≠ (x - y).toInt → exec (.sub e p f) s = .next trapped) ∧
      (s.executes e p 0x2A 0 = true → x.toInt * y.toInt ≠ (x * y).toInt → exec (.mul e p f) s = .next trapped) ∧
      (s.executes e p 0x2D 0 = true → x = BitVec.intMin (opW p) → y = -1#(opW p) → exec (.div e p f) s = .next trapped)) ∧
    (∀ (f : FmtI), immCause p f.imm.toNat = 0 →
      let x := (s.eng e).arch.opnd (opW p) f.a.toNat
      let y : BitVec (opW p) := (immI p f true).setWidth (opW p)
      (s.executes e p 0x40 0 = true → x.toInt + y.toInt ≠ (x + y).toInt → exec (.addi e p f) s = .next trapped) ∧
      (s.executes e p 0x48 0 = true → x.toInt * y.toInt ≠ (x * y).toInt → exec (.muli e p f) s = .next trapped))

/-- R88: without an extension, IMM14 is sign-extended, or zero-extended in ANDI, ORI, XORI and TSTI; under one of 2 or 4
bytes the extension stands above it; one of 8 bytes is the immediate alone. -/
def Obligations.ImmediateForms : Prop :=
  ∀ (c : Check) (x : W64) (f : FmtI),
    immI ⟨[], 0, c⟩ f true = f.imm.signExtend 64 ∧
    immI ⟨[], 0, c⟩ f false = f.imm.setWidth 64 ∧
    immI ⟨[0xF4], x, c⟩ f true = (x.setWidth 16 ++ f.imm : BitVec 30).signExtend 64 ∧
    immI ⟨[0xF4], x, c⟩ f false = (x.setWidth 16 ++ f.imm : BitVec 30).setWidth 64 ∧
    immI ⟨[0xF5], x, c⟩ f true = (x.setWidth 32 ++ f.imm : BitVec 46).signExtend 64 ∧
    immI ⟨[0xF5], x, c⟩ f false = (x.setWidth 32 ++ f.imm : BitVec 46).setWidth 64 ∧
    immI ⟨[0xF6], x, c⟩ f true = x ∧ immI ⟨[0xF6], x, c⟩ f false = x

/-! ### Floating point and short vectors (R75, R108 to R110, R265 to R274) -/

/-- R108, R75, R78: the floating-point instructions write their result, rounded by FLAGS.RM, to F[D] (FCVTFI to G[D]),
clear the rest of Q[D] and set the sticky flags; no other register or flag changes. -/
def Claims.FloatArithmeticComplete : Prop :=
  RegResult .fadd 0x90 false (fun p f a => a.putF (opW p) f.d.toNat
    ((fmtOf p).add (fenvOf a.flags) (a.rdF (opW p) f.a.toNat) (a.rdF (opW p) f.b.toNat))) ∧
  RegResult .fsub 0x91 false (fun p f a => a.putF (opW p) f.d.toNat
    ((fmtOf p).sub (fenvOf a.flags) (a.rdF (opW p) f.a.toNat) (a.rdF (opW p) f.b.toNat))) ∧
  RegResult .fmul 0x92 false (fun p f a => a.putF (opW p) f.d.toNat
    ((fmtOf p).mul (fenvOf a.flags) (a.rdF (opW p) f.a.toNat) (a.rdF (opW p) f.b.toNat))) ∧
  RegResult .fdiv 0x93 false (fun p f a => a.putF (opW p) f.d.toNat
    ((fmtOf p).div (fenvOf a.flags) (a.rdF (opW p) f.a.toNat) (a.rdF (opW p) f.b.toNat))) ∧
  RegResult .fsqrt 0x94 true (fun p f a => a.putF (opW p) f.d.toNat
    ((fmtOf p).sqrt (fenvOf a.flags) (a.rdF (opW p) f.a.toNat))) ∧
  RegResult .fmin 0x95 false (fun p f a => a.putF (opW p) f.d.toNat
    ((fmtOf p).minmax (fenvOf a.flags) true (a.rdF (opW p) f.a.toNat) (a.rdF (opW p) f.b.toNat))) ∧
  RegResult .fmax 0x96 false (fun p f a => a.putF (opW p) f.d.toNat
    ((fmtOf p).minmax (fenvOf a.flags) false (a.rdF (opW p) f.a.toNat) (a.rdF (opW p) f.b.toNat))) ∧
  RegResult .fma 0x9F false (fun p f a => a.putF (opW p) f.d.toNat
    ((fmtOf p).fma (fenvOf a.flags) (a.rdF (opW p) f.a.toNat) (a.rdF (opW p) f.b.toNat) (a.rdF (opW p) f.d.toNat))) ∧
  RegResult .fcvtif 0x99 true (fun p f a => a.putF (opW p) f.d.toNat
    ((fmtOf p).ofInt (fenvOf a.flags) (a.rdG f.a.toNat).toInt)) ∧
  RegResult .fcvtfi 0x98 true (fun p f a =>
    let r := fcvtfi (fmtOf p) (fenvOf a.flags) (a.rdF (opW p) f.a.toNat)
    { a with flags := orSticky a.flags r.2 }.wrG f.d.toNat r.1)

/-- R108, R75: FNEG, FABS and FMOV invert, clear and keep the sign bit; FMVFG and FMVGF move bits; none writes FLAGS, and
what is written to F[D] clears the rest of Q[D]. -/
def Claims.FloatMoveComplete : Prop :=
  RegResult .fneg 0x9A true (fun p f a => a.wrQ f.d.toNat
    (((a.rdQ f.a.toNat).setWidth (opW p) ^^^ BitVec.twoPow (opW p) (opW p - 1)).setWidth 128)) ∧
  RegResult .fabs 0x9B true (fun p f a => a.wrQ f.d.toNat
    (((a.rdQ f.a.toNat).setWidth (opW p) &&& ~~~(BitVec.twoPow (opW p) (opW p - 1))).setWidth 128)) ∧
  RegResult .fmov 0x9C true (fun p f a => a.wrQ f.d.toNat (((a.rdQ f.a.toNat).setWidth (opW p)).setWidth 128)) ∧
  RegResult .fmvfg 0x9D true (fun p f a => a.wrG f.d.toNat (((a.rdQ f.a.toNat).setWidth (opW p)).setWidth 64)) ∧
  RegResult .fmvgf 0x9E true (fun p f a => a.wrQ f.d.toNat (((a.rdG f.a.toNat).setWidth (opW p)).setWidth 128))

/-- R109, R271: FCMP with D = 0 writes N, Z, C and V by the relation of its operands as Table 3.15 gives, sets NV for a
signalling NaN, and writes no register. -/
def Obligations.FloatCompareComplete : Prop :=
  ∀ (s : State) (e : Nat) (p : Pfx) (f : FmtR), f.z = 0 → f.d = 0 → s.executes e p 0x97 0 = true →
    let a := (s.eng e).arch
    let x := a.rdF (opW p) f.a.toNat
    let y := a.rdF (opW p) f.b.toNat
    let fl := if (fmtOf p).isSnan x || (fmtOf p).isSnan y then a.flags ||| 0x1000 else a.flags
    ∃ t, exec (.fcmp e p f) s = .next t ∧ Retires s t e p 0x97 (fun a =>
      { a with flags := match (fmtOf p).cmp (fenvOf a.flags).daz x y with
                        | .lt => putNzcv fl true false true false
                        | .eq => putNzcv fl false true false false
                        | .gt => putNzcv fl false false false false
                        | .un => putNzcv fl false false false true })

/-- R272: the results and flags of Table 8.4, S the smallest subnormal and M the largest finite binary64 value; flags are
NV, DZ, OF, UF, NX. -/
def Obligations.Binary64Extremes : Prop :=
  let S : Nat := 1
  let M : Nat := 0x7FEFFFFFFFFFFFFF
  let inf : Nat := 0x7FF0000000000000
  let neg : Nat := 2 ^ 63
  let none : FFlags := ⟨false, false, false, false, false⟩
  let ufnx : FFlags := ⟨false, false, false, true, true⟩
  let ofnx : FFlags := ⟨false, false, true, false, true⟩
  let nx : FFlags := ⟨false, false, false, false, true⟩
  let rms : List Nat := [0, 1, 2, 3]
  let env : Nat → FEnv := fun rm => ⟨rm, false, false⟩
  rms.map (fun rm => f64.add (env rm) S S) = [(2, none), (2, none), (2, none), (2, none)] ∧
  rms.map (fun rm => f64.sub (env rm) S S) = [(0, none), (0, none), (0, none), (neg, none)] ∧
  rms.map (fun rm => f64.mul (env rm) S S) = [(0, ufnx), (0, ufnx), (S, ufnx), (0, ufnx)] ∧
  rms.map (fun rm => f64.mul (env rm) S 0x3FE0000000000000) = [(0, ufnx), (0, ufnx), (S, ufnx), (0, ufnx)] ∧
  rms.map (fun rm => f64.mul (env rm) S 0x3FF8000000000000) = [(2, ufnx), (S, ufnx), (2, ufnx), (S, ufnx)] ∧
  rms.map (fun rm => f64.div (env rm) S M) = [(0, ufnx), (0, ufnx), (S, ufnx), (0, ufnx)] ∧
  rms.map (fun rm => f64.add (env rm) M M) = [(inf, ofnx), (M, ofnx), (inf, ofnx), (M, ofnx)] ∧
  rms.map (fun rm => f64.mul (env rm) M M) = [(inf, ofnx), (M, ofnx), (inf, ofnx), (M, ofnx)] ∧
  rms.map (fun rm => f64.div (env rm) M S) = [(inf, ofnx), (M, ofnx), (inf, ofnx), (M, ofnx)] ∧
  rms.map (fun rm => f64.add (env rm) M S) = [(M, nx), (M, nx), (inf, ofnx), (M, nx)] ∧
  rms.map (fun rm => f64.sub (env rm) M M) = [(0, none), (0, none), (0, none), (neg, none)] ∧
  rms.map (fun rm => f64.mul (env rm) M S) = List.replicate 4 (0x3CCFFFFFFFFFFFFF, none) ∧
  rms.map (fun rm => f64.sqrt (env rm) S) = List.replicate 4 (0x1E60000000000000, none) ∧
  rms.map (fun rm => f64.sqrt (env rm) M) =
    [(0x5FEFFFFFFFFFFFFF, nx), (0x5FEFFFFFFFFFFFFF, nx), (0x5FF0000000000000, nx), (0x5FEFFFFFFFFFFFFF, nx)] ∧
  rms.map (fun rm => f64.fma (env rm) M 0x4000000000000000 (neg + M)) = List.replicate 4 (M, none) ∧
  rms.map (fun rm => fconv f64 f32 (env rm) M) = [(0x7F800000, ofnx), (0x7F7FFFFF, ofnx), (0x7F800000, ofnx), (0x7F7FFFFF, ofnx)] ∧
  rms.map (fun rm => fconv f64 f32 (env rm) S) = [(0, ufnx), (0, ufnx), (1, ufnx), (0, ufnx)] ∧
  rms.map (fun rm => fcvtfi f64 (env rm) M) = List.replicate 4 (0x8000000000000000, FFlags.invalid) ∧
  rms.map (fun rm => fcvtfi f64 (env rm) S) = [(0, nx), (0, nx), (1, nx), (0, nx)]

/-- R268, R269: in both formats and under every rounding and zero mode, the first NaN operand comes back quiet, a
signalling one raises NV; 0 ÷ 0 is the default NaN with NV, and a finite non-zero number divided by a zero is an infinity
with the exclusive-or of the signs and DZ. -/
def Obligations.NanAndZeroRules : Prop :=
  ∀ (t : FFmt), t = f64 ∨ t = f32 → ∀ (env : FEnv) (a b : Nat), a < 2 * t.signBit → b < 2 * t.signBit →
    (t.isNan a = true → ∀ op ∈ [t.add, t.sub, t.mul, t.div],
      op env a b = (t.quiet a, ⟨t.isSnan a || t.isSnan b, false, false, false, false⟩)) ∧
    (t.isNan a = false → t.isNan b = true → ∀ op ∈ [t.add, t.sub, t.mul, t.div],
      op env a b = (t.quiet b, ⟨t.isSnan b, false, false, false, false⟩)) ∧
    (a % t.signBit = 0 → b % t.signBit = 0 → t.div env a b = (t.defNan, FFlags.invalid)) ∧
    (env.daz = false → 0 < a % t.signBit → a % t.signBit < t.infBits → b % t.signBit = 0 →
      t.div env a b = (t.withSign (t.sign a != t.sign b) t.infBits, ⟨false, true, false, false, false⟩))

/-- R110: the integer and logical short-vector instructions compute every lane of Q[D] from the same lane of Q[A] and
Q[B], without flags. -/
def Claims.ShortVectorComplete : Prop :=
  LaneResult .qadd 0xA0 (fun _ x y => x + y) ∧
  LaneResult .qsub 0xA1 (fun _ x y => x - y) ∧
  LaneResult .qmul 0xA2 (fun _ x y => x * y) ∧
  LaneResult .qand 0xA3 (fun _ x y => x &&& y) ∧
  LaneResult .qor 0xA4 (fun _ x y => x ||| y) ∧
  LaneResult .qxor 0xA5 (fun _ x y => x ^^^ y) ∧
  LaneResult .qmin 0xA6 (fun _ x y => if x.toInt ≤ y.toInt then x else y) ∧
  LaneResult .qmax 0xA7 (fun _ x y => if x.toInt ≤ y.toInt then y else x) ∧
  LaneResult .qminu 0xA8 (fun _ x y => if x.toNat ≤ y.toNat then x else y) ∧
  LaneResult .qmaxu 0xA9 (fun _ x y => if x.toNat ≤ y.toNat then y else x) ∧
  LaneResult .qceq 0xAA (fun w x y => if x = y then BitVec.allOnes w else 0) ∧
  LaneResult .qcgt 0xAB (fun w x y => if y.toInt < x.toInt then BitVec.allOnes w else 0) ∧
  LaneResult .qcgtu 0xAC (fun w x y => if y.toNat < x.toNat then BitVec.allOnes w else 0)

/-- R110: QSHUF sets each byte of Q[D] from its control byte; QFADD and QFMUL round each lane as the scalar forms do and
join the lanes' sticky flags. -/
def Claims.ShuffleAndFloatLanesComplete : Prop :=
  (∀ (s : State) (e : Nat) (p : Pfx) (f : FmtR), f.z = 0 → s.executes e p 0xAD 0 = true →
    let x := (s.eng e).arch.rdQ f.a.toNat
    let y := (s.eng e).arch.rdQ f.b.toNat
    ∃ t v, exec (.qshuf e p f) s = .next t ∧
      (∀ i, i < 16 → laneOf 8 i v =
        if (laneOf 8 i y).getLsbD 7 then 0 else laneOf 8 ((laneOf 8 i y).toNat % 16) x) ∧
      Retires s t e p 0xAD (fun a => a.wrQ f.d.toNat v)) ∧
  (∀ (c : Nat → Pfx → FmtR → Instr) (opc : Nat) (op : FFmt → FEnv → Nat → Nat → Nat × FFlags),
    (c, opc, op) = (Instr.qfadd, 0xAE, FFmt.add) ∨ (c, opc, op) = (Instr.qfmul, 0xAF, FFmt.mul) →
    ∀ (s : State) (e : Nat) (p : Pfx) (f : FmtR), f.z = 0 → s.executes e p opc 0 = true →
      let a := (s.eng e).arch
      let r := fun (i : Nat) => op (fmtOf p) (fenvOf a.flags) (laneOf (opW p) i (a.rdQ f.a.toNat)).toNat
        (laneOf (opW p) i (a.rdQ f.b.toNat)).toNat
      ∃ t v, exec (c e p f) s = .next t ∧
        (∀ i, i < 128 / opW p → laneOf (opW p) i v = BitVec.ofNat (opW p) (r i).1) ∧
        Retires s t e p opc (fun a =>
          { a with flags := (List.range (128 / opW p)).foldl (fun fl i => orSticky fl (r i).2) a.flags }.wrQ f.d.toNat v))

/-! ### Conditions, branches and loops (R84, R93 to R102) -/

/-- R93: each condition code tests FLAGS as Table 3.10 gives, and the predicate prefix of code 15 is reserved. -/
def Claims.ConditionTable : Prop :=
  (∀ f : W64,
    let n := f.getLsbD 3
    let z := f.getLsbD 2
    let c := f.getLsbD 1
    let v := f.getLsbD 0
    (List.range 15).map (fun k => condHolds k f) =
      [z, !z, n != v, n == v, z || (n != v), !z && (n == v), c, !c, c || z, !c && !z, v, !v, n, !n, true]) ∧
  pkind 0xEF = .reserved ∧ ∀ k, k < 15 → pkind (0xE0 + k) = .pred

/-- R93, R104: after a compare of x and y at width w, each condition code of Table 3.10 says what its name says of the two
operands. -/
def Claims.ConditionsMeanComparisons : Prop :=
  ∀ (w : Nat) (f : W64) (x y : BitVec w), 0 < w →
    let g := diffFlags w f x y
    condHolds 0 g = decide (x = y) ∧ condHolds 1 g = decide (x ≠ y) ∧
    condHolds 2 g = decide (x.toInt < y.toInt) ∧ condHolds 3 g = decide (y.toInt ≤ x.toInt) ∧
    condHolds 4 g = decide (x.toInt ≤ y.toInt) ∧ condHolds 5 g = decide (y.toInt < x.toInt) ∧
    condHolds 6 g = decide (x.toNat < y.toNat) ∧ condHolds 7 g = decide (y.toNat ≤ x.toNat) ∧
    condHolds 8 g = decide (x.toNat ≤ y.toNat) ∧ condHolds 9 g = decide (y.toNat < x.toNat) ∧
    condHolds 10 g = decide (x.toInt - y.toInt ≠ (x - y).toInt) ∧ condHolds 11 g = decide (x.toInt - y.toInt = (x - y).toInt) ∧
    condHolds 12 g = (x - y).msb ∧ condHolds 13 g = !(x - y).msb ∧ condHolds 14 g = true

/-- R95, R96: a branch of row 0x8 completes with its delay slot pending: the target is its own address plus DISP23,
sign-extended; the slot is annulled as Table 3.11 gives; registers and FLAGS stay, but for G30 of CALL, which gets the
address that follows the delay slot. -/
def Claims.BranchComplete : Prop :=
  (∀ (c : Nat → Pfx → FmtB → Instr) (code : Nat),
    (c, code) ∈ [(Instr.beq, 0), (Instr.bne, 1), (Instr.blt, 2), (Instr.bge, 3), (Instr.ble, 4), (Instr.bgt, 5), (Instr.bltu, 6),
      (Instr.bgeu, 7), (Instr.bleu, 8), (Instr.bgtu, 9), (Instr.bvs, 10), (Instr.bvc, 11), (Instr.bmi, 12), (Instr.bpl, 13)] →
    ∀ (s : State) (e : Nat) (p : Pfx) (f : FmtB), s.executes e p (0x80 + code) 0 = true →
      let a := (s.eng e).arch
      let taken := condHolds code a.flags
      ∃ t, exec (c e p f) s = .next t ∧
        RetiresB s t e p (0x80 + code) id (.branch taken (decide (f.an = 1) && !taken) (a.pc + f.disp.signExtend 64))) ∧
  (∀ (s : State) (e : Nat) (p : Pfx) (f : FmtB), s.executes e p 0x8E 0 = true →
    ∃ t, exec (.bal e p f) s = .next t ∧
      RetiresB s t e p 0x8E id (.branch true (decide (f.an = 1)) ((s.eng e).arch.pc + f.disp.signExtend 64))) ∧
  (∀ (s : State) (e : Nat) (p : Pfx) (f : FmtB), s.executes e p 0x8F 0 = true →
    let slot := (s.eng e).arch.pc + BitVec.ofNat 64 (pLen p 0x8F)
    ∃ t, exec (.call e p f) s = .next t ∧
      RetiresB s t e p 0x8F (fun a => a.wrG 30 (slot + BitVec.ofNat 64 ((s.cycle e).peekLen e slot.toNat)))
        (.branch true (decide (f.an = 1)) ((s.eng e).arch.pc + f.disp.signExtend 64)))

/-- R95: JR and JLR go to G[G], read before JLR writes G30; SUB[0] is AN. -/
def Claims.JumpComplete : Prop :=
  ∀ (s : State) (e : Nat) (p : Pfx) (f : FmtG), f.sub.toNat / 2 = 0 →
    let target := (s.eng e).arch.rdG f.g.toNat
    (s.executes e p 0x10 0 = true → ∃ t, exec (.jr e p f) s = .next t ∧
      RetiresB s t e p 0x10 id (.branch true (decide (f.sub = 1)) target)) ∧
    (s.executes e p 0x11 0 = true →
      let slot := (s.eng e).arch.pc + BitVec.ofNat 64 (pLen p 0x11)
      ∃ t, exec (.jlr e p f) s = .next t ∧
        RetiresB s t e p 0x11 (fun a => a.wrG 30 (slot + BitVec.ofNat 64 ((s.cycle e).peekLen e slot.toNat)))
          (.branch true (decide (f.sub = 1)) target))

/-- R96, R100: how an instruction that is no branch goes on. After the delay slot of a taken branch execution continues at
the target, without the end test; else the end test closes or repeats the innermost levels that end here, and two levels
that end at one address close in one retirement. -/
def Claims.RetirementAndEndTest : Prop :=
  ∀ (a : Arch) (len : Nat),
    let next := a.pc + BitVec.ofNat 64 len
    (∀ d, a.ds = some d → d.taken = true → a.retire len .next = { a with pc := d.target, ds := none }) ∧
    ((∀ d, a.ds = some d → d.taken = false) →
      (a.ld = 0 → a.retire len .next = { a with pc := next, ds := none }) ∧
      (∀ d, a.ld = d + 1 → next ≠ SMap.get 0 a.le d → a.retire len .next = { a with pc := next, ds := none }) ∧
      (∀ d, a.ld = d + 1 → next = SMap.get 0 a.le d → 1 < (SMap.get 0 a.lc d).toNat →
        (a.retire len .next).pc = SMap.get 0 a.ls d ∧ (a.retire len .next).ld = d + 1 ∧
          (∀ k, SMap.get 0 (a.retire len .next).lc k = if k = d then SMap.get 0 a.lc d - 1 else SMap.get 0 a.lc k)) ∧
      (∀ d, a.ld = d + 1 → next = SMap.get 0 a.le d → (SMap.get 0 a.lc d).toNat ≤ 1 →
        (d = 0 ∨ next ≠ SMap.get 0 a.le (d - 1)) →
        (a.retire len .next).pc = next ∧ (a.retire len .next).ld = d ∧
          (∀ k, SMap.get 0 (a.retire len .next).lc k = if k = d then 0 else SMap.get 0 a.lc k)) ∧
      (∀ d, a.ld = d + 2 → next = SMap.get 0 a.le (d + 1) → (SMap.get 0 a.lc (d + 1)).toNat ≤ 1 → next = SMap.get 0 a.le d →
        1 < (SMap.get 0 a.lc d).toNat →
        (a.retire len .next).pc = SMap.get 0 a.ls d ∧ (a.retire len .next).ld = d + 1 ∧
          (∀ k, SMap.get 0 (a.retire len .next).lc k =
            if k = d then SMap.get 0 a.lc d - 1 else if k = d + 1 then 0 else SMap.get 0 a.lc k)))

/-- R99: LOOP and LOOPI open the level PSR.LD with start, end and count, or with a count of 0 go on after the body;
nothing but the loop registers, the pc and what fetch holds differs. With three levels open or a body of 0 bytes they raise cause 0x09. -/
def Claims.LoopComplete : Prop :=
  ∀ (c : Instr) (op : Nat) (count : W64) (s : State) (e : Nat) (p : Pfx) (f : FmtI),
    ((c, op, count) = (Instr.loop e p f, 0xB2, (s.eng e).arch.rdG f.a.toNat) ∧ f.d = 0 ∨
      (c, op, count) = (Instr.loopi e p f, 0xB3, BitVec.ofNat 64 (f.d ++ f.a : BitVec 10).toNat)) →
    s.executes e p op 0 = true →
    let a := (s.eng e).arch
    let start := a.pc + BitVec.ofNat 64 (pLen p op)
    let stop := start + f.imm.setWidth 64
    (a.ld = 3 ∨ f.imm = 0 → exec c s = .next (s.except e 0x03 0x09 0 none false none)) ∧
    (a.ld < 3 → f.imm ≠ 0 → count ≠ 0 → ∃ t, exec c s = .next t ∧
      RetiresB s t e p op (fun a =>
        { a.setLd (a.ld + 1) with
          ls := SMap.set 0 a.ls a.ld start, le := SMap.set 0 a.le a.ld stop, lc := SMap.set 0 a.lc a.ld count }) (.goto start)) ∧
    (a.ld < 3 → f.imm ≠ 0 → count = 0 → ∃ t, exec c s = .next t ∧ RetiresB s t e p op id (.goto stop))

/-- R102: LEXIT closes the innermost level and then takes part in the end test; with PSR.LD = 0 it has no effect. -/
def Claims.LexitComplete : Prop :=
  ∀ (s : State) (e : Nat) (p : Pfx), s.executes e p 0x0C 0 = true →
    ∃ t, exec (.lexit e p) s = .next t ∧
      RetiresB s t e p 0x0C (fun a =>
        if a.ld = 0 then a else { a.setLd (a.ld - 1) with lc := SMap.set 0 a.lc (a.ld - 1) 0 }) .next

/-- R84: an instruction that is not executed, in an annulled slot or under a false predicate, raises nothing whatever its
encoding and operands, writes no register, flag or memory, and execution goes on after it. -/
def Claims.NotExecuted : Prop :=
  ∀ (s : State) (e : Nat) (p : Pfx) (op : Nat) (bad : Arch → Nat) (lat : Arch → Option Nat) (body : State → Act),
    s.issues e = true → (s.eng e).arch.selects p = false →
    Retires s (s.scalar e p op bad lat body) e p op id

/-- R82, R83, R115: an instruction that would execute with an illegal-encoding cause raises ILLEGAL with the lowest cause
and no other effect; without one, a privileged instruction in User privilege raises PRIVILEGED, RFX outside Escalation with
detail 0x0001 (R165). -/
def Claims.IllegalAndPrivileged : Prop :=
  ∀ (s : State) (e : Nat) (p : Pfx) (op : Nat) (bad : Arch → Nat) (lat : Arch → Option Nat) (body : State → Act),
    s.issues e = true → (s.eng e).arch.selects p = true → p.chk = .good →
    let c := (s.eng e).arch.illegal e p op (bad (s.eng e).arch)
    (c ≠ 0 → s.scalar e p op bad lat body = s.except e 0x03 c 0 none false none) ∧
    (c = 0 → isPriv op = true → (s.eng e).arch.sup = false → s.scalar e p op bad lat body =
      s.except e 0x04 (if op = 0x07 ∧ (s.eng e).arch.escact = false then 1 else 0) 0 none false none)

/-! ### Control and system instructions (R39, R74 to R77, R106, R107, R111, R112, R136 to R140, R336 to R339, R436) -/

/-- R111, R112, R137: NOP, BPBAR, BPALLOW, RDPKR, WRPKR, TIME, LAPN, ENID of an engine and HOLD complete with the one
register that each writes. TIME gives the Time Base, and in LEAD, TRAIL and REPLAY the first tick of the Lap. -/
def Claims.SystemRegistersComplete : Prop :=
  ∀ (s : State) (e : Nat) (p : Pfx),
    (s.executes e p 0x00 0 = true → ∃ t, exec (.nop e p) s = .next t ∧ Retires s t e p 0x00 id) ∧
    (s.executes e p 0x04 0 = true → ∃ t, exec (.bpbar e p) s = .next t ∧
      Retires s t e p 0x04 (fun a => { a with psr := a.psr ||| 0x400 })) ∧
    (s.executes e p 0x05 0 = true → ∃ t, exec (.bpallow e p) s = .next t ∧
      Retires s t e p 0x05 (fun a => { a with psr := a.psr &&& ~~~(0x400 : W64) })) ∧
    (∀ (f : FmtG), f.sub = 0 →
      (s.executes e p 0x15 0 = true → ∃ t, exec (.rdpkr e p f) s = .next t ∧
        Retires s t e p 0x15 (fun a => a.wrG f.g.toNat (a.pkr.setWidth 64))) ∧
      (s.executes e p 0x16 0 = true → ∃ t, exec (.wrpkr e p f) s = .next t ∧
        Retires s t e p 0x16 (fun a => { a with pkr := (a.rdG f.g.toNat).setWidth 32 })) ∧
      (s.executes e p 0x19 0 = true → ∃ t, exec (.time e p f) s = .next t ∧
        Retires s t e p 0x19 (fun a => a.wrG f.g.toNat
          (BitVec.ofNat 64 (if s.actMode.viewed then s.tb / s.lapTicks * s.lapTicks else s.tb)))) ∧
      (s.executes e p 0x1A 0 = true → ∃ t, exec (.lapn e p f) s = .next t ∧
        Retires s t e p 0x1A (fun a => a.wrG f.g.toNat (BitVec.ofNat 64 (s.tb / s.lapTicks)))) ∧
      (e < 512 → s.executes e p 0x1B 0 = true → ∃ t, exec (.enid e p f) s = .next t ∧
        Retires s t e p 0x1B (fun a => a.wrG f.g.toNat (BitVec.ofNat 64 (s.pos * 512 + e))))) ∧
    (∀ (f : FmtI), f.d = 0 → f.a = 0 → 1 ≤ f.imm.toNat → f.imm.toNat ≤ 4096 → s.executes e p 0xB4 0 = true →
      ∃ t, exec (.hold e p f) s = .next t ∧
        Retires s t e p 0xB4 (fun a => if (s.eng e).arch.holdcnt = 0 then { a with holdcnt := BitVec.ofNat 32 f.imm.toNat } else a))

/-- R107, R140, R339: DSYNC and VWAIT complete when every long-vector instruction of the engine is complete and every
write of it performed, and else wait with nothing changed; IFENCE completes so too and empties what fetch holds; TSYNC
waits for the engine's writes, and after TLBI DOMAIN of Lap n for cycle 1,024 of Lap n + 3 or later with the ring done. -/
def Claims.SynchronisationComplete : Prop :=
  ∀ (s : State) (e : Nat) (p : Pfx),
    (∀ c op, (c, op) ∈ [(Instr.dsync e p, 0x08), (Instr.vwait e p, 0x0A)] → s.executes e p op 0 = true →
      (s.drained e = true → ∃ t, exec c s = .next t ∧ Retires s t e p op id) ∧ (s.drained e = false → exec c s = .next s)) ∧
    (s.executes e p 0x02 0 = true → s.drained e = true →
      ∃ t, exec (.ifence e p) s = .next t ∧ Retires s t e p 0x02 id ∧
        (t.eng e).pq = [] ∧ (t.eng e).flight = [] ∧ (t.eng e).lbuf = none) ∧
    (s.executes e p 0x09 0 = true → (s.eng e).tsyncLap = none → s.writesDone e = true →
      ∃ t, exec (.tsync e p) s = .next t ∧ Retires s t e p 0x09 id) ∧
    (∀ n, s.executes e p 0x09 0 = true → (s.eng e).tsyncLap = some n → n + 3 ≤ s.lap → s.at1024 = true →
      s.writesDone e = true → s.ringDone (n + 1) = true →
      ∃ t, exec (.tsync e p) s = .next t ∧ Touches s t e ∧ (t.eng e).tsyncLap = none ∧
        (t.eng e).arch = (s.eng e).arch.held.retire (pLen p 0x09) .next) ∧
    (s.executes e p 0x09 0 = true → s.writesDone e = false → exec (.tsync e p) s = .next s)

/-- R136: BPFLUSH empties the branch target buffer; R111: BRK and TRAP raise the breakpoint and trap exceptions after one
cycle, TRAP with its code as detail. -/
def Claims.FlushBreakTrapComplete : Prop :=
  ∀ (s : State) (e : Nat) (p : Pfx),
    (s.executes e p 0x03 0 = true → ∃ t, exec (.bpflush e p) s = .next t ∧ RetiresB s t e p 0x03 id .next ∧ (t.eng e).btb = []) ∧
    (s.executes e p 0x0B 0 = true → exec (.brk e p) s = .next ((s.cycle e).except e 0x05 0 0 none false none)) ∧
    (∀ (f : FmtI), f.d = 0 → f.a = 0 → s.executes e p 0xB5 0 = true →
      exec (.trap e p f) s = .next ((s.cycle e).except e 0x06 f.imm.toNat 0 none false none))

/-- R336, Table 10.6: TLBI of scope PAGE, CONTEXT or ALL removes the slots that it names from the engine's three TLBs and
no others, and changes nothing else; scope 3 removes as PAGE does, waits for the Domain and takes effect elsewhere at the
Lap after the next. -/
def Obligations.TlbiComplete : Prop :=
  ∀ (s : State) (e : Nat) (p : Pfx) (f : FmtG), e < 512 → f.sub.toNat < 4 → s.executes e p 0x14 0 = true →
    let x := s.eng e
    let g := x.arch.rdG f.g.toNat
    let va := (g.extractLsb' 16 39).toNat * 2 ^ 16
    let gone := fun (y : Slot) =>
      if f.sub = 1 then !y.g && y.ctx = g.setWidth 16
      else if f.sub = 2 then true
      else decide (y.vbase ≤ va) && decide (va < y.vbase + 2 ^ y.log2) && (y.g || y.ctx = g.setWidth 16)
    ∃ t, exec (.tlbi e p f) s = .next t ∧
      (t.eng e).itlb = x.itlb.filter (fun y => !gone y) ∧ (t.eng e).dtlb = x.dtlb.filter (fun y => !gone y) ∧
      (∀ k y, y ∈ SMap.get [] (t.eng e).l2 k ↔ y ∈ SMap.get [] x.l2 k ∧ gone y = false) ∧
      (t.eng e).arch = x.arch.held.retire (pLen p 0x14) .next ∧ OnlyEng s t e ∧ t.m = s.m ∧
      (f.sub.toNat < 3 → Touches s t e ∧ (t.eng e).tsyncLap = x.tsyncLap) ∧
      (f.sub = 3 → (t.eng e).tsyncLap = some s.lap ∧ t.tlbi = s.tlbi ++ [(s.lap + 2, va, g.setWidth 16)])

/-- R76, R77: MFS reads and MTS writes every system register of Table 3.1 that the privilege may reach. MTS keeps PRIV
and the reserved bits of PSR, the reserved bits of FLAGS, and the widths of the others; G31 of User is USP. -/
def Claims.SystemRegisterMovesComplete : Prop :=
  ∀ (s : State) (e : Nat) (p : Pfx) (f : FmtI) (r : SysReg), sysReg f.imm.toNat = some r →
    (f.a = 0 → s.executes e p 0xB0 0 = true → ((s.eng e).arch.sup || r.user false) = true → (r = .vstate → (s.eng e).vinsts = []) →
      ∃ t, exec (.mfs e p f) s = .next t ∧ Retires s t e p 0xB0 (fun a => a.wrG f.d.toNat (a.sysRead r))) ∧
    (f.d = 0 → r ≠ .holdcnt → s.executes e p 0xB1 0 = true → ((s.eng e).arch.sup || r.user true) = true →
      (r = .vstate → (s.eng e).vinsts = []) →
      ∃ t, exec (.mts e p f) s = .next t ∧ RetiresB s t e p 0xB1 (fun a => a.sysWrite r (a.rdG f.a.toNat)) .next ∧
        (r = .ctxid → (t.eng e).btb = []) ∧ (r ≠ .ctxid → (t.eng e).btb = (s.eng e).btb)) ∧
    (∀ (a : Arch) (v : W64),
      (a.sysWrite .psr v).psr = (a.psr &&& 1) ||| (v &&& 0x7C2) ∧ (a.sysWrite .flags v).flags = v &&& 0xF3F0F ∧
      (a.sysWrite .pkr v).pkr = v.setWidth 32 ∧ (a.sysWrite .ctxid v).ctxid = v.setWidth 16 ∧
      (a.sysWrite .usp v).g31u = v ∧ ∀ i, (a.sysWrite (.lc i) v).sysRead (.lc i) = v)

/-- R436, R431, R445: EVSIG pulses its channel where the issuer owns it, its privilege suffices and the channel lists the
software producer, and then retires; on a Domain channel it sends. -/
def Claims.EvsigComplete : Prop :=
  ∀ (s : State) (e : Nat) (p : Pfx) (f : FmtG), e < 512 → s.executes e p 0x17 0 = true →
    let g := (s.eng e).arch.rdG f.g.toNat
    let c := (g.setWidth 8 : BitVec 8).toNat
    let d := (g.setWidth 5 : BitVec 5).toNat
    (f.sub = 0 → g.getLsbD 8 = false →
      (s.fld (Reg.evtChCfg c) 31 30 = 2 ∧ s.fld (Reg.evtChCfg c) 29 21 = e / 16 ∨
        s.fld (Reg.evtChCfg c) 31 30 = 3 ∧ s.fld (Reg.evtChCfg c) 29 21 = e) →
      (s.bit (Reg.evtChCfg c) 20 || (s.eng e).arch.sup) = true →
      exec (.evsig e p f) s = .next (((s.cycle e).softPulse c s.hubNow).retire e 0x17 (pLen p 0x17) .next)) ∧
    (f.sub = 1 →
      (s.fld (Reg.evtDchCfg d) 31 30 = 2 ∧ s.fld (Reg.evtDchCfg d) 24 16 = e / 16 ∨
        s.fld (Reg.evtDchCfg d) 31 30 = 3 ∧ s.fld (Reg.evtDchCfg d) 24 16 = e) →
      s.fld (Reg.evtDchCfg d) 29 25 = s.pos → (s.bit (Reg.evtDchCfg d) 15 || (s.eng e).arch.sup) = true →
      exec (.evsig e p f) s = .next (((s.cycle e).domSend d s.hubNow).retire e 0x17 (pLen p 0x17) .next))

/-- R111, R437: WAITE goes on at once where the flag of its channel is set, and else waits for it; it clears no flag. -/
def Claims.WaiteComplete : Prop :=
  ∀ (s : State) (e : Nat) (p : Pfx) (f : FmtG), f.sub = 0 → s.executes e p 0x18 0 = true →
    let c := (((s.eng e).arch.rdG f.g.toNat).setWidth 8 : BitVec 8).toNat
    (s.bit (Reg.evtChCfg c) 20 || (s.eng e).arch.sup) = true →
    (s.seenFlag c = true → ∃ t, exec (.waite e p f) s = .next t ∧ Retires s t e p 0x18 id) ∧
    (s.seenFlag c = false → ∃ t, exec (.waite e p f) s = .next t ∧ Touches s t e ∧
      t.eng e = { s.eng e with arch := (s.eng e).arch.held, place := (s.eng e).place.map Placement.ticked,
                               waite := some (c, pLen p 0x18) })

/-- R39, R59: TEND of a drained engine outside mirrored operation, within its budgets, settles its Task as Delivered,
records the COMPLETE record of it and ends the placement; the Steward's TEND only retires. -/
def Obligations.TendComplete : Prop :=
  (∀ (s : State) (e : Nat) (p : Pfx) (q : Placement), e < 512 → s.executes e p 0x01 0 = true → s.drained e = true →
    (s.eng e).place = some q → (s.task q.tti).ovr = 0 → (s.eng e).arch.escact = false → s.mirroredNow = false →
    (s.cycle e).overCycles q.ticked = false → (s.task q.tti).st = .running → s.nextBooked e = none →
    ∃ t, exec (.tend e p) s = .next t ∧ (t.task q.tti).st = .settled ∧ (t.task q.tti).outcome = .delivered ∧
      (t.task q.tti).ended = true ∧ (t.task q.tti).settleLap = s.lap ∧ (t.eng e).place = none ∧ (t.eng e).running = false ∧
      (t.cq (s.cqOf (s.task q.tti).sq)).held.length = (s.cq (s.cqOf (s.task q.tti).sq)).held.length + 1 ∧
      OnlyEng s t e ∧ t.m.mem = s.m.mem ∧ t.m.memq = s.m.memq) ∧
  (∀ (s : State) (p : Pfx), s.executes 512 p 0x01 0 = true → s.drained 512 = true → (s.eng 512).place = none →
    ∃ t, exec (.tend 512 p) s = .next t ∧ Retires s t 512 p 0x01 id)

/-! ### Taking an exception and returning (R152 to R165) -/

/-- R155, R157, Table 5.2: entry outside Escalation. Where the eight words of the frame can be pushed, the vector table
entry is readable and not 0, and the handler can be fetched, the engine goes on at the handler in Supervisor privilege,
with interrupts off and no loop level, no delay slot pending, and its Supervisor stack pointer 64 lower; its first word is
in the prefetch queue, and every other register of the placement stays as the pushes and reads left it. -/
def Claims.ExceptionEntry : Prop :=
  ∀ (s s1 s2 s3 : State) (e vec detail h bits : Nat) (faddr : W64), (s.eng e).arch.escact = false →
    (s.eng e).vecBusy = false →
    let a := (s.eng e).arch
    let f : Frame := ⟨vec, detail, faddr, BitVec.ofNat 64 (match (s.eng e).place with | some q => q.cyc | none => 0),
      a.holdcnt ≠ 0, false, 0, 0⟩
    ((s.dropReads e).updEng e (fun x => { x with waite := none, pend := none })).pushWords e (a.g31s - 64).toNat 0 true
      (f.words a) = (s1, .done) →
    s1.entryRead e 5 (a.evec.toNat + 8 * vec) 8 8 false = (s2, .value h) → h ≠ 0 →
    s2.entryRead e 6 h 16 16 true = (s3, .value bits) →
    let b := (s3.eng e).arch
    let t := s.except e vec detail faddr none false none
    (t.eng e).arch =
      { b with g31s := b.g31s - 64, psr := (b.psr &&& ~~~(0x302 : W64)) ||| 1, pc := BitVec.ofNat 64 h, ds := none } ∧
    (t.eng e).pq = [⟨BitVec.ofNat 64 ((BitVec.ofNat 64 h).toNat / 16 * 16), BitVec.ofNat 128 bits⟩] ∧
    (t.eng e).flight = [] ∧ (t.eng e).lbuf = none ∧ (t.eng e).entry = none ∧
    (b.sup = false → (t.eng e).btb = []) ∧ OnlyEng s3 t e ∧ t = { s3 with engines := t.engines, regs := t.regs } ∧
    OnlyRegs s3 t [(Reg.enPmcFetch e).off, (Reg.enPmcFetch e).off + 4]

/-- Table 5.2: what the frame of an exception records: pc, PSR and FLAGS before entry, the vector and detail code, whether a
delay slot was pending and its branch taken, the faulting address, the branch target and the User stack pointer. -/
def Claims.FrameContents : Prop :=
  ∀ (f : Frame) (a : Arch),
    let w := f.words a
    w.length = 8 ∧ w[0]? = some a.pc ∧ w[1]? = some a.psr ∧ w[2]? = some a.flags ∧ w[4]? = some f.faddr ∧
    w[5]? = some (match a.ds with | some d => d.target | none => 0) ∧ w[6]? = some a.g31u ∧ w[7]? = some f.aux ∧
    ∀ c, w[3]? = some c →
      (c.setWidth 8 : BitVec 8) = BitVec.ofNat 8 f.vec ∧ c.extractLsb' 8 16 = BitVec.ofNat 16 f.detail ∧
      c.getLsbD 48 = a.ds.isSome ∧ c.getLsbD 49 = (match a.ds with | some d => d.taken | none => false) ∧
      c.getLsbD 50 = f.vecStop ∧ c.getLsbD 51 = f.hld

/-- R159: a return restores from a frame what entry saved in it: pc, PSR, FLAGS, the User stack pointer and a pending delay
slot. -/
def Claims.ReturnRestoresFrame : Prop :=
  ∀ (f : Frame) (a b : Arch), (∀ d, a.ds = some d → d.annul = false) → a.psr &&& ~~~(0x7C3 : W64) = 0 →
    a.flags &&& ~~~(0xF3F0F : W64) = 0 →
    let r := b.restoreFrame (fun i => (f.words a).getD i 0)
    r = { b with pc := a.pc, psr := a.psr, flags := a.flags, g31u := a.g31u, ds := a.ds }

/-- R159, R164, R173: RFE through a frame that its loads read, and RFX through the Escalation frame, go on at the state that
the frame records, with the stack pointer 64 higher; RFX leaves Escalation. The return from the frame of the ERROR in force
ends it. Where the frame says that long vectors stand stopped, the return also re-issues them. -/
def Claims.ReturnsComplete : Prop :=
  (∀ (s s1 : State) (e : Nat) (p : Pfx) (bs : List Byte), s.executes e p 0x06 0 = true → (s.eng e).arch.escact = false →
    (s.cycle e).readFrame e (s.eng e).arch.g31s.toNat = (s1, .bytes bs) →
    let ends := (s.eng e).arch.erract && decide ((s.eng e).errFrame = some (.stack (s.eng e).arch.g31s))
    ((wordAt bs 3).getLsbD 50 = false → ∃ t, exec (.rfe e p) s = .next t ∧ (t.eng e).arch =
        { (s1.eng e).arch.restoreFrame (wordAt bs) with
          g31s := (s.eng e).arch.g31s + 64, erract := (s1.eng e).arch.erract && !ends } ∧
      (t.eng e).pq = [] ∧ (t.eng e).flight = [] ∧ OnlyEng s1 t e ∧ t = { s1 with engines := t.engines }) ∧
    ((wordAt bs 3).getLsbD 50 = true → ∃ t, exec (.rfe e p) s = .next t)) ∧
  (∀ (s s1 : State) (e : Nat) (p : Pfx) (bs : List Byte), s.executes e p 0x07 0 = true → (s.eng e).arch.escact = true →
    (s.eng e).arch.esp.toNat % 8 = 0 → (s.eng e).arch.esp.toNat + 64 ≤ 0x40000 →
    (s.cycle e).readLoc e 7 ((s.cycle e).srcOf e) ((s.cycle e).escLoc e (s.eng e).arch.esp.toNat) true 64 =
      (s1, some (.ok, bs)) →
    let ends := (s.eng e).arch.erract && decide ((s.eng e).errFrame = some .esc)
    ((wordAt bs 3).getLsbD 50 = false → ∃ t, exec (.rfx e p) s = .next t ∧ (t.eng e).arch =
        { (s1.eng e).arch.restoreFrame (wordAt bs) with
          esp := (s.eng e).arch.esp + 64, escact := false, erract := (s1.eng e).arch.erract && !ends } ∧
      (t.eng e).pq = [] ∧ (t.eng e).flight = [] ∧ OnlyEng s1 t e ∧ t = { s1 with engines := t.engines }) ∧
    ((wordAt bs 3).getLsbD 50 = true → ∃ t, exec (.rfx e p) s = .next t))

/-- R156, R167, R171, R173: a recognised cause is taken by the one entry operation. EXCEPTION_ENTRY of a synchronous cause
enters with its vector, detail and address, and an entry that waits goes on; ERROR enters with vector 0x10, the class and
address of the first entry of the error queue, which leaves the queue; INTERRUPT enters with the vector and channel of the
lowest pending line; HOLDCNT_ZERO ends the non-interruptible window. -/
def Claims.AsynchronousEntryComplete : Prop :=
  ∀ (s : State) (e : Nat), s.active e = true → (∀ d, (s.eng e).arch.ds = some d → d.annul = false) →
    (∀ vec detail faddr, (s.eng e).entry = none → 1 ≤ vec → vec ≤ 0x0E →
      exec (.exceptionEntry e vec detail faddr) s = .next (s.except e vec detail faddr none false none)) ∧
    (∀ vec detail faddr, (s.eng e).entry.isSome = true →
      exec (.exceptionEntry e vec detail faddr) s = .next (s.goOnEntry e)) ∧
    (∀ x rest, s.errorReady e = true → (s.eng e).arch.errq = x :: rest → s.errSampled x = true →
      exec (.error e) s = .next ((s.updEng e (fun y => { y with arch := { y.arch with errq := rest } })).except e 0x10 x.cls
        x.addr none false (some (x.cls, x.count)))) ∧
    (∀ i, s.errorReady e = false → s.intLine e = some i →
      exec (.interrupt e) s = .next (s.except e (0x11 + i) (s.intSel e i) 0 none false none)) ∧
    ((s.eng e).arch.holdcnt ≤ 1 → exec (.holdcntZero e) s =
      .next (s.updEng e (fun x => { x with arch := { x.arch with holdcnt := 0 } })))
/-! ### Scalar loads and stores (R74, R88 to R92, R106, R107, R311) -/

/-- R89, R90, R106: LEA and LEAX write the effective address that row 0x6 or 0x7 computes, LEAX with the update of its mode,
and touch no memory. -/
def Claims.LeaComplete : Prop :=
  (∀ (s : State) (e : Nat) (p : Pfx) (f : FmtI), immCause p f.imm.toNat = 0 → s.executes e p 0x67 0 = true →
    ∃ t, exec (.lea e p f) s = .next t ∧
      Retires s t e p 0x67 (fun a => a.wrG f.d.toNat (a.rdG f.a.toNat + (pInfo p).imm p.ext 14 f.imm.toNat true))) ∧
  (∀ (s : State) (e : Nat) (p : Pfx) (f : FmtX), causeX p f true = 0 → s.executes e p 0x77 0 = true →
    ∃ t, exec (.leax e p f) s = .next t ∧
      Retires s t e p 0x77 (fun a => (a.applyUpd (a.eaX p f).upd).wrG f.t.toNat (a.eaX p f).va))

/-- R90, Table 3.9: the addresses and register updates of the modes of row 0x7: base with scaled index, post-increment,
pre-increment, circular (with its 2^32 for a length of 0) and absolute. -/
def Claims.AddressingModes : Prop :=
  ∀ (a : Arch) (ra rb sc : Nat) (imm : W64),
    a.addrX 0 ra rb sc imm = ⟨a.rdG ra + (a.rdG rb <<< sc) + imm, none⟩ ∧
    a.addrX 1 ra rb sc imm = ⟨a.rdG ra, some (ra, a.rdG ra + (imm <<< sc))⟩ ∧
    a.addrX 2 ra rb sc imm = ⟨a.rdG ra + (imm <<< sc), some (ra, a.rdG ra + (imm <<< sc))⟩ ∧
    a.addrX 5 ra rb sc imm = ⟨imm, none⟩ ∧
    (let lo := (a.rdG rb).extractLsb' 0 32
     let hi := (a.rdG rb).extractLsb' 32 32
     let len : Int := if hi = 0 then 2 ^ 32 else hi.toNat
     ∃ n : BitVec 32, (n.toNat : Int) = ((lo.toNat : Int) + (imm <<< sc).toInt) % len ∧
       a.addrX 3 ra rb sc imm = ⟨a.rdG ra + lo.setWidth 64, some (rb, hi ++ n)⟩)

/-- R106, R92, R74: a load whose address is aligned, is translated to memory of this part that answers at once and is not
held by a long-vector instruction completes with the bytes read: in G, F or Q, with the address register's update, or in a
stream register. `bs` is what reading the bytes of the address answers; no byte of memory changes. -/
def Claims.LoadComplete : Prop :=
  ∀ (s : State) (e : Nat) (p : Pfx) (c : Instr) (op : Nat) (l : LoadOp),
    (∃ f : FmtI, immCause p f.imm.toNat = 0 ∧
      (c, op, l) ∈ [(Instr.ld e p f, 0x60, ⟨(s.eng e).arch.eaI p f, opW p / 8, false, 0, f.d.toNat, none, pLen p 0x60⟩),
        (Instr.lds e p f, 0x61, ⟨(s.eng e).arch.eaI p f, opW p / 8, true, 0, f.d.toNat, none, pLen p 0x61⟩),
        (Instr.ldf e p f, 0x63, ⟨(s.eng e).arch.eaI p f, opW p / 8, false, 1, f.d.toNat, none, pLen p 0x63⟩),
        (Instr.ldq e p f, 0x65, ⟨(s.eng e).arch.eaI p f, 16, false, 2, f.d.toNat, none, pLen p 0x65⟩)]) ∨
    (∃ f : FmtX, causeX p f false = 0 ∧ (op = 0x70 ∨ op = 0x71 → causeX p f true = 0) ∧
      (c, op, l) ∈ [(Instr.ldx e p f, 0x70, ⟨((s.eng e).arch.eaX p f).va, opW p / 8, false, 0, f.t.toNat, ((s.eng e).arch.eaX p f).upd, pLen p 0x70⟩),
        (Instr.ldsx e p f, 0x71, ⟨((s.eng e).arch.eaX p f).va, opW p / 8, true, 0, f.t.toNat, ((s.eng e).arch.eaX p f).upd, pLen p 0x71⟩),
        (Instr.ldfx e p f, 0x73, ⟨((s.eng e).arch.eaX p f).va, opW p / 8, false, 1, f.t.toNat, ((s.eng e).arch.eaX p f).upd, pLen p 0x73⟩),
        (Instr.ldqx e p f, 0x75, ⟨((s.eng e).arch.eaX p f).va, 16, false, 2, f.t.toNat, ((s.eng e).arch.eaX p f).upd, pLen p 0x75⟩)]) ∨
    (∃ f : FmtG, f.sub = 0 ∧ f.g ≠ 31 ∧
      (c, op, l) = (Instr.pop e p f, 0x13, ⟨(s.eng e).arch.rdG 31, 8, false, 0, f.g.toNat, some (31, (s.eng e).arch.rdG 31 + 8), pLen p 0x13⟩)) ∨
    (∃ f : FmtG, s.streamBusy e f.sub.toNat = false ∧
      (c, op, l) = (Instr.ldsd e p f, 0x1C, ⟨(s.eng e).arch.rdG f.g.toNat, 32, false, 3, f.sub.toNat, none, pLen p 0x1C⟩)) →
    s.executes e p op 0 = true → l.va.toNat % l.n = 0 →
    ∀ (s1 s3 : State) (d : Nat) (bs : List Byte),
      (s.cycle e).locate e .read (!(s.eng e).arch.sup) l.va.toNat = (s1, .dpa d) → s1.reaches e d = true → d / 2 ^ 46 = s1.pos →
      s1.heldAt (d % 2 ^ 46) = false → (s.cycle e).heldByVec e l.va.toNat l.n false = false →
      (s1.payFor e d l.n).1.expPort d = none →
      (s1.payFor e d l.n).1.readCounted ((s1.payFor e d l.n).1.srcOf e) (d % 2 ^ 46) l.n (s1.payFor e d l.n).2 = (s3, .ok, bs) →
      exec c s = .next ((s3.updEng e (fun x => { x with arch := (x.arch.applyUpd l.upd).putLoad l.file l.reg l.n l.sext (ofLe bs) })).retire
        e op l.len .next) ∧ s3.m.mem = s.m.mem

/-- R92, R75, R87: where a load's value goes: G[T] zero- or sign-extended from its width, Q[T] with the rest cleared, the
four words of a stream register; nothing else of the registers differs. -/
def Claims.LoadedValue : Prop :=
  ∀ (a : Arch) (reg n v : Nat),
    (∀ w, w = 8 ∨ w = 16 ∨ w = 32 ∨ w = 64 → n = w / 8 → v < 2 ^ w →
      a.putLoad 0 reg n false v = a.wrG reg (BitVec.ofNat 64 v) ∧
      a.putLoad 0 reg n true v = a.wrG reg ((BitVec.ofNat w v).signExtend 64) ∧
      a.putLoad 1 reg n false v = a.wrQ reg (BitVec.ofNat 128 v)) ∧
    a.putLoad 2 reg n false v = a.wrQ reg (BitVec.ofNat 128 v) ∧
    (∀ b, let d : Desc :=
        ⟨BitVec.ofNat 64 v, BitVec.ofNat 64 (v / 2 ^ 64), BitVec.ofNat 64 (v / 2 ^ 128), BitVec.ofNat 64 (v / 2 ^ 192)⟩
      a.putLoad 3 reg n b v = { a with str := SMap.set Desc.zero a.str reg d })

/-- R106, R311, R91: a store whose address is aligned and is translated to memory of this part, held by no long-vector
instruction, completes: its bytes, read before the address register's update, are posted as write requests that cover the
addressed bytes and no others; every byte of memory stays until they are performed. -/
def Obligations.StoreComplete : Prop :=
  ∀ (s : State) (e : Nat) (p : Pfx) (c : Instr) (op : Nat) (va : W64) (bs : List Byte) (upd : Option (Nat × W64)),
    (∃ f : FmtI, immCause p f.imm.toNat = 0 ∧
      (c, op, va, bs, upd) ∈
        [(Instr.st e p f, 0x62, (s.eng e).arch.eaI p f, leBytes (opW p / 8) ((s.eng e).arch.rdG f.d.toNat).toNat, none),
         (Instr.stf e p f, 0x64, (s.eng e).arch.eaI p f, leBytes (opW p / 8) ((s.eng e).arch.rdQ f.d.toNat).toNat, none),
         (Instr.stq e p f, 0x66, (s.eng e).arch.eaI p f, leBytes 16 ((s.eng e).arch.rdQ f.d.toNat).toNat, none)]) ∨
    (∃ f : FmtX, causeX p f false = 0 ∧
      (c, op, va, bs, upd) ∈
        [(Instr.stx e p f, 0x72, ((s.eng e).arch.eaX p f).va, leBytes (opW p / 8) ((s.eng e).arch.rdG f.t.toNat).toNat, ((s.eng e).arch.eaX p f).upd),
         (Instr.stfx e p f, 0x74, ((s.eng e).arch.eaX p f).va, leBytes (opW p / 8) ((s.eng e).arch.rdQ f.t.toNat).toNat, ((s.eng e).arch.eaX p f).upd),
         (Instr.stqx e p f, 0x76, ((s.eng e).arch.eaX p f).va, leBytes 16 ((s.eng e).arch.rdQ f.t.toNat).toNat, ((s.eng e).arch.eaX p f).upd)]) ∨
    (∃ f : FmtG, f.sub = 0 ∧ f.g ≠ 31 ∧
      (c, op, va, bs, upd) = (Instr.push e p f, 0x12, (s.eng e).arch.rdG 31 - 8, leBytes 8 ((s.eng e).arch.rdG f.g.toNat).toNat,
        some (31, (s.eng e).arch.rdG 31 - 8))) ∨
    (∃ f : FmtG, s.streamBusy e f.sub.toNat = false ∧
      (c, op, va, bs, upd) = (Instr.stsd e p f, 0x1D, (s.eng e).arch.rdG f.g.toNat, (SMap.get Desc.zero (s.eng e).arch.str f.sub.toNat).bytes, none)) →
    s.executes e p op 0 = true → va.toNat % bs.length = 0 → s.flt.retired = [] → s.flt.sweeps = [] →
    ∀ (s1 : State) (d : Nat),
      (s.cycle e).locate e .write (!(s.eng e).arch.sup) va.toNat = (s1, .dpa d) → s1.reaches e d = true → d / 2 ^ 46 = s1.pos →
      (s.cycle e).heldByVec e va.toNat bs.length true = false →
      ∃ t, exec c s = .next t ∧ t.m.mem = s.m.mem ∧
        (t.eng e).arch = ((s1.eng e).arch.applyUpd upd).retire (pLen p op) .next ∧
        ∃ rs, t.m.memq = s.m.memq ++ rs ∧
          rs.flatMap (fun r => match r.op with | .write cs => cs | _ => []) = cellsAt (d % 2 ^ 46) bs ∧
          ∀ r ∈ rs, r.src = s1.srcOf e

/-- R92: a misaligned scalar load or store raises the alignment exception, vector 0x07, with its size and address. -/
def Claims.MisalignedTraps : Prop :=
  ∀ (s : State) (e : Nat) (l : LoadOp) (va : W64) (bs : List Byte) (adj : Arch → Arch),
    (l.va.toNat % l.n ≠ 0 → s.loadOp e l = .trap s 0x07 l.n l.va) ∧
    (va.toNat % bs.length ≠ 0 → s.store e va bs adj = .trap s 0x07 bs.length va)

/-! ### Memory (R244, R287 to R289, R305 to R311) -/

/-- R311: a memory seen by a source shows the bytes of its own latest posted write, where the write meets no poison, and
every other byte as before that write. -/
def Claims.OwnStoresSeenFirst : Prop :=
  ∀ (m : Memory) (r : MemReq) (cs : List (Nat × Byte)), r.op = .write cs → (cs.map (fun c => c.1)).Nodup →
    ((m.seenBy r.src).apply r).2 = false →
    let n := ({ m with memq := m.memq ++ [r] } : Memory).seenBy r.src
    (∀ c ∈ cs, SMap.get 0 n.mem c.1 = c.2) ∧
    (∀ o, o ∉ cs.map (fun c => c.1) → SMap.get 0 n.mem o = SMap.get 0 (m.seenBy r.src).mem o)

/-- R244, R245, R289, R306: performing a request at its target. A write puts its bytes and no others; an integer add, an
F64 add and a swap replace the 8-byte word at their address; a poisoned word that a request does not cover whole leaves
memory as it is. -/
def Claims.RequestPerformed : Prop :=
  ∀ (m : Memory) (r : MemReq),
    (∀ cs, r.op = .write cs → (cs.map (fun c => c.1)).Nodup → (m.apply r).2 = false →
      (∀ c ∈ cs, SMap.get 0 (m.apply r).1.mem c.1 = c.2) ∧
      (∀ o, o ∉ cs.map (fun c => c.1) → SMap.get 0 (m.apply r).1.mem o = SMap.get 0 m.mem o)) ∧
    (SMap.get Health.good m.health (healthKey r.off) ≠ .poisoned →
      (∀ v, r.op = .iadd v →
        BitVec.ofNat 64 (word8 (m.apply r).1.mem r.off) = BitVec.ofNat 64 (word8 m.mem r.off) + v) ∧
      (∀ v rm ftz daz, r.op = .fadd v rm ftz daz →
        word8 (m.apply r).1.mem r.off = (f64.add ⟨rm.toNat, ftz, daz⟩ (word8 m.mem r.off) v.toNat).1 % 2 ^ 64) ∧
      (∀ v x, r.op = .swap v x → word8 (m.apply r).1.mem r.off = v.toNat) ∧
      (r.op.isAtomic = true → ∀ o, o < r.off ∨ r.off + 8 ≤ o → SMap.get 0 (m.apply r).1.mem o = SMap.get 0 m.mem o)) ∧
    ((m.apply r).2 = true → (m.apply r).1 = m)

/-- R26, R311: a read of a Home Bank by its engine answers the bytes of memory, when nothing is posted, no error is found
and no word is poisoned. -/
def Claims.CleanRead : Prop :=
  ∀ (s : State) (src : Src) (b off n : Nat), 0 < n → s.tier off = .bank b → s.tier (off + n - 1) = .bank b →
    (∀ i, i < n → s.tier (off + i) = .bank b) →
    s.m.found = [] → s.m.health = [] → s.m.memq = [] →
    s.readLocal src off n = (s, .ok, (List.range n).map (fun i => SMap.get 0 s.m.mem (off + i)))

/-- R248, R288, R289, R291, R292, R297: SUB_BANK_GRANT, ATOMIC, LINE_SLOT and GRANULE perform the request that their arbiter
chooses and answer it; with none waiting, a clean slot leaves the state as it is. -/
def Claims.TargetsComplete : Prop :=
  ∀ (s : State),
    (∀ bank sub u g s1, s.bankWinner bank sub = some (g, s1) → g.place ≠ 17 →
      exec (.subBankGrant bank sub u) s = .next (s1.performAnswer g.req u)) ∧
    (∀ bank sub, s.m.memq = [] → exec (.subBankGrant bank sub .clean) s = .next s) ∧
    (∀ bank u, s.m.memq = [] → exec (.atomic bank u .good) s = .next s) ∧
    (∀ bank u r, s.m.memq = [r] → s.flt.fences = [] → s.actMode.mirrored = false → r.op.isAtomic = true →
      s.tier r.off = .bank bank → s.asleepAt r.off = false →
      ∃ s1 : State, exec (.atomic bank u .good) s = .next (s1.performAnswer r u) ∧ s1.m.mem = s.m.mem ∧ s1.m.memq = s.m.memq) ∧
    (∀ dev, s.m.memq = [] → exec (.lineSlot dev .clean .good) s = .next s) ∧
    (∀ dev r, s.m.memq = [r] → s.flt.fences = [] → (∃ l, s.tier r.off = .dir dev l) →
      ∃ s1 : State, exec (.lineSlot dev .clean .good) s = .next (s1.performAnswer r .clean) ∧ s1.m.mem = s.m.mem ∧ s1.m.memq = s.m.memq) ∧
    (∀ ch, s.m.memq = [] → exec (.granule ch .clean false) s = .next s) ∧
    (∀ ch u, s.inWindow ch = true → exec (.granule ch u false) s = .next s) ∧
    (∀ ch r, s.m.memq = [r] → s.flt.fences = [] → s.inWindow ch = false → (∃ l, s.tier r.off = .ddr ch l) →
      ∃ s1 : State, exec (.granule ch .clean false) s = .next (s1.performAnswer r .clean) ∧ s1.m.mem = s.m.mem ∧ s1.m.memq = s.m.memq)

/-- R298, R300, R304, R307: a maintenance window scrubs one granule once, or fails the channel; WRITE_BACK makes a corrected
word good once nothing waits for its unit, and changes nothing else; the answer of an expander to a read answers it and to a
write performs it; a request without a response for LAP_TICKS fails the port and is ended. -/
def Claims.MemoryUpkeepComplete : Prop :=
  ∀ (s : State),
    (∀ ch re u, s.windowUp = true → s.blk.ddrOk.getLsbD ch = true → s.bit (Reg.ddrStat ch) 2 = false → s.windowNow ≠ 0 →
      SMap.get 0 s.m.window ch ≠ s.windowNow →
      let s1 : State := { s with m := { s.m with window := SMap.set 0 s.m.window ch s.windowNow } }
      exec (.maintenanceWindow ch re u) s = .next (if re then s1.scrubGranule ch u else s1.channelFails ch)) ∧
    (∀ word, SMap.get Health.good s.m.health (healthKey word) = .corrected →
      (∀ r ∈ s.m.memq, unitOf (s.tier r.off) r.off ≠ unitOf (s.tier word) word) →
      ∃ t, exec (.writeBack word) s = .next t ∧ SMap.get Health.good t.m.health (healthKey word) = .good ∧
        (∀ k, k ≠ healthKey word → SMap.get Health.good t.m.health k = SMap.get Health.good s.m.health k) ∧
        t = { s with m := { s.m with health := t.m.health } }) ∧
    (∀ port q, s.expChoice port = some (.read q) →
      exec (.expanderResponse port false false) s = .next ((s.expServed port (.read q)).expAnswer q false)) ∧
    (∀ port r, s.expChoice port = some (.write r) →
      exec (.expanderResponse port false false) s = .next ((s.expServed port (.write r)).performReq r .clean)) ∧
    (∀ port q, s.expItems port = [.read q] → q.tick + s.lapTicks ≤ s.tb →
      exec (.expanderTimeout port) s = .next ((s.portFails port).expAnswer q true)) ∧
    (∀ port r, s.expItems port = [.write r] → r.tick + s.lapTicks ≤ s.tb →
      exec (.expanderTimeout port) s = .next ((s.portFails port).performReq r .clean)) ∧
    (∀ port, s.expItems port = [] →
      exec (.expanderResponse port false false) s = .next s ∧ exec (.expanderTimeout port) s = .next s)

/-! ### Fetch, walks and reports (R126, R173, R324 to R334, R410) -/

/-- R321, R328, R329: a translation that hits a slot leads to the slot's base plus the offset in it where the slot's
attributes and the protection key allow the access, and otherwise to the exception that R328 or R329 names, with no walk. -/
def Claims.TranslationByHit : Prop :=
  ∀ (s : State) (e k va : Nat) (a : Acc) (user : Bool) (pkr : BitVec 32) (y : Slot) (x : Engine), va < 2 ^ 55 →
    (s.eng e).lookup (k = 0) va = some (y, x) →
    let xl := if a = .fetch then 0x01 else 0x08
    (s.translate e k a false user pkr va).1 = s.setEng e x ∧
    (s.translate e k a false user pkr va).2 =
      (if user = true ∧ y.u = false then .trap xl 0x30
       else if a = .write ∧ y.w = false then .trap xl 0x31
       else if a = .fetch ∧ y.x = false then .trap xl 0x32
       else if user = true ∧ (a = .read ∧ pkr.getLsbD (2 * y.key.toNat) = true ∨
           a = .write ∧ pkr.getLsbD (2 * y.key.toNat + 1) = true) then .trap 0x09 y.key.toNat
       else .dpa (y.oa + (va - y.vbase)))

/-- R324, R325, R331: WALK of a request that misses every TLB walks under the CTXID and TTB in force for the request: where the
walk ends in a slot, the slot stands in front of the requester's TLB and the engine's next lookup that it hits finds it;
where it ends in a fault, the walker keeps the fault for the request. A request that hits a TLB does not walk. -/
def Claims.WalkComplete : Prop :=
  ∀ (s : State) (e : Nat) (va : BitVec 64) (k : Walker), e < 512 → (s.eng e).place.isSome = true → (s.eng e).arch.escact = false →
    va.toNat < 2 ^ 55 →
    let c := (s.eng e).walkTables k
    let s1 := s.updEng e (fun x => { x with arch := { x.arch with ctxid := c.1, ttb := c.2 } })
    (∀ y x, (s1.eng e).lookup (k = .fetch) va.toNat = some (y, x) →
      ∃ t, exec (.walk e va k false) s = .next t ∧ (∀ j, t.eng j = s.eng j) ∧ t = { s with engines := t.engines }) ∧
    ((s1.eng e).lookup (k = .fetch) va.toNat = none → s.walk e (walkerNum k) = none →
      (∀ s2 y, s1.doWalk e (walkerNum k) c.1 c.2 va.toNat = (s2, .slot y) →
        ∃ t, exec (.walk e va k false) s = .next t ∧ t = { s2 with engines := t.engines } ∧ OnlyEng s2 t e ∧
          y ∈ (t.eng e).l1 (k = .fetch) ∧
          (y.hits va.toNat (t.eng e).arch.ctxid = true → (t.eng e).lookup (k = .fetch) va.toNat ≠ none)) ∧
      (∀ s2 code, s1.doWalk e (walkerNum k) c.1 c.2 va.toNat = (s2, .fault code) →
        ∃ t, exec (.walk e va k false) s = .next t ∧ t = { s2 with engines := t.engines } ∧ OnlyEng s2 t e ∧
          t.walk e (walkerNum k) = some ⟨va.toNat, c.1, c.2, 1, 0, some code⟩))

/-- R126, R127: FETCH puts the word in flight into the prefetch queue and requests the next word of the path, or an entry in
progress goes on, or with four words held nothing is asked for; R173: POISON_WRITE puts class 0 with the address into the
error queue of an engine whose placement is loaded; R410: ENGINE_HANG marks an engine that has not stopped, with a fault
record. -/
def Claims.FetchAndReportsComplete : Prop :=
  ∀ (s : State) (e : Nat),
    (∀ b, s.active e = true → (s.eng e).entry.isSome = true → exec (.fetch e b) s = .next (s.goOnEntry e)) ∧
    (∀ r, s.active e = true → (s.eng e).entry = none → (s.eng e).lbuf = none → (s.eng e).flight = [] →
      (s.eng e).ahead = some r → r.kept = (s.eng e).pq.length → 4 ≤ r.kept →
      (∀ q, instrIn (s.eng e).pq (s.eng e).arch.pc.toNat = some q → definedOp q.2.1 = true) →
      ∃ t, exec (.fetch e false) s = .next t ∧ (∀ j, t.eng j = s.eng j) ∧ t = { s with engines := t.engines }) ∧
    (∀ r s2 bits, s.active e = true → (s.eng e).entry = none → (s.eng e).lbuf = none →
      ((s.queueWord e).eng e).ahead = some r → r.kept < 4 →
      let s1 := (s.queueWord e).updEng e (fun x => { x with pq := x.pq.take r.kept })
      (r.unresolved = false ∨ s1.mayRunAhead e r.next = true) → s1.fetchWord e r.next = (s2, .word bits) →
      (∀ q, instrIn (s2.eng e).pq (s2.eng e).arch.pc.toNat = some q → definedOp q.2.1 = true) →
      exec (.fetch e false) s =
        .next ((s2.updEng e (fun x => { x with flight := [⟨BitVec.ofNat 64 r.next, bits⟩] })).pmcCount e (Reg.enPmcFetch e))) ∧
    (∀ q, e < 512 → (s.eng e).place = some q → q.restored = true → (∀ x ∈ (s.eng e).arch.errq, x.cls ≠ 0) → ∀ va,
      ∃ t, exec (.poisonWrite e va) s = .next t ∧ (t.eng e).arch.errq = ⟨0, va, 1, s.tb⟩ :: (s.eng e).arch.errq ∧
        t.eng e = { s.eng e with arch := { (s.eng e).arch with errq := (t.eng e).arch.errq } } ∧ OnlyEng s t e ∧
        t = { s with engines := t.engines }) ∧
    (∀ q, e < 512 → (s.eng e).place = some q → (s.eng e).running = false → q.restored = true → (s.eng e).hung = false →
      s.mirroredNow = true → ∃ t, exec (.engineHang e false) s = .next t ∧ (t.eng e).hung = true ∧
        t.m = s.m ∧ ∀ j, j ≠ e → (t.eng j).hung = (s.eng j).hung)

/-! ### Long vectors (R113, R114, R122, R181 to R251) -/

/-- R122, R123, R180 to R185: a long-vector instruction that need not wait and whose operands stage 4 finds valid enters
flight under the lowest free tag with its operand field, its limit and the values of stage 4, and retires; one with nothing
to process completes at once (R114, R199). -/
def Claims.VectorIssueComplete : Prop :=
  ∀ (c : Nat → Pfx → FmtV → Instr) (opc : Nat),
    (c, opc) ∈ [(Instr.vmov, 0xC0), (Instr.valu, 0xC1), (Instr.vmul, 0xC2), (Instr.vdiv, 0xC3), (Instr.vfp, 0xC4),
      (Instr.vcmp, 0xC5), (Instr.vcomp, 0xC6), (Instr.vexp, 0xC7), (Instr.vscan, 0xC8), (Instr.vsegr, 0xC9),
      (Instr.vred, 0xCA), (Instr.vhash, 0xCB), (Instr.vprobe, 0xCC), (Instr.vscadd, 0xCD), (Instr.vscswp, 0xCE),
      (Instr.vmerge, 0xCF), (Instr.vsort, 0xD0), (Instr.vkcmp, 0xD1), (Instr.vdadd, 0xD2), (Instr.vdsub, 0xD3),
      (Instr.vcvt, 0xD4)] →
    ∀ (s s1 : State) (e : Nat) (p : Pfx) (f : FmtV) (tag : Nat) (w : VInst), s.executes e p opc 0 = true →
      vecCause opc (opfOf f) = 0 → (s.eng e).freeTag = some tag →
      let lim : Option Nat := match (pInfo p).vlo with
        | none => none
        | some j => some (Nat.min ((s.eng e).arch.rdG (24 + j)).toNat 0xFFFFFFFF)
      let v := (s.cycle e).vNew e tag opc (opfOf f) lim none (s.eng e).arch.pc
      (s.cycle e).vWaits e v = false → (s.cycle e).vPush e v = (s1, .ok w) →
      exec (c e p f) s = .next ((s1.vBegin e w).retire e opc (pLen p opc) .next) ∧
      v.tag = tag ∧ v.opc = opc ∧ v.opf = opfOf f ∧ v.limit = lim ∧ v.user = !(s.eng e).arch.sup ∧
      ∃ u ∈ (s1.eng e).vinsts, u.tag = tag ∧ u.opc = opc ∧ u.opf = opfOf f ∧ u.limit = lim

/-- R30, R101: a long-vector instruction of the Steward, or under Escalation, raises ILLEGAL; nothing enters flight. -/
def Claims.VectorIllegal : Prop :=
  ∀ (s : State) (e : Nat) (p : Pfx) (opc : Nat) (f : FmtV), s.issues e = true → (s.eng e).arch.selects p = true →
    p.chk = .good → p.bytes = [] → (s.eng e).arch.ds = none → opc / 16 = 12 ∨ opc / 16 = 13 → vecCause opc (opfOf f) = 0 →
    e = 512 ∨ (s.eng e).arch.escact = true →
    s.vIssue e p opc f = .next (s.except e 0x03 0x0A 0 none false none)

/-- R190, R191, R194: STREAM_REQUEST asks for the unit of a stream's next element, BEAT delivers the elements that a
request has had answered, and GROUP takes the positions of one group through its unit. -/
def Claims.VectorFlowComplete : Prop :=
  ∀ (s s1 : State) (e tag c : Nat) (v : VInst),
    (∀ x, s.loadSide e tag c = some (s1, v) → s1.readHold e v c = false → s1.mayAsk e v c (v.buf c).reqTo = true →
      s1.ixVal e v c (v.buf c).reqTo = some x → exec (.streamRequest e tag c) s = .next (s1.askUnit e v c x)) ∧
    (∀ w ws s3 b3, s.loadSide e tag c = some (s1, v) → (v.buf c).want = w :: ws → w.fault = none →
      s1.beatWant e v c w (w :: ws) (v.buf c) = (s3, b3) → b3 ≠ v.buf c →
      exec (.beat e tag c .clean) s = .next (s3.updV e tag (fun x => x.setBuf c b3))) ∧
    (∀ v0 s2 s3, s.active e = true → e < 512 → (s.eng e).vinst tag = some v0 → v0.ended = false → s.startGroup e v0 = some s1 →
      (s1.eng e).vinst tag = some v → s1.serialHold e v = false → (s1.noteFull e tag).passSieves e tag = .go s2 →
      s2.doGroup e tag = .go s3 → exec (.group e tag .good) s = .next (s3.freeEnded e 25))

/-- R226: the element results of the integer units at width w, without OVERFLOW trapping: sums, differences, bitwise
results, shifts, minima, maxima and products, signed for I types and unsigned for U types. -/
def Obligations.VectorIntegerElements : Prop :=
  ∀ (env : VEnv) (et : Nat), et < 8 → env.ove = false →
    let w := etWidth et
    ∀ (x y : BitVec w),
      let alu := fun fn => (vAlu env fn et x.toNat y.toNat).val
      let le : Prop := if 4 ≤ et then x.toInt ≤ y.toInt else x.toNat ≤ y.toNat
      alu 0 = (x + y).toNat ∧ alu 1 = (x - y).toNat ∧ alu 2 = (x &&& y).toNat ∧ alu 3 = (x ||| y).toNat ∧
      alu 4 = (x ^^^ y).toNat ∧ alu 5 = (x &&& ~~~y).toNat ∧ alu 6 = (x <<< (y.toNat % w)).toNat ∧
      alu 7 = (x >>> (y.toNat % w)).toNat ∧
      alu 8 = (if 4 ≤ et then x.sshiftRight (y.toNat % w) else x >>> (y.toNat % w)).toNat ∧
      (le → alu 9 = x.toNat ∧ alu 10 = y.toNat) ∧ (¬le → alu 9 = y.toNat ∧ alu 10 = x.toNat) ∧
      (vMul env 0 et x.toNat y.toNat).val = (x * y).toNat ∧
      (y ≠ 0 → 4 ≤ et → (vDiv env 0 et x.toNat y.toNat).val = (x.sdiv y).toNat ∧
        (vDiv env 1 et x.toNat y.toNat).val = (x.srem y).toNat) ∧
      (y ≠ 0 → et < 4 → (vDiv env 0 et x.toNat y.toNat).val = (x / y).toNat ∧
        (vDiv env 1 et x.toNat y.toNat).val = (x % y).toNat) ∧
      (y = 0 → (vDiv env 0 et x.toNat y.toNat).exc = some (0x0C, 0, false))

/-- R225, R251: the sort that VSORT applies to a block of elements answers a rearrangement of it in which no element
precedes an earlier one, and keeps the order of elements that neither precedes. -/
def Obligations.SortIsStable : Prop :=
  ∀ (et : Nat) (l : List (Nat × Nat)),
    let lt := fun (x y : Nat × Nat) => precedes et x.1 y.1
    let r := stableSort lt l
    r.Perm l ∧ r.Pairwise (fun x y => lt y x = false) ∧
    ∀ k, r.filter (fun x => !precedes et x.1 k && !precedes et k x.1) = l.filter (fun x => !precedes et x.1 k && !precedes et k x.1)

/-! ### The register window (spec/01_overview_and_conventions.md, R7 to R14; R22, R397, R482, R559) -/

/-- R12, R22, R26, R309, R397, R482, R490, R559: a management write that is not one aligned word, or finds the window closed, has no
effect; one from a master with no path to the registers is recorded as unmapped and counted, and changes nothing else. The debug port's write is counted and dropped in a mirrored mode; the
host's is forwarded by a Lead, or waits where the Lap's INPUT cells do not hold it (R398), and dropped by a Pacer; every other one takes effect here, in the state in which an active Record
Unit has logged it (DEDUCED, log 13 for when a Pacer begins). -/
def Obligations.WriteRouting : Prop :=
  ∀ (s : State) (m off : Nat) (v : BitVec 32) (bytes : Nat),
    (s.accessOk m off bytes = false → s.windowUp = false ∨ regMaster m = true →
      exec (.registerWrite m off v bytes) s = .next s) ∧
    (s.windowUp = true → regMaster m = false → m < 42 →
      ∃ t, exec (.registerWrite m off v bytes) s = .next t ∧
        t.fld Reg.xbarStat 15 0 = Nat.min 0xFFFF (s.fld Reg.xbarStat 15 0 + 1) ∧
        (s.mkRec 0x13 0 (originOf s.pos 2 m) 0 0 0 0).key ∈ t.flt.keys ∧
        t.m = s.m ∧ t.engines = s.engines) ∧
    (s.accessOk m off bytes = true →
      (m = 41 → s.actMode.mirrored = true → ownSideBlock off = false →
        ∃ t, exec (.registerWrite m off v bytes) s = .next t ∧ t = { s with regs := t.regs } ∧
          OnlyRegs s t [Reg.dbgStat.off] ∧ t.fld Reg.dbgStat 15 0 = Nat.min 0xFFFF (s.fld Reg.dbgStat 15 0 + 1)) ∧
      (m = 35 → s.forwarding = true → ownSideBlock off = false → (s.inputRoom && s.pair.waiting.isEmpty) = false →
        exec (.registerWrite m off v bytes) s =
          .next { s with pair := { s.pair with waiting := s.pair.waiting ++ [.regwr s.lap off v] } }) ∧
      (m = 35 → s.forwarding = true → ownSideBlock off = false → (s.inputRoom && s.pair.waiting.isEmpty) = true →
        ∃ t, exec (.registerWrite m off v bytes) s = .next t ∧
          t.pair.inputs = s.pair.inputs ++ [.regwr s.lap off v] ∧ t.pair.taken = s.pair.taken + 1 ∧
          OnlyRegs s t [Reg.pairCntInput.off, Reg.pairCntInput.off + 4] ∧ t.m = s.m ∧ t.engines = s.engines) ∧
      (m = 35 → s.forwarding = false → s.pacer = true → ownSideBlock off = false → isDoorbell off = false →
        exec (.registerWrite m off v bytes) s = .next s) ∧
      (s.direct m off = true → off ≠ 8 → ¬(off = 0x301000 ∧ s.actMode = .replay) →
        exec (.registerWrite m off v bytes) s = .next ((s.noted m off v).regWrite false m off v)))

/-- R7, R8: after a management write that takes effect, every RW field of a 32-bit register without an effect of its own holds
the bits written, every W1C field has lost the bits written as 1, every W1S field has gained them, and RO, WO, RC and (outside
Dawn) RL fields are as they were; no other register differs. -/
def Claims.AccessCodes : Prop :=
  ∀ (s : State) (m off : Nat) (v : BitVec 32) (r : RegRow), s.direct m off = true → findReg off regRows = some (r, 0) →
    r.width = 32 → plainOffset off = true →
    ∃ t, exec (.registerWrite m off v 4) s = .next t ∧ t = { s.noted m off v with regs := t.regs } ∧
      OnlyRegs (s.noted m off v) t [off] ∧
      ∀ f ∈ r.fields,
        bitsOf (t.rd ⟨off, BitVec.ofNat 32 r.rst⟩).toNat f.hi f.lo =
          (let old := bitsOf ((s.noted m off v).rd ⟨off, BitVec.ofNat 32 r.rst⟩).toNat f.hi f.lo
           let new := bitsOf v.toNat f.hi f.lo
           match f.acc with
           | .rw | .rwp => new
           | .w1c => old - (old &&& new)
           | .w1s => old ||| new
           | .ro | .wo | .rc | .rl => old)

/-- R7, R8, R12: a read of a 32-bit register answers its value and clears its RC fields; every other field, every other register
and everything else is as before. A read of another width or alignment completes with 0. A register whose value is stored shows WO fields as 0 and every other field as it is. -/
def Claims.ReadsComplete : Prop :=
  (∀ (s : State) (m off bytes : Nat), s.windowUp = true → regMaster m = true → (bytes ≠ 4 ∨ off % 4 ≠ 0) →
    exec (.rcRead m off bytes) s = .next (s.emit (.regData m off 0))) ∧
  ∀ (s : State) (m off : Nat) (r : RegRow), s.accessOk m off 4 = true → findReg off regRows = some (r, 0) → r.width = 32 →
    ∃ t, exec (.rcRead m off 4) s = .next t ∧ t.host.out = s.host.out ++ [.regData m off (s.show off)] ∧
      t = { s with regs := t.regs, host := { s.host with out := t.host.out } } ∧ OnlyRegs s t [off] ∧
      ∀ f ∈ r.fields,
        bitsOf (t.rd ⟨off, BitVec.ofNat 32 r.rst⟩).toNat f.hi f.lo =
            (if f.acc = .rc then 0 else bitsOf (s.rd ⟨off, BitVec.ofNat 32 r.rst⟩).toNat f.hi f.lo) ∧
        bitsOf (s.stored off).toNat f.hi f.lo =
            (if f.acc = .wo then 0 else bitsOf (s.rd ⟨off, BitVec.ofNat 32 r.rst⟩).toNat f.hi f.lo)

/-- R13: a read of the low half of a 64-bit register answers it and holds the high half for the same master, whose next read
of the high half answers what was held, whatever happened to the register in between; another master's latch is another one, and reset leaves 0 in all of them. -/
def Obligations.HalvesReadTogether : Prop :=
  (∀ (s : State) (m off : Nat), s.accessOk m off 4 = true → half64 off = some 0 →
    ∃ t, exec (.lowHalfRead m off) s = .next t ∧ exec (.rcRead m off 4) s = .next t ∧
      t.host.out = s.host.out ++ [.regData m off (s.show off)] ∧ SMap.get 0 t.latch (latchKey m off) = s.show (off + 4) ∧
      (∀ n, n ≠ m → n < 64 → m < 64 → ∀ o, SMap.get 0 t.latch (latchKey n o) = SMap.get 0 s.latch (latchKey n o)) ∧
      t = { s with regs := t.regs, latch := t.latch, host := { s.host with out := t.host.out } }) ∧
  (∀ (s : State) (m off : Nat), s.accessOk m off 4 = true → half64 off = some 4 →
    ∃ t, exec (.rcRead m off 4) s = .next t ∧
      t.host.out = s.host.out ++ [.regData m off (SMap.get 0 s.latch (latchKey m (off - 4)))] ∧ t.latch = s.latch) ∧
  (∀ k, SMap.get 0 State.reset.latch k = 0)

/-- R14, R477: a write of the low half of a 64-bit register is held for its master and changes no register; the write of the
high half then changes both halves at once. Shown for the base of a submission queue and of a completion queue, which take a
new base only while the queue is disabled. -/
def Obligations.HalvesWrittenTogether : Prop :=
  (∀ (s : State) (m off : Nat) (v : BitVec 32), s.direct m off = true → half64 off = some 0 →
    ∃ t, exec (.lowHalfWrite m off v) s = .next t ∧ t = { s.noted m off v with staged := t.staged } ∧
      SMap.get none t.staged (latchKey m off) = some v ∧
      ∀ n o, latchKey n o ≠ latchKey m off → SMap.get none t.staged (latchKey n o) = SMap.get none (s.noted m off v).staged (latchKey n o)) ∧
  (∀ (s : State) (m q : Nat) (hi : BitVec 32) (sub : Bool), q < 64 →
    let r := if sub then Reg.hostSqBase q else Reg.hostCqBase q
    let n := s.noted m (r.off + 4) hi
    s.direct m r.off = true →
    ∃ t, exec (.highHalfWrite m (r.off + 4) hi) s = .next t ∧ t = { n with regs := t.regs, staged := t.staged } ∧
      SMap.get none t.staged (latchKey m r.off) = none ∧ OnlyRegs n t [r.off, r.off + 4] ∧
      (if n.bit (if sub then Reg.hostSqCfg q else Reg.hostCqCfg q) 31 then t.rd64 r = n.rd64 r
       else bitsOf (t.rd64 r).toNat 63 12 = bitsOf (hi ++ n.stagedLow m r.off (n.rd r)).toNat 63 12))

/-- R31, R73: a kick notes the Lap for the Steward watchdog; a write of STA_TT_INDEX copies the whole Task Table entry into the
sixteen data words. R515: REPLAY without REDAWN has no effect. -/
def Claims.KickAndTaskIndexComplete : Prop :=
  (∀ (s : State) (m : Nat) (v : BitVec 32), s.direct m 0xC = true → v.getLsbD 0 = true → s.stew.up = true →
    exec (.kick m v) s =
      .next { s.noted m 0xC v with stew := { s.stew with kickLap := s.lap } }) ∧
  (∀ (s : State) (m : Nat) (v : BitVec 32), s.direct m Reg.staTtIndex.off = true →
    ∃ t, exec (.staTtIndex m v) s = .next t ∧ t = { s.noted m Reg.staTtIndex.off v with regs := t.regs } ∧
      OnlyRegs (s.noted m Reg.staTtIndex.off v) t (Reg.staTtIndex.off :: (List.range 16).map (fun k => (Reg.staTtData k).off)) ∧
      t.fld Reg.staTtIndex 15 0 = v.toNat % 65536 ∧
      ∀ k, k < 8 → ((t.rd (Reg.staTtData (2 * k + 1))).toNat * 2 ^ 32 + (t.rd (Reg.staTtData (2 * k))).toNat) =
        (s.task (v.toNat % 65536)).words.getD k 0 % 2 ^ 64) ∧
  (∀ (s : State) (m : Nat) (v : BitVec 32), s.direct m 8 = true → v.getLsbD 0 = false →
    exec (.replay m v) s = .next (s.noted m 8 (v ||| 2)))

/-- R509, R510: a write of the high half of a Keep register that is allowed commits both halves and counts the commit; one
that fails its verification leaves a free value, records the register and raises a fault. -/
def Claims.KeepComplete : Prop :=
  ∀ (s : State) (m i : Nat) (hi : BitVec 32), i < 1024 → s.direct m (Reg.keepReg i).off = true → keepMaster m i = true →
    let n := s.noted m ((Reg.keepReg i).off + 4) hi
    (m = 41 → n.dbgWrites = true) →
    (∃ t, exec (.keepReg m i hi true) s = .next t ∧
      t.rd64 (Reg.keepReg i) = hi ++ n.stagedLow m (Reg.keepReg i).off (n.rd (Reg.keepReg i)) ∧
      (t.rd (Reg.keepWcnt i)).toNat = Nat.min (2 ^ 32 - 1) ((n.rd (Reg.keepWcnt i)).toNat + 1) ∧
      t.bit Reg.keepStat 30 = (n.bit Reg.keepStat 30 || decide (1000000 < (t.rd (Reg.keepWcnt i)).toNat)) ∧
      OnlyRegs n t [(Reg.keepReg i).off, (Reg.keepReg i).off + 4, (Reg.keepWcnt i).off, Reg.keepStat.off] ∧
      t = { n with regs := t.regs, staged := t.staged }) ∧
    (∃ t, exec (.keepReg m i hi false) s = .next t ∧ t.rd64 (Reg.keepReg i) = Config.keepFailed n.freeCtr ∧
      t.bit Reg.keepStat 31 = true ∧ t.fld Reg.keepStat 9 0 = i ∧ t.m.mem = s.m.mem)

/-- R516: in SERVICE, an idle flash unit takes a command whose address is inside 128 MiB and outside the copy that was loaded; the
command ends with its page read, its page programmed or its sector erased. -/
def Claims.FlashComplete : Prop :=
  (∀ (s : State) (m op : Nat) (c : Nat → Instr), s.direct m 0x100014 = true → s.mode = .service →
    (op, c) ∈ [(1, Instr.flashRead), (2, Instr.flashProgram), (3, Instr.flashErase)] →
    let n := s.noted m 0x100014 (BitVec.ofNat 32 op)
    n.bit Reg.dawnFlashCmd 31 = false → n.flashProtected (n.rd Reg.dawnFlashAddr).toNat = false →
    (n.rd Reg.dawnFlashAddr).toNat < 0x8000000 →
    ∃ t, exec (c m) s = .next t ∧ t.bit Reg.dawnFlashCmd 31 = true ∧ t.fld Reg.dawnFlashCmd 1 0 = op ∧
      t = { n with regs := t.regs } ∧ OnlyRegs n t [Reg.dawnFlashCmd.off]) ∧
  (∀ s : State, s.windowUp = true → s.bit Reg.dawnFlashCmd 31 = true →
    ∃ t, exec (.flashCommandEnd true) s = .next t ∧ t.bit Reg.dawnFlashCmd 31 = false ∧ t.fld Reg.dawnFlashCmd 30 28 = 0 ∧
      (s.fld Reg.dawnFlashCmd 1 0 = 1 → t.flash = s.flash ∧
        ∀ k, k < 64 → ∀ i, i < 4 →
          bitsOf (t.rd (Reg.dawnFlashBuf k)).toNat (8 * i + 7) (8 * i) =
            (s.flashAt ((s.rd Reg.dawnFlashAddr).toNat / 256 * 256 + 4 * k + i)).toNat) ∧
      (s.fld Reg.dawnFlashCmd 1 0 = 2 → ∀ a,
        t.flashAt a = if a / 256 = (s.rd Reg.dawnFlashAddr).toNat / 256 then s.flashBuf.getD (a % 256) 0 else s.flashAt a) ∧
      (s.fld Reg.dawnFlashCmd 1 0 = 3 → ∀ a,
        t.flashAt a = if a / 65536 = (s.rd Reg.dawnFlashAddr).toNat / 65536 then 0xFF else s.flashAt a)) ∧
  (∀ s : State, s.windowUp = true → s.bit Reg.dawnFlashCmd 31 = true →
    ∃ t, exec (.flashCommandEnd false) s = .next t ∧ t.bit Reg.dawnFlashCmd 31 = false ∧ t.fld Reg.dawnFlashCmd 30 28 = 3)

/-! ### Timers and events (spec/13_events_and_time.md, R431 to R458) -/

/-- R449, R450: an armed compare channel that the Time Base has reached fires its code, once in a tick, and moves on by PERIOD, or
disarms; one that has not been reached does nothing (DESIGN CHOICE, log 14). Writes of CMP_VALUE and CMP_CTL take effect, and
PASSED says whether the latest one left an armed channel at or behind the Time Base (DEDUCED, log 148); the channel then
fires in the next tick at the earliest. -/
def Claims.CompareChannelsComplete : Prop :=
  (∀ (s : State) (k : Nat), k < 64 → s.timersOn = true → s.bit (Reg.cmpCtl k) 31 = true →
    (s.rd64 (Reg.cmpValue k)).toNat ≤ s.tb → SMap.get 0 s.evt.cmpAt k ≠ s.tb + 1 →
    ∃ t, exec (.compare k) s = .next t ∧ SMap.get 0 t.evt.cmpAt k = s.tb + 1 ∧ t = { s with regs := t.regs, evt := t.evt, engines := t.engines } ∧
      OnlyRegs s t ((Reg.cmpCtl k).off :: (Reg.cmpValue k).off :: ((Reg.cmpValue k).off + 4) :: pulseOffs) ∧
      (if s.bit (Reg.cmpCtl k) 30 = true ∧ s.rd (Reg.cmpPeriod k) ≠ 0 then
        t.bit (Reg.cmpCtl k) 31 = true ∧
          t.rd64 (Reg.cmpValue k) = s.rd64 (Reg.cmpValue k) + (s.rd (Reg.cmpPeriod k)).setWidth 64
       else t.bit (Reg.cmpCtl k) 31 = false ∧ t.rd64 (Reg.cmpValue k) = s.rd64 (Reg.cmpValue k)) ∧
      ∀ c, s.soleListener (0x040 + k) c → s.accepts c s.hubNow = true → t.flag c = true) ∧
  (∀ (s : State) (k : Nat), s.tb < (s.rd64 (Reg.cmpValue k)).toNat ∨ SMap.get 0 s.evt.cmpAt k = s.tb + 1 →
    exec (.compare k) s = .next s) ∧
  (∀ (s : State) (m k : Nat) (hi : BitVec 32), k < 64 → s.direct m (Reg.cmpValue k).off = true →
    let n := s.noted m ((Reg.cmpValue k).off + 4) hi
    ∃ t, exec (.cmpValue m k hi) s = .next t ∧
      t = { n with regs := t.regs, staged := t.staged, evt := { n.evt with cmpAt := t.evt.cmpAt } } ∧
      SMap.get 0 t.evt.cmpAt k = s.tb + 1 ∧ SMap.get none t.staged (latchKey m (Reg.cmpValue k).off) = none ∧
      t.rd64 (Reg.cmpValue k) = hi ++ n.stagedLow m (Reg.cmpValue k).off (n.rd (Reg.cmpValue k)) ∧
      t.bit (Reg.cmpCtl k) 29 =
        (s.timersOn && s.bit (Reg.cmpCtl k) 31 && decide ((t.rd64 (Reg.cmpValue k)).toNat ≤ s.tb)) ∧
      OnlyRegs n t [(Reg.cmpValue k).off, (Reg.cmpValue k).off + 4, (Reg.cmpCtl k).off]) ∧
  (∀ (s : State) (m k : Nat) (v : BitVec 32), k < 64 → s.direct m (Reg.cmpCtl k).off = true →
    let n := s.noted m (Reg.cmpCtl k).off v
    ∃ t, exec (.cmpCtl m k v) s = .next t ∧
      t = { n with regs := t.regs, evt := { n.evt with cmpAt := t.evt.cmpAt } } ∧ OnlyRegs n t [(Reg.cmpCtl k).off] ∧
      SMap.get 0 t.evt.cmpAt k = s.tb + 1 ∧
      t.bit (Reg.cmpCtl k) 31 = v.getLsbD 31 ∧ t.bit (Reg.cmpCtl k) 30 = v.getLsbD 30 ∧
      t.bit (Reg.cmpCtl k) 29 =
        (s.timersOn && v.getLsbD 31 && decide ((s.rd64 (Reg.cmpValue k)).toNat ≤ s.tb)))

/-- R451, R453: a timer whose step reached 0 fires its ZERO code, once, and its link is due in the next tick; if nothing that this
pulse does acts on the timer itself, it has stopped or reloaded, and a reload to MATCH makes its MATCH due. One whose step
reached MATCH fires its MATCH code, and its link is due. A timer for which nothing is due does nothing. -/
def Claims.TimerExpiryComplete : Prop :=
  (∀ (s : State) (j : Nat), j < 32 → s.timersOn = true → SMap.get 0 s.evt.zeroDue j ≠ 0 →
    ∃ t, exec (.zero j) s = .next t ∧ t = { s with regs := t.regs, evt := t.evt, engines := t.engines } ∧
      OnlyRegs s t pulseOffs ∧ SMap.get 0 t.evt.zeroDue j = 0 ∧
      (SMap.get 0 s.evt.zeroDue j = 1 →
        (∀ c, c < 256 → s.lists c (0x080 + j) = true → 32 + j ∉ s.chConsumers c ∧ 64 + j ∉ s.chConsumers c ∧ 96 + j ∉ s.chConsumers c) →
        if s.bit (Reg.cdtCtl j) 10 = true ∨ s.rd (Reg.cdtReload j) = 0 then t.cdtRun j = false
        else t.rd (Reg.cdtCount j) = s.rd (Reg.cdtReload j) ∧ t.cdtRun j = s.cdtRun j ∧
          (s.rd (Reg.cdtMatch j) = s.rd (Reg.cdtReload j) → SMap.get false t.evt.matchDue j = true)) ∧
      t.evt.links = s.evt.links ++
        (if s.fld (Reg.cdtCtl j) 23 22 = 0 then [] else [(s.fld (Reg.cdtCtl j) 23 22, s.fld (Reg.cdtCtl j) 28 24)]) ∧
      ∀ c, s.soleListener (0x080 + j) c → s.accepts c s.hubNow = true → t.flag c = true) ∧
  (∀ (s : State) (j : Nat), j < 32 → s.timersOn = true → SMap.get false s.evt.matchDue j = true →
    ∃ t, exec (.matchEvt j) s = .next t ∧ t = { s with regs := t.regs, evt := t.evt, engines := t.engines } ∧
      OnlyRegs s t pulseOffs ∧ (SMap.get 0 s.evt.zeroDue j ≠ 1 → SMap.get false t.evt.matchDue j = false) ∧
      t.evt.links = s.evt.links ++
        (if s.fld (Reg.cdtCtl j) 16 15 = 0 then [] else [(s.fld (Reg.cdtCtl j) 16 15, s.fld (Reg.cdtCtl j) 21 17)]) ∧
      ∀ c, s.soleListener (0x0A0 + j) c → s.accepts c s.hubNow = true → t.flag c = true) ∧
  (∀ (s : State) (j : Nat),
    (SMap.get 0 s.evt.zeroDue j = 0 → exec (.zero j) s = .next s) ∧
    (SMap.get false s.evt.matchDue j = false → exec (.matchEvt j) s = .next s))

/-- R452, R454: START loads PHASE, or RELOAD where PHASE is 0, and runs; on a running timer it only counts a missed start. STOP halts
and keeps the count, RESET loads and keeps the running state, LOADNOW loads RELOAD. A write of 0 to the COUNT of a running
timer is taken as 1. Said of a timer whose last step did not reach 0; STOP and the writes of the count hold for every one. -/
def Claims.TimerActionsComplete : Prop :=
  ∀ (s : State) (j : Nat), j < 32 →
    (s.timersOn = true → SMap.get 0 s.evt.zeroDue j ≠ 1 →
      (∃ t, exec (.start j) s = .next t ∧ t = { s with regs := t.regs } ∧
        OnlyRegs s t [(Reg.cdtCount j).off, (Reg.cdtStat j).off] ∧
        t.cdtRun j = (s.cdtRun j || decide (s.cdtLoad j ≠ 0)) ∧
        (s.cdtRun j = false → s.cdtLoad j ≠ 0 → t.rd (Reg.cdtCount j) = s.cdtLoad j) ∧
        (s.cdtRun j = true → t.rd (Reg.cdtCount j) = s.rd (Reg.cdtCount j) ∧
          t.fld (Reg.cdtStat j) 31 24 = Nat.min 255 (s.fld (Reg.cdtStat j) 31 24 + 1))) ∧
      (∃ t, exec (.stop j) s = .next t ∧ t = { s with regs := t.regs } ∧ OnlyRegs s t [(Reg.cdtStat j).off] ∧
        t.cdtRun j = false) ∧
      (∃ t, exec (.reset j) s = .next t ∧ t = { s with regs := t.regs } ∧ OnlyRegs s t [(Reg.cdtCount j).off] ∧
        t.rd (Reg.cdtCount j) =
          if s.rd (Reg.cdtPhase j) ≠ 0 then s.rd (Reg.cdtPhase j) else s.rd (Reg.cdtReload j))) ∧
    (s.timersOn = true →
      ∃ t, exec (.stop j) s = .next t ∧ t = { s with regs := t.regs, evt := t.evt } ∧
        OnlyRegs s t [(Reg.cdtCount j).off, (Reg.cdtStat j).off] ∧ t.cdtRun j = false) ∧
    (s.windowUp = true →
      ∃ t, exec (.loadnow j) s = .next t ∧ t = { s with regs := t.regs, evt := t.evt } ∧
        OnlyRegs s t [(Reg.cdtCount j).off, (Reg.cdtStat j).off] ∧ t.rd (Reg.cdtCount j) = s.rd (Reg.cdtReload j) ∧
        (SMap.get 0 s.evt.zeroDue j ≠ 1 → t.evt = s.evt ∧ OnlyRegs s t [(Reg.cdtCount j).off])) ∧
    (∀ (m : Nat) (v : BitVec 32), s.direct m (Reg.cdtCount j).off = true →
      let n := s.noted m (Reg.cdtCount j).off v
      ∃ t, exec (.cdtCount m j v) s = .next t ∧ t = { n with regs := t.regs, evt := t.evt } ∧
        OnlyRegs n t [(Reg.cdtCount j).off, (Reg.cdtStat j).off] ∧
        t.rd (Reg.cdtCount j) = (if t.cdtRun j = true ∧ v = 0 then 1 else v) ∧
        (SMap.get 0 s.evt.zeroDue j ≠ 1 → t.evt = n.evt ∧ t.cdtRun j = s.cdtRun j))

/-- R431, R434, R435, R440, R442, R444: a pulse of a listed code on a channel of a group that is off, or on a closed channel, or
within three hub cycles of the last accepted one, is counted and has no other effect, and one in the same hub cycle merges.
An accepted pulse sets the flag, counts, is forwarded one hub cycle later, sets and clears groups where OFF wins, and acts on
timers where STOP wins. -/
def Claims.PulseComplete : Prop :=
  (∀ (s : State) (c code at_ : Nat), s.windowUp = true → c < 256 → code ≠ 0 → s.lists c code = true →
    let last := SMap.get 0 s.evt.lastAcc c
    (s.groupOn c = false → exec (.pulse c code at_) s = .next (s.satInc (Reg.evtChStat c) 15 8)) ∧
    (s.groupOn c = true → s.bit (Reg.evtChStat c) 1 = true →
      exec (.pulse c code at_) s = .next (s.satInc (Reg.evtChStat c) 31 24)) ∧
    (s.groupOn c = true → s.bit (Reg.evtChStat c) 1 = false → last ≠ 0 →
      (at_ + 1 = last → exec (.pulse c code at_) s = .next s) ∧
      (at_ + 1 ≠ last → at_ + 1 ≤ last + 3 → exec (.pulse c code at_) s = .next (s.satInc (Reg.evtChStat c) 31 24))) ∧
    (s.accepts c at_ = true →
      ∃ t, exec (.pulse c code at_) s = .next t ∧ t = { s with regs := t.regs, evt := t.evt, engines := t.engines } ∧
        OnlyRegs s t pulseOffs ∧ t.flag c = true ∧
        (∀ d, d < 256 → d ≠ c → t.flag d = s.flag d) ∧
        SMap.get 0 t.evt.count c = SMap.get 0 s.evt.count c + 1 ∧ SMap.get 0 t.evt.lastAcc c = at_ + 1 ∧
        t.evt.fwd = s.evt.fwd ++ (s.forwards c).map (fun d => (d, at_ + 1)) ∧
        t.rd Reg.evtGroupEn =
          (if s.bit Reg.evtCfg 0 = true then
            (s.rd Reg.evtGroupEn ||| groupMask (s.chConsumers c) 4) &&& ~~~groupMask (s.chConsumers c) 5
           else s.rd Reg.evtGroupEn) ∧
        (s.fld (Reg.evtChCfg c) 15 0 ≠ 0 → s.fld (Reg.evtChCfg c) 15 0 < SMap.get 0 s.evt.count c + 1 →
          t.bit (Reg.evtChStat c) 0 = true ∧ (s.bit (Reg.evtChCfg c) 19 = true → t.bit (Reg.evtChStat c) 1 = true)) ∧
        (∀ j, j < 32 → 64 + j ∈ s.chConsumers c → t.cdtRun j = false) ∧
        (∀ j, j < 32 → 32 + j ∈ s.chConsumers c → 64 + j ∉ s.chConsumers c → SMap.get 0 s.evt.zeroDue j ≠ 1 →
          t.cdtRun j = (s.cdtRun j || decide (s.cdtLoad j ≠ 0))))) ∧
  (∀ (s : State) (c code at_ : Nat), s.lists c code = false → exec (.pulse c code at_) s = .next s)

/-- R435, R438, R444, R445: management pulses, clears, group enables, reopening and Domain pulses act for a master that owns the
channel, and are counted as denied for another. -/
def Claims.EventWritesComplete : Prop :=
  (∀ (s : State) (m at_ : Nat) (v : BitVec 32), s.direct m Reg.evtFire.off = true → v.getLsbD 8 = false →
    let c := v.toNat % 256
    let n := s.noted m Reg.evtFire.off v
    exec (.evtFire m v at_) s = .next
      (if s.mgmtOwns m c && s.lists c 0x0C0 then n.pulse c at_ else n.satInc (Reg.evtChStat c) 23 16)) ∧
  (∀ (s : State) (m at_ : Nat) (v : BitVec 32), s.direct m Reg.evtFire.off = true →
    let d := v.toNat % 32
    let n := s.noted m Reg.evtFire.off (v ||| 0x100)
    let last := SMap.get 0 s.evt.domLast d
    (s.mgmtOwnsDom m d = false → exec (.dom m v at_) s = .next (n.satInc Reg.evtStat 15 0)) ∧
    (s.mgmtOwnsDom m d = true → last ≠ 0 → at_ + 1 < last + 4 →
      exec (.dom m v at_) s = .next (n.satInc Reg.evtStat 31 16)) ∧
    (s.mgmtOwnsDom m d = true → (last = 0 ∨ last + 4 ≤ at_ + 1) →
      ∃ t, exec (.dom m v at_) s = .next t ∧ SMap.get 0 t.evt.domLast d = at_ + 1 ∧ t.m = s.m ∧ t.sta = s.sta ∧
        (∀ c, s.soleListener (0x200 + d) c → s.accepts c at_ = true → t.flag c = true) ∧
        (s.ringSize ≠ 0 → (s.port 0).lost = false → (s.port 1).lost = false → ∀ p, p < 2 →
          ∃ f, (t.port p).inject = (s.port p).inject ++ [f] ∧ f.body[2]? = some (BitVec.ofNat 64 (d * 256 + 1)) ∧
            f.cls = 2 ∧ f.vc = 3 ∧ f.src = BitVec.ofNat 5 s.pos))) ∧
  (∀ (s : State) (m k : Nat) (v : BitVec 32), k < 8 → s.direct m (Reg.evtFlag k).off = true →
    let n := s.noted m (Reg.evtFlag k).off v
    ∃ t, exec (.evtFlag m k v) s = .next t ∧ t = { n with regs := t.regs } ∧
      OnlyRegs n t ((Reg.evtFlag k).off :: (List.range 32).map (fun b => (Reg.evtChStat (32 * k + b)).off)) ∧
      (∀ b, b < 32 → t.flag (32 * k + b) = (s.flag (32 * k + b) && !(v.getLsbD b && s.mgmtOwns m (32 * k + b)))) ∧
      (∀ b, b < 32 → v.getLsbD b = true → s.mgmtOwns m (32 * k + b) = false →
        t.fld (Reg.evtChStat (32 * k + b)) 23 16 = Nat.min 255 (s.fld (Reg.evtChStat (32 * k + b)) 23 16 + 1))) ∧
  (∀ (s : State) (m : Nat) (v : BitVec 32) (on off : BitVec 16), s.direct m Reg.evtGroupEn.off = true →
    let n := s.noted m Reg.evtGroupEn.off v
    ∃ t, exec (.evtGroupEn m v on off) s = .next t ∧ t = { n with regs := t.regs } ∧ OnlyRegs n t [Reg.evtGroupEn.off] ∧
      t.rd Reg.evtGroupEn = if s.bit Reg.evtCfg 0 = true then (((v.setWidth 16) ||| on) &&& ~~~off).setWidth 32
        else s.rd Reg.evtGroupEn) ∧
  (∀ (s : State) (m c : Nat), c < 256 → s.direct m (Reg.evtChStat c).off = true →
    let n := s.noted m (Reg.evtChStat c).off 2
    exec (.closed m c) s = .next
      (if s.mgmtOwns m c then n.setBit (Reg.evtChStat c) 1 false else n.satInc (Reg.evtChStat c) 23 16))

/-- R456, R457, R554: a change of an EVT pin is seen in every mode with a register window but REPLAY: its level shows, the
stuck count starts again, and a selected edge not within 30 ns of the last fires the pin's code. A pin active for more Laps than
STUCK is reported once. -/
def Claims.PinsComplete : Prop :=
  (∀ (s : State) (i : Nat) (level : Bool) (stamp : Nat), s.windowUp = true → s.actMode ≠ .replay → i < 16 →
    s.bit Reg.evtPinStat i = !level →
    let last := SMap.get 0 s.evt.pinLast i
    ∃ t, exec (.pin i level stamp) s = .next t ∧ t.bit Reg.evtPinStat i = level ∧ SMap.get 0 t.evt.pinLaps i = 0 ∧
      t = { s with regs := t.regs, evt := t.evt, engines := t.engines, recd := t.recd } ∧
      OnlyRegs s t (Reg.evtPinStat.off :: Reg.recStat.off :: pulseOffs) ∧
      (last ≠ 0 → stamp + 1 < last + 30 → OnlyRegs s t [Reg.evtPinStat.off]) ∧
      ((last = 0 ∨ last + 30 ≤ stamp + 1) → SMap.get 0 t.evt.pinLast i = stamp + 1 ∧
        (edgeSelected (s.fld (Reg.evtPinCfg i) 1 0) level = true → ∀ c, s.soleListener (0x010 + i) c →
          s.accepts c s.hubNow = true → t.flag c = true) ∧
        (edgeSelected (s.fld (Reg.evtPinCfg i) 1 0) level = false → t.evt.count = s.evt.count))) ∧
  (∀ (s : State) (i : Nat), s.windowUp = true → s.actMode ≠ .replay → i < 16 → s.bit Reg.evtPinStat i = true →
    let lim := s.fld (Reg.evtPinCfg i) 31 24
    lim ≠ 0 → lim < SMap.get 0 s.evt.pinLaps i → SMap.get 0 s.evt.pinLaps i ≤ 256 →
    ∃ t, exec (.stuck i) s = .next t ∧ t.bit Reg.evtPinStat (16 + i) = true ∧ SMap.get 0 t.evt.pinLaps i = 999 ∧
      t = { s with regs := t.regs, evt := t.evt, engines := t.engines } ∧ OnlyRegs s t (Reg.evtPinStat.off :: pulseOffs) ∧
      ∀ c, s.soleListener (0x020 + i) c → s.accepts c s.hubNow = true → t.flag c = true)

/-! ### Laps, placements and Tasks (spec/02_laps_and_admission.md) -/

/-- R31: 64 Laps after the last kick the Steward restarts with its firmware reloaded; a second time within 256 Laps halts it. -/
def Claims.StewardWatchdogComplete : Prop :=
  ∀ s : State, s.windowUp = true → s.stew.halted = false → s.stew.kickLap + 64 ≤ s.lap →
    ∃ t, exec .stewardWatchdog s = .next t ∧ t.m = s.m ∧ t.sta = s.sta ∧ OnlyEng s t steward ∧
      t.stew.kickLap = s.lap ∧ t.stew.lastExpiry = some s.lap ∧ t.stew.sram = putCells s.stew.sram s.img.fw ∧
      t.stew.halted = (match s.stew.lastExpiry with | some l => decide (s.lap ≤ l + 256) | none => false) ∧
      t.stew.up = !t.stew.halted ∧ t.eng steward = { Engine.init with running := !t.stew.halted }

/-- R37, R444: at the boundary time goes on to the next Lap's cycle 0, unless it has passed there already, and the boundary's work is
done; nothing is left to do for that Lap. What the boundary makes of each Task is R57 to R61's: Overrun for one that used more than it booked or has no Lap left,
Cancelled where that was asked for, an Open Task back in the queue, and any other one goes on. -/
def Claims.LapBoundaryComplete : Prop :=
  (∀ s : State, s.windowUp = true → s.lapTicks ≠ 0 → ∃ t, exec .lapBoundary s = .next t ∧ t.lastLap = t.lap ∧
    t = (if s.lastLap < s.lap then s else s.closeLap.advanceTime (s.lapTicks - s.tb % s.lapTicks)).openLap) ∧
  (∀ (s : State) (tti : Nat),
    let t := s.task tti
    t.st ≠ .free → t.st ≠ .settled → t.st ≠ .queued → s.flt.rerun.any (fun p => p.1 = tti) = false →
    (t.ovr ≠ 0 → ((s.taskBoundary tti).task tti).st = .settled ∧ ((s.taskBoundary tti).task tti).outcome = .overrun ∧
      ((s.taskBoundary tti).task tti).ovr =
        (if t.cls ≠ 2 ∧ t.ended = false ∧ s.lapsBooked tti = 0 then t.ovr ||| 1 else t.ovr)) ∧
    (t.ovr = 0 → t.ended = true → s.taskBoundary tti = s) ∧
    (t.ovr = 0 → t.ended = false → t.cls = 2 → s.heldBy tti = true →
      ((s.taskBoundary tti).task tti).st =
        (if t.cv.cyc * (t.cv.span + 1) < t.cyc ∨ t.cancelReq = true then .settled else .queued) ∧
      (t.cv.cyc * (t.cv.span + 1) < t.cyc → ((s.taskBoundary tti).task tti).outcome = .overrun) ∧
      (t.cyc ≤ t.cv.cyc * (t.cv.span + 1) → t.cancelReq = true → ((s.taskBoundary tti).task tti).outcome = .cancelled)) ∧
    (t.ovr = 0 → t.ended = false → t.cls ≠ 2 → (t.st = .running → s.heldBy tti = true) →
      (s.lapsBooked tti = 0 → ((s.taskBoundary tti).task tti).outcome = .overrun) ∧
      (s.lapsBooked tti ≠ 0 → t.cancelReq = true → ((s.taskBoundary tti).task tti).outcome = .cancelled) ∧
      (s.lapsBooked tti ≠ 0 → t.cancelReq = false →
        s.taskBoundary tti = s.updTask tti (fun x => { x with lapsLeft := s.lapsBooked tti }))))

/-- R37, R38, R41, R49, R56, R60: the sweep of an engine that holds nothing takes the first placement of its row; one whose Task its row
books first goes on with fresh budgets and the registers as they are; any other placement is saved, where it had begun, and its
Task is parked for its next Lap. An engine swept in this Lap is left alone. A booked placement that is taken is marked. A Task whose entry in the engine's placement list is bad fails. -/
def Claims.PreemptionSweepComplete : Prop :=
  (∀ (s : State) (e tti : Nat), s.canRun e = true → (s.eng e).place = none → s.nextBooked e = some tti →
    ∃ t, exec (.preemptionSweep e ⟨[], false⟩) s = .next t ∧ t.m = s.m ∧ OnlyEng s t e ∧ (t.eng e).running = false ∧
      (t.eng e).place = some { tti := tti, lap := s.lap, isOpen := false, epoch := (s.task tti).epoch,
                               budget := (s.task tti).cv.budget, cyc := 0, restored := false, save := (s.task tti).saveDpa } ∧
      (t.task tti).st = .running ∧ (t.task tti).engine = e ∧ (t.task tti).lapsLeft = (s.task tti).lapsLeft - 1 ∧
      (∀ x, x ≠ tti → t.task x = s.task x) ∧
      (t.row s.lap).plc = (s.row s.lap).plc.map (fun b => if b.engine = e ∧ b.tti = tti then { b with taken := true } else b)) ∧
  (∀ (s : State) (e : Nat) (p : Placement), e < 512 → (s.eng e).hung = false → (s.eng e).place = some p → p.lap ≠ s.lap →
    s.sameTask e p = true → vsLapres (s.eng e).arch.vstate = false →
    ∃ t, exec (.preemptionSweep e ⟨[], false⟩) s = .next t ∧ t.m = s.m ∧ OnlyEng s t e ∧ (t.eng e).arch = (s.eng e).arch ∧
      (t.eng e).running = p.restored ∧
      (t.eng e).place = some { p with lap := s.lap, budget := (s.task p.tti).cv.budget, cyc := 0 }) ∧
  (∀ (s : State) (e : Nat) (p : Placement), e < 512 → (s.eng e).hung = false → (s.eng e).place = some p → p.lap ≠ s.lap →
    s.sameTask e p = false →
    ∃ t, exec (.preemptionSweep e ⟨[], false⟩) s = .next t ∧ OnlyEng s t e ∧
      ((∀ q, (t.eng e).place = some q → q.tti ≠ p.tti) → (s.task p.tti).epoch = p.epoch → (s.task p.tti).st = .running →
        (s.task p.tti).engine = e → (s.task p.tti).cls ≠ 2 → (s.task p.tti).lapsLeft ≠ 0 → (t.task p.tti).st = .parked) ∧
      (p.restored = false → t.m.mem = s.m.mem ∧ t.m.memq = s.m.memq) ∧
      (p.restored = true → s.m.health = [] → (∀ i, i < 2048 → s.failed (s.tier (p.save % 2 ^ 46 + i)) = false) → (s.eng e).arch.ds = none → vsNrec (s.eng e).arch.vstate = 0 →
        getBytes t.m.mem (p.save % 2 ^ 46) 2048 = (s.eng e).arch.saveBytes [] ∧
        ∀ a, (a < p.save % 2 ^ 46 ∨ p.save % 2 ^ 46 + 2048 ≤ a) → SMap.get 0 t.m.mem a = SMap.get 0 s.m.mem a)) ∧
  (∀ (s : State) (e : Nat) (p : Placement), e < 512 → (s.eng e).hung = false → (s.eng e).place = some p → p.lap = s.lap →
    exec (.preemptionSweep e ⟨[], false⟩) s = .next s) ∧
  (∀ (s : State) (e tti : Nat), s.canRun e = true → (s.eng e).place = none → s.mirroredNow = false →
    ((s.row s.lap).plc.find? (fun b => b.engine = e && !b.taken)).map (fun b => b.tti) = some tti →
    (s.task tti).st ≠ .free → (s.task tti).st ≠ .settled →
    ∃ t, exec (.preemptionSweep e ⟨[0], false⟩) s = .next t ∧ t.m = s.m ∧ OnlyEng s t e ∧
      (t.task tti).st = .settled ∧ (t.task tti).outcome = .failed ∧ (t.task tti).cause = 0x08)

/-- R170, R173, R215, R470, R591: once no other engine holds a Task, its first placement starts at its entry address with its table
base, keys, context and arguments and every other register at its initial value; a later one without resume records starts
with the registers of its save area. Errors that came meanwhile join the error queue; the engine runs, and its prefetch and
branch prediction start anew. -/
def Claims.FirstPlacementComplete : Prop :=
  (∀ (s : State) (e : Nat) (p : Placement), e < 512 → s.runs = true → (s.eng e).place = some p → p.restored = false →
    s.heldElsewhere e p.tti = false → (s.task p.tti).started = false →
    ∃ t, exec (.placementRestore e) s = .next t ∧ t = { s with engines := t.engines, sta := t.sta } ∧ OnlyEng s t e ∧
      (t.eng e).running = true ∧ (t.eng e).place = some { p with restored := true } ∧
      (t.eng e).pq = [] ∧ (t.eng e).btb = [] ∧ (t.task p.tti).started = true ∧ (t.task p.tti).errq = [] ∧
      let a := (t.eng e).arch
      let k := s.task p.tti
      a.pc = k.entry ∧ a.ttb = k.ttb &&& 0x000FFFFFFFFF0001 ∧ a.pkr = k.pkr ∧ a.ctxid = k.ctxid ∧ a.rdG 1 = k.arg0 ∧
        a.rdG 2 = k.arg1 ∧ (∀ n, n < 32 → n ≠ 1 → n ≠ 2 → a.rdG n = 0) ∧ (∀ n, n < 32 → a.rdQ n = 0) ∧
        a.psr = Arch.init.psr ∧ a.flags = Arch.init.flags ∧ (k.errq = [] → a.errq = []) ∧ a.ds = none) ∧
  (∀ (s s1 : State) (e : Nat) (p : Placement) (bs : List Byte), e < 512 → s.runs = true → (s.eng e).place = some p →
    p.restored = false → s.heldElsewhere e p.tti = false → (s.task p.tti).started = true → s.saveHeld p.save = false →
    s.readSave p.save = (s1, bs) → vsNrec (archOf bs).vstate = 0 → vsLapres (archOf bs).vstate = false →
    ∃ t, exec (.placementRestore e) s = .next t ∧ t = { s1 with engines := t.engines, sta := t.sta } ∧ OnlyEng s1 t e ∧
      (t.eng e).running = true ∧ (t.eng e).place = some { p with restored := true } ∧
      (t.eng e).pq = [] ∧ (t.eng e).btb = [] ∧ (t.task p.tti).errq = [] ∧
      (t.eng e).arch = s.restoredArch (s.task p.tti) (archOf bs))

/-- R149, R150 (Table 5.11): what a save area's image restores is what was saved: every register comes back as it was, but for
bits that are reserved. -/
def Obligations.SaveRestoreRoundTrip : Prop :=
  ∀ a : Arch,
    let b := archOf (a.saveBytes [])
    b.pc = a.pc ∧ (∀ n, n < 31 → SMap.get 0 b.g n = SMap.get 0 a.g n) ∧ b.g31u = a.g31u ∧ b.g31s = a.g31s ∧
    (∀ n, n < 32 → b.rdQ n = a.rdQ n) ∧ b.psr = a.psr &&& (psrMask ||| 1) ∧ b.flags = a.flags &&& flagsMask ∧
    b.pkr = a.pkr ∧ b.ctxid = a.ctxid ∧ b.ttb = a.ttb &&& 0x000FFFFFFFFF0001 ∧ b.evec = a.evec &&& 0x007FFFFFFFFFFF00 ∧
    b.esp = BitVec.ofNat 64 (a.esp.toNat % 2 ^ 19) ∧ b.holdcnt = BitVec.ofNat 32 (a.holdcnt.toNat % 2 ^ 13) ∧
    b.vstate = a.vstate &&& 0xFFFFFF80FFFFFFFF ∧ b.escact = a.escact ∧ b.erract = a.erract ∧
    (∀ n, n < 3 → SMap.get 0 b.ls n = SMap.get 0 a.ls n ∧ SMap.get 0 b.le n = SMap.get 0 a.le n ∧
      SMap.get 0 b.lc n = SMap.get 0 a.lc n) ∧
    (∀ n, n < 8 → SMap.get Desc.zero b.str n = SMap.get Desc.zero a.str n) ∧
    (b.ds.map (fun d => (d.taken, d.target))) = (a.ds.map (fun d => (d.taken, d.target))) ∧
    ((∀ x ∈ a.errq, x.cls < 4 ∧ x.count < 2 ^ 64) → a.errq.Pairwise (fun x y => x.cls < y.cls) → 
      b.errq = a.errq.map (fun x => { x with tick := 0 }))

/-- R60: an engine that holds nothing and has nothing booked takes the oldest waiting Open Task that may use it. R57: an engine
whose placement has used its cycles records it; it runs on unless another placement is booked there. -/
def Claims.OpenTaskAndExhaustedComplete : Prop :=
  (∀ (s : State) (e tti : Nat), s.canRun e = true → (s.eng e).place = none → s.nextBooked e = none → s.nextOpen e = some tti →
    ∃ t, exec (.openTask e) s = .next t ∧ t.m = s.m ∧ OnlyEng s t e ∧ (t.task tti).st = .running ∧ (t.task tti).engine = e ∧
      (t.task tti).lapsLeft = (s.task tti).lapsLeft ∧ tti ∉ t.sta.openq ∧ t.sta.rows = s.sta.rows ∧
      (t.eng e).place = some { tti := tti, lap := s.lap, isOpen := true, epoch := (s.task tti).epoch,
                               budget := (s.task tti).cv.budget, cyc := 0, restored := false, save := (s.task tti).saveDpa }) ∧
  (∀ (s : State) (e : Nat) (p : Placement), e < 512 → (s.eng e).place = some p → p.restored = true → p.isOpen = false →
    p.budget.cyc ≤ p.cyc →
    (s.nextBooked e = none →
      exec (.engineCycleCounterExhausted e) s =
        .next (s.updTask p.tti (fun t => { t with ovr := t.ovr ||| 1 }))) ∧
    (∀ q, s.nextBooked e = some q → q ≠ p.tti → (s.eng e).vecBusy = false → (s.task p.tti).lapsLeft ≠ 0 →
      ∃ t, exec (.engineCycleCounterExhausted e) s = .next t ∧ (t.task p.tti).st = .parked ∧
        (t.task p.tti).ovr = (s.task p.tti).ovr ||| 1 ∧ (t.task p.tti).started = true ∧
        (s.canRun e = true → (t.eng e).place.map (fun x => x.tti) = some q)))

/-- R64: when the move of a lost engine's placements ends, no row from the present one on books the engine but for what it has
taken already. The Starter decides again once no other lost engine has bookings left. -/
def Claims.BookingMoveComplete : Prop :=
  ∀ (s : State) (e : Nat), s.sta.moving = true → e < 512 → s.usable e = false →
    (∀ l, s.lap ≤ l → ∀ b ∈ (s.row l).plc, b.engine = e → (s.task b.tti).st ≠ .free ∧ (s.task b.tti).st ≠ .settled) →
    ∃ t, exec (.bookingMove e) s = .next t ∧ t.sta.moving = t.toMove ∧ t.m = s.m ∧
      ∀ l, s.lap ≤ l → ∀ b ∈ (t.row l).plc, b.engine = e → l = s.lap ∧ b.taken = true

/-- R62, R471, R478: the host port fetches from the next enabled queue in turn that has a record, while fewer than 16 submissions
are on their way. -/
def Claims.SqFetchComplete : Prop :=
  ∀ (s : State) (k : Nat), s.fetches = true → s.counted < 16 → s.inputRoom = true → k < 64 →
    s.sqReady ((s.host.lastSq + 1 + k) % 64) = true → (∀ j, j < k → s.sqReady ((s.host.lastSq + 1 + j) % 64) = false) →
    exec .sqFetch s = .next { s with
      host := { s.host with lastSq := (s.host.lastSq + 1 + k) % 64 },
      sta := { s.sta with fetching := s.sta.fetching ++ [(s.host.lastSq + 1 + k) % 64] } }

/-- R51, R397, R398, R471: a fetched record that arrives advances its queue's HEAD, where no Lead forwards it; a CANCEL enters the
intake queue at once, a SUBMIT once its cost vector is read, and one whose cost vector may not be read there enters it marked so.
A failed fetch disables the queue, drops its other fetches and is reported. -/
def Claims.SubmitComplete : Prop :=
  ∀ (s : State) (q : Nat) (rest : List Nat) (r : Rec64), s.sta.fetching = q :: rest →
    (∃ t, exec (.submit r false) s = .next t ∧ t.sta.fetching = rest.filter (fun x => x ≠ q) ∧ t.bit (Reg.hostSqCfg q) 31 = false ∧
      t.bit Reg.hostStat 19 = true ∧ t.sta.intake = s.sta.intake ∧ t.m = s.m) ∧
    (s.forwarding = false → q < 64 → s.pair.cmdAck = [] → s.fld (Reg.hostSqCfg q) 3 0 ≤ 12 →
      let head := (s.sqHead q + 1) % s.sqSize q
      ∃ t, exec (.submit r true) s = .next t ∧ t.sta.fetching = rest ∧ t.sqHead q = head ∧
        t.rd64 Reg.hostCntFetch = s.rd64 Reg.hostCntFetch + 1 ∧ t.m = s.m ∧ t.engines = s.engines ∧
        (r.isCancel = true → t.sta.intake = s.sta.intake ++ [⟨q, r, head, CostVec.zero, false⟩] ∧ t.sta.cvReads = s.sta.cvReads) ∧
        (r.isCancel = false → s.cvPlace r.cvDpa = true →
          t.sta.cvReads = s.sta.cvReads ++ [⟨q, r, head, CostVec.zero, false⟩] ∧ t.sta.intake = s.sta.intake) ∧
        (r.isCancel = false → s.cvPlace r.cvDpa = false →
          t.sta.intake = s.sta.intake ++ [⟨q, r, head, CostVec.zero, true⟩] ∧ t.sta.cvReads = s.sta.cvReads)) ∧
    (s.forwarding = true → q < 64 → s.pair.cmdAck = [] →
      ∃ t, exec (.submit r true) s = .next t ∧ t.sta.fetching = rest ∧ t.pair.cmdAck = [q] ∧ t.sqHead q = s.sqHead q ∧
        t.pair.inputs = s.pair.inputs ++ [.hostcmd s.lap s.pair.taken q ((s.sqHead q + 1) % s.sqSize q) r] ∧
        t.sta.intake = s.sta.intake)

/-- R45, R51, R298: the cost vector's read takes units of its component out of the current row, and the submission enters the intake
queue with it; where the read meets an error the submission enters marked so. With too little left in the row, or where its
memory answers nothing now, it waits. -/
def Claims.CostVectorReadComplete : Prop :=
  ∀ (s : State) (m : Subm) (rest : List Subm), s.sta.cvReads = m :: rest →
    let off := m.r.cvDpa % 2 ^ 46
    let n := s.cvBytes off
    (∀ ue, s.chargeRow off n = none ∨ s.heldAt off = true → exec (.costVectorRead ue) s = .next s) ∧
    (∀ s1, s.chargeRow off n = some s1 → s.heldAt off = false →
      (∃ t, exec (.costVectorRead true) s = .next t ∧ t.sta.cvReads = rest ∧
        t.sta.intake = s.sta.intake ++ [{ m with location := true }] ∧ t.row s.lap = s1.row s.lap) ∧
      (s.m.health = [] → s.m.found = [] → s.m.memq = [] → s.failed (s.tier off) = false →
        (s.tier off).isMem = true → (s.tier (off + n - 1)).isMem = true →
        ∃ t, exec (.costVectorRead false) s = .next t ∧ t.sta.cvReads = rest ∧
          t.sta.intake = s.sta.intake ++ [{ m with cv := costVecOf ((List.range n).map (fun i => s.byteIn s.m (off + i))) }] ∧
          t.row s.lap = s1.row s.lap ∧ t.m.mem = s.m.mem))

/-- R41, R46, R50 to R55: the Starter decides the oldest submission. A row whose counters cannot be read refuses bookings from then on. One that a check refuses, or that finds no Laps, gets a completion
record with the reason; an Open one is queued; a booked one is booked once in each of SPAN + 1 Laps up to its deadline, on an
engine of its PLACE range that is usable. -/
def Claims.DecisionComplete : Prop :=
  ∀ (s : State) (m : Subm) (rest : List Subm), s.sta.intake = m :: rest → s.decides = true → m.r.isCancel = false →
    (∀ l ce, s.lap < l → l ≤ s.lap + 256 →
      ∃ t, exec (.decision ⟨[l], ce⟩) s = .next t ∧ t.sta.intake = rest ∧ (t.row l).bad = true ∧ (t.row l).plc = (s.row l).plc) ∧
    (s.refusalCode m ≠ 0 →
      ∃ t, exec (.decision ⟨[], false⟩) s = .next t ∧ t.sta.intake = rest ∧ t.sta.tasks = s.sta.tasks ∧ t.sta.rows = s.sta.rows ∧
        (t.cq (s.cqOf m.sq)).held = (s.cq (s.cqOf m.sq)).held ++ [s.refusal m (s.refusalCode m) 0] ∧
        t.rd64 Reg.staCountRefuse = s.rd64 Reg.staCountRefuse + 1) ∧
    (∀ tti, s.refusalCode m = 0 → s.freeTask = some tti → m.cv.cls = 2 →
      ∃ t, exec (.decision ⟨[], false⟩) s = .next t ∧ t.sta.intake = rest ∧ t.task tti = s.newTask m 0 s.nextEpoch.2 ∧
        (t.task tti).st = .queued ∧ t.sta.openq = s.sta.openq ++ [tti] ∧ t.sta.rows = s.sta.rows ∧
        (∀ x, x ≠ tti → t.task x = s.task x) ∧ t.rd64 Reg.staCountAccept = s.rd64 Reg.staCountAccept + 1) ∧
    (∀ tti, s.refusalCode m = 0 → s.freeTask = some tti → m.cv.cls ≠ 2 →
      let x := s.choose m.cv (s.lap + 1) (m.cv.span + 1) (m.cv.deadline + 1)
      (x.1.length < m.cv.span + 1 →
        ∃ t, exec (.decision ⟨[], false⟩) s = .next t ∧ t.sta.tasks = s.sta.tasks ∧ t.sta.rows = s.sta.rows ∧
          ∃ part, (t.cq (s.cqOf m.sq)).held = (s.cq (s.cqOf m.sq)).held ++ [s.refusal m x.2.1 part]) ∧
      (m.cv.span + 1 ≤ x.1.length →
        ∃ t, exec (.decision ⟨[], false⟩) s = .next t ∧ (t.task tti).st = .booked ∧ (t.task tti).lapsLeft = m.cv.span + 1 ∧
          x.1.length = m.cv.span + 1 ∧ x.1.Pairwise (fun a b => a < b) ∧
          (∀ l, l ∈ x.1 → s.lap < l ∧ l ≤ s.lap + m.cv.deadline + 1 ∧
            ∃ e, s.pick m.cv (s.row l) = some e ∧ s.usable e = true ∧ e ∈ placeRange m.cv ∧
              t.row l = (s.row l).book m.cv tti e) ∧
          (∀ l, l ∉ x.1 → t.row l = s.row l)))

/-- R61: a CANCEL whose TTI, CID and queue name a Task settles it Cancelled where it does not run, marks it where it does, and has
no other effect on a Task. -/
def Claims.CancelComplete : Prop :=
  ∀ (s : State) (m : Subm) (rest : List Subm), s.sta.intake = m :: rest → s.decides = true → m.r.isCancel = true →
    let tti := bitsOf m.r.w1.toNat 15 0
    let k := s.task tti
    let same : Prop := k.sq = m.sq ∧ k.cid = bitsOf m.r.w1.toNat 31 16 ∧ k.ovr = 0
    ∃ t, exec .cancel s = .next t ∧ t.sta.intake = rest ∧ (∀ x, x ≠ tti → t.task x = s.task x) ∧
      (¬same → t.task tti = k) ∧
      (same → (k.st = .booked ∨ k.st = .parked ∨ k.st = .queued) →
        (t.task tti).st = .settled ∧ (t.task tti).outcome = .cancelled ∧ (t.task tti).settleLap = s.lap) ∧
      (same → k.st = .running → t.task tti = { k with cancelReq := true }) ∧
      (k.st = .free ∨ k.st = .settled → t.task tti = k)

/-- R48, R472, R474, R475: the oldest record waiting at an enabled completion queue with room goes out at TAIL with the queue's phase;
TAIL and, where it wraps, the phase move on, the post is counted and its vector sent or left pending. A COMPLETE record outside
mirrored operation frees its Task Table entry. -/
def Claims.PostingComplete : Prop :=
  ∀ (s : State) (q ty : Nat) (c : Nat → Instr) (r : CRec) (rest : List CRec),
    (ty, c) ∈ [(1, Instr.complete), (2, Instr.accept), (3, Instr.notice)] →
    s.posts = true → q < 64 → s.bit (Reg.hostCqCfg q) 31 = true → s.cqFull q = false → (s.cq q).held = r :: rest →
    s.fld (Reg.hostCqCfg q) 4 0 ≤ 16 → bitsOf r.w0.toNat 7 0 = ty →
    let w0 : W64 := if (s.cq q).phase then r.w0 ||| 0x100000000 else r.w0
    ∃ t more, exec (c q) s = .next t ∧ (t.cq q).held = rest ∧
      t.host.out = s.host.out ++ .record q (s.cqTail q) w0 r.w1 r.w2 r.w3 :: more ∧ (∀ o ∈ more, ∃ v, o = .msix v) ∧
      t.cqTail q = (s.cqTail q + 1) % s.cqSize q ∧
      (t.cq q).phase = (if (s.cqTail q + 1) % s.cqSize q = 0 then !(s.cq q).phase else (s.cq q).phase) ∧
      t.rd64 Reg.hostCntPost = s.rd64 Reg.hostCntPost + 1 ∧ t.m = s.m ∧ t.engines = s.engines ∧
      (∀ x, r.frees = some x → s.actMode.mirrored = false → t.task x = Task.empty) ∧
      (∀ x, r.frees ≠ some x → t.task x = s.task x) ∧
      (ty = 3 → t.bit Reg.hostStat 20 = true)

/-! ### The ring's links (spec/11_ohmian_ring.md) -/

/-- R346, R348, R350 to R353: a port trains from OFF through DETECT, CAPS, EQ, CHECK and ALIGN to ACTIVE; a failure of DETECT, an
answer that does not come in time, a failed EQ or CHECK at OR-1 and a failed ALIGN lead back to OFF, a failure at OR-2 on a
ring port to EQ at OR-1. Nothing but its port changes. -/
def Claims.TrainingComplete : Prop :=
  ∀ (s : State) (p : Nat), p < 3 →
    (s.trains p = true → s.lts p = 0 → ∃ t, exec (.trainingAttempt p) s = .next t ∧ t.lts p = 1 ∧ t = { s with regs := t.regs } ∧
      (p < 2 → t.rd64 (Reg.ringPortTrain p) = s.rd64 (Reg.ringPortTrain p) + 1)) ∧
    (∀ locked inverted : BitVec 16, s.lts p = 1 →
      ∃ t, exec (.detect p locked inverted) s = .next t ∧ t = { s with regs := t.regs } ∧ OnlyRegs s t [ltsOff p] ∧
        t.lts p = (if (if p < 2 then locked = 0xFFFF else locked &&& 0xFF = 0xFF) then 2 else 0) ∧
        (p < 2 → locked = 0xFFFF → t.fld (Reg.ringPortStat p) 15 0 = inverted.toNat)) ∧
    (s.lts p = 3 → ∃ t, exec (.eq p) s = .next t ∧ t = { s with regs := t.regs } ∧ OnlyRegs s t [ltsOff p] ∧ t.lts p = 4) ∧
    (s.lts p = 3 → ∃ t, exec (.eqTimeout p) s = .next t ∧ t = { s with regs := t.regs, ring := t.ring } ∧ OnlyRegs s t [ltsOff p] ∧
      (if p < 2 ∧ (s.port p).gen = 2 then t.lts p = 3 ∧ (t.port p).gen = 1 else t.lts p = 0 ∧ t.ring = s.ring)) ∧
    (s.lts p = 4 →
      (∃ t, exec (.check p false) s = .next t ∧ t = { s with regs := t.regs } ∧ OnlyRegs s t [ltsOff p] ∧ t.lts p = 5) ∧
      (∃ t, exec (.check p true) s = .next t ∧ t = { s with regs := t.regs, ring := t.ring } ∧ OnlyRegs s t [ltsOff p] ∧
        (if p < 2 ∧ (s.port p).gen = 2 then t.lts p = 3 ∧ (t.port p).gen = 1 else t.lts p = 0 ∧ t.ring = s.ring))) ∧
    (∀ (ok : Bool) (delay : BitVec 16), s.lts p = 5 →
      ∃ t, exec (.align p ok delay) s = .next t ∧ t.m = s.m ∧ t.sta = s.sta ∧
        (if ok = true ∧ (s.port p).minGen ≤ (s.port p).gen then
          t.lts p = 6 ∧ (t.port p).txSeq = 0 ∧ (t.port p).rxSeq = 0 ∧ (t.port p).replay = [] ∧
            (t.port p).credits = Port.init.credits ∧ (p < 2 → t.fld (Reg.ringPortDly p) 15 0 = delay.toNat)
         else t.lts p = 0))

/-- R352, R353, R505: a partner that is the one asked for is accepted, with the higher minimum and the lower maximum of the two
generations; its number shows. One that does not answer in time sends the port back to OFF. One that is not the one asked for is
refused: in PREP the identity failure shows in DAWN_STAT, and SERVICE is entered where no port is left to try; else it is
reported. -/
def Claims.PartnerIdentity : Prop :=
  ∀ (s : State) (p : Nat) (f : CapsFrame), p < 3 → s.lts p = 2 →
    (∃ t, exec (.caps p f false) s = .next t ∧ t = { s with regs := t.regs } ∧ OnlyRegs s t [ltsOff p] ∧ t.lts p = 0) ∧
    ((if p < 2 then s.capsOk p f else s.pairCapsOk f) = true →
      ∃ t, exec (.caps p f true) s = .next t ∧ t = { s with regs := t.regs, ring := t.ring } ∧ OnlyRegs s t [ltsOff p] ∧
        t.lts p = 3 ∧
        (p < 2 → f.part < 32 → (t.port p).gen = Nat.min (s.fld (Reg.ringPortCfg p) 5 4) f.maxgen ∧
          (t.port p).minGen = Nat.max (s.fld (Reg.ringPortCfg p) 7 6) f.mingen ∧
          t.fld (Reg.ringPortStat p) 24 20 = f.part)) ∧
    ((if p < 2 then s.capsOk p f else s.pairCapsOk f) = false →
      ∃ t, exec (.caps p f true) s = .next t ∧ t.m.mem = s.m.mem ∧ t.m.memq = s.m.memq ∧
        (s.mode = .prep → t.bit Reg.dawnStat (if p = 2 then 11 else 10) = true ∧
          (if p = 2 ∨ s.lts (1 - p) = 7 then t.mode = .service else t.mode = .prep ∧ t.lts p = 7)) ∧
        (s.mode ≠ .prep → t.lts p = 7 ∧ (s.flt.queue.length < 1024 → t.reports 0x0E)))

/-- R356, R377, R378, R404: a link that loses its signal, receives LINK_DOWN, misses a fourth marker or replays an eighth time
without progress is lost: its training state is OFF and its port lost. -/
def Claims.LinkLossComplete : Prop :=
  ∀ (s : State) (p : Nat), p < 3 → s.lts p = 6 → ∀ c ∈ [Instr.lossOfSignal p, Instr.linkDown p, Instr.frame p, Instr.replayTimeout p],
    (c = .frame p → 3 ≤ (s.port p).missed) → (c = .replayTimeout p → (s.port p).replay ≠ [] ∧ 7 ≤ (s.port p).tries) →
    ∃ t, exec c s = .next t ∧ t.lts p = 0 ∧ (t.port p).lost = true ∧ (t.port p).replay = [] ∧ t.m = s.m ∧ t.sta = s.sta ∧
      t.engines = s.engines

/-- R354 to R356: on an active link a frame counts towards the markers missed, RETRAIN takes its place in the sequence, and a
replay timeout has every flit of the replay buffer sent again. Nothing but the port changes. -/
def Claims.LinkUpkeepComplete : Prop :=
  ∀ (s : State) (p : Nat), p < 3 → s.lts p = 6 →
    ((s.port p).missed < 3 →
      exec (.frame p) s = .next (s.setPort p { s.port p with
        missed := (s.port p).missed + 1, frame := s.tb % s.lapTicks / 1000 })) ∧
    exec (.retrain p) s = .next (s.setPort p { s.port p with rxSeq := (s.port p).rxSeq + 1 }) ∧
    ((s.port p).replay ≠ [] → (s.port p).tries < 7 →
      exec (.replayTimeout p) s = .next (s.setPort p { s.port p with
        resend := (s.port p).replay.length, tries := (s.port p).tries + 1 })) ∧
    ((s.port p).replay = [] → exec (.replayTimeout p) s = .next s)

/-- R374 to R376, R395: a marker with a bad CRC, or of another Lap or frame, is counted and moves nothing; a good one ends the
count of missed markers, and once time is locked it moves the Time Base by at most 1/64 ns. Without markers from upstream
HOLDOVER is reported, and another port that has them takes over. -/
def Obligations.TimeTransferComplete : Prop :=
  (∀ (s : State) (p : Nat) (k : Marker) (crcOk : Bool) (rxd : Int), p < 3 → s.lts p = 6 →
    let agrees := k.lap = s.lap ∧ k.frame = s.tb % s.lapTicks / 1000
    (s.mode ≠ .prep ∨ s.ring.locked = true →
      (crcOk = false ∨ ¬agrees →
        exec (.baton p k crcOk rxd) s = .next (if p < 2 then s.add64 (Reg.ringPortMkerr p) 1 else s)) ∧
      (crcOk = true → agrees → 0 < s.tb → 0 ≤ s.tbFrac →
        ∃ t, exec (.baton p k crcOk rxd) s = .next t ∧ (t.port p).missed = 0 ∧ (t.port p).mhops = k.mhops ∧ (t.port p).mv = k.mv ∧
          t.m = s.m ∧ t.engines = s.engines ∧ t.sta = s.sta ∧
          ∃ d : Int, -1 ≤ d ∧ d ≤ 1 ∧ (t.tb : Int) * 64 + t.tbFrac = (s.tb : Int) * 64 + s.tbFrac + d)) ∧
    (crcOk = false → exec (.baton p k crcOk rxd) s = .next (if p < 2 then s.add64 (Reg.ringPortMkerr p) 1 else s))) ∧
  (∀ s : State, s.isMaster = false → s.mode.running = true → s.lts s.ring.upstream = 6 → s.ring.upstream < 2 →
    3 ≤ (s.port s.ring.upstream).missed →
    ∃ t, exec .holdover s = .next t ∧ t.m = s.m ∧ t.engines = s.engines ∧ t.sta = s.sta ∧
      (s.flt.queue.length < 1024 → t.reports 0x15) ∧
      t.ring.upstream = (if s.lts (1 - s.ring.upstream) = 6 ∧ (s.port (1 - s.ring.upstream)).mv = true ∧
          (s.port (1 - s.ring.upstream)).missed = 0 then 1 - s.ring.upstream else s.ring.upstream))

/-- R357, R359, R361, R362, R370: a cell of an active link never touches memory, engines or Tasks. A cell for scheduled traffic
sends the oldest waiting flit that is within its grant, with the next sequence numbers of the link and of its triple; it waits
unacknowledged in both buffers, where both have room, and uses a credit. -/
def Claims.CellComplete : Prop :=
  (∀ (s : State) (p c : Nat), s.lts p = 6 → c < 390 * s.fld Reg.lapCfg 5 0 →
    ∃ t, exec (.cell p c) s = .next t ∧ t.m = s.m ∧ t.engines = s.engines ∧ t.sta = s.sta ∧ t.mode = s.mode ∧ t.tb = s.tb) ∧
  (∀ (s : State) (p c : Nat) (f : Flit) (rest : List Flit), p < 2 → s.lts p = 6 → c < 390 * s.fld Reg.lapCfg 5 0 →
    s.cellCode p c = 1 → (s.port p).gen ≠ 2 → (s.port p).resend = 0 → (s.port p).transit = [] → (s.port p).inject = f :: rest →
    f.vc ≠ 3 → s.injCls p f = 0 → (s.port p).replay.length < 512 → 2 ≤ (s.port p).credit f.vc.toNat →
    (s.tx (txKey p f)).unacked.length < 2047 → s.e2eFull p = false →
    ∃ t g, exec (.cell p c) s = .next t ∧ (t.port p).inject = rest ∧ (t.port p).replay = (s.port p).replay ++ [g] ∧
      g.seq = (s.port p).txSeq + 1 ∧ (t.port p).txSeq = (s.port p).txSeq + 1 ∧ g.ack = (s.port p).rxSeq ∧
      g.eseq = (s.tx (txKey p f)).next ∧ (t.tx (txKey p f)).next = (s.tx (txKey p f)).next + 1 ∧
      (t.tx (txKey p f)).unacked.length = (s.tx (txKey p f)).unacked.length + 1 ∧ g.kind = f.kind ∧ g.dst = f.dst ∧
      g.vc = f.vc ∧ g.reqr = f.reqr ∧ g.body = f.body ∧ g.cls = 0 ∧
      (t.port p).credit f.vc.toNat = (s.port p).credit f.vc.toNat - 1)

/-- R355 to R358: a flit on a link that is not active has no effect. One with a wrong CRC is counted on a ring port and asks once
for a replay, and nothing else of it counts. An IDLE flit carries acknowledgements and credits alone, and a flit out of order
is not taken. -/
def Claims.LinkLayerComplete : Prop :=
  ∀ (s : State) (p : Nat) (f : Flit) (crc : BitVec 32) (c : Nat → Flit → BitVec 32 → Instr) (ks : List Nat), p < 3 →
    (c, ks) ∈ [(Instr.idle, [0]), (Instr.pkt, [1, 5, 6, 7]), (Instr.data, [2]), (Instr.ack, [3])] → f.kind.toNat ∈ ks →
    (s.lts p ≠ 6 → exec (c p f crc) s = .next s) ∧
    (s.lts p = 6 → crc ≠ flitCrc f →
      ∃ t, exec (c p f crc) s = .next t ∧ (t.port p).nakSent = true ∧ (t.port p).rxSeq = (s.port p).rxSeq ∧
        (t.port p).replay = (s.port p).replay ∧ (t.port p).credits = (s.port p).credits ∧
        (p < 2 → t.rd64 (Reg.ringPortCrcerr p) = s.rd64 (Reg.ringPortCrcerr p) + 1) ∧
        t = { s with regs := t.regs, ring := t.ring }) ∧
    (s.lts p = 6 → crc = flitCrc f → f.nak = 0 → (f.kind = 0 ∨ f.seq ≠ (s.port p).rxSeq + 1) →
      ∃ t, exec (c p f crc) s = .next t ∧ (t.port p).rxSeq = (s.port p).rxSeq ∧
        (t.port p).replay = (s.port p).replay.filter (fun g => decide (512 ≤ (f.ack - g.seq).toNat)) ∧
        (t.port p).credit 0 = (s.port p).credit 0 + f.crd.toNat / 512 ∧
        (t.port p).credit 1 = (s.port p).credit 1 + f.crd.toNat / 64 % 8 ∧
        (t.port p).credit 2 = (s.port p).credit 2 + f.crd.toNat / 8 % 8 ∧
        (t.port p).credit 3 = (s.port p).credit 3 + f.crd.toNat % 8 ∧ t = { s with ring := t.ring })

/-- R355, R366 to R368, R370, R371, R372, R378: a good flit in the link's order for this part, with the next number of its
triple, is taken: a packet waits to be performed, long-write data wait for their packet, an acknowledgement frees the buffers of
the sender. A copy is counted and dropped; a flit for another part goes on by the other port with one more hop. -/
def Claims.FlitsComplete : Prop :=
  (∀ (s : State) (p : Nat) (f : Flit) (crc : BitVec 32) (ty : Nat) (ws : List W64), p < 2 → s.inOrder p f crc → s.forHere f →
    f.kind = 1 → s.mirroredNow = false → f.eseq = (s.rxT (f.src.toNat * 4 + f.vc.toNat)).last + 1 →
    flitPackets f = [(ty, ws)] → pktOk ty ws = true → ¬(ty = 6 ∧ (ws.getD 0 0).toNat % 256 = 3) →
    ∃ t, exec (.pkt p f crc) s = .next t ∧ (t.port p).rxSeq = f.seq ∧
      (t.rxT (f.src.toNat * 4 + f.vc.toNat)).last = f.eseq ∧ t.m = s.m ∧ t.engines = s.engines ∧
      t.ring.rx = s.ring.rx ++ [⟨p, f.src.toNat, f.reqr.toNat, f.vc.toNat, f.cls.toNat, f.laptag.toNat,
        bitsOf (f.body.getD 0 0).toNat 63 48, f.eseq, ty, ws⟩]) ∧
  (∀ (s : State) (p : Nat) (f : Flit) (crc : BitVec 32), p < 2 → s.inOrder p f crc → s.forHere f →
    f.kind = 2 → f.vc ≠ 1 → s.mirroredNow = false → f.eseq = (s.rxT (f.src.toNat * 4 + f.vc.toNat)).last + 1 →
    let k := (f.src.toNat * 1024 + f.reqr.toNat) * 4 + f.vc.toNat
    ∃ t, exec (.data p f crc) s = .next t ∧ (t.port p).rxSeq = f.seq ∧
      (t.rxT (f.src.toNat * 4 + f.vc.toNat)).last = f.eseq ∧ t.m = s.m ∧ t.ring.rx = s.ring.rx ∧
      SMap.get [] t.ring.wdata k = SMap.get [] s.ring.wdata k ++ (flitBytes f).take (f.dlen.toNat + 1)) ∧
  (∀ (s : State) (p : Nat) (f : Flit) (crc : BitVec 32), p < 2 → s.inOrder p f crc → s.forHere f → f.kind = 3 →
    ∃ t, exec (.ack p f crc) s = .next t ∧ (t.port p).rxSeq = f.seq ∧ t.m = s.m ∧
      ∀ vc, vc < 4 → (t.tx (f.src.toNat * 4 + vc)).unacked = (s.tx (f.src.toNat * 4 + vc)).unacked.filter (fun g =>
        !decide ((BitVec.ofNat 12 ((f.body.getD 0 0).toNat / 2 ^ (12 * vc)) - g.eseq).toNat < 2048))) ∧
  (∀ (s : State) (p : Nat) (f : Flit) (crc : BitVec 32), p < 2 → s.inOrder p f crc → s.forHere f → f.kind = 1 →
    f.eseq = (s.rxT (f.src.toNat * 4 + f.vc.toNat)).last →
    ∃ t, exec (.pkt p f crc) s = .next t ∧ (t.port p).rxSeq = f.seq ∧ t.ring.rx = s.ring.rx ∧ t.m = s.m ∧
      t.rd64 Reg.ringCntE2edup = s.rd64 Reg.ringCntE2edup + 1) ∧
  (∀ (s : State) (p : Nat) (f : Flit) (crc : BitVec 32), p < 2 → s.inOrder p f crc → f.kind = 1 → f.dst.toNat ≠ s.pos →
    f.src ≠ f.dst → s.bit Reg.ringLost f.src.toNat = false → s.bit Reg.ringLost f.dst.toNat = false →
    (s.port (1 - p)).lost = false → f.hops ≠ 31 →
    ∃ t, exec (.pkt p f crc) s = .next t ∧ t.m = s.m ∧ t.ring.rx = s.ring.rx ∧
      (t.port (1 - p)).transit = (s.port (1 - p)).transit ++ [(p, { f with hops := f.hops + 1 })])

/-! ### Packets and messages of the ring (R365 to R372, R379 to R384) -/

/-- R43, R293, R304, R367, R368: the first read packet in its flow that nothing holds is taken, counted at its targets, and answered: with
the bytes that the read gives, with status POISON, or with status UNMAPPED and a record where it names no memory of this part.
Where no other response waits the answer leaves at once, with the packet's LAPTAG and Open where the count says so. A read of
an expander waits in its port's queue. -/
def Claims.ReadPacketComplete : Prop :=
  ∀ (s : State) (x : RxPkt), firstPkt (fun x => x.ty = 1 && !s.rdHeld x) [] s.ring.rx = some x → bitsOf (x.w 0) 54 54 = 0 →
    let off := x.dpa % 2 ^ 46
    let s0 : State := { s with ring := { s.ring with rx := s.ring.rx.erase x } }
    let c := s0.countUnits x.src off x.rdBytes (s.tagLap x.laptag) (decide (x.cls = 0))
    let out := fun (t : State) (booked : Bool) (sts : Nat) (bs : List Byte) =>
      ({ t with ring := { t.ring with answerCtr := t.ring.answerCtr + 1 } } : State).respond x.src x.reqr
        (if booked then 0 else 1) x.laptag sts bs
    (s.pktMem x.dpa 1 = true → s0.expPort x.dpa = none → s.ring.answers = [] →
      (∀ t bs, c.1.readLocal x.srcOf off x.rdBytes = (t, .ok, bs) → exec .rd s = .next (out t c.2 0 bs)) ∧
      (∀ t bs, c.1.readLocal x.srcOf off x.rdBytes = (t, .poison, bs) →
        exec .rd s = .next (out t c.2 1 (List.replicate x.rdBytes 0)))) ∧
    (∀ port, s.pktMem x.dpa 1 = true → s0.expPort x.dpa = some port →
      ∃ t q, exec .rd s = .next t ∧ t.m.expq = s.m.expq ++ [q] ∧ q.port = port ∧ q.dpa = x.dpa ∧ q.size = x.rdBytes ∧
        q.what = .ring s.ring.answerCtr ∧ t.m.mem = s.m.mem ∧ t.m.memq = s.m.memq ∧ t.engines = s.engines) ∧
    (s.pktMem x.dpa 1 = false → s.ring.answers = [] →
      exec .rd s = .next (out (s0.pktUnmapped x x.dpa) (decide (x.cls = 0)) 2 (List.replicate x.rdBytes 0)))

/-- R311, R367: a write packet, a long write whose data are here, or an atomic, to memory of this part, waits at its target with
the bytes it enables or its operation; no byte of memory changes until it is performed. -/
def Claims.WritePacketsComplete : Prop :=
  ∀ (s : State) (x : RxPkt), s.flt.retired = [] → s.flt.sweeps = [] →
    let dpa := x.w 0 % 2 ^ 52
    (firstPkt (fun x => x.ty = 2) [] s.ring.rx = some x → s.pktMem dpa 8 = true →
      ∃ t rs, exec .wr s = .next t ∧ t.ring.rx = s.ring.rx.erase x ∧ t.m.mem = s.m.mem ∧ t.m.memq = s.m.memq ++ rs ∧
        rs.flatMap (fun r => match r.op with | .write cs => cs | _ => []) =
          (cellsAt (dpa % 2 ^ 46) (leBytes 8 (x.w 1))).filter (fun c => (bitsOf (x.w 0) 59 52).testBit (c.1 - dpa % 2 ^ 46)) ∧
        ∀ r ∈ rs, r.src = x.srcOf ∧ r.epoch = x.epoch) ∧
    (firstPkt (fun x => x.ty = 3 && x.wrlBytes ≤ (SMap.get [] s.ring.wdata x.dataKey).length) [] s.ring.rx = some x →
      s.pktMem dpa x.wrlBytes = true →
      ∃ t rs, exec .wrl s = .next t ∧ t.ring.rx = s.ring.rx.erase x ∧ t.m.mem = s.m.mem ∧ t.m.memq = s.m.memq ++ rs ∧
        SMap.get [] t.ring.wdata x.dataKey = (SMap.get [] s.ring.wdata x.dataKey).drop x.wrlBytes ∧
        rs.flatMap (fun r => match r.op with | .write cs => cs | _ => []) =
          cellsAt (dpa % 2 ^ 46) ((SMap.get [] s.ring.wdata x.dataKey).take x.wrlBytes) ∧
        ∀ r ∈ rs, r.src = x.srcOf ∧ r.epoch = x.epoch) ∧
    (firstPkt (fun x => x.ty = 4) [] s.ring.rx = some x → s.pktMem dpa 8 = true → (s.tier (dpa % 2 ^ 46)).atomicOk = true →
      ∃ t r, exec .atPkt s = .next t ∧ t.ring.rx = s.ring.rx.erase x ∧ t.m.mem = s.m.mem ∧ t.m.memq = s.m.memq ++ [r] ∧
        r.src = x.srcOf ∧ r.epoch = x.epoch ∧ r.off = dpa % 2 ^ 46 ∧ r.op = x.atOp ∧ 
        r.ret = (if bitsOf (x.w 0) 56 56 = 1 then some s.ring.answerCtr else none))

/-- R63, R338, R369, R372, R376, R379, R384, R446: each message that comes first in its flow is taken and has its effect: a predicate
enters its entry, a Domain event reaches its channels, a translation invalidation waits for its boundary, or acts at once where that has
passed (DEDUCED, log 145), a break or a join notes
a switch, a scale applies to the grants from its sender, and DONE raises the Lap that its sender has finished. -/
def Claims.MessagesComplete : Prop :=
  ∀ (s : State) (x : RxPkt),
    let s0 : State := { s with ring := { s.ring with rx := s.ring.rx.erase x } }
    (firstPkt (fun x => x.ty = 5) [] s.ring.rx = some x →
      ∃ t, exec .pred s = .next t ∧ t = { s0 with ring := { s0.ring with preds := t.ring.preds } } ∧
        SMap.get none t.ring.preds (x.src * 64 + x.w 0 % 64) =
          some ⟨x.words.getD 2 0, x.words.getD 3 0, x.words.getD 4 0, x.words.getD 5 0, x.words.getD 6 0, x.words.getD 7 0,
            x.words.getD 8 0, x.words.getD 9 0⟩) ∧
    (firstPkt (fun x => x.isMsg 1) [] s.ring.rx = some x →
      ∃ t, exec .evt s = .next t ∧ t = { s0 with regs := t.regs, evt := t.evt, engines := t.engines } ∧
        OnlyRegs s t pulseOffs ∧
        ∀ c, s.soleListener (0x200 + bitsOf (x.w 0) 12 8) c → s.accepts c s.hubNow = true → t.flag c = true) ∧
    (firstPkt (fun x => x.isMsg 2) [] s.ring.rx = some x →
      let due := s.tagLap (bitsOf (x.w 0) 15 8) + 2
      let va := bitsOf (x.w 1) 54 16 * 65536
      (s.lap < due → exec .tlbiMsg s = .next { s0 with tlbi := s.tlbi ++ [(due, va, BitVec.ofNat 16 (x.w 1))] }) ∧
      (due ≤ s.lap → ∃ t, exec .tlbiMsg s = .next t ∧ t = { s0 with engines := t.engines } ∧
        ∀ e, (t.eng e) = (s.eng e).dropSlots (pageSel va (BitVec.ofNat 16 (x.w 1))))) ∧
    (firstPkt (fun x => x.isMsg 4) [] s.ring.rx = some x →
      ∃ t, exec .breakMsg s = .next t ∧ t = { s0 with ring := { s0.ring with switches := t.ring.switches } } ∧
        ∃ w ∈ t.ring.switches, w.span = bitsOf (x.w 0) 12 8 * 32 + bitsOf (x.w 0) 17 13 ∧ w.joins = false ∧ w.lap ≤ x.w 1) ∧
    (firstPkt (fun x => x.isMsg 5) [] s.ring.rx = some x →
      ∃ t, exec .join s = .next t ∧ t.m = s.m ∧ t.engines = s.engines ∧ t.regs = s.regs ∧
        (∃ w ∈ t.ring.switches, w.span = bitsOf (x.w 0) 12 8 * 32 + bitsOf (x.w 0) 17 13 ∧ w.joins = true ∧ w.lap ≤ x.w 1) ∧
        (s.mode = .prep → (bitsOf (x.w 0) 12 8 = s.pos ∨ bitsOf (x.w 0) 17 13 = s.pos) → s.fld Reg.pairCfg 1 0 = 0 →
          t.pendMode = some (.ring, x.w 1)) ∧
        (s.mode ≠ .prep → t.pendMode = s.pendMode)) ∧
    (firstPkt (fun x => x.isMsg 6) [] s.ring.rx = some x →
      ∃ t, exec .scale s = .next t ∧ t = { s0 with regs := t.regs } ∧ OnlyRegs s t [(Reg.staScale x.src).off] ∧
        t.fld (Reg.staScale x.src) 16 0 = bitsOf (x.w 0) 24 8) ∧
    (firstPkt (fun x => x.isMsg 7) [] s.ring.rx = some x →
      ∃ t, exec .doneMsg s = .next t ∧ t = { s0 with ring := { s0.ring with doneLap := t.ring.doneLap } } ∧
        SMap.get 0 t.ring.doneLap x.src = Nat.max (SMap.get 0 s.ring.doneLap x.src) (x.w 1))

/-- R410, R416, R417, R421, R422: a record enters the Fault Collector's queue; one of another part that has stopped an engine begins
a fence of the epoch it names, and one with EPOCH 0xFFFF a sweep of its part, where no mirrored operation is in force. -/
def Claims.FaultRecordsComplete : Prop :=
  ∀ (s : State) (r : FaultRec), s.flt.queue.length < 1024 →
    (∃ t, exec (.flt r false) s = .next t ∧ t.reports r.cls ∧ t.m = s.m ∧ t.engines = s.engines ∧ t.sta = s.sta ∧
      t.flt.fences = s.flt.fences ∧ r.key ∈ t.flt.keys) ∧
    (∃ t, exec (.flt r true) s = .next t ∧ t.reports r.cls ∧ t.m.mem = s.m.mem ∧ t.engines = s.engines ∧ t.sta = s.sta ∧
      (s.mirroredNow = false → r.origin / 2 ^ 13 ≠ s.pos → r.epoch ≠ 0xFFFF → r.epoch ≠ 0 → r.origin / 2 ^ 9 % 16 = 0 →
        r.cls ∈ [0x05, 0x07] → ∃ f ∈ t.flt.fences, f.part = r.origin / 2 ^ 13 ∧ f.epoch = r.epoch) ∧
      (s.mirroredNow = false → r.origin / 2 ^ 13 ≠ s.pos → r.epoch = 0xFFFF →
        ∃ p ∈ t.flt.sweeps, p.1 = r.origin / 2 ^ 13 ∧ p.2 = s.fullLap r.lap16))

/-- R371, R380: RESEND sends a triple's unacknowledged flits again by its route and counts them; at the end of a drain the held flits
go out and the mark is clear. R383: a bypass that closes or opens is closed or open. -/
def Claims.ResendAndBypassComplete : Prop :=
  (∀ (s : State) (dst vc : Nat), dst < 32 → vc < 4 → dst ≠ s.pos →
    ∃ t, exec (.resend dst vc) s = .next t ∧ t = { s with regs := t.regs, ring := t.ring } ∧
      (t.port (s.routePort dst)).transit = (s.port (s.routePort dst)).transit ++ (s.tx (dst * 4 + vc)).unacked.map (fun f => (3, f)) ∧
      t.rd64 Reg.ringCntResend = s.rd64 Reg.ringCntResend + BitVec.ofNat 64 (s.tx (dst * 4 + vc)).unacked.length) ∧
  (∀ s : State, s.bit Reg.ringStat 18 = true →
    ∃ t, exec .drainHoldEnd s = .next t ∧ t.bit Reg.ringStat 18 = false ∧ t.ring.drainHeld = [] ∧ t.ring.draining = [] ∧
      t = { s with regs := t.regs, ring := t.ring }) ∧
  (∀ s : State, s.ring.bypass = .closing →
    exec .bypassClose s = .next { s with ring := { s.ring with bypass := .closed } }) ∧
  (∀ s : State, s.ring.bypass = .opening →
    exec .bypassOpen s = .next { s with ring := { s.ring with bypass := .opened } })

/-! ### Mirrored pairs (spec/12_pairs_and_faults.md) -/

/-- R397, R399, R404, R447: what the Lead sends is taken by a Pacer: inputs wait for their release, the flags and the number of inputs
of a Lap are kept, a posted record leaves its queue with TAIL moved on, and its entry is freed a Lap later. An access of a register
window is a bad packet (R22). A part that is no Pacer ignores them. -/
def Claims.PacerPacketsComplete : Prop :=
  ∀ s : State,
    (∀ (lap order : Nat) (r : Rec64) (line : Nat) (isRead : Bool) (be : BitVec 64) (off : Nat) (v : BitVec 32) (c : Instr) (i : Input),
      (c, i) ∈ [(Instr.hostcmd lap order r, Input.hostcmd lap order 64 0 r),
                (Instr.hostwr lap line isRead be r, Input.hostwr lap line isRead be r),
                (Instr.regwr lap off v, Input.regwr lap off v)] →
      (s.trails = false → exec c s = .next s) ∧
      (s.trails = true → inRegs (line * 64 % 2 ^ 46) = false → ∃ t, exec c s = .next t ∧ t.pair.inputs = s.pair.inputs ++ [i] ∧
        t.rd64 Reg.pairCntInput = s.rd64 Reg.pairCntInput + 1 ∧ OnlyRegs s t [Reg.pairCntInput.off, Reg.pairCntInput.off + 4] ∧
        t = { s with regs := t.regs, pair := { s.pair with inputs := t.pair.inputs } })) ∧
    (∀ (lap line : Nat) (isRead : Bool) (be : BitVec 64) (r : Rec64), s.trails = true → inRegs (line * 64 % 2 ^ 46) = true →
      exec (.hostwr lap line isRead be r) s = .next (s.badPacket s.pos)) ∧
    (∀ (lap : Nat) (flags : BitVec 256), s.trails = true → lap + 1 = s.lap →
      exec (.events lap flags) s = .next { s with pair := { s.pair with recorded := flags } }) ∧
    (∀ lap count : Nat, s.trails = true →
      exec (.lapend lap count) s = .next { s with pair := { s.pair with lapendRx := some (lap, count) } }) ∧
    (∀ (tti sq cid q : Nat) (x : CQueue) (r : CRec) (rest : List CRec), s.trails = true → s.host.cq = [(q, x)] → x.held = r :: rest →
      bitsOf r.w0.toNat 63 48 = cid → bitsOf r.w0.toNat 47 40 = sq → bitsOf r.w1.toNat 15 0 = tti → r.frees = some tti → q < 64 →
      s.fld (Reg.hostCqCfg q) 4 0 ≤ 16 →
      ∃ t, exec (.posted tti sq cid) s = .next t ∧ (t.cq q).held = rest ∧ t.cqTail q = (s.cqTail q + 1) % s.cqSize q ∧
        t.pair.postedFree = s.pair.postedFree ++ [(tti, s.lap + 1)] ∧ t.m = s.m ∧ t.engines = s.engines ∧ t.sta = s.sta) ∧
    (∀ (lap count : Nat) (flags : BitVec 256) (tti sq cid : Nat), s.trails = false →
      exec (.events lap flags) s = .next s ∧ exec (.lapend lap count) s = .next s ∧ exec (.posted tti sq cid) s = .next s)

/-- R400, R406 to R408, R412: in mirrored operation the partner's reports are kept, a TEND digest that agrees with the waiting one
delivers the Task and one that differs is kept for the decision, as are the engines whose digests of a Lap differ; the partner's
fault record is taken in. -/
def Claims.PairReportsComplete : Prop :=
  ∀ s : State,
    (∀ (lap : Nat) (es : List ReadyEntry), s.mirroredNow = true → (∀ old, s.pair.readyRx ≠ some (lap, old)) →
      exec (.ready lap es) s = .next { s with pair := { s.pair with readyRx := some (lap, es) } }) ∧
    (∀ (lap : Nat) (old es : List ReadyEntry), s.mirroredNow = true → s.pair.readyRx = some (lap, old) →
      exec (.ready lap es) s = .next { s with pair := { s.pair with readyRx := some (lap, old ++ es) } }) ∧
    (∀ (tti epoch eng : Nat) (d : BitVec 64) (x : Tendd), s.mirroredNow = true → s.pair.tends = [x] → x.tti = tti →
      x.epoch = epoch → x.own = true →
      (x.digest = d → (s.task tti).st = .running → ∃ t, exec (.tendd tti epoch eng d) s = .next t ∧ t.pair.tends = [] ∧
        (t.task tti).st = .settled ∧ (t.task tti).outcome = .delivered ∧ t.m = s.m) ∧
      (x.digest ≠ d → exec (.tendd tti epoch eng d) s = .next { s with
        pair := { s.pair with tends := [], diffTasks := s.pair.diffTasks ++ [(x.lap, tti)] } })) ∧
    (∀ (tti epoch eng : Nat) (d : BitVec 64), s.mirroredNow = true → s.pair.tends = [] →
      exec (.tendd tti epoch eng d) s = .next { s with pair := { s.pair with tends := [⟨tti, epoch, eng, d, s.lap, false⟩] } }) ∧
    (∀ (lap : Nat) (part : BitVec 64) (es : List (BitVec 64)), s.mirroredNow = true → lap + 1 = s.lap → s.pair.closed = true →
      ∃ t, exec (.lapdig lap part es) s = .next t ∧ t = { s with pair := { s.pair with diff := t.pair.diff } } ∧
        (∀ e, e < 512 → ((lap, e) ∈ t.pair.diff ↔ (lap, e) ∈ s.pair.diff ∨ SMap.get 0 s.pair.own e ≠ es.getD e 0)) ∧
        ((lap, 512) ∈ t.pair.diff ↔ (lap, 512) ∈ s.pair.diff ∨ part ≠ s.pair.ownPart)) ∧
    (∀ r : FaultRec, s.flt.queue.length < 1024 → ∃ t, exec (.fence r) s = .next t ∧ t.reports r.cls ∧ t.m = s.m ∧
      t.engines = s.engines ∧
      (s.mirroredNow = true → fenceClass r.cls = true → s.pair.ident = none →
        t.pair.handoff = some (s.fullLap r.lap16 + 4, decide (r.side = 1)) ∧ t.bit Reg.pairStat 25 = true))

/-- R397, R399, R447: at cycle 1,024 of a Lap a side of a pair releases the inputs of earlier Laps, frees the entries of the records
posted by then, and the engines see the recorded flags, but for those cleared since. -/
def Claims.ReleaseComplete : Prop :=
  ∀ s : State, s.windowUp = true → s.at1024 = true → s.actMode.viewed = true → s.pair.inputs = [] → s.pair.hold = [] →
    s.m.expq = [] → s.pair.closed = true → (∀ l es, s.pair.readyRx = some (l, es) → es = []) →
    s.pairLate = false → s.bit Reg.pairStat 27 = false →
    ∃ t, exec .release s = .next t ∧ t.m = s.m ∧ t.evt.view = s.pair.recorded &&& ~~~s.pair.cleared ∧
      t.pair.postedFree = s.pair.postedFree.filter (fun p => decide (s.lap < p.2)) ∧
      (∀ p ∈ s.pair.postedFree, p.2 ≤ s.lap → t.task p.1 = Task.empty) ∧
      (∀ x, (∀ p ∈ s.pair.postedFree, p.2 ≤ s.lap → p.1 ≠ x) → t.task x = s.task x)

/-- R411, R412: at cycle 0 of the Handoff's Lap the part whose ring is fenced stops its engines, admits nothing more and shows FENCED;
its partner shows SURVIVOR. Before that Lap nothing happens. -/
def Claims.HandoffComplete : Prop :=
  ∀ (s : State) (h : Nat) (trail : Bool), s.pair.handoff = some (h, trail) →
    (s.lap < h → exec .handoff s = .next s) ∧
    (h ≤ s.lap → s.mirroredNow = true → s.onTrail = trail →
      ∃ t, exec .handoff s = .next t ∧ t.bit Reg.pairStat 26 = true ∧ t.bit Reg.pairStat 25 = false ∧
        t.bit Reg.staAdmitCtrl 0 = false ∧ t.pair.handoff = none ∧ t.m.mem = s.m.mem ∧ t.m.memq = s.m.memq ∧
        ∀ e, e < 512 → (t.eng e).running = false ∧ (t.eng e).place = none) ∧
    (h ≤ s.lap → s.mirroredNow = true → s.onTrail ≠ trail →
      ∃ t, exec .handoff s = .next t ∧ t.bit Reg.pairStat 27 = true ∧ t.bit Reg.pairStat 25 = false ∧ t.pair.handoff = none ∧
        t.m = s.m ∧ t.engines = s.engines)

/-- R61, R416 to R418, R422: from Lap f + 2 on a fence ends: its epoch is retired and the requests it held are dropped, or it is
lifted; a part that needs a 65th entry for its own epochs sweeps instead. From cycle 64 of that Lap on a stopped Task that is to be
cancelled is Cancelled; one that may not start again, or finds no Laps, is settled Failed with cause FAULT; an Open one that may
is queued first of all, and a booked one is booked anew. A pop removes the record at the head. -/
def Claims.FenceAndRerunComplete : Prop :=
  (∀ (s : State) (f : Fence), s.flt.fences = [f] → f.lap + 2 ≤ s.lap →
    (f.lifted = true → exec (.fenceEnd f.part f.epoch) s = .next { s with flt := { s.flt with fences := [] } }) ∧
    (f.lifted = false → (f.part = s.pos → s.ownRetired < 64) →
      ∃ t, exec (.fenceEnd f.part f.epoch) s = .next t ∧ t.flt.fences = [] ∧ t.m.mem = s.m.mem ∧
        t.flt.retired = s.flt.retired ++ [⟨f.part, f.epoch, f.lap⟩] ∧
        ((∀ e, (s.eng e).swaps = []) →
          ∀ r, r ∈ t.m.memq ↔ r ∈ s.m.memq ∧ ∀ e, ¬(r.src = .engine f.part e ∧ r.epoch = f.epoch))) ∧
    (f.lifted = false → f.part = s.pos → 64 ≤ s.ownRetired →
      ∃ t, exec (.fenceEnd f.part f.epoch) s = .next t ∧ t.flt.fences = [] ∧ (s.pos, s.lap) ∈ t.flt.sweeps ∧
        t.flt.retired = s.flt.retired ∧ t.m.mem = s.m.mem)) ∧
  (∀ (s : State) (f : Fence), s.flt.fences = [f] → s.lap < f.lap + 2 → exec (.fenceEnd f.part f.epoch) s = .next s) ∧
  (∀ (s : State) (tti f : Nat), s.flt.rerun = [(tti, f)] → (f + 2 < s.lap ∨ (f + 2 = s.lap ∧ s.pastCycle 64 = true)) →
    (s.task tti).st ≠ .free → (s.task tti).st ≠ .settled →
    ((s.task tti).cancelReq = true → (s.task tti).ovr = 0 →
      ∃ t, exec (.reRun tti) s = .next t ∧ t.flt.rerun = [] ∧ (t.task tti).st = .settled ∧ (t.task tti).outcome = .cancelled) ∧
    ((s.task tti).cancelReq = false → (s.task tti).restart = false →
      ∃ t, exec (.reRun tti) s = .next t ∧ t.flt.rerun = [] ∧ (t.task tti).st = .settled ∧ (t.task tti).outcome = .failed ∧
        (t.task tti).cause = 5) ∧
    ((s.task tti).cancelReq = false → (s.task tti).restart = true → (s.task tti).cls = 2 →
      ∃ t, exec (.reRun tti) s = .next t ∧ t.flt.rerun = [] ∧ (t.task tti).st = .queued ∧ (t.task tti).started = false ∧
        t.sta.openq.head? = some tti ∧ (t.task tti).epoch = s.nextEpoch.2) ∧
    ((s.task tti).cancelReq = false → (s.task tti).restart = true → (s.task tti).cls ≠ 2 →
      let k := s.task tti
      let laps := (s.choose k.cv (f + 3) (k.cv.span + 1) (k.deadlineLap + 1 - (f + 3))).1
      (laps.length < k.cv.span + 1 →
        ∃ t, exec (.reRun tti) s = .next t ∧ t.flt.rerun = [] ∧ (t.task tti).st = .settled ∧ (t.task tti).outcome = .failed ∧
          (t.task tti).cause = 5) ∧
      (k.cv.span + 1 ≤ laps.length →
        ∃ t, exec (.reRun tti) s = .next t ∧ t.flt.rerun = [] ∧ (t.task tti).st = .booked ∧ (t.task tti).started = false ∧
          (t.task tti).lapsLeft = k.cv.span + 1 ∧ (t.task tti).epoch = s.nextEpoch.2 ∧
          ∀ l, l ∈ laps → ∃ e, s.pick k.cv (s.row l) = some e ∧ t.row l = (s.row l).book k.cv tti e))) ∧
  (∀ (s : State) (m : Nat) (v : BitVec 32), s.direct m 0xA00004 = true → v.getLsbD 0 = true →
    let n := s.noted m 0xA00004 v
    exec (.fltPop m v) s = .next { n with
      flt := { n.flt with queue := s.flt.queue.drop 1 },
      host := { n.host with fltLog := s.host.fltLog ++ s.flt.queue.take 1 } })

/-- R425: a survivor takes a rejoin Lap at least 257 Laps ahead. At that Lap mirrored operation resumes with every TLB and branch
predictor empty, or the rejoin is given up and shows so. -/
def Claims.RejoinComplete : Prop :=
  (∀ (s : State) (m : Nat) (v : BitVec 64), s.direct m 0x900010 = true → s.lap + 257 ≤ v.toNat → s.bit Reg.pairStat 27 = true →
    s.mode.mirrored = true →
    ∃ t, exec (.pairRejoin m v) s = .next t ∧ t.pair.rejoinLap = some v.toNat ∧ t.rd64 Reg.pairRejoin = v) ∧
  (∀ (s : State) (m : Nat) (v : BitVec 64), s.direct m 0x900010 = true → v.toNat < s.lap + 257 →
    exec (.pairRejoin m v) s = .next (s.noted m 0x900010 (v.setWidth 32))) ∧
  (∀ (s : State) (c : Nat), s.pair.rejoinLap = some c → c ≤ s.lap → s.bit Reg.pairStat 27 = true →
    (∃ t, exec (.rejoin true) s = .next t ∧ t.mode = .lead ∧ t.runLap = s.lap ∧ t.bit Reg.pairStat 27 = false ∧
      t.bit Reg.pairStat 24 = true ∧ t.m = s.m ∧
      (∀ e x, (e, x) ∈ t.engines → x.itlb = [] ∧ x.dtlb = [] ∧ x.l2 = [] ∧ x.btb = [])) ∧
    (∃ t, exec (.rejoin false) s = .next t ∧ t.pair.rejoinLap = none ∧ t.bit Reg.pairStat 23 = true ∧ t.mode = s.mode ∧
      t.engines = s.engines ∧ t.m = s.m)) ∧
  (∀ s : State, s.pair.rejoinLap = none → s.rejoining = true →
    (∃ t, exec (.rejoin true) s = .next t ∧ t.bit Reg.pairStat 24 = true ∧ t.m = s.m ∧
      (∀ e x, (e, x) ∈ t.engines → x.itlb = [] ∧ x.dtlb = [] ∧ x.l2 = [] ∧ x.btb = [])) ∧
    exec (.rejoin false) s = .next (s.setBit Reg.pairStat 23 true))

/-! ### The host port (spec/14_host_port.md) -/

/-- R476: a doorbell of an enabled queue with an index inside it is taken; any other one is counted and has no effect. -/
def Claims.DoorbellsComplete : Prop :=
  ∀ (s : State) (m q : Nat) (v : BitVec 32), q < 64 →
    (s.direct m (Reg.hostSqTail q).off = true →
      ∃ t, exec (.hostSqTail m q v) s = .next t ∧ t.m = s.m ∧ t.sta = s.sta ∧ t.engines = s.engines ∧
        (if s.bit (Reg.hostSqCfg q) 31 = true ∧ v.toNat % 4096 < s.sqSize q then
          SMap.get 0 t.host.sqTail q = v.toNat % 4096 ∧ OnlyRegs s t [Reg.recStat.off]
         else t.host = s.host ∧ t.fld Reg.hostStat 7 0 = Nat.min 255 (s.fld Reg.hostStat 7 0 + 1) ∧
          OnlyRegs s t [Reg.recStat.off, Reg.hostStat.off])) ∧
    (s.direct m (Reg.hostCqHead q).off = true →
      ∃ t, exec (.hostCqHead m q v) s = .next t ∧ t.m = s.m ∧ t.sta = s.sta ∧ t.engines = s.engines ∧
        (if s.bit (Reg.hostCqCfg q) 31 = true ∧ v.toNat % 65536 < s.cqSize q then
          (t.cq q) = { s.cq q with head := v.toNat % 65536 } ∧ OnlyRegs s t [Reg.recStat.off]
         else t.host = s.host ∧ t.fld Reg.hostStat 7 0 = Nat.min 255 (s.fld Reg.hostStat 7 0 + 1) ∧
          OnlyRegs s t [Reg.recStat.off, Reg.hostStat.off]))

/-- R477, R484: while a queue is enabled its control register takes only a cleared EN. While it is not, its fields are taken, and EN
with a legal size enables it, empty, a completion queue with phase 1 and, after a loss of the link with records waiting, the
NOTICE LINK_RESUMED first. PURGE discards and counts what a disabled completion queue holds and frees the entries. -/
def Claims.QueueControlComplete : Prop :=
  ∀ (s : State) (m q : Nat) (v : BitVec 32), q < 64 →
    (s.direct m (Reg.hostSqCfg q).off = true →
      let n := s.noted m (Reg.hostSqCfg q).off v
      ∃ t, exec (.hostSqCfg m q v) s = .next t ∧ OnlyRegs n t [(Reg.hostSqCfg q).off] ∧ t.m = s.m ∧ t.sta = s.sta ∧
        (s.bit (Reg.hostSqCfg q) 31 = true → t.bit (Reg.hostSqCfg q) 31 = v.getLsbD 31 ∧ t.host = s.host ∧
          t.fld (Reg.hostSqCfg q) 30 0 = s.fld (Reg.hostSqCfg q) 30 0) ∧
        (s.bit (Reg.hostSqCfg q) 31 = false →
          t.bit (Reg.hostSqCfg q) 31 = (v.getLsbD 31 && decide (1 ≤ v.toNat % 16) && decide (v.toNat % 16 ≤ 12)) ∧
            t.fld (Reg.hostSqCfg q) 3 0 = v.toNat % 16 ∧ t.cqOf q = bitsOf v.toNat 29 24 ∧
            (t.bit (Reg.hostSqCfg q) 31 = true → t.sqHead q = 0 ∧ SMap.get 0 t.host.sqTail q = 0))) ∧
    (s.direct m (Reg.hostCqCfg q).off = true → v.getLsbD 30 = false →
      let n := s.noted m (Reg.hostCqCfg q).off v
      ∃ t, exec (.hostCqCfg m q v) s = .next t ∧ OnlyRegs n t [(Reg.hostCqCfg q).off] ∧ t.m = s.m ∧ t.sta = s.sta ∧
        (s.bit (Reg.hostCqCfg q) 31 = true → t.bit (Reg.hostCqCfg q) 31 = v.getLsbD 31 ∧ t.host = s.host ∧
          t.fld (Reg.hostCqCfg q) 30 0 = s.fld (Reg.hostCqCfg q) 30 0) ∧
        (s.bit (Reg.hostCqCfg q) 31 = false →
          t.bit (Reg.hostCqCfg q) 31 = (v.getLsbD 31 && decide (1 ≤ v.toNat % 32) && decide (v.toNat % 32 ≤ 16)) ∧
            t.fld (Reg.hostCqCfg q) 4 0 = v.toNat % 32 ∧ t.fld (Reg.hostCqCfg q) 29 23 = bitsOf v.toNat 29 23 ∧
            (t.bit (Reg.hostCqCfg q) 31 = true → t.cqTail q = 0 ∧ (t.cq q).head = 0 ∧ (t.cq q).phase = true ∧
              (t.cq q).held = (if (s.cq q).linkLost = true ∧ (s.cq q).held ≠ [] then s.noticeRec 2 :: (s.cq q).held
                else (s.cq q).held)))) ∧
    (s.direct m (Reg.hostCqCfg q).off = true → s.bit (Reg.hostCqCfg q) 31 = false →
      ∃ t, exec (.purge m q) s = .next t ∧ (t.cq q).held = [] ∧ t.m = s.m ∧
        t.rd64 Reg.hostCntPurge = s.rd64 Reg.hostCntPurge + BitVec.ofNat 64 (s.cq q).held.length ∧
        (∀ x, (∃ r ∈ (s.cq q).held, r.frees = some x) → t.task x = Task.empty) ∧
        (∀ x, (∀ r ∈ (s.cq q).held, r.frees ≠ some x) → t.task x = s.task x))

/-- R480: with CXL 2.0 or later a decoder that is not committed commits a range whose base and size are multiples of 256 MiB, not
empty, and inside the 52 bits of a DPA; another one fails. -/
def Claims.CommitComplete : Prop :=
  ∀ (s : State) (n base size skip : Nat), s.bit Reg.hostStat 31 = true → 2 ≤ s.cxlVer → n < 4 → (s.hdm n).committed = false →
    let first := (List.range n).foldl (fun a k => a + (s.hdm k).skip + (s.hdm k).size) 0 + skip
    let ok : Bool := base % 2 ^ 28 = 0 && size % 2 ^ 28 = 0 && size ≠ 0 && decide (first + size ≤ 2 ^ 52)
    ∃ t, exec (.commit n base size skip) s = .next t ∧
      t.hdm n = { base := base, size := size, skip := skip, committed := ok, err := !ok } ∧
      (∀ k, k ≠ n → t.hdm k = s.hdm k) ∧ t = { s with host := { s.host with hdm := t.host.hdm } }

/-- R20, R298, R304, R397, R398, R481: a host access through a committed window to local memory, where no Lead forwards it: a read
answers the line as it is read, with the host's own writes in it, or with poison, where its memory answers now, and waits in its
queue where it does not or is an expander's; a write's enabled bytes wait at their target as a request of master 35. Memory that
is not served yet answers a read with poison and drops a write, counts and reports it. -/
def Claims.HostMemoryComplete : Prop :=
  ∀ (s : State) (hpa dpa : Nat), s.windowUp = true → s.bit Reg.hostStat 31 = true → s.cxlVer ≠ 0 → s.hdmDpa hpa = some dpa →
    let line := dpa / 64 * 64
    let off := line % 2 ^ 46
    (s.memServed = true → s.bit Reg.pairStat 26 = false → s.forwarding = false → s.lineMapped line = true →
      line / 2 ^ 46 = s.pos →
      (∀ n, s.expPort line = none → s.heldAt off = false →
        (∀ t bs, s.readLocal (.master s.pos 35) off 64 = (t, .ok, bs) →
          exec (.cxlMemRead hpa n) s = .next (t.emit (.memData line (some bs)))) ∧
        (∀ t bs, s.readLocal (.master s.pos 35) off 64 = (t, .poison, bs) →
          exec (.cxlMemRead hpa n) s = .next ((t.emit (.memData line none)).add64 Reg.hostCntMemdrop 1))) ∧
      (∀ n, s.expPort line ≠ none ∨ s.heldAt off = true →
        ∃ t q, exec (.cxlMemRead hpa n) s = .next t ∧ t.m.expq = s.m.expq ++ [q] ∧ q.dpa = line ∧ q.what = .host [] ∧
          q.port = (s.expPort line).getD 2 ∧ t.m.mem = s.m.mem ∧ t.m.memq = s.m.memq ∧ t.engines = s.engines) ∧
      (∀ n, s.m.health = [] → s.m.found = [] → s.failed (s.tier off) = false → (s.tier (off + 63)).isMem = true →
        s.expPort line = none → s.heldAt off = false → (∀ i, i < 64 → s.lineHeld (off + i) = false) →
        exec (.cxlMemRead hpa n) s = .next (s.emit (.memData line
          (some ((List.range 64).map (fun i => s.byteIn (s.m.seenBy (.master s.pos 35)) (off + i))))))) ∧
      (∀ (be : BitVec 64) (d : Rec64), s.actMode ≠ .replay → s.trails = false →
        ∃ t rs, exec (.cxlMemWrite hpa be d) s = .next t ∧ t = { s with m := { s.m with memq := s.m.memq ++ rs, arrivals := t.m.arrivals } } ∧
          rs.flatMap (fun r => match r.op with | .write cs => cs | _ => []) = lineCells off be d ∧
          ∀ r ∈ rs, r.src = .master s.pos 35)) ∧
    (s.memServed = false →
      (∀ n, ∃ t, exec (.cxlMemRead hpa n) s = .next t ∧ t.host.out = s.host.out ++ [.memData line none] ∧
        t.rd64 Reg.hostCntMemdrop = s.rd64 Reg.hostCntMemdrop + 1 ∧ (s.flt.queue.length < 1024 → t.reports 0x13)) ∧
      (∀ (be : BitVec 64) (d : Rec64), ∃ t, exec (.cxlMemWrite hpa be d) s = .next t ∧ t.m = s.m ∧
        t.rd64 Reg.hostCntMemdrop = s.rd64 Reg.hostCntMemdrop + 1 ∧ (s.flt.queue.length < 1024 → t.reports 0x13)))

/-- R465, R474, R484: a reset of the host port alone, by the loss of its link, a hot reset or PERST#, disables every queue, clears
every doorbell, uncommits every decoder and touches neither memory nor Tasks. A function-level reset disables the queues and
clears the mailbox. The link comes up with the state it has; D3hot and D0 and the MSI-X masks hold messages back and let
them go. -/
def Claims.HostResetAndLinkComplete : Prop :=
  (∀ (s : State) (c : Instr), s.windowUp = true → c ∈ [Instr.hostLinkDown, Instr.hotReset, Instr.perstN] →
    (c ≠ .perstN → s.bit Reg.hostStat 31 = true) →
    ∃ t, exec c s = .next t ∧ t.m.mem = s.m.mem ∧ t.sta.tasks = s.sta.tasks ∧ t.engines = s.engines ∧ t.sta.fetching = [] ∧
      t.host.sqTail = [] ∧ t.bit Reg.hostStat 31 = false ∧ (∀ n, (t.hdm n).committed = false) ∧ t.host.d3 = false ∧
      ∀ q, q < 64 → t.bit (Reg.hostSqCfg q) 31 = false ∧ t.bit (Reg.hostCqCfg q) 31 = false ∧ (t.cq q).held = (s.cq q).held ∧
        (t.cq q).linkLost = true) ∧
  (∀ s : State, s.windowUp = true →
    ∃ t, exec .functionLevelReset s = .next t ∧ t.m = s.m ∧ t.sta = s.sta ∧ t.engines = s.engines ∧ t.host.sqTail = [] ∧
      t.rd Reg.hostMboxCtl = 0 ∧ t.host.mboxBusy = false ∧ t.rd Reg.hostStat = s.rd Reg.hostStat ∧
      (∀ k, k < 64 → t.rd (Reg.hostMboxReq k) = 0 ∧ t.rd (Reg.hostMboxRsp k) = 0) ∧
      ∀ q, q < 64 → t.bit (Reg.hostSqCfg q) 31 = false ∧ t.bit (Reg.hostCqCfg q) 31 = false) ∧
  (∀ (s : State) (speed width cxl : Nat), s.windowUp = true → speed < 8 → width < 32 → cxl < 4 →
    ∃ t, exec (.hostLinkUp speed width cxl) s = .next t ∧ t = { s with regs := t.regs } ∧ OnlyRegs s t [Reg.hostStat.off] ∧
      t.bit Reg.hostStat 31 = true ∧ t.fld Reg.hostStat 30 28 = speed ∧ t.fld Reg.hostStat 27 23 = width ∧ t.cxlVer = cxl ∧
      t.fld Reg.hostStat 20 0 = s.fld Reg.hostStat 20 0) ∧
  (∀ s : State, s.windowUp = true →
    exec .d3hot s = .next { s with host := { s.host with d3 := true } } ∧
    ∃ t, exec .d0 s = .next t ∧ t.host.d3 = false ∧ t.regs = s.regs ∧ t.m = s.m ∧
      ∀ v, v < 128 → s.host.msixOn = true → s.bit Reg.hostStat 31 = true → SMap.get true s.host.msixMask v = false →
        SMap.get false s.host.msixPend v = true → SMap.get false t.host.msixPend v = false ∧ .msix v ∈ t.host.out) ∧
  (∀ (s : State) (v : Nat), s.windowUp = true → s.bit Reg.hostStat 31 = true → v < 128 →
    ∃ t, exec (.msiXUnmask v) s = .next t ∧ t.host.msixOn = true ∧ SMap.get true t.host.msixMask v = false ∧ t.m = s.m ∧
      (s.host.d3 = false → SMap.get false s.host.msixPend v = true →
        t.host.out = s.host.out ++ [.msix v] ∧ SMap.get false t.host.msixPend v = false) ∧
      (SMap.get false s.host.msixPend v = false → t.host.out = s.host.out))

/-- R465, R466, R480: configuration space reports a CXL memory device with its ordering code's device identifier, silicon revision,
serial number, capabilities and volatile capacity, and reports the same in D3hot and after every reset of the host port. -/
def Claims.ConfigurationSpaceStays : Prop :=
  (∀ s : State, s.configSpace.classCode = 0x050210 ∧
    s.configSpace.deviceId = (if s.ord14 then 0x7201 else 0x7200) ∧ s.configSpace.revision = 1 ∧
    s.configSpace.serial = s.rd64 Reg.devSerial ∧
    s.configSpace.caps.length = 15 ∧
    s.configSpace.capacity = (if s.ringSize = 0 then 2 ^ 46 else 2 ^ 46 * s.ringSize)) ∧
  (∀ (s : State) (c : Instr), c ∈ [Instr.d3hot, Instr.d0, Instr.hotReset, Instr.perstN, Instr.functionLevelReset,
      Instr.hostLinkDown] → ∃ t, exec c s = .next t ∧ t.configSpace = s.configSpace)

/-- R485, R490, R491, R515, R531, R532: the mailbox. ENTER_DUSK from a running mode waits for its boundary and is answered when
Dusk has recorded; ENTER_SERVICE leaves PREP at once and a running mode after its drain; FAULT_READ and KEEP_READ answer with what
they name; an unknown command is answered UNSUPPORTED. A command that does not fit the mode is answered ERROR. -/
def Obligations.MailboxComplete : Prop :=
  (∀ s : State, s.mboxAsks (fun c => c = 1) = true → s.bootRom = false → s.pendMode = none →
    (s.mode.running = true →
      exec .enterDusk s = .next { s with
        pendMode := some (.dusk, if s.mirroredNow then s.lap else s.lap + 1),
        host := { s.host with mboxBusy := true, duskCmd := true } }) ∧
    (s.mode.running = false → ∃ t, exec .enterDusk s = .next t ∧ t.fld Reg.hostMboxCtl 30 28 = 4 ∧
      t.bit Reg.hostMboxCtl 31 = false ∧ t.mode = s.mode ∧ t.m = s.m)) ∧
  (∀ s : State, s.mboxAsks (fun c => c = 2) = true → s.bootRom = false → s.pendMode = none →
    (s.mode = .prep → ∃ t, exec .enterService s = .next t ∧ t.mode = .service ∧ t.fld Reg.hostMboxCtl 30 28 = 2 ∧
      t.bit Reg.hostMboxCtl 31 = false ∧ t.bit Reg.staAdmitCtrl 0 = false ∧ t.m.mem = s.m.mem ∧ ∀ p, p < 3 → t.lts p = 0) ∧
    (s.mode.running = true → ∃ t, exec .enterService s = .next t ∧ t.mode = s.mode ∧ t.fld Reg.hostMboxCtl 30 28 = 2 ∧
      t.pendMode = some (.service, if s.mirroredNow then s.lap else s.lap + 1) ∧ t.m = s.m)) ∧
  (∀ (s : State) (r : FaultRec) (rest : List FaultRec), s.mboxAsks (fun c => c = 3) = true → s.host.fltLog = r :: rest →
    ∃ t, exec .faultRead s = .next t ∧ t.fld Reg.hostMboxCtl 30 28 = 2 ∧ t.bit Reg.hostMboxCtl 31 = false ∧ t.m = s.m ∧
      t.rd (Reg.hostMboxRsp 1) ++ t.rd (Reg.hostMboxRsp 0) = r.w0 ∧ t.rd (Reg.hostMboxRsp 3) ++ t.rd (Reg.hostMboxRsp 2) = r.w1 ∧
      t.rd (Reg.hostMboxRsp 5) ++ t.rd (Reg.hostMboxRsp 4) = r.w2 ∧ t.rd (Reg.hostMboxRsp 7) ++ t.rd (Reg.hostMboxRsp 6) = r.w3) ∧
  (∀ s : State, s.mboxAsks (fun c => c = 4) = true → (s.rd (Reg.hostMboxReq 0)).toNat < 1024 →
    ∃ t, exec .keepRead s = .next t ∧ t.fld Reg.hostMboxCtl 30 28 = 2 ∧ t.bit Reg.hostMboxCtl 31 = false ∧ t.m = s.m ∧
      t.rd (Reg.hostMboxRsp 1) ++ t.rd (Reg.hostMboxRsp 0) = s.rd64 (Reg.keepReg (s.rd (Reg.hostMboxReq 0)).toNat) ∧
      t.rd (Reg.hostMboxRsp 2) = s.rd (Reg.keepWcnt (s.rd (Reg.hostMboxReq 0)).toNat)) ∧
  (∀ s : State, s.mboxAsks (fun c => c = 0 || 4 < c) = true → s.bootRom = false →
    ∃ t, exec .unsupported s = .next t ∧ t.fld Reg.hostMboxCtl 30 28 = 3 ∧ t.bit Reg.hostMboxCtl 31 = false ∧ t.m = s.m ∧
      t.mode = s.mode)

/-! ### Modes, power and test (spec/15_dawn_and_persistence.md, 16_power_and_dusk.md, 18_package_and_test.md) -/

/-- R490, R575, R576: power-on leaves OFF for HOLD with RESET_N asserted; removing VDD_CORE leads to OFF; RESET_N or a lost PGOOD
leads to HOLD from every powered mode, and the last of the causes to go lets DAWN begin. -/
def Claims.PowerAndResetComplete : Prop :=
  (∀ (s : State) (o : Bool), s.mode = .off →
    ∃ t, exec (.powerOn o) s = .next t ∧ t.mode = .hold ∧ t.ord14 = o ∧ t.pwr.powered = true ∧ t.pwr.resetN = false ∧
      t.pwr.pgood = false ∧ s.afterAnyReset t ∧ t.rd Reg.supLast = 0 ∧ t.rd Reg.supClkStat = 0) ∧
  (∀ (s : State) (keep : Bool),
    ∃ t, exec (.vddCoreRemoved keep) s = .next t ∧ t.mode = .off ∧ t.pwr.powered = false ∧ s.afterAnyReset t ∧
      (keep = false → t.bit Reg.supThermStat 31 = false) ∧ t.ord14 = s.ord14) ∧
  (∀ s : State, s.mode ≠ .off →
    (∃ t, exec .resetNAsserted s = .next t ∧ t.mode = .hold ∧ t.pwr.resetN = false ∧ t.pwr.duskHold = false ∧ s.afterAnyReset t) ∧
    (∃ t, exec (.pgood false) s = .next t ∧ t.mode = .hold ∧ t.pwr.pgood = false ∧ t.pwr.duskHold = false ∧ s.afterAnyReset t) ∧
    (s.mode ≠ .hold →
      exec .resetNReleased s = .next { s with pwr := { s.pwr with resetN := true } } ∧
      exec (.pgood true) s = .next { s with pwr := { s.pwr with pgood := true } }) ∧
    (s.mode = .hold → s.pwr.supplyHold = false → s.pwr.clockHold = false → s.pwr.tripHold = false → s.pwr.duskHold = false →
      s.scan.pins = 0 →
      (∃ t, exec .resetNReleased s = .next t ∧ t.pwr.resetN = true ∧
        (if s.pwr.pgood = true then t.mode = .dawn ∧ s.afterAnyReset t else t.mode = .hold ∧ t.regs = s.regs)) ∧
      (∃ t, exec (.pgood true) s = .next t ∧ t.pwr.pgood = true ∧
        (if s.pwr.resetN = true then t.mode = .dawn ∧ s.afterAnyReset t else t.mode = .hold ∧ t.regs = s.regs))))

/-- R498, R500, R502, R515: Dawn leads to PREP with the copy that was accepted, its firmware running and the bypass opening, or to
SERVICE; where the flash cannot be read, to SERVICE, with the reason shown for both copies. -/
def Claims.DawnComplete : Prop :=
  (∀ (s : State) (o : DawnOutcome), s.mode = .dawn →
    ∃ t, exec (.dawn o) s = .next t ∧
      ((t.mode = .prep ∧ t.stew.up = true ∧ t.stew.halted = false ∧ t.ring.bypass = .opening ∧ t.img.loaded ∈ [1, 2] ∧
          t.pwr.expPerstN = true) ∨
        (t.mode = .service ∧ t.bit Reg.staAdmitCtrl 0 = false ∧ ∀ p, p < 3 → t.lts p = 0)) ∧
      (o.sfdpOk = false → t.mode = .service ∧ t.fld Reg.dawnStat 23 16 = 3 ∧ t.fld Reg.dawnStat 31 24 = 3 ∧
        t.bit Reg.dawnStat 8 = false ∧ t.img = s.img)) ∧
  (∀ (s : State) (o : DawnOutcome), s.mode ≠ .dawn → exec (.dawn o) s = .next s)

/-- R503, R504: when PREP is complete, the channels in use show, and the running mode that the configuration asks for is due at the
next Lap that is a multiple of 1,024. -/
def Claims.PrepEndComplete : Prop :=
  ∀ (s : State) (o : PrepOutcome), s.mode = .prep → s.prepLap = none → s.replayFlag = false → s.pendMode = none →
    (o.limit = true ∨ s.portsReady = true) →
    ∃ t, exec (.prepComplete o) s = .next t ∧ t.mode = .prep ∧ t.prepLap = some s.lap ∧ t.m.mem = s.m.mem ∧
      t.pendMode = some (if s.ringSize = 0 then .solo
        else if s.fld Reg.pairCfg 1 0 = 0 then .ring else if s.fld Reg.pairCfg 1 0 = 1 then .lead else .trail,
        (s.lap / 1024 + 1) * 1024) ∧
      (∀ n, n < 12 → s.img.addr0.getLsbD (4 + n) = true →
        t.bit (Reg.ddrStat n) 0 = t.blk.ddrOk.getLsbD n ∧ t.bit (Reg.ddrStat n) 1 = !t.blk.ddrOk.getLsbD n)

/-- R424, R491, R504, R522, R532: a pending transition takes place at its Lap's boundary: a running mode opens admission and 256 rows
of the Ledger, DUSK ends admission and begins to drain, and so does the way to SERVICE. Before that Lap nothing happens. With
none pending, a part that a case of R424 meets enters DEGRADED at a boundary (DEDUCED, log 38), and its admission opens
(R69). -/
def Claims.ModeTransitionsComplete : Prop :=
  (∀ (s : State) (m : Mode) (l : Nat), s.pendMode = some (m, l) →
    (s.lap < l → exec .modeTransition s = .next s) ∧
    (l ≤ s.lap → s.mode = .prep → s.prepLap ≠ none → m.running = true → m ≠ .replay → s.fld Reg.pwrDuskStat 31 29 = 0 →
      s.pair.rejoinLap = none →
      ∃ t, exec .modeTransition s = .next t ∧ t.mode = m ∧ t.pendMode = none ∧ t.runLap = s.lap ∧
        t.bit Reg.staAdmitCtrl 0 = true ∧ t.m.mem = s.m.mem ∧
        ∀ i, i < 256 → (t.row (s.lap + 1 + i)).u = s.uCycles ∧ (t.row (s.lap + 1 + i)).plc = []) ∧
    (l ≤ s.lap → s.mode.running = true → m = .dusk →
      ∃ t, exec .modeTransition s = .next t ∧ t.mode = .dusk ∧ t.fld Reg.pwrDuskStat 31 29 = 1 ∧ t.bit Reg.staAdmitCtrl 0 = false ∧
        t.pendMode = none ∧ t.drainMode = s.mode ∧ t.m = s.m) ∧
    (l ≤ s.lap → s.mode.running = true → m = .service → s.fld Reg.pwrDuskStat 31 29 = 0 →
      ∃ t, exec .modeTransition s = .next t ∧ t.mode = s.mode ∧ t.fld Reg.pwrDuskStat 31 29 = 1 ∧
        t.bit Reg.staAdmitCtrl 0 = false ∧ t.m = s.m)) ∧
  (∀ s : State, s.pendMode = none → s.degrades = true → s.tb % s.lapTicks = 0 →
    ∃ t, exec .modeTransition s = .next t ∧ t.mode = .degraded ∧ t.m = s.m ∧ t.sta = s.sta ∧ t.bit Reg.staAdmitCtrl 0 = true ∧
      OnlyRegs s t [Reg.staAdmitCtrl.off])

/-- R515: a write of REDAWN in SERVICE resets the part, which begins DAWN where nothing holds it; outside SERVICE it has no
effect. -/
def Claims.RedawnComplete : Prop :=
  ∀ (s : State) (m : Nat) (v : BitVec 32), s.direct m 8 = true →
    (s.mode = .service →
      ∃ t, exec (.redawn m v) s = .next t ∧ t.mode = (if s.held then .hold else .dawn) ∧ t.replayFlag = v.getLsbD 1 ∧
        s.afterAnyReset t) ∧
    (s.mode ≠ .service → exec (.redawn m v) s = .next (s.noted m 8 (v ||| 1)))

/-- R523, R525 to R531: Post ends when no Task waits to be reported; Test counts the engines and banks that fail, and marks the
engines, unless a warning of its rails voids it; Record clears every engine and Home Bank, and the part goes to HOLD. -/
def Claims.DuskComplete : Prop :=
  (∀ s : State, s.fld Reg.pwrDuskStat 31 29 = 2 → s.mode = .dusk →
    (s.sta.tasks.any (fun p => p.2.st = .settled) = false →
      ∃ t, exec .post s = .next t ∧ t.fld Reg.pwrDuskStat 31 29 = 3 ∧ t.blk.voided = (s.bit Reg.supStat 0 || s.bit Reg.supStat 1) ∧ t.m = s.m ∧ t.mode = .dusk) ∧
    (s.sta.tasks.any (fun p => p.2.st = .settled) = true → s.duskLap * s.lapTicks + 64000000 ≤ s.tb →
      ∃ t, exec .post s = .next t ∧ t.fld Reg.pwrDuskStat 31 29 = 3 ∧ (∀ q, q < 64 → (t.cq q).held = []) ∧ t.m = s.m) ∧
    (s.sta.tasks.any (fun p => p.2.st = .settled) = true → s.tb < s.duskLap * s.lapTicks + 64000000 →
      exec .post s = .next s)) ∧
  (∀ (s : State) (sigs : List (Nat × BitVec 64)) (banks : List Nat), s.mode = .dusk → s.fld Reg.pwrDuskStat 31 29 = 3 →
    let gold := s.rd64 Reg.pwrLbistGold
    let bad := fun (e : Nat) => ((sigs.find? (fun p => p.1 = e)).map (fun p => p.2)).getD gold ≠ gold
    ∃ t, exec (.test sigs banks) s = .next t ∧ t.fld Reg.pwrDuskStat 31 29 = 4 ∧ t.m = s.m ∧ t.mode = .dusk ∧
      t.fld Reg.pwrDuskStat 28 19 = ((List.range 512).filter (fun e => decide (bad e))).length ∧
      t.fld Reg.pwrDuskStat 18 9 = ((List.range 512).filter (fun e => banks.contains e)).length ∧
      t.bit Reg.pwrDuskStat 8 = (s.blk.voided || s.bit Reg.supStat 0 || s.bit Reg.supStat 1) ∧
      (t.bit Reg.pwrDuskStat 8 = true → t.blk.badEngine = s.blk.badEngine ∧ t.blk.badBank = s.blk.badBank) ∧
      (t.bit Reg.pwrDuskStat 8 = false → ∀ e, e < 512 →
        SMap.get false t.blk.badEngine e = (SMap.get false s.blk.badEngine e || decide (bad e) || banks.contains e) ∧
        SMap.get false t.blk.badBank e = (SMap.get false s.blk.badBank e || banks.contains e))) ∧
  (∀ s : State, s.mode = .dusk → s.fld Reg.pwrDuskStat 31 29 = 4 →
    ∃ t, exec .record s = .next t ∧ t.fld Reg.pwrDuskStat 31 29 = 0 ∧ (∀ e, e < 512 → t.eng e = Engine.init) ∧
      ∀ a, SMap.get 0 t.m.mem a = if 0x280000000000 ≤ a ∧ a < 0x280008000000 then 0 else SMap.get 0 s.m.mem a) ∧
  (∀ s : State, s.mode = .dusk → s.fld Reg.pwrDuskStat 31 29 = 0 →
    ∃ t, exec .toHold s = .next t ∧ t.mode = .hold ∧ t.pwr.duskHold = true ∧ s.afterAnyReset t)

/-- R535 to R539: an idle cluster enters the deepest state that fits before its next work, its plan says when it wakes, and it is
back at Noon when its wake has run; an early wake starts now and is counted. -/
def Claims.ClusterStatesComplete : Prop :=
  (∀ (s : State) (c st : Nat), s.mode.sleeps = true → c < 32 → s.clIdle c = true → st ∈ [1, 2, 3] → s.clState c < st →
    st ≤ s.fld (Reg.pwrClCfg c) 1 0 → entryNs st + wakeNs st + s.guardNs ≤ s.sleepEnd c - s.tb →
    (∀ k, k ∈ [1, 2, 3] → st < k → ¬(k ≤ s.fld (Reg.pwrClCfg c) 1 0 ∧ entryNs k + wakeNs k + s.guardNs ≤ s.sleepEnd c - s.tb)) →
    ∃ t, exec (.stateChoice c) s = .next t ∧ t.clState c = st ∧ (t.plan c).1 = s.sleepEnd c - wakeNs st - s.guardNs ∧
      (t.plan c).2.1 = s.sleepEnd c ∧ t.m = s.m ∧ t.engines = s.engines ∧ t.sta.tasks = s.sta.tasks ∧
      (∀ l e, 2 ≤ st → s.lap < l → l ≤ s.lap + 256 → l * s.lapTicks < s.sleepEnd c → e / 16 = c →
        l ∈ (t.plan c).2.2 ∧ (t.row l).ctr e = 0)) ∧
  (∀ (s : State) (c : Nat), c < 32 → s.clState c ≠ 0 →
    ((s.plan c).1 + wakeNs (s.clState c) ≤ s.tb →
      ∃ t, exec (.wake c) s = .next t ∧ t.clState c = 0 ∧ OnlyRegs s t [(Reg.pwrClStat c).off] ∧
        t = { s with regs := t.regs, pwr := { s.pwr with plans := t.pwr.plans } }) ∧
    (s.tb < (s.plan c).1 + wakeNs (s.clState c) → exec (.wake c) s = .next s) ∧
    (s.tb < (s.plan c).1 →
      ∃ t, exec (.earlyWake c) s = .next t ∧ t.clState c = s.clState c ∧ (t.plan c).1 = s.tb ∧
        t.fld (Reg.pwrClStat c) 15 0 = Nat.min 65535 (s.fld (Reg.pwrClStat c) 15 0 + 1) ∧ t.m = s.m ∧ t.engines = s.engines) ∧
    ((s.plan c).1 ≤ s.tb → exec (.earlyWake c) s = .next s))

/-- R541 to R544, R574, R580: the monitors. A rail that crosses its warning threshold shows, is reported and drives ALERT_N; a rail
below its reset threshold, a lost clock or 115 °C leads to HOLD, which lasts until it has passed; a temperature above the
threshold is reported once. -/
def Claims.MonitorsComplete : Prop :=
  (∀ (s : State) (k : Nat), s.mode ≠ .off → k < 8 →
    (s.bit Reg.supStat k = false →
      ∃ t, exec (.warning k) s = .next t ∧ t.bit Reg.supStat k = true ∧ t.bit Reg.supStat (8 + k) = true ∧ t.pwr.alertN = false ∧
        t.m = s.m ∧ t.mode = s.mode ∧
        (s.windowUp = true → t.host.out = s.host.out ++ [.stewardIrq] ∧ (s.flt.queue.length < 1024 → t.reports 0x14))) ∧
    (s.bit Reg.supStat k = true → exec (.warning k) s = .next s) ∧
    (∃ t, exec (.warningEnd k) s = .next t ∧ t.bit Reg.supStat k = false ∧ OnlyRegs s t [Reg.supStat.off] ∧
      (∀ j, j < 16 → j ≠ k → t.bit Reg.supStat j = s.bit Reg.supStat j) ∧ t.pwr.alertN = !t.alerts ∧
      t = { s with regs := t.regs, pwr := t.pwr })) ∧
  (∀ (s : State) (rails : BitVec 8), s.mode ≠ .off → rails ≠ 0 →
    ∃ t, exec (.supplyReset rails) s = .next t ∧ t.mode = .hold ∧ t.pwr.supplyHold = true ∧ t.pwr.alertN = false ∧
      t.rd Reg.supLast = rails.setWidth 32 ∧ s.afterAnyReset t) ∧
  (∀ (s : State) (ring : Bool), s.mode ≠ .off →
    ∃ t, exec (.clockLoss ring) s = .next t ∧ t.mode = .hold ∧ t.pwr.clockHold = true ∧ t.pwr.alertN = false ∧
      t.fld Reg.supClkStat 3 2 = ring.toNat + 1 ∧ t.bit Reg.supClkStat ring.toNat = false ∧ s.afterAnyReset t) ∧
  (∀ s : State, s.mode = .hold → s.fld Reg.supStat 7 0 = 0 →
    (∃ t, exec .supplyRecovery s = .next t ∧ t.pwr.supplyHold = false ∧
      t.mode = (if ({ s with pwr := { s.pwr with supplyHold := false } } : State).held then .hold else .dawn)) ∧
    (∃ t, exec .clockRecovery s = .next t ∧ t.pwr.clockHold = false ∧ t.fld Reg.supClkStat 1 0 = 3 ∧
      t.mode = (if ({ s with pwr := { s.pwr with clockHold := false } } : State).held then .hold else .dawn))) ∧
  (∀ (s : State) (k : Nat) (v : BitVec 12), s.windowUp = true → k < 36 → 4 * (s.fld Reg.supThermCfg 7 0 : Int) < v.toInt →
    ∃ t, exec (.thermalWarning k v) s = .next t ∧ t.rd (Reg.supTemp k) = v.setWidth 32 ∧ t.bit Reg.supThermStat 30 = true ∧
      t.m = s.m ∧ t.mode = s.mode ∧
      (s.bit Reg.supThermStat 30 = false → t.pwr.alertN = false ∧ (s.flt.queue.length < 1024 → t.reports 0x14)) ∧
      (s.bit Reg.supThermStat 30 = true → t.flt = s.flt)) ∧
  (∀ s : State, s.mode ≠ .off →
    ∃ t, exec .thermalWarningEnd s = .next t ∧ t.bit Reg.supThermStat 30 = false ∧ OnlyRegs s t [Reg.supThermStat.off] ∧
      t.pwr.alertN = !t.alerts ∧ t = { s with regs := t.regs, pwr := t.pwr }) ∧
  (∀ (s : State) (k : Nat) (v : BitVec 12), s.mode ≠ .off → k < 36 → 460 ≤ v.toInt →
    ∃ t, exec (.trip k v) s = .next t ∧ t.mode = .hold ∧ t.pwr.tripHold = true ∧ t.pwr.thermtripN = false ∧
      t.bit Reg.supThermStat 31 = true ∧ s.afterAnyReset t)

/-- R559, R582, R583: the test port's instructions. Those that take the pins act in HOLD alone, and as BYPASS elsewhere; the others
leave the pins, and DAWN begins where nothing else holds the part. DBG_ACCESS reads and writes memory for the debug port; a
write outside its limits is ignored and counted. -/
def Claims.TestPortComplete : Prop :=
  (∀ (s : State) (c : Instr) (ir : BitVec 8) (k : Nat),
    (c, ir, k) ∈ [(Instr.extest, 0x00, 1), (Instr.clamp, 0x03, 2), (Instr.highz, 0x04, 3), (Instr.extestPulse, 0x05, 4),
      (Instr.extestTrain, 0x06, 5)] →
    (s.mode = .hold → exec c s = .next { s with scan := { s.scan with ir := ir, pins := k } }) ∧
    (s.mode ≠ .hold → s.mode ≠ .off → exec c s = .next { s with scan := { s.scan with ir := 0xFF, pins := 0 } })) ∧
  (∀ (s : State) (c : Instr) (ir : BitVec 8) (cells : List Bool),
    (c, ir) ∈ [(Instr.idcode, 0x02), (Instr.dbgAccess .select, 0x10), (Instr.bypass, 0xFF), (Instr.trstN, 0x02),
      (Instr.samplePreload cells, 0x01)] → s.mode ≠ .off →
    ∃ t, exec c s = .next t ∧ t.scan.ir = ir ∧ t.scan.pins = 0 ∧
      (c = .samplePreload cells → t.scan.cells = cells) ∧ (c ≠ .samplePreload cells → t.scan.cells = s.scan.cells) ∧
      (s.mode ≠ .hold → t = { s with scan := t.scan }) ∧
      (s.mode = .hold → t.mode = (if ({ s with scan := { s.scan with pins := 0 } } : State).held then .hold else .dawn))) ∧
  (∀ (s : State) (dpa : BitVec 52) (n : Nat), s.windowUp = true → s.mode ≠ .hold → s.mode ≠ .off →
    let s1 := { s with scan := { s.scan with ir := 0x10, pins := 0 } }
    (∀ bs t, s1.dbgMem dpa.toNat n = true → s1.expPort dpa.toNat = none → s1.heldAt dpa.toNat = false →
      s1.readLocal (.master s.pos 41) (dpa.toNat % 2 ^ 46) n = (t, .ok, bs) →
      exec (.dbgAccess (.read dpa n)) s = .next (t.emit (.dbgData dpa.toNat (some bs)))) ∧
    (s1.dbgMem dpa.toNat n = false →
      ∃ t, exec (.dbgAccess (.read dpa n)) s = .next t ∧ t.host.out = s.host.out ++ [.dbgData dpa.toNat none] ∧ t.m = s.m)) ∧
  (∀ (s : State) (dpa : BitVec 52) (be : BitVec 64) (d : Rec64), s.windowUp = true → s.mode ≠ .hold → s.mode ≠ .off →
    let s1 := { s with scan := { s.scan with ir := 0x10, pins := 0 } }
    (s.dbgWrites = true → s1.dbgMem dpa.toNat 64 = true →
      exec (.dbgAccess (.write dpa be d)) s =
        .next (s1.postWrite (.master s.pos 41) 0 (lineCells (dpa.toNat % 2 ^ 46) be d) 0 false s.lap)) ∧
    (s.dbgWrites = false →
      ∃ t, exec (.dbgAccess (.write dpa be d)) s = .next t ∧ t.m = s.m ∧ OnlyRegs s t [Reg.dbgStat.off] ∧
        t.fld Reg.dbgStat 15 0 = Nat.min 65535 (s.fld Reg.dbgStat 15 0 + 1)))

/-- R552: the oldest block whose digest has closed is written at the next place of its region by master 40, Open; where it does not
fit, recording stops or goes on from the region's start. R551, R553, R554: an entry of the replayed Lap that is due takes effect as
its type says. R558: FREEZE waits for the boundary. -/
def Obligations.RecordUnitComplete : Prop :=
  (∀ (s : State) (b : LogBlk) (rest : List LogBlk), s.recd.out = b :: rest → (∀ x ∈ s.recd.out, x.pdig.isSome = true) →
    s.pair.closed = true →
    (s.recd.off + b.bytes.length ≤ s.logSize →
      ∃ t rs, exec .blockWrite s = .next t ∧ t.recd.out = rest ∧ t.recd.off = s.recd.off + b.bytes.length ∧
        t.m = { s.m with memq := s.m.memq ++ rs, arrivals := t.m.arrivals } ∧
        rs.flatMap (fun r => match r.op with | .write cs => cs | _ => []) = cellsAt (s.logBase + s.recd.off) b.bytes ∧
        ∀ r ∈ rs, r.src = .master s.pos 40 ∧ r.booked = false) ∧
    (s.logSize < s.recd.off + b.bytes.length → s.bit Reg.recCfg 3 = true →
      ∃ t, exec .blockWrite s = .next t ∧ t.recd.out = [] ∧ t.bit Reg.recStat 30 = true ∧ t.bit Reg.recStat 28 = false ∧ t.m = s.m) ∧
    (s.logSize < s.recd.off + b.bytes.length → s.bit Reg.recCfg 3 = false →
      ∃ t, exec .blockWrite s = .next t ∧ t.recd.out = rest ∧ t.recd.off = 0x1000 + b.bytes.length ∧
        t.bit Reg.recStat 31 = true ∧ t.m.mem = s.m.mem)) ∧
  (∀ (s : State) (b : PlayBlk) (x : LogEnt) (es : List LogEnt), s.recd.play = some b → b.ents = x :: es → s.mode = .replay →
    b.lap = s.lap →
    let s0 : State := { s with recd := { s.recd with play := some { b with ents := es } } }
    (s.entDue x = false → exec .logEntry s = .next s) ∧
    (s.entDue x = true →
      (x.ty = 1 → x.a / 64 % 2 = 0 → exec .logEntry s = .next (s0.sqTailWrite (x.a % 64) (x.b.setWidth 32))) ∧
      (x.ty = 1 → x.a / 64 % 2 = 1 → exec .logEntry s = .next (s0.cqHeadWrite (x.a % 64) (x.b.setWidth 32))) ∧
      (x.ty = 4 → exec .logEntry s = .next (s0.regWrite false 34 (x.a % 2 ^ 30) (x.b.setWidth 32))) ∧
      (x.ty = 5 → ∃ t, exec .logEntry s = .next t ∧ t = { s0 with pair := { s0.pair with recorded := t.pair.recorded } } ∧
        ∀ i, i < 4 → t.pair.recorded.extractLsb' (64 * i) 64 = x.pay.getD i 0) ∧
      (x.ty = 6 → exec .logEntry s = .next (s0.pinEdge (x.a % 16) (x.a / 16 % 2 = 1) x.b.toNat)) ∧
      (x.ty = 9 → exec .logEntry s = .next (s0.deliverFlit (x.a % 2) (flitOf x.pay))))) ∧
  (∀ (s : State) (m : Nat) (v : BitVec 32), s.direct m 0xE00100 = true →
    ∃ t, exec (.freeze m v) s = .next t ∧ t = { s with regs := t.regs } ∧ OnlyRegs s t [Reg.recPmcCtl.off] ∧
      t.bit Reg.recPmcCtl 0 = v.getLsbD 0 ∧ t.bit Reg.recPmcCtl 1 = s.bit Reg.recPmcCtl 1)

/-! ### The machine -/

/-- DESIGN CHOICE (log 1): a step with a command at the front of the queue is that command's effect on the rest; with none waiting, one tick of the
Time Base passes. -/
def Obligations.StepRunsFront : Prop :=
  (∀ (c : Instr) (rest : List Instr) (s : State),
    step { s with pending := c :: rest } = exec c { s with pending := rest }) ∧
  ∀ s : State, s.pending = [] → step s = .next s.idleTick

/-- R448, R451, R490 (DESIGN CHOICE, log 16 for the step on an empty queue): in OFF and HOLD no time passes. Elsewhere a tick that reaches
no Lap boundary, with no held read to answer and no copy to a partner under way, advances the Time Base by one and changes no byte
of memory, no Task and not the mode. Where no compare channel, timer event, link or forwarded pulse is due, a running timer takes a
step when the Time Base passes a multiple of 2^PRE; a step to 0 or to MATCH makes ZERO or MATCH due. -/
def Claims.TimePasses : Prop :=
  (∀ s : State, s.windowUp = false → s.idleTick = s) ∧
  (∀ s : State, s.windowUp = true → (s.tb + 1) % s.lapTicks ≠ 0 → s.lap ≤ s.lastLap → s.tb + 1 < 2 ^ 64 →
    s.lapTicks ≠ 0 → (s.tb + 1) / s.lapTicks ≤ s.lastLap → (∀ q ∈ s.m.expq, q.port ≠ 2) → s.pair.rejoinLap = none →
    s.idleTick.tb = s.tb + 1 ∧ s.idleTick.m = s.m ∧ s.idleTick.sta = s.sta ∧ s.idleTick.mode = s.mode ∧
    (s.timersOn = true → s.evt.links = [] → s.evt.fwd = [] → s.evt.zeroDue = [] → s.evt.matchDue = [] →
      (∀ k, k < 64 → s.bit (Reg.cmpCtl k) 31 = true → s.tb < (s.rd64 (Reg.cmpValue k)).toNat) →
      ∀ j, j < 32 → s.cdtRun j = true →
        let c := s.rd (Reg.cdtCount j) - 1
        if (s.tb + 1) % 2 ^ s.fld (Reg.cdtCtl j) 14 11 = 0 then
          s.idleTick.rd (Reg.cdtCount j) = c ∧ (SMap.get 0 s.idleTick.evt.zeroDue j = 1 ↔ c = 0) ∧
            (SMap.get false s.idleTick.evt.matchDue j = true ↔ c ≠ 0 ∧ s.rd (Reg.cdtMatch j) = c)
        else s.idleTick.rd (Reg.cdtCount j) = s.rd (Reg.cdtCount j) ∧ SMap.get 0 s.idleTick.evt.zeroDue j = 0))

/-- R490, R518, R519, Table 19.4 (DESIGN CHOICE, log 4 and DESIGN CHOICE, log 5 for what the spec gives no value): right after reset the part is in DAWN with the
Time Base at 0, every register with its reset value, no Task, no work and no record; nothing of memory is listed. -/
def Claims.ResetValues : Prop :=
  State.reset.pending = [] ∧ State.reset.mode = .dawn ∧ State.reset.tb = 0 ∧
  (∀ r : RegRef, State.reset.rd r = r.rst) ∧ (∀ e, State.reset.eng e = Engine.init) ∧
  (∀ k, State.reset.task k = Task.empty) ∧ State.reset.flt.queue = [] ∧ State.reset.ring.bypass = .closed ∧
  State.reset.devMode = 0x202 ∧ (∀ p, p < 3 → State.reset.lts p = 0) ∧ (∀ c, c < 256 → State.reset.flag c = false) ∧
  (∀ a, SMap.get 0 State.reset.m.mem a = 0)

/-- DESIGN CHOICE (log 5): the memory of State.reset has the canonical form. -/
def Claims.ResetMemoryCanonical : Prop := State.reset.m.wf

/-- DESIGN CHOICE (log 5): every step keeps the memory in its canonical form, addresses strictly rising and no listed byte equal to 0. -/
def Obligations.StepKeepsMemoryCanonical : Prop :=
  ∀ s s' : State, s.m.wf → step s = .next s' → s'.m.wf


/-! ### The statements made of several parts -/

/-- ADD, ADDC, SUB, ADDI and the compares complete with the sum or difference and its flags: AddSubComplete, CompareComplete. It
says that each of these commands completes with the effect that its rule gives: ADD, SUB, ADDC, ADDI, CMP, CMPI, TSTI. -/
def Obligations.IntegerSumsAndCompares : Prop :=
  Claims.AddSubComplete ∧ Claims.CompareComplete

/-- Logical, move, shift, select and bit-count instructions complete with their results and leave FLAGS: LogicMoveComplete,
ShiftComplete, MinMaxSetComplete, BitCountComplete. It says that each of these commands completes with the effect that its
rule gives: AND, OR, XOR, ANDN, MOV, SEXT, ZEXT, ANDI, ORI, XORI, MOVI, SHL, SHR, SAR, ROL, SHLI, SHRI, SARI, ROLI, MIN, MAX,
MINU, MAXU, SLT, SLTU, SLTI, SLTIU, CLZ, CTZ, POPC, BSWAP. -/
def Obligations.LogicShiftAndSelect : Prop :=
  Claims.LogicMoveComplete ∧ Claims.ShiftComplete ∧ Claims.MinMaxSetComplete ∧ Claims.BitCountComplete

/-- Multiplications and divisions complete with their results and flags: MultiplyComplete, DivideComplete. It says that each of
these commands completes with the effect that its rule gives: MUL, MULH, MULHU, MULI, DIV, DIVU, REM, REMU. -/
def Obligations.MultiplyAndDivide : Prop :=
  Claims.MultiplyComplete ∧ Claims.DivideComplete

/-- A zero divisor and an overflow under PSR.OVE trap and write neither G[D] nor FLAGS: DivideByZeroTraps, OverflowTraps. -/
def Obligations.ArithmeticTraps : Prop :=
  Claims.DivideByZeroTraps ∧ Claims.OverflowTraps

/-- Floating-point arithmetic, conversions and moves complete with their results and sticky flags: FloatArithmeticComplete,
FloatMoveComplete. It says that each of these commands completes with the effect that its rule gives: FADD, FSUB, FMUL, FDIV,
FSQRT, FMIN, FMAX, FCVTFI, FCVTIF, FMA, FNEG, FABS, FMOV, FMVFG, FMVGF. -/
def Obligations.FloatArithmeticAndMoves : Prop :=
  Claims.FloatArithmeticComplete ∧ Claims.FloatMoveComplete

/-- Short-vector instructions complete lane by lane: ShortVectorComplete, ShuffleAndFloatLanesComplete. It says that each of these
commands completes with the effect that its rule gives: QADD, QSUB, QMUL, QAND, QOR, QXOR, QMIN, QMAX, QMINU, QMAXU, QCEQ,
QCGT, QCGTU, QSHUF, QFADD, QFMUL. -/
def Obligations.ShortVectors : Prop :=
  Claims.ShortVectorComplete ∧ Claims.ShuffleAndFloatLanesComplete

/-- The tests of Table 3.10, and what they say after a compare: ConditionTable, ConditionsMeanComparisons. -/
def Obligations.Conditions : Prop :=
  Claims.ConditionTable ∧ Claims.ConditionsMeanComparisons

/-- Branches and jumps complete with their target, annulment and link register: BranchComplete, JumpComplete. It says that each of
these commands completes with the effect that its rule gives: BEQ, BNE, BLT, BGE, BLE, BGT, BLTU, BGEU, BLEU, BGTU, BVS, BVC,
BMI, BPL, BAL, CALL, JR, JLR. -/
def Obligations.BranchesAndJumps : Prop :=
  Claims.BranchComplete ∧ Claims.JumpComplete

/-- LOOP, LOOPI and LEXIT complete; the end test repeats and closes levels: LoopComplete, LexitComplete, RetirementAndEndTest. It
says that each of these commands completes with the effect that its rule gives: LOOP, LOOPI, LEXIT. -/
def Obligations.LoopsAndEndTest : Prop :=
  Claims.LoopComplete ∧ Claims.LexitComplete ∧ Claims.RetirementAndEndTest

/-- What is not executed has no effect; illegal, privileged and misaligned forms raise their exceptions: NotExecuted,
IllegalAndPrivileged, MisalignedTraps, VectorIllegal. -/
def Obligations.NotExecutedIllegalMisaligned : Prop :=
  Claims.NotExecuted ∧ Claims.IllegalAndPrivileged ∧ Claims.MisalignedTraps ∧ Claims.VectorIllegal

/-- The control instructions and MFS and MTS complete with the register that each writes: SystemRegistersComplete,
SystemRegisterMovesComplete. It says that each of these commands completes with the effect that its rule gives: NOP, BPBAR,
BPALLOW, RDPKR, WRPKR, TIME, LAPN, ENID, HOLD, MFS, MTS. -/
def Obligations.SystemRegisters : Prop :=
  Claims.SystemRegistersComplete ∧ Claims.SystemRegisterMovesComplete

/-- DSYNC, VWAIT, IFENCE, TSYNC, EVSIG and WAITE complete, or wait with nothing changed: SynchronisationComplete, EvsigComplete,
WaiteComplete. It says that each of these commands completes with the effect that its rule gives: IFENCE, DSYNC, TSYNC, VWAIT,
EVSIG, WAITE. -/
def Obligations.SynchronisationAndEvents : Prop :=
  Claims.SynchronisationComplete ∧ Claims.EvsigComplete ∧ Claims.WaiteComplete

/-- Taking an exception: the frame, the status, the handler; BPFLUSH, BRK and TRAP: ExceptionEntry, FrameContents,
FlushBreakTrapComplete. It says that each of these commands completes with the effect that its rule gives: BPFLUSH, BRK, TRAP. -/
def Obligations.ExceptionEntryAndFrame : Prop :=
  Claims.ExceptionEntry ∧ Claims.FrameContents ∧ Claims.FlushBreakTrapComplete

/-- RFE and RFX restore what entry saved: ReturnRestoresFrame, ReturnsComplete. It says that each of these commands completes with
the effect that its rule gives: RFE, RFX. -/
def Obligations.Returns : Prop :=
  Claims.ReturnRestoresFrame ∧ Claims.ReturnsComplete

/-- Recognised causes are taken by the one entry operation; fetch, poison reports and hangs: AsynchronousEntryComplete,
FetchAndReportsComplete. It says that each of these commands completes with the effect that its rule gives: EXCEPTION_ENTRY,
INTERRUPT, ERROR, HOLDCNT_ZERO, ENGINE_HANG, FETCH, POISON_WRITE. -/
def Obligations.AsynchronousEntriesAndReports : Prop :=
  Claims.AsynchronousEntryComplete ∧ Claims.FetchAndReportsComplete

/-- The addressing modes of Table 3.9, and LEA and LEAX: AddressingModes, LeaComplete. It says that each of these commands
completes with the effect that its rule gives: LEA, LEAX. -/
def Obligations.AddressesComputed : Prop :=
  Claims.AddressingModes ∧ Claims.LeaComplete

/-- Scalar loads complete with the bytes that they read, and change no byte of memory: LoadComplete, LoadedValue. It says that
each of these commands completes with the effect that its rule gives: POP, LDSD, LD, LDS, LDF, LDQ, LDX, LDSX, LDFX, LDQX. -/
def Obligations.LoadsComplete : Prop :=
  Claims.LoadComplete ∧ Claims.LoadedValue

/-- A request performed puts its bytes and no others; own stores are seen first: OwnStoresSeenFirst, RequestPerformed, CleanRead. -/
def Obligations.RequestsPerformed : Prop :=
  Claims.OwnStoresSeenFirst ∧ Claims.RequestPerformed ∧ Claims.CleanRead

/-- Memory targets perform and answer requests; scrubbing, write-back and expander answers: TargetsComplete, MemoryUpkeepComplete.
It says that each of these commands completes with the effect that its rule gives: SUB_BANK_GRANT, ATOMIC, LINE_SLOT, GRANULE,
MAINTENANCE_WINDOW, WRITE_BACK, EXPANDER_RESPONSE, EXPANDER_TIMEOUT. -/
def Obligations.TargetsAndUpkeep : Prop :=
  Claims.TargetsComplete ∧ Claims.MemoryUpkeepComplete

/-- A translation that hits follows its slot's attributes and key; a walk fills the TLBs: TranslationByHit, WalkComplete. It says
that this command completes with the effect that its rule gives: WALK. -/
def Obligations.Translation : Prop :=
  Claims.TranslationByHit ∧ Claims.WalkComplete

/-- Long-vector instructions enter flight, ask for their streams, take beats and groups: VectorIssueComplete, VectorFlowComplete.
It says that each of these commands completes with the effect that its rule gives: VMOV, VALU, VMUL, VDIV, VFP, VCMP, VCOMP,
VEXP, VSCAN, VSEGR, VRED, VHASH, VPROBE, VSCADD, VSCSWP, VMERGE, VSORT, VKCMP, VDADD, VDSUB, VCVT, GROUP, STREAM_REQUEST,
BEAT. -/
def Obligations.VectorIssueAndFlow : Prop :=
  Claims.VectorIssueComplete ∧ Claims.VectorFlowComplete

/-- A write and a read of a register change what its access codes say and nothing else: AccessCodes, ReadsComplete. It says that
each of these commands completes with the effect that its rule gives: REGISTER_WRITE, RC_READ. -/
def Obligations.AccessCodes : Prop :=
  Claims.AccessCodes ∧ Claims.ReadsComplete

/-- KICK, STA_TT_INDEX, REPLAY and the Steward watchdog complete: KickAndTaskIndexComplete, StewardWatchdogComplete. It says that
each of these commands completes with the effect that its rule gives: KICK, STA_TT_INDEX, REPLAY, STEWARD_WATCHDOG. -/
def Obligations.KicksAndWatchdog : Prop :=
  Claims.KickAndTaskIndexComplete ∧ Claims.StewardWatchdogComplete

/-- Keep registers and flash commands complete: KeepComplete, FlashComplete. It says that each of these commands completes with
the effect that its rule gives: KEEP_REG, READ, PROGRAM, ERASE, FLASH_COMMAND_END. -/
def Obligations.KeepAndFlash : Prop :=
  Claims.KeepComplete ∧ Claims.FlashComplete

/-- Compare channels and timers count, fire and take their actions; time passes: CompareChannelsComplete, TimerExpiryComplete,
TimerActionsComplete, TimePasses. It says that each of these commands completes with the effect that its rule gives: COMPARE,
CMP_VALUE, CMP_CTL, ZERO, MATCH, START, STOP, RESET, LOADNOW, CDT_COUNT. -/
def Obligations.Timers : Prop :=
  Claims.CompareChannelsComplete ∧ Claims.TimerExpiryComplete ∧ Claims.TimerActionsComplete ∧ Claims.TimePasses

/-- Pulses, management pulses, clears, Domain pulses and pins complete: PulseComplete, EventWritesComplete, PinsComplete. It says
that each of these commands completes with the effect that its rule gives: PULSE, EVT_FIRE, DOM, EVT_FLAG, EVT_GROUP_EN,
CLOSED, PIN, STUCK. -/
def Obligations.EventFabric : Prop :=
  Claims.PulseComplete ∧ Claims.EventWritesComplete ∧ Claims.PinsComplete

/-- The Lap boundary, Open Tasks and exhausted cycle counters: LapBoundaryComplete, OpenTaskAndExhaustedComplete. It says that
each of these commands completes with the effect that its rule gives: LAP_BOUNDARY, ENGINE_CYCLE_COUNTER_EXHAUSTED, OPEN_TASK. -/
def Obligations.BoundariesAndOpenWork : Prop :=
  Claims.LapBoundaryComplete ∧ Claims.OpenTaskAndExhaustedComplete

/-- The preemption sweep and the first placement of a Task complete: PreemptionSweepComplete, FirstPlacementComplete. It says that
each of these commands completes with the effect that its rule gives: PREEMPTION_SWEEP, PLACEMENT_RESTORE. -/
def Obligations.PlacementsComplete : Prop :=
  Claims.PreemptionSweepComplete ∧ Claims.FirstPlacementComplete

/-- Decisions, cancels and booking moves complete: DecisionComplete, CancelComplete, BookingMoveComplete. It says that each of
these commands completes with the effect that its rule gives: DECISION, CANCEL, BOOKING_MOVE. -/
def Obligations.AdmissionComplete : Prop :=
  Claims.DecisionComplete ∧ Claims.CancelComplete ∧ Claims.BookingMoveComplete

/-- Fetches, submissions, cost-vector reads and posted records complete: SqFetchComplete, SubmitComplete, CostVectorReadComplete,
PostingComplete. It says that each of these commands completes with the effect that its rule gives: SQ_FETCH, SUBMIT,
COST_VECTOR_READ, COMPLETE, ACCEPT, NOTICE. -/
def Obligations.SubmissionsAndPosting : Prop :=
  Claims.SqFetchComplete ∧ Claims.SubmitComplete ∧ Claims.CostVectorReadComplete ∧ Claims.PostingComplete

/-- Ports train, identify their partners, keep their links and lose them: TrainingComplete, PartnerIdentity, LinkLossComplete,
LinkUpkeepComplete. It says that each of these commands completes with the effect that its rule gives: TRAINING_ATTEMPT,
DETECT, EQ, CHECK, ALIGN, EQ_TIMEOUT, CAPS, LINK_DOWN, LOSS_OF_SIGNAL, FRAME, RETRAIN, REPLAY_TIMEOUT. -/
def Obligations.LinksTrainAndFail : Prop :=
  Claims.TrainingComplete ∧ Claims.PartnerIdentity ∧ Claims.LinkLossComplete ∧ Claims.LinkUpkeepComplete

/-- Cells, flits, replays and bypasses complete: CellComplete, LinkLayerComplete, FlitsComplete, ResendAndBypassComplete. It says
that each of these commands completes with the effect that its rule gives: CELL, IDLE, PKT, DATA, ACK, RESEND, DRAIN_HOLD_END,
BYPASS_CLOSE, BYPASS_OPEN. -/
def Obligations.FlitsComplete : Prop :=
  Claims.CellComplete ∧ Claims.LinkLayerComplete ∧ Claims.FlitsComplete ∧ Claims.ResendAndBypassComplete

/-- Read, write and atomic packets complete: ReadPacketComplete, WritePacketsComplete. It says that each of these commands
completes with the effect that its rule gives: RD, WR, WRL, AT. -/
def Obligations.PacketsComplete : Prop :=
  Claims.ReadPacketComplete ∧ Claims.WritePacketsComplete

/-- Messages and fault records complete: MessagesComplete, FaultRecordsComplete. It says that each of these commands completes
with the effect that its rule gives: PRED, EVT, TLBI_MSG, BREAK, JOIN, SCALE, DONE, FLT. -/
def Obligations.MessagesAndRecords : Prop :=
  Claims.MessagesComplete ∧ Claims.FaultRecordsComplete

/-- What a Lead sends, what the sides report and the release at cycle 1,024: PacerPacketsComplete, PairReportsComplete,
ReleaseComplete. It says that each of these commands completes with the effect that its rule gives: HOSTCMD, HOSTWR, REGWR,
EVENTS, LAPEND, POSTED, READY, TENDD, LAPDIG, FENCE, RELEASE. -/
def Obligations.PairPackets : Prop :=
  Claims.PacerPacketsComplete ∧ Claims.PairReportsComplete ∧ Claims.ReleaseComplete

/-- Handoffs, fences, re-runs and rejoins complete: HandoffComplete, FenceAndRerunComplete, RejoinComplete. It says that each of
these commands completes with the effect that its rule gives: HANDOFF, FENCE_END, RE_RUN, FLT_POP, PAIR_REJOIN, REJOIN. -/
def Obligations.HandoffFenceRejoin : Prop :=
  Claims.HandoffComplete ∧ Claims.FenceAndRerunComplete ∧ Claims.RejoinComplete

/-- Doorbells and queue control complete: DoorbellsComplete, QueueControlComplete. It says that each of these commands completes
with the effect that its rule gives: HOST_SQ_TAIL, HOST_CQ_HEAD, HOST_SQ_CFG, HOST_CQ_CFG, PURGE. -/
def Obligations.HostQueues : Prop :=
  Claims.DoorbellsComplete ∧ Claims.QueueControlComplete

/-- HDM decoders, host accesses, host resets and the link complete: CommitComplete, HostMemoryComplete, HostResetAndLinkComplete,
ConfigurationSpaceStays. It says that each of these commands completes with the effect that its rule gives: COMMIT,
CXL_MEM_READ, CXL_MEM_WRITE, HOST_LINK_DOWN, HOT_RESET, PERST_N, FUNCTION_LEVEL_RESET, D3HOT, HOST_LINK_UP, D0, MSI_X_UNMASK. -/
def Obligations.HostMemoryAndLink : Prop :=
  Claims.CommitComplete ∧ Claims.HostMemoryComplete ∧ Claims.HostResetAndLinkComplete ∧ Claims.ConfigurationSpaceStays

/-- Power, reset, REDAWN and the test port complete: PowerAndResetComplete, RedawnComplete, TestPortComplete. It says that each of
these commands completes with the effect that its rule gives: POWER_ON, VDD_CORE_REMOVED, RESET_N_ASSERTED, PGOOD,
RESET_N_RELEASED, REDAWN, EXTEST, SAMPLE_PRELOAD, IDCODE, CLAMP, HIGHZ, EXTEST_PULSE, EXTEST_TRAIN, DBG_ACCESS, BYPASS,
TRST_N. -/
def Obligations.PowerAndTestPort : Prop :=
  Claims.PowerAndResetComplete ∧ Claims.RedawnComplete ∧ Claims.TestPortComplete

/-- Dawn, PREP, mode transitions and Dusk complete: DawnComplete, PrepEndComplete, ModeTransitionsComplete, DuskComplete. It says
that each of these commands completes with the effect that its rule gives: DAWN, PREP_COMPLETE, MODE_TRANSITION, POST, TEST,
RECORD, TO_HOLD. -/
def Obligations.ModesComplete : Prop :=
  Claims.DawnComplete ∧ Claims.PrepEndComplete ∧ Claims.ModeTransitionsComplete ∧ Claims.DuskComplete

/-- Cluster states and the supply, clock and thermal monitors complete: ClusterStatesComplete, MonitorsComplete. It says that each
of these commands completes with the effect that its rule gives: STATE_CHOICE, WAKE, EARLY_WAKE, WARNING, WARNING_END,
SUPPLY_RESET, SUPPLY_RECOVERY, CLOCK_LOSS, THERMAL_WARNING, TRIP, CLOCK_RECOVERY, THERMAL_WARNING_END. -/
def Obligations.ClustersAndMonitors : Prop :=
  Claims.ClusterStatesComplete ∧ Claims.MonitorsComplete

/-- What reset leaves, and its memory's canonical form: ResetValues, ResetMemoryCanonical. -/
def Obligations.ResetState : Prop :=
  Claims.ResetValues ∧ Claims.ResetMemoryCanonical
end

