-- ==== Sys2Proof/Laws/SMap.lean ====
section
/-!
SUPPORT. The laws of sparse maps: a read after a write to the same key gives the value written, a write leaves every
other key alone, and every operation keeps the canonical form.
-/
namespace Sys2Proof.Machine

variable {α : Type}

theorem SMap.get_ins_self (d : α) (m : SMap α) (k : Nat) (v : α) : SMap.get d (SMap.ins m k v) k = v := by
  induction m with
  | nil => simp [SMap.ins, SMap.get]
  | cons h t ih =>
    obtain ⟨j, w⟩ := h
    simp only [SMap.ins]
    split
    · simp [SMap.get]
    · split
      · simp [SMap.get]
      · rename_i h1 h2
        simp [SMap.get, ih, Ne.symm h2]

theorem SMap.get_ins_ne (d : α) (m : SMap α) (k j : Nat) (v : α) (h : j ≠ k) :
    SMap.get d (SMap.ins m k v) j = SMap.get d m j := by
  induction m with
  | nil => simp [SMap.ins, SMap.get, Ne.symm h]
  | cons x t ih =>
    obtain ⟨i, w⟩ := x
    simp only [SMap.ins]
    split
    · simp [SMap.get, Ne.symm h]
    · split
      · rename_i h2
        subst h2
        simp [SMap.get, Ne.symm h]
      · simp [SMap.get, ih]

theorem SMap.get_filter_ne (d : α) (m : SMap α) (p : Nat × α → Bool) (j : Nat)
    (h : ∀ v, p (j, v) = true) : SMap.get d (m.filter p) j = SMap.get d m j := by
  induction m with
  | nil => rfl
  | cons x t ih =>
    obtain ⟨i, w⟩ := x
    by_cases hi : i = j
    · subst hi; simp [List.filter, h, SMap.get]
    · cases hp : p (i, w) <;> simp [List.filter, hp, SMap.get, hi, ih]

theorem SMap.get_filter_self (d : α) (m : SMap α) (k : Nat) :
    SMap.get d (m.filter (fun p => decide (p.1 ≠ k))) k = d := by
  induction m with
  | nil => rfl
  | cons x t ih =>
    obtain ⟨i, w⟩ := x
    by_cases hi : i = k
    · subst hi; simpa [List.filter] using ih
    · simp only [List.filter]; simpa [SMap.get, hi] using ih

/-! ### The canonical form -/

theorem SMap.mem_ins {m : SMap α} {k : Nat} {v : α} {p : Nat × α} (h : p ∈ SMap.ins m k v) : p = (k, v) ∨ p ∈ m := by
  induction m with
  | nil => simpa [SMap.ins] using h
  | cons x t ih =>
    obtain ⟨i, w⟩ := x
    simp only [SMap.ins] at h
    split at h
    · simpa using h
    · split at h
      · rcases List.mem_cons.1 h with h | h
        · exact .inl h
        · exact .inr (List.mem_cons_of_mem _ h)
      · rcases List.mem_cons.1 h with h | h
        · exact .inr (h ▸ List.mem_cons_self)
        · rcases ih h with h | h
          · exact .inl h
          · exact .inr (List.mem_cons_of_mem _ h)

/-- The empty map is canonical. -/
@[simp] theorem SMap.wf_nil (d : α) : SMap.wf d ([] : SMap α) := ⟨List.Pairwise.nil, by simp⟩

variable [DecidableEq α]

/-- A read after a write to the same key gives the value written. -/
@[simp] theorem SMap.get_set_self (d : α) (m : SMap α) (k : Nat) (v : α) : SMap.get d (SMap.set d m k v) k = v := by
  unfold SMap.set
  split
  · rename_i h; subst h; exact SMap.get_filter_self _ m k
  · exact SMap.get_ins_self d m k v

/-- A write leaves every other key alone, whatever value the map gives to unlisted keys. -/
theorem SMap.get_set_ne (d d' : α) (m : SMap α) (k j : Nat) (v : α) (h : j ≠ k) :
    SMap.get d' (SMap.set d m k v) j = SMap.get d' m j := by
  unfold SMap.set
  split
  · exact SMap.get_filter_ne d' m _ j (fun _ => by simpa using h)
  · exact SMap.get_ins_ne d' m k j v h

omit [DecidableEq α] in
/-- Inserting a value other than the default keeps the form. -/
theorem SMap.wf_ins {d : α} {m : SMap α} (h : SMap.wf d m) (k : Nat) {v : α} (hv : v ≠ d) : SMap.wf d (SMap.ins m k v) := by
  obtain ⟨h1, h2⟩ := h
  refine ⟨?_, ?_⟩
  · induction m with
    | nil => simp [SMap.ins]
    | cons x t ih =>
      obtain ⟨i, w⟩ := x
      have h1' := List.pairwise_cons.1 h1
      simp only [SMap.ins]
      split
      · rename_i hk
        refine List.pairwise_cons.2 ⟨?_, h1⟩
        intro q hq
        rcases List.mem_cons.1 hq with hq | hq
        · subst hq; exact hk
        · exact Nat.lt_trans hk (h1'.1 q hq)
      · split
        · rename_i hk hki
          subst hki
          exact List.pairwise_cons.2 ⟨h1'.1, h1'.2⟩
        · rename_i hk hki
          refine List.pairwise_cons.2 ⟨?_, ih h1'.2 (fun p hp => h2 p (List.mem_cons_of_mem _ hp))⟩
          intro q hq
          rcases SMap.mem_ins hq with hq | hq
          · subst hq; show i < k; omega
          · exact h1'.1 q hq
  · intro p hp
    rcases SMap.mem_ins hp with hp | hp
    · subst hp; exact hv
    · exact h2 p hp

omit [DecidableEq α] in
/-- Dropping entries keeps the form. -/
theorem SMap.wf_filter {d : α} {m : SMap α} (h : SMap.wf d m) (p : Nat × α → Bool) : SMap.wf d (m.filter p) :=
  ⟨h.1.filter p, fun q hq => h.2 q (List.mem_filter.1 hq).1⟩

/-- A write keeps the form. -/
theorem SMap.wf_set {d : α} {m : SMap α} (h : SMap.wf d m) (k : Nat) (v : α) : SMap.wf d (SMap.set d m k v) := by
  unfold SMap.set
  split
  · exact SMap.wf_filter h _
  · rename_i hv; exact SMap.wf_ins h k hv

/-- Several writes keep the form. -/
theorem SMap.wf_foldl_set {β : Type} {d : α} (l : List β) (k : β → Nat) (v : β → α) {m : SMap α} (h : SMap.wf d m) :
    SMap.wf d (l.foldl (fun m x => SMap.set d m (k x) (v x)) m) := by
  induction l generalizing m with
  | nil => exact h
  | cons x t ih => exact ih (SMap.wf_set h _ _)

/-! ### Applying a function to every entry -/

omit [DecidableEq α] in
/-- A read after applying a function that takes default to default is the function of what was read. -/
theorem SMap.get_remap {β : Type} [DecidableEq β] (d : β) (d' : α) (f : Nat → α → β) (m : SMap α) (k : Nat) (h : f k d' = d) :
    SMap.get d (SMap.remap d f m) k = f k (SMap.get d' m k) := by
  induction m with
  | nil => exact h.symm
  | cons p t ih =>
    obtain ⟨j, v⟩ := p
    by_cases hj : k = j
    · subst hj; simp [SMap.remap, SMap.get]
    · have hj' : j ≠ k := Ne.symm hj
      simp [SMap.remap, SMap.get_set_ne _ _ _ _ _ _ hj, SMap.get, hj', ih]

omit [DecidableEq α] in
/-- What it gives is canonical, whatever it is applied to. -/
theorem SMap.wf_remap {β : Type} [DecidableEq β] (d : β) (f : Nat → α → β) (m : SMap α) : SMap.wf d (SMap.remap d f m) := by
  induction m with
  | nil => exact SMap.wf_nil d
  | cons p t ih => exact SMap.wf_set ih _ _

end Sys2Proof.Machine
end

