-- ==== Sys2Proof/Laws/State.lean ====
section
/-!
SUPPORT. What the elementary updates of the state leave alone, one lemma for each field and update, and what the reads of
registers, engines and ports answer after them.
-/
namespace Sys2Proof.Machine

variable (s : State)

/-! ### wr -/

@[simp] theorem State.wr_pending (r : RegRef) (v : BitVec 32) : (s.wr r v).pending = s.pending := rfl
@[simp] theorem State.wr_freeCtr (r : RegRef) (v : BitVec 32) : (s.wr r v).freeCtr = s.freeCtr := rfl
@[simp] theorem State.wr_mode (r : RegRef) (v : BitVec 32) : (s.wr r v).mode = s.mode := rfl
@[simp] theorem State.wr_pendMode (r : RegRef) (v : BitVec 32) : (s.wr r v).pendMode = s.pendMode := rfl
@[simp] theorem State.wr_nextMode (r : RegRef) (v : BitVec 32) : (s.wr r v).nextMode = s.nextMode := rfl
@[simp] theorem State.wr_replayFlag (r : RegRef) (v : BitVec 32) : (s.wr r v).replayFlag = s.replayFlag := rfl
@[simp] theorem State.wr_ord14 (r : RegRef) (v : BitVec 32) : (s.wr r v).ord14 = s.ord14 := rfl
@[simp] theorem State.wr_tb (r : RegRef) (v : BitVec 32) : (s.wr r v).tb = s.tb := rfl
@[simp] theorem State.wr_tbFrac (r : RegRef) (v : BitVec 32) : (s.wr r v).tbFrac = s.tbFrac := rfl
@[simp] theorem State.wr_latch (r : RegRef) (v : BitVec 32) : (s.wr r v).latch = s.latch := rfl
@[simp] theorem State.wr_staged (r : RegRef) (v : BitVec 32) : (s.wr r v).staged = s.staged := rfl
@[simp] theorem State.wr_engines (r : RegRef) (v : BitVec 32) : (s.wr r v).engines = s.engines := rfl
@[simp] theorem State.wr_m (r : RegRef) (v : BitVec 32) : (s.wr r v).m = s.m := rfl
@[simp] theorem State.wr_sta (r : RegRef) (v : BitVec 32) : (s.wr r v).sta = s.sta := rfl
@[simp] theorem State.wr_host (r : RegRef) (v : BitVec 32) : (s.wr r v).host = s.host := rfl
@[simp] theorem State.wr_ring (r : RegRef) (v : BitVec 32) : (s.wr r v).ring = s.ring := rfl
@[simp] theorem State.wr_pair (r : RegRef) (v : BitVec 32) : (s.wr r v).pair = s.pair := rfl
@[simp] theorem State.wr_flt (r : RegRef) (v : BitVec 32) : (s.wr r v).flt = s.flt := rfl
@[simp] theorem State.wr_evt (r : RegRef) (v : BitVec 32) : (s.wr r v).evt = s.evt := rfl
@[simp] theorem State.wr_pwr (r : RegRef) (v : BitVec 32) : (s.wr r v).pwr = s.pwr := rfl
@[simp] theorem State.wr_img (r : RegRef) (v : BitVec 32) : (s.wr r v).img = s.img := rfl
@[simp] theorem State.wr_blk (r : RegRef) (v : BitVec 32) : (s.wr r v).blk = s.blk := rfl
@[simp] theorem State.wr_stew (r : RegRef) (v : BitVec 32) : (s.wr r v).stew = s.stew := rfl
@[simp] theorem State.wr_recd (r : RegRef) (v : BitVec 32) : (s.wr r v).recd = s.recd := rfl
@[simp] theorem State.wr_scan (r : RegRef) (v : BitVec 32) : (s.wr r v).scan = s.scan := rfl
@[simp] theorem State.wr_flash (r : RegRef) (v : BitVec 32) : (s.wr r v).flash = s.flash := rfl
@[simp] theorem State.wr_tlbi (r : RegRef) (v : BitVec 32) : (s.wr r v).tlbi = s.tlbi := rfl
@[simp] theorem State.wr_prepLap (r : RegRef) (v : BitVec 32) : (s.wr r v).prepLap = s.prepLap := rfl
@[simp] theorem State.wr_duskLap (r : RegRef) (v : BitVec 32) : (s.wr r v).duskLap = s.duskLap := rfl
@[simp] theorem State.wr_drainMode (r : RegRef) (v : BitVec 32) : (s.wr r v).drainMode = s.drainMode := rfl
@[simp] theorem State.wr_runLap (r : RegRef) (v : BitVec 32) : (s.wr r v).runLap = s.runLap := rfl
@[simp] theorem State.wr_lastLap (r : RegRef) (v : BitVec 32) : (s.wr r v).lastLap = s.lastLap := rfl

/-! ### setFld -/

@[simp] theorem State.setFld_pending (r : RegRef) (hi lo v : Nat) : (s.setFld r hi lo v).pending = s.pending := rfl
@[simp] theorem State.setFld_freeCtr (r : RegRef) (hi lo v : Nat) : (s.setFld r hi lo v).freeCtr = s.freeCtr := rfl
@[simp] theorem State.setFld_mode (r : RegRef) (hi lo v : Nat) : (s.setFld r hi lo v).mode = s.mode := rfl
@[simp] theorem State.setFld_pendMode (r : RegRef) (hi lo v : Nat) : (s.setFld r hi lo v).pendMode = s.pendMode := rfl
@[simp] theorem State.setFld_nextMode (r : RegRef) (hi lo v : Nat) : (s.setFld r hi lo v).nextMode = s.nextMode := rfl
@[simp] theorem State.setFld_replayFlag (r : RegRef) (hi lo v : Nat) : (s.setFld r hi lo v).replayFlag = s.replayFlag := rfl
@[simp] theorem State.setFld_ord14 (r : RegRef) (hi lo v : Nat) : (s.setFld r hi lo v).ord14 = s.ord14 := rfl
@[simp] theorem State.setFld_tb (r : RegRef) (hi lo v : Nat) : (s.setFld r hi lo v).tb = s.tb := rfl
@[simp] theorem State.setFld_tbFrac (r : RegRef) (hi lo v : Nat) : (s.setFld r hi lo v).tbFrac = s.tbFrac := rfl
@[simp] theorem State.setFld_latch (r : RegRef) (hi lo v : Nat) : (s.setFld r hi lo v).latch = s.latch := rfl
@[simp] theorem State.setFld_staged (r : RegRef) (hi lo v : Nat) : (s.setFld r hi lo v).staged = s.staged := rfl
@[simp] theorem State.setFld_engines (r : RegRef) (hi lo v : Nat) : (s.setFld r hi lo v).engines = s.engines := rfl
@[simp] theorem State.setFld_m (r : RegRef) (hi lo v : Nat) : (s.setFld r hi lo v).m = s.m := rfl
@[simp] theorem State.setFld_sta (r : RegRef) (hi lo v : Nat) : (s.setFld r hi lo v).sta = s.sta := rfl
@[simp] theorem State.setFld_host (r : RegRef) (hi lo v : Nat) : (s.setFld r hi lo v).host = s.host := rfl
@[simp] theorem State.setFld_ring (r : RegRef) (hi lo v : Nat) : (s.setFld r hi lo v).ring = s.ring := rfl
@[simp] theorem State.setFld_pair (r : RegRef) (hi lo v : Nat) : (s.setFld r hi lo v).pair = s.pair := rfl
@[simp] theorem State.setFld_flt (r : RegRef) (hi lo v : Nat) : (s.setFld r hi lo v).flt = s.flt := rfl
@[simp] theorem State.setFld_evt (r : RegRef) (hi lo v : Nat) : (s.setFld r hi lo v).evt = s.evt := rfl
@[simp] theorem State.setFld_pwr (r : RegRef) (hi lo v : Nat) : (s.setFld r hi lo v).pwr = s.pwr := rfl
@[simp] theorem State.setFld_img (r : RegRef) (hi lo v : Nat) : (s.setFld r hi lo v).img = s.img := rfl
@[simp] theorem State.setFld_blk (r : RegRef) (hi lo v : Nat) : (s.setFld r hi lo v).blk = s.blk := rfl
@[simp] theorem State.setFld_stew (r : RegRef) (hi lo v : Nat) : (s.setFld r hi lo v).stew = s.stew := rfl
@[simp] theorem State.setFld_recd (r : RegRef) (hi lo v : Nat) : (s.setFld r hi lo v).recd = s.recd := rfl
@[simp] theorem State.setFld_scan (r : RegRef) (hi lo v : Nat) : (s.setFld r hi lo v).scan = s.scan := rfl
@[simp] theorem State.setFld_flash (r : RegRef) (hi lo v : Nat) : (s.setFld r hi lo v).flash = s.flash := rfl
@[simp] theorem State.setFld_tlbi (r : RegRef) (hi lo v : Nat) : (s.setFld r hi lo v).tlbi = s.tlbi := rfl
@[simp] theorem State.setFld_prepLap (r : RegRef) (hi lo v : Nat) : (s.setFld r hi lo v).prepLap = s.prepLap := rfl
@[simp] theorem State.setFld_duskLap (r : RegRef) (hi lo v : Nat) : (s.setFld r hi lo v).duskLap = s.duskLap := rfl
@[simp] theorem State.setFld_drainMode (r : RegRef) (hi lo v : Nat) : (s.setFld r hi lo v).drainMode = s.drainMode := rfl
@[simp] theorem State.setFld_runLap (r : RegRef) (hi lo v : Nat) : (s.setFld r hi lo v).runLap = s.runLap := rfl
@[simp] theorem State.setFld_lastLap (r : RegRef) (hi lo v : Nat) : (s.setFld r hi lo v).lastLap = s.lastLap := rfl

/-! ### setBit -/

@[simp] theorem State.setBit_pending (r : RegRef) (b : Nat) (v : Bool) : (s.setBit r b v).pending = s.pending := rfl
@[simp] theorem State.setBit_freeCtr (r : RegRef) (b : Nat) (v : Bool) : (s.setBit r b v).freeCtr = s.freeCtr := rfl
@[simp] theorem State.setBit_mode (r : RegRef) (b : Nat) (v : Bool) : (s.setBit r b v).mode = s.mode := rfl
@[simp] theorem State.setBit_pendMode (r : RegRef) (b : Nat) (v : Bool) : (s.setBit r b v).pendMode = s.pendMode := rfl
@[simp] theorem State.setBit_nextMode (r : RegRef) (b : Nat) (v : Bool) : (s.setBit r b v).nextMode = s.nextMode := rfl
@[simp] theorem State.setBit_replayFlag (r : RegRef) (b : Nat) (v : Bool) : (s.setBit r b v).replayFlag = s.replayFlag := rfl
@[simp] theorem State.setBit_ord14 (r : RegRef) (b : Nat) (v : Bool) : (s.setBit r b v).ord14 = s.ord14 := rfl
@[simp] theorem State.setBit_tb (r : RegRef) (b : Nat) (v : Bool) : (s.setBit r b v).tb = s.tb := rfl
@[simp] theorem State.setBit_tbFrac (r : RegRef) (b : Nat) (v : Bool) : (s.setBit r b v).tbFrac = s.tbFrac := rfl
@[simp] theorem State.setBit_latch (r : RegRef) (b : Nat) (v : Bool) : (s.setBit r b v).latch = s.latch := rfl
@[simp] theorem State.setBit_staged (r : RegRef) (b : Nat) (v : Bool) : (s.setBit r b v).staged = s.staged := rfl
@[simp] theorem State.setBit_engines (r : RegRef) (b : Nat) (v : Bool) : (s.setBit r b v).engines = s.engines := rfl
@[simp] theorem State.setBit_m (r : RegRef) (b : Nat) (v : Bool) : (s.setBit r b v).m = s.m := rfl
@[simp] theorem State.setBit_sta (r : RegRef) (b : Nat) (v : Bool) : (s.setBit r b v).sta = s.sta := rfl
@[simp] theorem State.setBit_host (r : RegRef) (b : Nat) (v : Bool) : (s.setBit r b v).host = s.host := rfl
@[simp] theorem State.setBit_ring (r : RegRef) (b : Nat) (v : Bool) : (s.setBit r b v).ring = s.ring := rfl
@[simp] theorem State.setBit_pair (r : RegRef) (b : Nat) (v : Bool) : (s.setBit r b v).pair = s.pair := rfl
@[simp] theorem State.setBit_flt (r : RegRef) (b : Nat) (v : Bool) : (s.setBit r b v).flt = s.flt := rfl
@[simp] theorem State.setBit_evt (r : RegRef) (b : Nat) (v : Bool) : (s.setBit r b v).evt = s.evt := rfl
@[simp] theorem State.setBit_pwr (r : RegRef) (b : Nat) (v : Bool) : (s.setBit r b v).pwr = s.pwr := rfl
@[simp] theorem State.setBit_img (r : RegRef) (b : Nat) (v : Bool) : (s.setBit r b v).img = s.img := rfl
@[simp] theorem State.setBit_blk (r : RegRef) (b : Nat) (v : Bool) : (s.setBit r b v).blk = s.blk := rfl
@[simp] theorem State.setBit_stew (r : RegRef) (b : Nat) (v : Bool) : (s.setBit r b v).stew = s.stew := rfl
@[simp] theorem State.setBit_recd (r : RegRef) (b : Nat) (v : Bool) : (s.setBit r b v).recd = s.recd := rfl
@[simp] theorem State.setBit_scan (r : RegRef) (b : Nat) (v : Bool) : (s.setBit r b v).scan = s.scan := rfl
@[simp] theorem State.setBit_flash (r : RegRef) (b : Nat) (v : Bool) : (s.setBit r b v).flash = s.flash := rfl
@[simp] theorem State.setBit_tlbi (r : RegRef) (b : Nat) (v : Bool) : (s.setBit r b v).tlbi = s.tlbi := rfl
@[simp] theorem State.setBit_prepLap (r : RegRef) (b : Nat) (v : Bool) : (s.setBit r b v).prepLap = s.prepLap := rfl
@[simp] theorem State.setBit_duskLap (r : RegRef) (b : Nat) (v : Bool) : (s.setBit r b v).duskLap = s.duskLap := rfl
@[simp] theorem State.setBit_drainMode (r : RegRef) (b : Nat) (v : Bool) : (s.setBit r b v).drainMode = s.drainMode := rfl
@[simp] theorem State.setBit_runLap (r : RegRef) (b : Nat) (v : Bool) : (s.setBit r b v).runLap = s.runLap := rfl
@[simp] theorem State.setBit_lastLap (r : RegRef) (b : Nat) (v : Bool) : (s.setBit r b v).lastLap = s.lastLap := rfl

/-! ### wr64 -/

@[simp] theorem State.wr64_pending (r : RegRef) (v : W64) : (s.wr64 r v).pending = s.pending := rfl
@[simp] theorem State.wr64_freeCtr (r : RegRef) (v : W64) : (s.wr64 r v).freeCtr = s.freeCtr := rfl
@[simp] theorem State.wr64_mode (r : RegRef) (v : W64) : (s.wr64 r v).mode = s.mode := rfl
@[simp] theorem State.wr64_pendMode (r : RegRef) (v : W64) : (s.wr64 r v).pendMode = s.pendMode := rfl
@[simp] theorem State.wr64_nextMode (r : RegRef) (v : W64) : (s.wr64 r v).nextMode = s.nextMode := rfl
@[simp] theorem State.wr64_replayFlag (r : RegRef) (v : W64) : (s.wr64 r v).replayFlag = s.replayFlag := rfl
@[simp] theorem State.wr64_ord14 (r : RegRef) (v : W64) : (s.wr64 r v).ord14 = s.ord14 := rfl
@[simp] theorem State.wr64_tb (r : RegRef) (v : W64) : (s.wr64 r v).tb = s.tb := rfl
@[simp] theorem State.wr64_tbFrac (r : RegRef) (v : W64) : (s.wr64 r v).tbFrac = s.tbFrac := rfl
@[simp] theorem State.wr64_latch (r : RegRef) (v : W64) : (s.wr64 r v).latch = s.latch := rfl
@[simp] theorem State.wr64_staged (r : RegRef) (v : W64) : (s.wr64 r v).staged = s.staged := rfl
@[simp] theorem State.wr64_engines (r : RegRef) (v : W64) : (s.wr64 r v).engines = s.engines := rfl
@[simp] theorem State.wr64_m (r : RegRef) (v : W64) : (s.wr64 r v).m = s.m := rfl
@[simp] theorem State.wr64_sta (r : RegRef) (v : W64) : (s.wr64 r v).sta = s.sta := rfl
@[simp] theorem State.wr64_host (r : RegRef) (v : W64) : (s.wr64 r v).host = s.host := rfl
@[simp] theorem State.wr64_ring (r : RegRef) (v : W64) : (s.wr64 r v).ring = s.ring := rfl
@[simp] theorem State.wr64_pair (r : RegRef) (v : W64) : (s.wr64 r v).pair = s.pair := rfl
@[simp] theorem State.wr64_flt (r : RegRef) (v : W64) : (s.wr64 r v).flt = s.flt := rfl
@[simp] theorem State.wr64_evt (r : RegRef) (v : W64) : (s.wr64 r v).evt = s.evt := rfl
@[simp] theorem State.wr64_pwr (r : RegRef) (v : W64) : (s.wr64 r v).pwr = s.pwr := rfl
@[simp] theorem State.wr64_img (r : RegRef) (v : W64) : (s.wr64 r v).img = s.img := rfl
@[simp] theorem State.wr64_blk (r : RegRef) (v : W64) : (s.wr64 r v).blk = s.blk := rfl
@[simp] theorem State.wr64_stew (r : RegRef) (v : W64) : (s.wr64 r v).stew = s.stew := rfl
@[simp] theorem State.wr64_recd (r : RegRef) (v : W64) : (s.wr64 r v).recd = s.recd := rfl
@[simp] theorem State.wr64_scan (r : RegRef) (v : W64) : (s.wr64 r v).scan = s.scan := rfl
@[simp] theorem State.wr64_flash (r : RegRef) (v : W64) : (s.wr64 r v).flash = s.flash := rfl
@[simp] theorem State.wr64_tlbi (r : RegRef) (v : W64) : (s.wr64 r v).tlbi = s.tlbi := rfl
@[simp] theorem State.wr64_prepLap (r : RegRef) (v : W64) : (s.wr64 r v).prepLap = s.prepLap := rfl
@[simp] theorem State.wr64_duskLap (r : RegRef) (v : W64) : (s.wr64 r v).duskLap = s.duskLap := rfl
@[simp] theorem State.wr64_drainMode (r : RegRef) (v : W64) : (s.wr64 r v).drainMode = s.drainMode := rfl
@[simp] theorem State.wr64_runLap (r : RegRef) (v : W64) : (s.wr64 r v).runLap = s.runLap := rfl
@[simp] theorem State.wr64_lastLap (r : RegRef) (v : W64) : (s.wr64 r v).lastLap = s.lastLap := rfl

/-! ### add64 -/

@[simp] theorem State.add64_pending (r : RegRef) (n : Nat) : (s.add64 r n).pending = s.pending := rfl
@[simp] theorem State.add64_freeCtr (r : RegRef) (n : Nat) : (s.add64 r n).freeCtr = s.freeCtr := rfl
@[simp] theorem State.add64_mode (r : RegRef) (n : Nat) : (s.add64 r n).mode = s.mode := rfl
@[simp] theorem State.add64_pendMode (r : RegRef) (n : Nat) : (s.add64 r n).pendMode = s.pendMode := rfl
@[simp] theorem State.add64_nextMode (r : RegRef) (n : Nat) : (s.add64 r n).nextMode = s.nextMode := rfl
@[simp] theorem State.add64_replayFlag (r : RegRef) (n : Nat) : (s.add64 r n).replayFlag = s.replayFlag := rfl
@[simp] theorem State.add64_ord14 (r : RegRef) (n : Nat) : (s.add64 r n).ord14 = s.ord14 := rfl
@[simp] theorem State.add64_tb (r : RegRef) (n : Nat) : (s.add64 r n).tb = s.tb := rfl
@[simp] theorem State.add64_tbFrac (r : RegRef) (n : Nat) : (s.add64 r n).tbFrac = s.tbFrac := rfl
@[simp] theorem State.add64_latch (r : RegRef) (n : Nat) : (s.add64 r n).latch = s.latch := rfl
@[simp] theorem State.add64_staged (r : RegRef) (n : Nat) : (s.add64 r n).staged = s.staged := rfl
@[simp] theorem State.add64_engines (r : RegRef) (n : Nat) : (s.add64 r n).engines = s.engines := rfl
@[simp] theorem State.add64_m (r : RegRef) (n : Nat) : (s.add64 r n).m = s.m := rfl
@[simp] theorem State.add64_sta (r : RegRef) (n : Nat) : (s.add64 r n).sta = s.sta := rfl
@[simp] theorem State.add64_host (r : RegRef) (n : Nat) : (s.add64 r n).host = s.host := rfl
@[simp] theorem State.add64_ring (r : RegRef) (n : Nat) : (s.add64 r n).ring = s.ring := rfl
@[simp] theorem State.add64_pair (r : RegRef) (n : Nat) : (s.add64 r n).pair = s.pair := rfl
@[simp] theorem State.add64_flt (r : RegRef) (n : Nat) : (s.add64 r n).flt = s.flt := rfl
@[simp] theorem State.add64_evt (r : RegRef) (n : Nat) : (s.add64 r n).evt = s.evt := rfl
@[simp] theorem State.add64_pwr (r : RegRef) (n : Nat) : (s.add64 r n).pwr = s.pwr := rfl
@[simp] theorem State.add64_img (r : RegRef) (n : Nat) : (s.add64 r n).img = s.img := rfl
@[simp] theorem State.add64_blk (r : RegRef) (n : Nat) : (s.add64 r n).blk = s.blk := rfl
@[simp] theorem State.add64_stew (r : RegRef) (n : Nat) : (s.add64 r n).stew = s.stew := rfl
@[simp] theorem State.add64_recd (r : RegRef) (n : Nat) : (s.add64 r n).recd = s.recd := rfl
@[simp] theorem State.add64_scan (r : RegRef) (n : Nat) : (s.add64 r n).scan = s.scan := rfl
@[simp] theorem State.add64_flash (r : RegRef) (n : Nat) : (s.add64 r n).flash = s.flash := rfl
@[simp] theorem State.add64_tlbi (r : RegRef) (n : Nat) : (s.add64 r n).tlbi = s.tlbi := rfl
@[simp] theorem State.add64_prepLap (r : RegRef) (n : Nat) : (s.add64 r n).prepLap = s.prepLap := rfl
@[simp] theorem State.add64_duskLap (r : RegRef) (n : Nat) : (s.add64 r n).duskLap = s.duskLap := rfl
@[simp] theorem State.add64_drainMode (r : RegRef) (n : Nat) : (s.add64 r n).drainMode = s.drainMode := rfl
@[simp] theorem State.add64_runLap (r : RegRef) (n : Nat) : (s.add64 r n).runLap = s.runLap := rfl
@[simp] theorem State.add64_lastLap (r : RegRef) (n : Nat) : (s.add64 r n).lastLap = s.lastLap := rfl

/-! ### satInc -/

@[simp] theorem State.satInc_pending (r : RegRef) (hi lo : Nat) : (s.satInc r hi lo).pending = s.pending := by unfold State.satInc; split <;> rfl
@[simp] theorem State.satInc_freeCtr (r : RegRef) (hi lo : Nat) : (s.satInc r hi lo).freeCtr = s.freeCtr := by unfold State.satInc; split <;> rfl
@[simp] theorem State.satInc_mode (r : RegRef) (hi lo : Nat) : (s.satInc r hi lo).mode = s.mode := by unfold State.satInc; split <;> rfl
@[simp] theorem State.satInc_pendMode (r : RegRef) (hi lo : Nat) : (s.satInc r hi lo).pendMode = s.pendMode := by unfold State.satInc; split <;> rfl
@[simp] theorem State.satInc_nextMode (r : RegRef) (hi lo : Nat) : (s.satInc r hi lo).nextMode = s.nextMode := by unfold State.satInc; split <;> rfl
@[simp] theorem State.satInc_replayFlag (r : RegRef) (hi lo : Nat) : (s.satInc r hi lo).replayFlag = s.replayFlag := by unfold State.satInc; split <;> rfl
@[simp] theorem State.satInc_ord14 (r : RegRef) (hi lo : Nat) : (s.satInc r hi lo).ord14 = s.ord14 := by unfold State.satInc; split <;> rfl
@[simp] theorem State.satInc_tb (r : RegRef) (hi lo : Nat) : (s.satInc r hi lo).tb = s.tb := by unfold State.satInc; split <;> rfl
@[simp] theorem State.satInc_tbFrac (r : RegRef) (hi lo : Nat) : (s.satInc r hi lo).tbFrac = s.tbFrac := by unfold State.satInc; split <;> rfl
@[simp] theorem State.satInc_latch (r : RegRef) (hi lo : Nat) : (s.satInc r hi lo).latch = s.latch := by unfold State.satInc; split <;> rfl
@[simp] theorem State.satInc_staged (r : RegRef) (hi lo : Nat) : (s.satInc r hi lo).staged = s.staged := by unfold State.satInc; split <;> rfl
@[simp] theorem State.satInc_engines (r : RegRef) (hi lo : Nat) : (s.satInc r hi lo).engines = s.engines := by unfold State.satInc; split <;> rfl
@[simp] theorem State.satInc_m (r : RegRef) (hi lo : Nat) : (s.satInc r hi lo).m = s.m := by unfold State.satInc; split <;> rfl
@[simp] theorem State.satInc_sta (r : RegRef) (hi lo : Nat) : (s.satInc r hi lo).sta = s.sta := by unfold State.satInc; split <;> rfl
@[simp] theorem State.satInc_host (r : RegRef) (hi lo : Nat) : (s.satInc r hi lo).host = s.host := by unfold State.satInc; split <;> rfl
@[simp] theorem State.satInc_ring (r : RegRef) (hi lo : Nat) : (s.satInc r hi lo).ring = s.ring := by unfold State.satInc; split <;> rfl
@[simp] theorem State.satInc_pair (r : RegRef) (hi lo : Nat) : (s.satInc r hi lo).pair = s.pair := by unfold State.satInc; split <;> rfl
@[simp] theorem State.satInc_flt (r : RegRef) (hi lo : Nat) : (s.satInc r hi lo).flt = s.flt := by unfold State.satInc; split <;> rfl
@[simp] theorem State.satInc_evt (r : RegRef) (hi lo : Nat) : (s.satInc r hi lo).evt = s.evt := by unfold State.satInc; split <;> rfl
@[simp] theorem State.satInc_pwr (r : RegRef) (hi lo : Nat) : (s.satInc r hi lo).pwr = s.pwr := by unfold State.satInc; split <;> rfl
@[simp] theorem State.satInc_img (r : RegRef) (hi lo : Nat) : (s.satInc r hi lo).img = s.img := by unfold State.satInc; split <;> rfl
@[simp] theorem State.satInc_blk (r : RegRef) (hi lo : Nat) : (s.satInc r hi lo).blk = s.blk := by unfold State.satInc; split <;> rfl
@[simp] theorem State.satInc_stew (r : RegRef) (hi lo : Nat) : (s.satInc r hi lo).stew = s.stew := by unfold State.satInc; split <;> rfl
@[simp] theorem State.satInc_recd (r : RegRef) (hi lo : Nat) : (s.satInc r hi lo).recd = s.recd := by unfold State.satInc; split <;> rfl
@[simp] theorem State.satInc_scan (r : RegRef) (hi lo : Nat) : (s.satInc r hi lo).scan = s.scan := by unfold State.satInc; split <;> rfl
@[simp] theorem State.satInc_flash (r : RegRef) (hi lo : Nat) : (s.satInc r hi lo).flash = s.flash := by unfold State.satInc; split <;> rfl
@[simp] theorem State.satInc_tlbi (r : RegRef) (hi lo : Nat) : (s.satInc r hi lo).tlbi = s.tlbi := by unfold State.satInc; split <;> rfl
@[simp] theorem State.satInc_prepLap (r : RegRef) (hi lo : Nat) : (s.satInc r hi lo).prepLap = s.prepLap := by unfold State.satInc; split <;> rfl
@[simp] theorem State.satInc_duskLap (r : RegRef) (hi lo : Nat) : (s.satInc r hi lo).duskLap = s.duskLap := by unfold State.satInc; split <;> rfl
@[simp] theorem State.satInc_drainMode (r : RegRef) (hi lo : Nat) : (s.satInc r hi lo).drainMode = s.drainMode := by unfold State.satInc; split <;> rfl
@[simp] theorem State.satInc_runLap (r : RegRef) (hi lo : Nat) : (s.satInc r hi lo).runLap = s.runLap := by unfold State.satInc; split <;> rfl
@[simp] theorem State.satInc_lastLap (r : RegRef) (hi lo : Nat) : (s.satInc r hi lo).lastLap = s.lastLap := by unfold State.satInc; split <;> rfl

/-! ### setEng -/

@[simp] theorem State.setEng_pending (e : Nat) (x : Engine) : (s.setEng e x).pending = s.pending := rfl
@[simp] theorem State.setEng_freeCtr (e : Nat) (x : Engine) : (s.setEng e x).freeCtr = s.freeCtr := rfl
@[simp] theorem State.setEng_mode (e : Nat) (x : Engine) : (s.setEng e x).mode = s.mode := rfl
@[simp] theorem State.setEng_pendMode (e : Nat) (x : Engine) : (s.setEng e x).pendMode = s.pendMode := rfl
@[simp] theorem State.setEng_nextMode (e : Nat) (x : Engine) : (s.setEng e x).nextMode = s.nextMode := rfl
@[simp] theorem State.setEng_replayFlag (e : Nat) (x : Engine) : (s.setEng e x).replayFlag = s.replayFlag := rfl
@[simp] theorem State.setEng_ord14 (e : Nat) (x : Engine) : (s.setEng e x).ord14 = s.ord14 := rfl
@[simp] theorem State.setEng_tb (e : Nat) (x : Engine) : (s.setEng e x).tb = s.tb := rfl
@[simp] theorem State.setEng_tbFrac (e : Nat) (x : Engine) : (s.setEng e x).tbFrac = s.tbFrac := rfl
@[simp] theorem State.setEng_regs (e : Nat) (x : Engine) : (s.setEng e x).regs = s.regs := rfl
@[simp] theorem State.setEng_latch (e : Nat) (x : Engine) : (s.setEng e x).latch = s.latch := rfl
@[simp] theorem State.setEng_staged (e : Nat) (x : Engine) : (s.setEng e x).staged = s.staged := rfl
@[simp] theorem State.setEng_m (e : Nat) (x : Engine) : (s.setEng e x).m = s.m := rfl
@[simp] theorem State.setEng_sta (e : Nat) (x : Engine) : (s.setEng e x).sta = s.sta := rfl
@[simp] theorem State.setEng_host (e : Nat) (x : Engine) : (s.setEng e x).host = s.host := rfl
@[simp] theorem State.setEng_ring (e : Nat) (x : Engine) : (s.setEng e x).ring = s.ring := rfl
@[simp] theorem State.setEng_pair (e : Nat) (x : Engine) : (s.setEng e x).pair = s.pair := rfl
@[simp] theorem State.setEng_flt (e : Nat) (x : Engine) : (s.setEng e x).flt = s.flt := rfl
@[simp] theorem State.setEng_evt (e : Nat) (x : Engine) : (s.setEng e x).evt = s.evt := rfl
@[simp] theorem State.setEng_pwr (e : Nat) (x : Engine) : (s.setEng e x).pwr = s.pwr := rfl
@[simp] theorem State.setEng_img (e : Nat) (x : Engine) : (s.setEng e x).img = s.img := rfl
@[simp] theorem State.setEng_blk (e : Nat) (x : Engine) : (s.setEng e x).blk = s.blk := rfl
@[simp] theorem State.setEng_stew (e : Nat) (x : Engine) : (s.setEng e x).stew = s.stew := rfl
@[simp] theorem State.setEng_recd (e : Nat) (x : Engine) : (s.setEng e x).recd = s.recd := rfl
@[simp] theorem State.setEng_scan (e : Nat) (x : Engine) : (s.setEng e x).scan = s.scan := rfl
@[simp] theorem State.setEng_flash (e : Nat) (x : Engine) : (s.setEng e x).flash = s.flash := rfl
@[simp] theorem State.setEng_tlbi (e : Nat) (x : Engine) : (s.setEng e x).tlbi = s.tlbi := rfl
@[simp] theorem State.setEng_prepLap (e : Nat) (x : Engine) : (s.setEng e x).prepLap = s.prepLap := rfl
@[simp] theorem State.setEng_duskLap (e : Nat) (x : Engine) : (s.setEng e x).duskLap = s.duskLap := rfl
@[simp] theorem State.setEng_drainMode (e : Nat) (x : Engine) : (s.setEng e x).drainMode = s.drainMode := rfl
@[simp] theorem State.setEng_runLap (e : Nat) (x : Engine) : (s.setEng e x).runLap = s.runLap := rfl
@[simp] theorem State.setEng_lastLap (e : Nat) (x : Engine) : (s.setEng e x).lastLap = s.lastLap := rfl

/-! ### updEng -/

@[simp] theorem State.updEng_pending (e : Nat) (g : Engine → Engine) : (s.updEng e g).pending = s.pending := rfl
@[simp] theorem State.updEng_freeCtr (e : Nat) (g : Engine → Engine) : (s.updEng e g).freeCtr = s.freeCtr := rfl
@[simp] theorem State.updEng_mode (e : Nat) (g : Engine → Engine) : (s.updEng e g).mode = s.mode := rfl
@[simp] theorem State.updEng_pendMode (e : Nat) (g : Engine → Engine) : (s.updEng e g).pendMode = s.pendMode := rfl
@[simp] theorem State.updEng_nextMode (e : Nat) (g : Engine → Engine) : (s.updEng e g).nextMode = s.nextMode := rfl
@[simp] theorem State.updEng_replayFlag (e : Nat) (g : Engine → Engine) : (s.updEng e g).replayFlag = s.replayFlag := rfl
@[simp] theorem State.updEng_ord14 (e : Nat) (g : Engine → Engine) : (s.updEng e g).ord14 = s.ord14 := rfl
@[simp] theorem State.updEng_tb (e : Nat) (g : Engine → Engine) : (s.updEng e g).tb = s.tb := rfl
@[simp] theorem State.updEng_tbFrac (e : Nat) (g : Engine → Engine) : (s.updEng e g).tbFrac = s.tbFrac := rfl
@[simp] theorem State.updEng_regs (e : Nat) (g : Engine → Engine) : (s.updEng e g).regs = s.regs := rfl
@[simp] theorem State.updEng_latch (e : Nat) (g : Engine → Engine) : (s.updEng e g).latch = s.latch := rfl
@[simp] theorem State.updEng_staged (e : Nat) (g : Engine → Engine) : (s.updEng e g).staged = s.staged := rfl
@[simp] theorem State.updEng_m (e : Nat) (g : Engine → Engine) : (s.updEng e g).m = s.m := rfl
@[simp] theorem State.updEng_sta (e : Nat) (g : Engine → Engine) : (s.updEng e g).sta = s.sta := rfl
@[simp] theorem State.updEng_host (e : Nat) (g : Engine → Engine) : (s.updEng e g).host = s.host := rfl
@[simp] theorem State.updEng_ring (e : Nat) (g : Engine → Engine) : (s.updEng e g).ring = s.ring := rfl
@[simp] theorem State.updEng_pair (e : Nat) (g : Engine → Engine) : (s.updEng e g).pair = s.pair := rfl
@[simp] theorem State.updEng_flt (e : Nat) (g : Engine → Engine) : (s.updEng e g).flt = s.flt := rfl
@[simp] theorem State.updEng_evt (e : Nat) (g : Engine → Engine) : (s.updEng e g).evt = s.evt := rfl
@[simp] theorem State.updEng_pwr (e : Nat) (g : Engine → Engine) : (s.updEng e g).pwr = s.pwr := rfl
@[simp] theorem State.updEng_img (e : Nat) (g : Engine → Engine) : (s.updEng e g).img = s.img := rfl
@[simp] theorem State.updEng_blk (e : Nat) (g : Engine → Engine) : (s.updEng e g).blk = s.blk := rfl
@[simp] theorem State.updEng_stew (e : Nat) (g : Engine → Engine) : (s.updEng e g).stew = s.stew := rfl
@[simp] theorem State.updEng_recd (e : Nat) (g : Engine → Engine) : (s.updEng e g).recd = s.recd := rfl
@[simp] theorem State.updEng_scan (e : Nat) (g : Engine → Engine) : (s.updEng e g).scan = s.scan := rfl
@[simp] theorem State.updEng_flash (e : Nat) (g : Engine → Engine) : (s.updEng e g).flash = s.flash := rfl
@[simp] theorem State.updEng_tlbi (e : Nat) (g : Engine → Engine) : (s.updEng e g).tlbi = s.tlbi := rfl
@[simp] theorem State.updEng_prepLap (e : Nat) (g : Engine → Engine) : (s.updEng e g).prepLap = s.prepLap := rfl
@[simp] theorem State.updEng_duskLap (e : Nat) (g : Engine → Engine) : (s.updEng e g).duskLap = s.duskLap := rfl
@[simp] theorem State.updEng_drainMode (e : Nat) (g : Engine → Engine) : (s.updEng e g).drainMode = s.drainMode := rfl
@[simp] theorem State.updEng_runLap (e : Nat) (g : Engine → Engine) : (s.updEng e g).runLap = s.runLap := rfl
@[simp] theorem State.updEng_lastLap (e : Nat) (g : Engine → Engine) : (s.updEng e g).lastLap = s.lastLap := rfl

/-! ### setPort -/

@[simp] theorem State.setPort_pending (p : Nat) (x : Port) : (s.setPort p x).pending = s.pending := rfl
@[simp] theorem State.setPort_freeCtr (p : Nat) (x : Port) : (s.setPort p x).freeCtr = s.freeCtr := rfl
@[simp] theorem State.setPort_mode (p : Nat) (x : Port) : (s.setPort p x).mode = s.mode := rfl
@[simp] theorem State.setPort_pendMode (p : Nat) (x : Port) : (s.setPort p x).pendMode = s.pendMode := rfl
@[simp] theorem State.setPort_nextMode (p : Nat) (x : Port) : (s.setPort p x).nextMode = s.nextMode := rfl
@[simp] theorem State.setPort_replayFlag (p : Nat) (x : Port) : (s.setPort p x).replayFlag = s.replayFlag := rfl
@[simp] theorem State.setPort_ord14 (p : Nat) (x : Port) : (s.setPort p x).ord14 = s.ord14 := rfl
@[simp] theorem State.setPort_tb (p : Nat) (x : Port) : (s.setPort p x).tb = s.tb := rfl
@[simp] theorem State.setPort_tbFrac (p : Nat) (x : Port) : (s.setPort p x).tbFrac = s.tbFrac := rfl
@[simp] theorem State.setPort_regs (p : Nat) (x : Port) : (s.setPort p x).regs = s.regs := rfl
@[simp] theorem State.setPort_latch (p : Nat) (x : Port) : (s.setPort p x).latch = s.latch := rfl
@[simp] theorem State.setPort_staged (p : Nat) (x : Port) : (s.setPort p x).staged = s.staged := rfl
@[simp] theorem State.setPort_engines (p : Nat) (x : Port) : (s.setPort p x).engines = s.engines := rfl
@[simp] theorem State.setPort_m (p : Nat) (x : Port) : (s.setPort p x).m = s.m := rfl
@[simp] theorem State.setPort_sta (p : Nat) (x : Port) : (s.setPort p x).sta = s.sta := rfl
@[simp] theorem State.setPort_host (p : Nat) (x : Port) : (s.setPort p x).host = s.host := rfl
@[simp] theorem State.setPort_pair (p : Nat) (x : Port) : (s.setPort p x).pair = s.pair := rfl
@[simp] theorem State.setPort_flt (p : Nat) (x : Port) : (s.setPort p x).flt = s.flt := rfl
@[simp] theorem State.setPort_evt (p : Nat) (x : Port) : (s.setPort p x).evt = s.evt := rfl
@[simp] theorem State.setPort_pwr (p : Nat) (x : Port) : (s.setPort p x).pwr = s.pwr := rfl
@[simp] theorem State.setPort_img (p : Nat) (x : Port) : (s.setPort p x).img = s.img := rfl
@[simp] theorem State.setPort_blk (p : Nat) (x : Port) : (s.setPort p x).blk = s.blk := rfl
@[simp] theorem State.setPort_stew (p : Nat) (x : Port) : (s.setPort p x).stew = s.stew := rfl
@[simp] theorem State.setPort_recd (p : Nat) (x : Port) : (s.setPort p x).recd = s.recd := rfl
@[simp] theorem State.setPort_scan (p : Nat) (x : Port) : (s.setPort p x).scan = s.scan := rfl
@[simp] theorem State.setPort_flash (p : Nat) (x : Port) : (s.setPort p x).flash = s.flash := rfl
@[simp] theorem State.setPort_tlbi (p : Nat) (x : Port) : (s.setPort p x).tlbi = s.tlbi := rfl
@[simp] theorem State.setPort_prepLap (p : Nat) (x : Port) : (s.setPort p x).prepLap = s.prepLap := rfl
@[simp] theorem State.setPort_duskLap (p : Nat) (x : Port) : (s.setPort p x).duskLap = s.duskLap := rfl
@[simp] theorem State.setPort_drainMode (p : Nat) (x : Port) : (s.setPort p x).drainMode = s.drainMode := rfl
@[simp] theorem State.setPort_runLap (p : Nat) (x : Port) : (s.setPort p x).runLap = s.runLap := rfl
@[simp] theorem State.setPort_lastLap (p : Nat) (x : Port) : (s.setPort p x).lastLap = s.lastLap := rfl

/-! ### updPort -/

@[simp] theorem State.updPort_pending (p : Nat) (g : Port → Port) : (s.updPort p g).pending = s.pending := rfl
@[simp] theorem State.updPort_freeCtr (p : Nat) (g : Port → Port) : (s.updPort p g).freeCtr = s.freeCtr := rfl
@[simp] theorem State.updPort_mode (p : Nat) (g : Port → Port) : (s.updPort p g).mode = s.mode := rfl
@[simp] theorem State.updPort_pendMode (p : Nat) (g : Port → Port) : (s.updPort p g).pendMode = s.pendMode := rfl
@[simp] theorem State.updPort_nextMode (p : Nat) (g : Port → Port) : (s.updPort p g).nextMode = s.nextMode := rfl
@[simp] theorem State.updPort_replayFlag (p : Nat) (g : Port → Port) : (s.updPort p g).replayFlag = s.replayFlag := rfl
@[simp] theorem State.updPort_ord14 (p : Nat) (g : Port → Port) : (s.updPort p g).ord14 = s.ord14 := rfl
@[simp] theorem State.updPort_tb (p : Nat) (g : Port → Port) : (s.updPort p g).tb = s.tb := rfl
@[simp] theorem State.updPort_tbFrac (p : Nat) (g : Port → Port) : (s.updPort p g).tbFrac = s.tbFrac := rfl
@[simp] theorem State.updPort_regs (p : Nat) (g : Port → Port) : (s.updPort p g).regs = s.regs := rfl
@[simp] theorem State.updPort_latch (p : Nat) (g : Port → Port) : (s.updPort p g).latch = s.latch := rfl
@[simp] theorem State.updPort_staged (p : Nat) (g : Port → Port) : (s.updPort p g).staged = s.staged := rfl
@[simp] theorem State.updPort_engines (p : Nat) (g : Port → Port) : (s.updPort p g).engines = s.engines := rfl
@[simp] theorem State.updPort_m (p : Nat) (g : Port → Port) : (s.updPort p g).m = s.m := rfl
@[simp] theorem State.updPort_sta (p : Nat) (g : Port → Port) : (s.updPort p g).sta = s.sta := rfl
@[simp] theorem State.updPort_host (p : Nat) (g : Port → Port) : (s.updPort p g).host = s.host := rfl
@[simp] theorem State.updPort_pair (p : Nat) (g : Port → Port) : (s.updPort p g).pair = s.pair := rfl
@[simp] theorem State.updPort_flt (p : Nat) (g : Port → Port) : (s.updPort p g).flt = s.flt := rfl
@[simp] theorem State.updPort_evt (p : Nat) (g : Port → Port) : (s.updPort p g).evt = s.evt := rfl
@[simp] theorem State.updPort_pwr (p : Nat) (g : Port → Port) : (s.updPort p g).pwr = s.pwr := rfl
@[simp] theorem State.updPort_img (p : Nat) (g : Port → Port) : (s.updPort p g).img = s.img := rfl
@[simp] theorem State.updPort_blk (p : Nat) (g : Port → Port) : (s.updPort p g).blk = s.blk := rfl
@[simp] theorem State.updPort_stew (p : Nat) (g : Port → Port) : (s.updPort p g).stew = s.stew := rfl
@[simp] theorem State.updPort_recd (p : Nat) (g : Port → Port) : (s.updPort p g).recd = s.recd := rfl
@[simp] theorem State.updPort_scan (p : Nat) (g : Port → Port) : (s.updPort p g).scan = s.scan := rfl
@[simp] theorem State.updPort_flash (p : Nat) (g : Port → Port) : (s.updPort p g).flash = s.flash := rfl
@[simp] theorem State.updPort_tlbi (p : Nat) (g : Port → Port) : (s.updPort p g).tlbi = s.tlbi := rfl
@[simp] theorem State.updPort_prepLap (p : Nat) (g : Port → Port) : (s.updPort p g).prepLap = s.prepLap := rfl
@[simp] theorem State.updPort_duskLap (p : Nat) (g : Port → Port) : (s.updPort p g).duskLap = s.duskLap := rfl
@[simp] theorem State.updPort_drainMode (p : Nat) (g : Port → Port) : (s.updPort p g).drainMode = s.drainMode := rfl
@[simp] theorem State.updPort_runLap (p : Nat) (g : Port → Port) : (s.updPort p g).runLap = s.runLap := rfl
@[simp] theorem State.updPort_lastLap (p : Nat) (g : Port → Port) : (s.updPort p g).lastLap = s.lastLap := rfl

/-! ### inject -/

@[simp] theorem State.inject_pending (p : Nat) (x : Flit) : (s.inject p x).pending = s.pending := rfl
@[simp] theorem State.inject_freeCtr (p : Nat) (x : Flit) : (s.inject p x).freeCtr = s.freeCtr := rfl
@[simp] theorem State.inject_mode (p : Nat) (x : Flit) : (s.inject p x).mode = s.mode := rfl
@[simp] theorem State.inject_pendMode (p : Nat) (x : Flit) : (s.inject p x).pendMode = s.pendMode := rfl
@[simp] theorem State.inject_nextMode (p : Nat) (x : Flit) : (s.inject p x).nextMode = s.nextMode := rfl
@[simp] theorem State.inject_replayFlag (p : Nat) (x : Flit) : (s.inject p x).replayFlag = s.replayFlag := rfl
@[simp] theorem State.inject_ord14 (p : Nat) (x : Flit) : (s.inject p x).ord14 = s.ord14 := rfl
@[simp] theorem State.inject_tb (p : Nat) (x : Flit) : (s.inject p x).tb = s.tb := rfl
@[simp] theorem State.inject_tbFrac (p : Nat) (x : Flit) : (s.inject p x).tbFrac = s.tbFrac := rfl
@[simp] theorem State.inject_regs (p : Nat) (x : Flit) : (s.inject p x).regs = s.regs := rfl
@[simp] theorem State.inject_latch (p : Nat) (x : Flit) : (s.inject p x).latch = s.latch := rfl
@[simp] theorem State.inject_staged (p : Nat) (x : Flit) : (s.inject p x).staged = s.staged := rfl
@[simp] theorem State.inject_engines (p : Nat) (x : Flit) : (s.inject p x).engines = s.engines := rfl
@[simp] theorem State.inject_m (p : Nat) (x : Flit) : (s.inject p x).m = s.m := rfl
@[simp] theorem State.inject_sta (p : Nat) (x : Flit) : (s.inject p x).sta = s.sta := rfl
@[simp] theorem State.inject_host (p : Nat) (x : Flit) : (s.inject p x).host = s.host := rfl
@[simp] theorem State.inject_pair (p : Nat) (x : Flit) : (s.inject p x).pair = s.pair := rfl
@[simp] theorem State.inject_flt (p : Nat) (x : Flit) : (s.inject p x).flt = s.flt := rfl
@[simp] theorem State.inject_evt (p : Nat) (x : Flit) : (s.inject p x).evt = s.evt := rfl
@[simp] theorem State.inject_pwr (p : Nat) (x : Flit) : (s.inject p x).pwr = s.pwr := rfl
@[simp] theorem State.inject_img (p : Nat) (x : Flit) : (s.inject p x).img = s.img := rfl
@[simp] theorem State.inject_blk (p : Nat) (x : Flit) : (s.inject p x).blk = s.blk := rfl
@[simp] theorem State.inject_stew (p : Nat) (x : Flit) : (s.inject p x).stew = s.stew := rfl
@[simp] theorem State.inject_recd (p : Nat) (x : Flit) : (s.inject p x).recd = s.recd := rfl
@[simp] theorem State.inject_scan (p : Nat) (x : Flit) : (s.inject p x).scan = s.scan := rfl
@[simp] theorem State.inject_flash (p : Nat) (x : Flit) : (s.inject p x).flash = s.flash := rfl
@[simp] theorem State.inject_tlbi (p : Nat) (x : Flit) : (s.inject p x).tlbi = s.tlbi := rfl
@[simp] theorem State.inject_prepLap (p : Nat) (x : Flit) : (s.inject p x).prepLap = s.prepLap := rfl
@[simp] theorem State.inject_duskLap (p : Nat) (x : Flit) : (s.inject p x).duskLap = s.duskLap := rfl
@[simp] theorem State.inject_drainMode (p : Nat) (x : Flit) : (s.inject p x).drainMode = s.drainMode := rfl
@[simp] theorem State.inject_runLap (p : Nat) (x : Flit) : (s.inject p x).runLap = s.runLap := rfl
@[simp] theorem State.inject_lastLap (p : Nat) (x : Flit) : (s.inject p x).lastLap = s.lastLap := rfl

/-! ### setTx -/

@[simp] theorem State.setTx_pending (k : Nat) (x : TxE2e) : (s.setTx k x).pending = s.pending := rfl
@[simp] theorem State.setTx_freeCtr (k : Nat) (x : TxE2e) : (s.setTx k x).freeCtr = s.freeCtr := rfl
@[simp] theorem State.setTx_mode (k : Nat) (x : TxE2e) : (s.setTx k x).mode = s.mode := rfl
@[simp] theorem State.setTx_pendMode (k : Nat) (x : TxE2e) : (s.setTx k x).pendMode = s.pendMode := rfl
@[simp] theorem State.setTx_nextMode (k : Nat) (x : TxE2e) : (s.setTx k x).nextMode = s.nextMode := rfl
@[simp] theorem State.setTx_replayFlag (k : Nat) (x : TxE2e) : (s.setTx k x).replayFlag = s.replayFlag := rfl
@[simp] theorem State.setTx_ord14 (k : Nat) (x : TxE2e) : (s.setTx k x).ord14 = s.ord14 := rfl
@[simp] theorem State.setTx_tb (k : Nat) (x : TxE2e) : (s.setTx k x).tb = s.tb := rfl
@[simp] theorem State.setTx_tbFrac (k : Nat) (x : TxE2e) : (s.setTx k x).tbFrac = s.tbFrac := rfl
@[simp] theorem State.setTx_regs (k : Nat) (x : TxE2e) : (s.setTx k x).regs = s.regs := rfl
@[simp] theorem State.setTx_latch (k : Nat) (x : TxE2e) : (s.setTx k x).latch = s.latch := rfl
@[simp] theorem State.setTx_staged (k : Nat) (x : TxE2e) : (s.setTx k x).staged = s.staged := rfl
@[simp] theorem State.setTx_engines (k : Nat) (x : TxE2e) : (s.setTx k x).engines = s.engines := rfl
@[simp] theorem State.setTx_m (k : Nat) (x : TxE2e) : (s.setTx k x).m = s.m := rfl
@[simp] theorem State.setTx_sta (k : Nat) (x : TxE2e) : (s.setTx k x).sta = s.sta := rfl
@[simp] theorem State.setTx_host (k : Nat) (x : TxE2e) : (s.setTx k x).host = s.host := rfl
@[simp] theorem State.setTx_pair (k : Nat) (x : TxE2e) : (s.setTx k x).pair = s.pair := rfl
@[simp] theorem State.setTx_flt (k : Nat) (x : TxE2e) : (s.setTx k x).flt = s.flt := rfl
@[simp] theorem State.setTx_evt (k : Nat) (x : TxE2e) : (s.setTx k x).evt = s.evt := rfl
@[simp] theorem State.setTx_pwr (k : Nat) (x : TxE2e) : (s.setTx k x).pwr = s.pwr := rfl
@[simp] theorem State.setTx_img (k : Nat) (x : TxE2e) : (s.setTx k x).img = s.img := rfl
@[simp] theorem State.setTx_blk (k : Nat) (x : TxE2e) : (s.setTx k x).blk = s.blk := rfl
@[simp] theorem State.setTx_stew (k : Nat) (x : TxE2e) : (s.setTx k x).stew = s.stew := rfl
@[simp] theorem State.setTx_recd (k : Nat) (x : TxE2e) : (s.setTx k x).recd = s.recd := rfl
@[simp] theorem State.setTx_scan (k : Nat) (x : TxE2e) : (s.setTx k x).scan = s.scan := rfl
@[simp] theorem State.setTx_flash (k : Nat) (x : TxE2e) : (s.setTx k x).flash = s.flash := rfl
@[simp] theorem State.setTx_tlbi (k : Nat) (x : TxE2e) : (s.setTx k x).tlbi = s.tlbi := rfl
@[simp] theorem State.setTx_prepLap (k : Nat) (x : TxE2e) : (s.setTx k x).prepLap = s.prepLap := rfl
@[simp] theorem State.setTx_duskLap (k : Nat) (x : TxE2e) : (s.setTx k x).duskLap = s.duskLap := rfl
@[simp] theorem State.setTx_drainMode (k : Nat) (x : TxE2e) : (s.setTx k x).drainMode = s.drainMode := rfl
@[simp] theorem State.setTx_runLap (k : Nat) (x : TxE2e) : (s.setTx k x).runLap = s.runLap := rfl
@[simp] theorem State.setTx_lastLap (k : Nat) (x : TxE2e) : (s.setTx k x).lastLap = s.lastLap := rfl

/-! ### emit -/

@[simp] theorem State.emit_pending (o : Out) : (s.emit o).pending = s.pending := rfl
@[simp] theorem State.emit_freeCtr (o : Out) : (s.emit o).freeCtr = s.freeCtr := rfl
@[simp] theorem State.emit_mode (o : Out) : (s.emit o).mode = s.mode := rfl
@[simp] theorem State.emit_pendMode (o : Out) : (s.emit o).pendMode = s.pendMode := rfl
@[simp] theorem State.emit_nextMode (o : Out) : (s.emit o).nextMode = s.nextMode := rfl
@[simp] theorem State.emit_replayFlag (o : Out) : (s.emit o).replayFlag = s.replayFlag := rfl
@[simp] theorem State.emit_ord14 (o : Out) : (s.emit o).ord14 = s.ord14 := rfl
@[simp] theorem State.emit_tb (o : Out) : (s.emit o).tb = s.tb := rfl
@[simp] theorem State.emit_tbFrac (o : Out) : (s.emit o).tbFrac = s.tbFrac := rfl
@[simp] theorem State.emit_regs (o : Out) : (s.emit o).regs = s.regs := rfl
@[simp] theorem State.emit_latch (o : Out) : (s.emit o).latch = s.latch := rfl
@[simp] theorem State.emit_staged (o : Out) : (s.emit o).staged = s.staged := rfl
@[simp] theorem State.emit_engines (o : Out) : (s.emit o).engines = s.engines := rfl
@[simp] theorem State.emit_m (o : Out) : (s.emit o).m = s.m := rfl
@[simp] theorem State.emit_sta (o : Out) : (s.emit o).sta = s.sta := rfl
@[simp] theorem State.emit_ring (o : Out) : (s.emit o).ring = s.ring := rfl
@[simp] theorem State.emit_pair (o : Out) : (s.emit o).pair = s.pair := rfl
@[simp] theorem State.emit_flt (o : Out) : (s.emit o).flt = s.flt := rfl
@[simp] theorem State.emit_evt (o : Out) : (s.emit o).evt = s.evt := rfl
@[simp] theorem State.emit_pwr (o : Out) : (s.emit o).pwr = s.pwr := rfl
@[simp] theorem State.emit_img (o : Out) : (s.emit o).img = s.img := rfl
@[simp] theorem State.emit_blk (o : Out) : (s.emit o).blk = s.blk := rfl
@[simp] theorem State.emit_stew (o : Out) : (s.emit o).stew = s.stew := rfl
@[simp] theorem State.emit_recd (o : Out) : (s.emit o).recd = s.recd := rfl
@[simp] theorem State.emit_scan (o : Out) : (s.emit o).scan = s.scan := rfl
@[simp] theorem State.emit_flash (o : Out) : (s.emit o).flash = s.flash := rfl
@[simp] theorem State.emit_tlbi (o : Out) : (s.emit o).tlbi = s.tlbi := rfl
@[simp] theorem State.emit_prepLap (o : Out) : (s.emit o).prepLap = s.prepLap := rfl
@[simp] theorem State.emit_duskLap (o : Out) : (s.emit o).duskLap = s.duskLap := rfl
@[simp] theorem State.emit_drainMode (o : Out) : (s.emit o).drainMode = s.drainMode := rfl
@[simp] theorem State.emit_runLap (o : Out) : (s.emit o).runLap = s.runLap := rfl
@[simp] theorem State.emit_lastLap (o : Out) : (s.emit o).lastLap = s.lastLap := rfl

/-! ### bump -/

@[simp] theorem State.bump_pending : (s.bump).pending = s.pending := rfl
@[simp] theorem State.bump_mode : (s.bump).mode = s.mode := rfl
@[simp] theorem State.bump_pendMode : (s.bump).pendMode = s.pendMode := rfl
@[simp] theorem State.bump_nextMode : (s.bump).nextMode = s.nextMode := rfl
@[simp] theorem State.bump_replayFlag : (s.bump).replayFlag = s.replayFlag := rfl
@[simp] theorem State.bump_ord14 : (s.bump).ord14 = s.ord14 := rfl
@[simp] theorem State.bump_tb : (s.bump).tb = s.tb := rfl
@[simp] theorem State.bump_tbFrac : (s.bump).tbFrac = s.tbFrac := rfl
@[simp] theorem State.bump_regs : (s.bump).regs = s.regs := rfl
@[simp] theorem State.bump_latch : (s.bump).latch = s.latch := rfl
@[simp] theorem State.bump_staged : (s.bump).staged = s.staged := rfl
@[simp] theorem State.bump_engines : (s.bump).engines = s.engines := rfl
@[simp] theorem State.bump_m : (s.bump).m = s.m := rfl
@[simp] theorem State.bump_sta : (s.bump).sta = s.sta := rfl
@[simp] theorem State.bump_host : (s.bump).host = s.host := rfl
@[simp] theorem State.bump_ring : (s.bump).ring = s.ring := rfl
@[simp] theorem State.bump_pair : (s.bump).pair = s.pair := rfl
@[simp] theorem State.bump_flt : (s.bump).flt = s.flt := rfl
@[simp] theorem State.bump_evt : (s.bump).evt = s.evt := rfl
@[simp] theorem State.bump_pwr : (s.bump).pwr = s.pwr := rfl
@[simp] theorem State.bump_img : (s.bump).img = s.img := rfl
@[simp] theorem State.bump_blk : (s.bump).blk = s.blk := rfl
@[simp] theorem State.bump_stew : (s.bump).stew = s.stew := rfl
@[simp] theorem State.bump_recd : (s.bump).recd = s.recd := rfl
@[simp] theorem State.bump_scan : (s.bump).scan = s.scan := rfl
@[simp] theorem State.bump_flash : (s.bump).flash = s.flash := rfl
@[simp] theorem State.bump_tlbi : (s.bump).tlbi = s.tlbi := rfl
@[simp] theorem State.bump_prepLap : (s.bump).prepLap = s.prepLap := rfl
@[simp] theorem State.bump_duskLap : (s.bump).duskLap = s.duskLap := rfl
@[simp] theorem State.bump_drainMode : (s.bump).drainMode = s.drainMode := rfl
@[simp] theorem State.bump_runLap : (s.bump).runLap = s.runLap := rfl
@[simp] theorem State.bump_lastLap : (s.bump).lastLap = s.lastLap := rfl

/-! ### setFlag -/

@[simp] theorem State.setFlag_pending (c : Nat) (v : Bool) : (s.setFlag c v).pending = s.pending := rfl
@[simp] theorem State.setFlag_freeCtr (c : Nat) (v : Bool) : (s.setFlag c v).freeCtr = s.freeCtr := rfl
@[simp] theorem State.setFlag_mode (c : Nat) (v : Bool) : (s.setFlag c v).mode = s.mode := rfl
@[simp] theorem State.setFlag_pendMode (c : Nat) (v : Bool) : (s.setFlag c v).pendMode = s.pendMode := rfl
@[simp] theorem State.setFlag_nextMode (c : Nat) (v : Bool) : (s.setFlag c v).nextMode = s.nextMode := rfl
@[simp] theorem State.setFlag_replayFlag (c : Nat) (v : Bool) : (s.setFlag c v).replayFlag = s.replayFlag := rfl
@[simp] theorem State.setFlag_ord14 (c : Nat) (v : Bool) : (s.setFlag c v).ord14 = s.ord14 := rfl
@[simp] theorem State.setFlag_tb (c : Nat) (v : Bool) : (s.setFlag c v).tb = s.tb := rfl
@[simp] theorem State.setFlag_tbFrac (c : Nat) (v : Bool) : (s.setFlag c v).tbFrac = s.tbFrac := rfl
@[simp] theorem State.setFlag_latch (c : Nat) (v : Bool) : (s.setFlag c v).latch = s.latch := rfl
@[simp] theorem State.setFlag_staged (c : Nat) (v : Bool) : (s.setFlag c v).staged = s.staged := rfl
@[simp] theorem State.setFlag_engines (c : Nat) (v : Bool) : (s.setFlag c v).engines = s.engines := rfl
@[simp] theorem State.setFlag_m (c : Nat) (v : Bool) : (s.setFlag c v).m = s.m := rfl
@[simp] theorem State.setFlag_sta (c : Nat) (v : Bool) : (s.setFlag c v).sta = s.sta := rfl
@[simp] theorem State.setFlag_host (c : Nat) (v : Bool) : (s.setFlag c v).host = s.host := rfl
@[simp] theorem State.setFlag_ring (c : Nat) (v : Bool) : (s.setFlag c v).ring = s.ring := rfl
@[simp] theorem State.setFlag_pair (c : Nat) (v : Bool) : (s.setFlag c v).pair = s.pair := rfl
@[simp] theorem State.setFlag_flt (c : Nat) (v : Bool) : (s.setFlag c v).flt = s.flt := rfl
@[simp] theorem State.setFlag_evt (c : Nat) (v : Bool) : (s.setFlag c v).evt = s.evt := rfl
@[simp] theorem State.setFlag_pwr (c : Nat) (v : Bool) : (s.setFlag c v).pwr = s.pwr := rfl
@[simp] theorem State.setFlag_img (c : Nat) (v : Bool) : (s.setFlag c v).img = s.img := rfl
@[simp] theorem State.setFlag_blk (c : Nat) (v : Bool) : (s.setFlag c v).blk = s.blk := rfl
@[simp] theorem State.setFlag_stew (c : Nat) (v : Bool) : (s.setFlag c v).stew = s.stew := rfl
@[simp] theorem State.setFlag_recd (c : Nat) (v : Bool) : (s.setFlag c v).recd = s.recd := rfl
@[simp] theorem State.setFlag_scan (c : Nat) (v : Bool) : (s.setFlag c v).scan = s.scan := rfl
@[simp] theorem State.setFlag_flash (c : Nat) (v : Bool) : (s.setFlag c v).flash = s.flash := rfl
@[simp] theorem State.setFlag_tlbi (c : Nat) (v : Bool) : (s.setFlag c v).tlbi = s.tlbi := rfl
@[simp] theorem State.setFlag_prepLap (c : Nat) (v : Bool) : (s.setFlag c v).prepLap = s.prepLap := rfl
@[simp] theorem State.setFlag_duskLap (c : Nat) (v : Bool) : (s.setFlag c v).duskLap = s.duskLap := rfl
@[simp] theorem State.setFlag_drainMode (c : Nat) (v : Bool) : (s.setFlag c v).drainMode = s.drainMode := rfl
@[simp] theorem State.setFlag_runLap (c : Nat) (v : Bool) : (s.setFlag c v).runLap = s.runLap := rfl
@[simp] theorem State.setFlag_lastLap (c : Nat) (v : Bool) : (s.setFlag c v).lastLap = s.lastLap := rfl

/-! ### Reads after writes -/

/-- A register reads as what was written. -/
@[simp] theorem State.rd_wr (r : RegRef) (v : BitVec 32) : (s.wr r v).rd r = v := SMap.get_set_self _ _ _ _

/-- Any register at another offset reads as before. -/
theorem State.rd_wr_ne (r q : RegRef) (v : BitVec 32) (h : q.off ≠ r.off) : (s.wr r v).rd q = s.rd q :=
  SMap.get_set_ne _ _ _ _ _ _ h

/-- Writing a field leaves every register at another offset alone. -/
theorem State.rd_setFld_ne (r q : RegRef) (hi lo v : Nat) (h : q.off ≠ r.off) : (s.setFld r hi lo v).rd q = s.rd q :=
  s.rd_wr_ne r q _ h

/-- A saturating increment leaves every register at another offset alone. -/
theorem State.rd_satInc_ne (r q : RegRef) (hi lo : Nat) (h : q.off ≠ r.off) : (s.satInc r hi lo).rd q = s.rd q := by
  unfold State.satInc
  split
  · exact s.rd_setFld_ne r q _ _ _ h
  · rfl

/-- A 64-bit write leaves every register at another offset alone. -/
theorem State.rd_wr64_ne (r q : RegRef) (v : W64) (h : q.off ≠ r.off) (h' : q.off ≠ r.off + 4) : (s.wr64 r v).rd q = s.rd q := by
  unfold State.wr64
  rw [State.rd_wr_ne _ _ _ _ h', State.rd_wr_ne _ _ _ _ h]

/-- A 64-bit counter's increment leaves every register at another offset alone. -/
theorem State.rd_add64_ne (r q : RegRef) (n : Nat) (h : q.off ≠ r.off) (h' : q.off ≠ r.off + 4) : (s.add64 r n).rd q = s.rd q :=
  s.rd_wr64_ne r q _ h h'

/-- An engine reads as what was written. -/
@[simp] theorem State.eng_setEng (e : Nat) (x : Engine) : (s.setEng e x).eng e = x := SMap.get_set_self _ _ _ _

/-- Another engine reads as before. -/
theorem State.eng_setEng_ne (e j : Nat) (x : Engine) (h : j ≠ e) : (s.setEng e x).eng j = s.eng j :=
  SMap.get_set_ne _ _ _ _ _ _ h

/-- An engine after a change. -/
@[simp] theorem State.eng_updEng (e : Nat) (g : Engine → Engine) : (s.updEng e g).eng e = g (s.eng e) :=
  s.eng_setEng e _

/-- Another engine after a change. -/
theorem State.eng_updEng_ne (e j : Nat) (g : Engine → Engine) (h : j ≠ e) : (s.updEng e g).eng j = s.eng j :=
  s.eng_setEng_ne e j _ h

/-- A port reads as what was written. -/
@[simp] theorem State.port_setPort (p : Nat) (x : Port) : (s.setPort p x).port p = x := SMap.get_set_self _ _ _ _

/-- Another port reads as before. -/
theorem State.port_setPort_ne (p q : Nat) (x : Port) (h : q ≠ p) : (s.setPort p x).port q = s.port q :=
  SMap.get_set_ne _ _ _ _ _ _ h

@[simp] theorem State.eng_wr (r : RegRef) (v : BitVec 32) (j : Nat) : (s.wr r v).eng j = s.eng j := rfl
@[simp] theorem State.port_wr (r : RegRef) (v : BitVec 32) (j : Nat) : (s.wr r v).port j = s.port j := rfl
@[simp] theorem State.eng_setFld (r : RegRef) (hi lo v : Nat) (j : Nat) : (s.setFld r hi lo v).eng j = s.eng j := rfl
@[simp] theorem State.port_setFld (r : RegRef) (hi lo v : Nat) (j : Nat) : (s.setFld r hi lo v).port j = s.port j := rfl
@[simp] theorem State.eng_setBit (r : RegRef) (b : Nat) (v : Bool) (j : Nat) : (s.setBit r b v).eng j = s.eng j := rfl
@[simp] theorem State.port_setBit (r : RegRef) (b : Nat) (v : Bool) (j : Nat) : (s.setBit r b v).port j = s.port j := rfl
@[simp] theorem State.eng_wr64 (r : RegRef) (v : W64) (j : Nat) : (s.wr64 r v).eng j = s.eng j := rfl
@[simp] theorem State.port_wr64 (r : RegRef) (v : W64) (j : Nat) : (s.wr64 r v).port j = s.port j := rfl
@[simp] theorem State.eng_add64 (r : RegRef) (n : Nat) (j : Nat) : (s.add64 r n).eng j = s.eng j := rfl
@[simp] theorem State.port_add64 (r : RegRef) (n : Nat) (j : Nat) : (s.add64 r n).port j = s.port j := rfl
@[simp] theorem State.eng_satInc (r : RegRef) (hi lo : Nat) (j : Nat) : (s.satInc r hi lo).eng j = s.eng j := by unfold State.satInc; split <;> rfl
@[simp] theorem State.port_satInc (r : RegRef) (hi lo : Nat) (j : Nat) : (s.satInc r hi lo).port j = s.port j := by unfold State.satInc; split <;> rfl
@[simp] theorem State.rd_setEng (e : Nat) (x : Engine) (q : RegRef) : (s.setEng e x).rd q = s.rd q := rfl
@[simp] theorem State.port_setEng (e : Nat) (x : Engine) (j : Nat) : (s.setEng e x).port j = s.port j := rfl
@[simp] theorem State.rd_updEng (e : Nat) (g : Engine → Engine) (q : RegRef) : (s.updEng e g).rd q = s.rd q := rfl
@[simp] theorem State.port_updEng (e : Nat) (g : Engine → Engine) (j : Nat) : (s.updEng e g).port j = s.port j := rfl
@[simp] theorem State.rd_setPort (p : Nat) (x : Port) (q : RegRef) : (s.setPort p x).rd q = s.rd q := rfl
@[simp] theorem State.eng_setPort (p : Nat) (x : Port) (j : Nat) : (s.setPort p x).eng j = s.eng j := rfl
@[simp] theorem State.rd_updPort (p : Nat) (g : Port → Port) (q : RegRef) : (s.updPort p g).rd q = s.rd q := rfl
@[simp] theorem State.eng_updPort (p : Nat) (g : Port → Port) (j : Nat) : (s.updPort p g).eng j = s.eng j := rfl
@[simp] theorem State.rd_inject (p : Nat) (x : Flit) (q : RegRef) : (s.inject p x).rd q = s.rd q := rfl
@[simp] theorem State.eng_inject (p : Nat) (x : Flit) (j : Nat) : (s.inject p x).eng j = s.eng j := rfl
@[simp] theorem State.rd_setTx (k : Nat) (x : TxE2e) (q : RegRef) : (s.setTx k x).rd q = s.rd q := rfl
@[simp] theorem State.eng_setTx (k : Nat) (x : TxE2e) (j : Nat) : (s.setTx k x).eng j = s.eng j := rfl
@[simp] theorem State.rd_emit (o : Out) (q : RegRef) : (s.emit o).rd q = s.rd q := rfl
@[simp] theorem State.eng_emit (o : Out) (j : Nat) : (s.emit o).eng j = s.eng j := rfl
@[simp] theorem State.port_emit (o : Out) (j : Nat) : (s.emit o).port j = s.port j := rfl
@[simp] theorem State.rd_bump (q : RegRef) : (s.bump).rd q = s.rd q := rfl
@[simp] theorem State.eng_bump (j : Nat) : (s.bump).eng j = s.eng j := rfl
@[simp] theorem State.port_bump (j : Nat) : (s.bump).port j = s.port j := rfl
@[simp] theorem State.eng_setFlag (c : Nat) (v : Bool) (j : Nat) : (s.setFlag c v).eng j = s.eng j := rfl
@[simp] theorem State.port_setFlag (c : Nat) (v : Bool) (j : Nat) : (s.setFlag c v).port j = s.port j := rfl

end Sys2Proof.Machine
end

