-- ==== Sys2Proof/Laws/Scalar.lean ====
section
/-!
SUPPORT. What the shared operations of scalar instructions do: an instruction that executes normally performs its effect
in one engine cycle and retires, and nothing else of the part differs.
-/
namespace Sys2Proof.Machine

/-- What normal execution says, taken apart. -/
theorem State.executes_cases {s : State} {e : Nat} {p : Pfx} {op bad : Nat} (h : s.executes e p op bad = true) :
    s.issues e = true ∧ (s.eng e).arch.selects p = true ∧
      (s.eng e).arch.illegal e p op bad = 0 ∧ p.chk = .good ∧ (isPriv op = true → (s.eng e).arch.sup = true) := by
  simp only [State.executes, Bool.and_eq_true, beq_iff_eq, Bool.or_eq_true, Bool.not_eq_true'] at h
  obtain ⟨⟨⟨⟨h1, h4⟩, h5⟩, h6⟩, h7⟩ := h
  refine ⟨h1, h4, h5, h6, fun hp => ?_⟩
  rcases h7 with h7 | h7
  · simp [hp] at h7
  · exact h7

/-- An engine that issues is ready as it is. -/
theorem State.ready_of_issues {s : State} {e : Nat} (h : s.issues e = true) : s.ready e = some s := by
  simp only [State.issues, Bool.and_eq_true, Option.isNone_iff_eq_none] at h
  obtain ⟨⟨⟨⟨⟨h1, h2⟩, h3⟩, h4⟩, h5⟩, h6⟩ := h
  simp [State.ready, h1, h2, h3, h4, h5, h6]

/-- An instruction that executes normally performs its effect. -/
theorem State.scalar_executes {s : State} {e : Nat} {p : Pfx} {op : Nat} {bad : Arch → Nat} (lat : Arch → Option Nat)
    (body : State → Act) (h : s.executes e p op (bad (s.eng e).arch) = true) :
    s.scalar e p op bad lat body = s.perform e op (pLen p op) body := by
  obtain ⟨h1, h4, h5, h6, h7⟩ := State.executes_cases h
  have hr := State.ready_of_issues h1
  have hc : s.checked e p.chk (lat (s.eng e).arch) = (s, true) := by
    rw [h6]; unfold State.checked; split <;> rfl
  have hp : (isPriv op && !(s.eng e).arch.sup) = false := by
    by_cases hp : isPriv op = true
    · simp [h7 hp]
    · simp [hp]
  unfold State.scalar
  rw [hr]
  simp only [h4, h5, hc, hp]
  rfl

/-- A performance counter touches none but itself. -/
theorem State.pmcCount_frame (s : State) (e : Nat) (r : RegRef) :
    s.pmcCount e r = { s with regs := (s.pmcCount e r).regs } ∧ (∀ j, (s.pmcCount e r).eng j = s.eng j) ∧
      OnlyRegs s (s.pmcCount e r) [r.off, r.off + 4] := by
  unfold State.pmcCount
  split
  · refine ⟨rfl, fun _ => rfl, fun q hq => ?_⟩
    simp only [List.mem_cons, List.not_mem_nil, or_false, not_or] at hq
    exact s.rd_add64_ne r q 1 hq.1 hq.2
  · exact ⟨rfl, fun _ => rfl, fun _ _ => rfl⟩

@[simp] theorem State.eng_pmcCount (s : State) (e : Nat) (r : RegRef) (j : Nat) : (s.pmcCount e r).eng j = s.eng j :=
  (s.pmcCount_frame e r).2.1 j

/-- A change of the engine touches nothing else. -/
theorem State.touches_updEng (s : State) (e : Nat) (g : Engine → Engine) : Touches s (s.updEng e g) e :=
  ⟨rfl, fun _ hj => s.eng_updEng_ne e _ g hj, fun _ _ => rfl⟩

theorem Touches.trans {s t u : State} {e : Nat} (h : Touches s t e) (k : Touches t u e) : Touches s u e := by
  refine ⟨?_, fun j hj => (k.2.1 j hj).trans (h.2.1 j hj), fun r hr => (k.2.2 r hr).trans (h.2.2 r hr)⟩
  rw [k.1, h.1]

theorem State.touches_pmcCount (s : State) (e : Nat) (r : RegRef) (h1 : r.off ∈ pmcOffs e) (h2 : r.off + 4 ∈ pmcOffs e) :
    Touches s (s.pmcCount e r) e := by
  obtain ⟨k1, k2, k3⟩ := s.pmcCount_frame e r
  refine ⟨?_, fun j _ => k2 j, fun q hq => k3 q ?_⟩
  · rw [k1]
  · simp only [List.mem_cons, List.not_mem_nil, or_false, not_or]
    exact ⟨fun h => hq (h ▸ h1), fun h => hq (h ▸ h2)⟩

/-- The cycle's effect on the engine. -/
theorem State.eng_cycle (s : State) (e : Nat) :
    (s.cycle e).eng e = { s.eng e with place := (s.eng e).place.map Placement.ticked, arch := (s.eng e).arch.held } := by
  simp [State.cycle]

/-- One engine cycle touches nothing but the engine and its cycle counter. -/
theorem State.touches_cycle (s : State) (e : Nat) : Touches s (s.cycle e) e :=
  (s.touches_updEng e _).trans (State.touches_pmcCount _ e _ (by simp [pmcOffs]) (by simp [pmcOffs]))

/-- Retirement touches nothing but the engine and its retirement counter. -/
theorem State.touches_retire (s : State) (e op len : Nat) (c : Ctl) : Touches s (s.retire e op len c) e :=
  (s.touches_updEng e _).trans (State.touches_pmcCount _ e _ (by simp [pmcOffs]) (by simp [pmcOffs]))

/-- An engine's retirement by itself. -/
@[simp] theorem State.eng_retire (s : State) (e op len : Nat) (c : Ctl) :
    (s.retire e op len c).eng e = (s.eng e).retired op len c := by
  simp [State.retire]

/-- What fetch holds and has asked for, and nothing else of an engine, may differ. -/
def FetchOnly (x y : Engine) : Prop :=
  y = { x with pq := y.pq, flight := y.flight, fetches := y.fetches, got := y.got } ∧ y.answers = x.answers

theorem FetchOnly.refl (x : Engine) : FetchOnly x x := ⟨rfl, rfl⟩

theorem FetchOnly.trans {x y z : Engine} (h : FetchOnly x y) (k : FetchOnly y z) : FetchOnly x z :=
  ⟨by rw [k.1, h.1], k.2.trans h.2⟩

theorem Engine.dropWords_fetch (x : Engine) (n : Nat) : FetchOnly x (x.dropWords n) := ⟨rfl, rfl⟩

theorem Engine.newPath_fetch (x : Engine) : FetchOnly x x.newPath :=
  ⟨rfl, by simp [Engine.answers, Engine.newPath, List.filter_filter]⟩

theorem Engine.noWords_fetch (x : Engine) : FetchOnly x x.noWords :=
  FetchOnly.trans (y := { x with pq := [], flight := [] }) ⟨rfl, rfl⟩ (Engine.newPath_fetch _)

/-- Consuming instruction words changes what fetch holds alone. -/
theorem Engine.consume_fetch (x : Engine) (old new : W64) (len : Nat) (c : Ctl) : FetchOnly x (x.consume old new len c) := by
  have h := x.dropWords_fetch (wordsPassed old new len)
  unfold Engine.consume
  simp only
  split
  · exact h.trans (Engine.noWords_fetch _)
  · split
    · exact h.trans (FetchOnly.trans (y := { x.dropWords (wordsPassed old new len) with
        pq := _, flight := _ }) ⟨rfl, rfl⟩ (Engine.newPath_fetch _))
    · split
      · exact h.trans (Engine.newPath_fetch _)
      · exact h
    · exact h
    · exact h

/-- Retirement's effect on an engine: its registers, and what fetch holds. -/
theorem Engine.retired_units (x : Engine) (op len : Nat) (c : Ctl) :
    x.retired op len c =
        { x with arch := x.arch.retire len c, pq := (x.retired op len c).pq, flight := (x.retired op len c).flight,
                 lbuf := (x.retired op len c).lbuf, fetches := (x.retired op len c).fetches,
                 got := (x.retired op len c).got } ∧
      (x.retired op len c).answers = x.answers := by
  have key : ∀ (l : Option LoopBuf) (y : Engine), FetchOnly ({ x with arch := x.arch.retire len c, lbuf := l } : Engine) y →
      y = { x with arch := x.arch.retire len c, pq := y.pq, flight := y.flight, lbuf := y.lbuf, fetches := y.fetches,
                   got := y.got } ∧ y.answers = x.answers := by
    intro l y h
    refine ⟨?_, h.2⟩
    have h1 := h.1
    rw [h1]
  apply key (lbufStep x.lbuf op c x.arch (x.arch.retire len c))
  unfold Engine.retired
  simp only
  split
  · split
    · exact FetchOnly.refl _
    · exact Engine.noWords_fetch _
  · split
    · exact Engine.noWords_fetch _
    · exact Engine.consume_fetch _ _ _ _ _

/-- The registers after retirement. -/
@[simp] theorem Engine.retired_arch (x : Engine) (op len : Nat) (c : Ctl) :
    (x.retired op len c).arch = x.arch.retire len c := by
  rw [(Engine.retired_units x op len c).1]

/-- One cycle, an effect on the registers and retirement: what an instruction on registers alone does. -/
theorem State.retires_of (s : State) (e : Nat) (p : Pfx) (op : Nat) (g : Arch → Arch) :
    Retires s (((s.cycle e).updEng e (fun x => { x with arch := g x.arch })).retire e op (pLen p op) .next) e p op g := by
  refine ⟨(s.touches_cycle e).trans ((State.touches_updEng _ e _).trans (State.touches_retire _ e _ _ _)), ?_, ?_⟩
  · unfold SameUnits
    rw [State.eng_retire, State.eng_updEng]
    have h := Engine.retired_units { (s.cycle e).eng e with arch := g ((s.cycle e).eng e).arch } op (pLen p op) .next
    refine ⟨?_, ?_⟩
    · rw [h.1, State.eng_cycle]
    · rw [h.2]
      simp [Engine.answers, State.eng_cycle]
  · rw [State.eng_retire, State.eng_updEng, Engine.retired_arch, State.eng_cycle]

/-- A register instruction that executes normally and traps nothing completes with its effect. -/
theorem State.regOp_retires {s : State} {e : Nat} {p : Pfx} {op bad : Nat} (lat : Arch → Option Nat) (f : Arch → Alu)
    (g : Arch → Arch) (h : s.executes e p op bad = true) (hf : f (s.eng e).arch.held = .ok (g (s.eng e).arch.held)) :
    Retires s (s.regOp e p op bad lat f) e p op g := by
  have hs : s.regOp e p op bad lat f =
      ((s.cycle e).updEng e (fun x => { x with arch := g x.arch })).retire e op (pLen p op) .next := by
    unfold State.regOp
    rw [State.scalar_executes (bad := fun _ => bad) lat _ h]
    unfold State.perform
    simp only [State.eng_cycle, hf]
    congr 1
    simp only [State.updEng, State.eng_cycle]
  rw [hs]
  exact s.retires_of e p op g

end Sys2Proof.Machine
end

