-- ==== Sys2Proof/Laws/Width.lean ====
section
/-!
SUPPORT. Operand widths and values: the width of an instruction is 8, 16, 32 or 64, and the numbers that the integer
meanings compute with are those of the bit vectors that the registers hold.
-/
namespace Sys2Proof.Machine

/-- A width that a prefix can give. -/
def widthOk (w : Option Nat) : Prop := w = none ∨ w = some 8 ∨ w = some 16 ∨ w = some 32

theorem PInfo.add_width (i : PInfo) (b : Nat) (h : widthOk i.width) : widthOk (i.add b).width := by
  unfold PInfo.add
  simp only
  split
  · rename_i hk
    have hb : b = 0xF0 ∨ b = 0xF1 ∨ b = 0xF2 := by
      have := hk.1
      unfold pkind at this
      split at this
      · simp at this
      · split at this
        · omega
        · split at this <;> (try split at this) <;> simp at this
    rcases hb with rfl | rfl | rfl <;> simp [widthOk]
  · exact h

theorem pInfo_width (p : Pfx) : widthOk (pInfo p).width := by
  have : ∀ (l : List Byte) (i : PInfo), widthOk i.width → widthOk (l.foldl (fun i b => i.add b.toNat) i).width := by
    intro l
    induction l with
    | nil => exact fun _ h => h
    | cons b t ih => exact fun i h => ih _ (i.add_width _ h)
  exact this p.bytes _ (.inl rfl)

/-- The operand width of an instruction is 8, 16, 32 or 64 (R87, Table 3.4). -/
theorem opW_cases (p : Pfx) : opW p = 8 ∨ opW p = 16 ∨ opW p = 32 ∨ opW p = 64 := by
  unfold opW PInfo.w
  rcases pInfo_width p with h | h | h | h <;> simp [h]

theorem opW_le (p : Pfx) : 8 ≤ opW p ∧ opW p ≤ 64 := by
  rcases opW_cases p with h | h | h | h <;> simp [h]

/-- The low w bits of a register as a number. -/
theorem Arch.srcW_eq (a : Arch) (w n : Nat) : a.srcW w n = (a.opnd w n).toNat := by
  simp [Arch.srcW, Arch.opnd, BitVec.toNat_setWidth]

/-- The signed value of a number of w bits. -/
theorem sval_toNat {w : Nat} (hw : 0 < w) (x : BitVec w) : sval w x.toNat = x.toInt := by
  unfold sval
  rw [BitVec.toInt_eq_toNat_cond, Nat.mod_eq_of_lt x.isLt]
  have h2 : 2 ^ w = 2 * 2 ^ (w - 1) := by rw [← Nat.pow_succ']; congr 1; omega
  have hx := x.isLt
  have h3 : (2 : Int) ^ w = 2 * ((2 ^ (w - 1) : Nat) : Int) := by
    have : ((2 ^ w : Nat) : Int) = ((2 * 2 ^ (w - 1) : Nat) : Int) := by rw [h2]
    push_cast at this ⊢
    exact this
  rw [h3]
  rw [h2] at hx ⊢
  split <;> split <;> push_cast <;> first | rfl | omega

/-- Sign extension of a w-bit result. -/
theorem sextW_toNat {w : Nat} (hw : w ≤ 64) (x : BitVec w) : sextW w (BitVec.ofNat 64 x.toNat) = x.signExtend 64 := by
  unfold sextW BitVec.signExtend
  congr 2
  have h : x.toNat < 2 ^ 64 := Nat.lt_of_lt_of_le x.isLt (Nat.pow_le_pow_right (by decide) hw)
  apply BitVec.eq_of_toNat_eq
  simp only [BitVec.toNat_ofNat, BitVec.toNat_setWidth, Nat.mod_eq_of_lt h, Nat.mod_eq_of_lt x.isLt]

/-- Zero extension of a w-bit result. -/
theorem zextW_toNat {w : Nat} (hw : w ≤ 64) (x : BitVec w) : zextW w (BitVec.ofNat 64 x.toNat) = x.setWidth 64 := by
  unfold zextW
  have h : x.toNat < 2 ^ 64 := Nat.lt_of_lt_of_le x.isLt (Nat.pow_le_pow_right (by decide) hw)
  apply BitVec.eq_of_toNat_eq
  simp only [BitVec.toNat_ofNat, BitVec.toNat_setWidth, Nat.mod_eq_of_lt h, Nat.mod_eq_of_lt x.isLt]

/-- The low w bits of an integer as a bit vector. -/
theorem lowBits_eq (w : Nat) (i : Int) : lowBits w i = (BitVec.ofInt w i).toNat := by
  simp [lowBits, BitVec.toNat_ofInt]

/-- N and Z of a w-bit result. -/
theorem nzOf_eq {w : Nat} (hw : 0 < w) (x : BitVec w) : nzOf w x.toNat = (x.msb, decide (x = 0)) := by
  unfold nzOf
  rw [Prod.mk.injEq]
  constructor
  · rw [BitVec.msb_eq_decide, decide_eq_decide]
    have h2 : 2 ^ w = 2 * 2 ^ (w - 1) := by rw [← Nat.pow_succ']; congr 1; omega
    have hx := x.isLt
    rw [h2] at hx
    have hp : 0 < 2 ^ (w - 1) := Nat.pos_of_ne_zero (by simp)
    constructor
    · intro h
      by_contra hc
      rw [Nat.div_eq_of_lt (by omega)] at h
      simp at h
    · intro h
      have : x.toNat / 2 ^ (w - 1) = 1 := Nat.div_eq_of_lt_le (by omega) (by omega)
      rw [this]
  · rw [Nat.mod_eq_of_lt x.isLt, decide_eq_decide]
    constructor
    · intro h; exact BitVec.eq_of_toNat_eq (by simpa using h)
    · intro h; simp [h]

/-- A write of an integer result without trap (R87): the registers with FLAGS and G[d] replaced. -/
theorem Arch.putInt_sext {w : Nat} (hw : w ≤ 64) (a : Arch) (d : Nat) (f : W64) (x : BitVec w) :
    a.putInt w d ⟨some x.toNat, true, f, 0⟩ = .ok ({ a with flags := f }.wrG d (x.signExtend 64)) := by
  unfold Arch.putInt
  simp only [sextW_toNat hw]
  rfl

theorem Arch.putInt_zext {w : Nat} (hw : w ≤ 64) (a : Arch) (d : Nat) (f : W64) (x : BitVec w) :
    a.putInt w d ⟨some x.toNat, false, f, 0⟩ = .ok ({ a with flags := f }.wrG d (x.setWidth 64)) := by
  unfold Arch.putInt
  simp only [zextW_toNat hw]
  rfl

/-- Holding back of interrupts does not touch what an instruction reads. -/
@[simp] theorem Arch.held_rdG (a : Arch) (n : Nat) : a.held.rdG n = a.rdG n := rfl
@[simp] theorem Arch.held_opnd (a : Arch) (w n : Nat) : a.held.opnd w n = a.opnd w n := rfl
@[simp] theorem Arch.held_flags (a : Arch) : a.held.flags = a.flags := rfl
@[simp] theorem Arch.held_psr (a : Arch) : a.held.psr = a.psr := rfl
@[simp] theorem Arch.held_ove (a : Arch) : a.held.ove = a.ove := rfl
@[simp] theorem Arch.held_sup (a : Arch) : a.held.sup = a.sup := rfl
@[simp] theorem Arch.held_rdQ (a : Arch) (n : Nat) : a.held.rdQ n = a.rdQ n := rfl

end Sys2Proof.Machine
end

