-- ==== Sys2Proof/Laws/Integer.lean ====
section
/-!
SUPPORT. Integer instructions: an instruction whose computation on numbers agrees with a function of bit vectors
completes with that function's result.
-/
namespace Sys2Proof.Machine

/-- A register-register integer instruction that executes normally and traps nothing retires with its result. -/
theorem State.intR_retires {s : State} {e : Nat} {p : Pfx} {op : Nat} {f : FmtR} {zero : List Nat}
    (lat : Arch → Option Nat) (g : W64 → Bool → Nat → Nat → Nat → IRes) (k : Arch → Arch)
    (h0 : must0 (f.z.toNat :: zero) = 0) (h : s.executes e p op 0 = true)
    (hg : (s.eng e).arch.held.putInt (opW p) f.d.toNat
      (g (s.eng e).arch.flags (s.eng e).arch.ove (opW p) ((s.eng e).arch.opnd (opW p) f.a.toNat).toNat
        ((s.eng e).arch.opnd (opW p) f.b.toNat).toNat) = .ok (k (s.eng e).arch.held)) :
    ∃ t, s.intR e p op f zero lat g = .next t ∧ Retires s t e p op k := by
  refine ⟨_, rfl, State.regOp_retires lat _ k (h0 ▸ h) ?_⟩
  simp only [Arch.srcW_eq]
  exact hg

/-- An integer instruction with an immediate that executes normally and traps nothing retires with its result. -/
theorem State.intI_retires {s : State} {e : Nat} {p : Pfx} {op : Nat} {f : FmtI} {zero : List Nat} {sg : Bool}
    (lat : Arch → Option Nat) (g : W64 → Bool → Nat → Nat → Nat → IRes) (k : Arch → Arch)
    (h0 : lowest (must0 zero) (immCause p f.imm.toNat) = 0) (h : s.executes e p op 0 = true)
    (hg : (s.eng e).arch.held.putInt (opW p) f.d.toNat
      (g (s.eng e).arch.flags (s.eng e).arch.ove (opW p) ((s.eng e).arch.opnd (opW p) f.a.toNat).toNat
        (((immI p f sg).setWidth (opW p) : BitVec (opW p))).toNat) = .ok (k (s.eng e).arch.held)) :
    ∃ t, s.intI e p op f zero sg lat g = .next t ∧ Retires s t e p op k := by
  refine ⟨_, rfl, State.regOp_retires lat _ k (h0 ▸ h) ?_⟩
  simp only [Arch.srcW_eq, ← BitVec.toNat_setWidth]
  exact hg

end Sys2Proof.Machine
end

