-- ==== Sys2Proof/Laws/Memory.lean ====
section
/-!
SUPPORT. The laws of memory: every operation that writes it keeps its canonical form, a read after a write gives the bytes
written, and a write leaves every other byte alone.
-/
namespace Sys2Proof.Machine

/-! ### Writing cells -/

/-- Writing cells keeps the canonical form. -/
theorem wf_putCells {m : SMap Byte} (h : SMap.wf 0 m) (cs : List (Nat × Byte)) : SMap.wf 0 (putCells m cs) :=
  SMap.wf_foldl_set cs (fun c => c.1) (fun c => c.2) h

/-- A byte that no cell names reads as before. -/
theorem get_putCells_ne (m : SMap Byte) (cs : List (Nat × Byte)) (a : Nat) (h : ∀ c ∈ cs, c.1 ≠ a) :
    SMap.get 0 (putCells m cs) a = SMap.get 0 m a := by
  unfold putCells
  induction cs generalizing m with
  | nil => rfl
  | cons c t ih =>
    rw [List.foldl_cons, ih _ (fun d hd => h d (List.mem_cons_of_mem _ hd))]
    exact SMap.get_set_ne 0 0 m c.1 a c.2 (Ne.symm (h c List.mem_cons_self))

/-- The addresses of cells that lie side by side. -/
theorem cellsAt_range {off : Nat} {bs : List Byte} {c : Nat × Byte} (h : c ∈ cellsAt off bs) :
    off ≤ c.1 ∧ c.1 < off + bs.length := by
  induction bs generalizing off with
  | nil => simp [cellsAt] at h
  | cons b t ih =>
    simp only [cellsAt, List.mem_cons] at h
    rcases h with h | h
    · subst h; simp
    · have := ih h
      simp only [List.length_cons]
      omega

/-- Bytes outside those written read as before. -/
theorem get_putCells_cellsAt_ne (m : SMap Byte) (off : Nat) (bs : List Byte) (a : Nat) (h : a < off ∨ off + bs.length ≤ a) :
    SMap.get 0 (putCells m (cellsAt off bs)) a = SMap.get 0 m a :=
  get_putCells_ne m _ a (fun c hc => by have := cellsAt_range hc; omega)

/-- A byte written reads as the byte written. -/
theorem get_putCells_cellsAt (m : SMap Byte) (off : Nat) (bs : List Byte) (i : Nat) (h : i < bs.length) :
    SMap.get 0 (putCells m (cellsAt off bs)) (off + i) = bs[i] := by
  induction bs generalizing m off i with
  | nil => simp at h
  | cons b t ih =>
    cases i with
    | zero =>
      show SMap.get 0 (putCells (SMap.set 0 m off b) (cellsAt (off + 1) t)) off = b
      rw [get_putCells_cellsAt_ne _ _ _ _ (.inl (by omega))]
      exact SMap.get_set_self 0 m off b
    | succ j =>
      show SMap.get 0 (putCells (SMap.set 0 m off b) (cellsAt (off + 1) t)) (off + (j + 1)) = t[j]'(by simpa using h)
      rw [← ih (SMap.set 0 m off b) (off + 1) j (by simpa using h)]
      congr 1
      omega

/-- Reading what was written gives the bytes written. -/
theorem getBytes_putCells (m : SMap Byte) (off : Nat) (bs : List Byte) :
    getBytes (putCells m (cellsAt off bs)) off bs.length = bs := by
  apply List.ext_getElem
  · simp [getBytes]
  · intro i h1 h2
    simp only [getBytes, List.getElem_map, List.getElem_range]
    exact get_putCells_cellsAt m off bs i h2

/-! ### Requests -/

/-- A write or atomic keeps the canonical form. -/
theorem Memory.wf_apply {m : Memory} (h : m.wf) (r : MemReq) : (m.apply r).1.wf := by
  unfold Memory.apply
  cases r.op with
  | write cs =>
    simp only
    split
    · exact h
    · exact wf_putCells h cs
  | iadd v | fadd v a b c | swap v d =>
    simp only
    split
    · exact h
    · exact wf_putCells h _

/-- A write or atomic leaves every byte that it does not cover. -/
theorem Memory.get_apply_ne (m : Memory) (r : MemReq) (a : Nat) (h : r.covers a = false) :
    SMap.get 0 (m.apply r).1.mem a = SMap.get 0 m.mem a := by
  unfold Memory.apply
  unfold MemReq.covers at h
  cases hr : r.op with
  | write cs =>
    rw [hr] at h
    simp only at h ⊢
    split
    · rfl
    · exact get_putCells_ne _ _ _ (fun c hc e => by
        rw [List.any_eq_false] at h
        exact h c hc (by simpa using e))
  | iadd v | fadd v x y z | swap v d =>
    rw [hr] at h
    simp only [Bool.and_eq_false_iff, decide_eq_false_iff_not] at h ⊢
    split
    · rfl
    · refine get_putCells_cellsAt_ne _ _ _ _ ?_
      have : ∀ n v, (leBytes n v).length = n := by
        intro n
        induction n with
        | zero => intro v; rfl
        | succ k ih => intro v; simp [leBytes, ih]
      rw [this]
      omega

/-- What a source sees of memory is in canonical form. -/
theorem Memory.wf_seenBy {m : Memory} (h : m.wf) (src : Src) : (m.seenBy src).wf := by
  unfold Memory.seenBy
  generalize m.memq.filter (fun r => decide (r.src = src)) = l
  induction l generalizing m with
  | nil => exact h
  | cons r t ih => exact ih (Memory.wf_apply h r)

/-! ### What leaves every byte of memory alone -/

/-- A run of operations that leave memory alone leaves it alone. -/
theorem mem_foldl {α : Type} (l : List α) (f : State → α → State) (h : ∀ s a, (f s a).m.mem = s.m.mem) (s : State) :
    (l.foldl f s).m.mem = s.m.mem := by
  induction l generalizing s with
  | nil => rfl
  | cons a t ih => rw [List.foldl_cons, ih, h]

/-- A choice between two states that both hold the memory of a third. -/
theorem State.mem_ite {c : Prop} [Decidable c] {a b s : State} (ha : a.m.mem = s.m.mem) (hb : b.m.mem = s.m.mem) :
    (if c then a else b).m.mem = s.m.mem := by
  split
  · exact ha
  · exact hb

@[simp] theorem State.mem_toPort (s : State) (p : Nat) (f : Flit) : (s.toPort p f).m.mem = s.m.mem := by
  unfold State.toPort
  split
  · rfl
  · split <;> rfl

@[simp] theorem State.mem_sendCtl (s : State) (ws : List W64) : (s.sendCtl ws).m.mem = s.m.mem := by
  unfold State.sendCtl
  split
  · rfl
  · simp

@[simp] theorem State.mem_sendPair (s : State) (ty : Nat) (ws : List W64) : (s.sendPair ty ws).m.mem = s.m.mem := by
  unfold State.sendPair
  rw [State.inject_m]

@[simp] theorem State.mem_fixHandoff (s : State) (r : FaultRec) (b : Bool) : (s.fixHandoff r b).m.mem = s.m.mem := by
  unfold State.fixHandoff
  rw [State.wr64_m, State.setBit_m]

@[simp] theorem State.mem_identifyBy (s : State) (r : FaultRec) (f : FaultRec → Nat) : (s.identifyBy r f).m.mem = s.m.mem := by
  unfold State.identifyBy
  split
  · split
    · simp
    · split
      · rfl
      · split
        · simp
        · split
          · simp
          · rfl
  · rfl

@[simp] theorem State.mem_identify (s : State) (r : FaultRec) : (s.identify r).m.mem = s.m.mem :=
  s.mem_identifyBy r _

@[simp] theorem State.mem_queueRec (s : State) (r : FaultRec) : (s.queueRec r).m.mem = s.m.mem := by
  unfold State.queueRec
  split
  · rfl
  · split
    · rw [State.add64_m]
    · split
      · rfl
      · rw [State.setBit_m, State.satInc_m]

@[simp] theorem State.mem_collect (s : State) (r : FaultRec) (src : RecSrc) : (s.collect r src).m.mem = s.m.mem := by
  unfold State.collect
  simp only [State.mem_queueRec, State.mem_identify]
  repeat' split
  all_goals simp

@[simp] theorem State.mem_fault (s : State) (c o a p t d : Nat) : (s.fault c o a p t d).m.mem = s.m.mem := by
  simp [State.fault]

@[simp] theorem State.mem_pushErr (s : State) (e c : Nat) (a : W64) : (s.pushErr e c a).m.mem = s.m.mem := by
  unfold State.pushErr
  split
  · rfl
  · split <;> rfl

@[simp] theorem State.mem_errTo (s : State) (e p c : Nat) (a : W64) : (s.errTo e p c a).m.mem = s.m.mem := by
  unfold State.errTo
  split
  · simp
  · split <;> rfl

@[simp] theorem State.mem_ceEvent (s : State) (off : Nat) : (s.ceEvent off).m.mem = s.m.mem := by
  unfold State.ceEvent
  simp only [State.mem_fault]
  split <;> simp
  · split <;> rfl
  · split <;> rfl

@[simp] theorem State.mem_poisonReport (s : State) (r : MemReq) : (s.poisonReport r).m.mem = s.m.mem := by
  unfold State.poisonReport
  simp only
  split
  · split <;> simp
  · split <;> simp
  · simp

/-- A request that is issued changes no byte of memory. -/
@[simp] theorem State.mem_digestRec (s : State) (e k d b w : Nat) : (s.digestRec e k d b w).m.mem = s.m.mem := rfl

@[simp] theorem State.mem_spend (s : State) (e c p k : Nat) : (s.spend e c p k).1.m.mem = s.m.mem := by
  unfold State.spend
  split
  · rfl
  · split
    · rfl
    · split <;> rfl

@[simp] theorem State.mem_copyOut (s : State) (offs : List Nat) : (s.copyOut offs).m.mem = s.m.mem := by
  unfold State.copyOut
  cases s.pair.rejoinLap with
  | none => rfl
  | some c =>
    by_cases h : s.lap < c
    · simp only [h, decide_true, Bool.not_true, Bool.false_eq_true, if_false]
      exact mem_foldl _ _ (fun t k => by simp only [State.inject_m]) s
    · simp [h]

@[simp] theorem State.mem_log (s : State) (t a : Nat) (b : W64) (p : List W64) : (s.log t a b p).m.mem = s.m.mem := by
  unfold State.log
  split
  · simp only
    split <;> simp
  · rfl

@[simp] theorem State.mem_logWrites (s : State) (r : MemReq) : (s.logWrites r).m.mem = s.m.mem := by
  unfold State.logWrites
  split
  · split
    · rfl
    · split
      · rfl
      · exact mem_foldl _ _ (fun _ _ => by simp) s
  · rfl

@[simp] theorem State.mem_ueEvent (s : State) (off : Nat) : (s.ueEvent off).m.mem = s.m.mem := by
  have h : (s.poisonWord off).m.mem = s.m.mem := by
    unfold State.poisonWord
    split <;> rfl
  unfold State.ueEvent State.ueCount
  simp only [State.mem_fault]
  split <;> simp [h]

@[simp] theorem State.mem_upsetWrite (s : State) (r : MemReq) (u : Upset) : (s.upsetWrite r u).m.mem = s.m.mem := by
  unfold State.upsetWrite
  cases r.op with
  | write cs =>
    by_cases h : (writeWords cs).any (fun w => !w.2) = true
    · cases u <;> simp [h]
    · simp [h]
  | iadd v | fadd v a b c | swap v d => cases u <;> simp

/-- Counting a request at its target changes no byte of memory. -/
@[simp] theorem State.mem_countTarget (s : State) (n off lap : Nat) (b : Bool) :
    (s.countTarget n off lap b).1.m.mem = s.m.mem := by
  have h1 : ∀ (t : State) (k g : Nat), (t.countGrant k g).1.m.mem = t.m.mem := by
    intro t k g
    unfold State.countGrant
    simp only
    split <;> rfl
  have h2 : ∀ (t : State) (k g n : Nat), (t.countSpread k g n).1.m.mem = t.m.mem := fun _ _ _ _ => rfl
  have h3 : ∀ {t u : State} {k g : Nat} {b : Bool}, t.countGrant k g = (u, b) → u.m.mem = t.m.mem :=
    fun {t u k g b} h => by
      have := h1 t k g
      rwa [h] at this
  have h4 : ∀ {t u : State} {k g n : Nat} {b : Bool}, t.countSpread k g n = (u, b) → u.m.mem = t.m.mem :=
    fun {t u k g n b} h => by
      have := h2 t k g n
      rwa [h] at this
  unfold State.countTarget
  simp only
  split
  · rfl
  · split
    · split
      · exact h3 ‹_›
      · split
        · exact (h4 ‹_›).trans (h3 ‹_›)
        · rw [State.satInc_m]
          exact (h4 ‹_›).trans (h3 ‹_›)
    · split
      · exact h3 ‹_›
      · split
        · exact (h4 ‹_›).trans (h3 ‹_›)
        · rw [State.satInc_m]
          exact (h4 ‹_›).trans (h3 ‹_›)
    · exact h1 _ _ _
    · split
      · rfl
      · exact h1 _ _ _
    all_goals rfl

@[simp] theorem State.mem_postReq (s : State) (r : MemReq) : (s.postReq r).m.mem = s.m.mem := by
  unfold State.postReq
  split <;> simp

@[simp] theorem State.mem_postCells (s : State) (r : MemReq) (cs : List (Nat × Byte)) : (s.postCells r cs).m.mem = s.m.mem :=
  mem_foldl _ _ (fun _ _ => by simp) s

@[simp] theorem State.mem_sendFlit (s : State) (f : Flit) : (s.sendFlit f).m.mem = s.m.mem := by
  unfold State.sendFlit
  split <;> simp

@[simp] theorem State.mem_sendPacket (s : State) (e p t : Nat) (ws : List W64) (b : Bool) :
    (s.sendPacket e p t ws b).m.mem = s.m.mem := by
  simp [State.sendPacket]

@[simp] theorem State.mem_noteRemote (s : State) (p e : Nat) (a : W64) (v : Nat) (b : Bool) :
    (s.noteRemote p e a v b).m.mem = s.m.mem := by
  unfold State.noteRemote
  split <;> rfl

@[simp] theorem State.mem_digests (s : State) (e : Nat) (ws : List (Nat × Nat × Nat)) :
    (ws.foldl (fun s w => s.digestRec e 0 w.1 w.2.1 w.2.2) s).m.mem = s.m.mem := by
  induction ws generalizing s with
  | nil => rfl
  | cons a t ih => rw [List.foldl_cons, ih, State.mem_digestRec]

@[simp] theorem State.mem_issueAt (s : State) (e p off : Nat) (ws : List (Nat × Nat × Nat)) (bs : List Byte) (va : W64)
    (b n : Bool) : (s.issueAt e p off ws bs va b n).m.mem = s.m.mem := by
  have h := s.mem_digests e ws
  unfold State.issueAt
  refine State.mem_ite ?_ ?_
  · rw [State.mem_postCells, h]
  · rw [mem_foldl _ _ (fun _ _ => by rw [State.mem_noteRemote, State.mem_sendPacket]), h]

@[simp] theorem State.mem_issueWriteAs (s : State) (e d : Nat) (bs : List Byte) (va : W64) (b n : Bool) :
    (s.issueWriteAs e d bs va b n).m.mem = s.m.mem :=
  s.mem_issueAt e _ _ _ bs va b n

@[simp] theorem State.mem_engineWrite (s : State) (e d : Nat) (bs : List Byte) (va : W64) :
    (s.engineWrite e d bs va).m.mem = s.m.mem := by
  simp [State.engineWrite, State.issueWrite]

@[simp] theorem State.mem_ropdWrite (s : State) (e : Nat) (q : SwapOut) (v : W64) : (s.ropdWrite e q v).m.mem = s.m.mem := by
  unfold State.ropdWrite
  generalize leBytes 8 v.toNat = bs
  generalize q.pieces = ps
  generalize s.epochOf e = n
  induction ps generalizing s bs with
  | nil => rfl
  | cons p t ih =>
    rw [List.foldl_cons, ih]
    split <;> simp [State.issueWrite]

@[simp] theorem State.mem_drainSwaps (s : State) (e : Nat) (l : List SwapOut) : (s.drainSwaps e l).m.mem = s.m.mem := by
  induction l generalizing s with
  | nil => rfl
  | cons q t ih =>
    unfold State.drainSwaps
    split
    · rfl
    · exact ih s
    · rw [ih, State.mem_ropdWrite]

@[simp] theorem State.mem_swapEnds (s : State) (e i : Nat) (o : Option W64) : (s.swapEnds e i o).m.mem = s.m.mem := by
  simp [State.swapEnds]

@[simp] theorem State.mem_swapLost (s : State) (r : MemReq) : (s.swapLost r).m.mem = s.m.mem := by
  unfold State.swapLost
  split
  · split <;> simp
  · rfl

@[simp] theorem State.mem_respond (s : State) (p r c l t : Nat) (bs : List Byte) : (s.respond p r c l t bs).m.mem = s.m.mem :=
  mem_foldl _ _ (fun _ _ => by simp) s

@[simp] theorem State.mem_answer (s : State) (i t : Nat) (bs : List Byte) : (s.answer i t bs).m.mem = s.m.mem := by
  unfold State.answer
  split
  · rfl
  · exact mem_foldl _ _ (fun _ _ => by simp) _

@[simp] theorem State.mem_loseReq (s : State) (r : MemReq) : (s.loseReq r).m.mem = s.m.mem := by
  unfold State.loseReq State.returnOld
  rw [State.mem_swapLost]
  split <;> simp

/-! ### A request that is performed (R300, R305, R306, R416) -/

/-- A request performed leaves memory as the request makes it, or, where it is discarded, as it is. -/
theorem State.performReq_mem (s : State) (r : MemReq) (u : Upset) :
    (s.performReq r u).m.mem = s.m.mem ∨
      ∃ m : Memory, m.mem = s.m.mem ∧ (s.performReq r u).m.mem = (m.apply r).1.mem := by
  have hd : ∀ t : State, t.m.mem = s.m.mem → ((t.upsetWrite r u).m).mem = s.m.mem := fun t h => by simp [h]
  unfold State.performReq
  simp only
  split
  · left
    split <;> simp [State.dropReq]
  · split
    · left
      simp [State.dropReq]
    · split
      · left
        simp [State.dropReq]
      · right
        refine ⟨((s.dropReq r).upsetWrite r u).m, by simp [State.dropReq], ?_⟩
        split
        · split <;> simp
        · simp

/-- A request performed keeps the canonical form. -/
theorem State.wf_performReq {s : State} (h : s.m.wf) (r : MemReq) (u : Upset) : (s.performReq r u).m.wf := by
  rcases s.performReq_mem r u with k | ⟨m, hm, k⟩
  · show SMap.wf 0 _
    rw [k]
    exact h
  · have hw : m.wf := by
      show SMap.wf 0 _
      rw [hm]
      exact h
    show SMap.wf 0 _
    rw [k]
    exact Memory.wf_apply hw r

/-- A request performed leaves every byte that it does not cover. -/
theorem State.get_performReq_ne (s : State) (r : MemReq) (u : Upset) (a : Nat) (h : r.covers a = false) :
    SMap.get 0 (s.performReq r u).m.mem a = SMap.get 0 s.m.mem a := by
  rcases s.performReq_mem r u with k | ⟨m, hm, k⟩
  · rw [k]
  · rw [k, Memory.get_apply_ne m r a h, hm]

/-- A save of a placement keeps the canonical form. -/
theorem State.wf_putNow {s : State} (h : s.m.wf) (src : Src) (p dpa : Nat) (bs : List Byte) : (s.putNow src p dpa bs).m.wf := by
  unfold State.putNow
  simp only
  generalize splitCells (unitBytes (s.tier (dpa % 2 ^ 46))) (cellsAt (dpa % 2 ^ 46) bs) = l
  induction l generalizing s with
  | nil => exact h
  | cons c t ih => exact ih (State.wf_performReq h _ _)

/-! ### Dropping memory -/

/-- Re-initialising the engines leaves the cells outside the Home Banks, and no others. -/
theorem State.mem_clearEngines (s : State) :
    s.clearEngines.m.mem = s.m.mem.filter (fun p => !(Nat.ble 0x280000000000 p.1 && Nat.blt p.1 0x280008000000)) := by
  unfold State.clearEngines
  simp only
  rw [mem_foldl _ _ (fun _ _ => State.mem_loseReq _ _)]

/-- Re-initialising the engines keeps the canonical form. -/
theorem State.wf_clearEngines {s : State} (h : s.m.wf) : s.clearEngines.m.wf := by
  show SMap.wf 0 _
  rw [State.mem_clearEngines]
  exact SMap.wf_filter h _

/-- A byte outside the Home Banks is as before. -/
theorem State.get_clearEngines (s : State) (a : Nat) (h : a < 0x280000000000 ∨ 0x280008000000 ≤ a) :
    SMap.get 0 s.clearEngines.m.mem a = SMap.get 0 s.m.mem a := by
  rw [State.mem_clearEngines]
  refine SMap.get_filter_ne 0 s.m.mem _ a (fun _ => ?_)
  simp only [Bool.not_eq_true', Bool.and_eq_false_iff]
  rcases h with h | h
  · exact .inl (Bool.eq_false_iff.2 (fun k => by have := Nat.le_of_ble_eq_true k; omega))
  · exact .inr (Bool.eq_false_iff.2 (fun k => by
      have : a + 1 ≤ 0x280008000000 := Nat.le_of_ble_eq_true k
      omega))

/-- The bytes that a reset keeps are in canonical form. -/
theorem State.wf_afterReset {s : State} (h : s.cutFlash.m.wf) (md : Mode) : (s.afterReset md).m.wf := by
  show SMap.wf 0 _
  unfold State.afterReset State.ordDefaults
  simp only
  split <;> exact SMap.wf_filter h _

end Sys2Proof.Machine
end

