-- ==== Sys2Proof/WellFormed.lean ====
section
/-!
DEFINITION. The well-formed commands: those whose operands name things that the part has. A number that names an
engine, a port, a queue, a bank or another unit must lie in its range, and the prefix bytes of an instruction must be
prefix bytes with as many extension bytes as they announce (R79, R80).
-/
namespace Sys2Proof

/-- Engines 0 to 511, and 512 for the Steward's Sequencer. -/
def okEngine (e : Nat) : Bool := decide (e ≤ 512)

/-- A crossbar master (Table 1.2). -/
def okMaster (m : Nat) : Bool := decide (m < 42)

/-- Extension bytes that the prefix bytes announce (Table 3.4). -/
def extBytes (p : Pfx) : Nat :=
  p.bytes.foldl (fun n b => if b = 0xF4 then 2 else if b = 0xF5 then 4 else if b = 0xF6 then 8 else n) 0

/-- At most three bytes, all at or above 0xE0, and extension bytes only as announced (R79, R80). -/
def okPfx (p : Pfx) : Bool :=
  decide (p.bytes.length ≤ 3) && p.bytes.all (fun b => decide (0xE0 ≤ b.toNat)) &&
    decide (p.ext.toNat < 2 ^ (8 * extBytes p))

/-- A debug access of memory: within one 64-byte line, outside the register window, which the management commands reach; a
write begins at the line's start. -/
def okDbg (x : DbgOp) : Bool :=
  match x with
  | .select => true
  | .read d n => decide (1 ≤ n ∧ d.toNat % 64 + n ≤ 64 ∧ d.toNat % 2 ^ 46 / 2 ^ 30 ≠ 0xFC00)
  | .write d _ _ => decide (d.toNat % 64 = 0 ∧ d.toNat % 2 ^ 46 / 2 ^ 30 ≠ 0xFC00)

/-- The operands of a command are in range. -/
def wellFormed : Instr → Bool
  | .registerWrite m off _ _ => okMaster m && decide (off < 0x40000000)
  | .rcRead m off _ => okMaster m && decide (off < 0x40000000)
  | .lowHalfRead m off => okMaster m && decide (off < 0x40000000)
  | .lowHalfWrite m off _ => okMaster m && decide (off < 0x40000000)
  | .highHalfWrite m off _ => okMaster m && decide (off < 0x40000000)
  | .kick m _ => okMaster m
  | .stewardWatchdog => true
  | .lapBoundary => true
  | .preemptionSweep e _ => okEngine e
  | .placementRestore e => okEngine e
  | .sqFetch => true
  | .submit _ _ => true
  | .costVectorRead _ => true
  | .decision _ => true
  | .cancel => true
  | .engineCycleCounterExhausted e => okEngine e
  | .openTask e => okEngine e
  | .bookingMove e => okEngine e
  | .staTtIndex m _ => okMaster m
  | .complete q => decide (q < 64)
  | .accept q => decide (q < 64)
  | .notice q => decide (q < 64)
  | .nop e p => okEngine e && okPfx p
  | .tend e p => okEngine e && okPfx p
  | .ifence e p => okEngine e && okPfx p
  | .bpflush e p => okEngine e && okPfx p
  | .bpbar e p => okEngine e && okPfx p
  | .bpallow e p => okEngine e && okPfx p
  | .rfe e p => okEngine e && okPfx p
  | .rfx e p => okEngine e && okPfx p
  | .dsync e p => okEngine e && okPfx p
  | .tsync e p => okEngine e && okPfx p
  | .vwait e p => okEngine e && okPfx p
  | .brk e p => okEngine e && okPfx p
  | .lexit e p => okEngine e && okPfx p
  | .jr e p _ => okEngine e && okPfx p
  | .jlr e p _ => okEngine e && okPfx p
  | .push e p _ => okEngine e && okPfx p
  | .pop e p _ => okEngine e && okPfx p
  | .tlbi e p _ => okEngine e && okPfx p
  | .rdpkr e p _ => okEngine e && okPfx p
  | .wrpkr e p _ => okEngine e && okPfx p
  | .evsig e p _ => okEngine e && okPfx p
  | .waite e p _ => okEngine e && okPfx p
  | .time e p _ => okEngine e && okPfx p
  | .lapn e p _ => okEngine e && okPfx p
  | .enid e p _ => okEngine e && okPfx p
  | .ldsd e p _ => okEngine e && okPfx p
  | .stsd e p _ => okEngine e && okPfx p
  | .add e p _ => okEngine e && okPfx p
  | .sub e p _ => okEngine e && okPfx p
  | .and e p _ => okEngine e && okPfx p
  | .or e p _ => okEngine e && okPfx p
  | .xor e p _ => okEngine e && okPfx p
  | .andn e p _ => okEngine e && okPfx p
  | .shl e p _ => okEngine e && okPfx p
  | .shr e p _ => okEngine e && okPfx p
  | .sar e p _ => okEngine e && okPfx p
  | .rol e p _ => okEngine e && okPfx p
  | .mul e p _ => okEngine e && okPfx p
  | .mulh e p _ => okEngine e && okPfx p
  | .mulhu e p _ => okEngine e && okPfx p
  | .div e p _ => okEngine e && okPfx p
  | .divu e p _ => okEngine e && okPfx p
  | .rem e p _ => okEngine e && okPfx p
  | .remu e p _ => okEngine e && okPfx p
  | .cmp e p _ => okEngine e && okPfx p
  | .min e p _ => okEngine e && okPfx p
  | .max e p _ => okEngine e && okPfx p
  | .minu e p _ => okEngine e && okPfx p
  | .maxu e p _ => okEngine e && okPfx p
  | .slt e p _ => okEngine e && okPfx p
  | .sltu e p _ => okEngine e && okPfx p
  | .mov e p _ => okEngine e && okPfx p
  | .clz e p _ => okEngine e && okPfx p
  | .ctz e p _ => okEngine e && okPfx p
  | .popc e p _ => okEngine e && okPfx p
  | .bswap e p _ => okEngine e && okPfx p
  | .sext e p _ => okEngine e && okPfx p
  | .zext e p _ => okEngine e && okPfx p
  | .addc e p _ => okEngine e && okPfx p
  | .addi e p _ => okEngine e && okPfx p
  | .andi e p _ => okEngine e && okPfx p
  | .ori e p _ => okEngine e && okPfx p
  | .xori e p _ => okEngine e && okPfx p
  | .shli e p _ => okEngine e && okPfx p
  | .shri e p _ => okEngine e && okPfx p
  | .sari e p _ => okEngine e && okPfx p
  | .roli e p _ => okEngine e && okPfx p
  | .muli e p _ => okEngine e && okPfx p
  | .cmpi e p _ => okEngine e && okPfx p
  | .slti e p _ => okEngine e && okPfx p
  | .sltiu e p _ => okEngine e && okPfx p
  | .movi e p _ => okEngine e && okPfx p
  | .tsti e p _ => okEngine e && okPfx p
  | .ld e p _ => okEngine e && okPfx p
  | .lds e p _ => okEngine e && okPfx p
  | .st e p _ => okEngine e && okPfx p
  | .ldf e p _ => okEngine e && okPfx p
  | .stf e p _ => okEngine e && okPfx p
  | .ldq e p _ => okEngine e && okPfx p
  | .stq e p _ => okEngine e && okPfx p
  | .lea e p _ => okEngine e && okPfx p
  | .ldx e p _ => okEngine e && okPfx p
  | .ldsx e p _ => okEngine e && okPfx p
  | .stx e p _ => okEngine e && okPfx p
  | .ldfx e p _ => okEngine e && okPfx p
  | .stfx e p _ => okEngine e && okPfx p
  | .ldqx e p _ => okEngine e && okPfx p
  | .stqx e p _ => okEngine e && okPfx p
  | .leax e p _ => okEngine e && okPfx p
  | .beq e p _ => okEngine e && okPfx p
  | .bne e p _ => okEngine e && okPfx p
  | .blt e p _ => okEngine e && okPfx p
  | .bge e p _ => okEngine e && okPfx p
  | .ble e p _ => okEngine e && okPfx p
  | .bgt e p _ => okEngine e && okPfx p
  | .bltu e p _ => okEngine e && okPfx p
  | .bgeu e p _ => okEngine e && okPfx p
  | .bleu e p _ => okEngine e && okPfx p
  | .bgtu e p _ => okEngine e && okPfx p
  | .bvs e p _ => okEngine e && okPfx p
  | .bvc e p _ => okEngine e && okPfx p
  | .bmi e p _ => okEngine e && okPfx p
  | .bpl e p _ => okEngine e && okPfx p
  | .bal e p _ => okEngine e && okPfx p
  | .call e p _ => okEngine e && okPfx p
  | .fadd e p _ => okEngine e && okPfx p
  | .fsub e p _ => okEngine e && okPfx p
  | .fmul e p _ => okEngine e && okPfx p
  | .fdiv e p _ => okEngine e && okPfx p
  | .fsqrt e p _ => okEngine e && okPfx p
  | .fmin e p _ => okEngine e && okPfx p
  | .fmax e p _ => okEngine e && okPfx p
  | .fcmp e p _ => okEngine e && okPfx p
  | .fcvtfi e p _ => okEngine e && okPfx p
  | .fcvtif e p _ => okEngine e && okPfx p
  | .fneg e p _ => okEngine e && okPfx p
  | .fabs e p _ => okEngine e && okPfx p
  | .fmov e p _ => okEngine e && okPfx p
  | .fmvfg e p _ => okEngine e && okPfx p
  | .fmvgf e p _ => okEngine e && okPfx p
  | .fma e p _ => okEngine e && okPfx p
  | .qadd e p _ => okEngine e && okPfx p
  | .qsub e p _ => okEngine e && okPfx p
  | .qmul e p _ => okEngine e && okPfx p
  | .qand e p _ => okEngine e && okPfx p
  | .qor e p _ => okEngine e && okPfx p
  | .qxor e p _ => okEngine e && okPfx p
  | .qmin e p _ => okEngine e && okPfx p
  | .qmax e p _ => okEngine e && okPfx p
  | .qminu e p _ => okEngine e && okPfx p
  | .qmaxu e p _ => okEngine e && okPfx p
  | .qceq e p _ => okEngine e && okPfx p
  | .qcgt e p _ => okEngine e && okPfx p
  | .qcgtu e p _ => okEngine e && okPfx p
  | .qshuf e p _ => okEngine e && okPfx p
  | .qfadd e p _ => okEngine e && okPfx p
  | .qfmul e p _ => okEngine e && okPfx p
  | .mfs e p _ => okEngine e && okPfx p
  | .mts e p _ => okEngine e && okPfx p
  | .loop e p _ => okEngine e && okPfx p
  | .loopi e p _ => okEngine e && okPfx p
  | .hold e p _ => okEngine e && okPfx p
  | .trap e p _ => okEngine e && okPfx p
  | .vmov e p _ => okEngine e && okPfx p
  | .valu e p _ => okEngine e && okPfx p
  | .vmul e p _ => okEngine e && okPfx p
  | .vdiv e p _ => okEngine e && okPfx p
  | .vfp e p _ => okEngine e && okPfx p
  | .vcmp e p _ => okEngine e && okPfx p
  | .vcomp e p _ => okEngine e && okPfx p
  | .vexp e p _ => okEngine e && okPfx p
  | .vscan e p _ => okEngine e && okPfx p
  | .vsegr e p _ => okEngine e && okPfx p
  | .vred e p _ => okEngine e && okPfx p
  | .vhash e p _ => okEngine e && okPfx p
  | .vprobe e p _ => okEngine e && okPfx p
  | .vscadd e p _ => okEngine e && okPfx p
  | .vscswp e p _ => okEngine e && okPfx p
  | .vmerge e p _ => okEngine e && okPfx p
  | .vsort e p _ => okEngine e && okPfx p
  | .vkcmp e p _ => okEngine e && okPfx p
  | .vdadd e p _ => okEngine e && okPfx p
  | .vdsub e p _ => okEngine e && okPfx p
  | .vcvt e p _ => okEngine e && okPfx p
  | .engineHang e _ => okEngine e
  | .fetch e _ => okEngine e
  | .exceptionEntry e vec detail _ => okEngine e && decide (vec < 256) && decide (detail < 65536)
  | .interrupt e => okEngine e
  | .error e => okEngine e
  | .holdcntZero e => okEngine e
  | .poisonWrite e _ => okEngine e
  | .group e tag _ => okEngine e && decide (tag < 24)
  | .streamRequest e tag sreg => okEngine e && decide (tag < 24) && decide (sreg < 8)
  | .beat e tag sreg _ => okEngine e && decide (tag < 24) && decide (sreg < 8)
  | .subBankGrant bank sub _ => decide (bank < 512) && decide (sub < 16)
  | .atomic bank _ _ => decide (bank < 512)
  | .lineSlot dev _ _ => decide (dev < 4)
  | .granule ch _ _ => decide (ch < 12)
  | .maintenanceWindow ch _ _ => decide (ch < 12)
  | .writeBack _ => true
  | .expanderResponse port _ _ => decide (port < 2)
  | .expanderTimeout port => decide (port < 2)
  | .walk e _ _ _ => okEngine e
  | .trainingAttempt p => decide (p < 3)
  | .detect p _ _ => decide (p < 3)
  | .caps p f _ => decide (p < 3) && decide (f.part < 32)
  | .eq p => decide (p < 3)
  | .check p _ => decide (p < 3)
  | .align p _ _ => decide (p < 3)
  | .frame p => decide (p < 3)
  | .baton p _ _ _ => decide (p < 3)
  | .holdover => true
  | .cell p _ => decide (p < 3)
  | .idle p f _ => decide (p < 3) && decide (f.body.length = 32)
  | .pkt p f _ => decide (p < 3) && decide (f.body.length = 32)
  | .data p f _ => decide (p < 3) && decide (f.body.length = 32)
  | .ack p f _ => decide (p < 3) && decide (f.body.length = 32)
  | .linkDown p => decide (p < 3)
  | .retrain p => decide (p < 3)
  | .replayTimeout p => decide (p < 3)
  | .rd => true
  | .wr => true
  | .wrl => true
  | .atPkt => true
  | .pred => true
  | .evt => true
  | .tlbiMsg => true
  | .flt _ _ => true
  | .breakMsg => true
  | .join => true
  | .scale => true
  | .doneMsg => true
  | .resend dst vc => decide (dst < 32) && decide (vc < 4)
  | .lossOfSignal p => decide (p < 3)
  | .drainHoldEnd => true
  | .bypassClose => true
  | .bypassOpen => true
  | .hostcmd _ _ _ => true
  | .hostwr _ _ _ _ _ => true
  | .regwr _ off _ => decide (off < 0x40000000)
  | .events _ _ => true
  | .lapend _ _ => true
  | .posted tti sq cid => decide (tti < 65536) && decide (sq < 64) && decide (cid < 65536)
  | .ready _ _ => true
  | .tendd tti epoch eng _ => decide (tti < 65536) && decide (epoch < 65536) && decide (eng < 512)
  | .lapdig _ _ engines => decide (engines.length = 512)
  | .fence _ => true
  | .release => true
  | .handoff => true
  | .fenceEnd part epoch => decide (part < 32) && decide (epoch < 65536)
  | .reRun tti => decide (tti < 65536)
  | .fltPop m _ => okMaster m
  | .pairRejoin m _ => okMaster m
  | .rejoin _ => true
  | .pulse c code _ => decide (c < 256) && decide (code < 1024)
  | .evtFire m _ _ => okMaster m
  | .dom m _ _ => okMaster m
  | .evtFlag m k _ => okMaster m && decide (k < 8)
  | .evtGroupEn m _ _ _ => okMaster m
  | .closed m c => okMaster m && decide (c < 256)
  | .compare k => decide (k < 64)
  | .cmpValue m k _ => okMaster m && decide (k < 64)
  | .cmpCtl m k _ => okMaster m && decide (k < 64)
  | .zero j => decide (j < 32)
  | .matchEvt j => decide (j < 32)
  | .start j => decide (j < 32)
  | .stop j => decide (j < 32)
  | .reset j => decide (j < 32)
  | .loadnow j => decide (j < 32)
  | .cdtCount m j _ => okMaster m && decide (j < 32)
  | .pin i _ _ => decide (i < 16)
  | .stuck i => decide (i < 16)
  | .hostSqTail m q _ => okMaster m && decide (q < 64)
  | .hostCqHead m q _ => okMaster m && decide (q < 64)
  | .hostSqCfg m q _ => okMaster m && decide (q < 64)
  | .hostCqCfg m q _ => okMaster m && decide (q < 64)
  | .purge m q => okMaster m && decide (q < 64)
  | .cxlMemRead hpa n => decide (hpa % 64 = 0) && decide (n = 64)
  | .cxlMemWrite hpa _ _ => decide (hpa % 64 = 0)
  | .commit n _ _ _ => decide (n < 4)
  | .hostLinkDown => true
  | .hotReset => true
  | .perstN => true
  | .functionLevelReset => true
  | .d3hot => true
  | .enterDusk => true
  | .enterService => true
  | .faultRead => true
  | .keepRead => true
  | .unsupported => true
  | .powerOn _ => true
  | .vddCoreRemoved _ => true
  | .resetNAsserted => true
  | .pgood _ => true
  | .resetNReleased => true
  | .dawn _ => true
  | .prepComplete _ => true
  | .modeTransition => true
  | .redawn m _ => okMaster m
  | .replay m _ => okMaster m
  | .flashRead m => okMaster m
  | .flashProgram m => okMaster m
  | .flashErase m => okMaster m
  | .keepReg m i _ _ => okMaster m && decide (i < 1024)
  | .post => true
  | .test _ _ => true
  | .record => true
  | .toHold => true
  | .stateChoice c => decide (c < 32)
  | .wake c => decide (c < 32)
  | .earlyWake c => decide (c < 32)
  | .warning rail => decide (rail < 8)
  | .warningEnd rail => decide (rail < 8)
  | .supplyReset _ => true
  | .supplyRecovery => true
  | .clockLoss _ => true
  | .thermalWarning _ _ => true
  | .trip _ _ => true
  | .blockWrite => true
  | .logEntry => true
  | .freeze m _ => okMaster m
  | .extest => true
  | .samplePreload _ => true
  | .idcode => true
  | .clamp => true
  | .highz => true
  | .extestPulse => true
  | .extestTrain => true
  | .dbgAccess x => okDbg x
  | .bypass => true
  | .trstN => true
  | .clockRecovery => true
  | .thermalWarningEnd => true
  | .hostLinkUp speed width cxl => decide (speed < 8) && decide (width < 32) && decide (cxl < 4)
  | .d0 => true
  | .msiXUnmask vec => decide (vec < 128)
  | .flashCommandEnd _ => true
  | .eqTimeout p => decide (p < 3)

end Sys2Proof
end

