-- ==== Sys2Proof/Tests/Slice0.lean ====
section
/-!
SUPPORT. Tests on fixed values, and for each statement with hypotheses a state and operands that meet them (a witness, so that
no statement is about nothing). Each is closed by evaluation in the kernel.
-/
namespace Sys2Proof.Tests

set_option Elab.async false
open Sys2Proof.Machine

/-! ### Small states -/

/-- A part in SOLO mode with its Steward up. -/
def solo : State := { State.reset with mode := .solo }

/-- No prefix bytes and no checker. -/
def noPfx : Pfx := ⟨[], 0, .good⟩

/-- A width prefix of `k`. -/
def wPfx (k : Nat) : Pfx := ⟨[BitVec.ofNat 8 (0xF0 + k)], 0, .good⟩

/-- A placement that has been restored. -/
def placed (tti lap : Nat) : Placement := ⟨tti, lap, false, 1, ⟨100, 0, []⟩, 0, true, 0x400000⟩

/-- The registers of a running engine: Supervisor, no translation. -/
def arch0 : Arch := { Arch.init with psr := 1, g := [(3, 0x1000), (4, 5), (5, 0x80)] }

/-- SOLO with engine 0 running Task 7 with registers `a`. -/
def runWith (a : Arch) : State :=
  { solo with engines := [(0, { Engine.init with running := true, place := some (placed 7 0), arch := a })],
              sta := { solo.sta with tasks := [(7, { Task.empty with st := .running, epoch := 1, lapsLeft := 1 })] } }

/-- SOLO with engine 0 running. -/
def run0 : State := runWith arch0

/-- The Steward with registers `a`. -/
def stewWith (a : Arch) : State := { solo with engines := [(512, { Engine.init with arch := a })] }

/-- A part in a mode. -/
def inMode (m : Mode) : State := { State.reset with mode := m }

/-- A port in training state `n`. -/
def atLts (s : State) (p n : Nat) : State := s.setLts p n

/-- A Lead that forwards. -/
def lead : State := { inMode .lead with regs := [(Reg.pairCfg.off, 1)] }
/-- A Pacer. -/
def trail : State := { inMode .trail with regs := [(Reg.pairCfg.off, 2)], pair := { State.reset.pair with lapendRx := some (0, 0) } }

/-- SERVICE mode. -/
def svc : State := inMode .service


/-- A posted write of engine 0 to one byte at 0x1000. -/
def reqW : MemReq := (Src.engine 0 0).req 1 0x1000 (.write [(0x1000, 1)]) 0 true 0

/-- The value that an entry's read gives. -/
def entryValue (r : EntryRead) : Option Nat := match r with | .value v => some v | .fault _ | .waits => none

/-- The bytes of a frame that was read. -/
def frameBytes (r : FrameRead) : Option (List Byte) := match r with | .bytes b => some b | .trap _ _ _ | .waits => none

/-- All words of a frame have been pushed. -/
def pushedAll (r : PushEnd) : Bool := match r with | .done => true | .fault _ | .waits _ _ => false
/-! ### Integer, floating-point and short-vector instructions -/

theorem wit_execute : ∀ op ∈ [0x20, 0x21, 0x22, 0x2A, 0x2D, 0x31, 0x39, 0x40, 0x49, 0x4E, 0x90, 0x97, 0x9D, 0xA0, 0xAD, 0xAF],
    run0.executes 0 noPfx op 0 = true ∧ run0.executes 0 (wPfx 2) op 0 = true ∧ solo.executes 512 noPfx op 0 = true := by
  decide +kernel

/-- A sum and a difference at the edge of the range with PSR.OVE set, and a divisor that is not 0. -/
theorem wit_noOverflow :
    (127#8).toInt + (0#8).toInt = (127#8 + 0#8).toInt ∧ (-128#8).toInt - (0#8).toInt = (-128#8 - 0#8).toInt ∧
    (-1#8).toInt * (127#8).toInt = (-1#8 * 127#8).toInt ∧ (-127#8) ≠ BitVec.intMin 8 := by decide +kernel

/-- OverflowTraps, DivideByZeroTraps: PSR.OVE with operands that overflow, and a zero divisor. -/
theorem wit_overflow :
    let a : Arch := { arch0 with psr := 0x81, g := [(1, 0x7FFFFFFFFFFFFFFF), (2, 1), (3, 0x8000000000000000), (4, 0xFFFFFFFFFFFFFFFF)] }
    let s := runWith a
    (s.eng 0).arch.ove = true ∧ s.executes 0 noPfx 0x20 0 = true ∧
    ((s.eng 0).arch.opnd 64 1).toInt + ((s.eng 0).arch.opnd 64 2).toInt ≠ ((s.eng 0).arch.opnd 64 1 + (s.eng 0).arch.opnd 64 2).toInt ∧
    ((s.eng 0).arch.opnd 64 3).toInt - ((s.eng 0).arch.opnd 64 2).toInt ≠ ((s.eng 0).arch.opnd 64 3 - (s.eng 0).arch.opnd 64 2).toInt ∧
    ((s.eng 0).arch.opnd 64 3).toInt * ((s.eng 0).arch.opnd 64 3).toInt ≠ ((s.eng 0).arch.opnd 64 3 * (s.eng 0).arch.opnd 64 3).toInt ∧
    (s.eng 0).arch.opnd 64 3 = BitVec.intMin 64 ∧ (s.eng 0).arch.opnd 64 4 = -1#64 ∧ (s.eng 0).arch.opnd 64 9 = 0 := by decide +kernel

/-- BitCountComplete: both ends of the count. -/
theorem wit_bitCount : (arch0.opnd 64 9) = 0 ∧ (arch0.opnd 64 4).getLsbD 0 = true := by decide +kernel

/-- ImmResult: immediates at both ends, with and without extension bytes. -/
theorem wit_immediate : immCause noPfx 0 = 0 ∧ immCause noPfx 16383 = 0 ∧ immCause ⟨[0xF4], 0xFFFF, .good⟩ 1 = 0 ∧
    immCause ⟨[0xF6], 5, .good⟩ 0 = 0 := by decide +kernel

/-- NanAndZeroRules: a signalling NaN, the second operand a NaN, zeros, and a finite number by a zero, in both formats. -/
theorem wit_nan : f64.isNan 0x7FF0000000000001 = true ∧ f64.isNan 1 = false ∧ f32.isNan 0x7F800001 = true ∧
    0x8000000000000000 % f64.signBit = 0 ∧ 0 < 1 % f64.signBit ∧ 1 % f64.signBit < f64.infBits ∧ f32.signBit = 2 ^ 31 := by
  decide +kernel

/-! ### Branches, loops and what is not executed -/

theorem wit_branch : ∀ op ∈ [0x80, 0x84, 0x8D, 0x8E, 0x8F, 0x10, 0x11, 0x0C], run0.executes 0 noPfx op 0 = true := by decide +kernel

/-- RetirementAndEndTest: a taken delay slot, no level, an end not reached, a repeat, a close and two levels at one address. -/
theorem wit_endTest :
    let a := { arch0 with pc := 0x100 }
    let l1 := { a with psr := 1 ||| 0x100, le := [(0, 0x104)], lc := [(0, 2)], ls := [(0, 0x40)] }
    let l2 := { a with psr := 1 ||| 0x200, le := [(0, 0x104), (1, 0x104)], lc := [(0, 2), (1, 1)], ls := [(0, 0x40), (1, 0x80)] }
    a.ld = 0 ∧ l1.ld = 1 ∧ l1.pc + 4 = SMap.get 0 l1.le 0 ∧ l1.pc + 2 ≠ SMap.get 0 l1.le 0 ∧ 1 < (SMap.get 0 l1.lc 0).toNat ∧
    (SMap.get 0 { l1 with lc := [(0, 1)] }.lc 0).toNat ≤ 1 ∧
    l2.ld = 2 ∧ l2.pc + 4 = SMap.get 0 l2.le 1 ∧ (SMap.get 0 l2.lc 1).toNat ≤ 1 ∧ l2.pc + 4 = SMap.get 0 l2.le 0 ∧
    1 < (SMap.get 0 l2.lc 0).toNat := by decide +kernel

/-- LoopComplete: the third level, with a count of 0 and of 1023. -/
theorem wit_loop :
    let s := runWith { arch0 with psr := 1 ||| 0x200 }
    (s.eng 0).arch.ld < 3 ∧ s.executes 0 noPfx 0xB2 0 = true ∧ s.executes 0 noPfx 0xB3 0 = true ∧ (s.eng 0).arch.rdG 9 = 0 ∧
    (s.eng 0).arch.rdG 4 ≠ 0 ∧ BitVec.ofNat 64 ((31#5 ++ 31#5 : BitVec 10)).toNat ≠ 0 := by decide +kernel

/-- NotExecuted, IllegalAndPrivileged: an annulled slot, a false predicate, a reserved prefix and a User engine. -/
theorem wit_notExecuted :
    let slot := runWith { arch0 with ds := some ⟨true, true, 0⟩ }
    let user := runWith { arch0 with psr := 0 }
    slot.issues 0 = true ∧ (slot.eng 0).arch.selects noPfx = false ∧ (run0.eng 0).arch.selects ⟨[0xE0], 0, .good⟩ = false ∧
    run0.issues 0 = true ∧ (run0.eng 0).arch.selects ⟨[0xF3], 0, .good⟩ = true ∧
    (run0.eng 0).arch.illegal 0 ⟨[0xF3], 0, .good⟩ 0x20 0 ≠ 0 ∧
    user.issues 0 = true ∧ (user.eng 0).arch.selects noPfx = true ∧ (user.eng 0).arch.illegal 0 noPfx 0x03 0 = 0 ∧
    isPriv 0x14 = true ∧ (user.eng 0).arch.sup = false := by decide +kernel
/-! ### Control and system instructions -/

theorem wit_system : ∀ op ∈ [0x00, 0x04, 0x05, 0x15, 0x16, 0x19, 0x1A, 0x1B, 0xB4, 0x08, 0x0A, 0x02, 0x09, 0x03, 0x0B, 0xB5,
    0x14, 0xB0, 0xB1, 0x17, 0x18, 0x01, 0x06], run0.executes 0 noPfx op 0 = true := by decide +kernel

/-- SynchronisationComplete: drained, and held by a write that is not performed. -/
theorem wit_drained :
    let s : State := { run0 with m := { run0.m with memq := [reqW] } }
    run0.drained 0 = true ∧ run0.writesDone 0 = true ∧ (run0.eng 0).tsyncLap = none ∧
    s.drained 0 = false ∧ s.writesDone 0 = false ∧ s.executes 0 noPfx 0x08 0 = true ∧ s.executes 0 noPfx 0x09 0 = true := by
  decide +kernel

/-- SynchronisationComplete: TSYNC after a TLBI DOMAIN of Lap 5, at cycle 1,024 of Lap 8, with the ring done. -/
theorem wit_tsync :
    let r := run0.updEng 0 (fun x => { x with tsyncLap := some 5 })
    let s : State := { r with tb := 8 * run0.lapTicks + run0.tick1024 }
    s.executes 0 noPfx 0x09 0 = true ∧ (s.eng 0).tsyncLap = some 5 ∧ 5 + 3 ≤ s.lap ∧ s.at1024 = true ∧ s.writesDone 0 = true ∧
    s.ringDone 6 = true := by decide +kernel

/-- SystemRegisterMovesComplete: a system register of each kind that User may not and may reach. -/
theorem wit_sysReg : sysReg 0 = some .psr ∧ ((run0.eng 0).arch.sup || SysReg.psr.user false) = true ∧ (run0.eng 0).vinsts = [] ∧
    (sysReg 1).isSome = true := by decide +kernel

/-- EvsigComplete, WaiteComplete: a channel that engine 0 owns and that lists the software producer, a Domain channel, a flag that
is set and one that is not. -/
theorem wit_evsig :
    let s1 := run0.setFld (Reg.evtChCfg 0) 31 30 3
    let s2 := (run0.setFld (Reg.evtDchCfg 0) 31 30 3).setFld (Reg.evtDchCfg 0) 29 25 0
    s1.fld (Reg.evtChCfg 0) 31 30 = 3 ∧ s1.fld (Reg.evtChCfg 0) 29 21 = 0 ∧ s1.executes 0 noPfx 0x17 0 = true ∧
    s2.fld (Reg.evtDchCfg 0) 31 30 = 3 ∧ s2.fld (Reg.evtDchCfg 0) 24 16 = 0 ∧ s2.fld (Reg.evtDchCfg 0) 29 25 = s2.pos ∧
    (run0.wr (Reg.evtFlag 0) 1).seenFlag 0 = true ∧ run0.seenFlag 0 = false ∧ (run0.eng 0).arch.sup = true ∧
    run0.executes 0 noPfx 0x18 0 = true := by decide +kernel

/-- TendComplete: a drained engine within its budgets, and the Steward. -/
theorem wit_tend : run0.executes 0 noPfx 0x01 0 = true ∧ run0.drained 0 = true ∧ (run0.eng 0).place = some (placed 7 0) ∧
    (run0.task 7).ovr = 0 ∧ (run0.eng 0).arch.escact = false ∧ run0.mirroredNow = false ∧
    (run0.cycle 0).overCycles (placed 7 0).ticked = false ∧ (run0.task 7).st = .running ∧ run0.nextBooked 0 = none ∧
    solo.executes 512 noPfx 0x01 0 = true ∧ solo.drained 512 = true ∧ (solo.eng 512).place = none := by decide +kernel

/-- TlbiComplete: every scope, with a slot in an L2 set. -/
theorem wit_tlbi :
    let s : State := { run0 with engines := [(0, { run0.eng 0 with l2 := [(0, [⟨0, 16, 0, false, true, true, true, 0, 0, 0⟩])] })] }
    s.executes 0 noPfx 0x14 0 = true ∧ (∀ b : BitVec 3, b.toNat < 4 → b.toNat < 8) := by
  decide +kernel

/-! ### Exceptions -/

/-- A Steward whose vector table is in its SRAM at 0x1000, with the handler 0x2000 for vector 0x0C, and whose stack is in bank 0. -/
def stewTrap : State :=
  { stewWith { Arch.init with psr := 1, g31s := 0x280000000800, evec := 0x1000, pc := 0x40 } with
    stew := { solo.stew with sram := [(0x1061, 0x20)] } }

/-- ExceptionEntry: the frame can be pushed, the vector table entry is readable and the handler can be fetched. -/
theorem wit_entry :
    let s := stewTrap
    let a := (s.eng 512).arch
    let f : Frame := ⟨0x0C, 0, 0, 0, false, false, 0, 0⟩
    let p := ((s.dropReads 512).updEng 512 (fun x => { x with waite := none, pend := none })).pushWords 512 (a.g31s - 64).toNat 0
      true (f.words a)
    let v := p.1.entryRead 512 5 (a.evec.toNat + 8 * 0x0C) 8 8 false
    (s.eng 512).arch.escact = false ∧ (s.eng 512).vecBusy = false ∧ a.holdcnt = 0 ∧ (s.eng 512).place = none ∧
    pushedAll p.2 = true ∧ entryValue v.2 = some 0x2000 ∧
    (entryValue (v.1.entryRead 512 6 0x2000 16 16 true).2).isSome = true := by decide +kernel

/-- ReturnsComplete: a frame that the loads read, with no stopped vector and with one, and the Escalation frame. -/
theorem wit_return :
    let s : State := stewWith { Arch.init with psr := 1, escact := true, esp := 0x3FFC0 }
    let r := (stewTrap.cycle 512).readFrame 512 (stewTrap.eng 512).arch.g31s.toNat
    let q := (s.cycle 512).readLoc 512 7 ((s.cycle 512).srcOf 512) ((s.cycle 512).escLoc 512 0x3FFC0) true 64
    stewTrap.executes 512 noPfx 0x06 0 = true ∧ (stewTrap.eng 512).arch.escact = false ∧
    (frameBytes r.2).map (fun bs => (wordAt bs 3).getLsbD 50) = some false ∧
    s.executes 512 noPfx 0x07 0 = true ∧ (s.eng 512).arch.escact = true ∧ (s.eng 512).arch.esp.toNat % 8 = 0 ∧
    (s.eng 512).arch.esp.toNat + 64 ≤ 0x40000 ∧
    q.2.map (fun x => (x.1 == .ok, (wordAt x.2 3).getLsbD 50)) = some (true, false) := by decide +kernel

/-- ReturnsComplete: an engine's frame on its stack that says that long vectors stand stopped (bit 50 of word 3). -/
theorem wit_returnStopped :
    let r := (runWith { arch0 with g31s := 0x800 }).updEng 0 (fun x =>
      { x with dtlb := [⟨0, 16, 0, true, true, false, true, 3, 0x280000000000, 1⟩] })
    let s : State := { r with m := { r.m with mem := [(0x28000000081E, 4)] } }
    let f := (s.cycle 0).readFrame 0 (s.eng 0).arch.g31s.toNat
    s.executes 0 noPfx 0x06 0 = true ∧ (frameBytes f.2).map (fun bs => (wordAt bs 3).getLsbD 50) = some true := by decide +kernel

/-- ReturnRestoresFrame: a pending delay slot, and registers with no reserved bit. -/
theorem wit_restore : (∀ d, some (⟨true, false, 0x80⟩ : DSlot) = some d → d.annul = false) ∧
    (0x7C3 : W64) &&& ~~~(0x7C3 : W64) = 0 ∧ (0xF3F0F : W64) &&& ~~~(0xF3F0F : W64) = 0 :=
  ⟨fun d h => by cases h; rfl, by decide, by decide⟩

/-- AsynchronousEntryComplete: an error in the queue, an interrupt line that is pending, an entry that waits, and the last cycle of a
HOLD. -/
theorem wit_asynchronous :
    let s := runWith { arch0 with errq := [⟨2, 0x40, 1, 0⟩] }
    let r := runWith { arch0 with psr := 3 }
    let i := ((r.setFlag 9 true).wr64 (Reg.enIntSel 0) 9).setBit (Reg.enIntEn 0) 0 true
    s.active 0 = true ∧ (s.eng 0).arch.ds = none ∧ s.errorReady 0 = true ∧ s.errSampled ⟨2, 0x40, 1, 0⟩ = true ∧
    run0.errorReady 0 = false ∧ i.errorReady 0 = false ∧ i.intLine 0 = some 0 ∧ (s.eng 0).entry = none ∧
    (run0.eng 0).arch.holdcnt ≤ 1 := by decide +kernel
/-! ### Scalar loads and stores -/

/-- LoadComplete, StoreComplete: every row, an aligned address, translated to memory of this part that answers, on the Steward. -/
theorem wit_memory :
    let s := stewWith { Arch.init with psr := 1, g := [(3, 0x280000000100)], g31s := 0x280000000800 }
    let f : FmtI := ⟨1, 3, 8⟩
    let x : FmtX := ⟨1, 3, 9, 0, 0, 8⟩
    let l := (s.cycle 512).locate 512 .read false 0x280000000108
    let w := (s.cycle 512).locate 512 .write false 0x280000000108
    (∀ op ∈ [0x61, 0x71], s.executes 512 (wPfx 2) op 0 = true) ∧ (∀ op ∈ [0x60, 0x62, 0x63, 0x64, 0x65, 0x66, 0x67, 0x70, 0x72, 0x73, 0x74, 0x75, 0x76, 0x77, 0x12, 0x13, 0x1C, 0x1D],
      s.executes 512 noPfx op 0 = true) ∧
    immCause noPfx f.imm.toNat = 0 ∧ causeX noPfx x true = 0 ∧ causeX noPfx x false = 0 ∧ s.streamBusy 512 0 = false ∧
    (s.eng 512).arch.eaI noPfx f = 0x280000000108 ∧ ((s.eng 512).arch.eaX noPfx x).va = 0x280000000108 ∧
    (l.2 = .dpa 0x280000000108) ∧ l.1.reaches 512 0x280000000108 = true ∧ 0x280000000108 / 2 ^ 46 = l.1.pos ∧
    l.1.tier (0x280000000108 % 2 ^ 46) = .bank 0 ∧ (s.cycle 512).heldByVec 512 0x280000000108 8 false = false ∧
    l.1.heldAt (0x280000000108 % 2 ^ 46) = false ∧ (l.1.payFor 512 0x280000000108 8).1.expPort 0x280000000108 = none ∧
    ((l.1.payFor 512 0x280000000108 8).1.readCounted ((l.1.payFor 512 0x280000000108 8).1.srcOf 512) (0x280000000108 % 2 ^ 46) 8
      (l.1.payFor 512 0x280000000108 8).2).2.1 = .ok ∧
    w.2 = .dpa 0x280000000108 ∧ w.1.reaches 512 0x280000000108 = true ∧ (s.cycle 512).heldByVec 512 0x280000000108 8 true = false ∧
    s.flt.retired = [] ∧ s.flt.sweeps = [] := by decide +kernel

/-- LoadedValue: the widest and the narrowest value of each width. -/
theorem wit_loaded : (255 : Nat) < 2 ^ 8 ∧ (0 : Nat) < 2 ^ 64 ∧ (1 : Nat) = 8 / 8 ∧ (8 : Nat) = 64 / 8 := by decide

theorem wit_misaligned : (0x1001 : W64).toNat % 8 ≠ 0 ∧ (0x1004 : W64).toNat % (List.replicate 8 (0 : Byte)).length ≠ 0 := by decide

/-! ### Memory -/

/-- OwnStoresSeenFirst, RequestPerformed: a good word and a poisoned one. -/
theorem wit_request :
    let m := State.reset.m
    let r : MemReq := { reqW with op := .write [(0x1000, 5), (0x1001, 0)] }
    let p : Memory := { m with health := [(healthKey 0x1000, .poisoned)] }
    [(0x1000 : Nat), 0x1001].Nodup ∧ ((m.seenBy r.src).apply r).2 = false ∧ (m.apply r).2 = false ∧ (p.apply r).2 = true ∧
    SMap.get Health.good m.health (healthKey 0x1000) ≠ .poisoned ∧ (MemOp.iadd 5).isAtomic = true := by decide +kernel

/-- CleanRead: a bank's first and last byte. -/
theorem wit_cleanRead : solo.tier 0x280000000000 = .bank 0 ∧ solo.tier 0x28000003FFFF = .bank 0 ∧ solo.tier 0x280000040000 = .bank 1 ∧
    solo.m.found = [] ∧ solo.m.health = [] ∧ solo.m.memq = [] := by decide +kernel

/-- TargetsComplete: a request waits at a bank, at a Direct device and at a channel, in a maintenance window and outside one. -/
theorem wit_targets :
    let s0 : State := { solo with tb := 500, blk := { solo.blk with ddrOk := 1, qdrOk := 1 } }
    let w (off : Nat) : MemReq := { reqW with off := off, op := .write [(off, 5)] }
    let b : State := { s0 with m := { s0.m with memq := [w 0x280000000010] } }
    let win : State := { s0 with tb := 0 }
    (b.bankWinner 0 1).map (fun x => (x.1.place, x.1.req)) = some (0, w 0x280000000010) ∧
    s0.tier 0x280000000010 = .bank 0 ∧ (MemOp.iadd 1).isAtomic = true ∧ s0.asleepAt 0x280000000010 = false ∧
    s0.actMode.mirrored = false ∧ s0.tier 0x200000000000 = .dir 0 0 ∧ s0.tier 0 = .ddr 0 0 ∧ s0.inWindow 0 = false ∧
    s0.flt.fences = [] ∧ s0.m.memq = [] ∧ win.inWindow 0 = true := by decide +kernel

/-- MemoryUpkeepComplete: a window not yet used, a corrected word with nothing waiting. -/
theorem wit_upkeep :
    let s : State := { solo with tb := 16000000, blk := { solo.blk with ddrOk := 1 }, m := { solo.m with health := [(healthKey 0x1000, .corrected)] } }
    s.windowUp = true ∧ s.blk.ddrOk.getLsbD 0 = true ∧ s.bit (Reg.ddrStat 0) 2 = false ∧ s.windowNow ≠ 0 ∧
    SMap.get 0 s.m.window 0 ≠ s.windowNow ∧ SMap.get Health.good s.m.health (healthKey 0x1000) = .corrected ∧ s.m.memq = [] := by
  decide +kernel

/-- A read and a write wait at an expander since tick 0. -/
def expRead : ExpReq := ⟨1, .master 0 35, none, 0, 0, 64, .taken, none, false, 35, 0, 0⟩

/-- MemoryUpkeepComplete: an expander's read and write, late by a Lap, and an expander with nothing waiting. -/
theorem wit_expander :
    let s0 : State := { solo with tb := solo.lapTicks, blk := { solo.blk with expUnits := [(1, 4)] } }
    let w : MemReq := { reqW with off := 0, op := .write [(0, 5)] }
    let r : State := { s0 with m := { s0.m with expq := [expRead] } }
    let u : State := { s0 with m := { s0.m with memq := [w] } }
    r.expItems 1 = [.read expRead] ∧ r.expChoice 1 = some (.read expRead) ∧ expRead.tick + r.lapTicks ≤ r.tb ∧
    u.expItems 1 = [.write w] ∧ u.expChoice 1 = some (.write w) ∧ w.tick + u.lapTicks ≤ u.tb ∧ s0.expItems 1 = [] := by
  decide +kernel

/-! ### Translation, fetch and reports -/

/-- An engine with a slot for the first 64 KiB in its data TLB. -/
def mapped : State :=
  { run0 with engines := [(0, { run0.eng 0 with dtlb := [⟨0, 16, 0, true, true, false, true, 3, 0x280000000000, 1⟩] })] }

theorem wit_translate : ((mapped.eng 0).lookup false 0xFFFF).isSome = true ∧ ((mapped.eng 0).lookup false 0x10000) = none ∧
    ((mapped.eng 0).lookup true 0) = none ∧ (0xFFFF : Nat) < 2 ^ 55 ∧ (mapped.eng 0).place.isSome = true ∧
    (mapped.eng 0).arch.escact = false := by decide +kernel

/-- WalkComplete: a request that hits, and one that misses with no walk begun, whose walk ends in a fault (no table is mapped). -/
theorem wit_walk :
    let c := (run0.eng 0).walkTables .scalar
    let s1 := run0.updEng 0 (fun x => { x with arch := { x.arch with ctxid := c.1, ttb := c.2 } })
    (0 : Nat) < 512 ∧ (run0.eng 0).place.isSome = true ∧ (run0.eng 0).arch.escact = false ∧
    ((s1.eng 0).lookup (Walker.scalar = .fetch) 0x10000) = none ∧ run0.walk 0 (walkerNum .scalar) = none ∧
    (match (s1.doWalk 0 (walkerNum .scalar) c.1 c.2 0x10000).2 with | .fault _ => true | .slot _ | .waits _ => false) = true := by
  decide +kernel

/-- WalkComplete: a table in Home Bank 0 whose second level has a leaf of 512 MiB at VA 0. -/
theorem wit_walkSlot :
    let r := runWith { arch0 with ttb := 0x280000000001 }
    let c := (r.eng 0).walkTables .scalar
    let s : State := { r with m := { r.m with mem := [(0x280000000000, 1), (0x280000000002, 1), (0x280000000005, 0x28), (0x280000010000, 3)] } }
    (match (s.doWalk 0 (walkerNum .scalar) c.1 c.2 0).2 with | .slot y => y.hits 0xFFFF 0 | .fault _ | .waits _ => false) = true := by
  decide +kernel

/-- FetchAndReportsComplete: an entry that waits; four words held; an empty queue with the next word in Home Bank 0; a placement
without a class 0 entry; an engine of a mirrored part that has stopped. -/
theorem wit_fetch :
    let e : Engine := { run0.eng 0 with pq := [⟨0, 0⟩, ⟨16, 0⟩, ⟨32, 0⟩, ⟨48, 0⟩], arch := { arch0 with pc := 0 } }
    let s : State := { run0 with engines := [(0, e)] }
    let n : State := run0.updEng 0 (fun x => { x with itlb := [⟨0, 16, 0, true, false, true, true, 3, 0x280000000000, 1⟩] })
    let h : State := { run0 with mode := .lead, pair := { run0.pair with ident := none },
                                 engines := [(0, { run0.eng 0 with running := false })] }
    s.active 0 = true ∧ (s.eng 0).entry = none ∧ (s.eng 0).lbuf = none ∧ (s.eng 0).flight = [] ∧
    (s.eng 0).ahead.map (fun r => decide (r.kept = (s.eng 0).pq.length ∧ 4 ≤ r.kept)) = some true ∧
    (instrIn (s.eng 0).pq (s.eng 0).arch.pc.toNat).map (fun q => definedOp q.2.1) = some true ∧
    ((n.queueWord 0).eng 0).ahead.map (fun r => (decide (r.kept < 4), r.unresolved, r.next)) = some (true, false, 0) ∧
    (match ((n.queueWord 0).fetchWord 0 0).2 with | .word _ => true | .trap _ _ | .waits => false) = true ∧
    (run0.eng 0).arch.errq = [] ∧ (h.eng 0).place = some (placed 7 0) ∧ (placed 7 0).restored = true ∧
    (h.eng 0).hung = false ∧ (h.eng 0).running = false ∧ h.mirroredNow = true := by decide +kernel

/-! ### Long vectors -/

/-- VectorIssueComplete, VectorIllegal: VALU of two registers whose descriptors are in memory, with a free tag. -/
theorem wit_vector :
    let f : FmtV := ⟨0, 0, 1, 2, 0, 0, 0, 0⟩
    run0.executes 0 noPfx 0xC1 0 = true ∧ vecCause 0xC1 (opfOf f) = 0 ∧ (run0.eng 0).freeTag = some 0 ∧ run0.issues 0 = true ∧
    solo.issues 512 = true ∧ (solo.eng 512).arch.selects noPfx = true ∧ (solo.eng 512).arch.ds = none := by decide +kernel

/-- VectorIntegerElements: every type, and both kinds of divisor. -/
theorem wit_elements : (∀ et, et < 8 → (etWidth et = 8 ∨ etWidth et = 16 ∨ etWidth et = 32 ∨ etWidth et = 64)) ∧ (1 : BitVec 8) ≠ 0 := by
  decide +kernel

/-- A stream descriptor: four elements of 8 bytes from an address. -/
def dsc (base : Nat) : Desc := ⟨BitVec.ofNat 64 (base + 3 * 2 ^ 55), BitVec.ofNat 64 (4 * 2 ^ 32), 0, 0⟩

/-- Engine 0 with streams 0, 1 and 2 in the Home Bank 100 of another cluster. -/
def streamed : State :=
  { run0 with
    engines := [(0, { run0.eng 0 with
      arch := { arch0 with str := [(0, dsc 0x100), (1, dsc 0x200), (2, dsc 0x300)] },
      dtlb := [⟨0, 16, 0, true, true, false, true, 3, 0x280001900000, 1⟩] })]
    m := { run0.m with mem := [(0x280001900200, 5), (0x280001900300, 6)] } }

/-- VALU add of streams 1 and 2 into stream 0. -/
def vadd : FmtV := ⟨0, 0, 1, 2, 12, 3, 0, 0⟩

/-- The next state, or the state before where there is none. -/
def after (s : State) (c : Instr) : State := match exec c s with | .next t => t | .fault _ | .refused _ => s

/-- VectorFlowComplete and the whole of one instruction: it enters flight, asks for both streams, takes their beats, and its group
posts the four sums, 11 first. -/
theorem test_vectorAdd :
    let s1 := after streamed (.valu 0 noPfx vadd)
    let s3 := after (after s1 (.streamRequest 0 0 1)) (.streamRequest 0 0 2)
    let s5 := after (after s3 (.beat 0 0 1 .clean)) (.beat 0 0 2 .clean)
    let s6 := after s5 (.group 0 0 .good)
    (s1.eng 0).vinsts.map (fun v => (v.tag, v.opc)) = [(0, 0xC1)] ∧ (s1.loadSide 0 0 1).isSome = true ∧
    ((s3.eng 0).vinsts.map (fun v => (v.buf 1).want.length)) = [4] ∧
    ((s5.eng 0).vinsts.map (fun v => (v.buf 2).elems.map (fun x => x.val))) = [[6, 0, 0, 0]] ∧
    (s6.m.memq.flatMap (fun r => match r.op with | .write cs => cs | _ => [])).head? = some (0x280001900100, 11) := by
  decide +kernel

/-- VectorIssueComplete: nothing holds VADD back, and stage 4 finds its operands valid. -/
theorem wit_vectorIssue :
    let v := (streamed.cycle 0).vNew 0 0 0xC1 (opfOf vadd) none none (streamed.eng 0).arch.pc
    streamed.executes 0 noPfx 0xC1 0 = true ∧ vecCause 0xC1 (opfOf vadd) = 0 ∧ (streamed.eng 0).freeTag = some 0 ∧
    (streamed.cycle 0).vWaits 0 v = false ∧
    (match ((streamed.cycle 0).vPush 0 v).2 with | .ok _ => true | _ => false) = true := by decide +kernel

/-- VectorFlowComplete: a stream that may ask, a request that has been answered, and a group whose data are there. -/
theorem wit_vectorFlow :
    let s1 := after streamed (.valu 0 noPfx vadd)
    let s3 := after (after s1 (.streamRequest 0 0 1)) (.streamRequest 0 0 2)
    let s5 := after (after s3 (.beat 0 0 1 .clean)) (.beat 0 0 2 .clean)
    (s1.loadSide 0 0 1).map (fun x => (x.1.readHold 0 x.2 1, x.1.mayAsk 0 x.2 1 (x.2.buf 1).reqTo,
      (x.1.ixVal 0 x.2 1 (x.2.buf 1).reqTo).isSome)) = some (false, true, true) ∧
    (s3.loadSide 0 0 1).map (fun x => match (x.2.buf 1).want with
      | w :: ws => w.fault.isNone && decide ((x.1.beatWant 0 x.2 1 w (w :: ws) (x.2.buf 1)).2 ≠ x.2.buf 1)
      | [] => false) = some true ∧
    s5.active 0 = true ∧ ((s5.eng 0).vinst 0).map (fun v => (v.ended, (s5.startGroup 0 v).map (fun s => (s.serialHold 0 v,
      match (s.noteFull 0 0).passSieves 0 0 with
      | .go t => (match t.doGroup 0 0 with | .go _ => true | _ => false)
      | _ => false)))) = some (false, some (false, true)) := by decide +kernel
/-! ### The register window -/

/-- WriteRouting, AccessCodes, ReadsComplete: every path of a write. -/
theorem wit_routing :
    solo.accessOk 35 0x9 4 = false ∧ solo.accessOk 35 8 2 = false ∧ solo.windowUp = true ∧ regMaster 35 = true ∧
    regMaster 0 = false ∧ regMaster 33 = false ∧ (inMode .hold).windowUp = false ∧ (inMode .hold).accessOk 35 0 4 = false ∧
    solo.accessOk 41 0xA00000 4 = true ∧ lead.actMode.mirrored = true ∧ lead.accessOk 41 0x100000 4 = true ∧ ownSideBlock 0x100000 = false ∧
    lead.forwarding = true ∧ lead.accessOk 35 0x100000 4 = true ∧ lead.inputRoom = true ∧ lead.pair.waiting = [] ∧
    (let late := { lead with tb := lead.tb + lead.lapTicks - 1 - lead.tb % lead.lapTicks }
     late.forwarding = true ∧ late.inputRoom = false ∧ late.accessOk 35 0x100000 4 = true) ∧ trail.forwarding = false ∧ trail.pacer = true ∧
    isDoorbell 0x100000 = false ∧ trail.accessOk 35 0x100000 4 = true ∧ solo.direct 35 0x300000 = true ∧ solo.direct 35 0x3FFFFFFC = true := by
  decide +kernel

/-- A register of each kind follows its access codes alone. -/
theorem wit_accessCodes :
    (findReg Reg.lapCfg.off regRows).isSome = true ∧ plainOffset Reg.lapCfg.off = true ∧ solo.direct 35 Reg.lapCfg.off = true ∧
    (match findReg Reg.lapCfg.off regRows with | some (r, k) => decide (r.width = 32 ∧ k = 0) | none => false) = true := by decide +kernel

/-- HalvesReadTogether, HalvesWrittenTogether: the low and the high half of a 64-bit register. -/
theorem wit_halves :
    half64 (Reg.hostSqBase 0).off = some 0 ∧ half64 ((Reg.hostSqBase 63).off + 4) = some 4 ∧
    solo.accessOk 35 (Reg.hostSqBase 0).off 4 = true ∧ solo.direct 35 (Reg.hostSqBase 0).off = true ∧
    solo.direct 35 (Reg.hostCqBase 63).off = true ∧ latchKey 35 0 ≠ latchKey 34 0 := by decide +kernel

/-- KickAndTaskIndexComplete. -/
theorem wit_kick : solo.direct 39 0xC = true ∧ (1 : BitVec 32).getLsbD 0 = true ∧ solo.stew.up = true ∧
    solo.direct 35 Reg.staTtIndex.off = true ∧ solo.direct 35 8 = true ∧ (2 : BitVec 32).getLsbD 0 = false := by decide +kernel

/-- KeepComplete: the first and the last register, for a master that may write them. -/
theorem wit_keep : solo.direct 39 (Reg.keepReg 0).off = true ∧ keepMaster 39 0 = true ∧ solo.direct 34 (Reg.keepReg 1023).off = true ∧
    keepMaster 34 1023 = true := by decide +kernel

/-- FlashComplete: an idle flash unit in SERVICE, at both ends of the address range, and a busy one. -/
theorem wit_flash :
    let b := svc.setBit Reg.dawnFlashCmd 31 true
    let h := svc.wr Reg.dawnFlashAddr 0x7FFFFFF
    svc.direct 34 0x100014 = true ∧ svc.bit Reg.dawnFlashCmd 31 = false ∧ svc.flashProtected 0 = false ∧
    (svc.rd Reg.dawnFlashAddr).toNat < 0x8000000 ∧ h.flashProtected (h.rd Reg.dawnFlashAddr).toNat = false ∧
    (h.rd Reg.dawnFlashAddr).toNat < 0x8000000 ∧ b.windowUp = true ∧ b.bit Reg.dawnFlashCmd 31 = true := by decide +kernel
/-! ### Timers and events -/

/-- Compare channel 63 is armed and reached, with and without a period; channel 0 has not been reached. -/
theorem wit_compare :
    let s := ((solo.setBit (Reg.cmpCtl 63) 31 true).setBit (Reg.cmpCtl 63) 30 true).wr (Reg.cmpPeriod 63) 5
    s.timersOn = true ∧ s.bit (Reg.cmpCtl 63) 31 = true ∧ (s.rd64 (Reg.cmpValue 63)).toNat ≤ s.tb ∧ s.bit (Reg.cmpCtl 63) 30 = true ∧
    s.rd (Reg.cmpPeriod 63) ≠ 0 ∧ SMap.get 0 s.evt.cmpAt 63 ≠ s.tb + 1 ∧ (solo.wr64 (Reg.cmpValue 0) 1).tb < ((solo.wr64 (Reg.cmpValue 0) 1).rd64 (Reg.cmpValue 0)).toNat ∧
    solo.direct 35 (Reg.cmpValue 63).off = true ∧ solo.direct 35 (Reg.cmpCtl 0).off = true := by decide +kernel

/-- Timer 31 runs and has reached 0, or MATCH; timer 0 does not run, and nothing is due for it. -/
theorem wit_timers :
    let r := (solo.setBit (Reg.cdtStat 31) 0 true).wr (Reg.cdtReload 31) 9
    let z : State := { r with evt := { r.evt with zeroDue := [(31, 1)] } }
    let m : State := { r with evt := { r.evt with matchDue := [(31, true)] } }
    z.timersOn = true ∧ z.cdtRun 31 = true ∧ SMap.get 0 z.evt.zeroDue 31 = 1 ∧ z.rd (Reg.cdtReload 31) ≠ 0 ∧
    (∀ c, c < 4 → z.lists c (0x080 + 31) = false) ∧ SMap.get false m.evt.matchDue 31 = true ∧
    SMap.get 0 m.evt.zeroDue 31 ≠ 1 ∧ solo.cdtRun 0 = false ∧ SMap.get 0 solo.evt.zeroDue 0 = 0 ∧
    SMap.get false solo.evt.matchDue 0 = false ∧ solo.windowUp = true ∧ r.cdtLoad 31 ≠ 0 ∧
    solo.direct 35 (Reg.cdtCount 31).off = true := by decide +kernel

/-- Channel 5, which lists pin 0 alone, in a group that is on; with a last accepted pulse 3 cycles ago; closed; its group off. -/
def chan : State := ((solo.setBit Reg.evtCfg 0 true).setBit Reg.evtGroupEn 0 true).setFld (Reg.evtChSrc 5 0) 9 0 0x010

theorem wit_sole : (List.range 256).filter (fun d => chan.lists d 0x010) = [5] := by decide +kernel

theorem wit_pulse :
    let off := chan.setBit Reg.evtGroupEn 0 false
    let closed := chan.setBit (Reg.evtChStat 5) 1 true
    let near : State := { chan with evt := { chan.evt with lastAcc := [(5, 10)] } }
    chan.lists 5 0x010 = true ∧ chan.accepts 5 0 = true ∧ chan.lists 6 0x010 = false ∧ off.groupOn 5 = false ∧ off.lists 5 0x010 = true ∧
    closed.groupOn 5 = true ∧ closed.bit (Reg.evtChStat 5) 1 = true ∧ near.groupOn 5 = true ∧ near.bit (Reg.evtChStat 5) 1 = false ∧
    SMap.get 0 near.evt.lastAcc 5 ≠ 0 ∧ (9 : Nat) + 1 = 10 ∧ (12 : Nat) + 1 ≠ 10 ∧ (12 : Nat) + 1 ≤ 10 + 3 ∧ near.accepts 5 13 = true := by
  decide +kernel

/-- EventWritesComplete: a channel and a Domain channel that the master owns and that another does not. -/
theorem wit_eventWrites :
    solo.direct 35 Reg.evtFire.off = true ∧ (5 : BitVec 32).getLsbD 8 = false ∧ solo.mgmtOwnsDom 35 0 = false ∧
    (solo.setFld (Reg.evtDchCfg 0) 31 30 1).mgmtOwnsDom 34 0 = true ∧ SMap.get 0 solo.evt.domLast 0 = 0 ∧ (9 : Nat) + 1 < 10 + 4 ∧ (10 : Nat) + 4 ≤ 13 + 1 ∧ solo.direct 35 (Reg.evtFlag 7).off = true ∧
    solo.direct 34 Reg.evtGroupEn.off = true ∧ solo.direct 34 (Reg.evtChStat 255).off = true ∧ solo.mgmtOwns 35 255 = false := by decide +kernel

/-- PinsComplete: pin 15 goes up after 30 ns, and within 30 ns, and is stuck. -/
theorem wit_pins :
    let s : State := { solo with evt := { solo.evt with pinLast := [(15, 1)] } }
    let k : State := { (solo.setBit Reg.evtPinStat 15 true).setFld (Reg.evtPinCfg 15) 31 24 255 with evt := { solo.evt with pinLaps := [(15, 256)] } }
    let k1 : State := { (solo.setBit Reg.evtPinStat 15 true).setFld (Reg.evtPinCfg 15) 31 24 254 with evt := { solo.evt with pinLaps := [(15, 255)] } }
    s.windowUp = true ∧ s.actMode ≠ .replay ∧ s.bit Reg.evtPinStat 15 = !true ∧ SMap.get 0 s.evt.pinLast 15 + 30 ≤ 30 + 1 ∧
    (29 : Nat) + 1 < SMap.get 0 s.evt.pinLast 15 + 30 ∧ SMap.get 0 k.evt.pinLaps 15 ≤ 256 ∧
    k.fld (Reg.evtPinCfg 15) 31 24 < SMap.get 0 k.evt.pinLaps 15 ∧ k.bit Reg.evtPinStat 15 = true ∧
    k1.bit Reg.evtPinStat 15 = true ∧ k1.fld (Reg.evtPinCfg 15) 31 24 ≠ 0 ∧
    k1.fld (Reg.evtPinCfg 15) 31 24 < SMap.get 0 k1.evt.pinLaps 15 ∧ SMap.get 0 k1.evt.pinLaps 15 ≤ 256 := by decide +kernel
/-! ### Laps, Tasks and admission -/

/-- StewardWatchdogComplete: 64 Laps after the last kick. -/
theorem wit_watchdog :
    let s : State := { solo with tb := 64 * solo.lapTicks }
    s.windowUp = true ∧ s.stew.halted = false ∧ s.stew.kickLap + 64 ≤ s.lap ∧ ¬ s.stew.kickLap + 65 ≤ s.lap ∧ s.lapTicks ≠ 0 := by
  decide +kernel

/-- SOLO in Lap 1 with Task 7 as given, engine 0 holding a placement of it from Lap 0 where `held`. -/
def lapState (k : Task) (held : Bool) (rows : SMap Row) : State :=
  { solo with
    tb := solo.lapTicks
    engines := if held then [(0, { Engine.init with running := true, place := some (placed 7 0), arch := arch0 })] else []
    sta := { solo.sta with tasks := [(7, k)], rows := rows } }

/-- A running booked Task. -/
def runTask : Task := { Task.empty with st := .running, epoch := 1, lapsLeft := 1, cls := 1 }

/-- A row that books Task 7 on engine 0. -/
def row7 : Row := { Row.zero with u := 1000, plc := [⟨0, 7, 10, false⟩] }

/-- LapBoundaryComplete: the cases of a Task at a boundary. -/
theorem wit_boundary :
    let a := lapState runTask true [(1, row7)]
    let o := lapState { runTask with cls := 2, cyc := 1 } true []
    (a.task 7).st ≠ .free ∧ (a.task 7).ovr = 0 ∧ (a.task 7).cls ≠ 2 ∧ a.heldBy 7 = true ∧ a.lapsBooked 7 ≠ 0 ∧
    a.flt.rerun.any (fun p => p.1 = 7) = false ∧ (lapState runTask true []).lapsBooked 7 = 0 ∧
    (o.task 7).cls = 2 ∧ o.heldBy 7 = true ∧ (o.task 7).cv.cyc * ((o.task 7).cv.span + 1) < (o.task 7).cyc ∧
    (a.task 7).ended = false ∧ (a.task 7).cancelReq = false ∧ ((lapState { runTask with ovr := 2 } true []).task 7).ovr ≠ 0 ∧
    ((lapState { runTask with cancelReq := true } true [(1, row7)]).task 7).cancelReq = true ∧
    ((lapState { runTask with ended := true } true []).task 7).ended = true := by decide +kernel

/-- PreemptionSweepComplete: an engine that holds nothing, one that goes on, one whose placement leaves, and one swept already. -/
theorem wit_sweep :
    let f := lapState { runTask with st := .booked } false [(1, row7)]
    let a := lapState runTask true [(1, row7)]
    let b := lapState runTask true []
    f.canRun 0 = true ∧ (f.eng 0).place = none ∧ f.nextBooked 0 = some 7 ∧
    (a.eng 0).hung = false ∧ (a.eng 0).place = some (placed 7 0) ∧ (placed 7 0).lap ≠ a.lap ∧ a.sameTask 0 (placed 7 0) = true ∧
    vsLapres (a.eng 0).arch.vstate = false ∧ b.sameTask 0 (placed 7 0) = false ∧ (b.eng 0).arch.ds = none ∧
    vsNrec (b.eng 0).arch.vstate = 0 ∧ (placed 7 0).restored = true ∧ (b.task 7).lapsLeft ≠ 0 ∧ (b.task 7).epoch = (placed 7 0).epoch ∧
    (run0.eng 0).place = some (placed 7 0) ∧ (placed 7 0).lap = run0.lap ∧
    b.m.health = [] ∧ b.failed (b.tier ((placed 7 0).save % 2 ^ 46)) = false ∧ f.mirroredNow = false ∧
    ((f.row f.lap).plc.find? (fun b => b.engine = 0 && !b.taken)).map (fun b => b.tti) = some 7 ∧
    (f.task 7).st ≠ .free ∧ (f.task 7).st ≠ .settled := by decide +kernel

/-- FirstPlacementComplete: a Task that has not started, and one that goes on from its save area. -/
theorem wit_first :
    let p := { placed 7 0 with restored := false, save := 0x280000040000 }
    let s : State := { run0 with engines := [(0, { Engine.init with place := some p })] }
    let k : State := { s with sta := { s.sta with tasks := [(7, { runTask with started := true })] } }
    s.runs = true ∧ (s.eng 0).place = some p ∧ s.heldElsewhere 0 7 = false ∧ (s.task 7).started = false ∧
    k.heldElsewhere 0 7 = false ∧ (k.task 7).started = true ∧ k.saveHeld p.save = false ∧
    vsNrec (archOf (k.readSave p.save).2).vstate = 0 ∧ vsLapres (archOf (k.readSave p.save).2).vstate = false := by
  decide +kernel

/-- SaveRestoreRoundTrip: an error queue in the order of its classes. -/
theorem wit_save : (∀ x ∈ [(⟨0, 1, 1, 0⟩ : ErrEntry), ⟨3, 2, 2 ^ 64 - 1, 5⟩], x.cls < 4 ∧ x.count < 2 ^ 64) ∧
    [(⟨0, 1, 1, 0⟩ : ErrEntry), ⟨3, 2, 2 ^ 64 - 1, 5⟩].Pairwise (fun x y => x.cls < y.cls) := by decide

/-- OpenTaskAndExhaustedComplete: a waiting Open Task, and a placement that has used its cycles, with and without another booked. -/
theorem wit_open :
    let q : State := { lapState { runTask with st := .queued, cls := 2 } false [] with
      sta := { (lapState { runTask with st := .queued, cls := 2 } false []).sta with openq := [7] } }
    let p : Placement := { placed 7 0 with cyc := 100 }
    let x : State := { run0 with engines := [(0, { run0.eng 0 with place := some p })] }
    let y : State := { x with sta := { x.sta with rows := [(0, { row7 with plc := [⟨0, 8, 10, false⟩] })], tasks :=
      x.sta.tasks ++ [(8, { runTask with st := .booked })] } }
    q.canRun 0 = true ∧ (q.eng 0).place = none ∧ q.nextBooked 0 = none ∧ q.nextOpen 0 = some 7 ∧
    (x.eng 0).place = some p ∧ p.restored = true ∧ p.isOpen = false ∧ p.budget.cyc ≤ p.cyc ∧ x.nextBooked 0 = none ∧
    y.nextBooked 0 = some 8 ∧ (y.eng 0).vecBusy = false ∧ y.canRun 0 = true ∧ (y.task 7).lapsLeft ≠ 0 := by decide +kernel

/-- BookingMoveComplete: engine 0 is lost while it is booked. -/
theorem wit_move :
    let s0 := lapState { runTask with st := .parked } false [(1, row7)]
    let s : State := { s0 with sta := { s0.sta with moving := true }, blk := { s0.blk with badEngine := [(0, true)] } }
    s.sta.moving = true ∧ s.usable 0 = false ∧ s.lap = 1 ∧ (s.row 1).plc.map (fun b => b.tti) = [7] ∧
    (s.row 2).plc = [] ∧ (s.task 7).st ≠ .free ∧ (s.task 7).st ≠ .settled := by decide +kernel

/-- SqFetchComplete, SubmitComplete: queue 63 is enabled with a record, and a fetched record. -/
theorem wit_submit :
    let s0 := (solo.setBit (Reg.hostSqCfg 63) 31 true).setFld (Reg.hostSqCfg 63) 3 0 1
    let s : State := { s0.setBit Reg.hostStat 31 true with host := { s0.host with sqTail := [(63, 1)], lastSq := 62 } }
    let t : State := { s with sta := { s.sta with fetching := [63] } }
    let r : Rec64 := ⟨0, 0, 0, 0, 0, 0, 0, 0⟩
    s.fetches = true ∧ s.counted < 16 ∧ s.inputRoom = true ∧ s.sqReady ((s.host.lastSq + 1 + 0) % 64) = true ∧
    t.sta.fetching = [63] ∧ t.forwarding = false ∧ t.pair.cmdAck = [] ∧ t.fld (Reg.hostSqCfg 63) 3 0 ≤ 12 ∧
    r.isCancel = false ∧ ({ r with w0 := 2 } : Rec64).isCancel = true ∧
    t.cvPlace (0x280000000000) = true ∧ t.cvPlace (2 ^ 51) = false ∧
    lead.forwarding = true ∧ lead.pair.cmdAck = [] := by decide +kernel
/-- CostVectorReadComplete: a row with enough left and one with too little. -/
theorem wit_costVector :
    let m : Subm := ⟨3, { w0 := 0, w1 := 0x280000000000, w2 := 0, w3 := 0, w4 := 0, w5 := 0, w6 := 0, w7 := 0 }, 1, CostVec.zero, false⟩
    let s : State := { solo with sta := { solo.sta with cvReads := [m] } }
    let t : State := { s with sta := { s.sta with rows := [(0, { Row.zero with hb := 1 })] } }
    let off := m.r.cvDpa % 2 ^ 46
    s.sta.cvReads = [m] ∧ s.chargeRow off (s.cvBytes off) = none ∧ (t.chargeRow off (t.cvBytes off)).isSome = true ∧ t.heldAt off = false ∧
    t.m.health = [] ∧ t.m.found = [] ∧ t.m.memq = [] ∧ t.failed (t.tier off) = false ∧ (t.tier (off + t.cvBytes off - 1)).isMem = true := by
  decide +kernel

/-- A cost vector that may be booked, and a submission with it. -/
def cv1 : CostVec := { CostVec.zero with version := 1, cls := 1, rsvdOk := true, span := 0, deadline := 2, cyc := 10 }
def sub1 : Subm := ⟨3, { w0 := 0, w1 := 0x280000000000, w2 := 0x280000000800, w3 := 0, w4 := 0, w5 := 0, w6 := 0, w7 := 0 }, 1, cv1, false⟩

/-- SOLO with admission open, rows for 256 Laps' worth of the first three, and one submission waiting. -/
def admitting (m : Subm) : State :=
  { (solo.setBit Reg.staAdmitCtrl 0 true).setBit Reg.staAdmitCtrl 1 true with
    tb := 100
    sta := { solo.sta with intake := [m], rows := (List.range 3).map (fun i => (i + 1, { Row.zero with u := 1000, hb := 1000 })) } }

/-- DecisionComplete: a refusal, an Open submission, one that finds no Lap and one that finds its Laps. -/
theorem wit_decision :
    let closed : State := { solo with tb := 100, sta := { solo.sta with intake := [sub1] } }
    let opn : Subm := { sub1 with cv := { cv1 with cls := 2 } }
    let big : Subm := { sub1 with cv := { cv1 with cyc := 5000 } }
    let s := admitting sub1
    closed.sta.intake = [sub1] ∧ closed.decides = true ∧ sub1.r.isCancel = false ∧ closed.refusalCode sub1 ≠ 0 ∧ s.decides = true ∧ s.lap < 256 ∧ 256 ≤ s.lap + 256 ∧
    (admitting opn).refusalCode opn = 0 ∧ (admitting opn).freeTask = some 0 ∧ opn.cv.cls = 2 ∧
    s.refusalCode sub1 = 0 ∧ s.freeTask = some 0 ∧ sub1.cv.cls ≠ 2 ∧ (s.choose cv1 (s.lap + 1) 1 3).1 = [1] ∧
    (admitting big).refusalCode big = 0 ∧ ((admitting big).choose big.cv (s.lap + 1) 1 3).1.length < 1 := by decide +kernel

/-- CancelComplete: a Task that the record names, in each state; and one that it does not name. -/
theorem wit_cancel :
    let m : Subm := ⟨3, { w0 := 2, w1 := 0x50007, w2 := 0, w3 := 0, w4 := 0, w5 := 0, w6 := 0, w7 := 0 }, 1, CostVec.zero, false⟩
    let s (st : TState) : State := { solo with tb := 100, sta := { solo.sta with intake := [m], tasks := [(7, { Task.empty with st := st, sq := 3, cid := 5 })] } }
    (s .booked).sta.intake = [m] ∧ (s .booked).decides = true ∧ m.r.isCancel = true ∧ bitsOf m.r.w1.toNat 15 0 = 7 ∧
    ((s .running).task 7).sq = m.sq ∧ ((s .running).task 7).cid = bitsOf m.r.w1.toNat 31 16 ∧ ((s .running).task 7).ovr = 0 ∧
    ((s .settled).task 7).st = .settled ∧ (solo.task 7).st = .free := by decide +kernel

/-- PostingComplete: a record of each type at an enabled queue with room, at its last entry and at its first. -/
theorem wit_posting :
    let s0 := ((solo.setBit Reg.hostStat 31 true).setBit (Reg.hostCqCfg 63) 31 true).setFld (Reg.hostCqCfg 63) 4 0 1
    let s (ty : W64) : State := { s0 with host := { s0.host with cq := [(63, ⟨0, true, [⟨ty, 0, 0, 0, none⟩], false⟩)] } }
    (s 1).posts = true ∧ (s 1).bit (Reg.hostCqCfg 63) 31 = true ∧ (s 1).cqFull 63 = false ∧ (s 2).fld (Reg.hostCqCfg 63) 4 0 ≤ 16 ∧
    ((s 3).cq 63).held = [⟨3, 0, 0, 0, none⟩] ∧ bitsOf (3 : W64).toNat 7 0 = 3 := by decide +kernel
/-! ### The ring -/

/-- A packet flit from part 0 to part 1. -/
def s0 : Flit := ⟨1, 1, 0, 0, 0, 0, 1, 0, 0, 0, 0, 0, 1, 0, 0, 5, List.replicate 32 0⟩

/-- RING with four parts, this one at position 1, and its bypass open. -/
def ringed : State :=
  { ((inMode .ring).setFld Reg.ringCfg 13 8 4).setFld Reg.ringCfg 4 0 1 with ring := { solo.ring with bypass := .opened } }

/-- TrainingComplete: each training state of a ring port and of the pair port. -/
theorem wit_training :
    ringed.trains 0 = true ∧ ringed.lts 0 = 0 ∧ ((inMode .lead).setFld Reg.pairCfg 1 0 1).trains 2 = true ∧
    (∀ n, n < 8 → (atLts ringed 1 n).lts 1 = n ∧ (atLts ringed 2 n).lts 2 = n) ∧
    ((atLts ringed 0 3).updPort 0 (fun x => { x with gen := 2 })).lts 0 = 3 ∧ (((atLts ringed 0 3).updPort 0 (fun x => { x with gen := 2 })).port 0).gen = 2 := by
  decide +kernel

/-- PartnerIdentity: the part asked for, and another one, in PREP and later. -/
theorem wit_identity :
    let s := atLts ringed 0 2
    let f : CapsFrame := ⟨(s.nextParts 0).headD 0, BitVec.ofNat 16 (s.fld Reg.ringCfg 31 16), 1, 2, 1, s.img.gdigest, 4, 1, 0⟩
    s.lts 0 = 2 ∧ s.capsOk 0 f = true ∧ f.part < 32 ∧ s.capsOk 0 { f with port := 0 } = false ∧ s.mode ≠ .prep ∧
    s.flt.queue.length < 1024 ∧ ({ s with mode := .prep } : State).capsOk 0 { f with port := 0 } = false ∧
    ((atLts s 1 7).setLts 0 2).lts 1 = 7 := by decide +kernel

/-- LinkLossComplete, LinkUpkeepComplete. -/
theorem wit_link :
    let s := (atLts ringed 0 6).updPort 0 (fun x => { x with missed := 3, tries := 7, replay := [s0] })
    let t := (atLts ringed 0 6).updPort 0 (fun x => { x with missed := 2, tries := 6, replay := [s0] })
    s.lts 0 = 6 ∧ 3 ≤ (s.port 0).missed ∧ (s.port 0).replay ≠ [] ∧ 7 ≤ (s.port 0).tries ∧ (t.port 0).missed < 3 ∧ (t.port 0).tries < 7 ∧
    ((atLts ringed 0 6).port 0).replay = [] := by decide +kernel

/-- TimeTransferComplete: a marker that agrees with the Time Base, and an upstream port without markers. -/
theorem wit_time :
    let s : State := { atLts ringed 0 6 with tb := 2500, ring := { (atLts ringed 0 6).ring with upstream := 0, locked := true } }
    let k : Marker := ⟨true, 1, 3, 1, 2, 0, 0, 0, 0⟩
    let h := s.updPort 0 (fun x => { x with missed := 3 })
    s.lts 0 = 6 ∧ s.mode ≠ .prep ∧ k.lap = s.lap ∧ k.frame = s.tb % s.lapTicks / 1000 ∧ 0 < s.tb ∧ 0 ≤ s.tbFrac ∧
    h.mode.running = true ∧ h.lts h.ring.upstream = 6 ∧ h.ring.upstream < 2 ∧ 3 ≤ (h.port h.ring.upstream).missed ∧
    h.isMaster = false := by decide +kernel

/-- CellComplete: an ordinary cell, and a cell of code 1 with a flit waiting within its grant. -/
theorem wit_cell :
    let f : Flit := { s0 with src := 1, dst := 2 }
    let s := (((atLts ringed 0 6).setFld (Reg.ringSlotmap 0 0) 1 0 1).setFld (Reg.staGrantRing 2) 15 0 4).updPort 0
      (fun x => { x with inject := [f] })
    s.lts 0 = 6 ∧ 3899 < 390 * s.fld Reg.lapCfg 5 0 ∧ ¬ 3900 < 390 * s.fld Reg.lapCfg 5 0 ∧ s.cellCode 0 0 = 1 ∧ (s.port 0).gen ≠ 2 ∧
    (s.port 0).resend = 0 ∧ (s.port 0).transit = [] ∧ (s.port 0).inject = [f] ∧ f.vc ≠ 3 ∧ s.injCls 0 f = 0 ∧
    (s.port 0).replay.length < 512 ∧ 2 ≤ (s.port 0).credit f.vc.toNat ∧ (s.tx (txKey 0 f)).unacked.length < 2047 ∧
    s.e2eFull 0 = false := by decide +kernel

/-- LinkLayerComplete: a link that is not active, a wrong CRC, and a flit out of order, of every kind. -/
theorem wit_linkLayer :
    (∀ k : BitVec 3, k.toNat ∈ [0, 1, 2, 3] → k = 0 ∨ k = 1 ∨ k = 2 ∨ k = 3) ∧ ringed.lts 0 ≠ 6 ∧ (atLts ringed 0 6).lts 0 = 6 ∧
    s0.nak = 0 ∧ { s0 with seq := 2 }.seq ≠ ((atLts ringed 0 6).port 0).rxSeq + 1 := by decide +kernel

/-- A wrong CRC there is for every flit. -/
theorem wit_badCrc (f : Flit) : flitCrc f + 1 ≠ flitCrc f := by bv_omega

/-- FlitsComplete: a write packet, data, an acknowledgement, a copy and a flit for another part. -/
theorem wit_flits :
    let s := atLts ringed 0 6
    let f : Flit := { s0 with body := pktBody 1 2 [0x00F0000000000000, 5] ++ List.replicate 28 0 }
    let d : Flit := { s0 with kind := 2 }
    let a : Flit := { s0 with kind := 3 }
    let o : Flit := { s0 with dst := 3 }
    s.lts 0 = 6 ∧ f.seq = (s.port 0).rxSeq + 1 ∧ f.kind.toNat ∈ [1, 2, 3, 4] ∧ f.cls ≠ 3 ∧ f.reqr.toNat ≤ 513 ∧ f.nak = 0 ∧
    f.dst.toNat = s.pos ∧ f.src ≠ f.dst ∧ s.bit Reg.ringLost f.src.toNat = false ∧ s.mirroredNow = false ∧
    f.eseq = (s.rxT (f.src.toNat * 4 + f.vc.toNat)).last + 1 ∧ flitPackets f = [(2, [0x00F0000000000000, 5])] ∧
    pktOk 2 [0x00F0000000000000, 5] = true ∧ d.kind = 2 ∧ d.vc ≠ 1 ∧ a.kind = 3 ∧
    { f with eseq := 0 }.eseq = (s.rxT (f.src.toNat * 4 + f.vc.toNat)).last ∧ o.dst.toNat ≠ s.pos ∧
    s.bit Reg.ringLost o.dst.toNat = false ∧ (s.port 1).lost = false ∧ o.hops ≠ 31 := by decide +kernel
/-! ### Packets and messages -/

/-- A part with one packet waiting. -/
def withPkt (ty : Nat) (ws : List W64) : State := { solo with ring := { solo.ring with rx := [⟨0, 1, 5, 0, 0, 0, 1, 1, ty, ws⟩] } }

/-- ReadPacketComplete, WritePacketsComplete, MessagesComplete: a packet of each kind comes first. -/
theorem wit_packets :
    (firstPkt (fun x => x.ty = 1) [] (withPkt 1 [0x280000000000, 0]).ring.rx).isSome = true ∧
    solo.pktMem 0x280000000000 8 = true ∧ solo.pktMem (2 ^ 50) 1 = false ∧ (solo.tier (0x280000000000 + 255)).isMem = true ∧
    solo.m.health = [] ∧ solo.m.found = [] ∧ solo.failed (solo.tier 0x280000000000) = false ∧
    bitsOf 0x280000000000 54 54 = 0 ∧ solo.flt.retired = [] ∧ solo.flt.sweeps = [] ∧
    (firstPkt (fun x => x.ty = 2) [] (withPkt 2 [0x0FF0280000000000, 5]).ring.rx).isSome = true ∧
    (firstPkt (fun x => x.ty = 4) [] (withPkt 4 [0x0010280000000000, 5]).ring.rx).isSome = true ∧
    (solo.tier 0x280000000000).atomicOk = true ∧
    (firstPkt (fun x => x.ty = 5) [] (withPkt 5 [0]).ring.rx).isSome = true ∧
    (∀ k ∈ [1, 2, 4, 5, 6, 7], (firstPkt (fun x => x.isMsg k) [] (withPkt 6 [BitVec.ofNat 64 k, 0]).ring.rx).isSome = true) := by
  decide +kernel

/-- ReadPacketComplete: a read of 16 bytes that nothing holds, of a Home Bank, good and poisoned, of an expander, and of nothing. -/
theorem wit_readPacket :
    let x : RxPkt := ⟨0, 1, 5, 0, 0, 0, 1, 1, 1, [0x280000000000, 0]⟩
    let y : RxPkt := { x with words := [0, 0] }
    let s := withPkt 1 [0x280000000000, 0]
    let s1 : State := { s with ring := { s.ring with rx := s.ring.rx.erase x } }
    let c := s1.countUnits x.src (x.dpa % 2 ^ 46) x.rdBytes (s1.tagLap x.laptag) (decide (x.cls = 0))
    let bad : State := { c.1 with m := { c.1.m with health := [(healthKey 0x280000000000, .poisoned)] } }
    let z : State := { withPkt 1 [0, 0] with blk := { solo.blk with expUnits := [(1, 4)] } }
    firstPkt (fun x => x.ty = 1 && !s.rdHeld x) [] s.ring.rx = some x ∧ bitsOf (x.w 0) 54 54 = 0 ∧ s.pktMem x.dpa 1 = true ∧
    s1.expPort x.dpa = none ∧ s.ring.answers = [] ∧ (c.1.readLocal x.srcOf (x.dpa % 2 ^ 46) x.rdBytes).2.1 = .ok ∧
    (bad.readLocal x.srcOf (x.dpa % 2 ^ 46) x.rdBytes).2.1 = .poison ∧
    firstPkt (fun x => x.ty = 1 && !z.rdHeld x) [] z.ring.rx = some y ∧ z.pktMem y.dpa 1 = true ∧ z.expPort y.dpa = some 1 ∧
    solo.pktMem (2 ^ 45) 1 = false ∧ solo.expPort (2 ^ 45) = none := by decide +kernel

/-- MessagesComplete: a TLBI message of the present Lap, and one that comes late. -/
theorem wit_tlbiMsg :
    let s : State := { solo with tb := 5 * solo.lapTicks }
    s.lap < s.tagLap 4 + 2 ∧ s.tagLap 3 + 2 ≤ s.lap := by decide +kernel

/-- A long write whose data are here. -/
theorem wit_longWrite :
    let p : RxPkt := ⟨0, 1, 5, 1, 0, 0, 1, 1, 3, [0x0010280000000000, 0]⟩
    let s : State := { solo with ring := { solo.ring with rx := [p], wdata := [(p.dataKey, List.replicate 64 7)] } }
    firstPkt (fun x => x.ty = 3 && x.wrlBytes ≤ (SMap.get [] s.ring.wdata x.dataKey).length) [] s.ring.rx = some p ∧
    s.pktMem (p.w 0 % 2 ^ 52) p.wrlBytes = true := by decide +kernel

/-- FaultRecordsComplete: a record of another part that stopped an engine, and one that names every epoch. -/
theorem wit_faultRecord :
    let r (ep : Nat) : FaultRec := solo.mkRec 0x05 1 (originOf 3 0 7) 0 ep 0 0
    (r 9).origin / 2 ^ 13 ≠ solo.pos ∧ (r 9).epoch ≠ 0xFFFF ∧ (r 9).epoch ≠ 0 ∧ (r 9).origin / 2 ^ 9 % 16 = 0 ∧
    (r 9).cls ∈ [0x05, 0x07] ∧ (r 0xFFFF).epoch = 0xFFFF ∧ solo.mirroredNow = false ∧ solo.flt.queue.length < 1024 := by decide +kernel

/-- ResendAndBypassComplete. -/
theorem wit_bypass : 31 ≠ solo.pos ∧ (solo.setBit Reg.ringStat 18 true).bit Reg.ringStat 18 = true ∧
    ({ solo with ring := { solo.ring with bypass := .closing } } : State).ring.bypass = .closing := by decide +kernel
/-! ### Mirrored pairs -/

/-- PacerPacketsComplete: a Pacer, and a part that is none; a record that the Lead has posted. -/
theorem wit_pacer :
    let r : CRec := ⟨0x0005030000000001, 7, 0, 0, some 7⟩
    let s : State := { trail with host := { trail.host with cq := [(2, ⟨0, true, [r], false⟩)] }, tb := trail.lapTicks }
    trail.trails = true ∧ lead.trails = false ∧ s.trails = true ∧ (0 : Nat) + 1 = s.lap ∧
    bitsOf r.w0.toNat 63 48 = 5 ∧ bitsOf r.w0.toNat 47 40 = 3 ∧ bitsOf r.w1.toNat 15 0 = 7 ∧ r.frees = some 7 ∧
    s.fld (Reg.hostCqCfg 2) 4 0 ≤ 16 ∧ inRegs (0 * 64 % 2 ^ 46) = false ∧ inRegs (0x3F0000000000 / 64 * 64 % 2 ^ 46) = true := by decide +kernel

/-- PairReportsComplete: mirrored operation with a READY of this Lap, a TEND waiting, and a closed Lap. -/
theorem wit_pairReports :
    let s : State := { run0 with mode := .lead, pair := { run0.pair with readyRx := some (0, []), tends := [⟨7, 1, 0, 5, 0, true⟩] } }
    let l : State := { lead with tb := lead.lapTicks }
    s.mirroredNow = true ∧ (s.task 7).st = .running ∧ lead.pair.tends = [] ∧ lead.pair.readyRx = none ∧ (0 : Nat) + 1 = l.lap ∧
    l.mirroredNow = true ∧ l.pair.closed = true ∧ l.flt.queue.length < 1024 ∧ fenceClass 0x05 = true ∧ l.pair.ident = none := by
  decide +kernel

/-- ReleaseComplete: cycle 1,024 of a Lap, with an entry to free and one not yet due. -/
theorem wit_release :
    let s : State := { lead with tb := 640, pair := { lead.pair with postedFree := [(7, 0), (8, 1)] } }
    s.windowUp = true ∧ s.at1024 = true ∧ s.actMode.viewed = true ∧ s.pair.inputs = [] ∧ s.pair.hold = [] ∧ s.m.expq = [] ∧
    s.pair.closed = true ∧ s.pair.readyRx = none ∧ s.pairLate = false ∧ s.bit Reg.pairStat 27 = false := by decide +kernel

/-- HandoffComplete: before its Lap, and at it, on the fenced side and on the other. -/
theorem wit_handoff :
    let s (h : Nat) (t : Bool) : State := { lead with pair := { lead.pair with handoff := some (h, t) } }
    (s 1 false).lap < 1 ∧ 0 ≤ (s 0 false).lap ∧ (s 0 false).mirroredNow = true ∧
    (s 0 false).onTrail = false ∧ (s 0 true).onTrail ≠ true := by decide +kernel

/-- FenceAndRerunComplete: a fence in its last Lap and before, and a stopped Task of either kind. -/
theorem wit_fence :
    let s (n : Nat) : State := { solo with tb := n * solo.lapTicks, flt := { solo.flt with fences := [⟨1, 2, 3, false⟩], rerun := [(7, 2)] } }
    let k : Task := { Task.empty with st := .running, restart := true, cls := 2 }
    let t : State := { s 5 with sta := { solo.sta with tasks := [(7, k)] } }
    let u : State := { t with sta := { solo.sta with tasks := [(7, { k with restart := false })] } }
    (s 5).flt.fences = [⟨1, 2, 3, false⟩] ∧ 3 + 2 ≤ (s 5).lap ∧ (s 4).lap < 3 + 2 ∧ 2 + 2 < t.lap ∧
    ({ s 4 with tb := 4 * solo.lapTicks + 40 } : State).pastCycle 64 = true ∧ (t.task 7).restart = true ∧ (t.task 7).cls = 2 ∧
    (u.task 7).restart = false ∧ (u.task 7).st ≠ .free ∧ (u.task 7).st ≠ .settled ∧ solo.direct 39 0xA00004 = true := by decide +kernel

/-- FenceAndRerunComplete: a fence that is lifted, a part whose 64 entries are full, a stopped Task that is to be cancelled, and a
booked one that finds its Laps and one that finds none. -/
theorem wit_rerun :
    let f : Fence := ⟨0, 2, 3, true⟩
    let o : State := { solo with flt := { solo.flt with fences := [{ f with lifted := false }],
                                                        retired := (List.range 64).map (fun i => ⟨0, i, 0⟩) } }
    let k : Task := { Task.empty with st := .running, restart := true, cls := 1, deadlineLap := 6,
                                      cv := { CostVec.zero with cls := 1, cyc := 10, deadline := 6 } }
    let s : State := { solo with
      tb := 5 * solo.lapTicks, flt := { solo.flt with rerun := [(7, 2)] }
      sta := { solo.sta with tasks := [(7, k)], rows := [(6, { Row.zero with u := 1000 })] } }
    let n : State := { s with sta := { s.sta with rows := [] } }
    o.pos = 0 ∧ 64 ≤ o.ownRetired ∧ f.lifted = true ∧ solo.ownRetired < 64 ∧ 2 + 2 < s.lap ∧ (s.task 7).cancelReq = false ∧
    ({ k with cancelReq := true } : Task).ovr = 0 ∧ (s.task 7).cls ≠ 2 ∧
    (s.choose k.cv (2 + 3) (k.cv.span + 1) (k.deadlineLap + 1 - (2 + 3))).1 = [6] ∧
    (n.choose k.cv (2 + 3) (k.cv.span + 1) (k.deadlineLap + 1 - (2 + 3))).1.length < k.cv.span + 1 := by decide +kernel

/-- RejoinComplete: a survivor that takes the first and not an earlier Lap, and both ends of a rejoin. -/
theorem wit_rejoin :
    let s := lead.setBit Reg.pairStat 27 true
    let r : State := { s with pair := { s.pair with rejoinLap := some 0 } }
    s.direct 39 0x900010 = true ∧ s.lap + 257 ≤ (257 : BitVec 64).toNat ∧ (256 : BitVec 64).toNat < s.lap + 257 ∧
    s.bit Reg.pairStat 27 = true ∧ s.mode.mirrored = true ∧ 0 ≤ r.lap ∧ r.bit Reg.pairStat 27 = true ∧
    (inMode .trail).pair.rejoinLap = none ∧ (inMode .trail).rejoining = true := by decide +kernel
/-! ### The host port -/

/-- SOLO with the host's link up at CXL version `v`, and a committed decoder at 0 of 1 GiB. -/
def hosted (v : Nat) : State :=
  let s := (solo.setBit Reg.hostStat 31 true).setFld Reg.hostStat 22 21 v
  { s with host := { s.host with hdm := [(0, ⟨0, 0x40000000, 0x280000000000, true, false⟩)] } }

/-- DoorbellsComplete, QueueControlComplete: queue 63 enabled with four entries, and disabled. -/
theorem wit_queues :
    let s := (solo.setBit (Reg.hostSqCfg 63) 31 true).setFld (Reg.hostSqCfg 63) 3 0 2
    let c := (solo.setBit (Reg.hostCqCfg 63) 31 true).setFld (Reg.hostCqCfg 63) 4 0 2
    s.direct 35 (Reg.hostSqTail 63).off = true ∧ s.bit (Reg.hostSqCfg 63) 31 = true ∧ 3 % 4096 < s.sqSize 63 ∧ ¬ 4 % 4096 < s.sqSize 63 ∧
    c.direct 35 (Reg.hostCqHead 63).off = true ∧ c.bit (Reg.hostCqCfg 63) 31 = true ∧ 3 % 65536 < c.cqSize 63 ∧
    solo.direct 35 (Reg.hostSqCfg 0).off = true ∧ solo.bit (Reg.hostSqCfg 0) 31 = false ∧ solo.direct 35 (Reg.hostCqCfg 0).off = true ∧
    solo.bit (Reg.hostCqCfg 0) 31 = false ∧ (5 : BitVec 32).getLsbD 30 = false := by decide +kernel

/-- CommitComplete, HostMemoryComplete: a decoder not committed; memory that is served and memory that is not. -/
theorem wit_hostMemory :
    let s := hosted 2
    let p : State := { s with mode := .prep }
    s.bit Reg.hostStat 31 = true ∧ 2 ≤ s.cxlVer ∧ (s.hdm 3).committed = false ∧ s.windowUp = true ∧ s.cxlVer ≠ 0 ∧
    s.hdmDpa 64 = some 0x280000000040 ∧ s.memServed = true ∧ s.bit Reg.pairStat 26 = false ∧ s.forwarding = false ∧
    s.lineMapped 0x280000000040 = true ∧ 0x280000000040 / 2 ^ 46 = s.pos ∧ s.m.health = [] ∧ s.m.found = [] ∧
    s.failed (s.tier 0x280000000040) = false ∧ (s.tier 0x28000000007F).isMem = true ∧ s.tier 0x280000000040 = .bank 0 ∧
    s.actMode ≠ .replay ∧ s.trails = false ∧ p.memServed = false ∧ p.hdmDpa 64 = some 0x280000000040 := by decide +kernel

/-- HostMemoryComplete: a line that is read, good and poisoned; one that its sleeping cluster holds back; one of an expander. -/
theorem wit_hostRead :
    let s := hosted 2
    let bad : State := { s with m := { s.m with health := [(healthKey 0x280000000040, .poisoned)] } }
    let night := s.setFld (Reg.pwrClStat 0) 31 30 2
    let x : State := { s with blk := { s.blk with expUnits := [(1, 4)] },
                              host := { s.host with hdm := [(0, ⟨0, 0x40000000, 0, true, false⟩)] } }
    s.expPort 0x280000000040 = none ∧ s.heldAt 0x280000000040 = false ∧ s.lineHeld 0x280000000040 = false ∧
    (s.readLocal (.master s.pos 35) 0x280000000040 64).2.1 = .ok ∧ (bad.readLocal (.master s.pos 35) 0x280000000040 64).2.1 = .poison ∧
    night.heldAt 0x280000000040 = true ∧ night.expPort 0x280000000040 = none ∧ night.memServed = true ∧
    x.hdmDpa 64 = some 64 ∧ x.expPort 64 = some 1 ∧ x.lineMapped 64 = true ∧ x.memServed = true := by decide +kernel

/-- HostResetAndLinkComplete: a link that is up, and a vector that is pending and unmasked. -/
theorem wit_hostLink :
    let s : State := { hosted 2 with host := { (hosted 2).host with msixOn := true, msixMask := [(127, false)], msixPend := [(127, true)] } }
    s.windowUp = true ∧ s.bit Reg.hostStat 31 = true ∧ s.host.msixOn = true ∧ SMap.get true s.host.msixMask 127 = false ∧
    SMap.get false s.host.msixPend 127 = true ∧ s.host.d3 = false := by decide +kernel

/-- MailboxComplete: each request, in the modes that it fits and one that it does not. -/
theorem wit_mailbox :
    let s (m : Mode) (k : Nat) := ((inMode m).setBit Reg.hostMboxCtl 31 true).setFld Reg.hostMboxCtl 15 0 k
    (s .solo 1).mboxAsks (fun c => c = 1) = true ∧ (s .solo 1).bootRom = false ∧ (s .solo 1).pendMode = none ∧ (s .solo 1).mode.running = true ∧
    (s .prep 1).mode.running = false ∧ (s .prep 1).mboxAsks (fun c => c = 1) = true ∧ (s .prep 2).mboxAsks (fun c => c = 2) = true ∧
    (s .solo 2).mboxAsks (fun c => c = 2) = true ∧ (s .solo 3).mboxAsks (fun c => c = 3) = true ∧
    (s .solo 4).mboxAsks (fun c => c = 4) = true ∧ ((s .solo 4).rd (Reg.hostMboxReq 0)).toNat < 1024 ∧
    (s .solo 5).mboxAsks (fun c => c = 0 || 4 < c) = true ∧ (s .solo 0).mboxAsks (fun c => c = 0 || 4 < c) = true := by decide +kernel
/-! ### Modes, power, test port, recording -/

/-- PowerAndResetComplete, RedawnComplete, DawnComplete: each mode that the statements name. -/
theorem wit_power :
    let h : State := { inMode .hold with pwr := { State.reset.pwr with pgood := true, resetN := false } }
    (inMode .off).mode = .off ∧ solo.mode ≠ .off ∧ h.mode = .hold ∧ h.pwr.supplyHold = false ∧ h.pwr.clockHold = false ∧
    h.pwr.tripHold = false ∧ h.pwr.duskHold = false ∧ h.scan.pins = 0 ∧ h.pwr.pgood = true ∧ State.reset.mode = .dawn ∧
    svc.direct 34 8 = true ∧ solo.direct 34 8 = true ∧ solo.mode ≠ .service := by decide +kernel

/-- PrepEndComplete: PREP without a ring and without a partner, in each way that it may end. -/
theorem wit_prep :
    let s := inMode .prep
    s.mode = .prep ∧ s.prepLap = none ∧ s.replayFlag = false ∧ s.pendMode = none ∧ s.portsReady = true ∧
    ({ s with img := { s.img with addr0 := 0xFFF0 } } : State).img.addr0.getLsbD (4 + 11) = true := by decide +kernel

/-- ModeTransitionsComplete: before the Lap, from PREP, to DUSK and SERVICE, and to DEGRADED. -/
theorem wit_transitions :
    let p : State := { inMode .prep with pendMode := some (.solo, 0), prepLap := some 0 }
    let d : State := { solo with pendMode := some (.dusk, 1) }
    let g := lead.setBit Reg.pairStat 27 true
    (0 : Nat) ≤ p.lap ∧ p.mode = .prep ∧ p.prepLap ≠ none ∧ Mode.solo.running = true ∧ p.fld Reg.pwrDuskStat 31 29 = 0 ∧
    p.pair.rejoinLap = none ∧ d.lap < 1 ∧ d.mode.running = true ∧ g.pendMode = none ∧ g.degrades = true ∧ g.tb % g.lapTicks = 0 := by
  decide +kernel

/-- DuskComplete: Post with nothing to report, within its time and after it; Test; Record; and the end. -/
theorem wit_dusk :
    let s (n : Nat) := (inMode .dusk).setFld Reg.pwrDuskStat 31 29 n
    let t (n : Nat) : State := { s 2 with tb := n, sta := { solo.sta with tasks := [(7, { Task.empty with st := .settled })] } }
    (s 2).fld Reg.pwrDuskStat 31 29 = 2 ∧ (s 2).mode = .dusk ∧ (s 2).sta.tasks.any (fun p => p.2.st = .settled) = false ∧
    (t 64000000).sta.tasks.any (fun p => p.2.st = .settled) = true ∧
    (t 64000000).duskLap * (t 64000000).lapTicks + 64000000 ≤ (t 64000000).tb ∧ (t 5).tb < (t 5).duskLap * (t 5).lapTicks + 64000000 ∧
    (s 3).fld Reg.pwrDuskStat 31 29 = 3 ∧ (s 4).fld Reg.pwrDuskStat 31 29 = 4 ∧ (s 0).fld Reg.pwrDuskStat 31 29 = 0 := by decide +kernel

/-- ClusterStatesComplete: a cluster that fits Dusk, Night or Midnight before its next work, and one asleep whose wake is due, or not. -/
theorem wit_clusters :
    let s := solo.setFld (Reg.pwrClCfg 31) 1 0 3
    let a : State := { solo.setFld (Reg.pwrClStat 31) 31 30 2 with tb := 3100, pwr := { solo.pwr with plans := [(31, (100, 5000, []))] } }
    s.mode.sleeps = true ∧ s.clIdle 31 = true ∧ s.clState 31 < 3 ∧ 3 ≤ s.fld (Reg.pwrClCfg 31) 1 0 ∧
    entryNs 1 + wakeNs 1 + solo.guardNs ≤ solo.sleepEnd 31 - solo.tb ∧
    a.clState 31 ≠ 0 ∧ (a.plan 31).1 + wakeNs (a.clState 31) ≤ a.tb ∧ ({ a with tb := 99 } : State).tb < (a.plan 31).1 := by decide +kernel

/-- MonitorsComplete: a rail that is good and one that is low; HOLD with every rail good; 28.75 °C above a threshold of 28. -/
theorem wit_monitors :
    let w := solo.setFld Reg.supThermCfg 7 0 28
    solo.bit Reg.supStat 7 = false ∧ (solo.setBit Reg.supStat 7 true).bit Reg.supStat 7 = true ∧ (1 : BitVec 8) ≠ 0 ∧
    (inMode .hold).fld Reg.supStat 7 0 = 0 ∧ 4 * (w.fld Reg.supThermCfg 7 0 : Int) < (115 : BitVec 12).toInt ∧
    460 ≤ (460 : BitVec 12).toInt ∧ ¬ 460 ≤ (459 : BitVec 12).toInt ∧ solo.flt.queue.length < 1024 := by decide +kernel

/-- TestPortComplete: memory that the debug port reads and that it may write, memory that it may not, and no memory. -/
theorem wit_debug :
    let d := solo.setBit Reg.dbgCfg 0 true
    let r : State := { solo with scan := { solo.scan with ir := 0x10, pins := 0 } }
    solo.windowUp = true ∧ solo.mode ≠ .hold ∧ solo.mode ≠ .off ∧ r.dbgMem 0x280000000000 64 = true ∧
    r.expPort 0x280000000000 = none ∧ r.heldAt 0x280000000000 = false ∧
    (r.readLocal (.master r.pos 41) 0x280000000000 64).2.1 = .ok ∧ r.dbgMem (2 ^ 50) 64 = false ∧ d.dbgWrites = true ∧
    solo.dbgWrites = false := by decide +kernel

/-- RecordUnitComplete: a closed block that fits and one that does not; a replay with an entry that is due and one that is not. -/
theorem wit_record :
    let b : LogBlk := ⟨1, false, [], some 5⟩
    let s (n off : Nat) : State := { solo.setFld Reg.recCfg 17 11 n with recd := { solo.recd with out := [b], off := off } }
    let x : LogEnt := ⟨1, 0, 0x40, 0, []⟩
    let p : State := { inMode .replay with recd := { solo.recd with play := some ⟨0, 0, [x, { x with cyc := 5 }], [], [], []⟩ } }
    (s 1 0x1000).recd.out = [b] ∧ b.pdig.isSome = true ∧ (s 1 0x1000).pair.closed = true ∧
    (s 1 0x1000).recd.off + b.bytes.length ≤ (s 1 0x1000).logSize ∧ (s 1 (2 ^ 30)).logSize < (s 1 (2 ^ 30)).recd.off + b.bytes.length ∧
    ((s 1 (2 ^ 30)).setBit Reg.recCfg 3 true).bit Reg.recCfg 3 = true ∧ p.mode = .replay ∧ p.lap = 0 ∧ p.entDue x = true ∧
    p.entDue { x with cyc := 5 } = false ∧ x.a / 64 % 2 = 1 ∧ solo.direct 34 0xE00100 = true := by decide +kernel

/-- TimePasses, StepRunsFront: no time in HOLD; a tick that reaches no boundary with a running timer; an empty queue. -/
theorem wit_tick :
    let s := solo.setBit (Reg.cdtStat 31) 0 true
    (inMode .hold).windowUp = false ∧ s.windowUp = true ∧ (s.tb + 1) % s.lapTicks ≠ 0 ∧ s.lap ≤ s.lastLap ∧ s.lapTicks ≠ 0 ∧
    (s.tb + 1) / s.lapTicks ≤ s.lastLap ∧ s.timersOn = true ∧ s.evt.links = [] ∧ s.evt.fwd = [] ∧ s.cdtRun 31 = true ∧
    s.m.expq = [] ∧ s.pair.rejoinLap = none ∧ s.evt.zeroDue = [] ∧ s.evt.matchDue = [] ∧ s.bit (Reg.cmpCtl 0) 31 = false ∧
    (s.tb + 1) % 2 ^ s.fld (Reg.cdtCtl 31) 14 11 = 0 ∧ (s.tb + 1) % 2 ^ 15 ≠ 0 ∧
    s.pending = [] := by decide +kernel

/-- StepKeepsMemoryCanonical: the memory of reset has the form, a step from it is a next state, and so does a list with two cells. -/
theorem wit_canonical : Res.isNext (step solo) = true ∧ SMap.wf 0 ([(1, 5), (7, 1)] : SMap Byte) ∧ SMap.wf 0 solo.m.mem := by
  decide +kernel
/-! ### Well-formed commands -/

/-- A flit with nothing in it. -/
def flit0 : Flit := ⟨1, 0, 0, 0, 0, 0, 0, 0, 0, 0, 0, 0, 0, 0, 0, 0, List.replicate 32 0⟩

/-- One ill-formed command for each check, with an operand just past its range, is refused. -/
theorem test_illFormed_refused : (
  [.nop 513 noPfx,
   .nop 0 ⟨[0x00], 0, .good⟩,
   .nop 0 ⟨[0xE0, 0xF0, 0xF8, 0xE1], 0, .good⟩,
   .nop 0 ⟨[0xF4], 0x10000, .good⟩,
   .nop 0 ⟨[], 1, .good⟩,
   .preemptionSweep 513 ⟨[], false⟩,
   .registerWrite 42 0 0 4,
   .registerWrite 35 0x40000000 0 4,
   .complete 64,
   .exceptionEntry 0 256 0 0,
   .exceptionEntry 0 0 65536 0,
   .group 0 24 .good,
   .streamRequest 0 0 8,
   .beat 0 24 0 .clean,
   .subBankGrant 512 0 .clean,
   .subBankGrant 0 16 .clean,
   .atomic 512 .clean .good,
   .lineSlot 4 .clean .good,
   .granule 12 .clean false,
   .expanderTimeout 2,
   .detect 3 0 0,
   .caps 0 ⟨32, 0, 0, 0, 0, 0, 0, 0, 0⟩ true,
   .pkt 0 { flit0 with body := [] } 0,
   .resend 32 0,
   .resend 0 4,
   .regwr 0 0x40000000 0,
   .posted 65536 0 0,
   .posted 0 64 0,
   .posted 0 0 65536,
   .tendd 0 0 512 0,
   .lapdig 0 0 [],
   .fenceEnd 32 0,
   .fenceEnd 0 65536,
   .reRun 65536,
   .pulse 256 1 0,
   .pulse 0 1024 0,
   .evtFlag 35 8 0,
   .closed 35 256,
   .compare 64,
   .cmpValue 35 64 0,
   .zero 32,
   .cdtCount 35 32 0,
   .pin 16 true 0,
   .hostSqTail 35 64 0,
   .cxlMemRead 1 64,
   .cxlMemRead 0 32,
   .cxlMemWrite 63 0 ⟨0, 0, 0, 0, 0, 0, 0, 0⟩,
   .commit 4 0 0 0,
   .keepReg 35 1024 0 true,
   .wake 32,
   .warning 8,
   .hostLinkUp 8 0 0,
   .hostLinkUp 0 32 0,
   .hostLinkUp 0 0 4,
   .dbgAccess (.read 0x3C 5),
   .dbgAccess (.write 0x20 0 ⟨0, 0, 0, 0, 0, 0, 0, 0⟩),
   .dbgAccess (.read 0x3F0000000000 4),
   .msiXUnmask 128] : List Instr).all
    (fun c => !wellFormed c) = true := by decide +kernel

/-- Commands with each operand at the end of its range are accepted. -/
theorem test_ends_accepted : (
  [.nop 512 noPfx,
   .nop 0 ⟨[0xE0, 0xF0, 0xF6], 0xFFFFFFFFFFFFFFFF, .good⟩,
   .registerWrite 41 0x3FFFFFFF 0 4,
   .group 511 23 .good,
   .beat 0 23 7 .clean,
   .pulse 255 1023 0,
   .hostLinkUp 7 31 3,
   .posted 65535 63 65535,
   .pkt 2 flit0 0,
   .dbgAccess (.read 0x3C 4),
   .keepReg 35 1023 0 true] : List Instr).all
    wellFormed = true := by decide +kernel

/-- No row of the command table has bits, so no word spells a command. -/
theorem test_no_word : (List.range 64).all (fun n => (decodeTableWord n 0).isNone) = true := by decide

/-! ### Results from the spec's own tables and examples -/

/-- Table 7.5. -/
theorem test_hash64 : hash64 0 8 0 = 0x0808000048080000 ∧ hash64 1 8 0 = 0x0A0814084A485409 ∧
    hash64 (BitVec.ofNat 128 (1 + 2 * 2 ^ 64)) 12 0 = 0x9A10403482F12074 := by decide +kernel

/-- The refusal record of spec/14_host_port.md: CID 0x0107 of SQ 3 with HEAD 42, refused in Lap 125,000 with BULK at part 5. -/
theorem test_refusal_record :
    let m : Subm := ⟨3, { w0 := 0x01070001, w1 := 0, w2 := 0, w3 := 0, w4 := 0, w5 := 0, w6 := 0, w7 := 0 }, 42, CostVec.zero, false⟩
    let s0 := (((solo.setBit Reg.hostStat 31 true).setBit (Reg.hostCqCfg 3) 31 true).setFld (Reg.hostCqCfg 3) 4 0 4)
    let s : State := { s0 with tb := 125000 * solo.lapTicks, host := { s0.host with cq := [(3, ⟨0, true, [], false⟩)] } }
    let r := s.refusal m 0x12 5
    let t := after (s.updCq 3 (fun c => { c with held := [r] })) (.complete 3)
    t.host.out.head? = some (.record 3 0 0x0107030100050001 0x00002A0005120000 0x1E848 0) := by decide +kernel

/-- The address example of R15: the Home Bank of engine 37 of part 0. -/
theorem test_homeBank : solo.tier (0x280000000000 + 37 * 0x40000) = .bank 37 ∧ solo.tier (0x280000000000 + 37 * 0x40000 - 1) = .bank 36 := by
  decide +kernel

/-! ### Results by hand from the tables of instructions -/

/-- Row 0x2 at 8 bits: 0x80 + 0x80 is 0 with Z, C and V; 0 − 1 is −1 with N and the borrow C. -/
theorem test_add_sub_8 :
    let s := runWith { arch0 with g := [(1, 0x80), (2, 1)] }
    let t := after s (.add 0 (wPfx 0) ⟨3, 1, 1, 0⟩)
    let u := after s (.sub 0 (wPfx 0) ⟨3, 9, 2, 0⟩)
    (t.eng 0).arch.rdG 3 = 0 ∧ (t.eng 0).arch.flags &&& 15 = 7 ∧ (u.eng 0).arch.rdG 3 = 0xFFFFFFFFFFFFFFFF ∧
    (u.eng 0).arch.flags &&& 15 = 10 ∧ (t.eng 0).arch.pc = 4 := by decide +kernel

/-- The source is the destination: SHL G1, G1, G1 shifts by the value that it had, modulo 64. -/
theorem test_shl_same : ((after (runWith { arch0 with g := [(1, 65)] }) (.shl 0 noPfx ⟨1, 1, 1, 0⟩)).eng 0).arch.rdG 1 = 130 := by
  decide +kernel

/-- MULH of −1 and 1 is −1; MULHU of the same words is 0. -/
theorem test_mulh :
    let s := runWith { arch0 with g := [(1, 0xFFFFFFFFFFFFFFFF), (2, 1)] }
    ((after s (.mulh 0 noPfx ⟨3, 1, 2, 0⟩)).eng 0).arch.rdG 3 = 0xFFFFFFFFFFFFFFFF ∧
    ((after s (.mulhu 0 noPfx ⟨3, 1, 2, 0⟩)).eng 0).arch.rdG 3 = 0 := by decide +kernel

/-- DIV rounds toward zero and REM takes the sign of the dividend: −7 by 2. -/
theorem test_div_rem :
    let s := runWith { arch0 with g := [(1, 0xFFFFFFFFFFFFFFF9), (2, 2)] }
    ((after s (.div 0 noPfx ⟨3, 1, 2, 0⟩)).eng 0).arch.rdG 3 = 0xFFFFFFFFFFFFFFFD ∧
    ((after s (.rem 0 noPfx ⟨3, 1, 2, 0⟩)).eng 0).arch.rdG 3 = 0xFFFFFFFFFFFFFFFF := by decide +kernel

/-- FADD of 1.0 and 2.0 is 3.0 and clears the upper half of Q; FCMP of a quiet NaN is unordered. -/
theorem test_float :
    let s := runWith { arch0 with q := [(1, 0x3FF0000000000000), (2, 0x4000000000000000), (3, BitVec.allOnes 128), (4, 0x7FF8000000000000)] }
    ((after s (.fadd 0 noPfx ⟨3, 1, 2, 0⟩)).eng 0).arch.rdQ 3 = 0x4008000000000000 ∧
    ((after s (.fcmp 0 noPfx ⟨0, 1, 4, 0⟩)).eng 0).arch.flags &&& 15 = 1 := by decide +kernel

/-- A taken branch runs its delay slot and then goes on at its own address plus the displacement. -/
theorem test_branch :
    let s := runWith { arch0 with pc := 0x100, flags := 4 }
    let t := after s (.beq 0 noPfx ⟨0, 0x20⟩)
    (t.eng 0).arch.pc = 0x104 ∧ ((after t (.nop 0 noPfx)).eng 0).arch.pc = 0x120 := by decide +kernel

/-- A store is seen by its own engine before it is performed, and is in memory after its grant. -/
theorem test_store_load :
    let s := stewWith { Arch.init with psr := 1, g := [(1, 0x1122334455667788), (3, 0x280000000100)] }
    let t := after s (.st 512 noPfx ⟨1, 3, 0⟩)
    let u := after t (.ld 512 noPfx ⟨2, 3, 0⟩)
    (u.eng 512).arch.rdG 2 = 0x1122334455667788 ∧ SMap.get 0 t.m.mem 0x280000000100 = 0 ∧
    SMap.get 0 (after t (.subBankGrant 0 0 .clean)).m.mem 0x280000000100 = 0x88 := by decide +kernel

/-- A User store is turned away by a slot without W: vector 0x08 with detail 0x31. -/
theorem test_noWrite :
    let s := (runWith { arch0 with psr := 0 }).updEng 0 (fun x => { x with dtlb := [⟨0, 16, 0, true, false, false, true, 0, 0x280000000000, 1⟩] })
    (match s.locate 0 .write true 8 with | (_, .trap v d) => (v, d) | _ => (0, 0)) = (0x08, 0x31) := by decide +kernel

/-- A 64-bit register is written when its high half comes, with both halves. -/
theorem test_halves :
    let t := after solo (.lowHalfWrite 35 (Reg.cmpValue 3).off 0x11)
    t.rd64 (Reg.cmpValue 3) = 0 ∧ (after t (.cmpValue 35 3 0x22)).rd64 (Reg.cmpValue 3) = 0x2200000011 := by decide +kernel

/-- The step takes the front of the queue, and a tick passes when it is empty. -/
theorem test_step :
    (match step { run0 with pending := [.nop 0 noPfx, .brk 0 noPfx] } with | .next t => (t.pending, (t.eng 0).arch.pc) | _ => ([], 0)) =
      ([.brk 0 noPfx], 1) ∧
    (match step solo with | .next t => t.tb | _ => 0) = 1 := by decide +kernel

end Sys2Proof.Tests
end

/-!
PROOFS. The register window (R7 to R14): fields of registers and their access codes, who may write what, the halves of 64-bit
registers, and what the Fault Collector changes when an access is refused. Settles O31 to O34.
-/
namespace Sys2Proof.Machine

/-! ### Bit fields of numbers -/

theorem testBit_bitsOf (w hi lo i : Nat) :
    (bitsOf w hi lo).testBit i = (decide (i < hi + 1 - lo) && w.testBit (lo + i)) := by
  rw [bitsOf, Nat.testBit_mod_two_pow, Nat.testBit_div_two_pow, Nat.add_comm i lo]

theorem testBit_putBits {hi lo : Nat} (h : lo ≤ hi) (w v i : Nat) :
    (putBits w hi lo v).testBit i = if lo ≤ i ∧ i ≤ hi then v.testBit (i - lo) else w.testBit i := by
  have hsplit : putBits w hi lo v =
      2 ^ lo * (2 ^ (hi + 1 - lo) * (w / 2 ^ (hi + 1)) + v % 2 ^ (hi + 1 - lo)) + w % 2 ^ lo := by
    have hp : 2 ^ (hi + 1) = 2 ^ lo * 2 ^ (hi + 1 - lo) := by rw [← Nat.pow_add]; congr 1; omega
    rw [putBits, hp]; ring
  rw [hsplit, Nat.testBit_two_pow_mul_add _ (Nat.mod_lt _ (Nat.two_pow_pos lo)),
    Nat.testBit_two_pow_mul_add _ (Nat.mod_lt _ (Nat.two_pow_pos _)), Nat.testBit_mod_two_pow,
    Nat.testBit_mod_two_pow, Nat.testBit_div_two_pow]
  by_cases h1 : i < lo
  · simp [h1, show ¬ lo ≤ i by omega]
  · by_cases h2 : i ≤ hi
    · simp [h1, h2, show lo ≤ i by omega, show i - lo < hi + 1 - lo by omega]
    · simp [h1, h2, show ¬ i - lo < hi + 1 - lo by omega, show i - lo - (hi + 1 - lo) + (hi + 1) = i by omega]

/-- A field reads as what was put into it. -/
theorem bitsOf_putBits {hi lo : Nat} (h : lo ≤ hi) (w v : Nat) :
    bitsOf (putBits w hi lo v) hi lo = v % 2 ^ (hi + 1 - lo) := by
  refine Nat.eq_of_testBit_eq fun i => ?_
  rw [testBit_bitsOf, testBit_putBits h, Nat.testBit_mod_two_pow]
  by_cases hi' : i < hi + 1 - lo
  · simp [hi', show lo + i ≤ hi by omega]
  · simp [hi']

/-- A field apart from the one put reads as before. -/
theorem bitsOf_putBits_apart {hi lo hi' lo' : Nat} (h : lo ≤ hi) (ha : hi' < lo ∨ hi < lo') (w v : Nat) :
    bitsOf (putBits w hi lo v) hi' lo' = bitsOf w hi' lo' := by
  refine Nat.eq_of_testBit_eq fun i => ?_
  rw [testBit_bitsOf, testBit_bitsOf, testBit_putBits h]
  by_cases hi : i < hi' + 1 - lo'
  · rw [if_neg (by omega)]
  · simp [hi]

/-- Putting a field's own bits changes nothing. -/
theorem putBits_bitsOf {hi lo : Nat} (h : lo ≤ hi) (w : Nat) : putBits w hi lo (bitsOf w hi lo) = w := by
  refine Nat.eq_of_testBit_eq fun i => ?_
  rw [testBit_putBits h, testBit_bitsOf]
  split
  · simp [show i - lo < hi + 1 - lo by omega, show lo + (i - lo) = i by omega]
  · rfl

theorem bitsOf_lt (w hi lo : Nat) : bitsOf w hi lo < 2 ^ (hi + 1 - lo) := Nat.mod_lt _ (Nat.two_pow_pos _)

/-- A field inside a word reads the same in the word. -/
theorem bitsOf_ofNat {n hi : Nat} (h : hi < n) (w lo : Nat) : bitsOf (BitVec.ofNat n w).toNat hi lo = bitsOf w hi lo := by
  refine Nat.eq_of_testBit_eq fun i => ?_
  rw [testBit_bitsOf, testBit_bitsOf, BitVec.toNat_ofNat, Nat.testBit_mod_two_pow]
  by_cases hi' : i < hi + 1 - lo
  · simp [show lo + i < n by omega]
  · simp [hi']

theorem bitsOf_and (x y hi lo : Nat) : bitsOf (x &&& y) hi lo = bitsOf x hi lo &&& bitsOf y hi lo := by
  refine Nat.eq_of_testBit_eq fun i => ?_
  simp only [testBit_bitsOf, Nat.testBit_and]
  cases decide (i < hi + 1 - lo) <;> simp

/-- A number is what it has apart from another and what it shares with it. -/
theorem ldiff_add_and (x y : Nat) : Nat.ldiff x y + (x &&& y) = x := by
  induction x using Nat.binaryRec generalizing y with
  | zero => simp [Nat.ldiff]
  | bit a m ih =>
    cases y using Nat.bitCasesOn with
    | bit b n =>
      have h := ih n
      rw [Nat.ldiff_bit, Nat.land_bit, Nat.bit_val, Nat.bit_val, Nat.bit_val]
      cases a <;> cases b <;> simp <;> omega

theorem bitwise_diff (x y : Nat) : Nat.bitwise (fun a b => a && !b) x y = x - (x &&& y) :=
  Nat.eq_sub_of_add_eq (ldiff_add_and x y)

/-! ### The fields of a register (R7, Tables 19.2 to 19.4) -/

/-- The fields lie inside the register, from the highest down, and apart from each other. -/
def FieldsApart (n : Nat) (fs : List RegField) : Prop :=
  (∀ f ∈ fs, f.lo ≤ f.hi ∧ f.hi < n) ∧ fs.Pairwise (fun f g => g.hi < f.lo)

/-- Every register of the index has its fields apart. -/
theorem regRows_fieldsApart : ∀ r ∈ regRows, FieldsApart r.width r.fields := by
  unfold FieldsApart
  decide +kernel

/-- What a read of a 32-bit register masks out is its write-only fields. -/
theorem bitsOf_readMask : ∀ r ∈ regRows, r.width = 32 → ∀ f ∈ r.fields,
    bitsOf (readMask r.fields 0) f.hi f.lo = if f.acc = .wo then 0 else 2 ^ (f.hi + 1 - f.lo) - 1 := by
  decide +kernel

theorem mem_of_findReg {off d : Nat} {r : RegRow} {rows : List RegRow} (h : findReg off rows = some (r, d)) : r ∈ rows := by
  induction rows with
  | nil => simp [findReg] at h
  | cons x xs ih =>
    simp only [findReg] at h
    split at h
    · simp only [Option.some.injEq, Prod.mk.injEq] at h
      exact h.1 ▸ List.mem_cons_self
    · exact List.mem_cons_of_mem _ (ih h)

section
variable {step : Nat → RegField → Nat} {g : RegField → Nat → Nat} {fs : List RegField}

/-- Replacing the contents of lower fields leaves a field alone. -/
theorem bitsOf_foldl_below (hs : ∀ x ∈ fs, ∀ o, step o x = putBits o x.hi x.lo (g x (bitsOf o x.hi x.lo))) {f : RegField}
    (hb : ∀ x ∈ fs, x.lo ≤ x.hi ∧ x.hi < f.lo) (w : Nat) : bitsOf (fs.foldl step w) f.hi f.lo = bitsOf w f.hi f.lo := by
  induction fs generalizing w with
  | nil => rfl
  | cons x xs ih =>
    obtain ⟨hx, hxf⟩ := hb x List.mem_cons_self
    rw [List.foldl_cons, ih (fun y hy => hs y (List.mem_cons_of_mem _ hy)) (fun y hy => hb y (List.mem_cons_of_mem _ hy)),
      hs x List.mem_cons_self, bitsOf_putBits_apart hx (.inr hxf)]

/-- When each field's content is replaced in turn, each ends with its own replacement. -/
theorem bitsOf_foldl_fields {n : Nat} (ha : FieldsApart n fs)
    (hs : ∀ x ∈ fs, ∀ o, step o x = putBits o x.hi x.lo (g x (bitsOf o x.hi x.lo))) {f : RegField} (hf : f ∈ fs) (w : Nat) :
    bitsOf (fs.foldl step w) f.hi f.lo = g f (bitsOf w f.hi f.lo) % 2 ^ (f.hi + 1 - f.lo) := by
  induction fs generalizing w with
  | nil => simp at hf
  | cons x xs ih =>
    obtain ⟨hin, hpw⟩ := ha
    obtain ⟨hx, hpw⟩ := List.pairwise_cons.1 hpw
    have hin' : ∀ y ∈ xs, y.lo ≤ y.hi ∧ y.hi < n := fun y hy => hin y (List.mem_cons_of_mem _ hy)
    have hs' := fun y hy => hs y (List.mem_cons_of_mem _ hy)
    rw [List.foldl_cons]
    rcases List.mem_cons.1 hf with rfl | hf
    · rw [bitsOf_foldl_below hs' (fun y hy => ⟨(hin' y hy).1, hx y hy⟩), hs f List.mem_cons_self,
        bitsOf_putBits (hin f List.mem_cons_self).1]
    · rw [ih ⟨hin', hpw⟩ hs' hf, hs x List.mem_cons_self,
        bitsOf_putBits_apart (hin x List.mem_cons_self).1 (.inl (hx f hf))]
end

/-- What a field holds after a management write of `new` to it, outside Dawn (R7). -/
def Access.written (a : Access) (old new : Nat) : Nat :=
  match a with
  | .rw | .rwp => new
  | .w1c => old - (old &&& new)
  | .w1s => old ||| new
  | .ro | .wo | .rc | .rl => old

theorem Access.written_lt (a : Access) {n old new : Nat} (ho : old < 2 ^ n) (hn : new < 2 ^ n) : a.written old new < 2 ^ n := by
  cases a with
  | rw | rwp => exact hn
  | w1c => exact Nat.lt_of_le_of_lt (Nat.sub_le _ _) ho
  | w1s => exact Nat.or_lt_two_pow ho hn
  | ro | wo | rc | rl => exact ho

/-- A write to a field of a 32-bit register replaces its content by its access code. -/
theorem fieldWrite_eq {f : RegField} (h : f.lo ≤ f.hi) (h32 : f.hi < 32) (old v : Nat) :
    fieldWrite false f 0 32 old v = putBits old f.hi f.lo (f.acc.written (bitsOf old f.hi f.lo) (bitsOf v f.hi f.lo)) := by
  have hlo : ¬ (f.lo < 0 ∨ 0 + 32 ≤ f.lo) := by omega
  have hhi : Nat.min f.hi (0 + 32 - 1) = f.hi := Nat.min_eq_left (by omega)
  simp only [fieldWrite, if_neg hlo, hhi, Nat.sub_zero]
  cases f.acc with
  | rw | rwp => rfl
  | w1c => simp only [Access.written, bitwise_diff]
  | w1s => rfl
  | ro | wo | rc | rl => exact (putBits_bitsOf h old).symm

/-- After a write to a 32-bit register every field holds what its access code says. -/
theorem bitsOf_wordWrite {fs : List RegField} (ha : FieldsApart 32 fs) {f : RegField} (hf : f ∈ fs) (old v : Nat) :
    bitsOf (wordWrite false fs 0 old v) f.hi f.lo = f.acc.written (bitsOf old f.hi f.lo) (bitsOf v f.hi f.lo) := by
  unfold wordWrite
  rw [bitsOf_foldl_fields (g := fun x o => x.acc.written o (bitsOf v x.hi x.lo)) ha ?step hf,
    Nat.mod_eq_of_lt (f.acc.written_lt (bitsOf_lt ..) (bitsOf_lt ..))]
  case step =>
    intro x hx o
    obtain ⟨h1, h2⟩ := ha.1 x hx
    simp only [Nat.not_lt_zero, if_false, show Nat.max x.lo 0 = x.lo from Nat.max_zero ..]
    exact fieldWrite_eq h1 h2 o v

/-! ### Where the register index holds an offset -/

/-- The row's last copy ends at or before an offset. -/
def RegRow.endsBy (r : RegRow) (b : Nat) : Bool :=
  match r.dims with
  | [] => r.base + r.width / 8 ≤ b
  | (n, st) :: _ => 0 < st && r.base + n * st ≤ b

/-- A row that has ended does not hold an offset. -/
theorem RegRow.at_of_endsBy {r : RegRow} {b off : Nat} (h : r.endsBy b = true) (hb : b ≤ off) : r.at off = none := by
  unfold RegRow.endsBy at h
  unfold RegRow.at
  split
  · rfl
  · cases hd : r.dims with
    | nil =>
      simp only [hd, decide_eq_true_eq] at h
      simp only [dimOffset]
      rw [if_neg (by omega)]
    | cons x t =>
      obtain ⟨n, st⟩ := x
      simp only [hd, Bool.and_eq_true, decide_eq_true_eq] at h
      have hpast : ¬ (off - r.base) / st < n := Nat.not_lt.2 ((Nat.le_div_iff_mul_le h.1).2 (by omega))
      simp only [dimOffset, if_neg hpast]

/-- The first rows that have ended do not matter. -/
theorem findReg_dropWhile {off b : Nat} (h : b ≤ off) (rows : List RegRow) :
    findReg off rows = findReg off (rows.dropWhile (·.endsBy b)) := by
  induction rows with
  | nil => rfl
  | cons x xs ih =>
    rw [List.dropWhile_cons]
    split
    case isTrue hx => rw [← ih, findReg, RegRow.at_of_endsBy hx h]
    case isFalse => rfl

/-- The byte of a replicated register that an offset into one of its copies names. -/
theorem RegRow.at_stride {r : RegRow} {n st q d off : Nat} (hr : r.dims = [(n, st)]) (hoff : off = r.base + q * st + d)
    (hq : q < n) (hd : d < st) : r.at off = if d < r.width / 8 then some d else none := by
  have hst : 0 < st := by omega
  have hrel : off - r.base = d + st * q := by rw [hoff, Nat.mul_comm]; omega
  have hdiv : (d + st * q) / st < n := by rwa [Nat.add_mul_div_left _ _ hst, Nat.div_eq_of_lt hd, Nat.zero_add]
  have hmod : (d + st * q) % st = d := by rw [Nat.add_mul_mod_self_left, Nat.mod_eq_of_lt hd]
  unfold RegRow.at
  rw [if_neg (by omega), hr, hrel]
  simp only [dimOffset, if_pos hdiv, hmod]

/-! ### Management accesses -/

theorem exec_registerWrite (m off : Nat) (v : BitVec 32) (bytes : Nat) (s : State) :
    exec (.registerWrite m off v bytes) s = execRegisterWrite m off v bytes s := rfl

theorem exec_rcRead (m off bytes : Nat) (s : State) : exec (.rcRead m off bytes) s = execRcRead m off bytes s := rfl

theorem exec_lowHalfRead (m off : Nat) (s : State) : exec (.lowHalfRead m off) s = execLowHalfRead m off s := rfl

theorem exec_lowHalfWrite (m off : Nat) (v : BitVec 32) (s : State) :
    exec (.lowHalfWrite m off v) s = execLowHalfWrite m off v s := rfl

theorem exec_highHalfWrite (m off : Nat) (v : BitVec 32) (s : State) :
    exec (.highHalfWrite m off v) s = execHighHalfWrite m off v s := rfl

/-- An access that is made finds the window open, has a path, and is one aligned word. -/
theorem State.accessOk_iff {s : State} {m off bytes : Nat} :
    s.accessOk m off bytes = true ↔ s.windowUp = true ∧ regMaster m = true ∧ bytes = 4 ∧ off % 4 = 0 := by
  simp [State.accessOk, and_assoc]

/-- A saturating counter counts up to its greatest value. -/
theorem State.fld_satInc (s : State) (r : RegRef) {hi lo : Nat} (h : lo ≤ hi) (h32 : hi < 32) :
    (s.satInc r hi lo).fld r hi lo = Nat.min (2 ^ (hi + 1 - lo) - 1) (s.fld r hi lo + 1) := by
  have hlt : s.fld r hi lo < 2 ^ (hi + 1 - lo) := bitsOf_lt ..
  have hmin : ∀ a b : Nat, Nat.min a b = if a ≤ b then a else b := fun a b => Nat.min_def ..
  rw [hmin]
  unfold State.satInc
  split
  · rw [State.fld, State.setFld, State.rd_wr, bitsOf_ofNat h32, bitsOf_putBits h, Nat.mod_eq_of_lt (by assumption)]
    split <;> omega
  · split <;> omega

theorem State.satInc_frame (s : State) (r : RegRef) (hi lo : Nat) :
    s.satInc r hi lo = { s with regs := (s.satInc r hi lo).regs } ∧ OnlyRegs s (s.satInc r hi lo) [r.off] := by
  refine ⟨?_, fun q hq => s.rd_satInc_ne r q hi lo (by simpa using hq)⟩
  unfold State.satInc
  split <;> rfl

/-- The Record Unit's log changes nothing but the Record Unit and its status register. -/
theorem State.log_frame (s : State) (ty a : Nat) (b : W64) (pay : List W64) :
    s.log ty a b pay = { s with regs := (s.log ty a b pay).regs, recd := (s.log ty a b pay).recd } ∧
      OnlyRegs s (s.log ty a b pay) [Reg.recStat.off] := by
  obtain ⟨hfr, hsat⟩ := s.satInc_frame Reg.recStat 23 0
  unfold State.log
  split
  · simp only
    split
    · exact ⟨rfl, fun _ _ => rfl⟩
    · exact ⟨by rw [hfr], hsat⟩
  · exact ⟨rfl, fun _ _ => rfl⟩

theorem State.noted_frame (s : State) (m off : Nat) (v : BitVec 32) :
    s.noted m off v = { s with regs := (s.noted m off v).regs, recd := (s.noted m off v).recd } ∧
      OnlyRegs s (s.noted m off v) [Reg.recStat.off] := by
  unfold State.noted
  split
  · exact s.log_frame ..
  · exact ⟨rfl, fun _ _ => rfl⟩

/-- The mode whose rules apply follows the mode, the phase of Dusk and the mode before it. -/
theorem State.actMode_congr {s t : State} (hm : t.mode = s.mode) (hd : t.drainMode = s.drainMode)
    (hr : t.rd Reg.pwrDuskStat = s.rd Reg.pwrDuskStat) : t.actMode = s.actMode := by
  unfold State.actMode State.fld
  rw [hm, hd, hr]

@[simp] theorem State.actMode_noted (s : State) (m off : Nat) (v : BitVec 32) :
    (s.noted m off v).actMode = s.actMode := by
  obtain ⟨hf, hr⟩ := s.noted_frame m off v
  exact State.actMode_congr (by rw [hf]) (by rw [hf]) (hr _ (by decide))

/-- A write that takes effect here does so in the state that the Record Unit has noted. -/
theorem State.gate_direct {s : State} {m off : Nat} (h : s.direct m off = true) (v : BitVec 32) (act : State → State) :
    s.gate m off v act = act (s.noted m off v) := by
  simp only [State.direct, Bool.and_eq_true, Bool.not_eq_true', Bool.and_eq_false_iff] at h
  obtain ⟨⟨-, hdbg⟩, hhost⟩ := h
  have h41 : ¬ (decide (m = 41) && s.actMode.mirrored && !ownSideBlock off) = true := by grind
  have hlead : ¬ (decide (m = 35) && s.forwarding && !ownSideBlock off) = true := by grind
  have hpacer : ¬ (decide (m = 35) && s.pacer && !ownSideBlock off) = true := by grind
  rw [State.gate, if_neg h41, if_neg hlead, if_neg hpacer]
  rfl

/-- A write that takes effect is an access that is made. -/
theorem State.accessOk_of_direct {s : State} {m off : Nat} (h : s.direct m off = true) : s.accessOk m off 4 = true := by
  simp only [State.direct, Bool.and_eq_true] at h
  exact h.1.1

/-- A direct write that is not to DEV_CTL, nor to STA_ADMIT_CTRL in a replay, has the register's own effect. -/
theorem State.mgmtWrite_direct {s : State} {m off : Nat} (h : s.direct m off = true) (h8 : off ≠ 8)
    (hr : ¬ (off = 0x301000 ∧ s.actMode = .replay)) (v : BitVec 32) :
    s.mgmtWrite m off v = (s.noted m off v).regWrite false m off v := by
  unfold State.mgmtWrite
  rw [State.gate_direct h]
  simp only [State.actMode_noted, if_neg h8]
  rw [if_neg (by simpa using hr)]

/-- An access that is not made has no effect, unless its master lacks a path. -/
theorem State.noAccess_of_path {s : State} {m : Nat} (h : s.windowUp = false ∨ regMaster m = true) (off : Nat) :
    s.noAccess m off = s := by
  unfold State.noAccess
  rw [if_neg]
  rcases h with h | h <;> simp [h]

/-! ### What the Fault Collector changes (R410 to R412, R421, R422) -/

/-- The registers that a fault record may change: the counters of the Collector and of dropped flits, the overflow counts, and
the Handoff's. -/
def faultOffs : List Nat :=
  [Reg.ringCntDrop.off, Reg.ringCntDrop.off + 4, Reg.fltCntFwd.off, Reg.fltCntFwd.off + 4, Reg.fltCntCoal.off,
    Reg.fltCntCoal.off + 4, Reg.fltStat.off, Reg.pairStat.off, Reg.pairHandoffLap.off, Reg.pairHandoffLap.off + 4] ++
  (List.range 256).map (fun c => (Reg.fltOvf c).off)

/-- Nothing differs but the registers of fault records, the links, the pair unit and the Fault Collector, which forgets no key
that it has seen. -/
def FaultOnly (s t : State) : Prop :=
  t = { s with regs := t.regs, ring := t.ring, pair := t.pair, flt := t.flt } ∧ OnlyRegs s t faultOffs ∧
    s.flt.keys ⊆ t.flt.keys

theorem FaultOnly.refl (s : State) : FaultOnly s s := ⟨rfl, fun _ _ => rfl, fun _ h => h⟩

theorem FaultOnly.trans {s t u : State} (h : FaultOnly s t) (k : FaultOnly t u) : FaultOnly s u := by
  obtain ⟨h1, h2, h3⟩ := h
  obtain ⟨k1, k2, k3⟩ := k
  exact ⟨by rw [k1, h1], fun r hr => (k2 r hr).trans (h2 r hr), fun _ hx => k3 (h3 hx)⟩

theorem FaultOnly.inject (s : State) (p : Nat) (f : Flit) : FaultOnly s (s.inject p f) := ⟨rfl, fun _ _ => rfl, fun _ h => h⟩

theorem FaultOnly.setTx (s : State) (k : Nat) (x : TxE2e) : FaultOnly s (s.setTx k x) := ⟨rfl, fun _ _ => rfl, fun _ h => h⟩

theorem FaultOnly.wr (s : State) {r : RegRef} (h : r.off ∈ faultOffs) (v : BitVec 32) : FaultOnly s (s.wr r v) :=
  ⟨rfl, fun q hq => s.rd_wr_ne r q v (fun e => hq (e ▸ h)), fun _ h => h⟩

theorem FaultOnly.wr64 (s : State) {r : RegRef} (h : r.off ∈ faultOffs) (h' : r.off + 4 ∈ faultOffs) (v : W64) :
    FaultOnly s (s.wr64 r v) := (FaultOnly.wr s h _).trans (FaultOnly.wr _ h' _)

theorem FaultOnly.satInc (s : State) {r : RegRef} (h : r.off ∈ faultOffs) (hi lo : Nat) : FaultOnly s (s.satInc r hi lo) := by
  unfold State.satInc
  split
  · exact FaultOnly.wr s h _
  · exact FaultOnly.refl s

theorem FaultOnly.toPort (s : State) (p : Nat) (f : Flit) : FaultOnly s (s.toPort p f) := by
  unfold State.toPort
  split
  · exact FaultOnly.inject ..
  · split
    · exact FaultOnly.wr64 s (by decide) (by decide) _
    · exact FaultOnly.inject ..

theorem FaultOnly.sendCtl (s : State) (ws : List W64) : FaultOnly s (s.sendCtl ws) := by
  unfold State.sendCtl
  split
  · exact FaultOnly.refl s
  · exact ((FaultOnly.setTx ..).trans (FaultOnly.toPort ..)).trans (FaultOnly.toPort ..)

theorem FaultOnly.fixHandoff (s : State) (r : FaultRec) (trail : Bool) : FaultOnly s (s.fixHandoff r trail) := by
  have h : FaultOnly s { s with pair := { s.pair with ident := some r, handoff := some (s.fullLap r.lap16 + 4, trail) } } :=
    ⟨rfl, fun _ _ => rfl, fun _ h => h⟩
  exact (h.trans (FaultOnly.wr _ (by decide) _)).trans (FaultOnly.wr64 _ (by decide) (by decide) _)

theorem FaultOnly.identify (s : State) (r : FaultRec) : FaultOnly s (s.identify r) := by
  unfold State.identify State.identifyBy
  split
  · split
    · exact FaultOnly.fixHandoff ..
    · split
      · exact FaultOnly.refl s
      · dsimp only
        split
        · exact FaultOnly.fixHandoff ..
        · split
          · exact FaultOnly.fixHandoff ..
          · exact FaultOnly.refl s
  · exact FaultOnly.refl s

theorem fltOvf_mem_faultOffs (r : FaultRec) : (Reg.fltOvf r.cls).off ∈ faultOffs :=
  List.mem_append_right _ (List.mem_map.2 ⟨r.cls, List.mem_range.2 (bitsOf_lt _ 47 40), rfl⟩)

theorem FaultOnly.queueRec (s : State) (r : FaultRec) : FaultOnly s (s.queueRec r) := by
  have hq : ∀ q, FaultOnly s { s with flt := { s.flt with queue := q } } := fun _ => ⟨rfl, fun _ _ => rfl, fun _ h => h⟩
  unfold State.queueRec
  split
  · exact hq _
  · split
    · exact (hq _).trans (FaultOnly.wr64 _ (by decide) (by decide) _)
    · split
      · exact hq _
      · exact (FaultOnly.satInc s (fltOvf_mem_faultOffs r) _ _).trans (FaultOnly.wr _ (by decide) _)

/-- The Fault Collector takes a record in: its key is known, and nothing but what is its own differs. -/
theorem State.collect_faultOnly (s : State) (r : FaultRec) (src : RecSrc) :
    FaultOnly s (s.collect r src) ∧ r.key ∈ (s.collect r src).flt.keys := by
  have hseen : ∃ s1 : State, FaultOnly s s1 ∧ r.key ∈ s1.flt.keys ∧
      s1 = if s.flt.keys.contains r.key then s else { s with flt := { s.flt with keys := s.flt.keys ++ [r.key] } } := by
    refine ⟨_, ?_, ?_, rfl⟩ <;> split
    · exact FaultOnly.refl s
    · exact ⟨rfl, fun _ _ => rfl, fun _ h => List.mem_append_left _ h⟩
    · simpa using ‹s.flt.keys.contains r.key = true›
    · simp
  obtain ⟨s1, h1, hk, e1⟩ := hseen
  have hrest : FaultOnly s1 (s.collect r src) := by
    unfold State.collect
    simp only [← e1]
    refine FaultOnly.trans ?_ (FaultOnly.queueRec _ _)
    refine FaultOnly.trans ?_ (FaultOnly.identify _ _)
    have hfwd : FaultOnly s1 (if src = .own && 2 ≤ r.sev && !s.flt.keys.contains r.key && s.ringSize ≠ 0 then
        (s1.sendCtl [r.w0, r.w1, r.w2, r.w3]).add64 Reg.fltCntFwd 1 else s1) := by
      split
      · exact (FaultOnly.sendCtl ..).trans (FaultOnly.wr64 _ (by decide) (by decide) _)
      · exact FaultOnly.refl s1
    split
    · exact hfwd.trans (FaultOnly.inject ..)
    · exact hfwd
  exact ⟨h1.trans hrest, hrest.2.2 hk⟩

/-- The coalescing key of a record stands in its first word (R421, Table 12.7). -/
theorem FaultRec.key_congr {r q : FaultRec} (h : r.w0 = q.w0) : r.key = q.key := by
  simp only [FaultRec.key, FaultRec.origin, FaultRec.side, FaultRec.cls, h]

theorem State.onTrail_congr {s t : State} (ha : t.actMode = s.actMode) (hp : t.rd Reg.pairCfg = s.rd Reg.pairCfg) :
    t.onTrail = s.onTrail := by
  unfold State.onTrail State.fld
  rw [ha, hp]

/-- The first word of a record follows the Lap, the class, the severity, the side and the origin. -/
theorem State.mkRec_w0_congr {s t : State} (hl : t.lap = s.lap) (ht : t.onTrail = s.onTrail)
    (cls sev origin addr addr' epoch task detail : Nat) :
    (t.mkRec cls sev origin addr epoch task detail).w0 = (s.mkRec cls sev origin addr' epoch task detail).w0 := by
  simp only [State.mkRec, hl, ht]

/-- The record of an access without a path bears the key of its class and master (R309). -/
theorem State.key_unmapped (s : State) (o a : Nat) :
    ((s.satInc Reg.xbarStat 15 0).mkRec 0x13 (classSev 0x13) o a 0 0 0).key = (s.mkRec 0x13 0 o 0 0 0 0).key := by
  have hrd := (s.satInc_frame Reg.xbarStat 15 0).2
  have hl : (s.satInc Reg.xbarStat 15 0).lap = s.lap := by
    simp only [State.lap, State.lapTicks, State.fld, State.satInc_tb, hrd Reg.lapCfg (by decide)]
  exact FaultRec.key_congr (State.mkRec_w0_congr hl (State.onTrail_congr
    (State.actMode_congr (by simp) (by simp) (hrd _ (by decide))) (hrd _ (by decide))) ..)

/-- An access of a master without a path is counted and recorded as unmapped, and changes neither memory nor any engine (R26,
R309). -/
theorem State.noAccess_unmapped {s : State} {m : Nat} (hw : s.windowUp = true) (hp : regMaster m = false) (hm : m < 42)
    (off : Nat) :
    (s.noAccess m off).fld Reg.xbarStat 15 0 = Nat.min 0xFFFF (s.fld Reg.xbarStat 15 0 + 1) ∧
      (s.mkRec 0x13 0 (originOf s.pos 2 m) 0 0 0 0).key ∈ (s.noAccess m off).flt.keys ∧
      (s.noAccess m off).m = s.m ∧ (s.noAccess m off).engines = s.engines := by
  have hcond : (s.windowUp && !regMaster m && decide (m < 42)) = true := by simp [hw, hp, hm]
  simp only [State.noAccess, if_pos hcond, State.fault]
  obtain ⟨⟨hf, hr, -⟩, hk⟩ := State.collect_faultOnly (s.satInc Reg.xbarStat 15 0)
    ((s.satInc Reg.xbarStat 15 0).mkRec 0x13 (classSev 0x13) (originOf s.pos 2 m)
      (s.pos * 2 ^ 46 + 0x3F0000000000 + off % 2 ^ 30) 0 0 0) .own
  refine ⟨?_, s.key_unmapped (originOf s.pos 2 m) _ ▸ hk, ?_, ?_⟩
  · rw [State.fld, hr Reg.xbarStat (by decide +kernel)]
    exact s.fld_satInc Reg.xbarStat (by decide) (by decide)
  · rw [hf]; simp
  · rw [hf]; simp

/-- The debug port's write in a mirrored mode is counted and dropped (R559). -/
theorem State.gate_debug {s : State} {off : Nat} (hm : s.actMode.mirrored = true) (ho : ownSideBlock off = false)
    (v : BitVec 32) (act : State → State) : s.gate 41 off v act = s.satInc Reg.dbgStat 15 0 := by
  simp [State.gate, hm, ho]

/-- The host's write on a Lead is offered to the Lap's inputs (R397, R398). -/
theorem State.gate_lead {s : State} {off : Nat} (hf : s.forwarding = true) (ho : ownSideBlock off = false)
    (v : BitVec 32) (act : State → State) :
    s.gate 35 off v act = s.offer (.regwr s.lap off v) 0x3 [BitVec.ofNat 64 (off % 2 ^ 30), v.setWidth 64] := by
  simp [State.gate, hf, ho]

/-- The host's write on a Pacer is dropped; a doorbell's would be counted (R482). -/
theorem State.gate_pacer {s : State} {off : Nat} (hf : s.forwarding = false) (hp : s.pacer = true)
    (ho : ownSideBlock off = false) (hd : isDoorbell off = false) (v : BitVec 32) (act : State → State) :
    s.gate 35 off v act = s := by
  simp [State.gate, hf, hp, ho, hd]

/-- An input that the Lap holds joins those taken and is counted; memory and engines stay. -/
theorem State.takeInput_frame (s : State) (i : Input) (ty : Nat) (ws : List W64) :
    (s.takeInput i ty ws).pair.inputs = s.pair.inputs ++ [i] ∧ (s.takeInput i ty ws).pair.taken = s.pair.taken + 1 ∧
      OnlyRegs s (s.takeInput i ty ws) [Reg.pairCntInput.off, Reg.pairCntInput.off + 4] ∧
      (s.takeInput i ty ws).m = s.m ∧ (s.takeInput i ty ws).engines = s.engines := by
  unfold State.takeInput State.sendPair
  refine ⟨by simp, by simp, fun q hq => ?_, by simp, by simp⟩
  simp only [List.mem_cons, List.not_mem_nil, or_false, not_or] at hq
  exact State.rd_add64_ne _ _ q 1 hq.1 hq.2

/-- Settles O31: what a write without access does, then the gate's cases by the master and the part's role. -/
theorem writeRouting : Obligations.WriteRouting := by
  intro s m off v bytes
  simp only [exec_registerWrite, execRegisterWrite]
  refine ⟨fun hno hpath => ?_, fun hw hp hm => ?_, fun hok => ?_⟩
  · rw [hno, if_neg (by decide), State.noAccess_of_path hpath]
  · rw [if_neg (by simp [State.accessOk, hp])]
    exact ⟨_, rfl, State.noAccess_unmapped hw hp hm off⟩
  · simp only [if_pos hok, State.mgmtWrite]
    refine ⟨?_, ?_, ?_, ?_, fun hd h8 hr => ?_⟩
    · rintro rfl hmir hown
      obtain ⟨hfr, hregs⟩ := s.satInc_frame Reg.dbgStat 15 0
      exact ⟨_, congrArg _ (State.gate_debug hmir hown v _), hfr, hregs, s.fld_satInc _ (by decide) (by decide)⟩
    · rintro rfl hfwd hown hroom
      rw [State.gate_lead hfwd hown, State.offer, if_neg (by simp [hroom])]
    · rintro rfl hfwd hown hroom
      rw [State.gate_lead hfwd hown, State.offer, if_pos hroom]
      exact ⟨_, rfl, s.takeInput_frame ..⟩
    · rintro rfl hfwd hpac hown hdoor
      rw [State.gate_pacer hfwd hpac hown hdoor]
    · exact congrArg _ (State.mgmtWrite_direct hd h8 hr v)

/-! ### Access codes (R7, R8) -/

/-- A 32-bit register found at its own offset has no halves. -/
theorem half64_of_word {off : Nat} {r : RegRow} (h : findReg off regRows = some (r, 0)) (hw : r.width = 32) :
    half64 off = none := by
  simp [half64, h, hw]

theorem FieldsApart.of_findReg {off : Nat} {r : RegRow} (h : findReg off regRows = some (r, 0)) (hw : r.width = 32) :
    FieldsApart 32 r.fields := hw ▸ regRows_fieldsApart r (mem_of_findReg h)

/-- A write to a plain 32-bit register follows its access codes alone. -/
theorem State.regWrite_plain {s : State} {off : Nat} {r : RegRow} (h : findReg off regRows = some (r, 0)) (hw : r.width = 32)
    (hp : plainOffset off = true) (m : Nat) (v : BitVec 32) :
    s.regWrite false m off v = s.wr ⟨off, BitVec.ofNat 32 r.rst⟩
      (BitVec.ofNat 32 (wordWrite false r.fields 0 (s.rd ⟨off, BitVec.ofNat 32 r.rst⟩).toNat v.toNat)) := by
  have hword : s.writeWord false off v = s.wr ⟨off, BitVec.ofNat 32 r.rst⟩
      (BitVec.ofNat 32 (wordWrite false r.fields 0 (s.rd ⟨off, BitVec.ofNat 32 r.rst⟩).toNat v.toNat)) := by
    simp [State.writeWord, h]
  simp only [plainOffset, Bool.and_eq_true, Bool.not_eq_true', List.contains_eq_mem, List.mem_cons, List.not_mem_nil,
    or_false, decide_eq_false_iff_not, not_or, Bool.and_eq_false_iff] at hp
  obtain ⟨⟨⟨hB, hC, hD⟩, -, hkick, hcmd, -, htt, hpop⟩, hbuf⟩ := hp
  have hbuf' : ¬ (0x100100 ≤ off ∧ off < 0x100200) := fun h => by rcases hbuf with h' | h' <;> omega
  simp only [State.regWrite, half64_of_word h hw, if_neg hkick, if_neg hcmd, if_neg htt, if_neg hpop, if_neg hB, if_neg hC,
    if_neg hD, ← hword, Bool.and_eq_true, decide_eq_true_eq]
  rw [if_neg fun h => hbuf' h.1]

/-- The write half of O32: the fields of a plain register after a write that takes effect. -/
theorem accessCodes_write : Claims.AccessCodes := by
  intro s m off v r hd hf hw hp
  have h8 : off ≠ 8 := by rintro rfl; simp [plainOffset] at hp
  have hctl : off ≠ 0x301000 := by rintro rfl; simp [plainOffset] at hp
  simp only [exec_registerWrite, execRegisterWrite, if_pos (State.accessOk_of_direct hd),
    State.mgmtWrite_direct hd h8 (fun h => hctl h.1), State.regWrite_plain hf hw hp]
  refine ⟨_, rfl, rfl, fun q hq => State.rd_wr_ne _ _ q _ (by simpa using hq), fun f hmem => ?_⟩
  have ha := FieldsApart.of_findReg hf hw
  rw [State.rd_wr, bitsOf_ofNat (ha.1 f hmem).2, bitsOf_wordWrite ha hmem]
  rfl

/-- A 32-bit register's word after a read: its RC fields are 0. -/
def clearedRC (fs : List RegField) (old : Nat) : Nat :=
  (fs.filter (fun f => f.acc = .rc ∧ f.lo / 32 * 32 = 0)).foldl (fun o f => putBits o f.hi f.lo 0) old

theorem bitsOf_clearedRC {fs : List RegField} (ha : FieldsApart 32 fs) {f : RegField} (hf : f ∈ fs) (old : Nat) :
    bitsOf (clearedRC fs old) f.hi f.lo = if f.acc = .rc then 0 else bitsOf old f.hi f.lo := by
  rw [clearedRC, List.foldl_filter, bitsOf_foldl_fields (g := fun x o => if x.acc = .rc then 0 else o) ha ?step hf,
    Nat.mod_eq_of_lt]
  · split
    · exact Nat.two_pow_pos _
    · exact bitsOf_lt ..
  case step =>
    intro x hx o
    obtain ⟨h1, h2⟩ := ha.1 x hx
    have hlow : x.lo / 32 * 32 = 0 := by omega
    by_cases hrc : x.acc = .rc
    · simp [hrc, hlow]
    · simp [hrc, putBits_bitsOf h1]

theorem State.clearRC_word {s : State} {off : Nat} {r : RegRow} (h : findReg off regRows = some (r, 0)) :
    s.clearRC off = s.wr ⟨off, BitVec.ofNat 32 r.rst⟩
      (BitVec.ofNat 32 (clearedRC r.fields (s.rd ⟨off, BitVec.ofNat 32 r.rst⟩).toNat)) := by
  simp only [State.clearRC, h, clearedRC, Nat.mul_zero, Nat.pow_zero, Nat.div_one, Nat.sub_zero]

/-- A stored word shows its write-only fields as 0 and every other field as it is. -/
theorem State.bitsOf_stored {s : State} {off : Nat} {r : RegRow} (h : findReg off regRows = some (r, 0)) (hw : r.width = 32)
    {f : RegField} (hf : f ∈ r.fields) : bitsOf (s.stored off).toNat f.hi f.lo =
      if f.acc = .wo then 0 else bitsOf (s.rd ⟨off, BitVec.ofNat 32 r.rst⟩).toNat f.hi f.lo := by
  have ha := FieldsApart.of_findReg h hw
  simp only [State.stored, h, Nat.mul_zero, Nat.pow_zero, Nat.div_one, BitVec.toNat_and]
  rw [bitsOf_and, bitsOf_ofNat (ha.1 f hf).2, bitsOf_readMask r (mem_of_findReg h) hw f hf]
  split
  · exact Nat.and_zero _
  · rw [Nat.and_two_pow_sub_one_eq_mod, Nat.mod_eq_of_lt (bitsOf_lt ..)]

/-- The read half of O32: what a read answers and clears. -/
theorem accessCodes_read : Claims.ReadsComplete := by
  refine ⟨fun s m off bytes hw hm hb => ?_, fun s m off r hok hf hw => ?_⟩
  · have hno : ¬ (s.accessOk m off bytes = true) := by
      rw [State.accessOk_iff]; rintro ⟨-, -, h4, hal⟩; exact hb.elim (· h4) (· hal)
    simp only [exec_rcRead, execRcRead, if_neg hno, State.noRead, hw, hm, Bool.and_self, if_true]
  · have ha := FieldsApart.of_findReg hf hw
    simp only [exec_rcRead, execRcRead, if_pos hok, State.mgmtRead, State.readReg, half64_of_word hf hw,
      State.clearRC_word hf]
    refine ⟨_, rfl, rfl, rfl, fun q hq => ?_, fun f hmem => ⟨?_, State.bitsOf_stored hf hw hmem⟩⟩
    · exact s.rd_wr_ne _ q _ (by simpa using hq)
    · rw [State.rd_emit, State.rd_wr, bitsOf_ofNat (ha.1 f hmem).2, bitsOf_clearedRC ha hmem]

/-- Settles O32: a write and a read of a register follow its access codes. -/
theorem accessCodes : Obligations.AccessCodes := ⟨accessCodes_write, accessCodes_read⟩

/-! ### The halves of 64-bit registers (R13, R14) -/

/-- Masters have latches and staging buffers of their own. -/
theorem latchKey_ne {m n off o : Nat} (hm : m < 64) (hn : n < 64) (h : n ≠ m) : latchKey n o ≠ latchKey m off := by
  unfold latchKey; omega

theorem State.clearRC_frame (s : State) (off : Nat) : s.clearRC off = { s with regs := (s.clearRC off).regs } := by
  unfold State.clearRC
  split <;> rfl

/-- A read of the low half answers it and latches the high half. -/
theorem State.mgmtRead_low {s : State} {off : Nat} (h : half64 off = some 0) (m : Nat) :
    s.mgmtRead m off = { s with
      regs := (s.mgmtRead m off).regs, latch := SMap.set 0 s.latch (latchKey m off) (s.show (off + 4)),
      host := { s.host with out := s.host.out ++ [.regData m off (s.show off)] } } := by
  simp only [State.mgmtRead, State.readReg, h]
  rw [State.clearRC_frame]
  rfl

/-- A read of the high half answers what the master's latch holds. -/
theorem State.mgmtRead_high {s : State} {off : Nat} (h : half64 off = some 4) (m : Nat) :
    s.mgmtRead m off = { s with
      regs := (s.mgmtRead m off).regs,
      host := { s.host with out := s.host.out ++ [.regData m off (SMap.get 0 s.latch (latchKey m (off - 4)))] } } := by
  simp only [State.mgmtRead, State.readReg, h]
  rw [State.clearRC_frame]
  rfl

/-- Settles O33: the low half's read latches for its master what the high half's read answers. -/
theorem halvesReadTogether : Obligations.HalvesReadTogether := by
  refine ⟨fun s m off hok hlow => ?_, fun s m off hok hhigh => ?_, fun _ => rfl⟩
  · simp only [exec_lowHalfRead, exec_rcRead, execLowHalfRead, execRcRead, hok, hlow, Bool.not_true, Bool.false_eq_true,
      if_false, if_true]
    have ht := State.mgmtRead_low hlow (s := s) m
    refine ⟨_, rfl, rfl, ?_, ?_, fun n hn hn64 hm64 o => ?_, ?_⟩
    · rw [ht]
    · rw [ht]; exact SMap.get_set_self ..
    · rw [ht]; exact SMap.get_set_ne _ _ _ _ _ _ (latchKey_ne hm64 hn64 hn)
    · rw [ht]
  · simp only [exec_rcRead, execRcRead, if_pos hok]
    have ht := State.mgmtRead_high hhigh (s := s) m
    exact ⟨_, rfl, by rw [ht], by rw [ht]⟩

/-! ### Writes of half a register (R14) -/

/-- Whether a write takes effect follows the block and the alignment of its offset. -/
theorem State.direct_congr {s : State} {m off off' : Nat} (ho : ownSideBlock off' = ownSideBlock off) (ha : off' % 4 = off % 4) :
    s.direct m off' = s.direct m off := by
  simp only [State.direct, State.accessOk, ho, ha]

/-- Registers with halves are none of those whose management writes act at once. -/
theorem ne_of_half64 {off d : Nat} (h : half64 off = some d) : off ≠ 8 ∧ off ≠ 0x301000 := by
  have h8 : half64 8 = none := by decide +kernel
  have hctl : half64 0x301000 = none := by decide +kernel
  constructor <;> rintro rfl <;> simp_all

/-- A direct write of half a register has that half's effect. -/
theorem State.mgmtWrite_half {s : State} {m off d : Nat} (hd : s.direct m off = true) (h : half64 off = some d) (v : BitVec 32) :
    s.mgmtWrite m off v = (s.noted m off v).regWrite false m off v :=
  State.mgmtWrite_direct hd (ne_of_half64 h).1 (fun hr => (ne_of_half64 h).2 hr.1) v

/-- A write of the low half is staged for its master. -/
theorem State.regWrite_low {s : State} {off : Nat} (h : half64 off = some 0) (m : Nat) (v : BitVec 32) :
    s.regWrite false m off v = s.stage m off v := by
  simp [State.regWrite, h]

theorem State.regWrite_high {s : State} {off : Nat} (h : half64 off = some 4) (m : Nat) (v : BitVec 32) :
    s.regWrite false m off v = s.highWrite false m off v := by
  simp [State.regWrite, h]

@[simp] theorem State.staged_stage (s : State) (m off : Nat) (v : BitVec 32) :
    SMap.get none (s.stage m off v).staged (latchKey m off) = some v := SMap.get_set_self none s.staged _ (some v)

theorem State.staged_stage_ne (s : State) (m off : Nat) (v : BitVec 32) {k : Nat} (h : k ≠ latchKey m off) :
    SMap.get none (s.stage m off v).staged k = SMap.get none s.staged k := SMap.get_set_ne none none s.staged _ k (some v) h

/-! ### The bases of the host's queues (R14, R477) -/

/-- The base of a submission or a completion queue. -/
def hostBase (sub : Bool) (q : Nat) : RegRef := if sub then Reg.hostSqBase q else Reg.hostCqBase q

/-- The configuration of a submission or a completion queue. -/
def hostCfg (sub : Bool) (q : Nat) : RegRef := if sub then Reg.hostSqCfg q else Reg.hostCqCfg q

/-- The rows of the register index for the queues' bases, HOST_SQ_BASE and HOST_CQ_BASE. -/
def hostBaseRow (sub : Bool) : RegRow := ⟨if sub then 0xD01000 else 0xD01010, [(64, 0x20)], 64, [⟨63, 12, .rw, 0x0⟩]⟩

theorem hostBase_off (sub : Bool) (q : Nat) : (hostBase sub q).off = 0xD01000 + q * 32 + (if sub then 0 else 16) := by
  cases sub with
  | true => rfl
  | false => exact Nat.add_right_comm 0xD01000 16 (q * 32)

/-- The rows that precede the queues' have ended where those begin, and the two words between the bases are HOST_SQ_CFG and
HOST_SQ_TAIL. -/
theorem regRows_hostQueues : ∃ cfg tail rest,
    regRows.dropWhile (·.endsBy 0xD01000) = hostBaseRow true :: cfg :: tail :: hostBaseRow false :: rest ∧
      cfg.base = 0xD01008 ∧ cfg.dims = [(64, 0x20)] ∧ cfg.width = 32 ∧
      tail.base = 0xD0100C ∧ tail.dims = [(64, 0x20)] ∧ tail.width = 32 :=
  ⟨_, _, _, rfl, rfl, rfl, rfl, rfl, rfl, rfl⟩

/-- The register index holds each queue's base in its row. -/
theorem findReg_hostBase (sub : Bool) {q d : Nat} (hq : q < 64) (hd : d < 8) :
    findReg ((hostBase sub q).off + d) regRows = some (hostBaseRow sub, d) := by
  obtain ⟨cfg, tail, rest, hrows, hc, hcd, hcw, ht, htd, htw⟩ := regRows_hostQueues
  have hoff := hostBase_off sub q
  generalize (hostBase sub q).off = off at hoff
  have hown : (hostBaseRow sub).at (off + d) = some d := by
    rw [RegRow.at_stride (q := q) (d := d) rfl (by cases sub <;> simp [hoff, hostBaseRow]; omega) hq (by omega)]
    exact if_pos (by simpa [hostBaseRow] using hd)
  rw [findReg_dropWhile (b := 0xD01000) (by omega), hrows]
  cases sub with
  | true => simp only [findReg, hown]
  | false =>
    simp only [Bool.false_eq_true, if_false] at hoff
    have hsq : (hostBaseRow true).at (off + d) = none := by
      rw [RegRow.at_stride (q := q) (d := d + 16) rfl (by simp [hoff, hostBaseRow]; omega) hq (by omega)]
      exact if_neg (by simp [hostBaseRow])
    have hcfg : cfg.at (off + d) = none := by
      rw [RegRow.at_stride (q := q) (d := d + 8) hcd (by omega) hq (by omega), hcw, if_neg (by omega)]
    have htail : tail.at (off + d) = none := by
      rw [RegRow.at_stride (q := q) (d := d + 4) htd (by omega) hq (by omega), htw, if_neg (by omega)]
    simp only [findReg, hsq, hcfg, htail, hown]

/-- A write of half a register with one field writes the part of the field in that half. -/
theorem wordWrite_single (f : RegField) {half : Nat} (h : half ≤ f.hi) (o v : Nat) :
    wordWrite false [f] half o v = fieldWrite false { f with lo := Nat.max f.lo half } half 32 o v := by
  simp only [wordWrite, List.foldl_cons, List.foldl_nil, if_neg (Nat.not_lt.2 h)]

theorem wordWrite_hostBase_low (o v : Nat) :
    wordWrite false [⟨63, 12, .rw, 0⟩] 0 o v = putBits o 31 12 (bitsOf v 31 12) := wordWrite_single _ (by decide) o v

theorem wordWrite_hostBase_high (o v : Nat) :
    wordWrite false [⟨63, 12, .rw, 0⟩] 32 o v = putBits o 31 0 (bitsOf v 31 0) := wordWrite_single _ (by decide) o v

section
variable (s : State) (m : Nat) (sub : Bool) {q : Nat} (hq : q < 64) (v : BitVec 32)
include hq

theorem half64_hostBase_high : half64 ((hostBase sub q).off + 4) = some 4 := by
  simp [half64, findReg_hostBase sub hq (show 4 < 8 by decide), hostBaseRow]

/-- A queue's base is committed while the queue is disabled, and dropped while it is enabled (R477). -/
theorem State.highWrite_hostBase :
    s.highWrite false m ((hostBase sub q).off + 4) v =
      if s.bit (hostCfg sub q) 31 then s.unstage m (hostBase sub q).off
      else s.commit64 false m ((hostBase sub q).off + 4) v := by
  have hoff := hostBase_off sub q
  have hlow : (hostBase sub q).off + 4 - 4 = (hostBase sub q).off := rfl
  unfold State.highWrite
  simp only [hlow]
  generalize (hostBase sub q).off = off at hoff
  have hblock : 0xD01000 ≤ off ∧ off < 0xD01800 := by split at hoff <;> omega
  have hqueue : (off - 0xD01000) / 32 = q := by split at hoff <;> omega
  have hkeep : ¬ off < 0x10A000 := by omega
  have hcmp : ¬ off < 0xC01400 := by omega
  have hpair : ¬ off = 0x900010 := by omega
  simp only [hblock, hqueue, hkeep, hcmp, hpair, decide_true, decide_false, Bool.and_true, Bool.true_and, Bool.and_false,
    Bool.false_eq_true, if_false]
  cases sub with
  | true =>
    have hmod : off % 32 = 0 := by simp at hoff; omega
    simp [hmod, hostCfg]
  | false =>
    have hmod : off % 32 = 16 := by simp at hoff; omega
    simp [hmod, hostCfg]

theorem State.writeWord_hostBase_low : s.writeWord false (hostBase sub q).off v =
    s.wr (hostBase sub q) (BitVec.ofNat 32 (putBits (s.rd (hostBase sub q)).toNat 31 12 (bitsOf v.toNat 31 12))) := by
  have href : (⟨(hostBase sub q).off, BitVec.ofNat 32 ((hostBaseRow sub).rst / 2 ^ (8 * 0))⟩ : RegRef) = hostBase sub q := by
    cases sub <;> rfl
  have hrow : findReg (hostBase sub q).off regRows = some (hostBaseRow sub, 0) := findReg_hostBase sub (d := 0) hq (by decide)
  simp only [State.writeWord, hrow, href]
  rw [← wordWrite_hostBase_low]
  rfl

theorem State.writeWord_hostBase_high : s.writeWord false ((hostBase sub q).off + 4) v = s.wr (hostBase sub q).high v := by
  have href : (⟨(hostBase sub q).off + 4, BitVec.ofNat 32 ((hostBaseRow sub).rst / 2 ^ (8 * 4))⟩ : RegRef) =
      (hostBase sub q).high := by
    cases sub <;> rfl
  have hput : ∀ old : BitVec 32, BitVec.ofNat 32 (wordWrite false (hostBaseRow sub).fields (8 * 4) old.toNat v.toNat) = v := by
    intro old
    apply BitVec.eq_of_toNat_eq
    rw [BitVec.toNat_ofNat, show wordWrite false (hostBaseRow sub).fields (8 * 4) old.toNat v.toNat = _ from
      wordWrite_hostBase_high old.toNat v.toNat]
    simp only [putBits, bitsOf]
    omega
  simp only [State.writeWord, findReg_hostBase sub hq (show 4 < 8 by decide), href, hput]

end

/-- Bits 63 to 12 of a 64-bit register follow bits 31 to 12 of its low half. -/
theorem bitsOf_append_congr {x y : BitVec 32} (hi : BitVec 32) (h : bitsOf x.toNat 31 12 = bitsOf y.toNat 31 12) :
    bitsOf (hi ++ x).toNat 63 12 = bitsOf (hi ++ y).toNat 63 12 := by
  simp only [BitVec.toNat_append, Nat.shiftLeft_eq, bitsOf] at *
  have hx := x.isLt
  have hy := y.isLt
  rw [Nat.mul_comm, ← Nat.two_pow_add_eq_or_of_lt hx, ← Nat.two_pow_add_eq_or_of_lt hy]
  omega

/-- The commit of a queue's base takes the half written and the half staged, or the present one where none is (R14). -/
theorem State.commit64_hostBase (n : State) (m : Nat) (sub : Bool) {q : Nat} (hq : q < 64) (hi : BitVec 32) :
    let r := hostBase sub q
    let t := n.commit64 false m (r.off + 4) hi
    t = { n with regs := t.regs, staged := SMap.set none n.staged (latchKey m r.off) none } ∧ OnlyRegs n t [r.off, r.off + 4] ∧
      bitsOf (t.rd64 r).toNat 63 12 = bitsOf (hi ++ n.stagedLow m r.off (n.rd r)).toNat 63 12 := by
  intro r
  obtain ⟨n1, ht, hn1, hregs, hlow⟩ : ∃ n1 : State, n.commit64 false m (r.off + 4) hi = (n1.unstage m r.off).wr r.high hi ∧
      n1 = { n with regs := n1.regs } ∧ OnlyRegs n n1 [r.off] ∧
      bitsOf (n1.rd r).toNat 31 12 = bitsOf (n.stagedLow m r.off (n.rd r)).toNat 31 12 := by
    unfold State.commit64 State.stagedLow
    simp only [Nat.add_sub_cancel]
    cases SMap.get none n.staged (latchKey m r.off) with
    | none => exact ⟨n, State.writeWord_hostBase_high _ sub hq hi, rfl, fun _ _ => rfl, rfl⟩
    | some v =>
      refine ⟨_, State.writeWord_hostBase_high _ sub hq hi, ?_⟩
      dsimp only [r]
      rw [State.writeWord_hostBase_low n sub hq v]
      refine ⟨rfl, fun p hp => n.rd_wr_ne _ p _ (by simpa using hp), ?_⟩
      rw [State.rd_wr, bitsOf_ofNat (by omega), bitsOf_putBits (by omega), Nat.mod_eq_of_lt (bitsOf_lt ..)]
  have hrd : ((n1.unstage m r.off).wr r.high hi).rd64 r = hi ++ n1.rd r := by
    rw [State.rd64, State.rd_wr, State.rd_wr_ne _ _ _ _ (by simp [RegRef.high])]
    rfl
  simp only [ht, hrd]
  refine ⟨by rw [hn1]; rfl, fun p hp => ?_, bitsOf_append_congr hi hlow⟩
  simp only [List.mem_cons, List.not_mem_nil, or_false, not_or] at hp
  exact (State.rd_wr_ne _ _ p hi hp.2).trans (hregs p (by simpa using hp.1))

/-- The write of the high half of a queue's base: the staged half is taken, and the base is written whole while the queue is
disabled (R14, R477). -/
theorem State.highWrite_hostBase_frame (n : State) (m : Nat) (sub : Bool) {q : Nat} (hq : q < 64) (hi : BitVec 32) :
    let r := hostBase sub q
    let t := n.highWrite false m (r.off + 4) hi
    t = { n with regs := t.regs, staged := SMap.set none n.staged (latchKey m r.off) none } ∧ OnlyRegs n t [r.off, r.off + 4] ∧
      if n.bit (hostCfg sub q) 31 then t.rd64 r = n.rd64 r
      else bitsOf (t.rd64 r).toNat 63 12 = bitsOf (hi ++ n.stagedLow m r.off (n.rd r)).toNat 63 12 := by
  simp only [State.highWrite_hostBase n m sub hq hi]
  split
  · exact ⟨rfl, fun _ _ => rfl, rfl⟩
  · exact n.commit64_hostBase m sub hq hi

theorem State.direct_hostBase_high {s : State} {m : Nat} {sub : Bool} {q : Nat}
    (h : s.direct m (hostBase sub q).off = true) : s.direct m ((hostBase sub q).off + 4) = true := by
  have hblk : ((hostBase sub q).off + 4) / 0x100000 = (hostBase sub q).off / 0x100000 := by
    have hoff := hostBase_off sub q
    split at hoff <;> omega
  have hown : ownSideBlock ((hostBase sub q).off + 4) = ownSideBlock (hostBase sub q).off := by
    simp only [ownSideBlock, hblk]
  exact (State.direct_congr hown (Nat.add_mod_right _ 4)).trans h

/-- HIGH_HALF_WRITE to a queue's base. -/
theorem State.highHalfWrite_hostBase (s : State) (m : Nat) {sub : Bool} {q : Nat} (hq : q < 64) (hi : BitVec 32)
    (hd : s.direct m (hostBase sub q).off = true) :
    let r := hostBase sub q
    let n := s.noted m (r.off + 4) hi
    ∃ t, exec (.highHalfWrite m (r.off + 4) hi) s = .next t ∧ t = { n with regs := t.regs, staged := t.staged } ∧
      SMap.get none t.staged (latchKey m r.off) = none ∧ OnlyRegs n t [r.off, r.off + 4] ∧
      (if n.bit (hostCfg sub q) 31 then t.rd64 r = n.rd64 r
       else bitsOf (t.rd64 r).toNat 63 12 = bitsOf (hi ++ n.stagedLow m r.off (n.rd r)).toNat 63 12) := by
  intro r n
  have hd4 := State.direct_hostBase_high hd
  have hhigh := half64_hostBase_high sub hq
  obtain ⟨ht, hregs, hval⟩ := n.highWrite_hostBase_frame m sub hq hi
  refine ⟨n.highWrite false m (r.off + 4) hi, ?_, ?_, ?_, hregs, hval⟩
  · rw [exec_highHalfWrite, execHighHalfWrite, if_pos ⟨State.accessOk_of_direct hd4, hhigh⟩, State.mgmtWrite_half hd4 hhigh,
      State.regWrite_high hhigh]
  · rw [ht]
  · rw [ht]
    exact SMap.get_set_self none n.staged _ none

/-- Settles O34: the low half waits in its master's staging buffer, and the high half's write commits both. -/
theorem halvesWrittenTogether : Obligations.HalvesWrittenTogether := by
  refine ⟨fun s m off v hd hlow => ?_, fun s m q hi sub hq hd => s.highHalfWrite_hostBase m hq hi hd⟩
  simp only [exec_lowHalfWrite, execLowHalfWrite, if_pos (And.intro (State.accessOk_of_direct hd) hlow),
    State.mgmtWrite_half hd hlow, State.regWrite_low hlow]
  exact ⟨_, rfl, rfl, State.staged_stage .., fun n o hne => State.staged_stage_ne _ m off v hne⟩

end Sys2Proof.Machine

/-!
PROOFS. Laps, Tasks and admission (spec/02_laps_and_admission.md): what the operations on registers, Task Table, Ledger and
completion queues leave, for the statements on TEND, boundaries, sweeps, decisions, cancels, moves and posts.
-/
namespace Sys2Proof.Machine

/-! ### Registers after writes -/

theorem OnlyRegs.refl (s : State) (offs : List Nat) : OnlyRegs s s offs := fun _ _ => rfl

theorem OnlyRegs.trans {s t u : State} {offs : List Nat} (h : OnlyRegs s t offs) (k : OnlyRegs t u offs) : OnlyRegs s u offs :=
  fun r hr => (k r hr).trans (h r hr)

theorem OnlyRegs.mono {s t : State} {offs offs' : List Nat} (h : OnlyRegs s t offs) (hs : offs ⊆ offs') : OnlyRegs s t offs' :=
  fun r hr => h r fun hm => hr (hs hm)

theorem OnlyRegs.fld {s t : State} {offs : List Nat} (h : OnlyRegs s t offs) {r : RegRef} (hr : r.off ∉ offs) (hi lo : Nat) :
    t.fld r hi lo = s.fld r hi lo := by
  rw [State.fld, State.fld, h r hr]

theorem OnlyRegs.bit {s t : State} {offs : List Nat} (h : OnlyRegs s t offs) {r : RegRef} (hr : r.off ∉ offs) (b : Nat) :
    t.bit r b = s.bit r b := by
  rw [State.bit, State.bit, h.fld hr]

theorem OnlyRegs.rd64 {s t : State} {offs : List Nat} (h : OnlyRegs s t offs) {r : RegRef} (hr : r.off ∉ offs)
    (hr' : r.off + 4 ∉ offs) : t.rd64 r = s.rd64 r := by
  rw [State.rd64, State.rd64, h r hr, h r.high hr']

theorem OnlyRegs.wr (s : State) {r : RegRef} {offs : List Nat} (hr : r.off ∈ offs) (v : BitVec 32) : OnlyRegs s (s.wr r v) offs :=
  fun q hq => s.rd_wr_ne r q v fun h => hq (h ▸ hr)

theorem OnlyRegs.add64 (s : State) {r : RegRef} {offs : List Nat} (hr : r.off ∈ offs) (hr' : r.off + 4 ∈ offs) (n : Nat) :
    OnlyRegs s (s.add64 r n) offs :=
  fun q hq => s.rd_add64_ne r q n (fun h => hq (h ▸ hr)) (fun h => hq (h ▸ hr'))

/-- A field reads as what was put into it. -/
theorem State.fld_setFld (s : State) (r : RegRef) {hi lo : Nat} (h : lo ≤ hi) (h32 : hi < 32) (v : Nat) :
    (s.setFld r hi lo v).fld r hi lo = v % 2 ^ (hi + 1 - lo) := by
  rw [State.fld, State.setFld, State.rd_wr, bitsOf_ofNat h32, bitsOf_putBits h]

/-- A field of the same register apart from the one put reads as before. -/
theorem State.fld_setFld_apart (s : State) (r : RegRef) {hi lo hi' lo' : Nat} (h : lo ≤ hi) (h32 : hi' < 32)
    (ha : hi' < lo ∨ hi < lo') (v : Nat) : (s.setFld r hi lo v).fld r hi' lo' = s.fld r hi' lo' := by
  rw [State.fld, State.setFld, State.rd_wr, bitsOf_ofNat h32, bitsOf_putBits_apart h ha]
  rfl

/-- A field of a register at another offset reads as before. -/
theorem State.fld_setFld_ne (s : State) (r q : RegRef) (hi lo v hi' lo' : Nat) (h : q.off ≠ r.off) :
    (s.setFld r hi lo v).fld q hi' lo' = s.fld q hi' lo' := by
  rw [State.fld, State.fld, s.rd_setFld_ne r q hi lo v h]

theorem State.bit_setBit (s : State) (r : RegRef) {b : Nat} (h : b < 32) (v : Bool) : (s.setBit r b v).bit r b = v := by
  rw [State.bit, State.setBit, s.fld_setFld r (Nat.le_refl b) h]
  cases v <;> simp

theorem State.bit_setBit_ne (s : State) (r q : RegRef) (b b' : Nat) (v : Bool) (h : q.off ≠ r.off) :
    (s.setBit r b v).bit q b' = s.bit q b' := by
  rw [State.bit, State.bit, State.setBit, s.fld_setFld_ne r q _ _ _ _ _ h]

/-- A 64-bit register reads as what was written. -/
theorem State.rd64_wr64 (s : State) (r : RegRef) (v : W64) : (s.wr64 r v).rd64 r = v := by
  have hne : r.off ≠ r.high.off := by simp [RegRef.high]
  rw [State.rd64, State.wr64, State.rd_wr, State.rd_wr_ne _ _ _ _ hne, State.rd_wr]
  apply BitVec.eq_of_toNat_eq
  rw [BitVec.toNat_append, BitVec.toNat_ofNat, BitVec.toNat_setWidth, Nat.shiftLeft_eq, Nat.mul_comm,
    ← Nat.two_pow_add_eq_or_of_lt (Nat.mod_lt _ (by decide))]
  have := v.isLt
  omega

theorem State.rd64_add64 (s : State) (r : RegRef) (n : Nat) : (s.add64 r n).rd64 r = s.rd64 r + BitVec.ofNat 64 n :=
  s.rd64_wr64 r _

theorem State.add64_regs (s : State) (r : RegRef) (n : Nat) : s.add64 r n = { s with regs := (s.add64 r n).regs } := rfl

/-- A change of registers alone, and another one. -/
theorem State.regs_trans {s t u : State} (h : t = { s with regs := t.regs }) (k : u = { t with regs := u.regs }) :
    u = { s with regs := u.regs } := by
  rw [h] at k
  exact k

/-! ### Lap and mode of two states that agree on their sources -/

theorem State.lapTicks_congr {s t : State} (hr : t.rd Reg.lapCfg = s.rd Reg.lapCfg) : t.lapTicks = s.lapTicks := by
  rw [State.lapTicks, State.lapTicks, State.fld, State.fld, hr]

theorem State.lap_congr {s t : State} (ht : t.tb = s.tb) (hr : t.rd Reg.lapCfg = s.rd Reg.lapCfg) : t.lap = s.lap := by
  rw [State.lap, State.lap, ht, State.lapTicks_congr hr]

theorem State.pos_congr {s t : State} (hr : t.rd Reg.ringCfg = s.rd Reg.ringCfg) : t.pos = s.pos := by
  rw [State.pos, State.pos, State.fld, State.fld, hr]

theorem State.runs_congr {s t : State} (hm : t.mode = s.mode) (hr : t.rd Reg.pwrDuskStat = s.rd Reg.pwrDuskStat) :
    t.runs = s.runs := by
  rw [State.runs, State.runs, State.fld, State.fld, hm, hr]

theorem State.mirroredNow_congr {s t : State} (ha : t.actMode = s.actMode) (hp : t.rd Reg.pairStat = s.rd Reg.pairStat) :
    t.mirroredNow = s.mirroredNow := by
  have hb : ∀ b, t.bit Reg.pairStat b = s.bit Reg.pairStat b := fun b => by rw [State.bit, State.bit, State.fld, State.fld, hp]
  rw [State.mirroredNow, State.mirroredNow, ha, hb, hb]

theorem State.usable_congr {s t : State} (h : t.blk = s.blk) (e : Nat) : t.usable e = s.usable e := by
  rw [State.usable, State.usable, h]

/-! ### The Task Table (R48, R49) -/

@[simp] theorem State.task_updTask (s : State) (t : Nat) (f : Task → Task) : (s.updTask t f).task t = f (s.task t) :=
  SMap.get_set_self _ _ _ _

theorem State.task_updTask_ne (s : State) {t x : Nat} (f : Task → Task) (h : x ≠ t) : (s.updTask t f).task x = s.task x :=
  SMap.get_set_ne _ _ _ _ _ _ h

/-- A Task after a change of another or of itself. -/
theorem State.task_updTask_if (s : State) (t x : Nat) (f : Task → Task) :
    (s.updTask t f).task x = if x = t then f (s.task x) else s.task x := by
  split
  · subst x; exact s.task_updTask t f
  · exact s.task_updTask_ne f ‹_›

theorem State.setOvr_eq (s : State) (tti bit : Nat) :
    s.setOvr tti bit = s.updTask tti (fun t => { t with ovr := t.ovr ||| (1#6 <<< bit) }) := rfl

/-! ### The Ledger (R40) -/

@[simp] theorem State.row_setRow (s : State) (l : Nat) (r : Row) : (s.setRow l r).row l = r := SMap.get_set_self _ _ _ _

theorem State.row_setRow_ne (s : State) {l k : Nat} (r : Row) (h : k ≠ l) : (s.setRow l r).row k = s.row k :=
  SMap.get_set_ne _ _ _ _ _ _ h

/-- Components other than the engines' cycles do not touch the placement list. -/
theorem Row.comps_plc (r : Row) (cv : CostVec) (sub : Bool) : (r.comps cv sub).plc = r.plc := by
  have hfold : ∀ (l : List CvEntry) (g : Row → CvEntry → Row), (∀ r p, (g r p).plc = r.plc) →
      ∀ r : Row, (l.foldl g r).plc = r.plc := by
    intro l g hg
    induction l with
    | nil => exact fun r => rfl
    | cons p t ih => exact fun r => (ih _).trans (hg r p)
  unfold Row.comps
  refine hfold _ _ ?_ _
  exact fun _ _ => rfl

theorem Row.book_plc (r : Row) (cv : CostVec) (tti e : Nat) :
    (r.book cv tti e).plc = r.plc ++ [⟨e, tti, r.charge cv e, false⟩] := by
  simp only [Row.book, Row.comps_plc _ cv true]
  rfl

/-- A released Task has no placement in the row, and the others stay. -/
theorem Row.release_plc (r : Row) (cv : CostVec) (tti : Nat) :
    (r.release cv tti).plc = r.plc.filter (fun b => b.tti ≠ tti) := by
  have hfold : ∀ (l : List Booking) (q : Row),
      (l.foldl (fun r b => (r.setCtr b.engine (r.ctr b.engine + b.charge)).comps cv false) q).plc = q.plc := by
    intro l
    induction l with
    | nil => exact fun _ => rfl
    | cons b t ih => exact fun q => (ih _).trans (Row.comps_plc _ cv false)
  exact hfold _ _

theorem Row.release_zero (cv : CostVec) (tti : Nat) : Row.zero.release cv tti = Row.zero := rfl

/-- What a Task's settling or stop leaves of a row (R61): its placements to come go, and those not yet taken of the present
Lap. -/
def Row.without (r : Row) (cv : CostVec) (tti : Nat) (ahead : Bool) : Row :=
  if ahead then r.release cv tti else { r with plc := r.plc.filter (fun b => b.tti ≠ tti || b.taken) }

theorem Row.mem_without {r : Row} {cv : CostVec} {tti : Nat} {ahead : Bool} {b : Booking} (h : b ∈ (r.without cv tti ahead).plc) :
    b ∈ r.plc ∧ (b.tti = tti → ahead = false ∧ b.taken = true) := by
  cases ahead with
  | true =>
    simp only [Row.without, if_true, Row.release_plc, List.mem_filter, decide_eq_true_eq] at h
    exact ⟨h.1, fun he => absurd he h.2⟩
  | false =>
    simp only [Row.without, Bool.false_eq_true, if_false, List.mem_filter, Bool.or_eq_true, decide_eq_true_eq] at h
    exact ⟨h.1, fun he => ⟨rfl, h.2.resolve_left fun hn => hn he⟩⟩

/-! ### Settling (R58, R59, R61) -/

theorem State.row_returnBookings (s : State) (t l : Nat) :
    (s.returnBookings t).row l = (s.row l).without (s.task t).cv t (decide (s.lap < l)) := by
  have hz : ∀ k, (if s.lap < k then Row.zero.release (s.task t).cv t
      else { Row.zero with plc := Row.zero.plc.filter (fun b => b.tti ≠ t || b.taken) }) = Row.zero := by
    intro k; split <;> rfl
  simp only [State.returnBookings, State.row, State.updTask]
  rw [SMap.get_remap _ _ _ _ _ (hz l)]
  simp only [Row.without, decide_eq_true_eq]

theorem State.task_returnBookings (s : State) (t x : Nat) :
    (s.returnBookings t).task x = if x = t then { s.task x with lapsLeft := 0 } else s.task x := by
  unfold State.returnBookings
  rw [State.task_updTask_if]
  rfl

/-- The counters that settling a Task may advance. -/
def settleOffs : List Nat :=
  [Reg.staCountOverrun.off, Reg.staCountOverrun.off + 4, Reg.staCountLate.off, Reg.staCountLate.off + 4]

/-- A Task that is not free or settled already. -/
def Task.alive (t : Task) : Prop := t.st ≠ .free ∧ t.st ≠ .settled

/-- The entry of a settled Task (R49, R58). -/
def Task.settledAs (t : Task) (o : Outcome) (cause vector lap : Nat) : Task :=
  { t with
    lapsLeft := 0, st := .settled, outcome := o, cause := cause, vector := vector, settleLap := lap,
    late := t.cls ≠ 2 && t.deadlineLap < lap, ovr := if o = .overrun && t.ovr = 0 then 1 else t.ovr }

/-- The two counters that settling a Task advances (R68). -/
def State.settleCounts (s : State) (o : Outcome) (late : Bool) : State :=
  let s2 := if o = .overrun then s.add64 Reg.staCountOverrun 1 else s
  if late then s2.add64 Reg.staCountLate 1 else s2

theorem State.settleCounts_frame (s : State) (o : Outcome) (late : Bool) :
    s.settleCounts o late = { s with regs := (s.settleCounts o late).regs } ∧ OnlyRegs s (s.settleCounts o late) settleOffs := by
  have h1 : OnlyRegs s (if o = .overrun then s.add64 Reg.staCountOverrun 1 else s) settleOffs := by
    split
    · exact OnlyRegs.add64 _ (by decide) (by decide) 1
    · exact OnlyRegs.refl _ _
  have k1 : (if o = .overrun then s.add64 Reg.staCountOverrun 1 else s) =
      { s with regs := (if o = .overrun then s.add64 Reg.staCountOverrun 1 else s).regs } := by
    split
    · exact s.add64_regs _ 1
    · rfl
  refine ⟨?_, ?_⟩
  · unfold State.settleCounts
    dsimp only
    split
    · exact State.regs_trans k1 (State.add64_regs _ _ 1)
    · exact k1
  · unfold State.settleCounts
    dsimp only
    split
    · exact h1.trans (OnlyRegs.add64 _ (by decide) (by decide) 1)
    · exact h1

/-- A Task that is free or settled already is left as it is. -/
theorem State.settle_done {s : State} {tti : Nat} (h : ¬ (s.task tti).alive) (o : Outcome) (cause vector : Nat) :
    s.settle tti o cause vector = s := by
  unfold State.settle
  rw [if_pos]
  by_contra hc
  simp only [Bool.or_eq_true, decide_eq_true_eq, not_or] at hc
  exact h hc

/-- Settling a Task that is neither free nor settled, step by step. -/
theorem State.settle_alive {s : State} {tti : Nat} (h : (s.task tti).alive) (o : Outcome) (cause vector : Nat) :
    ∃ s1 : State, s1 = (s.returnBookings tti).updTask tti (fun x =>
        { x with
          st := .settled, outcome := o, cause := cause, vector := vector, settleLap := s.lap,
          late := (s.task tti).cls ≠ 2 && (s.task tti).deadlineLap < s.lap,
          ovr := if o = .overrun && x.ovr = 0 then 1 else x.ovr }) ∧
      ∃ s3 : State, s3 = s1.settleCounts o ((s.task tti).cls ≠ 2 && (s.task tti).deadlineLap < s.lap) ∧
        s.settle tti o cause vector = s3.hold (s3.cqOf (s.task tti).sq) (s3.completeRec tti) := by
  refine ⟨_, rfl, _, rfl, ?_⟩
  unfold State.settle
  rw [if_neg]
  · rfl
  · simp only [Bool.or_eq_true, decide_eq_true_eq, not_or]
    exact h

/-- Settling changes nothing but the Task Table, the Ledger, the Open queue, the completion queues and two counters. -/
theorem State.settle_frame (s : State) (tti : Nat) (o : Outcome) (cause vector : Nat) :
    s.settle tti o cause vector = { s with
      regs := (s.settle tti o cause vector).regs
      sta := { s.sta with
        tasks := (s.settle tti o cause vector).sta.tasks, rows := (s.settle tti o cause vector).sta.rows
        openq := (s.settle tti o cause vector).sta.openq }
      host := { s.host with cq := (s.settle tti o cause vector).host.cq } } ∧
    OnlyRegs s (s.settle tti o cause vector) settleOffs := by
  by_cases h : (s.task tti).alive
  · obtain ⟨s1, h1, s3, h3, he⟩ := s.settle_alive h o cause vector
    obtain ⟨hf, hr⟩ := s1.settleCounts_frame o ((s.task tti).cls ≠ 2 && (s.task tti).deadlineLap < s.lap)
    rw [← h3] at hf hr
    rw [he]
    refine ⟨?_, ?_⟩
    · rw [hf, h1]; rfl
    · intro r hr'
      have h0 : (s3.hold (s3.cqOf (s.task tti).sq) (s3.completeRec tti)).rd r = s3.rd r := rfl
      rw [h0, hr r hr', h1]; rfl
  · rw [State.settle_done h]; exact ⟨rfl, OnlyRegs.refl _ _⟩

/-- What settling leaves of the Task itself, of the others, and of the rows. -/
theorem State.settle_tasks {s : State} {tti : Nat} (h : (s.task tti).alive) (o : Outcome) (cause vector : Nat) :
    (s.settle tti o cause vector).task tti = (s.task tti).settledAs o cause vector s.lap ∧
    (∀ x, x ≠ tti → (s.settle tti o cause vector).task x = s.task x) ∧
    ∀ l, (s.settle tti o cause vector).row l = (s.row l).without (s.task tti).cv tti (decide (s.lap < l)) := by
  obtain ⟨s1, h1, s3, h3, he⟩ := s.settle_alive h o cause vector
  have hf := (s1.settleCounts_frame o ((s.task tti).cls ≠ 2 && (s.task tti).deadlineLap < s.lap)).1
  rw [← h3] at hf
  have hsta : (s.settle tti o cause vector).sta = s1.sta := by rw [he, hf]; rfl
  have htask : ∀ x, (s.settle tti o cause vector).task x = s1.task x := fun x => by rw [State.task, hsta]; rfl
  have hrow : ∀ l, (s.settle tti o cause vector).row l = s1.row l := fun l => by rw [State.row, hsta]; rfl
  refine ⟨?_, fun x hx => ?_, fun l => ?_⟩
  · rw [htask, h1, State.task_updTask, State.task_returnBookings, if_pos rfl]; rfl
  · rw [htask, h1, State.task_updTask_ne _ _ hx, State.task_returnBookings, if_neg hx]
  · rw [hrow, h1, ← State.row_returnBookings]; rfl

theorem State.task_settle {s : State} {tti : Nat} (h : (s.task tti).alive) (o : Outcome) (cause vector : Nat) :
    (s.settle tti o cause vector).task tti = (s.task tti).settledAs o cause vector s.lap := (State.settle_tasks h o cause vector).1

theorem State.task_settle_ne (s : State) {tti x : Nat} (hx : x ≠ tti) (o : Outcome) (cause vector : Nat) :
    (s.settle tti o cause vector).task x = s.task x := by
  by_cases h : (s.task tti).alive
  · exact (State.settle_tasks h o cause vector).2.1 x hx
  · rw [State.settle_done h]

theorem State.row_settle {s : State} {tti : Nat} (h : (s.task tti).alive) (o : Outcome) (cause vector l : Nat) :
    (s.settle tti o cause vector).row l = (s.row l).without (s.task tti).cv tti (decide (s.lap < l)) :=
  (State.settle_tasks h o cause vector).2.2 l

@[simp] theorem State.lap_settle (s : State) (tti : Nat) (o : Outcome) (cause vector : Nat) :
    (s.settle tti o cause vector).lap = s.lap := by
  obtain ⟨hf, hr⟩ := s.settle_frame tti o cause vector
  exact State.lap_congr (by rw [hf]) (hr _ (by decide))

@[simp] theorem State.m_settle (s : State) (tti : Nat) (o : Outcome) (cause vector : Nat) :
    (s.settle tti o cause vector).m = s.m := by rw [(s.settle_frame tti o cause vector).1]

@[simp] theorem State.eng_settle (s : State) (tti : Nat) (o : Outcome) (cause vector e : Nat) :
    (s.settle tti o cause vector).eng e = s.eng e := by rw [(s.settle_frame tti o cause vector).1]; rfl

@[simp] theorem State.blk_settle (s : State) (tti : Nat) (o : Outcome) (cause vector : Nat) :
    (s.settle tti o cause vector).blk = s.blk := by rw [(s.settle_frame tti o cause vector).1]

/-! ### Where offsets lie in two states that agree on the address map -/

/-- Two states agree on what decides where an offset lies (R23, R24, R27, R63). -/
def State.sameMap (s t : State) : Prop :=
  t.blk = s.blk ∧ t.img = s.img ∧ t.mode = s.mode ∧ t.rd Reg.pwrDuskStat = s.rd Reg.pwrDuskStat ∧
    t.rd Reg.ringCfg = s.rd Reg.ringCfg ∧ ∀ ch, ch < 12 → t.rd (Reg.ddrCfg ch) = s.rd (Reg.ddrCfg ch)

theorem State.tier_congr {s t : State} (h : s.sameMap t) (off : Nat) : t.tier off = s.tier off := by
  obtain ⟨hb, hi, hm, hp, -, hd⟩ := h
  have hend : t.ddrEnd = s.ddrEnd := by
    have hmap : (setBits s.blk.ddrOk).map t.chanBytes = (setBits s.blk.ddrOk).map s.chanBytes := by
      refine List.map_congr_left fun ch hch => ?_
      have hlt : ch < 12 := List.mem_range.1 (List.mem_of_mem_filter hch)
      rw [State.chanBytes, State.chanBytes, State.fld, State.fld, State.fld, State.fld, hd ch hlt]
    rw [State.ddrEnd, State.ddrEnd, hb, hmap]
  have hexp : ∀ p, t.expBytes p = s.expBytes p := fun p => by rw [State.expBytes, State.expBytes, hb]
  have hbase : ∀ p, t.expBase p = s.expBase p := fun p => by rw [State.expBase, State.expBase, hend, hexp]
  have hbank : ∀ e, t.bankUp e = s.bankUp e := fun e => by
    rw [State.bankUp, State.bankUp, State.fld, State.fld, hb, hm, hp]
  simp only [State.tier, hend, hexp, hbase, hbank, hb]

theorem State.pos_of_sameMap {s t : State} (h : s.sameMap t) : t.pos = s.pos := State.pos_congr h.2.2.2.2.1

theorem State.saveOk_congr {s t : State} (h : s.sameMap t) (dpa : Nat) : t.saveOk dpa = s.saveOk dpa := by
  simp only [State.saveOk, State.mine, State.tier_congr h, State.pos_of_sameMap h]

end Sys2Proof.Machine

namespace Sys2Proof.Machine

/-! ### The decision (R50 to R55) -/

theorem State.pick_congr {s t : State} (hb : t.blk = s.blk) (cv : CostVec) (r : Row) : t.pick cv r = s.pick cv r := by
  simp only [State.pick, State.usable, hb]

theorem State.fits_congr {s t : State} (hb : t.blk = s.blk) (cv : CostVec) (r : Row) : t.fits cv r = s.fits cv r := by
  simp only [State.fits, State.pick_congr hb]

theorem State.choose_congr {s t : State} (hb : t.blk = s.blk) (hr : t.sta.rows = s.sta.rows) (cv : CostVec) (fuel l need : Nat) :
    t.choose cv l need fuel = s.choose cv l need fuel := by
  induction fuel generalizing l need with
  | zero => rfl
  | succ n ih =>
    have hrow : t.row l = s.row l := by rw [State.row, State.row, hr]
    simp only [State.choose]
    rw [State.fits_congr hb, hrow, ih, ih]

/-- A row that fits has an engine to book and refuses nothing. -/
theorem State.pick_of_fits {s : State} {cv : CostVec} {r : Row} (h : (s.fits cv r).1 = 0) :
    r.bad = false ∧ ∃ e, s.pick cv r = some e := by
  unfold State.fits at h
  split at h
  · simp at h
  · rename_i hc
    simp only [Bool.or_eq_true, decide_eq_true_eq, not_or, Bool.not_eq_true] at hc
    exact ⟨hc.1, Option.ne_none_iff_exists'.1 hc.2⟩

/-- The engine picked is usable and one of the PLACE range. -/
theorem State.pick_spec {s : State} {cv : CostVec} {r : Row} {e : Nat} (h : s.pick cv r = some e) :
    s.usable e = true ∧ e ∈ placeRange cv := by
  unfold State.pick at h
  split at h
  · simp at h
  · have hp := List.find?_some h
    simp only [Bool.and_eq_true] at hp
    exact ⟨hp.1.1, List.mem_of_find?_eq_some h⟩

/-- The Laps that the search of R54 chooses fit, rise, and lie in its range; there are no more than needed. -/
theorem State.choose_spec (s : State) (cv : CostVec) (fuel l need : Nat) :
    (s.choose cv l need fuel).1.length ≤ need ∧ (s.choose cv l need fuel).1.Pairwise (· < ·) ∧
      ∀ k ∈ (s.choose cv l need fuel).1, l ≤ k ∧ k < l + fuel ∧ (s.fits cv (s.row k)).1 = 0 := by
  induction fuel generalizing l need with
  | zero => simp [State.choose]
  | succ n ih =>
    unfold State.choose
    split
    · simp
    · dsimp only
      split
      · rename_i hn hfit
        obtain ⟨hlen, hpw, hmem⟩ := ih (l + 1) (need - 1)
        refine ⟨?_, List.pairwise_cons.2 ⟨fun k hk => ?_, hpw⟩, fun k hk => ?_⟩
        · rw [List.length_cons]; omega
        · have := (hmem k hk).1; omega
        · rcases List.mem_cons.1 hk with rfl | hk
          · exact ⟨Nat.le_refl _, by omega, hfit⟩
          · obtain ⟨h1, h2, h3⟩ := hmem k hk
            exact ⟨by omega, by omega, h3⟩
      · obtain ⟨hlen, hpw, hmem⟩ := ih (l + 1) need
        refine ⟨hlen, hpw, fun k hk => ?_⟩
        obtain ⟨h1, h2, h3⟩ := hmem k hk
        exact ⟨by omega, by omega, h3⟩

/-- Booking a Lap changes the Ledger alone, and there that Lap's row alone. -/
theorem State.bookLap_frame (s : State) (cv : CostVec) (tti l : Nat) :
    s.bookLap cv tti l = { s with sta := { s.sta with rows := (s.bookLap cv tti l).sta.rows } } ∧
      ∀ k, k ≠ l → (s.bookLap cv tti l).row k = s.row k := by
  unfold State.bookLap
  split
  · exact ⟨rfl, fun _ _ => rfl⟩
  · exact ⟨rfl, fun k hk => s.row_setRow_ne _ hk⟩

theorem State.row_bookLap {s : State} {cv : CostVec} {l e : Nat} (h : s.pick cv (s.row l) = some e) (tti : Nat) :
    (s.bookLap cv tti l).row l = (s.row l).book cv tti e := by
  unfold State.bookLap
  rw [h]
  exact s.row_setRow l _

/-- Booking several Laps changes the Ledger alone, and there the rows of those Laps alone. -/
theorem State.bookLaps_frame (s : State) (cv : CostVec) (tti : Nat) (laps : List Nat) :
    laps.foldl (fun s l => s.bookLap cv tti l) s =
        { s with sta := { s.sta with rows := (laps.foldl (fun s l => s.bookLap cv tti l) s).sta.rows } } ∧
      ∀ k, k ∉ laps → (laps.foldl (fun s l => s.bookLap cv tti l) s).row k = s.row k := by
  induction laps generalizing s with
  | nil => exact ⟨rfl, fun _ _ => rfl⟩
  | cons l t ih =>
    obtain ⟨hf, hr⟩ := ih (s.bookLap cv tti l)
    obtain ⟨gf, gr⟩ := s.bookLap_frame cv tti l
    refine ⟨?_, fun k hk => ?_⟩
    · rw [List.foldl_cons, hf, gf]
    · rw [List.mem_cons, not_or] at hk
      rw [List.foldl_cons, hr k hk.2, gr k hk.1]

/-- A Lap among distinct ones is booked on the engine that its row gave before. -/
theorem State.row_bookLaps {s : State} {cv : CostVec} {tti e l : Nat} {laps : List Nat} (hn : laps.Nodup) (hl : l ∈ laps)
    (h : s.pick cv (s.row l) = some e) :
    (laps.foldl (fun s l => s.bookLap cv tti l) s).row l = (s.row l).book cv tti e := by
  induction laps generalizing s with
  | nil => simp at hl
  | cons k t ih =>
    obtain ⟨hk, hn⟩ := List.nodup_cons.1 hn
    obtain ⟨gf, gr⟩ := s.bookLap_frame cv tti k
    rw [List.foldl_cons]
    rcases List.mem_cons.1 hl with rfl | hl
    · rw [(State.bookLaps_frame _ cv tti t).2 l hk, State.row_bookLap h]
    · have hne : l ≠ k := fun he => hk (he ▸ hl)
      rw [← gr l hne]
      exact ih hn hl (by rw [State.pick_congr (by rw [gf]), gr l hne]; exact h)

/-- Noting a decision changes the digest of decisions, the replay's list and the Record Unit alone. -/
theorem State.noteDecision_frame (s : State) (tti reason sq cid : Nat) :
    s.noteDecision tti reason sq cid = { s with
      regs := (s.noteDecision tti reason sq cid).regs
      pair := (s.noteDecision tti reason sq cid).pair
      recd := (s.noteDecision tti reason sq cid).recd
      sta := { s.sta with decisions := (s.noteDecision tti reason sq cid).sta.decisions } } ∧
    OnlyRegs s (s.noteDecision tti reason sq cid) [Reg.recStat.off] := by
  unfold State.noteDecision
  dsimp only
  refine ⟨?_, (State.log_frame _ _ _ _ _).2⟩
  rw [(State.log_frame _ _ _ _ _).1]

/-- A refusal: its record waits at the queue's completion queue, the refusal is counted, and the Starter keeps what it has. -/
theorem State.refuse_spec (s : State) (m : Subm) (reason part : Nat) :
    let t := s.refuse m reason part
    t.sta = { s.sta with decisions := t.sta.decisions } ∧
      (t.cq (s.cqOf m.sq)).held = (s.cq (s.cqOf m.sq)).held ++ [s.refusal m reason (if 0x12 ≤ reason then part else 0)] ∧
      t.rd64 Reg.staCountRefuse = s.rd64 Reg.staCountRefuse + 1 := by
  intro t
  obtain ⟨s1, h1⟩ : ∃ s1 : State, s1 = (s.add64 Reg.staCountRefuse 1).hold (s.cqOf m.sq)
    (s.refusal m reason (if 0x12 ≤ reason then part else 0)) := ⟨_, rfl⟩
  have ht : t = s1.noteDecision 0 reason m.sq m.r.cid := by rw [h1]; rfl
  obtain ⟨hf, hr⟩ := s1.noteDecision_frame 0 reason m.sq m.r.cid
  rw [← ht] at hf hr
  refine ⟨?_, ?_, ?_⟩
  · rw [hf, h1]; rfl
  · have hcq : t.cq (s.cqOf m.sq) = s1.cq (s.cqOf m.sq) := by rw [hf]; rfl
    rw [hcq, h1]
    exact congrArg CQueue.held (SMap.get_set_self _ _ _ _)
  · rw [hr.rd64 (by decide) (by decide), h1]
    exact s.rd64_add64 _ 1

/-- An accepted submission: its Task, its queue, its bookings and its count. -/
theorem State.admitSubm_spec (s : State) (m : Subm) (tti : Nat) (laps : List Nat) :
    let t := s.admitSubm m tti laps
    t.sta.intake = s.sta.intake ∧ t.task tti = s.newTask m laps.length s.nextEpoch.2 ∧ (∀ x, x ≠ tti → t.task x = s.task x) ∧
      t.sta.openq = (if m.cv.cls = 2 then s.sta.openq ++ [tti] else s.sta.openq) ∧
      t.rd64 Reg.staCountAccept = s.rd64 Reg.staCountAccept + 1 ∧ (laps = [] → t.sta.rows = s.sta.rows) ∧
      (∀ l, l ∉ laps → t.row l = s.row l) ∧
      ∀ l e, laps.Nodup → l ∈ laps → s.pick m.cv (s.row l) = some e → t.row l = (s.row l).book m.cv tti e := by
  intro t
  obtain ⟨s2, h2⟩ : ∃ s2 : State, s2 = s.nextEpoch.1.updTask tti (fun _ => s.nextEpoch.1.newTask m laps.length s.nextEpoch.2) :=
    ⟨_, rfl⟩
  obtain ⟨s3, h3⟩ : ∃ s3 : State, s3 = laps.foldl (fun s l => s.bookLap m.cv tti l) s2 := ⟨_, rfl⟩
  obtain ⟨s5, h5⟩ : ∃ s5 : State, s5 = ({ s3 with sta := { s3.sta with
    accepted := s3.sta.accepted + 1
    openq := if m.cv.cls = 2 then s3.sta.openq ++ [tti] else s3.sta.openq } } : State).add64 Reg.staCountAccept 1 := ⟨_, rfl⟩
  obtain ⟨s6, h6⟩ : ∃ s6 : State, s6 = if m.r.ackreq then s5.hold (s5.cqOf m.sq) (s5.acceptRec m tti) else s5 := ⟨_, rfl⟩
  have ht : t = s6.noteDecision tti 0 m.sq m.r.cid := by rw [h6, h5, h3, h2]; rfl
  have h65 : s6.sta = s5.sta ∧ s6.regs = s5.regs := by rw [h6]; split <;> exact ⟨rfl, rfl⟩
  obtain ⟨hf, hr⟩ := s6.noteDecision_frame tti 0 m.sq m.r.cid
  rw [← ht] at hf hr
  obtain ⟨gf, gr⟩ := s2.bookLaps_frame m.cv tti laps
  rw [← h3] at gf gr
  have hsta : t.sta = { s3.sta with
      decisions := t.sta.decisions, accepted := s3.sta.accepted + 1
      openq := if m.cv.cls = 2 then s3.sta.openq ++ [tti] else s3.sta.openq } := by
    rw [hf]; simp only [h65.1, h5]; rfl
  have htask : ∀ x, t.task x = s2.task x := fun x => by rw [State.task, hsta, gf]; rfl
  have hrow : ∀ l, t.row l = s3.row l := fun l => by rw [State.row, hsta]; rfl
  have hrow2 : ∀ l, s2.row l = s.row l := fun l => by rw [h2]; rfl
  have hblk : s2.blk = s.blk := by rw [h2]; rfl
  refine ⟨?_, ?_, fun x hx => ?_, ?_, ?_, fun hnil => ?_, fun l hl => ?_, fun l e hn hl hp => ?_⟩
  · rw [hsta, gf, h2]; rfl
  · rw [htask, h2, State.task_updTask]; rfl
  · rw [htask, h2, State.task_updTask_ne _ _ hx]; rfl
  · rw [hsta, gf, h2]; rfl
  · rw [hr.rd64 (by decide) (by decide)]
    have h63 : s6.rd64 Reg.staCountAccept = s5.rd64 Reg.staCountAccept := by
      simp only [State.rd64, State.rd, h65.2]
    rw [h63, h5, State.rd64_add64, gf, h2]
    rfl
  · rw [hsta, h3, hnil, h2]; rfl
  · rw [hrow, gr l hl, hrow2]
  · rw [hrow, h3, State.row_bookLaps hn hl (by rw [State.pick_congr hblk, hrow2]; exact hp), hrow2]

/-- The intake queue after the decision is what it was, and a row that refuses bookings is left as it is. -/
theorem State.decideSubm_frame (s : State) (m : Subm) :
    (s.decideSubm m).sta.intake = s.sta.intake ∧ ∀ l, (s.row l).bad = true → (s.decideSubm m).row l = s.row l := by
  have hrefuse : ∀ reason part, (s.refuse m reason part).sta.intake = s.sta.intake ∧
      ∀ l, (s.row l).bad = true → (s.refuse m reason part).row l = s.row l := by
    intro reason part
    have h := (s.refuse_spec m reason part).1
    exact ⟨by rw [h], fun l _ => by rw [State.row, h]; rfl⟩
  have hadmit : ∀ tti laps, (∀ l ∈ laps, (s.row l).bad = false) → (s.admitSubm m tti laps).sta.intake = s.sta.intake ∧
      ∀ l, (s.row l).bad = true → (s.admitSubm m tti laps).row l = s.row l := by
    intro tti laps hl
    obtain ⟨hi, -, -, -, -, -, hrow, -⟩ := s.admitSubm_spec m tti laps
    exact ⟨hi, fun l hb => hrow l fun hm => by simp [hl l hm] at hb⟩
  unfold State.decideSubm
  dsimp only
  split
  · exact hrefuse _ _
  · split
    · exact hrefuse _ _
    · split
      · exact hadmit _ _ (by simp)
      · split
        · exact hrefuse _ _
        · refine hadmit _ _ fun l hl => ?_
          exact (State.pick_of_fits ((s.choose_spec _ _ _ _).2.2 l hl).2.2).1

/-- A fault record leaves the Starter, the blocks and the Lap as they are. -/
theorem State.fault_frame (s : State) (cls origin addr epoch task detail : Nat) :
    (s.fault cls origin addr epoch task detail).sta = s.sta ∧ (s.fault cls origin addr epoch task detail).lap = s.lap := by
  obtain ⟨hf, hr, -⟩ := (s.collect_faultOnly (s.mkRec cls (classSev cls) origin addr epoch task detail) .own).1
  rw [← State.fault] at hf hr
  exact ⟨by rw [hf], State.lap_congr (by rw [hf]) (hr _ (by decide +kernel))⟩

/-- A row of the next 256 Laps whose counters cannot be read is marked, with its placements as they are (R41). -/
theorem State.badRows_single {s : State} {l : Nat} (h1 : s.lap < l) (h2 : l ≤ s.lap + 256) :
    (s.badRows [l]).sta.intake = s.sta.intake ∧ ((s.badRows [l]).row l).bad = true ∧
      ((s.badRows [l]).row l).plc = (s.row l).plc := by
  simp only [State.badRows, List.foldl_cons, List.foldl_nil]
  split
  · have hs := ((s.setRow l { s.row l with bad := true }).fault_frame 0x0A (originOf s.pos 6 0) 0 0 0 0).1
    have hrow := congrArg (fun x : Starter => SMap.get Row.zero x.rows l) hs
    change State.row _ l = (s.setRow l _).row l at hrow
    rw [State.row_setRow] at hrow
    exact ⟨by rw [hs]; rfl, by rw [hrow], by rw [hrow]⟩
  · rename_i hb
    have : (s.row l).bad = true := by
      by_contra hc
      exact hb ⟨h1, h2, by simpa using hc⟩
    exact ⟨rfl, this, rfl⟩

/-- O42's decisions: the rows that cannot be read, then the four ways in which the Starter decides. -/
theorem admission_decision : Claims.DecisionComplete := by
  intro s m rest hq hd hc
  obtain ⟨s0, h0⟩ : ∃ s0 : State, s0 = { s with sta := { s.sta with intake := rest } } := ⟨_, rfl⟩
  have hexec : ∀ found : LedgerRead, exec (.decision found) s =
      .next (((s0.ledgerCe found.ce).badRows found.bad).decideSubm m) := by
    intro found
    change execDecision found s = _
    simp only [execDecision, hq, h0]
    rw [if_pos ⟨hd, by simpa using hc⟩]
  have hplain : exec (.decision ⟨[], false⟩) s = .next (s0.decideSubm m) := hexec _
  have hfree : s0.freeTask = s.freeTask := by simp only [State.freeTask, h0]
  have hmap : s.sameMap s0 := by rw [h0]; exact ⟨rfl, rfl, rfl, rfl, rfl, fun _ _ => rfl⟩
  have hcode : s0.refusalCode m = s.refusalCode m := by
    rw [State.refusalCode, State.refusalCode, hfree, State.saveOk_congr hmap, h0]
    rfl
  refine ⟨fun l ce h1 h2 => ?_, fun hcode' => ?_, fun tti hok hft hopen => ?_, fun tti hok hft hbooked => ?_⟩
  · obtain ⟨s1, hs1⟩ : ∃ s1 : State, s1 = s0.ledgerCe ce := ⟨_, rfl⟩
    have hsta : s1.sta = s0.sta ∧ s1.lap = s0.lap := by
      rw [hs1]; unfold State.ledgerCe; split
      · exact s0.fault_frame _ _ _ _ _ _
      · exact ⟨rfl, rfl⟩
    have hlap : s1.lap = s.lap := hsta.2.trans (by rw [h0]; rfl)
    obtain ⟨hi, hbad, hplc⟩ := State.badRows_single (s := s1) (l := l) (by omega) (by omega)
    obtain ⟨gi, grow⟩ := (s1.badRows [l]).decideSubm_frame m
    refine ⟨_, by rw [hexec, ← hs1], ?_, ?_, ?_⟩
    · rw [gi, hi, hsta.1, h0]
    · rw [grow l hbad, hbad]
    · rw [grow l hbad, hplc, State.row, hsta.1, h0]; rfl
  · have hres : s0.decideSubm m = s0.refuse m (s0.refusalCode m) 0 := by
      unfold State.decideSubm; simp only [hcode, if_pos hcode']
    obtain ⟨hsta, hheld, hcnt⟩ := s0.refuse_spec m (s0.refusalCode m) 0
    rw [← hres] at hsta hheld hcnt
    refine ⟨_, hplain, ?_, ?_, ?_, ?_, ?_⟩
    · rw [hsta, h0]
    · rw [hsta, h0]
    · rw [hsta, h0]
    · rw [ite_self, hcode, h0] at hheld; rw [h0]; exact hheld
    · rw [hcnt, h0]; rfl
  · have hres : s0.decideSubm m = s0.admitSubm m tti [] := by
      unfold State.decideSubm
      simp only [hcode, hok, hfree, hft, hopen, if_true, ne_eq, not_true, if_false]
    obtain ⟨hi, htask, hother, hopenq, hcnt, hrows, -, -⟩ := s0.admitSubm_spec m tti []
    rw [← hres] at hi htask hother hopenq hcnt hrows
    have hnew : (s0.decideSubm m).task tti = s.newTask m 0 s.nextEpoch.2 := by rw [htask, h0]; rfl
    refine ⟨_, hplain, ?_, hnew, ?_, ?_, ?_, fun x hx => ?_, ?_⟩
    · rw [hi, h0]
    · rw [hnew]; simp only [State.newTask, hopen, if_true]
    · rw [hopenq, if_pos hopen, h0]
    · rw [hrows rfl, h0]
    · rw [hother x hx, h0]; rfl
    · rw [hcnt, h0]; rfl
  · intro x
    have hx : s0.choose m.cv (s0.lap + 1) (m.cv.span + 1) (m.cv.deadline + 1) = x := by
      rw [State.choose_congr (s := s) (by rw [h0]) (by rw [h0])]
      rw [h0]; rfl
    obtain ⟨hlen, hpw, hmem⟩ := s.choose_spec m.cv (m.cv.deadline + 1) (s.lap + 1) (m.cv.span + 1)
    have hres : s0.decideSubm m = if x.1.length < m.cv.span + 1 then s0.refuse m x.2.1 x.2.2 else s0.admitSubm m tti x.1 := by
      unfold State.decideSubm
      simp only [hcode, hok, hfree, hft, hbooked, ne_eq, not_true, if_false, hx]
    refine ⟨fun hshort => ?_, fun hlong => ?_⟩
    · rw [if_pos hshort] at hres
      obtain ⟨hsta, hheld, -⟩ := s0.refuse_spec m x.2.1 x.2.2
      rw [← hres] at hsta hheld
      refine ⟨_, hplain, ?_, ?_, if 0x12 ≤ x.2.1 then x.2.2 else 0, ?_⟩
      · rw [hsta, h0]
      · rw [hsta, h0]
      · rw [h0] at hheld; rw [h0]; exact hheld
    · rw [if_neg (by omega)] at hres
      obtain ⟨-, htask, -, -, -, -, hsame, hbook⟩ := s0.admitSubm_spec m tti x.1
      rw [← hres] at htask hsame hbook
      have hrow : ∀ l, s0.row l = s.row l := fun l => by rw [h0]; rfl
      have hlen' : x.1.length = m.cv.span + 1 := Nat.le_antisymm hlen hlong
      refine ⟨_, hplain, ?_, ?_, hlen', hpw, fun l hl => ?_, fun l hl => ?_⟩
      · rw [htask]; simp only [State.newTask, hbooked, if_false]
      · rw [htask]; exact hlen'
      · obtain ⟨hlo, hhi, hfit⟩ := hmem l hl
        obtain ⟨-, e, he⟩ := State.pick_of_fits hfit
        obtain ⟨hus, hrange⟩ := State.pick_spec he
        refine ⟨by omega, by omega, e, he, hus, hrange, ?_⟩
        rw [hbook l e (hpw.imp Nat.ne_of_lt) hl (by rw [State.pick_congr (s := s) (by rw [h0]), hrow]; exact he), hrow]
      · rw [hsame l hl, hrow]

end Sys2Proof.Machine

namespace Sys2Proof.Machine

/-! ### Cancels (R61) -/

/-- What the Starter does with a CANCEL at the front of the intake queue: it notes the decision, and goes by the Task named. -/
theorem State.cancel_cases {s : State} {m : Subm} {rest : List Subm} (hq : s.sta.intake = m :: rest) (hd : s.decides = true)
    (hc : m.r.isCancel = true) {tti : Nat} (ht : tti = bitsOf m.r.w1.toNat 15 0) {same : Prop}
    (hsame : same ↔ (s.task tti).sq = m.sq ∧ (s.task tti).cid = bitsOf m.r.w1.toNat 31 16 ∧ (s.task tti).ovr = 0) :
    ∃ s1 : State, s1.sta.intake = rest ∧ (∀ x, s1.task x = s.task x) ∧ s1.lap = s.lap ∧
      (¬ same → exec .cancel s = .next s1) ∧
      (same → (s.task tti).st = .booked ∨ (s.task tti).st = .parked ∨ (s.task tti).st = .queued →
        exec .cancel s = .next (s1.settle tti .cancelled 0 0)) ∧
      (same → (s.task tti).st = .running → exec .cancel s = .next (s1.updTask tti (fun t => { t with cancelReq := true }))) ∧
      ((s.task tti).st = .free ∨ (s.task tti).st = .settled → exec .cancel s = .next s1) := by
  obtain ⟨s0, h0⟩ : ∃ s0 : State, s0 = { s with sta := { s.sta with intake := rest } } := ⟨_, rfl⟩
  obtain ⟨hf, hr⟩ := s0.noteDecision_frame tti 0 m.sq m.r.cid
  have htask : ∀ x, (s0.noteDecision tti 0 m.sq m.r.cid).task x = s.task x := fun x => by rw [hf, h0]; rfl
  have hexec : exec .cancel s = execCancel s := rfl
  simp only [execCancel, hq, if_pos (And.intro hd hc), ← ht, ← h0, htask] at hexec
  have hwrong : ¬ same → exec .cancel s = .next (s0.noteDecision tti 0 m.sq m.r.cid) := fun h => by
    rw [hexec, if_pos]
    by_contra hn
    simp only [not_or, not_not] at hn
    exact h (hsame.2 hn)
  have hright : same → ¬ ((s.task tti).sq ≠ m.sq ∨ (s.task tti).cid ≠ bitsOf m.r.w1.toNat 31 16 ∨ (s.task tti).ovr ≠ 0) := by
    intro h
    simpa only [not_or, not_not] using hsame.1 h
  refine ⟨s0.noteDecision tti 0 m.sq m.r.cid, ?_, htask, ?_, hwrong, fun h hst => ?_, fun h hst => ?_, fun hst => ?_⟩
  · rw [hf, h0]
  · exact State.lap_congr (by rw [hf, h0]) (by rw [hr _ (by decide), h0]; rfl)
  · rw [hexec, if_neg (hright h)]
    rcases hst with hst | hst | hst <;> rw [hst]
  · rw [hexec, if_neg (hright h), hst]
  · by_cases h : same
    · rw [hexec, if_neg (hright h)]
      rcases hst with hst | hst <;> rw [hst]
    · exact hwrong h

/-- O42's cancels: the states of the Task that the record names. -/
theorem admission_cancel : Claims.CancelComplete := by
  intro s m rest hq hd hc tti k same
  obtain ⟨s1, hi, htask, hlap, hwrong, hwaits, hruns, hdone⟩ := State.cancel_cases hq hd hc (tti := tti) rfl (same := same) Iff.rfl
  by_cases hkeep : ¬ same ∨ k.st = .free ∨ k.st = .settled
  · have hex : exec .cancel s = .next s1 := hkeep.elim hwrong hdone
    have hst : same → k.st = .free ∨ k.st = .settled := fun h => hkeep.resolve_left (not_not.2 h)
    refine ⟨s1, hex, hi, fun x _ => htask x, fun _ => htask tti, fun h hw => ?_, fun h hw => ?_, fun _ => htask tti⟩
    · rcases hst h with h' | h' <;> simp [h'] at hw
    · rcases hst h with h' | h' <;> simp [h'] at hw
  · simp only [not_or, not_not] at hkeep
    obtain ⟨hs, hfree, hset⟩ := hkeep
    by_cases hrun : k.st = .running
    · refine ⟨_, hruns hs hrun, hi, fun x hx => ?_, fun h => absurd hs h, by simp [hrun], fun _ _ => ?_, by simp [hrun]⟩
      · rw [State.task_updTask_ne _ _ hx, htask]
      · rw [State.task_updTask, htask]
    · have hwait : k.st = .booked ∨ k.st = .parked ∨ k.st = .queued := by
        cases h : k.st <;> simp [h] at hfree hset hrun ⊢
      have halive : (s1.task tti).alive := by rw [htask]; exact ⟨hfree, hset⟩
      have hnew : (s1.settle tti .cancelled 0 0).task tti = k.settledAs .cancelled 0 0 s.lap := by
        rw [State.task_settle halive, htask, hlap]
      refine ⟨_, hwaits hs hwait, by rw [(s1.settle_frame ..).1, hi], fun x hx => ?_, fun h => absurd hs h, fun _ _ => ?_,
        fun _ h => absurd h hrun, fun h => absurd h (by simp [hfree, hset])⟩
      · rw [s1.task_settle_ne hx, htask]
      · rw [hnew]; exact ⟨rfl, rfl, rfl⟩

/-! ### The move of a lost engine's bookings (R64) -/

/-- The bookings of an engine that are still to leave from Lap `now` on are among `moves`, and their Tasks are alive. -/
def State.LeavesBy (s : State) (now e : Nat) (moves : List (Nat × Nat)) : Prop :=
  ∀ l, now ≤ l → ∀ b ∈ (s.row l).plc, b.engine = e → (l = now → b.taken = false) →
    (l, b.tti) ∈ moves ∧ (s.task b.tti).alive

/-- Booking a Lap adds no booking of an engine that is not usable. -/
theorem State.LeavesBy.bookLap {s : State} {now e : Nat} {moves : List (Nat × Nat)} (h : s.LeavesBy now e moves)
    (hu : s.usable e = false) (cv : CostVec) (tti k : Nat) : (s.bookLap cv tti k).LeavesBy now e moves := by
  obtain ⟨hf, hr⟩ := s.bookLap_frame cv tti k
  intro l hl b hb he ht
  have htask : (s.bookLap cv tti k).task b.tti = s.task b.tti := by rw [hf]; rfl
  rw [htask]
  by_cases hk : l = k
  · subst hk
    cases hp : s.pick cv (s.row l) with
    | none =>
      have hs : s.bookLap cv tti l = s := by rw [State.bookLap, hp]
      rw [hs] at hb
      exact h l hl b hb he ht
    | some f =>
      rw [State.row_bookLap hp, Row.book_plc, List.mem_append, List.mem_singleton] at hb
      rcases hb with hb | rfl
      · exact h l hl b hb he ht
      · have hus := (State.pick_spec hp).1
        dsimp only at he
        rw [he, hu] at hus
        simp at hus
  · rw [hr l hk] at hb
    exact h l hl b hb he ht

/-- Settling a Task takes its own bookings out and leaves the others'. -/
theorem State.LeavesBy.fail {s : State} {now e : Nat} {moves : List (Nat × Nat)} (h : s.LeavesBy now e moves)
    (hnow : s.lap = now) (tti cause : Nat) : (s.fail tti cause).LeavesBy now e moves := by
  by_cases ha : (s.task tti).alive
  · intro l hl b hb he ht
    rw [State.fail, State.row_settle ha] at hb
    obtain ⟨hb, hself⟩ := Row.mem_without hb
    by_cases hx : b.tti = tti
    · obtain ⟨hahead, htaken⟩ := hself hx
      have hle : l = now := by
        simp only [decide_eq_false_iff_not, Nat.not_lt] at hahead
        omega
      simp [ht hle] at htaken
    · rw [State.fail, State.task_settle_ne _ hx]
      exact h l hl b hb he ht
  · rw [State.fail, State.settle_done ha]
    exact h

/-- The row of a Lap once one booking has to leave it: of the present one only what the engine has not taken goes. -/
def State.rowLeft (s : State) (e l tti : Nat) : Row :=
  if l = s.lap then { s.row l with plc := (s.row l).plc.filter (fun b => !(b.engine = e && b.tti = tti && !b.taken)) }
  else ((s.row l).release (s.task tti).cv tti).setCtr e 0

theorem State.mem_rowLeft {s : State} {e l tti : Nat} {b : Booking} (h : b ∈ (s.rowLeft e l tti).plc) :
    b ∈ (s.row l).plc ∧ (b.tti = tti → b.engine = e → l = s.lap ∧ b.taken = true) := by
  unfold State.rowLeft at h
  split at h
  next hl =>
    simp only [List.mem_filter, Bool.not_eq_true', Bool.and_eq_false_iff, decide_eq_false_iff_not, Bool.not_eq_false'] at h
    exact ⟨h.1, fun h1 h2 => ⟨hl, h.2.resolve_left (by simp [h1, h2])⟩⟩
  next =>
    have hplc : (((s.row l).release (s.task tti).cv tti).setCtr e 0).plc = ((s.row l).release (s.task tti).cv tti).plc := rfl
    rw [hplc, Row.release_plc] at h
    simp only [List.mem_filter, decide_eq_true_eq] at h
    exact ⟨h.1, fun h1 => absurd h1 h.2⟩

/-- What a move does: nothing for a Task that is settled; else the booking leaves its row, and the Task is booked again or
fails. -/
theorem State.moveOne_cases (s : State) (e l tti : Nat) :
    (¬ (s.task tti).alive ∧ s.moveOne e l tti = s) ∨
      ((s.task tti).alive ∧
        ((∃ k, s.moveOne e l tti = (s.setRow l (s.rowLeft e l tti)).bookLap (s.task tti).cv tti k) ∨
          s.moveOne e l tti = (s.setRow l (s.rowLeft e l tti)).fail tti 0x09)) := by
  by_cases h : (s.task tti).alive
  · refine .inr ⟨h, ?_⟩
    have hrow : (if decide (l = s.lap) = true then
          { s.row l with plc := (s.row l).plc.filter (fun b => !(b.engine = e && b.tti = tti && !b.taken)) }
        else ((s.row l).release (s.task tti).cv tti).setCtr e 0) = s.rowLeft e l tti := by
      simp only [State.rowLeft, decide_eq_true_eq]
    unfold State.moveOne
    dsimp only
    rw [hrow, if_neg (by simp only [Bool.or_eq_true, decide_eq_true_eq, not_or]; exact h)]
    split
    · exact .inl ⟨_, rfl⟩
    · split
      · exact .inl ⟨_, rfl⟩
      · exact .inr rfl
  · refine .inl ⟨h, ?_⟩
    unfold State.moveOne
    dsimp only
    rw [if_pos]
    by_contra hc
    simp only [Bool.or_eq_true, decide_eq_true_eq, not_or] at hc
    exact h hc

/-- A move changes nothing of the memory, of the marks of lost blocks and of the Lap. -/
theorem State.moveOne_frame (s : State) (e l tti : Nat) :
    (s.moveOne e l tti).m = s.m ∧ (s.moveOne e l tti).blk = s.blk ∧ (s.moveOne e l tti).lap = s.lap := by
  rcases s.moveOne_cases e l tti with ⟨-, h⟩ | ⟨-, ⟨k, h⟩ | h⟩ <;> rw [h]
  · exact ⟨rfl, rfl, rfl⟩
  · rw [(State.bookLap_frame _ _ tti k).1]
    exact ⟨rfl, rfl, rfl⟩
  · exact ⟨State.m_settle .., State.blk_settle .., State.lap_settle ..⟩

/-- One move: the booking it names has left its row, and no other has come to the engine. -/
theorem State.LeavesBy.moveOne {s : State} {now e l tti : Nat} {moves : List (Nat × Nat)}
    (h : s.LeavesBy now e ((l, tti) :: moves)) (hnow : s.lap = now) (hu : s.usable e = false) :
    (s.moveOne e l tti).LeavesBy now e moves := by
  have hrest : ∀ {k : Nat} {b : Booking}, (k, b.tti) ∈ (l, tti) :: moves → ¬ (k = l ∧ b.tti = tti) → (k, b.tti) ∈ moves := by
    intro k b hm hn
    rcases List.mem_cons.1 hm with he | hm
    · exact absurd ⟨congrArg Prod.fst he, congrArg Prod.snd he⟩ hn
    · exact hm
  have h1 : (s.setRow l (s.rowLeft e l tti)).LeavesBy now e moves := by
    intro k hk b hb he ht
    by_cases hkl : k = l
    · subst hkl
      rw [State.row_setRow] at hb
      obtain ⟨hb, hself⟩ := State.mem_rowLeft hb
      obtain ⟨hm, ha⟩ := h k hk b hb he ht
      refine ⟨hrest hm fun hs => ?_, ha⟩
      obtain ⟨h1, h2⟩ := hself hs.2 he
      simp [ht (h1.trans hnow)] at h2
    · rw [State.row_setRow_ne _ _ hkl] at hb
      obtain ⟨hm, ha⟩ := h k hk b hb he ht
      exact ⟨hrest hm fun hs => hkl hs.1, ha⟩
  rcases s.moveOne_cases e l tti with ⟨hdead, hs⟩ | ⟨-, ⟨k, hs⟩ | hs⟩ <;> rw [hs]
  · intro k hk b hb he ht
    obtain ⟨hm, ha⟩ := h k hk b hb he ht
    exact ⟨hrest hm fun hs => hdead (hs.2 ▸ ha), ha⟩
  · exact h1.bookLap hu _ _ _
  · exact h1.fail hnow _ _

/-- All moves: no booking of the engine is left but those taken in the present Lap. -/
theorem State.LeavesBy.moves {s : State} {now e : Nat} {moves : List (Nat × Nat)} (h : s.LeavesBy now e moves)
    (hnow : s.lap = now) (hu : s.usable e = false) :
    (moves.foldl (fun s (m : Nat × Nat) => s.moveOne e m.1 m.2) s).LeavesBy now e [] ∧
      (moves.foldl (fun s (m : Nat × Nat) => s.moveOne e m.1 m.2) s).m = s.m := by
  induction moves generalizing s with
  | nil => exact ⟨h, rfl⟩
  | cons x t ih =>
    obtain ⟨hm, hb, hl⟩ := s.moveOne_frame e x.1 x.2
    obtain ⟨h1, h2⟩ := ih (s := s.moveOne e x.1 x.2) (h.moveOne hnow hu) (hl.trans hnow)
      (by rw [State.usable_congr hb]; exact hu)
    exact ⟨h1, h2.trans hm⟩

theorem SMap.mem_of_get_ne {α : Type} {d : α} {m : SMap α} {k : Nat} (h : SMap.get d m k ≠ d) : (k, SMap.get d m k) ∈ m := by
  induction m with
  | nil => exact absurd rfl h
  | cons x t ih =>
    obtain ⟨j, w⟩ := x
    simp only [SMap.get] at h ⊢
    split
    · rename_i hj; subst hj; exact List.mem_cons_self
    · rename_i hj
      rw [if_neg hj] at h
      exact List.mem_cons_of_mem _ (ih h)

/-- O42's moves: every booking of the engine that is to leave is in the list of moves. -/
theorem admission_move : Claims.BookingMoveComplete := by
  intro s e hm he hu halive
  have hexec : exec (.bookingMove e) s =
      .next { s.moveBookings e with sta := { (s.moveBookings e).sta with moving := (s.moveBookings e).toMove } } := by
    change execBookingMove e s = _
    unfold execBookingMove
    rw [if_pos ⟨hm, he, by simpa using hu⟩]
  obtain ⟨moves, hmoves⟩ : ∃ moves : List (Nat × Nat), moves = (s.sta.rows.filter (fun p => s.lap ≤ p.1)).flatMap (fun p =>
    (p.2.plc.filter (fun b => b.engine = e && !(p.1 = s.lap && b.taken))).map (fun b => (p.1, b.tti))) := ⟨_, rfl⟩
  have hstart : s.LeavesBy s.lap e moves := by
    intro l hl b hb hbe ht
    refine ⟨?_, halive l hl b hb hbe⟩
    have hne : s.row l ≠ Row.zero := fun hz => by rw [hz] at hb; simp [Row.zero] at hb
    rw [hmoves, List.mem_flatMap]
    refine ⟨(l, s.row l), List.mem_filter.2 ⟨SMap.mem_of_get_ne hne, by simpa using hl⟩, List.mem_map.2 ⟨b, ?_, rfl⟩⟩
    refine List.mem_filter.2 ⟨hb, ?_⟩
    by_cases hll : l = s.lap
    · simp [hbe, ht hll]
    · simp [hbe, hll]
  obtain ⟨hend, hmem⟩ := hstart.moves rfl hu
  have hs1 : s.moveBookings e = moves.foldl (fun s (m : Nat × Nat) => s.moveOne e m.1 m.2) s := by rw [hmoves]; rfl
  rw [← hs1] at hend hmem
  refine ⟨_, hexec, rfl, hmem, fun l hl b hb hbe => ?_⟩
  by_contra hc
  refine absurd (hend l hl b hb hbe fun hll => ?_).1 (by simp)
  by_contra ht
  exact hc ⟨hll, by simpa using ht⟩

/-- Settles O42: the decision's cases, the cancels by the Task's state, and the moves by induction on their list. -/
theorem admissionComplete : Obligations.AdmissionComplete := ⟨admission_decision, admission_cancel, admission_move⟩

end Sys2Proof.Machine

namespace Sys2Proof.Machine

/-! ### An instruction without effect -/

/-- One cycle and retirement: what an instruction without an effect of its own does. -/
theorem State.cycle_retires (s : State) (e : Nat) (p : Pfx) (op : Nat) :
    Retires s ((s.cycle e).retire e op (pLen p op) .next) e p op id := by
  have h := Engine.retired_units ((s.cycle e).eng e) op (pLen p op) .next
  refine ⟨(s.touches_cycle e).trans (State.touches_retire _ e _ _ _), ?_, ?_⟩
  · unfold SameUnits
    rw [State.eng_retire]
    refine ⟨?_, ?_⟩
    · rw [h.1, State.eng_cycle]
    · rw [h.2]
      simp [Engine.answers, State.eng_cycle]
  · rw [State.eng_retire, Engine.retired_arch, State.eng_cycle]
    rfl

/-! ### Engines and their placements (R37, R38, R49) -/

theorem OnlyEng.refl (s : State) (e : Nat) : OnlyEng s s e := fun _ _ => rfl

theorem OnlyEng.trans {s t u : State} {e : Nat} (h : OnlyEng s t e) (k : OnlyEng t u e) : OnlyEng s u e :=
  fun j hj => (k j hj).trans (h j hj)

theorem OnlyEng.of_engines {s t : State} (h : t.engines = s.engines) (e : Nat) : OnlyEng s t e :=
  fun j _ => by rw [State.eng, State.eng, h]

theorem OnlyEng.updEng (s : State) (e : Nat) (g : Engine → Engine) : OnlyEng s (s.updEng e g) e :=
  fun _ hj => s.eng_updEng_ne e _ g hj

/-- Charging a placement's cycles changes its Task's total alone. -/
theorem State.chargeCyc_eq (s : State) (e : Nat) : (s.chargeCyc e) = { s with sta := { s.sta with tasks := (s.chargeCyc e).sta.tasks } } ∧
    ∀ x, (s.chargeCyc e).task x = { s.task x with cyc := ((s.chargeCyc e).task x).cyc } := by
  unfold State.chargeCyc
  split
  · exact ⟨rfl, fun _ => rfl⟩
  · refine ⟨rfl, fun x => ?_⟩
    rw [State.task_updTask_if]
    split <;> rfl

/-- What an engine holds once its placement has gone: its registers but for its errors, and no read that it wants. -/
def Engine.cleared (x : Engine) : Engine :=
  { x with
    walks := [], got := [], running := false, place := none, waite := none, pend := none, vinsts := [], chains := [], lbuf := none
    entry := none, reissue := none, arch := { x.arch with errq := [], escact := false, erract := false } }

@[simp] theorem State.eng_dropReads (s : State) (e : Nat) : (s.dropReads e).eng e = { s.eng e with walks := [], got := [] } :=
  s.eng_updEng e (fun x => { x with walks := [], got := [] })

theorem State.eng_dropReads_ne (s : State) {e j : Nat} (h : j ≠ e) : (s.dropReads e).eng j = s.eng j :=
  s.eng_updEng_ne e j (fun x => { x with walks := [], got := [] }) h

theorem State.clearPlace_frame (s : State) (e : Nat) :
    s.clearPlace e = { s with
      engines := (s.clearPlace e).engines
      ring := { s.ring with reqs := (s.clearPlace e).ring.reqs }
      m := { s.m with expq := (s.clearPlace e).m.expq } } ∧
    OnlyEng s (s.clearPlace e) e ∧ (s.clearPlace e).eng e = (s.eng e).cleared := by
  refine ⟨rfl, fun j hj => ?_, ?_⟩
  · rw [State.clearPlace, State.eng_updEng_ne _ _ _ _ hj, State.eng_dropReads_ne _ hj]
  · rw [State.clearPlace, State.eng_updEng, State.eng_dropReads]
    rfl

theorem State.lap_clearPlace (s : State) (e : Nat) : (s.clearPlace e).lap = s.lap := by
  rw [(s.clearPlace_frame e).1]
  generalize (s.clearPlace e).engines = x, (s.clearPlace e).ring.reqs = y, (s.clearPlace e).m.expq = z
  rfl

theorem State.sta_clearPlace (s : State) (e : Nat) : (s.clearPlace e).sta = s.sta := by
  rw [(s.clearPlace_frame e).1]

theorem State.task_clearPlace (s : State) (e x : Nat) : (s.clearPlace e).task x = s.task x := by
  rw [State.task, State.sta_clearPlace]; rfl

theorem State.row_clearPlace (s : State) (e l : Nat) : (s.clearPlace e).row l = s.row l := by
  rw [State.row, State.sta_clearPlace]; rfl

theorem State.cq_clearPlace (s : State) (e q : Nat) : (s.clearPlace e).cq q = s.cq q := by
  rw [(s.clearPlace_frame e).1]
  generalize (s.clearPlace e).engines = x, (s.clearPlace e).ring.reqs = y, (s.clearPlace e).m.expq = z
  rfl

theorem State.mem_clearPlace (s : State) (e : Nat) : (s.clearPlace e).m.mem = s.m.mem := by
  rw [(s.clearPlace_frame e).1]

theorem State.memq_clearPlace (s : State) (e : Nat) : (s.clearPlace e).m.memq = s.m.memq := by
  rw [(s.clearPlace_frame e).1]

/-- A Task that a row's booking of it can start (R37, R55). -/
def Task.startable (t : Task) : Bool := (t.st = .booked || t.st = .parked || t.st = .running) && t.ovr = 0

theorem State.nextBooked_eq (s : State) (e : Nat) : s.nextBooked e =
    ((s.row s.lap).plc.find? (fun b => b.engine = e && !b.taken && (s.task b.tti).startable)).map (fun b => b.tti) := by
  simp only [State.nextBooked, Task.startable, Bool.and_assoc]

/-- Where nothing is booked next, and no booking or startable Task has come, nothing is booked next. -/
theorem State.nextBooked_none_mono {s t : State} {e : Nat} (h : s.nextBooked e = none)
    (hrow : ∀ b ∈ (t.row t.lap).plc, b ∈ (s.row s.lap).plc)
    (htask : ∀ x, (t.task x).startable = true → (s.task x).startable = true) : t.nextBooked e = none := by
  rw [State.nextBooked_eq, Option.map_eq_none_iff, List.find?_eq_none] at h ⊢
  intro b hb hc
  refine h b (hrow b hb) ?_
  simp only [Bool.and_eq_true] at hc ⊢
  exact ⟨hc.1, htask _ hc.2⟩

theorem State.advanceEngine_none {s : State} {e : Nat} (h : s.nextBooked e = none) : s.advanceEngine e = s := by
  unfold State.advanceEngine
  split
  · rw [h]
  · rfl

/-- Settling a Task with its queue's record: one more record waits at its completion queue. -/
theorem State.held_settle {s : State} {tti : Nat} (h : (s.task tti).alive) (o : Outcome) (cause vector : Nat) :
    (((s.settle tti o cause vector).cq (s.cqOf (s.task tti).sq)).held).length =
      ((s.cq (s.cqOf (s.task tti).sq)).held).length + 1 := by
  obtain ⟨s1, h1, s3, h3, he⟩ := s.settle_alive h o cause vector
  obtain ⟨hf, hr⟩ := s1.settleCounts_frame o ((s.task tti).cls ≠ 2 && (s.task tti).deadlineLap < s.lap)
  rw [← h3] at hf hr
  have hcq : s3.cqOf (s.task tti).sq = s.cqOf (s.task tti).sq := by
    rw [State.cqOf, hr.fld, h1]
    · rfl
    · simp only [settleOffs, Reg.hostSqCfg, Reg.staCountOverrun, Reg.staCountLate, List.mem_cons, List.not_mem_nil, or_false]
      omega
  have hhost : s3.host = s.host := by rw [hf, h1]; rfl
  rw [he, hcq]
  have hget := SMap.get_set_self CQueue.init s3.host.cq (s.cqOf (s.task tti).sq)
    { s3.cq (s.cqOf (s.task tti).sq) with held := (s3.cq (s.cqOf (s.task tti).sq)).held ++ [s3.completeRec tti] }
  have hlen := congrArg (fun c : CQueue => c.held.length) hget
  refine hlen.trans ?_
  simp only [List.length_append, List.length_cons, List.length_nil, State.cq, hhost]

/-! ### TEND (R39, R59) -/

/-- One engine cycle touches the engine and its cycle counter alone. -/
theorem State.cycle_frame (s : State) (e : Nat) :
    s.cycle e = { s with engines := (s.cycle e).engines, regs := (s.cycle e).regs } ∧ OnlyEng s (s.cycle e) e ∧
      OnlyRegs s (s.cycle e) [(Reg.enPmcCyc e).off, (Reg.enPmcCyc e).off + 4] := by
  obtain ⟨hf, ho, -⟩ := s.touches_cycle e
  exact ⟨hf, ho, (State.pmcCount_frame _ e (Reg.enPmcCyc e)).2.2⟩

theorem notMem_enPmcCyc {off e : Nat} (h : off < 0x1000000) : off ∉ [(Reg.enPmcCyc e).off, (Reg.enPmcCyc e).off + 4] := by
  simp only [Reg.enPmcCyc, List.mem_cons, List.not_mem_nil, or_false]
  omega

/-- Whether an engine's own work is done does not depend on the cycle. -/
theorem State.drained_cycle (s : State) (e : Nat) : (s.cycle e).drained e = s.drained e := by
  obtain ⟨hf, -, hr⟩ := s.cycle_frame e
  have hpos : (s.cycle e).pos = s.pos := State.pos_congr (hr _ (notMem_enPmcCyc (by decide)))
  have hsrc : (s.cycle e).srcOf e = s.srcOf e := by rw [State.srcOf, State.srcOf, hpos]
  have hm : (s.cycle e).m = s.m := (congrArg State.m hf :)
  have hring : (s.cycle e).ring = s.ring := (congrArg State.ring hf :)
  rw [State.drained, State.drained, State.writesDone, State.writesDone, hsrc, hm, hring, State.eng_cycle]
  rfl

/-- TEND of a drained engine that executes it: the Steward goes on, an engine's placement ends. -/
theorem State.exec_tend {s : State} {e : Nat} {p : Pfx} (h : s.executes e p 0x01 0 = true) (hd : s.drained e = true) :
    (∀ q, (s.eng e).place = some q → exec (.tend e p) s = .next ((s.cycle e).retireTend e q.ticked)) ∧
    ((s.eng e).place = none → exec (.tend e p) s = .next ((s.cycle e).retire e 0x01 (pLen p 0x01) .next)) := by
  have hexec : exec (.tend e p) s = .next (s.perform e 0x01 (pLen p 0x01) (fun s =>
      if !s.drained e then .wait
      else
        match (s.eng e).place with
        | some q => .stop (s.retireTend e q)
        | none => .done s .next)) :=
    congrArg Host.Outcome.next (State.scalar_executes (bad := fun _ => 0) latNone _ h)
  simp only [State.perform, State.drained_cycle, hd, State.eng_cycle, Bool.not_true, Bool.false_eq_true, if_false] at hexec
  exact ⟨fun q hq => by rw [hexec, hq]; rfl, fun hn => by rw [hexec, hn]; rfl⟩

/-- The Task of a placement when TEND retires. -/
def Task.tended (t : Task) (cyc : Nat) : Task := { t with cyc := Nat.min (t.cyc + cyc) 0xFFFFFFFF, ended := true }

/-- The state in which TEND settles its Task: the placement's cycles charged and the Task marked as ended. -/
def State.tended (s : State) (e : Nat) (q : Placement) : State :=
  (s.chargeCyc e).updTask q.tti (fun t => { t with ended := true })

theorem State.tended_frame {s : State} {e : Nat} {q : Placement} (hp : (s.eng e).place = some q) :
    s.tended e q = { s with sta := { s.sta with tasks := (s.tended e q).sta.tasks } } ∧
    (s.tended e q).task q.tti = (s.task q.tti).tended q.cyc ∧ ∀ x, x ≠ q.tti → (s.tended e q).task x = s.task x := by
  have hc : s.chargeCyc e = s.updTask q.tti (fun t => { t with cyc := Nat.min (t.cyc + q.cyc) 0xFFFFFFFF }) := by
    rw [State.chargeCyc, hp]
  refine ⟨?_, ?_, fun x hx => ?_⟩
  · rw [State.tended, hc]; rfl
  · rw [State.tended, hc, State.task_updTask, State.task_updTask]; rfl
  · rw [State.tended, hc, State.task_updTask_ne _ _ hx, State.task_updTask_ne _ _ hx]

/-- A TEND within its budgets outside mirrored operation and Escalation settles the Task as Delivered and ends the placement. -/
theorem State.retireTend_delivered {s : State} {e : Nat} {q : Placement} (hp : (s.eng e).place = some q)
    (hover : s.overCycles q = false) (hesc : (s.eng e).arch.escact = false) (hovr : (s.task q.tti).ovr = 0)
    (hmir : s.mirroredNow = false) (hst : (s.task q.tti).st = .running) (hnext : s.nextBooked e = none) :
    s.retireTend e q = ((s.tended e q).settle q.tti .delivered 0 0).clearPlace e := by
  obtain ⟨s2, h2⟩ : ∃ s2 : State, s2 = s.tended e q := ⟨_, rfl⟩
  obtain ⟨hf, hself, hne⟩ := State.tended_frame hp
  rw [← h2] at hf hself hne
  have h2e : (s2.eng e).arch.escact = false := by rw [hf]; exact hesc
  have h2m : s2.mirroredNow = false := by rw [hf]; exact hmir
  have h2o : (s2.task q.tti).ovr = 0 := by rw [hself]; exact hovr
  have halive : (s2.task q.tti).alive := by rw [hself]; simp [Task.alive, Task.tended, hst]
  have hnone : ((s2.settle q.tti .delivered 0 0).clearPlace e).nextBooked e = none := by
    have hlap2 : s2.lap = s.lap := by rw [hf]; rfl
    have hrow2 : s2.row s.lap = s.row s.lap := by rw [hf]; rfl
    refine State.nextBooked_none_mono hnext (fun b hb => ?_) fun x hx => ?_
    · rw [State.lap_clearPlace, State.lap_settle, hlap2, State.row_clearPlace, State.row_settle halive, hrow2] at hb
      exact (Row.mem_without hb).1
    · rw [State.task_clearPlace] at hx
      by_cases hxe : x = q.tti
      · rw [hxe, State.task_settle halive] at hx
        simp [Task.startable, Task.settledAs] at hx
      · rwa [State.task_settle_ne _ hxe, hne x hxe] at hx
  have hunf : s.retireTend e q = ((s2.settle q.tti .delivered 0 0).clearPlace e).advanceEngine e := by
    have h0 : ∀ u : State, u = s → ∀ v, v = s2 →
        (if (v.eng e).arch.escact then ((v.settle q.tti .failed 0x03 0).clearPlace e).advanceEngine e
         else if (v.task q.tti).ovr ≠ 0 then (v.clearPlace e).advanceEngine e
         else ((if v.mirroredNow then v.sendTend e q else v.deliver q.tti).clearPlace e).advanceEngine e) =
        ((s2.settle q.tti .delivered 0 0).clearPlace e).advanceEngine e := by
      rintro u rfl v rfl
      rw [h2e, if_neg (by decide), if_neg (not_not.2 h2o), h2m, if_neg (by decide)]
      rfl
    refine Eq.trans ?_ (h0 s rfl s2 rfl)
    rw [State.retireTend, hover, h2]
    rfl
  rw [hunf, State.advanceEngine_none hnone, h2]

/-- Settles O18: an engine's TEND by the cases of its retirement, the Steward's by the rule of scalar instructions. -/
theorem tendComplete : Obligations.TendComplete := by
  refine ⟨fun s e p q he hex hd hp hovr hesc hmir hover hst hnext => ?_, fun s p hex hd hp => ?_⟩
  · obtain ⟨s1, h1⟩ : ∃ s1 : State, s1 = s.cycle e := ⟨_, rfl⟩
    obtain ⟨hf, honly, hr⟩ := s.cycle_frame e
    have heng := s.eng_cycle e
    have hexec := (State.exec_tend hex hd).1 q hp
    rw [← h1] at hf honly hr heng hexec hover
    have hsta : s1.sta = s.sta := (congrArg State.sta hf :)
    have hhost : s1.host = s.host := (congrArg State.host hf :)
    have hm : s1.m = s.m := (congrArg State.m hf :)
    have htask : ∀ x, s1.task x = s.task x := fun x => by rw [State.task, hsta]; rfl
    have hrow : ∀ l, s1.row l = s.row l := fun l => by rw [State.row, hsta]; rfl
    have htb : s1.tb = s.tb := (congrArg State.tb hf :)
    have hlap : s1.lap = s.lap := State.lap_congr htb (hr _ (notMem_enPmcCyc (by decide)))
    have hcqOf : ∀ k, s1.cqOf k = s.cqOf k := fun k => by
      refine hr.fld ?_ 29 24
      simp only [Reg.hostSqCfg, Reg.enPmcCyc, List.mem_cons, List.not_mem_nil, or_false]
      omega
    have hmode : s1.mode = s.mode := (congrArg State.mode hf :)
    have hdrain : s1.drainMode = s.drainMode := (congrArg State.drainMode hf :)
    have hact : s1.actMode = s.actMode := State.actMode_congr hmode hdrain (hr _ (notMem_enPmcCyc (by decide)))
    have hmir' : s1.mirroredNow = false :=
      (State.mirroredNow_congr hact (hr _ (notMem_enPmcCyc (by decide)))).trans hmir
    have hnext' : s1.nextBooked e = none := State.nextBooked_none_mono hnext
      (fun b hb => by rwa [hlap, hrow] at hb) fun x hx => by rwa [htask] at hx
    have hp1 : (s1.eng e).place = some q.ticked := by rw [heng, hp]; rfl
    have htti : q.ticked.tti = q.tti := rfl
    rw [State.retireTend_delivered hp1 hover (by rw [heng]; exact hesc)
      (by rw [htti, htask]; exact hovr) hmir' (by rw [htti, htask]; exact hst) hnext', htti] at hexec
    obtain ⟨s2, h2⟩ : ∃ s2 : State, s2 = s1.tended e q.ticked := ⟨_, rfl⟩
    obtain ⟨h2f, h2t, -⟩ := State.tended_frame hp1
    rw [← h2] at h2f h2t hexec
    rw [htti, htask] at h2t
    have halive : (s2.task q.tti).alive := by rw [h2t]; simp [Task.alive, Task.tended, hst]
    have hfinal : (s2.settle q.tti .delivered 0 0).task q.tti =
        ((s.task q.tti).tended q.ticked.cyc).settledAs .delivered 0 0 s.lap := by
      have h2l : s2.lap = s1.lap := by rw [h2f]; rfl
      rw [State.task_settle halive, h2t, h2l, hlap]
    have hheld := State.held_settle halive .delivered 0 0
    have h2c : s2.cqOf (s2.task q.tti).sq = s.cqOf (s.task q.tti).sq := by
      rw [h2t, ← hcqOf, h2f]; rfl
    have h2q : ∀ k, s2.cq k = s.cq k := fun k => by
      have h2h : s2.host = s.host := (congrArg State.host h2f :).trans hhost
      rw [State.cq, h2h]; rfl
    rw [h2c, h2q] at hheld
    obtain ⟨-, hconly, hcleng⟩ := (s2.settle q.tti .delivered 0 0).clearPlace_frame e
    have h2m : s2.m = s.m := (congrArg State.m h2f :).trans hm
    refine ⟨_, hexec, ?_, ?_, ?_, ?_, ?_, ?_, ?_, ?_, ?_, ?_⟩
    · rw [State.task_clearPlace, hfinal]; rfl
    · rw [State.task_clearPlace, hfinal]; rfl
    · rw [State.task_clearPlace, hfinal]; rfl
    · rw [State.task_clearPlace, hfinal]; rfl
    · rw [hcleng]; rfl
    · rw [hcleng]; rfl
    · rw [State.cq_clearPlace]; exact hheld
    · intro j hj
      have h2j : s2.eng j = s1.eng j := by rw [h2f]; rfl
      rw [hconly j hj, State.eng_settle, h2j, honly j hj]
    · rw [State.mem_clearPlace, State.m_settle, h2m]
    · rw [State.memq_clearPlace, State.m_settle, h2m]
  · exact ⟨_, (State.exec_tend hex hd).2 hp, State.cycle_retires s 512 p 0x01⟩

end Sys2Proof.Machine

namespace Sys2Proof.Machine

/-! ### Taking a placement (R37, R49, R56, R60) -/

theorem State.noteRan_frame (s : State) (e tti : Nat) :
    s.noteRan e tti = { s with pair := { s.pair with ran := (s.noteRan e tti).pair.ran } } := by
  unfold State.noteRan
  split <;> rfl

/-- The placement of a Task that an engine takes. -/
def State.freshPlace (s : State) (tti : Nat) (isOpen : Bool) : Placement :=
  { tti := tti, lap := s.lap, isOpen := isOpen, epoch := (s.task tti).epoch, budget := (s.task tti).cv.budget, cyc := 0,
    restored := false, save := (s.task tti).saveDpa }

/-- A row whose booking of a Task on an engine has been taken. -/
def Row.took (r : Row) (e tti : Nat) : Row :=
  { r with plc := r.plc.map (fun b => if b.engine = e ∧ b.tti = tti then { b with taken := true } else b) }

/-- Taking a placement changes the engine, the Task, its booking or its place in the Open queue, and in mirrored operation the
list of the Lap's placements. -/
theorem State.takePlacement_parts (s : State) (e tti : Nat) (isOpen : Bool) :
    (s.takePlacement e tti isOpen) = { s with
        engines := (s.takePlacement e tti isOpen).engines, sta := (s.takePlacement e tti isOpen).sta
        pair := (s.takePlacement e tti isOpen).pair } ∧
    (s.takePlacement e tti isOpen).engines = (s.updEng e (fun x =>
      { x with running := false, waite := none, pend := none, place := some (s.freshPlace tti isOpen) })).engines ∧
    (s.takePlacement e tti isOpen).sta.tasks = (s.updTask tti (fun x =>
      { x with st := .running, engine := e, lapsLeft := if isOpen then x.lapsLeft else x.lapsLeft - 1 })).sta.tasks ∧
    (s.takePlacement e tti isOpen).sta.rows =
      (if isOpen then s else s.setRow s.lap ((s.row s.lap).took e tti)).sta.rows ∧
    (s.takePlacement e tti isOpen).sta.openq = if isOpen then s.sta.openq.filter (fun x => x ≠ tti) else s.sta.openq := by
  unfold State.takePlacement
  rw [s.noteRan_frame e tti]
  generalize (s.noteRan e tti).pair.ran = r
  cases isOpen <;> exact ⟨rfl, rfl, rfl, rfl, rfl⟩

theorem State.eng_takePlacement (s : State) (e tti : Nat) (isOpen : Bool) : (s.takePlacement e tti isOpen).eng e =
    { s.eng e with running := false, waite := none, pend := none, place := some (s.freshPlace tti isOpen) } := by
  rw [State.eng, (s.takePlacement_parts e tti isOpen).2.1]
  exact State.eng_updEng s e _

theorem State.onlyEng_takePlacement (s : State) (e tti : Nat) (isOpen : Bool) : OnlyEng s (s.takePlacement e tti isOpen) e := by
  intro j hj
  rw [State.eng, (s.takePlacement_parts e tti isOpen).2.1]
  exact State.eng_updEng_ne s e j _ hj

theorem State.task_takePlacement (s : State) (e tti : Nat) (isOpen : Bool) : (s.takePlacement e tti isOpen).task tti =
    { s.task tti with
      st := .running, engine := e
      lapsLeft := if isOpen then (s.task tti).lapsLeft else (s.task tti).lapsLeft - 1 } := by
  rw [State.task, (s.takePlacement_parts e tti isOpen).2.2.1]
  exact State.task_updTask s tti _

theorem State.task_takePlacement_ne (s : State) (e : Nat) {tti x : Nat} (hx : x ≠ tti) (isOpen : Bool) :
    (s.takePlacement e tti isOpen).task x = s.task x := by
  rw [State.task, (s.takePlacement_parts e tti isOpen).2.2.1]
  exact State.task_updTask_ne s _ hx

theorem State.m_takePlacement (s : State) (e tti : Nat) (isOpen : Bool) : (s.takePlacement e tti isOpen).m = s.m := by
  rw [(s.takePlacement_parts e tti isOpen).1]

/-- Taking a booked placement marks it in the present row. -/
theorem State.row_takePlacement (s : State) (e tti : Nat) :
    (s.takePlacement e tti false).row s.lap = (s.row s.lap).took e tti := by
  rw [State.row, (s.takePlacement_parts e tti false).2.2.2.1]
  exact State.row_setRow s _ _

/-- Taking Open work books nothing, and the Task waits no longer. -/
theorem State.sta_takePlacement_open (s : State) (e tti : Nat) : (s.takePlacement e tti true).sta.rows = s.sta.rows ∧
    (s.takePlacement e tti true).sta.openq = s.sta.openq.filter (fun x => x ≠ tti) :=
  (s.takePlacement_parts e tti true).2.2.2

/-! ### Invalidations that are due (R338) -/

/-- Invalidations leave an engine as it is but for its TLBs and the Lap in which they last acted. -/
theorem Engine.applyDue_frame (x : Engine) (lap : Nat) (l : List (Nat × Nat × BitVec 16)) : x.applyDue lap l =
    { x with
      itlb := (x.applyDue lap l).itlb, dtlb := (x.applyDue lap l).dtlb, l2 := (x.applyDue lap l).l2
      swept := (x.applyDue lap l).swept } := by
  have hfold : ∀ (ts : List (Nat × Nat × BitVec 16)) (y : Engine), ∃ i d k,
      ts.foldl (fun (y : Engine) t => y.dropSlots (pageSel t.2.1 t.2.2)) y = { y with itlb := i, dtlb := d, l2 := k } := by
    intro ts
    induction ts with
    | nil => exact fun y => ⟨_, _, _, rfl⟩
    | cons t ts ih => exact fun y => ih (y.dropSlots (pageSel t.2.1 t.2.2))
  obtain ⟨i, d, k, h⟩ := hfold (l.filter (fun t => t.1 ≤ lap && x.swept < t.1)) x
  rw [Engine.applyDue, h]

theorem State.eng_sweepTlb (s : State) (e : Nat) : (s.sweepTlb e).eng e = (s.eng e).applyDue s.lap s.tlbi :=
  s.eng_updEng e _

theorem State.onlyEng_sweepTlb (s : State) (e : Nat) : OnlyEng s (s.sweepTlb e) e := OnlyEng.updEng s e _

theorem State.sweepTlb_frame (s : State) (e : Nat) : s.sweepTlb e = { s with engines := (s.sweepTlb e).engines } := rfl

end Sys2Proof.Machine

namespace Sys2Proof.Machine

/-! ### What filing a fault record leaves (R410 to R412, R421, R422) -/

/-- A record has been filed: besides the registers of fault records only injection queues and sequence numbers of the links, the
Handoff, and the keys and the queue of the Fault Collector differ; of PAIR_STAT only the bit of a fixed Handoff. -/
def Filed (s t : State) : Prop :=
  t = { s with
    regs := t.regs, ring := { s.ring with ports := t.ring.ports, tx2e := t.ring.tx2e }
    pair := { s.pair with ident := t.pair.ident, handoff := t.pair.handoff }
    flt := { s.flt with keys := t.flt.keys, queue := t.flt.queue } } ∧
  OnlyRegs s t faultOffs ∧ ∀ b, b < 32 → b ≠ 25 → t.bit Reg.pairStat b = s.bit Reg.pairStat b

theorem Filed.refl (s : State) : Filed s s := ⟨rfl, fun _ _ => rfl, fun _ _ _ => rfl⟩

theorem Filed.trans {s t u : State} (h : Filed s t) (k : Filed t u) : Filed s u := by
  obtain ⟨h1, h2, h3⟩ := h
  obtain ⟨k1, k2, k3⟩ := k
  exact ⟨by rw [k1, h1], fun r hr => (k2 r hr).trans (h2 r hr), fun b hb hn => (k3 b hb hn).trans (h3 b hb hn)⟩

theorem Filed.of_regs {s t : State} (h : t = { s with regs := t.regs }) (hr : OnlyRegs s t faultOffs)
    (hb : ∀ b, b < 32 → b ≠ 25 → t.bit Reg.pairStat b = s.bit Reg.pairStat b) : Filed s t := by
  obtain ⟨r, rfl⟩ : ∃ r, t = { s with regs := r } := ⟨_, h⟩
  exact ⟨rfl, hr, hb⟩

theorem Filed.inject (s : State) (p : Nat) (f : Flit) : Filed s (s.inject p f) := ⟨rfl, fun _ _ => rfl, fun _ _ _ => rfl⟩

theorem Filed.setTx (s : State) (k : Nat) (x : TxE2e) : Filed s (s.setTx k x) := ⟨rfl, fun _ _ => rfl, fun _ _ _ => rfl⟩

theorem Filed.wr (s : State) {r : RegRef} (h : r.off ∈ faultOffs) (hp : Reg.pairStat.off ≠ r.off) (v : BitVec 32) :
    Filed s (s.wr r v) :=
  Filed.of_regs rfl (OnlyRegs.wr s h v) fun b _ _ => by
    rw [State.bit, State.bit, State.fld, State.fld, s.rd_wr_ne r _ v hp]

theorem Filed.wr64 (s : State) {r : RegRef} (h : r.off ∈ faultOffs) (h' : r.off + 4 ∈ faultOffs) (hp : Reg.pairStat.off ≠ r.off)
    (hp' : Reg.pairStat.off ≠ r.off + 4) (v : W64) : Filed s (s.wr64 r v) :=
  (Filed.wr s h hp _).trans (Filed.wr (r := r.high) _ h' hp' _)

theorem Filed.satInc (s : State) {r : RegRef} (h : r.off ∈ faultOffs) (hp : Reg.pairStat.off ≠ r.off) (hi lo : Nat) :
    Filed s (s.satInc r hi lo) := by
  unfold State.satInc
  split
  · exact Filed.wr s h hp _
  · exact Filed.refl s

theorem Filed.toPort (s : State) (p : Nat) (f : Flit) : Filed s (s.toPort p f) := by
  unfold State.toPort
  split
  · exact Filed.inject ..
  · split
    · exact Filed.wr64 s (by decide) (by decide) (by decide) (by simp [Reg.pairStat, Reg.ringCntDrop]) _
    · exact Filed.inject ..

theorem Filed.sendCtl (s : State) (ws : List W64) : Filed s (s.sendCtl ws) := by
  unfold State.sendCtl
  split
  · exact Filed.refl s
  · exact ((Filed.setTx ..).trans (Filed.toPort ..)).trans (Filed.toPort ..)

theorem Filed.setHandoff (s : State) : Filed s (s.setBit Reg.pairStat 25 true) := by
  refine Filed.of_regs rfl (OnlyRegs.wr s (r := Reg.pairStat) (by decide) _) fun b hlt hb => ?_
  exact congrArg (fun n => decide (n = 1)) (s.fld_setFld_apart Reg.pairStat (Nat.le_refl 25) hlt (by omega) 1)

theorem Filed.fixHandoff (s : State) (r : FaultRec) (trail : Bool) : Filed s (s.fixHandoff r trail) := by
  have h : Filed s { s with pair := { s.pair with ident := some r, handoff := some (s.fullLap r.lap16 + 4, trail) } } :=
    ⟨rfl, fun _ _ => rfl, fun _ _ _ => rfl⟩
  exact (h.trans (Filed.setHandoff _)).trans
    (Filed.wr64 _ (by decide) (by decide) (by decide) (by simp [Reg.pairStat, Reg.pairHandoffLap]) _)

theorem Filed.identify (s : State) (r : FaultRec) : Filed s (s.identify r) := by
  unfold State.identify State.identifyBy
  split
  · split
    · exact Filed.fixHandoff ..
    · split
      · exact Filed.refl s
      · dsimp only
        split
        · exact Filed.fixHandoff ..
        · split
          · exact Filed.fixHandoff ..
          · exact Filed.refl s
  · exact Filed.refl s

theorem Filed.queueRec (s : State) (r : FaultRec) : Filed s (s.queueRec r) := by
  have hq : ∀ q, Filed s { s with flt := { s.flt with queue := q } } := fun _ => ⟨rfl, fun _ _ => rfl, fun _ _ _ => rfl⟩
  have hovf : Reg.pairStat.off ≠ (Reg.fltOvf r.cls).off := by
    simp only [Reg.pairStat, Reg.fltOvf]
    omega
  unfold State.queueRec
  split
  · exact hq _
  · split
    · exact (hq _).trans (Filed.wr64 _ (by decide) (by decide) (by decide) (by simp [Reg.pairStat, Reg.fltCntCoal]) _)
    · split
      · exact hq _
      · exact (Filed.satInc s (fltOvf_mem_faultOffs r) hovf _ _).trans (Filed.wr _ (by decide) (by decide) _)

/-- The Fault Collector takes a record in. -/
theorem Filed.collect (s : State) (r : FaultRec) (src : RecSrc) : Filed s (s.collect r src) := by
  have hkeys : ∀ k, Filed s { s with flt := { s.flt with keys := k } } := fun _ => ⟨rfl, fun _ _ => rfl, fun _ _ _ => rfl⟩
  unfold State.collect
  refine Filed.trans ?_ (Filed.queueRec _ _)
  refine Filed.trans ?_ (Filed.identify _ _)
  obtain ⟨s1, h1, e1⟩ : ∃ s1 : State, Filed s s1 ∧
      s1 = if s.flt.keys.contains r.key then s else { s with flt := { s.flt with keys := s.flt.keys ++ [r.key] } } := by
    refine ⟨_, ?_, rfl⟩
    split
    · exact Filed.refl s
    · exact hkeys _
  simp only [← e1]
  have hfwd : Filed s (if src = .own && 2 ≤ r.sev && !s.flt.keys.contains r.key && s.ringSize ≠ 0 then
      (s1.sendCtl [r.w0, r.w1, r.w2, r.w3]).add64 Reg.fltCntFwd 1 else s1) := by
    split
    · exact h1.trans ((Filed.sendCtl ..).trans (Filed.wr64 _ (by decide) (by decide) (by decide) (by simp [Reg.pairStat, Reg.fltCntFwd]) _))
    · exact h1
  split
  · exact hfwd.trans (Filed.inject ..)
  · exact hfwd

theorem Filed.fault (s : State) (cls origin addr epoch task detail : Nat) :
    Filed s (s.fault cls origin addr epoch task detail) := Filed.collect s _ _

section
variable {s t : State} (h : Filed s t)
include h

theorem Filed.regs : OnlyRegs s t faultOffs := h.2.1
theorem Filed.sta : t.sta = s.sta := by rw [h.1]
theorem Filed.m : t.m = s.m := by rw [h.1]
theorem Filed.blk : t.blk = s.blk := by rw [h.1]
theorem Filed.host : t.host = s.host := by rw [h.1]
theorem Filed.engines : t.engines = s.engines := by rw [h.1]
theorem Filed.task (x : Nat) : t.task x = s.task x := by rw [State.task, h.sta]; rfl
theorem Filed.row (l : Nat) : t.row l = s.row l := by rw [State.row, h.sta]; rfl
theorem Filed.eng (e : Nat) : t.eng e = s.eng e := by rw [State.eng, h.engines]; rfl
theorem Filed.tlbi : t.tlbi = s.tlbi := by rw [h.1]

theorem Filed.lap : t.lap = s.lap := by
  have htb : t.tb = s.tb := by rw [h.1]
  exact State.lap_congr htb (h.regs _ (by decide))

theorem Filed.actMode : t.actMode = s.actMode := by
  have hm : t.mode = s.mode := by rw [h.1]
  have hd : t.drainMode = s.drainMode := by rw [h.1]
  exact State.actMode_congr hm hd (h.regs _ (by decide))

theorem Filed.runs : t.runs = s.runs := by
  have hm : t.mode = s.mode := by rw [h.1]
  exact State.runs_congr hm (h.regs _ (by decide))

theorem Filed.pos : t.pos = s.pos := State.pos_congr (h.regs _ (by decide))

/-- A record leaves mirrored operation in force or not. -/
theorem Filed.mirroredNow : t.mirroredNow = s.mirroredNow := by
  obtain ⟨-, -, hb⟩ := id h
  rw [State.mirroredNow, State.mirroredNow, h.actMode, hb 27 (by decide) (by decide), hb 26 (by decide) (by decide)]

end

end Sys2Proof.Machine

namespace Sys2Proof.Machine

/-! ### Saving a placement (R149, R306, R405) -/

/-- A placement of engine `e` has been saved, or an error of its save reported: besides memory, records and the links only the
engine's registers and digests and the kept errors of Tasks differ. -/
def SaveOnly (s t : State) (e : Nat) : Prop :=
  t = { s with
    regs := t.regs, ring := t.ring, pair := t.pair, flt := t.flt, engines := t.engines, m := t.m
    sta := { s.sta with tasks := t.sta.tasks } } ∧
  OnlyRegs s t faultOffs ∧ OnlyEng s t e ∧
  t.eng e = { s.eng e with arch := (t.eng e).arch, digest := (t.eng e).digest, tend := (t.eng e).tend } ∧
  ∀ x, t.task x = { s.task x with errq := (t.task x).errq }

theorem SaveOnly.refl (s : State) (e : Nat) : SaveOnly s s e := ⟨rfl, fun _ _ => rfl, fun _ _ => rfl, rfl, fun _ => rfl⟩

theorem SaveOnly.trans {s t u : State} {e : Nat} (h : SaveOnly s t e) (k : SaveOnly t u e) : SaveOnly s u e := by
  obtain ⟨h1, h2, h3, h4, h5⟩ := h
  obtain ⟨k1, k2, k3, k4, k5⟩ := k
  refine ⟨by rw [k1, h1], h2.trans k2, h3.trans k3, ?_, fun x => ?_⟩
  · rw [k4, h4]
  · rw [k5 x, h5 x]

theorem SaveOnly.filed {s t : State} (h : Filed s t) (e : Nat) : SaveOnly s t e := by
  refine ⟨?_, h.regs, OnlyEng.of_engines h.engines e, ?_, fun x => ?_⟩
  · rw [h.1]
  · rw [h.eng]
  · rw [h.task]

theorem SaveOnly.updEng (s : State) (e : Nat) (g : Engine → Engine)
    (hg : ∀ x, g x = { x with arch := (g x).arch, digest := (g x).digest, tend := (g x).tend }) : SaveOnly s (s.updEng e g) e := by
  refine ⟨rfl, fun _ _ => rfl, OnlyEng.updEng s e g, ?_, fun _ => rfl⟩
  rw [State.eng_updEng]
  exact hg _

theorem SaveOnly.mem (s : State) (e : Nat) (m : Memory) (r : Ring) : SaveOnly s { s with m := m, ring := r } e :=
  ⟨rfl, fun _ _ => rfl, fun _ _ => rfl, rfl, fun _ => rfl⟩

theorem SaveOnly.taskErr (s : State) (e tti : Nat) (x : ErrEntry) : SaveOnly s (s.taskErr tti x) e := by
  refine ⟨rfl, fun _ _ => rfl, fun _ _ => rfl, rfl, fun y => ?_⟩
  have h := s.task_updTask_if tti y (fun t => { t with errq := addErr t.errq x })
  change (s.taskErr tti x).task y = _ at h
  rw [h]
  split <;> rfl

theorem SaveOnly.errTo (s : State) (e epoch cls : Nat) (addr : W64) : SaveOnly s (s.errTo e epoch cls addr) e := by
  unfold State.errTo State.pushErr
  split
  · split
    · exact SaveOnly.refl s e
    · split
      · exact SaveOnly.updEng s e _ fun _ => rfl
      · exact SaveOnly.taskErr ..
  · split
    · exact SaveOnly.taskErr ..
    · exact SaveOnly.refl s e

theorem SaveOnly.poisonReport {s : State} {r : MemReq} {n e : Nat} (h : r.src = .engine n e) : SaveOnly s (s.poisonReport r) e := by
  have hf := SaveOnly.filed (Filed.fault s 0x03 (s.tierOrigin (s.tier r.off)) (s.dpaOf r.off) r.epoch 0 0) e
  unfold State.poisonReport
  rw [h]
  dsimp only
  split
  · exact hf.trans (SaveOnly.errTo ..)
  · exact hf

/-- Lines copied to a returning partner only wait at the pair port. -/
theorem State.copyOut_ring (s : State) (offs : List Nat) : ∃ r, s.copyOut offs = { s with ring := r } := by
  have hfold : ∀ (l : List Nat) (g : State → Nat → Flit) (s : State), ∃ r, l.foldl (fun s k => s.inject 2 (g s k)) s = { s with ring := r } := by
    intro l g
    induction l with
    | nil => exact fun s => ⟨_, rfl⟩
    | cons k t ih =>
      intro s
      obtain ⟨r, h⟩ := ih (s.inject 2 (g s k))
      exact ⟨r, h⟩
  unfold State.copyOut
  split
  · split
    · exact ⟨_, rfl⟩
    · exact hfold _ _ s
  · exact ⟨_, rfl⟩

theorem State.failed_dropReq (s : State) (r q : MemReq) :
    (s.dropReq r).failed ((s.dropReq r).tier q.off) = s.failed (s.tier q.off) := by
  have hm : s.sameMap (s.dropReq r) := ⟨rfl, rfl, rfl, rfl, rfl, fun _ _ => rfl⟩
  rw [State.tier_congr hm]
  rfl

theorem State.upsetWrite_clean (s : State) (r : MemReq) : s.upsetWrite r .clean = s := by
  unfold State.upsetWrite
  dsimp only
  exact ite_self s

theorem State.logWrites_engine (s : State) {r : MemReq} {n e : Nat} (h : r.src = .engine n e) : s.logWrites r = s := by
  unfold State.logWrites
  rw [h]

theorem State.swapLost_write (s : State) {r : MemReq} {c : List (Nat × Byte)} (h : r.op = .write c) : s.swapLost r = s := by
  unfold State.swapLost
  rw [h]
  cases r.src <;> rfl

/-- An engine's write: not performed where its channel has failed or it meets poison, else stored. -/
theorem State.performReq_write {s : State} {r : MemReq} {n e : Nat} {c : List (Nat × Byte)} (hsrc : r.src = .engine n e)
    (hop : r.op = .write c) : s.performReq r .clean =
      if s.failed (s.tier r.off) || ((s.dropReq r).m.apply r).2 then (s.dropReq r).poisonReport r
      else ({ s.dropReq r with m := ((s.dropReq r).m.apply r).1 } : State).copyOut r.offs := by
  unfold State.performReq
  rw [if_neg (by decide), State.failed_dropReq, State.upsetWrite_clean]
  dsimp only
  cases hf : s.failed (s.tier r.off) with
  | true => rw [if_pos rfl, Bool.true_or, if_pos rfl, State.swapLost_write _ hop]
  | false =>
    rw [if_neg (by decide), Bool.false_or]
    split
    · rw [State.swapLost_write _ hop]
    · rw [State.logWrites_engine _ hsrc, hsrc, hop]

theorem SaveOnly.performReq {s : State} {r : MemReq} {n e : Nat} {c : List (Nat × Byte)} (hsrc : r.src = .engine n e)
    (hop : r.op = .write c) : SaveOnly s (s.performReq r .clean) e := by
  have hdrop : SaveOnly s (s.dropReq r) e := SaveOnly.mem s e _ s.ring
  rw [State.performReq_write hsrc hop]
  split
  · exact hdrop.trans (SaveOnly.poisonReport hsrc)
  · obtain ⟨g, hg⟩ := State.copyOut_ring ({ s.dropReq r with m := ((s.dropReq r).m.apply r).1 } : State) r.offs
    rw [hg]
    exact hdrop.trans (SaveOnly.mem _ e _ g)

theorem SaveOnly.foldl {β : Type} {e : Nat} (l : List β) (f : State → β → State) (h : ∀ s b, SaveOnly s (f s b) e) (s : State) :
    SaveOnly s (l.foldl f s) e := by
  induction l generalizing s with
  | nil => exact SaveOnly.refl s e
  | cons b t ih => exact (h s b).trans (ih _)

theorem SaveOnly.putNow (s : State) (n e epoch dpa : Nat) (bs : List Byte) : SaveOnly s (s.putNow (.engine n e) epoch dpa bs) e :=
  SaveOnly.foldl _ _ (fun _ _ => SaveOnly.performReq rfl rfl) s

theorem SaveOnly.dropAnnulled (s : State) (e : Nat) : SaveOnly s (s.dropAnnulled e) e := by
  unfold State.dropAnnulled
  split
  · exact SaveOnly.refl s e
  · split
    · exact SaveOnly.refl s e
    · split
      · exact SaveOnly.updEng s e _ fun _ => rfl
      · exact SaveOnly.updEng s e _ fun _ => rfl

theorem SaveOnly.digestRec (s : State) (e kind dpa be data : Nat) : SaveOnly s (s.digestRec e kind dpa be data) e := by
  unfold State.digestRec
  exact SaveOnly.updEng s e _ fun _ => rfl

theorem SaveOnly.savePlacement (s : State) (e dpa : Nat) : SaveOnly s (s.savePlacement e dpa) e :=
  ((SaveOnly.dropAnnulled s e).trans (SaveOnly.putNow ..)).trans (SaveOnly.foldl _ _ (fun s _ => SaveOnly.digestRec s ..) _)

section
variable {s t : State} {e : Nat} (h : SaveOnly s t e)
include h

theorem SaveOnly.lap : t.lap = s.lap := by
  have htb : t.tb = s.tb := by rw [h.1]
  exact State.lap_congr htb (h.2.1 _ (by decide))

theorem SaveOnly.runs : t.runs = s.runs := by
  have hm : t.mode = s.mode := by rw [h.1]
  exact State.runs_congr hm (h.2.1 _ (by decide))

theorem SaveOnly.usable (j : Nat) : t.usable j = s.usable j := by
  have hb : t.blk = s.blk := by rw [h.1]
  exact State.usable_congr hb j

theorem SaveOnly.row (l : Nat) : t.row l = s.row l := by
  have hr : t.sta.rows = s.sta.rows := by rw [h.1]
  rw [State.row, hr]; rfl

theorem SaveOnly.place : (t.eng e).place = (s.eng e).place ∧ (t.eng e).hung = (s.eng e).hung := by
  rw [h.2.2.2.1]
  exact ⟨rfl, rfl⟩

end

end Sys2Proof.Machine

namespace Sys2Proof.Machine

/-! ### The Lap boundary (R37, R57 to R61) -/

theorem State.lastLap_openLap (s : State) : s.openLap.lastLap = s.openLap.lap := by
  have h : ∃ u : State, s.openLap = { u with lastLap := u.lap } := ⟨_, rfl⟩
  obtain ⟨u, hu⟩ := h
  rw [hu]; rfl

theorem lapBoundaryExec (s : State) (hw : s.windowUp = true) (hl : s.lapTicks ≠ 0) : ∃ t, exec .lapBoundary s = .next t ∧ t.lastLap = t.lap ∧
    t = (if s.lastLap < s.lap then s else s.closeLap.advanceTime (s.lapTicks - s.tb % s.lapTicks)).openLap := by
  refine ⟨_, rfl, ?_⟩
  have h : s.lapBoundary = (if s.lastLap < s.lap then s else s.closeLap.advanceTime (s.lapTicks - s.tb % s.lapTicks)).openLap := by
    rw [State.lapBoundary, hw]
    simp only [Bool.not_true, Bool.false_or, decide_eq_true_eq, if_neg hl]
    split <;> rfl
  exact ⟨by rw [h, State.lastLap_openLap], h⟩

/-- A Task that the boundary looks at: not free, settled or waiting, and no fault has stopped it. -/
def State.atBoundary (s : State) (tti : Nat) : Prop :=
  (s.task tti).st ≠ .free ∧ (s.task tti).st ≠ .settled ∧ (s.task tti).st ≠ .queued ∧ s.flt.rerun.any (fun p => p.1 = tti) = false

/-- What the boundary makes of such a Task, by the first rule that holds of it. -/
theorem State.taskBoundary_eq {s : State} {tti : Nat} (h : s.atBoundary tti) : s.taskBoundary tti =
    if (s.task tti).ovr ≠ 0 then
      (if (s.task tti).cls ≠ 2 && !(s.task tti).ended && s.lapsBooked tti = 0 then s.setOvr tti 0 else s).settle tti .overrun 0 0
    else if (s.task tti).ended then s
    else if (s.task tti).cls = 2 then
      if !s.heldBy tti then s
      else if (s.task tti).cv.cyc * ((s.task tti).cv.span + 1) < (s.task tti).cyc then s.settle tti .overrun 0 0
      else if (s.task tti).cancelReq then s.settle tti .cancelled 0 0
      else s.requeue tti
    else if (s.task tti).st = .running ∧ !s.heldBy tti then s
    else if s.lapsBooked tti = 0 then (s.setOvr tti 0).settle tti .overrun 0 0
    else if (s.task tti).cancelReq then s.settle tti .cancelled 0 0
    else s.updTask tti (fun x => { x with lapsLeft := s.lapsBooked tti }) := by
  obtain ⟨h1, h2, h3, h4⟩ := h
  rw [State.taskBoundary, if_neg]
  simp only [h1, h2, h3, h4, decide_false, Bool.or_self, Bool.false_eq_true, not_false_eq_true]

theorem State.alive_of_atBoundary {s : State} {tti : Nat} (h : s.atBoundary tti) : (s.task tti).alive := ⟨h.1, h.2.1⟩

theorem State.alive_setOvr {s : State} {tti : Nat} (h : (s.task tti).alive) (b : Nat) : ((s.setOvr tti b).task tti).alive := by
  rw [State.setOvr_eq, State.task_updTask]
  exact h

theorem State.task_requeue (s : State) (tti : Nat) : ((s.requeue tti).task tti).st = .queued := by
  rw [State.requeue, State.task_updTask]

/-- A Task that has exceeded a budget is settled as Overrun; one with no Lap left has exceeded its cycles too. -/
theorem State.taskBoundary_over {s : State} {tti : Nat} (h : s.atBoundary tti) (ho : (s.task tti).ovr ≠ 0) :
    ((s.taskBoundary tti).task tti).st = .settled ∧ ((s.taskBoundary tti).task tti).outcome = .overrun ∧
      ((s.taskBoundary tti).task tti).ovr = (if (s.task tti).cls ≠ 2 ∧ (s.task tti).ended = false ∧ s.lapsBooked tti = 0 then
        (s.task tti).ovr ||| 1 else (s.task tti).ovr) := by
  have ha := State.alive_of_atBoundary h
  rw [State.taskBoundary_eq h, if_pos ho]
  by_cases hc : (s.task tti).cls ≠ 2 ∧ (s.task tti).ended = false ∧ s.lapsBooked tti = 0
  · have hor : (s.task tti).ovr ||| 1 ≠ 0 := by
      intro h0
      exact absurd (congrArg (fun v : BitVec 6 => v.getLsbD 0) h0) (by simp)
    rw [if_pos hc, if_pos (by simpa [and_assoc] using hc), State.task_settle (State.alive_setOvr ha 0), State.setOvr_eq,
      State.task_updTask]
    refine ⟨rfl, rfl, ?_⟩
    simp [Task.settledAs,]
  · rw [if_neg hc, if_neg (by simpa [and_assoc] using hc), State.task_settle ha]
    refine ⟨rfl, rfl, ?_⟩
    simpa [Task.settledAs] using fun h0 => absurd h0 ho

/-- A held Open Task within its budgets: Overrun by its cycles, else cancelled where that was asked for, else back in the queue. -/
theorem State.taskBoundary_open {s : State} {tti : Nat} (h : s.atBoundary tti) (ho : (s.task tti).ovr = 0)
    (he : (s.task tti).ended = false) (hc : (s.task tti).cls = 2) (hh : s.heldBy tti = true) :
    ((s.taskBoundary tti).task tti).st = (if (s.task tti).cv.cyc * ((s.task tti).cv.span + 1) < (s.task tti).cyc ∨
        (s.task tti).cancelReq = true then .settled else .queued) ∧
      ((s.task tti).cv.cyc * ((s.task tti).cv.span + 1) < (s.task tti).cyc → ((s.taskBoundary tti).task tti).outcome = .overrun) ∧
      ((s.task tti).cyc ≤ (s.task tti).cv.cyc * ((s.task tti).cv.span + 1) → (s.task tti).cancelReq = true →
        ((s.taskBoundary tti).task tti).outcome = .cancelled) := by
  have ha := State.alive_of_atBoundary h
  rw [State.taskBoundary_eq h, if_neg (not_not.2 ho), he, if_neg (by decide), if_pos hc, hh, if_neg (by decide)]
  by_cases hcyc : (s.task tti).cv.cyc * ((s.task tti).cv.span + 1) < (s.task tti).cyc
  · rw [if_pos hcyc, if_pos (Or.inl hcyc), State.task_settle ha]
    exact ⟨rfl, fun _ => rfl, fun hle => absurd hcyc (Nat.not_lt.2 hle)⟩
  · rw [if_neg hcyc]
    by_cases hq : (s.task tti).cancelReq = true
    · rw [if_pos hq, if_pos (Or.inr hq), State.task_settle ha]
      exact ⟨rfl, fun hlt => absurd hlt hcyc, fun _ _ => rfl⟩
    · rw [if_neg hq, if_neg (not_or.2 ⟨hcyc, hq⟩), State.task_requeue]
      exact ⟨rfl, fun hlt => absurd hlt hcyc, fun _ hc => absurd hc hq⟩

/-- A booked Task within its budgets: Overrun with no Lap left, else cancelled where that was asked for, else it goes on. -/
theorem State.taskBoundary_booked {s : State} {tti : Nat} (h : s.atBoundary tti) (ho : (s.task tti).ovr = 0)
    (he : (s.task tti).ended = false) (hc : (s.task tti).cls ≠ 2) (hh : (s.task tti).st = .running → s.heldBy tti = true) :
    (s.lapsBooked tti = 0 → ((s.taskBoundary tti).task tti).outcome = .overrun) ∧
      (s.lapsBooked tti ≠ 0 → (s.task tti).cancelReq = true → ((s.taskBoundary tti).task tti).outcome = .cancelled) ∧
      (s.lapsBooked tti ≠ 0 → (s.task tti).cancelReq = false →
        s.taskBoundary tti = s.updTask tti (fun x => { x with lapsLeft := s.lapsBooked tti })) := by
  have ha := State.alive_of_atBoundary h
  have hheld : ¬ ((s.task tti).st = .running ∧ (!s.heldBy tti) = true) := fun hn => by
    rw [hh hn.1] at hn
    exact absurd hn.2 (by decide)
  rw [State.taskBoundary_eq h, if_neg (not_not.2 ho), he, if_neg (by decide), if_neg hc, if_neg hheld]
  refine ⟨fun hl => ?_, fun hl hq => ?_, fun hl hq => ?_⟩
  · rw [if_pos hl, State.task_settle (State.alive_setOvr ha 0)]; rfl
  · rw [if_neg hl, if_pos hq, State.task_settle ha]; rfl
  · rw [if_neg hl, hq, if_neg (by decide)]

theorem lapBoundary_complete : Claims.LapBoundaryComplete := by
  refine ⟨lapBoundaryExec, fun s tti h1 h2 h3 h4 => ?_⟩
  have h : s.atBoundary tti := ⟨h1, h2, h3, h4⟩
  refine ⟨State.taskBoundary_over h, fun ho he => ?_, State.taskBoundary_open h, State.taskBoundary_booked h⟩
  rw [State.taskBoundary_eq h, if_neg (not_not.2 ho), if_pos he]

/-! ### Open work and exhausted counters (R57, R60) -/

theorem State.nextBooked_startable {s : State} {e q : Nat} (h : s.nextBooked e = some q) : (s.task q).startable = true := by
  rw [State.nextBooked_eq, Option.map_eq_some_iff] at h
  obtain ⟨b, hb, rfl⟩ := h
  have hp := List.find?_some hb
  simp only [Bool.and_eq_true] at hp
  exact hp.2

/-- What is booked next stays so where its Task can still start and no other one has come to. -/
theorem State.nextBooked_some_congr {s t : State} {e q : Nat} (h : s.nextBooked e = some q) (hrow : t.row t.lap = s.row s.lap)
    (hq : (t.task q).startable = true) (htask : ∀ x, (t.task x).startable = true → (s.task x).startable = true) :
    t.nextBooked e = some q := by
  rw [State.nextBooked_eq, Option.map_eq_some_iff] at h ⊢
  obtain ⟨b, hb, rfl⟩ := h
  refine ⟨b, ?_, rfl⟩
  rw [List.find?_eq_some_iff_append] at hb ⊢
  obtain ⟨hp, l, r, hl, hn⟩ := hb
  refine ⟨?_, l, r, by rw [hrow]; exact hl, fun a ha => ?_⟩
  · simp only [Bool.and_eq_true] at hp ⊢
    exact ⟨hp.1, hq⟩
  · have := hn a ha
    by_contra hc
    simp only [Bool.not_eq_true', Bool.not_eq_false, Bool.and_eq_true] at this hc
    rw [hc.1.1, hc.1.2, htask _ hc.2] at this
    exact absurd this (by decide)

/-- Going on to the next booked placement leaves a Task alone that cannot start. -/
theorem State.task_advanceEngine {s : State} {x : Nat} (e : Nat) (h : (s.task x).startable = false) :
    (s.advanceEngine e).task x = s.task x := by
  unfold State.advanceEngine
  split
  · split
    · rename_i q hq
      have hne : x ≠ q := fun hx => by
        rw [hx, State.nextBooked_startable hq] at h
        exact absurd h (by decide)
      exact s.task_takePlacement_ne e hne false
    · rfl
  · rfl

theorem Task.startable_over {t : Task} (h : t.ovr ≠ 0) : t.startable = false := by
  simpa [Task.startable] using fun _ => h

theorem openTask_complete (s : State) (e tti : Nat) (hr : s.canRun e = true) (hp : (s.eng e).place = none) (hb : s.nextBooked e = none)
    (ho : s.nextOpen e = some tti) :
    ∃ t, exec (.openTask e) s = .next t ∧ t.m = s.m ∧ OnlyEng s t e ∧ (t.task tti).st = .running ∧ (t.task tti).engine = e ∧
      (t.task tti).lapsLeft = (s.task tti).lapsLeft ∧ tti ∉ t.sta.openq ∧ t.sta.rows = s.sta.rows ∧
      (t.eng e).place = some { tti := tti, lap := s.lap, isOpen := true, epoch := (s.task tti).epoch,
                               budget := (s.task tti).cv.budget, cyc := 0, restored := false, save := (s.task tti).saveDpa } := by
  have hexec : exec (.openTask e) s = .next ((s.sweepTlb e).takePlacement e tti true) := by
    change execOpenTask e s = _
    rw [execOpenTask, if_pos ⟨hr, hp, hb⟩, ho]
  obtain ⟨hrows, hq⟩ := (s.sweepTlb e).sta_takePlacement_open e tti
  have htask := (s.sweepTlb e).task_takePlacement e tti true
  refine ⟨_, hexec, (s.sweepTlb e).m_takePlacement e tti true,
    (s.onlyEng_sweepTlb e).trans ((s.sweepTlb e).onlyEng_takePlacement e tti true), ?_, ?_, ?_, ?_, hrows, ?_⟩
  · rw [htask]
  · rw [htask]
  · rw [htask]; rfl
  · rw [hq]; simp
  · rw [State.eng_takePlacement]; rfl

/-- The Task of a placement that has used its cycles, with its excess noted. -/
theorem State.task_setOvr (s : State) (tti : Nat) : (s.setOvr tti 0).task tti = { s.task tti with ovr := (s.task tti).ovr ||| 1 } := by
  rw [State.setOvr_eq, State.task_updTask]; rfl

theorem Task.over_ne_zero (o : BitVec 6) : o ||| 1 ≠ 0 := fun h0 =>
  absurd (congrArg (fun v : BitVec 6 => v.getLsbD 0) h0) (by simp)

theorem State.startable_setOvr {s : State} {tti x : Nat} (h : ((s.setOvr tti 0).task x).startable = true) :
    x ≠ tti ∧ (s.task x).startable = true := by
  have hne : x ≠ tti := fun hx => by
    rw [hx, State.task_setOvr, Task.startable_over (Task.over_ne_zero _)] at h
    exact absurd h (by decide)
  rw [State.setOvr_eq, State.task_updTask_ne _ _ hne] at h
  exact ⟨hne, h⟩

theorem execExhausted {s : State} {e : Nat} {p : Placement} (he : e < 512) (hp : (s.eng e).place = some p) (hr : p.restored = true)
    (ho : p.isOpen = false) (hc : p.budget.cyc ≤ p.cyc) : exec (.engineCycleCounterExhausted e) s =
      if ((s.setOvr p.tti 0).nextBooked e).isSome then .next ((s.setOvr p.tti 0).stopUnder57 e) else .next (s.setOvr p.tti 0) := by
  change execEngineCycleCounterExhausted e s = _
  rw [execEngineCycleCounterExhausted, hp]
  dsimp only
  rw [if_pos ⟨he, hr, by rw [ho]; rfl, hc⟩]

/-- Stopping issue without a long vector in flight: the engine keeps its placement, and Tasks, rows and registers stay. -/
theorem State.stopIssue_frame {s : State} {e : Nat} (hv : (s.eng e).vecBusy = false) :
    s.stopIssue e = { s with
      engines := (s.stopIssue e).engines, ring := (s.stopIssue e).ring, m := (s.stopIssue e).m } ∧
    ((s.stopIssue e).eng e).place = (s.eng e).place ∧ ((s.stopIssue e).eng e).hung = (s.eng e).hung := by
  have hundo : ∀ x : Engine, x.undoEntry.place = x.place ∧ x.undoEntry.hung = x.hung := by
    intro x
    unfold Engine.undoEntry
    split
    · split <;> exact ⟨rfl, rfl⟩
    · exact ⟨rfl, rfl⟩
  unfold State.stopIssue
  rw [hv, if_neg (by decide)]
  refine ⟨?_, ?_⟩
  · obtain ⟨x, y, z, hd⟩ : ∃ x y z, s.dropReads e = { s with engines := x, ring := y, m := z } := ⟨_, _, _, rfl⟩
    dsimp only
    rw [hd]
    rfl
  dsimp only
  rw [State.eng_updEng, State.eng_updEng, State.eng_dropReads]
  exact hundo _

/-- What decides which placement begins next on an engine, but for the Tasks: the Lap, its rows, and whether the engine runs. -/
def State.sameSlot (s t : State) (e : Nat) : Prop :=
  t.lap = s.lap ∧ (∀ l, t.row l = s.row l) ∧ t.usable e = s.usable e ∧ t.runs = s.runs ∧ (t.eng e).hung = (s.eng e).hung

theorem State.sameSlot.trans {s t u : State} {e : Nat} (h : s.sameSlot t e) (k : t.sameSlot u e) : s.sameSlot u e := by
  obtain ⟨h1, h2, h3, h4, h5⟩ := h
  obtain ⟨k1, k2, k3, k4, k5⟩ := k
  exact ⟨k1.trans h1, fun l => (k2 l).trans (h2 l), k3.trans h3, k4.trans h4, k5.trans h5⟩

theorem SaveOnly.sameSlot {s t : State} {e : Nat} (h : SaveOnly s t e) : s.sameSlot t e :=
  ⟨h.lap, h.row, h.usable e, h.runs, h.place.2⟩

theorem State.sameSlot_tasks (s : State) (e : Nat) (x : SMap Task) : s.sameSlot { s with sta := { s.sta with tasks := x } } e :=
  ⟨rfl, fun _ => rfl, rfl, rfl, rfl⟩

theorem State.sameSlot_units {s t : State} {e : Nat} (h : t = { s with engines := t.engines, ring := t.ring, m := t.m })
    (hh : (t.eng e).hung = (s.eng e).hung) : s.sameSlot t e := by
  refine ⟨?_, fun l => ?_, ?_, ?_, hh⟩ <;>
    (obtain ⟨x, y, z, rfl⟩ : ∃ x y z, t = { s with engines := x, ring := y, m := z } := ⟨_, _, _, h⟩; rfl)

theorem State.sameSlot_chargeCyc (s : State) (e : Nat) : s.sameSlot (s.chargeCyc e) e := by
  rw [(s.chargeCyc_eq e).1]
  exact s.sameSlot_tasks e _

theorem State.sameSlot_clearPlace (s : State) (e : Nat) : s.sameSlot (s.clearPlace e) e := by
  obtain ⟨hf, -, he⟩ := s.clearPlace_frame e
  refine State.sameSlot_units ?_ (by rw [he]; rfl)
  rw [hf]

/-- A booked placement begins on an engine that runs. -/
theorem State.place_advanceEngine {s : State} {e q : Nat} (hr : (e < 512 && s.usable e && !(s.eng e).hung && s.runs) = true)
    (hq : s.nextBooked e = some q) : ((s.advanceEngine e).eng e).place = some (s.freshPlace q false) := by
  rw [State.advanceEngine, if_pos hr, hq, State.eng_takePlacement]

/-- A placement that R57 stops is saved and its Task, with a Lap left, parked; the placement booked next begins. -/
theorem State.stopUnder57_spec {s : State} {e : Nat} {p : Placement} (hp : (s.eng e).place = some p) (hr : p.restored = true)
    (hv : (s.eng e).vecBusy = false) (hl : (s.task p.tti).lapsLeft ≠ 0) (ho : (s.task p.tti).ovr ≠ 0) :
    ((s.stopUnder57 e).task p.tti).st = .parked ∧ ((s.stopUnder57 e).task p.tti).ovr = (s.task p.tti).ovr ∧
      ((s.stopUnder57 e).task p.tti).started = true ∧
      ∀ q, s.nextBooked e = some q → q ≠ p.tti → (e < 512 && s.usable e && !(s.eng e).hung && s.runs) = true →
        ((s.stopUnder57 e).eng e).place.map (fun x => x.tti) = some q := by
  obtain ⟨s0, h0⟩ : ∃ s0 : State, s0 = s.stopIssue e := ⟨_, rfl⟩
  obtain ⟨s1, h1⟩ : ∃ s1 : State, s1 = s0.savePlacement e p.save := ⟨_, rfl⟩
  obtain ⟨s2, h2⟩ : ∃ s2 : State, s2 = s1.updTask p.tti (fun t => { t.keep (s0.eng e) with started := true }) := ⟨_, rfl⟩
  obtain ⟨s3, h3⟩ : ∃ s3 : State, s3 = (s2.chargeCyc e).clearPlace e := ⟨_, rfl⟩
  obtain ⟨s4, h4⟩ : ∃ s4 : State, s4 = s3.updTask p.tti (fun t => { t with st := if t.lapsLeft = 0 then t.st else .parked }) := ⟨_, rfl⟩
  have heq : s.stopUnder57 e = s4.advanceEngine e := by
    rw [State.stopUnder57, hp, h4, h3, h2, h1, h0]
    dsimp only
    rw [hr, if_pos rfl]
  obtain ⟨hf0, -, hhung0⟩ := State.stopIssue_frame hv
  rw [← h0] at hf0 hhung0
  have hsave : SaveOnly s0 s1 e := h1 ▸ SaveOnly.savePlacement s0 e p.save
  have hslot : s.sameSlot s4 e := by
    have k2 : s1.sameSlot s2 e := h2 ▸ s1.sameSlot_tasks e _
    have k3 : s2.sameSlot s3 e := h3 ▸ (s2.sameSlot_chargeCyc e).trans (State.sameSlot_clearPlace _ e)
    have k4 : s3.sameSlot s4 e := h4 ▸ s3.sameSlot_tasks e _
    exact (((State.sameSlot_units hf0 hhung0).trans hsave.sameSlot).trans k2).trans (k3.trans k4)
  have ht1 : ∀ x, s1.task x = { s.task x with errq := (s1.task x).errq } := fun x => by
    have hsta : s0.sta = s.sta := by rw [hf0]
    have hx : s0.task x = s.task x := by rw [State.task, hsta]; rfl
    rw [← hx]
    exact hsave.2.2.2.2 x
  have ht3 : ∀ x, s3.task x = { s2.task x with cyc := (s3.task x).cyc } := fun x => by
    rw [h3, State.task_clearPlace]
    exact (s2.chargeCyc_eq e).2 x
  have ht : s4.task p.tti = { s.task p.tti with
      st := .parked, started := true, errq := (s4.task p.tti).errq, cyc := (s4.task p.tti).cyc
      errFrame := (s4.task p.tti).errFrame, tsync := (s4.task p.tti).tsync } := by
    have h4t : s4.task p.tti = { s3.task p.tti with st := if (s3.task p.tti).lapsLeft = 0 then (s3.task p.tti).st else .parked } := by
      rw [h4, State.task_updTask]
    have h2t : s2.task p.tti = { (s1.task p.tti).keep (s0.eng e) with started := true } := by
      rw [h2, State.task_updTask]
    have hl3 : (s3.task p.tti).lapsLeft ≠ 0 := by rw [ht3, h2t, ht1]; exact hl
    rw [h4t, if_neg hl3, ht3, h2t, ht1]
    rfl
  have hne : ∀ x, x ≠ p.tti → (s4.task x).startable = (s.task x).startable := fun x hx => by
    rw [h4, State.task_updTask_ne _ _ hx, ht3, h2, State.task_updTask_ne _ _ hx, ht1]
    rfl
  have hself : (s4.task p.tti).startable = false := Task.startable_over (by rw [ht]; exact ho)
  rw [heq]
  refine ⟨?_, ?_, ?_, fun q hq hqp hrun => ?_⟩
  · rw [State.task_advanceEngine e hself, ht]
  · rw [State.task_advanceEngine e hself, ht]
  · rw [State.task_advanceEngine e hself, ht]
  · obtain ⟨hlap, hrow, hus, hruns, hhung⟩ := hslot
    have hq4 : s4.nextBooked e = some q := by
      refine State.nextBooked_some_congr hq (by rw [hlap, hrow]) ?_ fun x hx => ?_
      · rw [hne q hqp]; exact State.nextBooked_startable hq
      · by_cases hxp : x = p.tti
        · rw [hxp, hself] at hx; exact absurd hx (by decide)
        · rwa [← hne x hxp]
    rw [State.place_advanceEngine (by rw [hus, hhung, hruns]; exact hrun) hq4]
    rfl

theorem exhausted_complete (s : State) (e : Nat) (p : Placement) (he : e < 512) (hp : (s.eng e).place = some p) (hr : p.restored = true)
    (ho : p.isOpen = false) (hc : p.budget.cyc ≤ p.cyc) :
    (s.nextBooked e = none →
      exec (.engineCycleCounterExhausted e) s = .next (s.updTask p.tti (fun t => { t with ovr := t.ovr ||| 1 }))) ∧
    (∀ q, s.nextBooked e = some q → q ≠ p.tti → (s.eng e).vecBusy = false → (s.task p.tti).lapsLeft ≠ 0 →
      ∃ t, exec (.engineCycleCounterExhausted e) s = .next t ∧ (t.task p.tti).st = .parked ∧
        (t.task p.tti).ovr = (s.task p.tti).ovr ||| 1 ∧ (t.task p.tti).started = true ∧
        (s.canRun e = true → (t.eng e).place.map (fun x => x.tti) = some q)) := by
  have hexec := execExhausted he hp hr ho hc
  have hmono : ∀ x, ((s.setOvr p.tti 0).task x).startable = true → (s.task x).startable = true :=
    fun x hx => (State.startable_setOvr hx).2
  have hself := s.task_setOvr p.tti
  refine ⟨fun hn => ?_, fun q hq hqp hv hl => ?_⟩
  · have hn' : (s.setOvr p.tti 0).nextBooked e = none := State.nextBooked_none_mono hn (fun _ hb => hb) hmono
    rw [hexec, hn']
    rfl
  · have hq' : (s.setOvr p.tti 0).nextBooked e = some q := by
      refine State.nextBooked_some_congr hq rfl ?_ hmono
      rw [State.setOvr_eq, State.task_updTask_ne _ _ hqp]
      exact State.nextBooked_startable hq
    have hp' : ((s.setOvr p.tti 0).eng e).place = some p := hp
    have hv' : ((s.setOvr p.tti 0).eng e).vecBusy = false := hv
    obtain ⟨h1, h2, h3, h4⟩ := State.stopUnder57_spec hp' hr hv' (by rw [hself]; exact hl)
      (by rw [hself]; exact Task.over_ne_zero _)
    rw [hq', Option.isSome_some, if_pos rfl] at hexec
    refine ⟨_, hexec, h1, ?_, h3, fun hcan => h4 q hq' hqp ?_⟩
    · rw [h2, hself]
    · simp only [State.canRun, Bool.and_eq_true] at hcan
      obtain ⟨⟨⟨⟨⟨h5, h6⟩, h7⟩, -⟩, h8⟩, -⟩ := hcan
      simp only [Bool.and_eq_true]
      exact ⟨⟨⟨h5, h6⟩, h7⟩, h8⟩

/-- Settles O39: the boundary by the rules of a Task's Lap end, Open work and exhausted counters by what dispatch leaves. -/
theorem boundariesAndOpenWork : Obligations.BoundariesAndOpenWork :=
  ⟨lapBoundary_complete, openTask_complete, exhausted_complete⟩

end Sys2Proof.Machine

namespace Sys2Proof.Machine

/-! ### A save that meets no error (R149, R300, R306) -/

theorem splitCells_flatten (u : Nat) (cs : List (Nat × Byte)) : (splitCells u cs).flatten = cs ∧ ∀ c ∈ splitCells u cs, c ≠ [] := by
  induction cs with
  | nil => exact ⟨rfl, by simp [splitCells]⟩
  | cons c t ih =>
    obtain ⟨ih1, ih2⟩ := ih
    unfold splitCells
    split
    · rename_i d r rest h
      rw [h] at ih1 ih2
      have hrest : ∀ x ∈ rest, x ≠ [] := fun x hx => ih2 x (List.mem_cons_of_mem _ hx)
      split
      · refine ⟨by rw [← ih1]; rfl, ?_⟩
        simpa using hrest
      · refine ⟨by rw [← ih1]; rfl, ?_⟩
        simpa using hrest
    · refine ⟨by rw [List.flatten_cons, ih1]; rfl, ?_⟩
      simpa using ih2

theorem putCells_append (m : SMap Byte) (a b : List (Nat × Byte)) : putCells m (a ++ b) = putCells (putCells m a) b :=
  List.foldl_append

/-- A write on a memory all of whose words are good leaves them so, and is performed. -/
theorem Memory.apply_write_good {m : Memory} (h : m.health = []) {r : MemReq} {c : List (Nat × Byte)} (hop : r.op = .write c) :
    (m.apply r).2 = false ∧ (m.apply r).1.mem = putCells m.mem c ∧ (m.apply r).1.health = [] ∧
      (m.apply r).1.expFailed = m.expFailed := by
  have hfold : ∀ ws : List (Nat × Bool), ws.foldl (fun hm w =>
      if w.2 || SMap.get Health.good hm w.1 = .corrected then SMap.set .good hm w.1 .good else hm) ([] : SMap Health) = [] := by
    intro ws
    induction ws with
    | nil => rfl
    | cons w t ih =>
      rw [List.foldl_cons]
      have hw : (if w.2 || SMap.get Health.good ([] : SMap Health) w.1 = .corrected then SMap.set .good ([] : SMap Health) w.1 .good
          else []) = [] := by
        split <;> rfl
      rw [hw, ih]
  have hgood : ∀ ws : List (Nat × Bool), ws.any (fun w => !w.2 && SMap.get Health.good m.health w.1 = .poisoned) = false := by
    intro ws
    rw [h, List.any_eq_false]
    intro w _
    simp [SMap.get]
  unfold Memory.apply
  rw [hop]
  dsimp only
  rw [if_neg (by rw [hgood]; decide)]
  refine ⟨rfl, rfl, ?_, rfl⟩
  dsimp only
  rw [h, hfold]

/-- The state with cells stored: besides them only the queue of requests, marks of the memory and the links differ. -/
def Stored (s t : State) (c : List (Nat × Byte)) : Prop :=
  t = { s with m := t.m, ring := t.ring } ∧ t.m.mem = putCells s.m.mem c ∧ t.m.health = [] ∧ t.m.expFailed = s.m.expFailed

theorem Stored.trans {s t u : State} {c d : List (Nat × Byte)} (h : Stored s t c) (k : Stored t u d) : Stored s u (c ++ d) := by
  obtain ⟨h1, h2, -, h4⟩ := h
  obtain ⟨k1, k2, k3, k4⟩ := k
  exact ⟨by rw [k1, h1], by rw [k2, h2, putCells_append], k3, k4.trans h4⟩

/-- Where no channel fails and no word is bad, storing does not change which channels fail. -/
theorem Stored.failed {s t : State} {c : List (Nat × Byte)} (h : Stored s t c) (off : Nat) :
    t.failed (t.tier off) = s.failed (s.tier off) := by
  obtain ⟨h1, -, -, h4⟩ := h
  have hm : s.sameMap t := by
    rw [h1]
    exact ⟨rfl, rfl, rfl, rfl, rfl, fun _ _ => rfl⟩
  have hr : t.regs = s.regs := by rw [h1]
  rw [State.tier_congr hm]
  unfold State.failed State.bit State.fld State.rd
  rw [hr, h4]

theorem Stored.performReq {s : State} {r : MemReq} {n e : Nat} {c : List (Nat × Byte)} (hh : s.m.health = [])
    (hsrc : r.src = .engine n e) (hop : r.op = .write c) (hf : s.failed (s.tier r.off) = false) :
    Stored s (s.performReq r .clean) c := by
  obtain ⟨h1, h2, h3, h4⟩ := Memory.apply_write_good (m := (s.dropReq r).m) hh hop
  rw [State.performReq_write hsrc hop, hf, h1, if_neg (by decide)]
  obtain ⟨g, hg⟩ := State.copyOut_ring ({ s.dropReq r with m := ((s.dropReq r).m.apply r).1 } : State) r.offs
  rw [hg]
  exact ⟨rfl, h2, h3, h4⟩

/-- Bytes of an engine's save all of whose places work are stored as they are. -/
theorem Stored.putNow {s : State} {n e epoch dpa : Nat} {bs : List Byte} (hh : s.m.health = [])
    (hf : ∀ i, i < bs.length → s.failed (s.tier (dpa % 2 ^ 46 + i)) = false) :
    Stored s (s.putNow (.engine n e) epoch dpa bs) (cellsAt (dpa % 2 ^ 46) bs) := by
  have hfold : ∀ (l : List (List (Nat × Byte))) (u : State), u.m.health = [] →
      (∀ c ∈ l, u.failed (u.tier ((c.map (fun x => x.1)).headD 0)) = false) →
      Stored u (l.foldl (fun s c => s.performReq
        ((Src.engine n e).req epoch ((c.map (fun x => x.1)).headD 0) (.write c) (BitVec.ofNat 64 dpa) true s.lap) .clean) u) l.flatten := by
    intro l
    induction l with
    | nil => exact fun u hu _ => ⟨rfl, rfl, hu, rfl⟩
    | cons c t ih =>
      intro u hu hc
      have h1 := Stored.performReq (s := u) (r := (Src.engine n e).req epoch ((c.map (fun x => x.1)).headD 0) 
        (.write c) (BitVec.ofNat 64 dpa) true u.lap) hu rfl rfl
        (by exact hc c List.mem_cons_self)
      refine h1.trans (ih _ h1.2.2.1 fun d hd => ?_)
      rw [h1.failed]
      exact hc d (List.mem_cons_of_mem _ hd)
  obtain ⟨hfl, hne⟩ := splitCells_flatten (unitBytes (s.tier (dpa % 2 ^ 46))) (cellsAt (dpa % 2 ^ 46) bs)
  have h := hfold (splitCells (unitBytes (s.tier (dpa % 2 ^ 46))) (cellsAt (dpa % 2 ^ 46) bs)) s hh fun c hc => by
    obtain ⟨x, t, rfl⟩ := List.exists_cons_of_ne_nil (hne c hc)
    have hx : x ∈ cellsAt (dpa % 2 ^ 46) bs := by
      rw [← hfl]
      exact List.mem_flatten.2 ⟨_, hc, List.mem_cons_self⟩
    obtain ⟨hlo, hhi⟩ := cellsAt_range hx
    have hx' := hf (x.1 - dpa % 2 ^ 46) (by omega)
    rwa [Nat.add_sub_cancel' hlo] at hx'
  rw [hfl] at h
  exact h

theorem length_flatMap_const {α β : Type} (l : List α) (f : α → List β) {k : Nat} (h : ∀ x ∈ l, (f x).length = k) :
    (l.flatMap f).length = k * l.length := by
  induction l with
  | nil => rfl
  | cons a t ih =>
    rw [List.flatMap_cons, List.length_append, h a List.mem_cons_self, ih fun x hx => h x (List.mem_cons_of_mem _ hx),
      List.length_cons, Nat.mul_succ, Nat.add_comm]

theorem length_leBytes (n x : Nat) : (leBytes n x).length = n := by
  induction n generalizing x with
  | zero => rfl
  | succ n ih => rw [leBytes, List.length_cons, ih]

theorem length_wordBytes (ws : List W64) : (wordBytes ws).length = 8 * ws.length :=
  length_flatMap_const ws _ fun _ _ => length_leBytes _ _

/-- The image of a placement state without resume records fills its save area (Table 5.11). -/
theorem Arch.length_saveBytes (a : Arch) : (a.saveBytes []).length = 2048 := by
  have hq : ((List.range 32).flatMap (fun i => leBytes 16 (a.rdQ i).toNat)).length = 16 * 32 :=
    length_flatMap_const _ _ fun _ _ => length_leBytes _ _
  have hs : ((List.range 8).flatMap (fun i => (SMap.get Desc.zero a.str i).bytes)).length = 32 * 8 :=
    length_flatMap_const _ _ fun _ _ => length_wordBytes _
  simp only [Arch.saveBytes, List.length_append, length_wordBytes, List.length_map, List.length_range, List.length_replicate,
    List.length_cons, List.length_nil]
  rw [hq, hs, length_flatMap_const (k := 24) (List.range 24), length_flatMap_const (k := 24) (List.range 4)]
  · simp only [List.length_range]
  · intro c _
    split <;> exact length_wordBytes _
  · exact fun _ _ => rfl

theorem State.digests_m (l : List (Nat × Nat × Nat)) (e : Nat) (s : State) :
    (l.foldl (fun s w => s.digestRec e 4 w.1 w.2.1 w.2.2) s).m = s.m := by
  induction l generalizing s with
  | nil => rfl
  | cons w t ih => exact ih _

/-- A save without resume records or a pending delay slot, where all of its places work. -/
theorem State.savePlacement_stored {s : State} {e dpa : Nat} (hh : s.m.health = [])
    (hf : ∀ i, i < 2048 → s.failed (s.tier (dpa % 2 ^ 46 + i)) = false) (hds : (s.eng e).arch.ds = none)
    (hn : vsNrec (s.eng e).arch.vstate = 0) :
    (s.savePlacement e dpa).m.mem = putCells s.m.mem (cellsAt (dpa % 2 ^ 46) ((s.eng e).arch.saveBytes [])) := by
  have hdrop : s.dropAnnulled e = s := by rw [State.dropAnnulled, hds]
  unfold State.savePlacement
  rw [hdrop]
  dsimp only
  rw [State.digests_m, hn, List.range_zero, List.map_nil]
  exact (Stored.putNow (bs := (s.eng e).arch.saveBytes []) hh fun i hi => hf i (by rwa [Arch.length_saveBytes] at hi)).2.1

end Sys2Proof.Machine

namespace Sys2Proof.Machine

/-! ### The preemption sweep (R37, R38, R41, R49) -/

theorem State.canRun_iff {s : State} {e : Nat} : s.canRun e = true ↔ e < 512 ∧ s.usable e = true ∧ (s.eng e).hung = false ∧
    s.awake e = true ∧ s.runs = true ∧ s.bit Reg.pairStat 26 = false := by
  simp only [State.canRun, Bool.and_eq_true, decide_eq_true_eq, Bool.not_eq_true', and_assoc]

/-- The sweep of an engine that has not hung, by what it holds. -/
theorem execPreemptionSweep_eq {s : State} {e : Nat} (he : e < 512) (hh : (s.eng e).hung = false) (bad : List Nat) :
    exec (.preemptionSweep e ⟨bad, false⟩) s =
      match (((s.badEntries e bad).sweepTlb e).eng e).place with
      | none => .next (((s.badEntries e bad).sweepTlb e).takeNext e)
      | some p =>
        if p.lap = ((s.badEntries e bad).sweepTlb e).lap then .next s
        else if ((s.badEntries e bad).sweepTlb e).sameTask e p then .next ((((s.badEntries e bad).sweepTlb e).closeEngine e).resumeSame e p)
        else .next (((((s.badEntries e bad).sweepTlb e).saveOut e).closeEngine e).takeNext e) := by
  change execPreemptionSweep e _ s = _
  unfold execPreemptionSweep
  rw [if_pos (by rw [hh]; simpa using he)]
  rfl

theorem State.place_sweepTlb (s : State) (e : Nat) : ((s.sweepTlb e).eng e).place = (s.eng e).place ∧
    ((s.sweepTlb e).eng e).hung = (s.eng e).hung ∧ ((s.sweepTlb e).eng e).arch = (s.eng e).arch := by
  rw [State.eng_sweepTlb, Engine.applyDue_frame]
  exact ⟨rfl, rfl, rfl⟩

theorem State.canRun_sweepTlb (s : State) (e : Nat) : (s.sweepTlb e).canRun e = s.canRun e := by
  rw [State.canRun, State.canRun, (s.place_sweepTlb e).2.1]
  rfl

theorem State.takeNext_booked {s : State} {e q : Nat} (h : s.canRun e = true) (hq : s.nextBooked e = some q) :
    s.takeNext e = s.takePlacement e q false := by
  rw [State.takeNext, h, if_neg (by decide), hq]

/-- What an engine takes next: nothing, the placement booked next, or waiting Open work. -/
theorem State.takeNext_cases (s : State) (e : Nat) : s.takeNext e = s ∨
    ∃ q o, s.takeNext e = s.takePlacement e q o ∧ (s.nextBooked e = some q ∨ s.nextOpen e = some q) := by
  unfold State.takeNext
  split
  · exact .inl rfl
  · split
    · exact .inr ⟨_, _, rfl, .inl ‹_›⟩
    · split
      · exact .inr ⟨_, _, rfl, .inr ‹_›⟩
      · exact .inl rfl

theorem State.takeNext_frame (s : State) (e : Nat) : (s.takeNext e).m = s.m ∧ OnlyEng s (s.takeNext e) e := by
  obtain h | ⟨q, o, h, -⟩ := s.takeNext_cases e
  · rw [h]; exact ⟨rfl, OnlyEng.refl s e⟩
  · rw [h]; exact ⟨s.m_takePlacement e q o, s.onlyEng_takePlacement e q o⟩

/-- A Task that the engine does not take stays. -/
theorem State.task_takeNext {s : State} {e x : Nat} (h : ∀ q, ((s.takeNext e).eng e).place = some q → q.tti ≠ x) :
    (s.takeNext e).task x = s.task x := by
  obtain h1 | ⟨q, o, h1, -⟩ := s.takeNext_cases e
  · rw [h1]
  · rw [h1] at h ⊢
    have hq := h _ (by rw [State.eng_takePlacement])
    exact s.task_takePlacement_ne e (fun hx => hq hx.symm) o

/-- A settled Task is not taken. -/
theorem State.task_takeNext_settled {s : State} {x : Nat} (e : Nat) (h : (s.task x).st = .settled) : (s.takeNext e).task x = s.task x := by
  obtain h1 | ⟨q, o, h1, hq⟩ := s.takeNext_cases e
  · rw [h1]
  · have hne : x ≠ q := by
      rintro rfl
      obtain hq | hq := hq
      · have := State.nextBooked_startable hq
        simp [Task.startable, h] at this
      · have := List.find?_some hq
        simp [h] at this
    rw [h1, s.task_takePlacement_ne e hne o]

theorem sweep_takes (s : State) (e tti : Nat) (hr : s.canRun e = true) (hp : (s.eng e).place = none) (hb : s.nextBooked e = some tti) :
    ∃ t, exec (.preemptionSweep e ⟨[], false⟩) s = .next t ∧ t.m = s.m ∧ OnlyEng s t e ∧ (t.eng e).running = false ∧
      (t.eng e).place = some { tti := tti, lap := s.lap, isOpen := false, epoch := (s.task tti).epoch,
                               budget := (s.task tti).cv.budget, cyc := 0, restored := false, save := (s.task tti).saveDpa } ∧
      (t.task tti).st = .running ∧ (t.task tti).engine = e ∧ (t.task tti).lapsLeft = (s.task tti).lapsLeft - 1 ∧
      (∀ x, x ≠ tti → t.task x = s.task x) ∧
      (t.row s.lap).plc = (s.row s.lap).plc.map (fun b => if b.engine = e ∧ b.tti = tti then { b with taken := true } else b) := by
  obtain ⟨he, -, hh, -⟩ := State.canRun_iff.1 hr
  have hexec := execPreemptionSweep_eq he hh []
  have hb0 : s.badEntries e [] = s := rfl
  rw [hb0, (s.place_sweepTlb e).1, hp] at hexec
  dsimp only at hexec
  have hbook : (s.sweepTlb e).nextBooked e = some tti := hb
  rw [State.takeNext_booked (by rw [State.canRun_sweepTlb]; exact hr) hbook] at hexec
  have htask := (s.sweepTlb e).task_takePlacement e tti false
  have heng := (s.sweepTlb e).eng_takePlacement e tti false
  refine ⟨_, hexec, (s.sweepTlb e).m_takePlacement e tti false,
    (s.onlyEng_sweepTlb e).trans ((s.sweepTlb e).onlyEng_takePlacement e tti false), ?_, ?_, ?_, ?_, ?_, fun x hx => ?_, ?_⟩
  · rw [heng]
  · rw [heng]; rfl
  · rw [htask]
  · rw [htask]
  · rw [htask]; rfl
  · exact (s.sweepTlb e).task_takePlacement_ne e hx false
  · exact congrArg Row.plc ((s.sweepTlb e).row_takePlacement e tti)

theorem State.closeEngine_open {s : State} (e : Nat) (h : s.pair.closed = false) : ∃ y,
    s.closeEngine e = { s.updEng e (fun x => { x with digest := 0 }) with pair := y } := by
  refine ⟨(s.closeEngine e).pair, ?_⟩
  rw [State.closeEngine, h, if_neg (by decide)]

/-- The digest of an engine is closed: its digest alone and the pair unit's copy of it differ. -/
theorem State.closeEngine_frame (s : State) (e : Nat) :
    (∃ x y, s.closeEngine e = { s with engines := x, pair := y }) ∧ OnlyEng s (s.closeEngine e) e ∧
      ∃ d, (s.closeEngine e).eng e = { s.eng e with digest := d } := by
  cases h : s.pair.closed with
  | true =>
    have h0 : s.closeEngine e = s := by rw [State.closeEngine, h, if_pos rfl]
    rw [h0]
    exact ⟨⟨_, _, rfl⟩, OnlyEng.refl s e, _, rfl⟩
  | false =>
    obtain ⟨y, hy⟩ := State.closeEngine_open e h
    rw [hy]
    refine ⟨⟨_, _, rfl⟩, fun j hj => ?_, 0, ?_⟩
    · exact s.eng_updEng_ne e j (fun x => { x with digest := 0 }) hj
    · exact s.eng_updEng e (fun x => { x with digest := 0 })

/-- The same Task goes on: memory stays, and the engine has its placement anew. -/
theorem State.resumeSame_spec {s : State} {e : Nat} {p : Placement} (hv : vsLapres (s.eng e).arch.vstate = false) :
    (s.resumeSame e p).m = s.m ∧ OnlyEng s (s.resumeSame e p) e ∧ (s.resumeSame e p).eng e =
      { s.eng e with running := p.restored, place := some { p with lap := s.lap, budget := (s.task p.tti).cv.budget, cyc := 0 } } := by
  obtain ⟨s3, hm, heng, heq⟩ : ∃ s3 : State, s3.m = s.m ∧ s3.engines = (s.updEng e (fun x =>
        { x with running := p.restored, place := some { p with lap := s.lap, budget := (s.task p.tti).cv.budget, cyc := 0 } })).engines ∧
      s.resumeSame e p = if p.restored then s3.lapResume e else s3 := by
    unfold State.resumeSame
    rw [s.noteRan_frame e p.tti]
    generalize (s.noteRan e p.tti).pair.ran = r
    dsimp only
    refine ⟨_, ?_, ?_, rfl⟩ <;> rfl
  have hself : s3.eng e =
      { s.eng e with running := p.restored, place := some { p with lap := s.lap, budget := (s.task p.tti).cv.budget, cyc := 0 } } := by
    rw [State.eng, heng]
    exact s.eng_updEng e _
  have hlr : s3.lapResume e = s3 := by
    rw [State.lapResume, hself, if_neg (by rw [hv]; decide)]
  rw [hlr, ite_self] at heq
  rw [heq]
  refine ⟨hm, fun j hj => ?_, hself⟩
  rw [State.eng, heng]
  exact s.eng_updEng_ne e j _ hj

theorem sweep_continues (s : State) (e : Nat) (p : Placement) (he : e < 512) (hh : (s.eng e).hung = false) (hp : (s.eng e).place = some p)
    (hl : p.lap ≠ s.lap) (hs : s.sameTask e p = true) (hv : vsLapres (s.eng e).arch.vstate = false) :
    ∃ t, exec (.preemptionSweep e ⟨[], false⟩) s = .next t ∧ t.m = s.m ∧ OnlyEng s t e ∧ (t.eng e).arch = (s.eng e).arch ∧
      (t.eng e).running = p.restored ∧
      (t.eng e).place = some { p with lap := s.lap, budget := (s.task p.tti).cv.budget, cyc := 0 } := by
  have hexec := execPreemptionSweep_eq he hh []
  have hb0 : s.badEntries e [] = s := rfl
  obtain ⟨hp1, -, ha1⟩ := s.place_sweepTlb e
  have hs1 : (s.sweepTlb e).sameTask e p = true := by
    rw [State.sameTask, State.canRun_sweepTlb]
    exact hs
  rw [hb0, hp1, hp] at hexec
  dsimp only at hexec
  have hl1 : ¬ p.lap = (s.sweepTlb e).lap := hl
  rw [if_neg hl1, if_pos hs1] at hexec
  obtain ⟨⟨x, y, hf⟩, honly, d, hd⟩ := (s.sweepTlb e).closeEngine_frame e
  have harch : (((s.sweepTlb e).closeEngine e).eng e).arch = (s.eng e).arch := by rw [hd]; exact ha1
  obtain ⟨hm2, honly2, heng2⟩ := State.resumeSame_spec (s := (s.sweepTlb e).closeEngine e) (p := p) (by rw [harch]; exact hv)
  refine ⟨_, hexec, ?_, ((s.onlyEng_sweepTlb e).trans honly).trans honly2, ?_, ?_, ?_⟩
  · rw [hm2, hf]; rfl
  · rw [heng2]; exact harch
  · rw [heng2]
  · rw [heng2, hf]; rfl

theorem sweep_again (s : State) (e : Nat) (p : Placement) (he : e < 512) (hh : (s.eng e).hung = false) (hp : (s.eng e).place = some p)
    (hl : p.lap = s.lap) : exec (.preemptionSweep e ⟨[], false⟩) s = .next s := by
  have hexec := execPreemptionSweep_eq he hh []
  have hb0 : s.badEntries e [] = s := rfl
  rw [hb0, (s.place_sweepTlb e).1, hp] at hexec
  dsimp only at hexec
  rw [hexec]
  exact if_pos hl

/-- Saving out: the placement's state where it had begun, the Task parked where it runs here and has a Lap left, and the engine
empty. -/
theorem State.saveOut_spec {s : State} {e : Nat} {p : Placement} (hp : (s.eng e).place = some p) :
    OnlyEng s (s.saveOut e) e ∧
    ((s.task p.tti).epoch = p.epoch → (s.task p.tti).st = .running → (s.task p.tti).engine = e → (s.task p.tti).cls ≠ 2 →
      (s.task p.tti).lapsLeft ≠ 0 → ((s.saveOut e).task p.tti).st = .parked) ∧
    (s.saveOut e).m.mem = (if p.restored then s.savePlacement e p.save else s).m.mem ∧
    (s.saveOut e).m.memq = (if p.restored then s.savePlacement e p.save else s).m.memq := by
  obtain ⟨s1, h1⟩ : ∃ s1 : State, s1 = if p.restored then s.savePlacement e p.save else s := ⟨_, rfl⟩
  have hsave : SaveOnly s s1 e := by
    rw [h1]
    split
    · exact SaveOnly.savePlacement s e p.save
    · exact SaveOnly.refl s e
  obtain ⟨s2, h2⟩ : ∃ s2 : State, s2 = s1.updTask p.tti (fun t =>
      if t.epoch = p.epoch ∧ t.st ≠ .free then
        { (if p.restored then t.keep (s.eng e) else t) with
                 started := t.started || p.restored,
                 st := if t.st = .running ∧ t.engine = e ∧ t.cls ≠ 2 ∧ t.lapsLeft ≠ 0 then .parked else t.st }
      else t) := ⟨_, rfl⟩
  have heq : s.saveOut e = s2.clearPlace e := by rw [State.saveOut, hp, h2, h1]
  have h2m : s2.m = s1.m := by rw [h2]; rfl
  obtain ⟨-, honly, -⟩ := s2.clearPlace_frame e
  have h2e : ∀ j, s2.eng j = s1.eng j := fun j => by rw [h2]; rfl
  rw [heq, ← h1, State.mem_clearPlace, State.memq_clearPlace, h2m, State.task_clearPlace]
  refine ⟨fun j hj => ?_, fun k1 k2 k3 k4 k5 => ?_, rfl, rfl⟩
  · rw [honly j hj, h2e, hsave.2.2.1 j hj]
  · have ht := hsave.2.2.2.2 p.tti
    rw [h2, State.task_updTask, if_pos (by rw [ht]; exact ⟨k1, by rw [k2]; decide⟩)]
    dsimp only
    rw [if_pos (by rw [ht]; exact ⟨k2, k3, k4, k5⟩)]

theorem sweep_saves (s : State) (e : Nat) (p : Placement) (he : e < 512) (hh : (s.eng e).hung = false) (hp : (s.eng e).place = some p)
    (hl : p.lap ≠ s.lap) (hs : s.sameTask e p = false) :
    ∃ t, exec (.preemptionSweep e ⟨[], false⟩) s = .next t ∧ OnlyEng s t e ∧
      ((∀ q, (t.eng e).place = some q → q.tti ≠ p.tti) → (s.task p.tti).epoch = p.epoch → (s.task p.tti).st = .running →
        (s.task p.tti).engine = e → (s.task p.tti).cls ≠ 2 → (s.task p.tti).lapsLeft ≠ 0 → (t.task p.tti).st = .parked) ∧
      (p.restored = false → t.m.mem = s.m.mem ∧ t.m.memq = s.m.memq) ∧
      (p.restored = true → s.m.health = [] → (∀ i, i < 2048 → s.failed (s.tier (p.save % 2 ^ 46 + i)) = false) →
        (s.eng e).arch.ds = none → vsNrec (s.eng e).arch.vstate = 0 →
        getBytes t.m.mem (p.save % 2 ^ 46) 2048 = (s.eng e).arch.saveBytes [] ∧
        ∀ a, (a < p.save % 2 ^ 46 ∨ p.save % 2 ^ 46 + 2048 ≤ a) → SMap.get 0 t.m.mem a = SMap.get 0 s.m.mem a) := by
  have hexec := execPreemptionSweep_eq he hh []
  have hb0 : s.badEntries e [] = s := rfl
  obtain ⟨s0, h0⟩ : ∃ s0 : State, s0 = s.sweepTlb e := ⟨_, rfl⟩
  obtain ⟨hp0, -, ha0⟩ := s.place_sweepTlb e
  have hs0 : s0.sameTask e p = false := by
    rw [h0, State.sameTask, State.canRun_sweepTlb]
    exact hs
  have hl0 : s0.lap = s.lap := by rw [h0]; rfl
  have hm0 : s0.m = s.m := by rw [h0]; rfl
  have ht0 : s0.task p.tti = s.task p.tti := by rw [h0]; rfl
  have honly0 : OnlyEng s s0 e := h0 ▸ s.onlyEng_sweepTlb e
  have hfail0 : ∀ a, s0.failed (s0.tier a) = s.failed (s.tier a) := fun a => by
    have hmap : s.sameMap s0 := by rw [h0]; exact ⟨rfl, rfl, rfl, rfl, rfl, fun _ _ => rfl⟩
    rw [State.tier_congr hmap, h0]
    rfl
  rw [hb0, ← h0] at hexec
  rw [← h0] at hp0 ha0
  rw [hp0, hp] at hexec
  dsimp only at hexec
  rw [if_neg (by rw [hl0]; exact hl), hs0, if_neg (by decide)] at hexec
  obtain ⟨s1, h1⟩ : ∃ s1 : State, s1 = (s0.saveOut e).closeEngine e := ⟨_, rfl⟩
  obtain ⟨honly1, hpark, hmem, hmemq⟩ := State.saveOut_spec (hp0.trans hp)
  obtain ⟨⟨x, y, hf1⟩, honlyc, -⟩ := (s0.saveOut e).closeEngine_frame e
  rw [← h1] at hexec hf1 honlyc
  have h1t : s1.task p.tti = (s0.saveOut e).task p.tti := by rw [hf1]; rfl
  have h1m : s1.m = (s0.saveOut e).m := by rw [hf1]
  obtain ⟨hmt, honlyt⟩ := s1.takeNext_frame e
  refine ⟨_, hexec, ((honly0.trans honly1).trans honlyc).trans honlyt, fun hq k1 k2 k3 k4 k5 => ?_, fun hr => ?_,
    fun hr hh' hf hds hn => ?_⟩
  · rw [State.task_takeNext hq, h1t]
    rw [ht0] at hpark
    exact hpark k1 k2 k3 k4 k5
  · rw [hr, if_neg (by decide), hm0] at hmem hmemq
    rw [hmt, h1m]
    exact ⟨hmem, hmemq⟩
  · rw [hr, if_pos rfl, State.savePlacement_stored (by rw [hm0]; exact hh') (fun i hi => by rw [hfail0]; exact hf i hi)
      (by rw [ha0]; exact hds) (by rw [ha0]; exact hn), ha0, hm0] at hmem
    have hlen := (s.eng e).arch.length_saveBytes
    rw [hmt, h1m, hmem]
    refine ⟨?_, fun a ha => get_putCells_cellsAt_ne _ _ _ a (by rwa [hlen])⟩
    have hget := getBytes_putCells s.m.mem (p.save % 2 ^ 46) ((s.eng e).arch.saveBytes [])
    rwa [hlen] at hget

/-- A bad entry of the engine's placement list: the error is recorded, the entry goes, and its Task fails. -/
theorem State.badEntries_first {s : State} {e tti : Nat}
    (h : ((s.row s.lap).plc.find? (fun b => b.engine = e && !b.taken)).map (fun b => b.tti) = some tti)
    (hm : s.mirroredNow = false) (ha : (s.task tti).alive) :
    (s.badEntries e [0]).m = s.m ∧ (∀ j, (s.badEntries e [0]).eng j = s.eng j) ∧
      ((s.badEntries e [0]).task tti).st = .settled ∧ ((s.badEntries e [0]).task tti).outcome = .failed ∧
      ((s.badEntries e [0]).task tti).cause = 0x08 := by
  obtain ⟨s1, h1⟩ : ∃ s1 : State, s1 = s.fault 0x0A (originOf s.pos 6 0) 0 (s.task tti).epoch tti 0 := ⟨_, rfl⟩
  obtain ⟨s2, h2⟩ : ∃ s2 : State, s2 = s1.setRow s1.lap { s1.row s1.lap with
    plc := (s1.row s1.lap).plc.filter (fun b => !(b.engine = e && b.tti = tti)) } := ⟨_, rfl⟩
  have hfiled : Filed s s1 := h1 ▸ Filed.fault ..
  have hlist : ([0].filterMap fun i => (((s.row s.lap).plc.filter (fun b => b.engine = e && !b.taken)).map (fun b => b.tti))[i]?) =
      [tti] := by
    rw [← List.head?_filter, ← List.head?_map, List.head?_eq_getElem?] at h
    simp only [List.filterMap_cons, List.filterMap_nil, h]
  have heq : s.badEntries e [0] = s2.settle tti .failed 0x08 0 := by
    have hm2 : s2.mirroredNow = false := by
      rw [h2]
      exact hfiled.mirroredNow.trans hm
    rw [State.badEntries, hlist, List.foldl_cons, List.foldl_nil, ← h1]
    dsimp only
    rw [← h2, hm2, if_neg (by decide), State.fail]
  have ht : s2.task tti = s.task tti := by
    rw [h2]
    exact hfiled.task tti
  rw [heq, State.m_settle, State.task_settle (by rw [ht]; exact ha)]
  refine ⟨?_, fun j => ?_, rfl, rfl, rfl⟩
  · rw [h2]; exact hfiled.m
  · rw [State.eng_settle, h2]; exact hfiled.eng j

theorem sweep_badEntry (s : State) (e tti : Nat) (hr : s.canRun e = true) (hp : (s.eng e).place = none) (hm : s.mirroredNow = false)
    (hf : ((s.row s.lap).plc.find? (fun b => b.engine = e && !b.taken)).map (fun b => b.tti) = some tti)
    (h1 : (s.task tti).st ≠ .free) (h2 : (s.task tti).st ≠ .settled) :
    ∃ t, exec (.preemptionSweep e ⟨[0], false⟩) s = .next t ∧ t.m = s.m ∧ OnlyEng s t e ∧
      (t.task tti).st = .settled ∧ (t.task tti).outcome = .failed ∧ (t.task tti).cause = 0x08 := by
  obtain ⟨he, -, hh, -⟩ := State.canRun_iff.1 hr
  have hexec := execPreemptionSweep_eq he hh [0]
  obtain ⟨hmb, hengb, hst, hout, hcause⟩ := State.badEntries_first hf hm ⟨h1, h2⟩
  obtain ⟨s1, hs1⟩ : ∃ s1 : State, s1 = s.badEntries e [0] := ⟨_, rfl⟩
  rw [← hs1] at hexec hmb hengb hst hout hcause
  rw [(s1.place_sweepTlb e).1, hengb, hp] at hexec
  dsimp only at hexec
  have ht : (s1.sweepTlb e).task tti = s1.task tti := rfl
  obtain ⟨hmt, honly⟩ := (s1.sweepTlb e).takeNext_frame e
  have hm1 : (s1.sweepTlb e).m = s1.m := rfl
  refine ⟨_, hexec, by rw [hmt, hm1, hmb], fun j hj => ?_, ?_⟩
  · rw [honly j hj, s1.onlyEng_sweepTlb e j hj, hengb]
  · rw [State.task_takeNext_settled e (by rw [ht]; exact hst), ht]
    exact ⟨hst, hout, hcause⟩

theorem preemptionSweep_complete : Claims.PreemptionSweepComplete :=
  ⟨sweep_takes, sweep_continues, sweep_saves, sweep_again, sweep_badEntry⟩

/-! ### The first placement and later ones (R150, R170, R173, R215, R470) -/

/-- An engine whose placement has been loaded: it runs, with its fetch and prediction anew. -/
def Engine.loaded (x : Engine) (p : Placement) (t : Task) (a : Arch) : Engine :=
  { x.refetch true with
    arch := a, running := true, place := some { p with restored := true }, tend := 0
    errFrame := t.errFrame, tsyncLap := t.tsync, vinsts := [], chains := [], reissue := none }

/-- A Task whose placement has been loaded keeps no error, frame or invalidation to wait for. -/
def State.loadedTask (s : State) (tti : Nat) : State :=
  s.updTask tti (fun t => { t with started := true, errq := [], errFrame := none, tsync := none })

theorem execPlacementRestore_first {s : State} {e : Nat} {p : Placement} (he : e < 512) (hr : s.runs = true)
    (hp : (s.eng e).place = some p) (hn : p.restored = false) (hh : s.heldElsewhere e p.tti = false)
    (hs : (s.task p.tti).started = false) : exec (.placementRestore e) s = .next
      ((s.updEng e (fun x => x.loaded p (s.task p.tti) (s.restoredArch (s.task p.tti) (s.task p.tti).initArch))).loadedTask p.tti) := by
  change execPlacementRestore e s = _
  rw [execPlacementRestore, hp]
  dsimp only
  rw [if_pos ⟨he, by rw [hn]; rfl, hr, by rw [hh]; rfl⟩, hs, if_pos (by rfl)]
  rfl

theorem execPlacementRestore_later {s s1 : State} {e : Nat} {p : Placement} {bs : List Byte} (he : e < 512) (hr : s.runs = true)
    (hp : (s.eng e).place = some p) (hn : p.restored = false) (hh : s.heldElsewhere e p.tti = false)
    (hs : (s.task p.tti).started = true) (hw : s.saveHeld p.save = false) (hrd : s.readSave p.save = (s1, bs))
    (hv : vsNrec (archOf bs).vstate = 0) : exec (.placementRestore e) s = .next
      (((s1.updEng e (fun x => x.loaded p (s.task p.tti) (s.restoredArch (s.task p.tti) (archOf bs)))).loadedTask p.tti).lapResume e) := by
  change execPlacementRestore e s = _
  rw [execPlacementRestore, hp]
  dsimp only
  rw [if_pos ⟨he, by rw [hn]; rfl, hr, by rw [hh]; rfl⟩, hs, if_neg (by decide), hw, if_neg (by decide), hrd]
  dsimp only
  rw [hv]
  rfl

/-- What loading a placement leaves: the engine loaded, and its Task without kept errors. -/
theorem State.loaded_spec (s : State) (e : Nat) (p : Placement) (t : Task) (a : Arch) :
    (s.updEng e (fun x => x.loaded p t a)).loadedTask p.tti =
      { s with
        engines := ((s.updEng e (fun x => x.loaded p t a)).loadedTask p.tti).engines
        sta := ((s.updEng e (fun x => x.loaded p t a)).loadedTask p.tti).sta } ∧
    OnlyEng s ((s.updEng e (fun x => x.loaded p t a)).loadedTask p.tti) e ∧
    ((s.updEng e (fun x => x.loaded p t a)).loadedTask p.tti).eng e = (s.eng e).loaded p t a ∧
    (((s.updEng e (fun x => x.loaded p t a)).loadedTask p.tti).task p.tti).started = true ∧
    (((s.updEng e (fun x => x.loaded p t a)).loadedTask p.tti).task p.tti).errq = [] := by
  have ht : ((s.updEng e (fun x => x.loaded p t a)).loadedTask p.tti).task p.tti =
      { s.task p.tti with started := true, errq := [], errFrame := none, tsync := none } := State.task_updTask _ _ _
  refine ⟨rfl, fun j hj => s.eng_updEng_ne e j (fun x => x.loaded p t a) hj, s.eng_updEng e (fun x => x.loaded p t a), ?_, ?_⟩
  · rw [ht]
  · rw [ht]

/-- The general registers of a Task's first placement: its arguments, and 0. -/
theorem Task.rdG_initArch (t : Task) (n : Nat) : t.initArch.rdG n = if n = 2 then t.arg1 else if n = 1 then t.arg0 else 0 := by
  by_cases h31 : n = 31
  · subst h31
    rw [Arch.rdG, if_pos rfl]
    exact ite_self 0
  · rw [Arch.rdG, if_neg h31]
    by_cases h2 : n = 2
    · subst h2
      exact SMap.get_set_self _ _ _ _
    · rw [if_neg h2]
      refine (SMap.get_set_ne 0 0 _ 2 n _ h2).trans ?_
      by_cases h1 : n = 1
      · subst h1
        exact SMap.get_set_self _ _ _ _
      · rw [if_neg h1]
        exact SMap.get_set_ne 0 0 _ 1 n _ h1

theorem firstPlacement (s : State) (e : Nat) (p : Placement) (he : e < 512) (hr : s.runs = true)
    (hp : (s.eng e).place = some p) (hn : p.restored = false) (hh : s.heldElsewhere e p.tti = false)
    (hs : (s.task p.tti).started = false) :
    ∃ t, exec (.placementRestore e) s = .next t ∧ t = { s with engines := t.engines, sta := t.sta } ∧ OnlyEng s t e ∧
      (t.eng e).running = true ∧ (t.eng e).place = some { p with restored := true } ∧
      (t.eng e).pq = [] ∧ (t.eng e).btb = [] ∧ (t.task p.tti).started = true ∧ (t.task p.tti).errq = [] ∧
      let a := (t.eng e).arch
      let k := s.task p.tti
      a.pc = k.entry ∧ a.ttb = k.ttb &&& 0x000FFFFFFFFF0001 ∧ a.pkr = k.pkr ∧ a.ctxid = k.ctxid ∧ a.rdG 1 = k.arg0 ∧
        a.rdG 2 = k.arg1 ∧ (∀ n, n < 32 → n ≠ 1 → n ≠ 2 → a.rdG n = 0) ∧ (∀ n, n < 32 → a.rdQ n = 0) ∧
        a.psr = Arch.init.psr ∧ a.flags = Arch.init.flags ∧ (k.errq = [] → a.errq = []) ∧ a.ds = none := by
  obtain ⟨hf, honly, heng, hst, hq⟩ := s.loaded_spec e p (s.task p.tti) (s.restoredArch (s.task p.tti) (s.task p.tti).initArch)
  have hexec := execPlacementRestore_first he hr hp hn hh hs
  have hg : ∀ n, (s.restoredArch (s.task p.tti) (s.task p.tti).initArch).rdG n =
      if n = 2 then (s.task p.tti).arg1 else if n = 1 then (s.task p.tti).arg0 else 0 := (s.task p.tti).rdG_initArch
  refine ⟨_, hexec, hf, honly, ?_, ?_, ?_, ?_, hst, hq, ?_⟩
  · rw [heng]; rfl
  · rw [heng]; rfl
  · rw [heng]; rfl
  · rw [heng]; rfl
  · have ha : ((s.eng e).loaded p (s.task p.tti) (s.restoredArch (s.task p.tti) (s.task p.tti).initArch)).arch =
      s.restoredArch (s.task p.tti) (s.task p.tti).initArch := rfl
    dsimp only
    rw [heng, ha]
    refine ⟨rfl, rfl, rfl, rfl, hg 1, hg 2, fun n _ h1 h2 => ?_, fun _ _ => rfl, rfl, rfl, fun hk => ?_, rfl⟩
    · rw [hg, if_neg h2, if_neg h1]
    · rw [State.restoredArch, hk]; rfl

theorem laterPlacement (s s1 : State) (e : Nat) (p : Placement) (bs : List Byte) (he : e < 512) (hr : s.runs = true)
    (hp : (s.eng e).place = some p) (hn : p.restored = false) (hh : s.heldElsewhere e p.tti = false)
    (hs : (s.task p.tti).started = true) (hw : s.saveHeld p.save = false) (hrd : s.readSave p.save = (s1, bs))
    (hv : vsNrec (archOf bs).vstate = 0) (hl : vsLapres (archOf bs).vstate = false) :
    ∃ t, exec (.placementRestore e) s = .next t ∧ t = { s1 with engines := t.engines, sta := t.sta } ∧ OnlyEng s1 t e ∧
      (t.eng e).running = true ∧ (t.eng e).place = some { p with restored := true } ∧
      (t.eng e).pq = [] ∧ (t.eng e).btb = [] ∧ (t.task p.tti).errq = [] ∧
      (t.eng e).arch = s.restoredArch (s.task p.tti) (archOf bs) := by
  obtain ⟨hf, honly, heng, -, hq⟩ := s1.loaded_spec e p (s.task p.tti) (s.restoredArch (s.task p.tti) (archOf bs))
  have hexec := execPlacementRestore_later he hr hp hn hh hs hw hrd hv
  obtain ⟨t, ht⟩ : ∃ t : State, t = (s1.updEng e (fun x =>
    x.loaded p (s.task p.tti) (s.restoredArch (s.task p.tti) (archOf bs)))).loadedTask p.tti := ⟨_, rfl⟩
  rw [← ht] at hf honly heng hq hexec
  have hlr : t.lapResume e = t := by
    have hvs : (t.eng e).arch.vstate = (archOf bs).vstate := by rw [heng]; rfl
    rw [State.lapResume, hvs, hl, if_neg (by decide)]
  rw [hlr] at hexec
  refine ⟨t, hexec, hf, honly, ?_, ?_, ?_, ?_, hq, ?_⟩
  · rw [heng]; rfl
  · rw [heng]; rfl
  · rw [heng]; rfl
  · rw [heng]; rfl
  · rw [heng]; rfl

/-- Settles O40: the sweep by what its engine holds, the restore by whether the Task has started before. -/
theorem placementsComplete : Obligations.PlacementsComplete :=
  ⟨preemptionSweep_complete, firstPlacement, laterPlacement⟩

end Sys2Proof.Machine

namespace Sys2Proof.Machine

/-! ### Fetching submissions (R62, R471) -/

theorem State.nextSq_of_first {s : State} {k : Nat} (hk : k < 64) (hr : s.sqReady ((s.host.lastSq + 1 + k) % 64) = true)
    (hn : ∀ j, j < k → s.sqReady ((s.host.lastSq + 1 + j) % 64) = false) : s.nextSq = some ((s.host.lastSq + 1 + k) % 64) := by
  have hf : (List.range 64).find? ((fun q => s.sqReady q) ∘ fun k => (s.host.lastSq + 1 + k) % 64) = some k := by
    rw [List.find?_range_eq_some]
    exact ⟨hr, List.mem_range.2 hk, fun j hj => by simp [hn j hj]⟩
  rw [State.nextSq, List.find?_map, hf]
  rfl

theorem sqFetch_complete : Claims.SqFetchComplete := by
  intro s k h1 h2 h3 hk hr hn
  change execSqFetch s = _
  rw [execSqFetch, if_pos ⟨h1, h2, h3⟩, State.nextSq_of_first hk hr hn]

/-! ### A record arrives (R51, R397, R398, R471) -/

theorem State.setBit_regs (s : State) (r : RegRef) (b : Nat) (v : Bool) :
    s.setBit r b v = { s with regs := (s.setBit r b v).regs } := rfl

theorem State.setFld_regs (s : State) (r : RegRef) (hi lo v : Nat) :
    s.setFld r hi lo v = { s with regs := (s.setFld r hi lo v).regs } := rfl

theorem State.forwarding_congr {s t : State} (hp : t.pair.rejoinLap = s.pair.rejoinLap) (ha : t.actMode = s.actMode)
    (hr : t.rd Reg.pairStat = s.rd Reg.pairStat) : t.forwarding = s.forwarding := by
  have hb : ∀ b, t.bit Reg.pairStat b = s.bit Reg.pairStat b := fun b => by rw [State.bit, State.bit, State.fld, State.fld, hr]
  rw [State.forwarding, State.forwarding, ha, hp, hb, hb]

/-- The intake queue takes a submission in, and the Record Unit notes it. -/
theorem State.enterIntake_frame (s : State) (m : Subm) :
    s.enterIntake m = { s with
      regs := (s.enterIntake m).regs, recd := (s.enterIntake m).recd, sta := { s.sta with intake := s.sta.intake ++ [m] } } ∧
    OnlyRegs s (s.enterIntake m) [Reg.recStat.off] := by
  obtain ⟨hf, hr⟩ := ({ s with sta := { s.sta with intake := s.sta.intake ++ [m] } } : State).log_frame 0x02 m.sq 0 m.r.words
  exact ⟨hf, hr⟩

theorem State.cvPlace_congr {s t : State} (h : s.sameMap t) (dpa : Nat) : t.cvPlace dpa = s.cvPlace dpa := by
  simp only [State.cvPlace, State.mine, State.tier_congr h, State.pos_of_sameMap h]

/-- A record presented: what it changes, by its kind and the place of its cost vector. -/
theorem State.present_frame (s : State) (q head : Nat) (r : Rec64) :
    (s.present q head r = { s with regs := (s.present q head r).regs, recd := (s.present q head r).recd, sta := (s.present q head r).sta }) ∧
    OnlyRegs s (s.present q head r) [Reg.recStat.off] ∧ (s.present q head r).sta.fetching = s.sta.fetching ∧
    (r.isCancel = true → (s.present q head r).sta.intake = s.sta.intake ++ [⟨q, r, head, CostVec.zero, false⟩] ∧
      (s.present q head r).sta.cvReads = s.sta.cvReads) ∧
    (r.isCancel = false → s.cvPlace r.cvDpa = true →
      (s.present q head r).sta.cvReads = s.sta.cvReads ++ [⟨q, r, head, CostVec.zero, false⟩] ∧
      (s.present q head r).sta.intake = s.sta.intake) ∧
    (r.isCancel = false → s.cvPlace r.cvDpa = false →
      (s.present q head r).sta.intake = s.sta.intake ++ [⟨q, r, head, CostVec.zero, true⟩] ∧
      (s.present q head r).sta.cvReads = s.sta.cvReads) := by
  have henter : ∀ m : Subm, (s.enterIntake m).sta = { s.sta with intake := s.sta.intake ++ [m] } := fun m => by
    rw [(s.enterIntake_frame m).1]
  have hframe : ∀ m : Subm, s.enterIntake m =
      { s with regs := (s.enterIntake m).regs, recd := (s.enterIntake m).recd, sta := (s.enterIntake m).sta } := fun m => by
    rw [(s.enterIntake_frame m).1]
  cases hc : r.isCancel with
  | true =>
    have h : s.present q head r = s.enterIntake ⟨q, r, head, CostVec.zero, false⟩ := by
      rw [State.present, hc]; rfl
    rw [h, henter]
    refine ⟨?_, (s.enterIntake_frame _).2, rfl, fun _ => ⟨rfl, rfl⟩, nofun, nofun⟩
    rw [← henter]
    exact hframe _
  | false =>
    cases hp : s.cvPlace r.cvDpa with
    | true =>
      have h : s.present q head r = { s with sta := { s.sta with cvReads := s.sta.cvReads ++ [⟨q, r, head, CostVec.zero, false⟩] } } := by
        rw [State.present, hc, hp]; rfl
      rw [h]
      exact ⟨rfl, OnlyRegs.refl _ _, rfl, nofun, fun _ _ => ⟨rfl, rfl⟩, nofun⟩
    | false =>
      have h : s.present q head r = s.enterIntake ⟨q, r, head, CostVec.zero, true⟩ := by
        rw [State.present, hc, hp]; rfl
      rw [h, henter]
      refine ⟨?_, (s.enterIntake_frame _).2, rfl, nofun, nofun, fun _ _ => ⟨rfl, rfl⟩⟩
      rw [← henter]
      exact hframe _

theorem submit_failed (s : State) (q : Nat) (rest : List Nat) (r : Rec64) (h : s.sta.fetching = q :: rest) :
    ∃ t, exec (.submit r false) s = .next t ∧ t.sta.fetching = rest.filter (fun x => x ≠ q) ∧ t.bit (Reg.hostSqCfg q) 31 = false ∧
      t.bit Reg.hostStat 19 = true ∧ t.sta.intake = s.sta.intake ∧ t.m = s.m := by
  have hexec : exec (.submit r false) s = .next ((({ s with sta := { s.sta with fetching := rest.filter (fun x => x ≠ q) } } : State).setBit
      (Reg.hostSqCfg q) 31 false).setBit Reg.hostStat 19 true) := by
    change execSubmit r false s = _
    rw [execSubmit, h]
    rfl
  have hne : (Reg.hostSqCfg q).off ≠ Reg.hostStat.off := by
    simp only [Reg.hostSqCfg, Reg.hostStat]
    omega
  obtain ⟨s1, h1⟩ : ∃ s1 : State, s1 = { s with sta := { s.sta with fetching := rest.filter (fun x => x ≠ q) } } := ⟨_, rfl⟩
  rw [← h1] at hexec
  have hf := State.regs_trans (s1.setBit_regs (Reg.hostSqCfg q) 31 false) (State.setBit_regs _ Reg.hostStat 19 true)
  obtain ⟨t, ht⟩ : ∃ t : State, t = (s1.setBit (Reg.hostSqCfg q) 31 false).setBit Reg.hostStat 19 true := ⟨_, rfl⟩
  rw [← ht] at hexec hf
  refine ⟨t, hexec, ?_, ?_, ?_, ?_, ?_⟩
  · rw [hf, h1]
  · rw [ht, State.bit_setBit_ne _ _ _ _ _ _ hne, State.bit_setBit _ _ (by decide)]
  · rw [ht, State.bit_setBit _ _ (by decide)]
  · rw [hf, h1]
  · rw [hf, h1]

theorem execSubmit_eq {s : State} {q : Nat} {rest : List Nat} (r : Rec64) (h : s.sta.fetching = q :: rest) (hack : s.pair.cmdAck = [])
    {s2 : State} (h2 : s2 = ({ s with sta := { s.sta with fetching := rest } } : State).add64 Reg.hostCntFetch 1) :
    exec (.submit r true) s =
      if s2.forwarding then
        .next { (s2.takeInput (.hostcmd s2.lap s2.pair.taken q ((s2.sqHead q + 1) % s2.sqSize q) r) 0x1
            ([BitVec.ofNat 64 s2.lap, BitVec.ofNat 64 s2.pair.taken] ++ r.words)) with
          pair := { (s2.takeInput (.hostcmd s2.lap s2.pair.taken q ((s2.sqHead q + 1) % s2.sqSize q) r) 0x1
            ([BitVec.ofNat 64 s2.lap, BitVec.ofNat 64 s2.pair.taken] ++ r.words)).pair with
            cmdAck := (s2.takeInput (.hostcmd s2.lap s2.pair.taken q ((s2.sqHead q + 1) % s2.sqSize q) r) 0x1
              ([BitVec.ofNat 64 s2.lap, BitVec.ofNat 64 s2.pair.taken] ++ r.words)).pair.cmdAck ++ [q] } }
      else .next ((s2.setFld (Reg.hostSqCfg q) 23 12 ((s2.sqHead q + 1) % s2.sqSize q)).present q ((s2.sqHead q + 1) % s2.sqSize q) r) := by
  change execSubmit r true s = _
  rw [execSubmit, h]
  dsimp only
  rw [if_neg (by decide), ← h2, hack]
  rfl

/-- The state in which a fetched record has been counted. -/
def State.counted1 (s : State) (rest : List Nat) : State :=
  ({ s with sta := { s.sta with fetching := rest } } : State).add64 Reg.hostCntFetch 1

theorem State.counted1_frame (s : State) (rest : List Nat) :
    s.counted1 rest = { s with regs := (s.counted1 rest).regs, sta := { s.sta with fetching := rest } } ∧
    OnlyRegs s (s.counted1 rest) [Reg.hostCntFetch.off, Reg.hostCntFetch.off + 4] ∧
    (s.counted1 rest).rd64 Reg.hostCntFetch = s.rd64 Reg.hostCntFetch + 1 := by
  obtain ⟨s1, h1⟩ : ∃ s1 : State, s1 = { s with sta := { s.sta with fetching := rest } } := ⟨_, rfl⟩
  have hc : s.counted1 rest = s1.add64 Reg.hostCntFetch 1 := by rw [h1]; rfl
  have hr : ∀ r, s1.rd r = s.rd r := fun r => by rw [h1]; rfl
  refine ⟨?_, fun r hr' => ?_, ?_⟩
  · rw [hc, s1.add64_regs, h1]
  · rw [hc, ← hr]
    exact OnlyRegs.add64 s1 (by simp) (by simp) 1 r hr'
  · rw [hc, State.rd64_add64, State.rd64, State.rd64, hr, hr]
    rfl

theorem notMem_hostCntFetch {off : Nat} (h : off < 0xD00000 ∨ 0xD01000 ≤ off) :
    off ∉ [Reg.hostCntFetch.off, Reg.hostCntFetch.off + 4] := by
  simp only [Reg.hostCntFetch, List.mem_cons, List.not_mem_nil, or_false]
  omega

theorem State.forwarding_counted1 (s : State) (rest : List Nat) : (s.counted1 rest).forwarding = s.forwarding := by
  obtain ⟨hf, hr, -⟩ := s.counted1_frame rest
  have hm : (s.counted1 rest).mode = s.mode := by rw [hf]
  have hd : (s.counted1 rest).drainMode = s.drainMode := by rw [hf]
  have hp : (s.counted1 rest).pair = s.pair := by rw [hf]
  exact State.forwarding_congr (by rw [hp])
    (State.actMode_congr hm hd (hr _ (notMem_hostCntFetch (by decide)))) (hr _ (notMem_hostCntFetch (by decide)))

theorem State.sq_counted1 (s : State) (rest : List Nat) (q : Nat) :
    (s.counted1 rest).sqHead q = s.sqHead q ∧ (s.counted1 rest).sqSize q = s.sqSize q := by
  obtain ⟨-, hr, -⟩ := s.counted1_frame rest
  have hq : (Reg.hostSqCfg q).off ∉ [Reg.hostCntFetch.off, Reg.hostCntFetch.off + 4] :=
    notMem_hostCntFetch (by simp only [Reg.hostSqCfg]; omega)
  rw [State.sqHead, State.sqHead, State.sqSize, State.sqSize, hr.fld hq, hr.fld hq]
  exact ⟨rfl, rfl⟩

theorem submit_forwarded (s : State) (q : Nat) (rest : List Nat) (r : Rec64) (h : s.sta.fetching = q :: rest)
    (hfw : s.forwarding = true) (hack : s.pair.cmdAck = []) :
    ∃ t, exec (.submit r true) s = .next t ∧ t.sta.fetching = rest ∧ t.pair.cmdAck = [q] ∧ t.sqHead q = s.sqHead q ∧
      t.pair.inputs = s.pair.inputs ++ [.hostcmd s.lap s.pair.taken q ((s.sqHead q + 1) % s.sqSize q) r] ∧
      t.sta.intake = s.sta.intake := by
  have hexec := execSubmit_eq r h hack (s2 := s.counted1 rest) rfl
  obtain ⟨hf, hr, -⟩ := s.counted1_frame rest
  obtain ⟨hhead, hsize⟩ := s.sq_counted1 rest q
  rw [State.forwarding_counted1, hfw, if_pos rfl, hhead, hsize] at hexec
  have hlap : (s.counted1 rest).lap = s.lap := by
    have htb : (s.counted1 rest).tb = s.tb := by rw [hf]
    exact State.lap_congr htb (hr _ (notMem_hostCntFetch (by decide)))
  have hpair : (s.counted1 rest).pair = s.pair := by rw [hf]
  have hfetch : (s.counted1 rest).sta.fetching = rest := by rw [hf]
  have hintake : (s.counted1 rest).sta.intake = s.sta.intake := by rw [hf]
  rw [hlap, hpair] at hexec
  obtain ⟨s2, h2⟩ : ∃ s2 : State, s2 = s.counted1 rest := ⟨_, rfl⟩
  rw [← h2] at hexec hpair hfetch hintake hhead
  obtain ⟨i, hi⟩ : ∃ i, i = Input.hostcmd s.lap s.pair.taken q ((s.sqHead q + 1) % s.sqSize q) r := ⟨_, rfl⟩
  obtain ⟨ws, hws⟩ : ∃ ws, ws = [BitVec.ofNat 64 s.lap, BitVec.ofNat 64 s.pair.taken] ++ r.words := ⟨_, rfl⟩
  rw [← hi, ← hws] at hexec
  obtain ⟨hin, -, hreg, -, -⟩ := s2.takeInput_frame i 0x1 ws
  have hsta : (s2.takeInput i 0x1 ws).sta = s2.sta := rfl
  have hcmd : (s2.takeInput i 0x1 ws).pair.cmdAck = s2.pair.cmdAck := rfl
  obtain ⟨s3, h3⟩ : ∃ s3 : State, s3 = s2.takeInput i 0x1 ws := ⟨_, rfl⟩
  rw [← h3] at hexec hin hreg hsta hcmd
  refine ⟨_, hexec, ?_, ?_, ?_, ?_, ?_⟩
  · exact (congrArg Starter.fetching hsta).trans hfetch
  · dsimp only
    rw [hcmd, hpair, hack]; rfl
  · rw [← hhead]
    refine hreg.fld ?_ 23 12
    simp only [Reg.hostSqCfg, Reg.pairCntInput, List.mem_cons, List.not_mem_nil, or_false]
    omega
  · dsimp only
    rw [hin, hpair, hi]
  · exact (congrArg Starter.intake hsta).trans hintake

theorem submit_arrives (s : State) (q : Nat) (rest : List Nat) (r : Rec64) (h : s.sta.fetching = q :: rest)
    (hfw : s.forwarding = false) (hq : q < 64) (hack : s.pair.cmdAck = []) (hsz : s.fld (Reg.hostSqCfg q) 3 0 ≤ 12) :
    let head := (s.sqHead q + 1) % s.sqSize q
    ∃ t, exec (.submit r true) s = .next t ∧ t.sta.fetching = rest ∧ t.sqHead q = head ∧
      t.rd64 Reg.hostCntFetch = s.rd64 Reg.hostCntFetch + 1 ∧ t.m = s.m ∧ t.engines = s.engines ∧
      (r.isCancel = true → t.sta.intake = s.sta.intake ++ [⟨q, r, head, CostVec.zero, false⟩] ∧ t.sta.cvReads = s.sta.cvReads) ∧
      (r.isCancel = false → s.cvPlace r.cvDpa = true →
        t.sta.cvReads = s.sta.cvReads ++ [⟨q, r, head, CostVec.zero, false⟩] ∧ t.sta.intake = s.sta.intake) ∧
      (r.isCancel = false → s.cvPlace r.cvDpa = false →
        t.sta.intake = s.sta.intake ++ [⟨q, r, head, CostVec.zero, true⟩] ∧ t.sta.cvReads = s.sta.cvReads) := by
  intro head
  have hexec := execSubmit_eq r h hack (s2 := s.counted1 rest) rfl
  obtain ⟨hf, hr, hcnt⟩ := s.counted1_frame rest
  obtain ⟨hhead, hsize⟩ := s.sq_counted1 rest q
  rw [State.forwarding_counted1, hfw, if_neg (by decide), hhead, hsize] at hexec
  obtain ⟨s3, h3⟩ : ∃ s3 : State, s3 = (s.counted1 rest).setFld (Reg.hostSqCfg q) 23 12 head := ⟨_, rfl⟩
  have hexec' : exec (.submit r true) s = .next (s3.present q head r) := by rw [hexec, h3]
  have hf3 : s3 = { s with regs := s3.regs, sta := { s.sta with fetching := rest } } := by
    rw [h3, State.setFld_regs, hf]
  have hr3 : OnlyRegs s s3 ([Reg.hostCntFetch.off, Reg.hostCntFetch.off + 4] ++ [(Reg.hostSqCfg q).off]) := by
    rw [h3]
    exact (hr.mono (List.subset_append_left _ _)).trans (OnlyRegs.wr _ (by simp) _)
  have hnot : ∀ off, off < 0xD00000 → off ∉ [Reg.hostCntFetch.off, Reg.hostCntFetch.off + 4] ++ [(Reg.hostSqCfg q).off] := by
    intro off ho
    simp only [Reg.hostCntFetch, Reg.hostSqCfg, List.mem_append, List.mem_cons, List.not_mem_nil, or_false]
    omega
  have hmap : s.sameMap s3 := by
    refine ⟨?_, ?_, ?_, hr3 _ (hnot _ (by decide)), hr3 _ (hnot _ (by decide)), fun ch hch => hr3 _ (hnot _ ?_)⟩
    · rw [hf3]
    · rw [hf3]
    · rw [hf3]
    · simp only [Reg.ddrCfg]; omega
  have hsta : s3.sta = { s.sta with fetching := rest } := by rw [hf3]
  obtain ⟨hpf, hpr, hfetch, k1, k2, k3⟩ := s3.present_frame q head r
  rw [hsta] at hfetch k1 k2 k3
  rw [State.cvPlace_congr hmap] at k2 k3
  have hne : (Reg.hostSqCfg q).off ∉ [Reg.recStat.off] := by
    simp only [Reg.hostSqCfg, Reg.recStat, List.mem_cons, List.not_mem_nil, or_false]
    omega
  have hnc : ∀ off, off = Reg.hostCntFetch.off ∨ off = Reg.hostCntFetch.high.off → off ≠ (Reg.hostSqCfg q).off := by
    simp only [Reg.hostCntFetch, RegRef.high, Reg.hostSqCfg]
    omega
  refine ⟨_, hexec', hfetch, ?_, ?_, ?_, ?_, k1, k2, k3⟩
  · have hlt : head < 2 ^ (23 + 1 - 12) := by
      refine Nat.lt_of_lt_of_le (Nat.mod_lt _ (Nat.pow_pos (by decide))) ?_
      exact Nat.pow_le_pow_right (by decide) hsz
    rw [State.sqHead, hpr.fld hne, h3, State.fld_setFld _ _ (by decide) (by decide), Nat.mod_eq_of_lt hlt]
  · rw [hpr.rd64 (by decide) (by decide), h3, State.rd64, State.rd_setFld_ne _ _ _ _ _ _ (hnc _ (Or.inl rfl)),
      State.rd_setFld_ne _ _ _ _ _ _ (hnc _ (Or.inr rfl))]
    exact hcnt
  · rw [hpf, hf3]
  · rw [hpf, hf3]

theorem submit_complete : Claims.SubmitComplete := fun s q rest r h =>
  ⟨submit_failed s q rest r h, fun hfw hq hack hsz => submit_arrives s q rest r h hfw hq hack hsz,
    fun hfw _ hack => submit_forwarded s q rest r h hfw hack⟩

end Sys2Proof.Machine

namespace Sys2Proof.Machine

/-! ### Counts at a target (R43, R293) -/

/-- What counting a request's units may change: the counts of the Lap, and of the registers the counters of requests served as
Open. -/
def Counted (s t : State) : Prop :=
  t = { s with regs := t.regs, m := { s.m with charged := t.m.charged, spread := t.m.spread } } ∧
  (∀ r : RegRef, r.off ≠ Reg.dirStat.off → (∀ ch, r.off ≠ (Reg.ddrStat ch).off) → t.rd r = s.rd r) ∧
  ∀ ch b, b < 16 → t.bit (Reg.ddrStat ch) b = s.bit (Reg.ddrStat ch) b

theorem Counted.refl (s : State) : Counted s s := ⟨rfl, fun _ _ _ => rfl, fun _ _ _ => rfl⟩

theorem Counted.trans {s t u : State} (h : Counted s t) (k : Counted t u) : Counted s u := by
  obtain ⟨h1, h2, h3⟩ := h
  obtain ⟨k1, k2, k3⟩ := k
  exact ⟨by rw [k1, h1], fun r hr hr' => (k2 r hr hr').trans (h2 r hr hr'), fun ch b hb => (k3 ch b hb).trans (h3 ch b hb)⟩

theorem Counted.countGrant (s : State) (k g : Nat) : Counted s (s.countGrant k g).1 := by
  unfold State.countGrant
  dsimp only
  split
  · exact Counted.refl s
  · exact ⟨rfl, fun _ _ _ => rfl, fun _ _ _ => rfl⟩

theorem Counted.countSpread (s : State) (k g c : Nat) : Counted s (s.countSpread k g c).1 :=
  ⟨rfl, fun _ _ _ => rfl, fun _ _ _ => rfl⟩

/-- A field that saturates leaves the fields beside it. -/
theorem State.fld_satInc_apart (s : State) (r : RegRef) {hi lo hi' lo' : Nat} (h : lo ≤ hi) (h32 : hi' < 32) (ha : hi' < lo ∨ hi < lo') :
    (s.satInc r hi lo).fld r hi' lo' = s.fld r hi' lo' := by
  unfold State.satInc
  split
  · exact s.fld_setFld_apart r h h32 ha _
  · rfl

theorem Counted.satInc_ddrStat (s : State) (ch : Nat) : Counted s (s.satInc (Reg.ddrStat ch) 31 16) := by
  obtain ⟨hf, hr⟩ := s.satInc_frame (Reg.ddrStat ch) 31 16
  refine ⟨?_, fun r _ hn => hr r (by simpa using hn ch), fun c b hb => ?_⟩
  · obtain ⟨x, hx⟩ : ∃ x, s.satInc (Reg.ddrStat ch) 31 16 = { s with regs := x } := ⟨_, hf⟩
    rw [hx]
  · by_cases hc : (Reg.ddrStat c).off = (Reg.ddrStat ch).off
    · have hcc : c = ch := by
        simp only [Reg.ddrStat] at hc
        omega
      subst hcc
      rw [State.bit, State.bit, s.fld_satInc_apart _ (by decide) (by omega) (by omega)]
    · exact hr.bit (by simpa using hc) b

theorem Counted.satInc_dirStat (s : State) : Counted s (s.satInc Reg.dirStat 31 0) := by
  obtain ⟨hf, hr⟩ := s.satInc_frame Reg.dirStat 31 0
  refine ⟨?_, fun r hn _ => hr r (by simpa using hn), fun c b _ => hr.bit ?_ b⟩
  · obtain ⟨x, hx⟩ : ∃ x, s.satInc Reg.dirStat 31 0 = { s with regs := x } := ⟨_, hf⟩
    rw [hx]
  · simp only [Reg.ddrStat, Reg.dirStat, List.mem_cons, List.not_mem_nil, or_false]
    omega

/-- A count of the grant, then of the spread, then of a counter. -/
theorem Counted.countTarget (s : State) (n off lap : Nat) (booked : Bool) : Counted s (s.countTarget n off lap booked).1 := by
  unfold State.countTarget
  dsimp only
  split
  · exact Counted.refl s
  · split
    · rename_i ch _ _
      have hg := Counted.countGrant s (n * 2 + lap % 2) (s.fld (Reg.staGiveBulk n) 23 0)
      split
      · rename_i s1 h1
        rw [h1] at hg
        exact hg
      · rename_i s1 h1
        rw [h1] at hg
        have hs := Counted.countSpread s1 (ch * 32 + n) (s.fld (Reg.staGiveBulk n) 23 0) (setBits s.blk.ddrOk).length
        split
        · rename_i s2 h2
          rw [h2] at hs
          exact hg.trans hs
        · rename_i s2 h2
          rw [h2] at hs
          exact (hg.trans hs).trans (Counted.satInc_ddrStat s2 ch)
    · rename_i d _ _
      have hg := Counted.countGrant s ((32 + n) * 2 + lap % 2) (s.fld (Reg.staGiveDir n) 19 0)
      split
      · rename_i s1 h1
        rw [h1] at hg
        exact hg
      · rename_i s1 h1
        rw [h1] at hg
        have hs := Counted.countSpread s1 ((12 + d) * 32 + n) (s.fld (Reg.staGiveDir n) 19 0) (setBits s.blk.qdrOk).length
        split
        · rename_i s2 h2
          rw [h2] at hs
          exact hg.trans hs
        · rename_i s2 h2
          rw [h2] at hs
          exact (hg.trans hs).trans (Counted.satInc_dirStat s2)
    · exact Counted.countGrant ..
    · split
      · exact Counted.refl s
      · exact Counted.countGrant ..
    · exact Counted.refl s
    · exact Counted.refl s

theorem Counted.countUnits (s : State) (part off n lap : Nat) (booked : Bool) : Counted s (s.countUnits part off n lap booked).1 := by
  have hfold : ∀ (l : List Nat) (a : State × Bool), Counted a.1 (l.foldl (fun (a : State × Bool) i =>
      let o := Nat.max off ((off / unitLen off + i) * unitLen off)
      let (t, b) := a.1.countTarget part o lap booked
      (t, a.2 && b)) a).1 := by
    intro l
    induction l with
    | nil => exact fun a => Counted.refl a.1
    | cons i t ih => exact fun a => (Counted.countTarget a.1 part _ lap booked).trans (ih _)
  exact hfold _ (s, booked)

theorem Counted.sameMap {s t : State} (h : Counted s t) : s.sameMap t := by
  obtain ⟨h1, h2, -⟩ := h
  have hr : ∀ r : RegRef, r.off % 0x10000 ≠ 4 → r.off ≠ Reg.dirStat.off → t.rd r = s.rd r := fun r hr hd => by
    refine h2 r hd fun ch hc => hr ?_
    rw [hc]
    simp only [Reg.ddrStat]
    omega
  refine ⟨?_, ?_, ?_, h2 _ (by decide) ?_, hr _ (by decide) (by decide), fun ch hch => hr _ ?_ ?_⟩
  · rw [h1]
  · rw [h1]
  · rw [h1]
  · intro ch
    simp only [Reg.ddrStat, Reg.pwrDuskStat]
    omega
  · simp only [Reg.ddrCfg]
    omega
  · simp only [Reg.ddrCfg, Reg.dirStat]
    omega

theorem Counted.lap {s t : State} (h : Counted s t) : t.lap = s.lap := by
  have htb : t.tb = s.tb := by rw [h.1]
  refine State.lap_congr htb (h.2.1 _ (by decide) fun ch => ?_)
  simp only [Reg.ddrStat, Reg.lapCfg]
  omega

/-! ### A read that meets no error (R26, R300, R305) -/

theorem State.failed_congr {s t : State} (hr : ∀ ch, t.bit (Reg.ddrStat ch) 2 = s.bit (Reg.ddrStat ch) 2)
    (he : t.m.expFailed = s.m.expFailed) (x : Tier) : t.failed x = s.failed x := by
  unfold State.failed
  split
  · exact hr _
  · rw [he]
  all_goals rfl

theorem State.byteIn_congr {s t : State} (h : s.sameMap t) (hc : t.freeCtr = s.freeCtr) {m m' : Memory} (hm : m'.mem = m.mem)
    (hw : m'.written = m.written) (off : Nat) : t.byteIn m' off = s.byteIn m off := by
  unfold State.byteIn
  rw [State.tier_congr h, hc, hm, hw]

theorem State.touchLine_frame (s : State) (off : Nat) : ∃ d, s.touchLine off = { s with m := { s.m with dirBuf := d } } := by
  unfold State.touchLine State.bufferLine
  split
  · split
    · exact ⟨_, rfl⟩
    · exact ⟨_, rfl⟩
  all_goals exact ⟨_, rfl⟩

/-- A read in which no unit found an error takes none, and changes at most which lines a device has buffered. -/
theorem State.takeFound_clean {s : State} (h : s.m.found = []) (off : Nat) :
    ∃ d, s.takeFound off = ({ s with m := { s.m with dirBuf := d } }, false) := by
  unfold State.takeFound
  dsimp only
  split
  · obtain ⟨d, hd⟩ := s.touchLine_frame off
    exact ⟨d, by rw [hd]⟩
  · have hg : SMap.get Upset.clean s.m.found (unitOf (s.tier off) off) = .clean := by rw [h]; rfl
    rw [hg]
    exact ⟨s.m.dirBuf, rfl⟩

/-- A read of good memory of this part gives its bytes. -/
theorem State.readLocal_clean {s : State} (src : Src) {off n : Nat} (hh : s.m.health = []) (hfound : s.m.found = []) (hq : s.m.memq = [])
    (hf : s.failed (s.tier off) = false) (h1 : (s.tier off).isMem = true) (h2 : (s.tier (off + n - 1)).isMem = true) :
    ∃ d, s.readLocal src off n = ({ s with m := { s.m with dirBuf := d } }, .ok,
      (List.range n).map (fun i => s.byteIn s.m (off + i))) := by
  have hfold : ∀ (l : List Nat) (u : State), u.m.found = [] → ∃ d, l.foldl (fun (a : State × Bool) o =>
      let (t, b) := a.1.takeFound o
      (t, a.2 || b)) (u, false) = ({ u with m := { u.m with dirBuf := d } }, false) := by
    intro l
    induction l with
    | nil => exact fun u _ => ⟨u.m.dirBuf, rfl⟩
    | cons o t ih =>
      intro u hu
      obtain ⟨d1, h1⟩ := State.takeFound_clean hu o
      obtain ⟨d2, h2⟩ := ih { u with m := { u.m with dirBuf := d1 } } hu
      refine ⟨d2, ?_⟩
      rw [List.foldl_cons, h1]
      exact h2
  obtain ⟨d, hd⟩ := hfold (touched 16 off n) s hfound
  refine ⟨d, ?_⟩
  obtain ⟨t, ht⟩ : ∃ t : State, t = { s with m := { s.m with dirBuf := d } } := ⟨_, rfl⟩
  have hmap : s.sameMap t := by rw [ht]; exact ⟨rfl, rfl, rfl, rfl, rfl, fun _ _ => rfl⟩
  have hfail : t.failed (t.tier off) = false := by
    rw [State.tier_congr hmap, ht]
    exact hf
  have hseen : t.m.seenBy src = t.m := by
    have hmq : t.m.memq = [] := by rw [ht]; exact hq
    rw [Memory.seenBy, hmq]
    rfl
  have hmark : (touched 8 off n).filter (fun o => SMap.get Health.good t.m.health (healthKey o) = .poisoned) = [] := by
    have hth : t.m.health = [] := by rw [ht]; exact hh
    rw [hth, List.filter_eq_nil_iff]
    intro o _
    simp [SMap.get]
  have hbyte : ∀ a, t.byteIn t.m a = s.byteIn s.m a := fun a => State.byteIn_congr hmap (by rw [ht]) (by rw [ht]) (by rw [ht]) a
  unfold State.readLocal
  rw [if_neg (by rw [h1, h2]; decide)]
  rw [hd, ← ht]
  dsimp only
  rw [hseen, hmark, hfail, if_neg (by decide), if_neg (by decide)]
  simp only [hbyte]

/-! ### The cost vector's read (R45, R51, R298) -/

theorem State.sameMap.trans {s t u : State} (h : s.sameMap t) (k : t.sameMap u) : s.sameMap u := by
  obtain ⟨h1, h2, h3, h4, h5, h6⟩ := h
  obtain ⟨k1, k2, k3, k4, k5, k6⟩ := k
  exact ⟨k1.trans h1, k2.trans h2, k3.trans h3, k4.trans h4, k5.trans h5, fun ch hch => (k6 ch hch).trans (h6 ch hch)⟩

/-- Charging a component to the present row changes nothing else. -/
theorem State.chargeRow_frame {s s1 : State} {off n : Nat} (h : s.chargeRow off n = some s1) :
    ∃ x, s1 = { s with sta := { s.sta with rows := x } } := by
  unfold State.chargeRow at h
  dsimp only at h
  split at h
  · cases h; exact ⟨_, rfl⟩
  · split at h
    case h_4 | h_5 | h_6 => cases h
    all_goals
      split at h
      · cases h; exact ⟨_, rfl⟩
      · cases h

/-- An uncorrectable error in a read leaves the Starter. -/
theorem State.sta_ueEvent (s : State) (off : Nat) : (s.ueEvent off).sta = s.sta := by
  have hp : (s.poisonWord off).sta = s.sta := by
    unfold State.poisonWord
    split <;> rfl
  have hi : ∀ (u : State) (r : RegRef), (u.satInc r 31 0).sta = u.sta := fun u r => by rw [(u.satInc_frame r 31 0).1]
  rw [State.ueEvent, State.ueCount, (Filed.fault ..).sta]
  split
  · rw [State.add64_sta, hp]
  · rw [State.add64_sta, hp]
  · rw [hi, hp]
  · rw [State.add64_sta, hp]
  · exact hp
  · exact hp

/-- The state in which a cost vector is read: its row charged, its units counted, and the submission waiting no more. -/
def State.cvState (s s1 : State) (off n : Nat) (rest : List Subm) : State :=
  { (s1.countUnits s.pos off n s.lap true).1 with
    sta := { (s1.countUnits s.pos off n s.lap true).1.sta with cvReads := rest } }

theorem execCostVectorRead_eq {s : State} {m : Subm} {rest : List Subm} (h : s.sta.cvReads = m :: rest) (ue : Bool) :
    exec (.costVectorRead ue) s =
      match s.chargeRow (m.r.cvDpa % 2 ^ 46) (s.cvBytes (m.r.cvDpa % 2 ^ 46)) with
      | none => .next s
      | some s1 =>
        if s.heldAt (m.r.cvDpa % 2 ^ 46) then .next s
        else if ue then
          .next (((s.cvState s1 (m.r.cvDpa % 2 ^ 46) (s.cvBytes (m.r.cvDpa % 2 ^ 46)) rest).ueEvent
            (m.r.cvDpa % 2 ^ 46)).enterIntake { m with location := true })
        else
          match (s.cvState s1 (m.r.cvDpa % 2 ^ 46) (s.cvBytes (m.r.cvDpa % 2 ^ 46)) rest).readLocal
            (.master (s.cvState s1 (m.r.cvDpa % 2 ^ 46) (s.cvBytes (m.r.cvDpa % 2 ^ 46)) rest).pos 35) (m.r.cvDpa % 2 ^ 46)
            (s.cvBytes (m.r.cvDpa % 2 ^ 46)) with
          | (s4, .ok, bs) => .next (s4.enterIntake { m with cv := costVecOf bs })
          | (s4, _, _) => .next (s4.enterIntake { m with location := true }) := by
  change execCostVectorRead ue s = _
  rw [execCostVectorRead, h]
  rfl

/-- What the read's state keeps of the state before it. -/
theorem State.cvState_frame {s s1 : State} {off n : Nat} {rest : List Subm} (h : s.chargeRow off n = some s1) :
    s.sameMap (s.cvState s1 off n rest) ∧
    (s.cvState s1 off n rest).sta = { s1.sta with cvReads := rest } ∧ s1.sta.intake = s.sta.intake ∧
    (s.cvState s1 off n rest).m = { s.m with
      charged := (s.cvState s1 off n rest).m.charged, spread := (s.cvState s1 off n rest).m.spread } ∧
    (s.cvState s1 off n rest).freeCtr = s.freeCtr ∧
    (∀ x, (s.cvState s1 off n rest).failed x = s.failed x) := by
  obtain ⟨x, hx⟩ := State.chargeRow_frame h
  have hc := Counted.countUnits s1 s.pos off n s.lap true
  obtain ⟨s2, h2⟩ : ∃ s2 : State, s2 = (s1.countUnits s.pos off n s.lap true).1 := ⟨_, rfl⟩
  rw [← h2] at hc
  have h3 : s.cvState s1 off n rest = { s2 with sta := { s2.sta with cvReads := rest } } := by rw [h2]; rfl
  obtain ⟨s3, hs3⟩ : ∃ s3 : State, s3 = s.cvState s1 off n rest := ⟨_, rfl⟩
  rw [← hs3] at h3 ⊢
  have hs2 : s2.sta = s1.sta := by rw [hc.1]
  have hm2 : s2.m = { s1.m with charged := s2.m.charged, spread := s2.m.spread } := by rw [hc.1]
  have hm1 : s1.m = s.m := by rw [hx]
  have hm3 : s3.m = s2.m := by rw [h3]
  have hbit : ∀ ch, s3.bit (Reg.ddrStat ch) 2 = s.bit (Reg.ddrStat ch) 2 := fun ch => by
    have h32 : s3.bit (Reg.ddrStat ch) 2 = s2.bit (Reg.ddrStat ch) 2 := by rw [h3]; rfl
    have h1s : s1.bit (Reg.ddrStat ch) 2 = s.bit (Reg.ddrStat ch) 2 := by rw [hx]; rfl
    rw [h32, hc.2.2 ch 2 (by decide), h1s]
  have hmap1 : s.sameMap s1 := by rw [hx]; exact ⟨rfl, rfl, rfl, rfl, rfl, fun _ _ => rfl⟩
  have hmap3 : s2.sameMap s3 := by rw [h3]; exact ⟨rfl, rfl, rfl, rfl, rfl, fun _ _ => rfl⟩
  refine ⟨(hmap1.trans hc.sameMap).trans hmap3, ?_, ?_, ?_, ?_, State.failed_congr hbit ?_⟩
  · rw [h3, hs2]
  · rw [hx]
  · rw [hm3, ← hm1]; exact hm2
  · have hf3 : s3.freeCtr = s2.freeCtr := by rw [h3]
    have hf2 : s2.freeCtr = s1.freeCtr := by rw [hc.1]
    have hf1 : s1.freeCtr = s.freeCtr := by rw [hx]
    rw [hf3, hf2, hf1]
  · rw [hm3, hm2, hm1]

theorem State.sta_enterIntake (s : State) (m : Subm) : (s.enterIntake m).sta = { s.sta with intake := s.sta.intake ++ [m] } := by
  rw [(s.enterIntake_frame m).1]

theorem costVectorRead_complete : Claims.CostVectorReadComplete := by
  intro s m rest h off n
  refine ⟨fun ue hw => ?_, fun s1 hc hh => ⟨?_, fun hgood hfound hq hf h1 h2 => ?_⟩⟩
  · rw [execCostVectorRead_eq h]
    cases hc : s.chargeRow (m.r.cvDpa % 2 ^ 46) (s.cvBytes (m.r.cvDpa % 2 ^ 46)) with
    | none => rfl
    | some s1 =>
      have hheld : s.heldAt (m.r.cvDpa % 2 ^ 46) = true := hw.resolve_left fun hn => by
        rw [show s.chargeRow off n = some s1 from hc] at hn
        cases hn
      dsimp only
      rw [if_pos hheld]
  · have hexec := execCostVectorRead_eq h true
    rw [show s.chargeRow (m.r.cvDpa % 2 ^ 46) (s.cvBytes (m.r.cvDpa % 2 ^ 46)) = some s1 from hc] at hexec
    dsimp only at hexec
    rw [show s.heldAt (m.r.cvDpa % 2 ^ 46) = false from hh, if_neg (by decide), if_pos rfl] at hexec
    obtain ⟨-, hsta, hin, -, -, -⟩ := State.cvState_frame (rest := rest) hc
    have hrow : ∀ t : State, t.sta.rows = s1.sta.rows → t.row s.lap = s1.row s.lap := fun t ht => by rw [State.row, ht]; rfl
    refine ⟨_, hexec, ?_, ?_, hrow _ ?_⟩
    · rw [State.sta_enterIntake, State.sta_ueEvent, hsta]
    · rw [State.sta_enterIntake, State.sta_ueEvent, hsta, ← hin]
    · rw [State.sta_enterIntake, State.sta_ueEvent, hsta]
  · have hexec := execCostVectorRead_eq h false
    rw [show s.chargeRow (m.r.cvDpa % 2 ^ 46) (s.cvBytes (m.r.cvDpa % 2 ^ 46)) = some s1 from hc] at hexec
    dsimp only at hexec
    rw [show s.heldAt (m.r.cvDpa % 2 ^ 46) = false from hh, if_neg (by decide), if_neg (by decide)] at hexec
    obtain ⟨hmap, hsta, hin, hm, hfc, hfail⟩ := State.cvState_frame (rest := rest) hc
    obtain ⟨s3, hs3⟩ : ∃ s3 : State, s3 = s.cvState s1 off n rest := ⟨_, rfl⟩
    rw [← hs3] at hmap hsta hm hfc hfail
    obtain ⟨d, hd⟩ := State.readLocal_clean (s := s3) (.master s3.pos 35) (off := off) (n := n) (by rw [hm]; exact hgood)
      (by rw [hm]; exact hfound) (by rw [hm]; exact hq) (by rw [State.tier_congr hmap, hfail]; exact hf)
      (by rw [State.tier_congr hmap]; exact h1) (by rw [State.tier_congr hmap]; exact h2)
    have hbyte : ∀ a, s3.byteIn s3.m a = s.byteIn s.m a := fun a => State.byteIn_congr hmap hfc (by rw [hm]) (by rw [hm]) a
    rw [show s.cvState s1 (m.r.cvDpa % 2 ^ 46) (s.cvBytes (m.r.cvDpa % 2 ^ 46)) rest = s3 from hs3.symm,
      show s3.readLocal (.master s3.pos 35) (m.r.cvDpa % 2 ^ 46) (s.cvBytes (m.r.cvDpa % 2 ^ 46)) = _ from hd] at hexec
    dsimp only at hexec
    have hrow : ∀ t : State, t.sta.rows = s1.sta.rows → t.row s.lap = s1.row s.lap := fun t ht => by rw [State.row, ht]; rfl
    refine ⟨_, hexec, ?_, ?_, hrow _ ?_, ?_⟩
    · rw [State.sta_enterIntake, hsta]
    · rw [State.sta_enterIntake, hsta, ← hin]
      simp only [hbyte]
    · rw [State.sta_enterIntake, hsta]
    · rw [(State.enterIntake_frame _ _).1]
      exact (congrArg Memory.mem hm :)

end Sys2Proof.Machine

namespace Sys2Proof.Machine

/-! ### Posting a record (R48, R472, R474, R475) -/

/-- A record has gone out: its queue has moved on, the post is counted, and its Task Table entry freed where it may be. -/
def Posted (s t : State) (q : Nat) (r : CRec) (rest : List CRec) : Prop :=
  ∃ more, (t.cq q).held = rest ∧
    t.host.out = s.host.out ++ .record q (s.cqTail q) (if (s.cq q).phase then r.w0 ||| 0x100000000 else r.w0) r.w1 r.w2 r.w3 :: more ∧
    (∀ o ∈ more, ∃ v, o = .msix v) ∧ t.cqTail q = (s.cqTail q + 1) % s.cqSize q ∧
    (t.cq q).phase = (if (s.cqTail q + 1) % s.cqSize q = 0 then !(s.cq q).phase else (s.cq q).phase) ∧
    t.rd64 Reg.hostCntPost = s.rd64 Reg.hostCntPost + 1 ∧ t.m = s.m ∧ t.engines = s.engines ∧
    (∀ x, r.frees = some x → s.actMode.mirrored = false → t.task x = Task.empty) ∧
    (∀ x, r.frees ≠ some x → t.task x = s.task x)

/-- A vector is sent or left pending. -/
theorem State.sendMsix_frame (s : State) (v : Nat) : ∃ x o, s.sendMsix v = { s with host := { s.host with msixPend := x, out := s.host.out ++ o } } ∧
    ∀ y ∈ o, ∃ v, y = .msix v := by
  unfold State.sendMsix
  split
  · exact ⟨_, [], by rw [List.append_nil], by simp⟩
  · exact ⟨s.host.msixPend, [.msix v], rfl, by simp⟩

theorem State.sendPair_ring (s : State) (ty : Nat) (ws : List W64) : ∃ x, s.sendPair ty ws = { s with ring := x } := ⟨_, rfl⟩

/-- The state in which a record has left its queue: the record is out, and TAIL and the phase have moved on. -/
def State.sentOut (s : State) (q : Nat) (w0 : W64) (r : CRec) (rest : List CRec) : State :=
  ((s.updCq q (fun c => { c with held := rest })).emit (.record q (s.cqTail q) w0 r.w1 r.w2 r.w3)).advanceTail q

theorem State.cq_updCq (s : State) (q : Nat) (f : CQueue → CQueue) : (s.updCq q f).cq q = f (s.cq q) := SMap.get_set_self _ _ _ _

theorem State.sentOut_frame {s : State} {q : Nat} (hsz : s.fld (Reg.hostCqCfg q) 4 0 ≤ 16) (w0 : W64) (r : CRec) (rest : List CRec) :
    s.sentOut q w0 r rest = { s with regs := (s.sentOut q w0 r rest).regs, host := (s.sentOut q w0 r rest).host } ∧
    OnlyRegs s (s.sentOut q w0 r rest) [(Reg.hostCqCfg q).off] ∧
    (s.sentOut q w0 r rest).cqTail q = (s.cqTail q + 1) % s.cqSize q ∧
    (s.sentOut q w0 r rest).host.out = s.host.out ++ [.record q (s.cqTail q) w0 r.w1 r.w2 r.w3] ∧
    ((s.sentOut q w0 r rest).cq q).held = rest ∧
    ((s.sentOut q w0 r rest).cq q).phase = (if (s.cqTail q + 1) % s.cqSize q = 0 then !(s.cq q).phase else (s.cq q).phase) := by
  obtain ⟨s1, h1⟩ : ∃ s1 : State, s1 = s.updCq q (fun c => { c with held := rest }) := ⟨_, rfl⟩
  obtain ⟨s2, h2⟩ : ∃ s2 : State, s2 = s1.emit (.record q (s.cqTail q) w0 r.w1 r.w2 r.w3) := ⟨_, rfl⟩
  obtain ⟨n, hn⟩ : ∃ n, n = (s.cqTail q + 1) % s.cqSize q := ⟨_, rfl⟩
  obtain ⟨s3, h3⟩ : ∃ s3 : State, s3 = s2.setFld (Reg.hostCqCfg q) 20 5 n := ⟨_, rfl⟩
  have hr2 : ∀ x, s2.rd x = s.rd x := fun x => by rw [h2, h1]; rfl
  have hf2 : ∀ x hi lo, s2.fld x hi lo = s.fld x hi lo := fun x hi lo => by rw [State.fld, State.fld, hr2]
  have ht : s.sentOut q w0 r rest = s3.updCq q (fun c => { c with phase := if n = 0 then !c.phase else c.phase }) := by
    have hct : s2.cqTail q = s.cqTail q := hf2 _ _ _
    have hcs : s2.cqSize q = s.cqSize q := by rw [State.cqSize, State.cqSize, hf2]
    have hn2 : (s2.cqTail q + 1) % s2.cqSize q = n := by rw [hct, hcs, hn]
    rw [State.sentOut, ← h1, ← h2, State.advanceTail, hn2, h3]
  have hcq1 : s1.cq q = { s.cq q with held := rest } := by rw [h1, State.cq_updCq]
  have hcq3 : s3.cq q = { s.cq q with held := rest } := by
    have hh : s3.host.cq = s1.host.cq := by rw [h3, State.setFld_regs, h2]; rfl
    rw [State.cq, hh]
    exact hcq1
  have hcqt : (s.sentOut q w0 r rest).cq q =
      { s.cq q with held := rest, phase := if n = 0 then !(s.cq q).phase else (s.cq q).phase } := by
    rw [ht, State.cq_updCq, hcq3]
  have hf3 : s3 = { s with regs := s3.regs, host := s3.host } := by rw [h3, State.setFld_regs, h2, h1]; rfl
  have hlt : n < 2 ^ (20 + 1 - 5) := by
    rw [hn]
    refine Nat.lt_of_lt_of_le (Nat.mod_lt _ (Nat.pow_pos (by decide))) ?_
    exact Nat.pow_le_pow_right (by decide) hsz
  have htail : s3.cqTail q = n := by
    rw [State.cqTail, h3, State.fld_setFld _ _ (by decide) (by decide), Nat.mod_eq_of_lt hlt]
  have hout : s3.host.out = s.host.out ++ [.record q (s.cqTail q) w0 r.w1 r.w2 r.w3] := by
    rw [h3, State.setFld_regs, h2, h1]; rfl
  refine ⟨?_, ?_, ?_, ?_, ?_, ?_⟩
  · rw [ht, hf3]; rfl
  · have hr3 : OnlyRegs s2 s3 [(Reg.hostCqCfg q).off] := by rw [h3]; exact OnlyRegs.wr s2 (by simp) _
    intro x hx
    have h0 : (s.sentOut q w0 r rest).rd x = s3.rd x := by rw [ht]; rfl
    rw [h0, hr3 x hx, hr2]
  · have h0 : (s.sentOut q w0 r rest).cqTail q = s3.cqTail q := by rw [ht]; rfl
    rw [h0, htail, hn]
  · have h0 : (s.sentOut q w0 r rest).host.out = s3.host.out := by rw [ht]; rfl
    rw [h0, hout]
  · rw [hcqt]
  · rw [hcqt, hn]

/-- A posted record frees the entry of its Task at once outside mirrored operation; in it the entry waits. -/
theorem State.freePosted_frame (s : State) (r : CRec) : ∃ x y,
    s.freePosted r = { s with sta := { s.sta with tasks := x }, pair := y } ∧
    (∀ t, r.frees = some t → s.actMode.mirrored = false → SMap.get Task.empty x t = Task.empty) ∧
    ∀ t, r.frees ≠ some t → SMap.get Task.empty x t = s.task t := by
  cases hr : r.frees with
  | none =>
    refine ⟨s.sta.tasks, s.pair, ?_, (fun t ht => nomatch ht), fun _ _ => rfl⟩
    rw [State.freePosted, hr]
  | some k =>
    cases hm : s.actMode.mirrored with
    | true =>
      refine ⟨s.sta.tasks, { s.pair with postedFree := s.pair.postedFree ++ [(k, s.lap + 1)] }, ?_, (fun _ _ h => nomatch h), fun _ _ => rfl⟩
      rw [State.freePosted, hr]
      dsimp only
      rw [hm, if_pos rfl]
    | false =>
      refine ⟨(s.updTask k (fun _ => Task.empty)).sta.tasks, s.pair, ?_, fun t ht _ => ?_, fun t ht => ?_⟩
      · rw [State.freePosted, hr]
        dsimp only
        rw [hm, if_neg (by decide)]
        rfl
      · cases ht
        exact s.task_updTask k _
      · exact s.task_updTask_ne _ fun hk => ht (by rw [hk])

/-- What may follow a posted record leaves it posted: a vector, and changes of registers apart from its queue's and the count. -/
theorem Posted.congr {s t u : State} {q : Nat} {r : CRec} {rest : List CRec} (h : Posted s t q r rest) {o : List Out}
    (ho : ∀ y ∈ o, ∃ v, y = .msix v) (hcq : u.host.cq = t.host.cq) (hout : u.host.out = t.host.out ++ o)
    (hreg : u.rd (Reg.hostCqCfg q) = t.rd (Reg.hostCqCfg q)) (hcnt : u.rd64 Reg.hostCntPost = t.rd64 Reg.hostCntPost) (hm : u.m = t.m)
    (he : u.engines = t.engines) (hsta : u.sta = t.sta) : Posted s u q r rest := by
  obtain ⟨more, h1, h2, h3, h4, h5, h6, h7, h8, h9, h10⟩ := h
  have hc : u.cq q = t.cq q := by rw [State.cq, hcq]; rfl
  have ht : ∀ x, u.task x = t.task x := fun x => by rw [State.task, hsta]; rfl
  have htail : u.cqTail q = t.cqTail q := by rw [State.cqTail, State.cqTail, State.fld, State.fld, hreg]
  refine ⟨more ++ o, by rw [hc, h1], ?_, fun y hy => ?_, by rw [htail, h4], by rw [hc, h5], by rw [hcnt, h6], by rw [hm, h7],
    by rw [he, h8], fun x hx hmir => by rw [ht, h9 x hx hmir], fun x hx => by rw [ht, h10 x hx]⟩
  · rw [hout, h2, List.append_assoc, List.cons_append]
  · exact (List.mem_append.1 hy).elim (h3 y) (ho y)

theorem Posted.sendMsix {s t : State} {q : Nat} {r : CRec} {rest : List CRec} (h : Posted s t q r rest) (v : Nat) :
    Posted s (t.sendMsix v) q r rest := by
  obtain ⟨x, o, hf, ho⟩ := t.sendMsix_frame v
  rw [hf]
  exact h.congr ho rfl rfl rfl rfl rfl rfl rfl

/-- R472: the first record of a queue that may post it goes out. -/
theorem State.post_posted {s : State} {q ty : Nat} {r : CRec} {rest : List CRec} (hposts : s.posts = true) (hq : q < 64)
    (hen : s.bit (Reg.hostCqCfg q) 31 = true) (hfull : s.cqFull q = false) (hheld : (s.cq q).held = r :: rest)
    (hsz : s.fld (Reg.hostCqCfg q) 4 0 ≤ 16) (hty : bitsOf r.w0.toNat 7 0 = ty) : Posted s (s.post q ty) q r rest := by
  have hmode : s.actMode ≠ .replay := by
    simp only [State.posts, Bool.and_eq_true, decide_eq_true_eq] at hposts
    exact hposts.1.1.2
  obtain ⟨w0, hw⟩ : ∃ w0 : W64, w0 = r.w0 ||| (if (s.cq q).phase then 0x100000000 else 0) := ⟨_, rfl⟩
  obtain ⟨s1, h1⟩ : ∃ s1 : State, s1 = s.sentOut q w0 r rest := ⟨_, rfl⟩
  obtain ⟨s2, h2⟩ : ∃ s2 : State, s2 = s1.add64 Reg.hostCntPost 1 := ⟨_, rfl⟩
  obtain ⟨s3, h3⟩ : ∃ s3 : State, s3 = s2.sendMsix (s.fld (Reg.hostCqCfg q) 29 23) := ⟨_, rfl⟩
  have hpost : s.post q ty = if s.forwarding then (s3.freePosted r).sendPair 0x6 [BitVec.ofNat 64 (bitsOf r.w1.toNat 15 0),
      BitVec.ofNat 64 (bitsOf r.w0.toNat 47 40 * 65536 + bitsOf r.w0.toNat 63 48)] else s3.freePosted r := by
    rw [State.post, hheld]
    dsimp only
    rw [if_neg (by simp [hmode]), if_pos (by simp [hposts, hq, hen, hfull, hty]), ← hw, h3, h2, h1]
    rfl
  have hw0 : w0 = if (s.cq q).phase then r.w0 ||| 0x100000000 else r.w0 := by
    rw [hw]
    split
    · rfl
    · exact BitVec.or_zero
  obtain ⟨hf1, hr1, htail, hout, hrest, hphase⟩ := State.sentOut_frame hsz w0 r rest
  rw [← h1] at hf1 hr1 htail hout hrest hphase
  have hne : (Reg.hostCqCfg q).off ∉ [Reg.hostCntPost.off, Reg.hostCntPost.off + 4] := by
    simp only [Reg.hostCqCfg, Reg.hostCntPost, List.mem_cons, List.not_mem_nil, or_false]
    omega
  have hf2 : s2 = { s1 with regs := s2.regs } := by rw [h2]; exact s1.add64_regs _ 1
  have hr2 : OnlyRegs s1 s2 [Reg.hostCntPost.off, Reg.hostCntPost.off + 4] := by
    rw [h2]; exact OnlyRegs.add64 s1 (by simp) (by simp) 1
  have hhost2 : s2.host = s1.host := by rw [hf2]
  have hcq2 : s2.cq q = s1.cq q := by rw [State.cq, hhost2]; rfl
  have hsta2 : s2.sta = s.sta := by
    have : s1.sta = s.sta := by rw [hf1]
    rw [← this, hf2]
  have htask2 : ∀ x, s2.task x = s.task x := fun x => by rw [State.task, hsta2]; rfl
  have hcnt2 : s2.rd64 Reg.hostCntPost = s.rd64 Reg.hostCntPost + 1 := by
    have hlo : Reg.hostCntPost.off ∉ [(Reg.hostCqCfg q).off] := by
      simp only [Reg.hostCqCfg, Reg.hostCntPost, List.mem_cons, List.not_mem_nil, or_false]
      omega
    have hhi : Reg.hostCntPost.off + 4 ∉ [(Reg.hostCqCfg q).off] := by
      simp only [Reg.hostCqCfg, Reg.hostCntPost, List.mem_cons, List.not_mem_nil, or_false]
      omega
    rw [h2, State.rd64_add64, hr1.rd64 hlo hhi]
    rfl
  obtain ⟨x, o, hf3, ho⟩ := s2.sendMsix_frame (s.fld (Reg.hostCqCfg q) 29 23)
  rw [← h3] at hf3
  obtain ⟨x', y', hf4, hfree, hkeep⟩ := s3.freePosted_frame r
  obtain ⟨s4, h4⟩ : ∃ s4 : State, s4 = s3.freePosted r := ⟨_, rfl⟩
  rw [← h4] at hpost hf4
  have hact3 : s3.actMode = s.actMode := by
    have hoff : ∀ off, off < 0xD00000 → off ∉ [Reg.hostCntPost.off, Reg.hostCntPost.off + 4] ∧ off ∉ [(Reg.hostCqCfg q).off] := by
      intro off h
      simp only [Reg.hostCqCfg, Reg.hostCntPost, List.mem_cons, List.not_mem_nil, or_false]
      omega
    obtain ⟨ho2, ho1⟩ := hoff Reg.pwrDuskStat.off (by decide)
    have hm : s3.mode = s.mode := by rw [hf3, hf2, hf1]
    have hd : s3.drainMode = s.drainMode := by rw [hf3, hf2, hf1]
    have hreg3 : s3.rd Reg.pwrDuskStat = s2.rd Reg.pwrDuskStat := by rw [hf3]; rfl
    exact State.actMode_congr hm hd (by rw [hreg3, hr2 _ ho2, hr1 _ ho1])
  have htask3 : ∀ t, s3.task t = s.task t := fun t => by
    have hsta3 : s3.sta = s2.sta := by rw [hf3]
    rw [State.task, hsta3]
    exact htask2 t
  have hhost4 : s4.host = s3.host := by rw [hf4]
  have hcq4 : s4.cq q = s1.cq q := by
    have hcq3 : s3.host.cq = s2.host.cq := by rw [hf3]
    rw [State.cq, hhost4, hcq3]
    exact hcq2
  have hregs4 : ∀ a, s4.rd a = s2.rd a := fun a => by
    have h43 : s4.regs = s3.regs := by rw [hf4]
    have h32 : s3.regs = s2.regs := by rw [hf3]
    rw [State.rd, h43, h32]; rfl
  have hposted : Posted s s4 q r rest := by
    refine ⟨o, by rw [hcq4, hrest], ?_, ho, ?_, by rw [hcq4, hphase], ?_, ?_, ?_, fun t ht hmir => ?_, fun t ht => ?_⟩
    · rw [hhost4, hf3, hhost2, hout, hw0]
      simp
    · rw [← htail, State.cqTail, State.cqTail, State.fld, State.fld, hregs4, hr2 _ hne]
    · rw [← hcnt2, State.rd64, State.rd64, hregs4, hregs4]
    · rw [hf4, hf3, hf2, hf1]
    · rw [hf4, hf3, hf2, hf1]
    · rw [State.task, hf4]
      exact hfree t ht (by rw [hact3]; exact hmir)
    · rw [State.task, hf4]
      exact (hkeep t ht).trans (htask3 t)
  rw [hpost]
  split
  · obtain ⟨g, hg⟩ := s4.sendPair_ring 0x6 [BitVec.ofNat 64 (bitsOf r.w1.toNat 15 0),
      BitVec.ofNat 64 (bitsOf r.w0.toNat 47 40 * 65536 + bitsOf r.w0.toNat 63 48)]
    rw [hg]
    exact hposted.congr (o := []) (by simp) rfl (by rw [List.append_nil]) rfl rfl rfl rfl rfl
  · exact hposted

theorem post_executes {s : State} {q ty : Nat} {c : Nat → Instr}
    (hc : (ty, c) ∈ [(1, Instr.complete), (2, Instr.accept), (3, Instr.notice)]) :
    (ty ≠ 3 ∧ exec (c q) s = .next (s.post q ty)) ∨ (ty = 3 ∧ c = Instr.notice) := by
  simp only [List.mem_cons, Prod.mk.injEq, List.not_mem_nil, or_false] at hc
  obtain ⟨rfl, rfl⟩ | ⟨rfl, rfl⟩ | ⟨rfl, rfl⟩ := hc
  · exact .inl ⟨by decide, rfl⟩
  · exact .inl ⟨by decide, rfl⟩
  · exact .inr ⟨rfl, rfl⟩

/-- R483: a notice that has gone out sets its status bit and sends its own vector too. -/
theorem notice_executes {s : State} {q : Nat} {r : CRec} {rest : List CRec} (hheld : (s.cq q).held = r :: rest)
    (hty : bitsOf r.w0.toNat 7 0 = 3) (hp : Posted s (s.post q 3) q r rest) :
    exec (.notice q) s = .next (((s.post q 3).setBit Reg.hostStat 20 true).sendMsix (s.fld Reg.hostCfg 6 0)) := by
  obtain ⟨more, hrest, -⟩ := hp
  change execNotice q s = _
  rw [execNotice, hheld]
  dsimp only
  rw [if_pos ⟨hty, by rw [hrest]; simp⟩]

theorem Posted.setNotice {s t : State} {q : Nat} {r : CRec} {rest : List CRec} (h : Posted s t q r rest) :
    Posted s (t.setBit Reg.hostStat 20 true) q r rest := by
  have hr : OnlyRegs t (t.setBit Reg.hostStat 20 true) [Reg.hostStat.off] := OnlyRegs.wr t (by simp) _
  have hf := t.setBit_regs Reg.hostStat 20 true
  refine h.congr (o := []) (by simp) (by rw [hf]) (by rw [hf, List.append_nil]) (hr _ ?_) (hr.rd64 (by decide) (by decide))
    (by rw [hf]) (by rw [hf]) (by rw [hf])
  simp only [Reg.hostCqCfg, Reg.hostStat, List.mem_cons, List.not_mem_nil, or_false]
  omega

theorem posting_complete : Claims.PostingComplete := by
  intro s q ty c r rest hc hposts hq hen hfull hheld hsz hty w0
  have hposted := State.post_posted hposts hq hen hfull hheld hsz hty
  obtain ⟨hn, hexec⟩ | ⟨rfl, rfl⟩ := post_executes (s := s) (q := q) hc
  · obtain ⟨more, k⟩ := hposted
    obtain ⟨k1, k2, k3, k4, k5, k6, k7, k8, k9, k10⟩ := k
    exact ⟨_, more, hexec, k1, k2, k3, k4, k5, k6, k7, k8, k9, k10, fun h => absurd h hn⟩
  · have hexec := notice_executes hheld hty hposted
    have hset := hposted.setNotice
    have hb := (s.post q 3).bit_setBit Reg.hostStat (b := 20) (by decide) true
    obtain ⟨t, ht⟩ : ∃ t : State, t = (s.post q 3).setBit Reg.hostStat 20 true := ⟨_, rfl⟩
    rw [← ht] at hexec hset hb
    obtain ⟨more, k1, k2, k3, k4, k5, k6, k7, k8, k9, k10⟩ := hset.sendMsix (s.fld Reg.hostCfg 6 0)
    refine ⟨_, more, hexec, k1, k2, k3, k4, k5, k6, k7, k8, k9, k10, fun _ => ?_⟩
    obtain ⟨x, o, hf, -⟩ := t.sendMsix_frame (s.fld Reg.hostCfg 6 0)
    rw [hf]
    exact hb

/-- Settles O43: each command by the state its rule leads to. -/
theorem submissionsAndPosting : Obligations.SubmissionsAndPosting :=
  ⟨sqFetch_complete, submit_complete, costVectorRead_complete, posting_complete⟩

end Sys2Proof.Machine

namespace Sys2Proof.Machine

/-! ### Responses waiting during a read (R368) -/

theorem Filed.answers {s t : State} (h : Filed s t) : t.ring.answers = s.ring.answers := by rw [h.1]

theorem State.ring_satInc (s : State) (r : RegRef) (hi lo : Nat) : (s.satInc r hi lo).ring = s.ring := by
  rw [(s.satInc_frame r hi lo).1]

theorem State.ring_add64 (s : State) (r : RegRef) (n : Nat) : (s.add64 r n).ring = s.ring := by rw [s.add64_regs]

theorem State.ring_pushErr (s : State) (e cls : Nat) (addr : W64) : (s.pushErr e cls addr).ring = s.ring := by
  unfold State.pushErr
  split
  · rfl
  · split <;> rfl

theorem State.answers_ceEvent (s : State) (off : Nat) : (s.ceEvent off).ring.answers = s.ring.answers := by
  have hmark : ∀ b : Bool, (if b = true then
      ({ s with m := { s.m with health := SMap.set .good s.m.health (healthKey off) .corrected } } : State) else s).ring = s.ring := by
    intro b
    split <;> rfl
  unfold State.ceEvent
  dsimp only
  rw [(Filed.fault ..).answers]
  split
  · rw [State.ring_add64]
  · rw [State.ring_add64]
    split <;> rfl
  · rw [State.ring_pushErr, State.ring_satInc]
    split <;> rfl
  · rw [State.ring_add64]
  · rfl
  · rfl

theorem State.answers_ueCount (s : State) (off : Nat) : (s.ueCount off).ring.answers = s.ring.answers := by
  unfold State.ueCount
  dsimp only
  rw [(Filed.fault ..).answers]
  split
  · rw [State.ring_add64]
  · rw [State.ring_add64]
  · rw [State.ring_satInc]
  · rw [State.ring_add64]
  · rfl
  · rfl

theorem State.answers_ueEvent (s : State) (off : Nat) : (s.ueEvent off).ring.answers = s.ring.answers := by
  have hp : (s.poisonWord off).ring = s.ring := by
    unfold State.poisonWord
    split <;> rfl
  rw [State.ueEvent, State.answers_ueCount, hp]

theorem State.answers_takeFound (s : State) (off : Nat) : (s.takeFound off).1.ring.answers = s.ring.answers := by
  unfold State.takeFound
  dsimp only
  split
  · obtain ⟨d, hd⟩ := s.touchLine_frame off
    rw [hd]
  · split
    · rfl
    · exact State.answers_ceEvent _ off
    · exact State.answers_ueEvent _ off
    · exact (Filed.fault ..).answers

/-- A read leaves the responses that wait. -/
theorem State.answers_readLocal (s : State) (src : Src) (off n : Nat) : (s.readLocal src off n).1.ring.answers = s.ring.answers := by
  have hfold : ∀ (l : List Nat) (a : State × Bool), (l.foldl (fun (a : State × Bool) o =>
      let (t, b) := a.1.takeFound o
      (t, a.2 || b)) a).1.ring.answers = a.1.ring.answers := by
    intro l
    induction l with
    | nil => exact fun _ => rfl
    | cons o t ih => exact fun a => (ih _).trans (a.1.answers_takeFound o)
  have h := hfold (touched 16 off n) (s, false)
  unfold State.readLocal
  split
  · rfl
  · split
    rename_i s1 bad hs
    rw [hs] at h
    dsimp only at h ⊢
    split
    · exact h
    · split
      · exact (s1.answers_ueCount off).trans h
      · split
        · exact (s1.answers_ueEvent _).trans h
        · exact h

/-- Where no other response waits, a packet answered at once is answered by its flits alone. -/
theorem State.answerNow_eq {s : State} (h : s.ring.answers = []) (x : RxPkt) (booked : Bool) (sts : Nat) (bs : List Byte) :
    s.answerNow x booked sts bs = ({ s with ring := { s.ring with answerCtr := s.ring.answerCtr + 1 } } : State).respond x.src x.reqr
      (if booked then 0 else 1) x.laptag sts bs := by
  have hs : s = { s with ring := { s.ring with answers := [] } } := by rw [← h]
  rw [hs]
  unfold State.answerNow State.openAnswer State.sendAnswers
  simp [readyAnswers, packAnswers, RxPkt.slot]

/-! ### Read packets (R43, R293, R304, R367, R368) -/

/-- The state without a packet that has been taken. -/
def State.taken1 (s : State) (x : RxPkt) : State := { s with ring := { s.ring with rx := s.ring.rx.erase x } }

theorem State.onPkt_first {s : State} {want : RxPkt → Bool} {x : RxPkt} (h : firstPkt want [] s.ring.rx = some x)
    (act : State → RxPkt → State) : s.onPkt want act = .next (act (s.taken1 x) x) := by
  rw [State.onPkt, h]
  rfl

theorem State.sameMap_taken1 (s : State) (x : RxPkt) : s.sameMap (s.taken1 x) := ⟨rfl, rfl, rfl, rfl, rfl, fun _ _ => rfl⟩

theorem State.pktMem_congr {s t : State} (h : s.sameMap t) (dpa n : Nat) : t.pktMem dpa n = s.pktMem dpa n := by
  simp only [State.pktMem, State.tier_congr h, State.pos_of_sameMap h]

theorem State.expPort_congr {s t : State} (h : s.sameMap t) (dpa : Nat) : t.expPort dpa = s.expPort dpa := by
  simp only [State.expPort, State.tier_congr h, State.pos_of_sameMap h]

/-- A read packet that is not sieved, by where its bytes lie. -/
theorem State.doRd_eq {s : State} {x : RxPkt} (hsv : bitsOf (x.w 0) 54 54 = 0) {c : State × Bool}
    (hc : c = s.countUnits x.src (x.dpa % 2 ^ 46) x.rdBytes (s.tagLap x.laptag) (decide (x.cls = 0))) :
    s.doRd x =
      if s.pktMem x.dpa 1 then
        match c.1.expPort x.dpa with
        | some port => c.1.queueRd x port x.rdBytes c.2 none
        | none =>
          match c.1.readLocal x.srcOf (x.dpa % 2 ^ 46) x.rdBytes with
          | (s2, .ok, bs) => s2.answerNow x c.2 0 bs
          | (s2, .poison, _) => s2.answerNow x c.2 1 (List.replicate x.rdBytes 0)
          | (s2, .unmapped, _) => (s2.pktUnmapped x x.dpa).answerNow x c.2 2 (List.replicate x.rdBytes 0)
      else (s.pktUnmapped x x.dpa).answerNow x (decide (x.cls = 0)) 2 (List.replicate x.rdBytes 0) := by
  unfold State.doRd
  dsimp only
  rw [hsv, ← hc]
  cases s.pktMem x.dpa 1 with
  | false => rfl
  | true =>
    obtain ⟨s1, b⟩ := c
    rfl

theorem State.answers_pktUnmapped (s : State) (x : RxPkt) (dpa : Nat) : (s.pktUnmapped x dpa).ring.answers = s.ring.answers := by
  unfold State.pktUnmapped
  dsimp only
  rw [(Filed.fault ..).answers]
  split
  · rw [State.ring_satInc]
  · rfl

theorem Counted.ring {s t : State} (h : Counted s t) : t.ring = s.ring := by rw [h.1]

theorem readPacket_complete : Claims.ReadPacketComplete := by
  intro s x hfirst hsv off s0 c out
  have hexec : exec .rd s = .next ((s.taken1 x).doRd x) := State.onPkt_first hfirst _
  have hmap0 := s.sameMap_taken1 x
  have hlap : (s.taken1 x).tagLap x.laptag = s.tagLap x.laptag := rfl
  obtain ⟨c', hc'⟩ : ∃ c', c' = (s.taken1 x).countUnits x.src (x.dpa % 2 ^ 46) x.rdBytes ((s.taken1 x).tagLap x.laptag)
    (decide (x.cls = 0)) := ⟨_, rfl⟩
  have hcc : c = c' := by rw [hc', hlap]; rfl
  have hcount : Counted (s.taken1 x) c'.1 := by rw [hc']; exact Counted.countUnits ..
  have hring : c'.1.ring = (s.taken1 x).ring := hcount.ring
  have hport : c'.1.expPort x.dpa = s0.expPort x.dpa := State.expPort_congr hcount.sameMap x.dpa
  rw [State.doRd_eq hsv hc', State.pktMem_congr hmap0] at hexec
  refine ⟨fun hm hnone hans => ?_, fun port hm hp => ?_, fun hm hans => ?_⟩
  · have hans' : c'.1.ring.answers = [] := by rw [hring]; exact hans
    have hkeep := c'.1.answers_readLocal x.srcOf (x.dpa % 2 ^ 46) x.rdBytes
    rw [hm, if_pos rfl, hport, hnone] at hexec
    dsimp only at hexec
    refine ⟨fun t bs hread => ?_, fun t bs hread => ?_⟩
    · rw [hcc] at hread
      rw [show c'.1.readLocal x.srcOf (x.dpa % 2 ^ 46) x.rdBytes = (t, .ok, bs) from hread] at hexec hkeep
      dsimp only at hexec hkeep
      rw [State.answerNow_eq (hkeep.trans hans')] at hexec
      rw [hexec, hcc]
    · rw [hcc] at hread
      rw [show c'.1.readLocal x.srcOf (x.dpa % 2 ^ 46) x.rdBytes = (t, .poison, bs) from hread] at hexec hkeep
      dsimp only at hexec hkeep
      rw [State.answerNow_eq (hkeep.trans hans')] at hexec
      rw [hexec, hcc]
  · rw [hm, if_pos rfl, hport, hp] at hexec
    dsimp only at hexec
    have hmem : c'.1.m = { s.m with charged := c'.1.m.charged, spread := c'.1.m.spread } := by rw [hcount.1]; rfl
    have heng : c'.1.engines = s.engines := by rw [hcount.1]; rfl
    have hctr : c'.1.ring.answerCtr = s.ring.answerCtr := by rw [hring]; rfl
    have hexpq : c'.1.m.expq = s.m.expq := by rw [hmem]
    obtain ⟨s1, h1⟩ : ∃ s1, s1 = c'.1 := ⟨_, rfl⟩
    rw [← h1] at hexec hmem heng hctr hexpq
    refine ⟨_, ⟨port, x.srcOf, none, s1.tagLap x.laptag, x.dpa, x.rdBytes, .ring s1.ring.answerCtr, none, c'.2, x.via, s1.tb,
      s1.m.arrivals⟩, hexec, ?_, rfl, rfl, rfl, ?_, ?_, ?_, heng⟩
    · rw [← hexpq]; rfl
    · rw [hctr]
    · exact (congrArg Memory.mem hmem :)
    · exact (congrArg Memory.memq hmem :)
  · have hans' : ((s.taken1 x).pktUnmapped x x.dpa).ring.answers = [] := by rw [State.answers_pktUnmapped]; exact hans
    rw [hm, if_neg (by decide), State.answerNow_eq hans'] at hexec
    exact hexec

/-! ### Write and atomic packets (R311, R367) -/

/-- Requests have been posted: they wait behind the others, and no byte of memory and nothing of the ring or the Fault Collector
has changed. -/
def PostedReqs (s t : State) (rs : List MemReq) : Prop :=
  t.ring = s.ring ∧ t.flt = s.flt ∧ t.m.mem = s.m.mem ∧ t.m.memq = s.m.memq ++ rs

/-- A request with no retired epoch and no sweep of its part waits, as the count of its target leaves it. -/
theorem PostedReqs.postReq {s : State} (hr : s.flt.retired = []) (hs : s.flt.sweeps = []) (r : MemReq) :
    ∃ q, PostedReqs s (s.postReq r) [q] ∧ q.src = r.src ∧ q.epoch = r.epoch ∧ q.off = r.off ∧ q.op = r.op ∧ q.ret = r.ret := by
  have hret : s.retiredReq r = false := by
    unfold State.retiredReq
    rw [hr, hs]
    split <;> rfl
  have hc := Counted.countTarget s r.src.part r.off r.lap r.booked
  obtain ⟨c, hcc⟩ : ∃ c, c = s.countTarget r.src.part r.off r.lap r.booked := ⟨_, rfl⟩
  rw [← hcc] at hc
  have hpost : s.postReq r = { c.1 with m := { c.1.m with
      memq := c.1.m.memq ++ [{ r with booked := c.2, tick := s.tb, seq := c.1.m.arrivals }], arrivals := c.1.m.arrivals + 1 } } := by
    rw [State.postReq, hret, if_neg (by decide), ← hcc]
  have hmem : c.1.m.mem = s.m.mem := by rw [hc.1]
  have hmemq : c.1.m.memq = s.m.memq := by rw [hc.1]
  have hflt : c.1.flt = s.flt := by rw [hc.1]
  rw [hpost]
  exact ⟨{ r with booked := c.2, tick := s.tb, seq := c.1.m.arrivals }, ⟨hc.ring, hflt, hmem, by rw [← hmemq]⟩,
    rfl, rfl, rfl, rfl, rfl⟩

/-- The cells that a request writes. -/
def MemReq.cells (r : MemReq) : List (Nat × Byte) := match r.op with | .write cs => cs | _ => []

theorem PostedReqs.postCells {s : State} (hr : s.flt.retired = []) (hs : s.flt.sweeps = []) (r : MemReq) (cs : List (Nat × Byte)) :
    ∃ rs, PostedReqs s (s.postCells r cs) rs ∧ rs.flatMap MemReq.cells = cs ∧ ∀ q ∈ rs, q.src = r.src ∧ q.epoch = r.epoch := by
  have hfold : ∀ (l : List (List (Nat × Byte))) (u : State), u.flt.retired = [] → u.flt.sweeps = [] →
      ∃ rs, PostedReqs u (l.foldl (fun s c => s.postReq { r with off := (c.map (fun x => x.1)).headD 0, op := .write c }) u) rs ∧
        rs.flatMap MemReq.cells = l.flatten ∧ ∀ q ∈ rs, q.src = r.src ∧ q.epoch = r.epoch := by
    intro l
    induction l with
    | nil => exact fun u _ _ => ⟨[], ⟨rfl, rfl, rfl, (List.append_nil _).symm⟩, rfl, by simp⟩
    | cons c t ih =>
      intro u hur hus
      obtain ⟨q, ⟨h1, h2, h3, h4⟩, hqs, hqe, -, hqo, -⟩ := PostedReqs.postReq hur hus
        { r with off := (c.map (fun x => x.1)).headD 0, op := .write c }
      have hq : q.cells = c := by rw [MemReq.cells, hqo]
      obtain ⟨rs, ⟨k1, k2, k3, k4⟩, hcells, hsrc⟩ := ih _ (by rw [h2]; exact hur) (by rw [h2]; exact hus)
      refine ⟨q :: rs, ⟨k1.trans h1, k2.trans h2, k3.trans h3, ?_⟩, ?_, List.forall_mem_cons.2 ⟨⟨hqs, hqe⟩, hsrc⟩⟩
      · rw [List.foldl_cons, k4, h4, List.append_assoc]
        rfl
      · rw [List.flatMap_cons, hcells, List.flatten_cons, hq]
  obtain ⟨rs, h1, h2, h3⟩ := hfold (splitCells (unitBytes (s.tier ((cs.map (fun c => c.1)).headD 0))) cs) s hr hs
  exact ⟨rs, h1, h2.trans (splitCells_flatten _ cs).1, h3⟩

theorem RxPkt.src_pktReq (s : State) (x : RxPkt) (off : Nat) (op : MemOp) (ret : Option Nat) :
    (s.pktReq x off op ret).src = x.srcOf ∧ (s.pktReq x off op ret).epoch = x.epoch := ⟨rfl, rfl⟩

/-- The bytes of a write packet to memory of this part wait at their target. -/
theorem State.doWrite_posted {s : State} (hr : s.flt.retired = []) (hs : s.flt.sweeps = []) (x : RxPkt) {dpa : Nat} {bs : List Byte}
    (be : Nat) (hm : s.pktMem dpa bs.length = true) : ∃ rs, PostedReqs s (s.doWrite x dpa bs be) rs ∧
      rs.flatMap MemReq.cells = (cellsAt (dpa % 2 ^ 46) bs).filter (fun c => be.testBit (c.1 - dpa % 2 ^ 46)) ∧
      ∀ q ∈ rs, q.src = x.srcOf ∧ q.epoch = x.epoch := by
  rw [State.doWrite, hm, if_neg (by decide), State.postPkt]
  exact PostedReqs.postCells hr hs _ _

/-- A long write enables each of its bytes. -/
theorem cellsAt_enabled (off : Nat) (bs : List Byte) (h : bs.length ≤ 256) :
    (cellsAt off bs).filter (fun c => (2 ^ 256 - 1).testBit (c.1 - off)) = cellsAt off bs := by
  rw [List.filter_eq_self]
  intro c hc
  obtain ⟨h1, h2⟩ := cellsAt_range hc
  rw [Nat.testBit_two_pow_sub_one]
  simp only [decide_eq_true_eq]
  omega

theorem wr_complete {s : State} {x : RxPkt} (hr : s.flt.retired = []) (hs : s.flt.sweeps = [])
    (hfirst : firstPkt (fun x => x.ty = 2) [] s.ring.rx = some x) (hm : s.pktMem (x.w 0 % 2 ^ 52) 8 = true) :
    ∃ t rs, exec .wr s = .next t ∧ t.ring.rx = s.ring.rx.erase x ∧ t.m.mem = s.m.mem ∧ t.m.memq = s.m.memq ++ rs ∧
      rs.flatMap MemReq.cells = (cellsAt (x.w 0 % 2 ^ 52 % 2 ^ 46) (leBytes 8 (x.w 1))).filter
        (fun c => (bitsOf (x.w 0) 59 52).testBit (c.1 - x.w 0 % 2 ^ 52 % 2 ^ 46)) ∧
      ∀ r ∈ rs, r.src = x.srcOf ∧ r.epoch = x.epoch := by
  have hm0 : (s.taken1 x).pktMem (x.w 0 % 2 ^ 52) (leBytes 8 (x.w 1)).length = true := by
    rw [State.pktMem_congr (s.sameMap_taken1 x), length_leBytes]
    exact hm
  obtain ⟨rs, ⟨h1, -, h3, h4⟩, hcells, hsrc⟩ := State.doWrite_posted (s := s.taken1 x) hr hs x (bitsOf (x.w 0) 59 52) hm0
  have hexec : exec .wr s = .next ((s.taken1 x).doWrite x (x.w 0 % 2 ^ 52) (leBytes 8 (x.w 1)) (bitsOf (x.w 0) 59 52)) :=
    State.onPkt_first hfirst fun s x => s.doWrite x (x.w 0 % 2 ^ 52) (leBytes 8 (x.w 1)) (bitsOf (x.w 0) 59 52)
  exact ⟨_, rs, hexec, by rw [h1]; rfl, h3, h4, hcells, hsrc⟩

/-- The packet that comes first is one that was wanted. -/
theorem want_of_firstPkt {want : RxPkt → Bool} {x : RxPkt} : ∀ (l seen : List RxPkt), firstPkt want seen l = some x → want x = true := by
  intro l
  induction l with
  | nil => exact nofun
  | cons y t ih =>
    intro seen h
    rw [firstPkt] at h
    split at h
    · rename_i hy
      cases h
      rw [Bool.and_eq_true] at hy
      exact hy.1
    · exact ih _ h

/-- The state in which a long write's data have been taken. -/
def State.withoutData (s : State) (x : RxPkt) : State :=
  { s with ring := { s.ring with
      wdata := SMap.set [] s.ring.wdata x.dataKey ((SMap.get [] s.ring.wdata x.dataKey).drop x.wrlBytes) } }

theorem wrl_complete {s : State} {x : RxPkt} (hr : s.flt.retired = []) (hs : s.flt.sweeps = [])
    (hfirst : firstPkt (fun x => x.ty = 3 && x.wrlBytes ≤ (SMap.get [] s.ring.wdata x.dataKey).length) [] s.ring.rx = some x)
    (hm : s.pktMem (x.w 0 % 2 ^ 52) x.wrlBytes = true) :
    ∃ t rs, exec .wrl s = .next t ∧ t.ring.rx = s.ring.rx.erase x ∧ t.m.mem = s.m.mem ∧ t.m.memq = s.m.memq ++ rs ∧
      SMap.get [] t.ring.wdata x.dataKey = (SMap.get [] s.ring.wdata x.dataKey).drop x.wrlBytes ∧
      rs.flatMap MemReq.cells = cellsAt (x.w 0 % 2 ^ 52 % 2 ^ 46) ((SMap.get [] s.ring.wdata x.dataKey).take x.wrlBytes) ∧
      ∀ r ∈ rs, r.src = x.srcOf ∧ r.epoch = x.epoch := by
  obtain ⟨bs, hbs⟩ : ∃ bs, bs = (SMap.get [] s.ring.wdata x.dataKey).take x.wrlBytes := ⟨_, rfl⟩
  have hlen : bs.length = x.wrlBytes := by
    have hw := want_of_firstPkt _ _ hfirst
    simp only [Bool.and_eq_true, decide_eq_true_eq] at hw
    rw [hbs, List.length_take, Nat.min_eq_left hw.2]
  have hmax : x.wrlBytes ≤ 256 := by
    unfold RxPkt.wrlBytes
    split <;> decide
  have hmap : s.sameMap ((s.taken1 x).withoutData x) := ⟨rfl, rfl, rfl, rfl, rfl, fun _ _ => rfl⟩
  have hm0 : ((s.taken1 x).withoutData x).pktMem (x.w 0 % 2 ^ 52) bs.length = true := by
    rw [State.pktMem_congr hmap, hlen]
    exact hm
  obtain ⟨rs, ⟨h1, -, h3, h4⟩, hcells, hsrc⟩ := State.doWrite_posted (s := (s.taken1 x).withoutData x) hr hs x (2 ^ 256 - 1) hm0
  rw [cellsAt_enabled _ _ (by rw [hlen]; exact hmax)] at hcells
  have hexec : exec .wrl s = .next (((s.taken1 x).withoutData x).doWrite x (x.w 0 % 2 ^ 52) bs (2 ^ 256 - 1)) := by
    rw [hbs]
    exact State.onPkt_first hfirst fun s x =>
      (s.withoutData x).doWrite x (x.w 0 % 2 ^ 52) ((SMap.get [] s.ring.wdata x.dataKey).take x.wrlBytes) (2 ^ 256 - 1)
  refine ⟨_, rs, hexec, by rw [h1]; rfl, h3, h4, ?_, by rw [← hbs]; exact hcells, hsrc⟩
  rw [h1]
  exact SMap.get_set_self _ _ _ _

theorem at_complete {s : State} {x : RxPkt} (hr : s.flt.retired = []) (hs : s.flt.sweeps = [])
    (hfirst : firstPkt (fun x => x.ty = 4) [] s.ring.rx = some x) (hm : s.pktMem (x.w 0 % 2 ^ 52) 8 = true)
    (ha : (s.tier (x.w 0 % 2 ^ 52 % 2 ^ 46)).atomicOk = true) :
    ∃ t r, exec .atPkt s = .next t ∧ t.ring.rx = s.ring.rx.erase x ∧ t.m.mem = s.m.mem ∧ t.m.memq = s.m.memq ++ [r] ∧
      r.src = x.srcOf ∧ r.epoch = x.epoch ∧ r.off = x.w 0 % 2 ^ 52 % 2 ^ 46 ∧ r.op = x.atOp ∧
      r.ret = (if bitsOf (x.w 0) 56 56 = 1 then some s.ring.answerCtr else none) := by
  have hmap := s.sameMap_taken1 x
  obtain ⟨r, hrq⟩ : ∃ r, r = (s.taken1 x).pktReq x (x.w 0 % 2 ^ 52 % 2 ^ 46) x.atOp
    (if bitsOf (x.w 0) 56 56 = 1 then some s.ring.answerCtr else none) := ⟨_, rfl⟩
  obtain ⟨s1, h1⟩ : ∃ s1 : State, s1 = if bitsOf (x.w 0) 56 56 = 1 then
    (s.taken1 x).openAnswer (x.slot (decide (x.cls = 0)) none none) else s.taken1 x := ⟨_, rfl⟩
  have hkeep : s1.flt = s.flt ∧ s1.m = s.m ∧ s1.ring.rx = s.ring.rx.erase x := by
    rw [h1]
    split <;> exact ⟨rfl, rfl, rfl⟩
  obtain ⟨hflt, hmem, hrx⟩ := hkeep
  have hret : s1.retiredReq r = false := by
    unfold State.retiredReq
    rw [hflt, hr, hs]
    split <;> rfl
  have hexec : exec .atPkt s = .next (s1.postReq r) := by
    have h0 : exec .atPkt s = .next ((s.taken1 x).doAt x) := State.onPkt_first hfirst fun s x => s.doAt x
    have hcond : (!(s.taken1 x).pktMem x.dpa 8 || !((s.taken1 x).tier (x.dpa % 2 ^ 46)).atomicOk) = false := by
      rw [State.pktMem_congr hmap, State.tier_congr hmap, RxPkt.dpa, hm, ha]
      rfl
    have hdo : (s.taken1 x).doAt x = if s1.retiredReq r then (s1.postReq r).returnOld r 1 else s1.postReq r := by
      unfold State.doAt
      dsimp only
      rw [hcond, if_neg (by decide), h1, hrq]
      rfl
    rw [h0, hdo, hret, if_neg (by decide)]
  obtain ⟨q, ⟨k1, -, k3, k4⟩, hqs, hqe, hqoff, hqop, hqret⟩ := PostedReqs.postReq (by rw [hflt]; exact hr) (by rw [hflt]; exact hs) r
  refine ⟨_, q, hexec, by rw [k1, hrx], by rw [k3, hmem], by rw [k4, hmem], ?_, ?_, ?_, ?_, ?_⟩
  · rw [hqs, hrq]; rfl
  · rw [hqe, hrq]; rfl
  · rw [hqoff, hrq]; rfl
  · rw [hqop, hrq]; rfl
  · rw [hqret, hrq]; rfl

/-- Settles O47: reads by where their bytes lie, writes and atomics by the requests they post. -/
theorem packetsComplete : Obligations.PacketsComplete :=
  ⟨readPacket_complete, fun _ _ hr hs => ⟨wr_complete hr hs, wrl_complete hr hs, at_complete hr hs⟩⟩

end Sys2Proof.Machine

namespace Sys2Proof.Machine

/-! ### Pulses (R431 to R453) -/

/-- The registers of pulses but for the flags. -/
def pulseRest : List Nat :=
  Reg.evtGroupEn.off :: ((List.range 256).map (fun c => (Reg.evtChStat c).off) ++
    (List.range 32).flatMap (fun j => [(Reg.cdtCount j).off, (Reg.cdtStat j).off]))

theorem pulseRest_subset : pulseRest ⊆ pulseOffs := by
  intro o ho
  simp only [pulseRest, pulseOffs, List.mem_cons, List.mem_append] at ho ⊢
  tauto

theorem evtChStat_mem {c : Nat} (h : c < 256) : (Reg.evtChStat c).off ∈ pulseRest :=
  List.mem_cons_of_mem _ (List.mem_append_left _ (List.mem_map.2 ⟨c, List.mem_range.2 h, rfl⟩))

theorem cdt_mem {j : Nat} (h : j < 32) : (Reg.cdtCount j).off ∈ pulseRest ∧ (Reg.cdtStat j).off ∈ pulseRest := by
  have hj : ∀ o ∈ [(Reg.cdtCount j).off, (Reg.cdtStat j).off], o ∈ pulseRest := fun o ho =>
    List.mem_cons_of_mem _ (List.mem_append_right _ (List.mem_flatMap.2 ⟨j, List.mem_range.2 h, ho⟩))
  exact ⟨hj _ (by simp), hj _ (by simp)⟩

theorem evtFlag_mem {c : Nat} (h : c < 256) : (Reg.evtFlag (c / 32)).off ∈ pulseOffs := by
  have hk : c / 32 < 8 := by omega
  exact List.mem_cons_of_mem _ (List.mem_append_left _ (List.mem_append_left _ (List.mem_map.2 ⟨c / 32, List.mem_range.2 hk, rfl⟩)))

theorem evtFlag_notMem {c : Nat} (h : c < 256) : (Reg.evtFlag (c / 32)).off ∉ pulseRest := by
  simp only [pulseRest, List.mem_cons, List.mem_append, List.mem_map, List.mem_flatMap, List.mem_range, List.not_mem_nil, or_false,
    Reg.evtFlag, Reg.evtGroupEn, Reg.evtChStat, Reg.cdtCount, Reg.cdtStat]
  rintro (h1 | ⟨a, _, h1⟩ | ⟨a, _, h1 | h1⟩) <;> omega

/-- Nothing differs but the Event Fabric, the given registers, and engines that wait for a flag. -/
def PulseOnly (offs : List Nat) (s t : State) : Prop :=
  t = { s with regs := t.regs, evt := t.evt, engines := t.engines } ∧ OnlyRegs s t offs

section
variable {offs : List Nat}

theorem PulseOnly.refl (s : State) : PulseOnly offs s s := ⟨rfl, fun _ _ => rfl⟩

theorem PulseOnly.trans {s t u : State} (h : PulseOnly offs s t) (k : PulseOnly offs t u) : PulseOnly offs s u :=
  ⟨by rw [k.1, h.1], h.2.trans k.2⟩

theorem PulseOnly.mono {offs' : List Nat} {s t : State} (h : PulseOnly offs s t) (hs : offs ⊆ offs') : PulseOnly offs' s t :=
  ⟨h.1, h.2.mono hs⟩

theorem PulseOnly.of_regs {s t : State} (h : t = { s with regs := t.regs }) (hr : OnlyRegs s t offs) : PulseOnly offs s t := by
  obtain ⟨x, rfl⟩ : ∃ x, t = { s with regs := x } := ⟨_, h⟩
  exact ⟨rfl, hr⟩

theorem PulseOnly.wr (s : State) {r : RegRef} (h : r.off ∈ offs) (v : BitVec 32) : PulseOnly offs s (s.wr r v) :=
  PulseOnly.of_regs rfl (OnlyRegs.wr s h v)

theorem PulseOnly.setBit (s : State) {r : RegRef} (h : r.off ∈ offs) (b : Nat) (v : Bool) : PulseOnly offs s (s.setBit r b v) :=
  PulseOnly.of_regs rfl (OnlyRegs.wr s h _)

theorem PulseOnly.satInc (s : State) {r : RegRef} (h : r.off ∈ offs) (hi lo : Nat) : PulseOnly offs s (s.satInc r hi lo) := by
  obtain ⟨hf, hr⟩ := s.satInc_frame r hi lo
  exact PulseOnly.of_regs hf (hr.mono (by simpa using h))

theorem PulseOnly.evt (s : State) (x : Events) (y : SMap Engine) : PulseOnly offs s { s with evt := x, engines := y } :=
  ⟨rfl, fun _ _ => rfl⟩

theorem PulseOnly.foldl {β : Type} (l : List β) (f : State → β → State) (h : ∀ s, ∀ b ∈ l, PulseOnly offs s (f s b)) (s : State) :
    PulseOnly offs s (l.foldl f s) := by
  induction l generalizing s with
  | nil => exact PulseOnly.refl s
  | cons b t ih =>
    exact (h s b List.mem_cons_self).trans (ih (fun s b hb => h s b (List.mem_cons_of_mem _ hb)) _)

end

theorem PulseOnly.cdtReloadNow (s : State) {j : Nat} (hj : j < 32) : PulseOnly pulseRest s (s.cdtReloadNow j) := by
  obtain ⟨hc, hs⟩ := cdt_mem hj
  have h1 : PulseOnly pulseRest s { s with evt := { s.evt with zeroDue := SMap.set 0 s.evt.zeroDue j 2 } } := PulseOnly.evt s _ _
  unfold State.cdtReloadNow
  split
  · exact PulseOnly.refl s
  · dsimp only
    split
    · exact h1.trans (PulseOnly.setBit _ hs _ _)
    · split
      · exact (h1.trans (PulseOnly.wr _ hc _)).trans (PulseOnly.evt _ _ _)
      · exact h1.trans (PulseOnly.wr _ hc _)

theorem PulseOnly.cdtActs (s : State) {j : Nat} (hj : j < 32) (acts : List Nat) : PulseOnly pulseRest s (s.cdtActs j acts) := by
  obtain ⟨hc, hs⟩ := cdt_mem hj
  have hr := PulseOnly.cdtReloadNow s hj
  unfold State.cdtActs
  split
  · exact hr.trans (PulseOnly.setBit _ hs _ _)
  · split
    · unfold State.cdtStart
      dsimp only
      split
      · exact hr.trans (PulseOnly.satInc _ hs _ _)
      · split
        · exact hr
        · exact (hr.trans (PulseOnly.wr _ hc _)).trans (PulseOnly.setBit _ hs _ _)
    · split
      · exact hr.trans (PulseOnly.wr _ hc _)
      · exact PulseOnly.refl s

theorem PulseOnly.timerActs (s : State) (acts : List (Nat × Nat)) : PulseOnly pulseRest s (s.timerActs acts) :=
  PulseOnly.foldl _ _ (fun s _ hj => PulseOnly.cdtActs s (List.mem_range.1 hj) _) s

/-- Once its flag is set, an accepted pulse changes no flag. -/
theorem PulseOnly.acceptPulse (s : State) {c : Nat} (hc : c < 256) (now : Nat) :
    PulseOnly pulseRest (s.setFlag c true) (s.acceptPulse c now) := by
  have hst := evtChStat_mem hc
  unfold State.acceptPulse
  dsimp only
  refine PulseOnly.trans ?_ (PulseOnly.timerActs _ _)
  obtain ⟨s0, h0, e0⟩ : ∃ s0 : State, PulseOnly pulseRest (s.setFlag c true) s0 ∧
      s0 = if s.actMode.viewed then s.setFlag c true else (s.setFlag c true).wake c := by
    refine ⟨_, ?_, rfl⟩
    split
    · exact PulseOnly.refl _
    · exact PulseOnly.evt (s.setFlag c true) (s.setFlag c true).evt _
  rw [← e0]
  obtain ⟨s1, h1, e1⟩ : ∃ s1 : State, PulseOnly pulseRest (s.setFlag c true) s1 ∧ s1 = { s0 with
      evt := { s.evt with
        lastAcc := SMap.set 0 s.evt.lastAcc c (now + 1), count := SMap.set 0 s.evt.count c (SMap.get 0 s.evt.count c + 1),
        fwd := s.evt.fwd ++ (s.forwards c).map (fun d => (d, now + 1)) } } :=
    ⟨_, h0.trans (PulseOnly.evt s0 _ _), rfl⟩
  rw [← e1]
  have h2 : PulseOnly pulseRest (s.setFlag c true) (if s.fld (Reg.evtChCfg c) 15 0 ≠ 0 ∧ s.fld (Reg.evtChCfg c) 15 0 < SMap.get 0 s.evt.count c + 1 then
      (s1.setBit (Reg.evtChStat c) 0 true).setBit (Reg.evtChStat c) 1 (s1.bit (Reg.evtChStat c) 1 || s1.bit (Reg.evtChCfg c) 19)
    else s1) := by
    split
    · exact (h1.trans (PulseOnly.setBit _ hst _ _)).trans (PulseOnly.setBit _ hst _ _)
    · exact h1
  split
  · exact h2.trans (PulseOnly.wr _ (List.mem_cons_self ..) _)
  · exact h2

theorem PulseOnly.pulse (s : State) {c : Nat} (hc : c < 256) (now : Nat) : PulseOnly pulseOffs s (s.pulse c now) := by
  have hst := pulseRest_subset (evtChStat_mem hc)
  have hflag : PulseOnly pulseOffs s (s.setFlag c true) := PulseOnly.setBit s (evtFlag_mem hc) _ _
  unfold State.pulse
  dsimp only
  split
  · exact PulseOnly.satInc s hst _ _
  · split
    · exact PulseOnly.satInc s hst _ _
    · split
      · exact PulseOnly.refl s
      · split
        · exact PulseOnly.satInc s hst _ _
        · exact hflag.trans ((PulseOnly.acceptPulse s hc now).mono pulseRest_subset)

theorem PulseOnly.fireCode (s : State) (code now : Nat) : PulseOnly pulseOffs s (s.fireCode code now) :=
  PulseOnly.foldl _ _ (fun s _ hc => PulseOnly.pulse s (List.mem_range.1 (List.mem_filter.1 hc).1) now) s

/-- A pulse that is accepted is accepted. -/
theorem State.pulse_accepts {s : State} {c now : Nat} (h : s.accepts c now = true) : s.pulse c now = s.acceptPulse c now := by
  simp only [State.accepts, Bool.and_eq_true, Bool.not_eq_true', Bool.or_eq_true, decide_eq_true_eq] at h
  obtain ⟨⟨hg, hb⟩, hl⟩ := h
  unfold State.pulse
  dsimp only
  rw [hg, hb, if_neg (by decide), if_neg (by decide), if_neg (by omega), if_neg (by omega)]

/-- The flag of an accepted pulse's channel is set. -/
theorem State.flag_acceptPulse (s : State) {c : Nat} (hc : c < 256) (now : Nat) : (s.acceptPulse c now).flag c = true := by
  rw [State.flag, (PulseOnly.acceptPulse s hc now).2.bit (evtFlag_notMem hc)]
  exact s.bit_setBit _ (Nat.mod_lt _ (by decide)) true

theorem State.flag_fireCode {s : State} {code c now : Nat} (hl : s.soleListener code c) (ha : s.accepts c now = true) :
    (s.fireCode code now).flag c = true := by
  have hc : c < 256 := by
    have hmem : c ∈ (List.range 256).filter (fun d => s.lists d code) := by rw [hl]; simp
    exact List.mem_range.1 (List.mem_filter.1 hmem).1
  rw [State.fireCode, hl, List.foldl_cons, List.foldl_nil, State.pulse_accepts ha]
  exact s.flag_acceptPulse hc now

/-! ### Messages (R63, R338, R369, R376, R379, R384, R446) -/

theorem pred_complete {s : State} {x : RxPkt} (h : firstPkt (fun x => x.ty = 5) [] s.ring.rx = some x) :
    ∃ t, exec .pred s = .next t ∧ t = { s.taken1 x with ring := { (s.taken1 x).ring with preds := t.ring.preds } } ∧
      SMap.get none t.ring.preds (x.src * 64 + x.w 0 % 64) =
        some ⟨x.words.getD 2 0, x.words.getD 3 0, x.words.getD 4 0, x.words.getD 5 0, x.words.getD 6 0, x.words.getD 7 0,
          x.words.getD 8 0, x.words.getD 9 0⟩ := by
  obtain ⟨b, hb⟩ : ∃ b : Rec64, b = ⟨x.words.getD 2 0, x.words.getD 3 0, x.words.getD 4 0, x.words.getD 5 0, x.words.getD 6 0,
    x.words.getD 7 0, x.words.getD 8 0, x.words.getD 9 0⟩ := ⟨_, rfl⟩
  have hexec : exec .pred s = .next { s.taken1 x with ring := { (s.taken1 x).ring with
      preds := SMap.set none s.ring.preds (x.src * 64 + x.w 0 % 64) (some b) } } := by
    rw [hb]
    change execPred s = _
    rw [execPred, State.onPkt_first h]
    rfl
  rw [← hb]
  exact ⟨_, hexec, rfl, SMap.get_set_self none s.ring.preds (x.src * 64 + x.w 0 % 64) (some b)⟩

theorem evt_complete {s : State} {x : RxPkt} (h : firstPkt (fun x => x.isMsg 1) [] s.ring.rx = some x) :
    ∃ t, exec .evt s = .next t ∧ t = { s.taken1 x with regs := t.regs, evt := t.evt, engines := t.engines } ∧
      OnlyRegs s t pulseOffs ∧
      ∀ c, s.soleListener (0x200 + bitsOf (x.w 0) 12 8) c → s.accepts c s.hubNow = true → t.flag c = true := by
  have hd : bitsOf (x.w 0) 12 8 % 32 = bitsOf (x.w 0) 12 8 := Nat.mod_eq_of_lt (bitsOf_lt _ 12 8)
  have hexec : exec .evt s = .next ((s.taken1 x).fireCode (0x200 + bitsOf (x.w 0) 12 8) s.hubNow) := by
    have h0 : exec .evt s = .next ((s.taken1 x).domArrive (bitsOf (x.w 0) 12 8) s.hubNow) :=
      State.onPkt_first h fun s x => s.domArrive (bitsOf (x.w 0) 12 8) s.hubNow
    rw [h0, State.domArrive, hd]
  obtain ⟨hf, hr⟩ := PulseOnly.fireCode (s.taken1 x) (0x200 + bitsOf (x.w 0) 12 8) s.hubNow
  exact ⟨_, hexec, hf, hr, fun c hl ha => State.flag_fireCode (s := s.taken1 x) hl ha⟩

theorem tlbiMsg_complete {s : State} {x : RxPkt} (h : firstPkt (fun x => x.isMsg 2) [] s.ring.rx = some x) :
    let due := s.tagLap (bitsOf (x.w 0) 15 8) + 2
    let va := bitsOf (x.w 1) 54 16 * 65536
    (s.lap < due → exec .tlbiMsg s = .next { s.taken1 x with tlbi := s.tlbi ++ [(due, va, BitVec.ofNat 16 (x.w 1))] }) ∧
    (due ≤ s.lap → ∃ t, exec .tlbiMsg s = .next t ∧ t = { s.taken1 x with engines := t.engines } ∧
      ∀ e, t.eng e = (s.eng e).dropSlots (pageSel va (BitVec.ofNat 16 (x.w 1)))) := by
  intro due va
  have hexec : exec .tlbiMsg s = .next (if due ≤ s.lap then (s.taken1 x).tlbiNow va (BitVec.ofNat 16 (x.w 1))
      else { s.taken1 x with tlbi := s.tlbi ++ [(due, va, BitVec.ofNat 16 (x.w 1))] }) := by
    change execTlbiMsg s = _
    rw [execTlbiMsg, State.onPkt_first h]
    rfl
  refine ⟨fun hd => ?_, fun hd => ?_⟩
  · rw [hexec, if_neg (Nat.not_le.2 hd)]
  · rw [if_pos hd] at hexec
    exact ⟨_, hexec, rfl, fun e => SMap.get_remap _ _ _ _ e rfl⟩

/-- A notice of a break or join is kept with no later a Lap than it names. -/
theorem State.noteSwitch_spec (s : State) (a b lap : Nat) (joins : Bool) :
    s.noteSwitch a b lap joins = { s with ring := { s.ring with switches := (s.noteSwitch a b lap joins).ring.switches } } ∧
    ∃ w ∈ (s.noteSwitch a b lap joins).ring.switches, w.span = a * 32 + b ∧ w.joins = joins ∧ w.lap ≤ lap := by
  refine ⟨rfl, ?_⟩
  unfold State.noteSwitch
  dsimp only
  split
  · rename_i hany
    obtain ⟨y, hy, hs⟩ := List.any_eq_true.1 hany
    refine ⟨_, List.mem_map.2 ⟨y, hy, rfl⟩, ?_⟩
    rw [if_pos hs]
    simp only [Bool.and_eq_true, decide_eq_true_eq, beq_iff_eq] at hs
    exact ⟨hs.1, hs.2, Nat.min_le_right _ _⟩
  · exact ⟨_, List.mem_append_right _ (List.mem_singleton.2 rfl), rfl, rfl, Nat.le_refl _⟩

theorem breakMsg_complete {s : State} {x : RxPkt} (h : firstPkt (fun x => x.isMsg 4) [] s.ring.rx = some x) :
    ∃ t, exec .breakMsg s = .next t ∧ t = { s.taken1 x with ring := { (s.taken1 x).ring with switches := t.ring.switches } } ∧
      ∃ w ∈ t.ring.switches, w.span = bitsOf (x.w 0) 12 8 * 32 + bitsOf (x.w 0) 17 13 ∧ w.joins = false ∧ w.lap ≤ x.w 1 := by
  obtain ⟨hf, hw⟩ := (s.taken1 x).noteSwitch_spec (bitsOf (x.w 0) 12 8) (bitsOf (x.w 0) 17 13) (x.w 1) false
  exact ⟨_, State.onPkt_first h fun s x => s.noteSwitch (bitsOf (x.w 0) 12 8) (bitsOf (x.w 0) 17 13) (x.w 1) false, hf, hw⟩

theorem join_complete {s : State} {x : RxPkt} (h : firstPkt (fun x => x.isMsg 5) [] s.ring.rx = some x) :
    ∃ t, exec .join s = .next t ∧ t.m = s.m ∧ t.engines = s.engines ∧ t.regs = s.regs ∧
      (∃ w ∈ t.ring.switches, w.span = bitsOf (x.w 0) 12 8 * 32 + bitsOf (x.w 0) 17 13 ∧ w.joins = true ∧ w.lap ≤ x.w 1) ∧
      (s.mode = .prep → (bitsOf (x.w 0) 12 8 = s.pos ∨ bitsOf (x.w 0) 17 13 = s.pos) → s.fld Reg.pairCfg 1 0 = 0 →
        t.pendMode = some (.ring, x.w 1)) ∧
      (s.mode ≠ .prep → t.pendMode = s.pendMode) := by
  obtain ⟨s1, h1⟩ : ∃ s1 : State, s1 = (s.taken1 x).noteSwitch (bitsOf (x.w 0) 12 8) (bitsOf (x.w 0) 17 13) (x.w 1) true := ⟨_, rfl⟩
  obtain ⟨m, hm⟩ : ∃ m : Mode, m = match s.fld Reg.pairCfg 1 0 with | 0 => .ring | 1 => .lead | _ => .trail := ⟨_, rfl⟩
  have hexec : exec .join s = .next (if s.mode = .prep && (bitsOf (x.w 0) 12 8 = s.pos || bitsOf (x.w 0) 17 13 = s.pos) then
      { s1 with pendMode := some (m, x.w 1) } else s1) := by
    rw [h1, hm]
    change execJoin s = _
    rw [execJoin, State.onPkt_first h]
    rfl
  obtain ⟨hf, hw⟩ := (s.taken1 x).noteSwitch_spec (bitsOf (x.w 0) 12 8) (bitsOf (x.w 0) 17 13) (x.w 1) true
  rw [← h1] at hf hw
  have hsame : s1.m = s.m ∧ s1.engines = s.engines ∧ s1.regs = s.regs ∧ s1.pendMode = s.pendMode := by
    rw [hf]
    exact ⟨rfl, rfl, rfl, rfl⟩
  obtain ⟨k1, k2, k3, k4⟩ := hsame
  by_cases hp : (s.mode = .prep && (bitsOf (x.w 0) 12 8 = s.pos || bitsOf (x.w 0) 17 13 = s.pos)) = true
  · rw [if_pos hp] at hexec
    refine ⟨_, hexec, k1, k2, k3, hw, fun _ _ hc => ?_, fun hn => ?_⟩
    · rw [hm, hc]; rfl
    · simp [hn] at hp
  · rw [if_neg hp] at hexec
    refine ⟨_, hexec, k1, k2, k3, hw, fun h1 h2 _ => absurd ?_ hp, fun _ => k4⟩
    simp [h1, h2]

theorem scale_complete {s : State} {x : RxPkt} (h : firstPkt (fun x => x.isMsg 6) [] s.ring.rx = some x) :
    ∃ t, exec .scale s = .next t ∧ t = { s.taken1 x with regs := t.regs } ∧ OnlyRegs s t [(Reg.staScale x.src).off] ∧
      t.fld (Reg.staScale x.src) 16 0 = bitsOf (x.w 0) 24 8 := by
  have hlt : bitsOf (x.w 0) 24 8 < 2 ^ (16 + 1 - 0) := bitsOf_lt _ 24 8
  have hfld := (s.taken1 x).fld_setFld (Reg.staScale x.src) (hi := 16) (lo := 0) (by decide) (by decide) (bitsOf (x.w 0) 24 8)
  rw [Nat.mod_eq_of_lt hlt] at hfld
  exact ⟨_, State.onPkt_first h fun s x => s.setFld (Reg.staScale x.src) 16 0 (bitsOf (x.w 0) 24 8), State.setFld_regs _ _ _ _ _,
    OnlyRegs.wr (s.taken1 x) (by simp) _, hfld⟩

theorem doneMsg_complete {s : State} {x : RxPkt} (h : firstPkt (fun x => x.isMsg 7) [] s.ring.rx = some x) :
    ∃ t, exec .doneMsg s = .next t ∧ t = { s.taken1 x with ring := { (s.taken1 x).ring with doneLap := t.ring.doneLap } } ∧
      SMap.get 0 t.ring.doneLap x.src = Nat.max (SMap.get 0 s.ring.doneLap x.src) (x.w 1) := by
  have hexec : exec .doneMsg s = .next { s.taken1 x with ring := { (s.taken1 x).ring with
      doneLap := SMap.upd 0 s.ring.doneLap x.src (fun l => Nat.max l (x.w 1)) } } := by
    change execDoneMsg s = _
    rw [execDoneMsg, State.onPkt_first h]
    rfl
  exact ⟨_, hexec, rfl, SMap.get_set_self 0 s.ring.doneLap x.src _⟩

theorem messages_complete : Claims.MessagesComplete := fun _ _ =>
  ⟨pred_complete, evt_complete, tlbiMsg_complete, breakMsg_complete, join_complete, scale_complete, doneMsg_complete⟩

end Sys2Proof.Machine

namespace Sys2Proof.Machine

/-! ### A record at the Fault Collector (R410, R421, R422) -/

theorem FaultRec.cls_lt (r : FaultRec) : r.cls < 256 := bitsOf_lt _ 47 40

/-- Records of one key have one class. -/
theorem FaultRec.cls_of_key {r q : FaultRec} (h : r.key = q.key) : r.cls = q.cls := by
  have h1 := FaultRec.cls_lt r
  have h2 := FaultRec.cls_lt q
  simp only [FaultRec.key] at h
  omega

theorem FaultRec.cls_again (r : FaultRec) : r.again.cls = r.cls := by
  unfold FaultRec.again
  split
  · rfl
  · simp only [FaultRec.cls]

/-- A forwarded record keeps its class. -/
theorem FaultRec.cls_fwd (r : FaultRec) : r.fwd.cls = r.cls := by
  have h : ∀ x : BitVec 64, bitsOf (x ||| 0x1000000000).toNat 47 40 = bitsOf x.toNat 47 40 := by
    intro x
    refine Nat.eq_of_testBit_eq fun i => ?_
    rw [testBit_bitsOf, testBit_bitsOf, BitVec.toNat_or, Nat.testBit_or]
    by_cases hi : i < 47 + 1 - 40
    · have hbit : (0x1000000000 : BitVec 64).toNat.testBit (40 + i) = false := by
        interval_cases i <;> rfl
      rw [hbit, Bool.or_false]
    · rw [decide_eq_false hi, Bool.false_and, Bool.false_and]
  exact h r.w0

theorem mem_placeRec (r : FaultRec) (l : List FaultRec) : r ∈ placeRec r l := by
  induction l with
  | nil => exact List.mem_singleton.2 rfl
  | cons h t ih =>
    unfold placeRec
    split
    · exact List.mem_cons_self
    · exact List.mem_cons_of_mem _ ih

/-- Coalescing leaves a record of the key's class. -/
theorem exists_coalesceRec {k : Nat} {l : List FaultRec} (h : l.any (fun x => x.key = k) = true) :
    ∃ x ∈ coalesceRec k l, ∃ y : FaultRec, y.key = k ∧ x = y.again := by
  induction l with
  | nil => simp at h
  | cons a t ih =>
    unfold coalesceRec
    split
    · exact ⟨_, List.mem_cons_self, a, ‹_›, rfl⟩
    · rename_i hk
      have ht : t.any (fun x => x.key = k) = true := by simpa [hk] using h
      obtain ⟨x, hx, hy⟩ := ih ht
      exact ⟨x, List.mem_cons_of_mem _ hx, hy⟩

/-- A record finds its place in a queue with room. -/
theorem State.reports_queueRec {s : State} {r : FaultRec} (h : s.flt.queue.length < 1024) : (s.queueRec r).reports r.cls := by
  unfold State.queueRec
  split
  · exact ⟨r, List.mem_singleton.2 rfl, rfl⟩
  · rename_i a t hq
    split
    · rename_i hany
      obtain ⟨x, hx, y, hy, rfl⟩ := exists_coalesceRec hany
      refine ⟨y.again, ?_, (FaultRec.cls_again y).trans (FaultRec.cls_of_key hy)⟩
      exact List.mem_cons_of_mem _ hx
    · rw [hq, List.length_cons] at h
      rw [if_pos h]
      exact ⟨r, List.mem_cons_of_mem _ (mem_placeRec r t), rfl⟩

theorem State.flt_toPort (s : State) (p : Nat) (f : Flit) : (s.toPort p f).flt = s.flt := by
  unfold State.toPort
  split
  · rfl
  · split
    · rw [State.add64_flt]
    · rfl

theorem State.flt_sendCtl (s : State) (ws : List W64) : (s.sendCtl ws).flt = s.flt := by
  unfold State.sendCtl
  split
  · rfl
  · dsimp only
    rw [State.flt_toPort, State.flt_toPort]
    rfl

theorem State.flt_identify (s : State) (r : FaultRec) : (s.identify r).flt = s.flt := by
  have hfix : ∀ (q : FaultRec) (b : Bool), (s.fixHandoff q b).flt = s.flt := fun q b => by
    rw [State.fixHandoff, State.wr64_flt, State.setBit_flt]
  unfold State.identify State.identifyBy
  split
  · split
    · exact hfix _ _
    · split
      · rfl
      · dsimp only
        split
        · exact hfix _ _
        · split
          · exact hfix _ _
          · rfl
  · rfl

theorem State.reports_collect {s : State} (r : FaultRec) (src : RecSrc) (h : s.flt.queue.length < 1024) :
    (s.collect r src).reports r.cls := by
  obtain ⟨s1, h1, e1⟩ : ∃ s1 : State, s1.flt.queue = s.flt.queue ∧
      s1 = if s.flt.keys.contains r.key then s else { s with flt := { s.flt with keys := s.flt.keys ++ [r.key] } } := by
    refine ⟨_, ?_, rfl⟩
    split <;> rfl
  obtain ⟨s2, h2, e2⟩ : ∃ s2 : State, s2.flt = s1.flt ∧
      s2 = if src = .own && 2 ≤ r.sev && !s.flt.keys.contains r.key && s.ringSize ≠ 0 then
        (s1.sendCtl [r.w0, r.w1, r.w2, r.w3]).add64 Reg.fltCntFwd 1 else s1 := by
    refine ⟨_, ?_, rfl⟩
    split
    · rw [State.add64_flt, State.flt_sendCtl]
    · rfl
  obtain ⟨s3, h3, e3⟩ : ∃ s3 : State, s3.flt = s2.flt ∧
      s3 = if src ≠ .partner && s.mirroredNow && fenceClass r.cls then s2.sendPair 0xA [r.w0, r.w1, r.w2, r.w3] else s2 := by
    refine ⟨_, ?_, rfl⟩
    split <;> rfl
  have hq : (s3.identify r).flt.queue.length < 1024 := by
    rw [State.flt_identify, h3, h2, h1]
    exact h
  have heq : s.collect r src = (s3.identify r).queueRec (if src = .own then r else r.fwd) := by
    rw [e3, e2, e1]
    rfl
  have hcls : (if src = .own then r else r.fwd).cls = r.cls := by
    split
    · rfl
    · exact FaultRec.cls_fwd r
  rw [heq, ← hcls]
  exact State.reports_queueRec hq

/-! ### The hardware actions of a record of another part (R416, R417) -/

/-- The counters of dropped flits and of dropped requests. -/
def lostOffs : List Nat :=
  [Reg.ringCntDrop.off, Reg.ringCntDrop.off + 4, Reg.fltCntEpochdrop.off, Reg.fltCntEpochdrop.off + 4]

/-- Requests have been dropped, and those that waited for them answered: the ring, the queue of requests and two counters alone
differ. -/
def Dropped (s t : State) : Prop :=
  t = { s with regs := t.regs, ring := t.ring, m := { s.m with memq := t.m.memq } } ∧ OnlyRegs s t lostOffs

theorem Dropped.refl (s : State) : Dropped s s := ⟨rfl, fun _ _ => rfl⟩

theorem Dropped.trans {s t u : State} (h : Dropped s t) (k : Dropped t u) : Dropped s u :=
  ⟨by rw [k.1, h.1], h.2.trans k.2⟩

theorem Dropped.ring (s : State) (x : Ring) : Dropped s { s with ring := x } := ⟨rfl, fun _ _ => rfl⟩

theorem Dropped.dropReq (s : State) (r : MemReq) : Dropped s (s.dropReq r) := ⟨rfl, fun _ _ => rfl⟩

theorem Dropped.add64 (s : State) {r : RegRef} (h : r.off ∈ lostOffs) (h' : r.off + 4 ∈ lostOffs) (n : Nat) : Dropped s (s.add64 r n) := by
  obtain ⟨x, hx⟩ : ∃ x, s.add64 r n = { s with regs := x } := ⟨_, s.add64_regs r n⟩
  refine ⟨?_, OnlyRegs.add64 s h h' n⟩
  rw [hx]

theorem Dropped.toPort (s : State) (p : Nat) (f : Flit) : Dropped s (s.toPort p f) := by
  have hinj : ∀ p f, Dropped s (s.inject p f) := fun _ _ => Dropped.ring s _
  unfold State.toPort
  split
  · exact hinj _ _
  · split
    · exact Dropped.add64 s (by decide) (by decide) 1
    · exact hinj _ _

theorem Dropped.sendFlit (s : State) (f : Flit) : Dropped s (s.sendFlit f) := by
  unfold State.sendFlit
  split
  · exact Dropped.ring s _
  · exact Dropped.toPort ..

theorem Dropped.foldl {β : Type} (l : List β) (f : State → β → State) (h : ∀ s b, Dropped s (f s b)) (s : State) :
    Dropped s (l.foldl f s) := by
  induction l generalizing s with
  | nil => exact Dropped.refl s
  | cons b t ih => exact (h s b).trans (ih _)

theorem Dropped.respond (s : State) (part reqr cls laptag sts : Nat) (bs : List Byte) :
    Dropped s (s.respond part reqr cls laptag sts bs) :=
  Dropped.foldl _ _ (fun s _ => (Dropped.ring s _).trans (Dropped.sendFlit ..)) s

theorem Dropped.sendAnswers (s : State) (part reqr : Nat) : Dropped s (s.sendAnswers part reqr) :=
  (Dropped.ring s _).trans (Dropped.foldl _ _ (fun s _ => Dropped.respond s ..) _)

theorem Dropped.answer (s : State) (id sts : Nat) (bs : List Byte) : Dropped s (s.answer id sts bs) := by
  unfold State.answer
  split
  · exact Dropped.refl s
  · exact (Dropped.ring s _).trans (Dropped.sendAnswers ..)

theorem Dropped.pos {s t : State} (h : Dropped s t) : t.pos = s.pos := State.pos_congr (h.2 _ (by decide))

/-- A request of another part is dropped: no engine of this part waits for it. -/
theorem Dropped.loseReq {s : State} {r : MemReq} {k e : Nat} (hr : r.src = .engine k e) (hk : k ≠ s.pos) : Dropped s (s.loseReq r) := by
  have hret : Dropped s (s.returnOld r 1) := by
    unfold State.returnOld
    split
    · exact Dropped.answer ..
    · exact Dropped.refl s
  have hswap : (s.returnOld r 1).swapLost r = s.returnOld r 1 := by
    unfold State.swapLost
    rw [hr, hret.pos]
    split
    · rename_i heq _
      cases heq
      exact if_neg hk
    · rfl
  rw [State.loseReq, hswap]
  exact hret

/-- The requests of another part's Laps that a sweep drops. -/
theorem Dropped.sweepReqs {s : State} {n : Nat} (hn : n ≠ s.pos) (l : List MemReq)
    (hl : ∀ r ∈ l, ∃ e, r.src = .engine n e) : Dropped s (l.foldl (fun s r => (s.dropReq r).loseReq r) s) := by
  induction l generalizing s with
  | nil => exact Dropped.refl s
  | cons r t ih =>
    obtain ⟨e, he⟩ := hl r List.mem_cons_self
    have h1 : Dropped s ((s.dropReq r).loseReq r) := (Dropped.dropReq s r).trans (Dropped.loseReq he hn)
    exact h1.trans (ih (by rw [h1.pos]; exact hn) fun q hq => hl q (List.mem_cons_of_mem _ hq))

/-- A record of another part has acted: besides what dropping changes, fences and sweeps alone differ. -/
def Acted (s t : State) : Prop :=
  t = { s with
    regs := t.regs, ring := t.ring, m := { s.m with memq := t.m.memq }
    flt := { s.flt with fences := t.flt.fences, sweeps := t.flt.sweeps } } ∧ OnlyRegs s t lostOffs

theorem Acted.refl (s : State) : Acted s s := ⟨rfl, fun _ _ => rfl⟩

theorem Acted.fences (s : State) (x : List Fence) : Acted s { s with flt := { s.flt with fences := x } } := ⟨rfl, fun _ _ => rfl⟩

theorem SMap.mem_ins_self {α : Type} (m : SMap α) (k : Nat) (v : α) : (k, v) ∈ SMap.ins m k v := by
  induction m with
  | nil => exact List.mem_singleton.2 rfl
  | cons x t ih =>
    obtain ⟨j, u⟩ := x
    unfold SMap.ins
    split
    · exact List.mem_cons_self
    · split
      · exact List.mem_cons_self
      · exact List.mem_cons_of_mem _ ih

/-- A sweep of another part: kept with its Lap, and that part's waiting requests dropped. -/
theorem Acted.sweepPart {s : State} {n : Nat} (hn : n ≠ s.pos) (f : Nat) :
    Acted s (s.sweepPart n f) ∧ (n, f) ∈ (s.sweepPart n f).flt.sweeps := by
  obtain ⟨s1, h1⟩ : ∃ s1 : State, s1 = { s with flt := { s.flt with sweeps := SMap.ins s.flt.sweeps n f } } := ⟨_, rfl⟩
  obtain ⟨gone, hgone⟩ : ∃ gone, gone = s1.m.memq.filter (fun r =>
    (match r.src with | .engine k _ => k = n | .master _ _ => false) && r.lap ≤ f) := ⟨_, rfl⟩
  have heq : s.sweepPart n f = (gone.foldl (fun s r => (s.dropReq r).loseReq r) s1).add64 Reg.fltCntEpochdrop gone.length := by
    rw [hgone, h1]
    rfl
  have hsrc : ∀ r ∈ gone, ∃ e, r.src = .engine n e := fun r hr => by
    rw [hgone, List.mem_filter, Bool.and_eq_true] at hr
    obtain ⟨-, hr, -⟩ := hr
    split at hr
    · rename_i k e he
      exact ⟨e, by rw [he, of_decide_eq_true hr]⟩
    · cases hr
  have hpos : s1.pos = s.pos := by rw [h1]; rfl
  have hd : Dropped s1 (s.sweepPart n f) := by
    rw [heq]
    exact (Dropped.sweepReqs (by rw [hpos]; exact hn) gone hsrc).trans (Dropped.add64 _ (by decide) (by decide) _)
  obtain ⟨t, ht⟩ : ∃ t, t = s.sweepPart n f := ⟨_, rfl⟩
  rw [← ht] at hd ⊢
  have hflt : t.flt = { s.flt with sweeps := SMap.ins s.flt.sweeps n f } := by rw [hd.1, h1]
  refine ⟨⟨?_, fun r hr => ?_⟩, ?_⟩
  · rw [hflt, hd.1, h1]
  · have h0 : s1.rd r = s.rd r := by rw [h1]; rfl
    rw [hd.2 r hr, h0]
  · rw [hflt]
    exact SMap.mem_ins_self _ _ _

theorem State.beginFence_spec (s : State) (part epoch lap : Nat) :
    Acted s (s.beginFence part epoch lap) ∧ ∃ f ∈ (s.beginFence part epoch lap).flt.fences, f.part = part ∧ f.epoch = epoch := by
  unfold State.beginFence
  split
  · rename_i h
    obtain ⟨f, hf, hp⟩ := List.any_eq_true.1 h
    exact ⟨Acted.refl s, f, hf, of_decide_eq_true hp⟩
  · exact ⟨Acted.fences s _, _, List.mem_append_right _ (List.mem_singleton.2 rfl), rfl, rfl⟩

/-- What a record of another part does here, by its class, epoch and origin. -/
theorem State.recActs_spec (s : State) (r : FaultRec) : Acted s (s.recActs r) ∧
    (s.mirroredNow = false → r.origin / 2 ^ 13 ≠ s.pos → r.epoch ≠ 0xFFFF → r.epoch ≠ 0 → r.origin / 2 ^ 9 % 16 = 0 →
      r.cls ∈ [0x05, 0x07] → ∃ f ∈ (s.recActs r).flt.fences, f.part = r.origin / 2 ^ 13 ∧ f.epoch = r.epoch) ∧
    (s.mirroredNow = false → r.origin / 2 ^ 13 ≠ s.pos → r.epoch = 0xFFFF →
      (r.origin / 2 ^ 13, s.fullLap r.lap16) ∈ (s.recActs r).flt.sweeps) := by
  obtain ⟨part, hpart⟩ : ∃ part, part = r.origin / 2 ^ 13 := ⟨_, rfl⟩
  obtain ⟨kind, hkind⟩ : ∃ kind, kind = r.origin / 2 ^ 9 % 16 := ⟨_, rfl⟩
  unfold State.recActs
  dsimp only
  rw [← hpart, ← hkind]
  obtain ⟨hact, hmem⟩ := s.beginFence_spec part r.epoch (s.fullLap r.lap16)
  split
  · rename_i h
    have hno : s.mirroredNow = false → part ≠ s.pos → False := fun h1 h2 => by simp [h1, h2] at h
    exact ⟨Acted.refl s, fun h1 h2 => (hno h1 h2).elim, fun h1 h2 => (hno h1 h2).elim⟩
  · rename_i h
    have hn : part ≠ s.pos := fun hp => h (by simp [hp])
    split
    · rename_i he
      obtain ⟨ha, hs⟩ := Acted.sweepPart hn (s.fullLap r.lap16)
      exact ⟨ha, fun _ _ h3 => absurd he h3, fun _ _ _ => hs⟩
    · rename_i he
      split
      · rename_i hk
        refine ⟨Acted.refl s, fun _ _ _ h4 h5 => ?_, fun _ _ h3 => absurd h3 he⟩
        simp [h4, h5] at hk
      · split
        · rename_i hc
          refine ⟨Acted.fences s _, fun _ _ _ _ _ h6 => ?_, fun _ _ h3 => absurd h3 he⟩
          rw [hc.1] at h6
          exact absurd h6 (by decide)
        · split
          · exact ⟨hact, fun _ _ _ _ _ _ => hmem, fun _ _ h3 => absurd h3 he⟩
          · rename_i hc
            refine ⟨Acted.refl s, fun _ _ _ _ _ h6 => absurd ?_ hc, fun _ _ h3 => absurd h3 he⟩
            simp only [List.mem_cons, List.not_mem_nil, or_false] at h6
            obtain h6 | h6 := h6 <;> rw [h6] <;> decide

theorem faultRecords_complete : Claims.FaultRecordsComplete := by
  intro s r hlen
  refine ⟨?_, ?_⟩
  · have hf := Filed.collect s r .own
    have hfences : (s.collect r .own).flt.fences = s.flt.fences := by rw [hf.1]
    exact ⟨_, rfl, State.reports_collect r .own hlen, hf.m, hf.engines, hf.sta, hfences, (s.collect_faultOnly r .own).2⟩
  · obtain ⟨hact, hfence, hsweep⟩ := s.recActs_spec r
    obtain ⟨s1, h1⟩ : ∃ s1, s1 = s.recActs r := ⟨_, rfl⟩
    have hexec : exec (.flt r true) s = .next (s1.collect r .ring) := by rw [h1]; rfl
    rw [← h1] at hact hfence hsweep
    have hf := Filed.collect s1 r .ring
    have hq : s1.flt.queue = s.flt.queue := by rw [hact.1]
    have hm : s1.m.mem = s.m.mem := by rw [hact.1]
    have he : s1.engines = s.engines := by rw [hact.1]
    have hsta : s1.sta = s.sta := by rw [hact.1]
    have hfences : (s1.collect r .ring).flt.fences = s1.flt.fences := by rw [hf.1]
    have hsweeps : (s1.collect r .ring).flt.sweeps = s1.flt.sweeps := by rw [hf.1]
    refine ⟨_, hexec, State.reports_collect r .ring (by rw [hq]; exact hlen), by rw [hf.m, hm], by rw [hf.engines, he],
      by rw [hf.sta, hsta], ?_, ?_⟩
    · rw [hfences]
      exact hfence
    · rw [hsweeps]
      exact fun h1 h2 h3 => ⟨_, hsweep h1 h2 h3, rfl, rfl⟩

/-- Settles O48: messages by the state each leads to, records by what filing them and their actions leave. -/
theorem messagesAndRecords : Obligations.MessagesAndRecords := ⟨messages_complete, faultRecords_complete⟩

end Sys2Proof.Machine

/-!
PROOFS. Integer instructions (R87, R88, R104, R105): what each computation on numbers gives as a computation on bit vectors,
then completion and traps of the instructions of rows 0x2, 0x3 and 0x4. Settles O1 to O5.
-/
namespace Sys2Proof.Machine

/-! ### Immediates (R88) -/

/-- The own immediate of `n` bits, with no extension. -/
theorem PInfo.imm_own (i : PInfo) {n : Nat} (h : i.ext = 0) (hn : n ≤ 64) (x : W64) (v : BitVec n) (signed : Bool) :
    i.imm x n v.toNat signed = if signed then v.signExtend 64 else v.setWidth 64 := by
  simp only [PInfo.imm, h, Nat.mul_zero, Nat.pow_zero, Nat.mod_one, Nat.zero_mul, Nat.add_zero, sextW_toNat hn, zextW_toNat hn]
  rfl

/-- Extension bytes of `m` bits stand above an immediate of `n` bits. -/
theorem PInfo.imm_append (i : PInfo) {m n : Nat} (hm : 8 * i.ext = m) (h8 : i.ext ≠ 8) (hn : m + n ≤ 64) (x : W64) (v : BitVec n)
    (signed : Bool) : i.imm x n v.toNat signed =
      if signed then (x.setWidth m ++ v : BitVec (m + n)).signExtend 64 else (x.setWidth m ++ v : BitVec (m + n)).setWidth 64 := by
  have hv : v.toNat + x.toNat % 2 ^ m * 2 ^ n = (x.setWidth m ++ v : BitVec (m + n)).toNat := by
    rw [BitVec.toNat_append, BitVec.toNat_setWidth, Nat.shiftLeft_eq, Nat.mul_comm _ (2 ^ n),
      ← Nat.two_pow_add_eq_or_of_lt v.isLt, Nat.add_comm]
  unfold PInfo.imm
  rw [if_neg h8, hm, hv, Nat.add_comm n m]
  simp only [sextW_toNat hn, zextW_toNat hn]

/-- Settles O5: each form by the bytes that its extension puts above the immediate. -/
theorem immediateForms : Obligations.ImmediateForms := by
  intro c x f
  have own := PInfo.imm_own (pInfo ⟨[], 0, c⟩) rfl (by decide) 0 f.imm
  have two := PInfo.imm_append (pInfo ⟨[0xF4], x, c⟩) (m := 16) rfl (show (2 : Nat) ≠ 8 by decide) (by decide) x f.imm
  have four := PInfo.imm_append (pInfo ⟨[0xF5], x, c⟩) (m := 32) rfl (show (4 : Nat) ≠ 8 by decide) (by decide) x f.imm
  exact ⟨own true, own false, two true, two false, four true, four false, rfl, rfl⟩

/-! ### Sums, differences and comparisons (R104) -/

theorem intAdd_eq {w : Nat} (hw : 0 < w) (f : W64) (ove : Bool) (x y : BitVec w) (c : Nat) :
    intAdd f ove w x.toNat y.toNat c =
      IRes.orOverflow ⟨some (x + y + BitVec.ofNat w c).toNat, true, sumFlags w f x y c, 0⟩ ove
        (decide (x.toInt + y.toInt + c ≠ (x + y + BitVec.ofNat w c).toInt)) := by
  have hr : (x.toNat + y.toNat + c) % 2 ^ w = (x + y + BitVec.ofNat w c).toNat := by simp [Nat.add_mod]
  simp only [intAdd, addW, flagsOf, hr, nzOf_eq hw, sval_toNat hw, sumFlags]

theorem subW_eq {w : Nat} (hw : 0 < w) (x y : BitVec w) : subW w x.toNat y.toNat =
    ((x - y).toNat, decide (x.toNat < y.toNat), decide (x.toInt - y.toInt ≠ (x - y).toInt)) := by
  have hr : (x.toNat + 2 ^ w - y.toNat) % 2 ^ w = (x - y).toNat := by
    have := y.isLt
    rw [BitVec.toNat_sub]
    congr 1
    omega
  simp only [subW, hr, sval_toNat hw]

theorem intSub_eq {w : Nat} (hw : 0 < w) (f : W64) (ove : Bool) (x y : BitVec w) :
    intSub f ove w x.toNat y.toNat =
      IRes.orOverflow ⟨some (x - y).toNat, true, diffFlags w f x y, 0⟩ ove (decide (x.toInt - y.toInt ≠ (x - y).toInt)) := by
  simp only [intSub, subW_eq hw, flagsOf, nzOf_eq hw, diffFlags]

theorem intCmp_eq {w : Nat} (hw : 0 < w) (f : W64) (x y : BitVec w) :
    intCmp f w x.toNat y.toNat = ⟨none, true, diffFlags w f x y, 0⟩ := by
  simp only [intCmp, subW_eq hw, flagsOf, nzOf_eq hw, diffFlags]

/-! ### Products and quotients (R104, R105, R261, R262) -/

/-- A value lies outside the signed range exactly where its low bits are another value. -/
theorem outside_eq {w : Nat} (hw : 0 < w) (i : Int) : outside w i = decide (i ≠ (BitVec.ofInt w i).toInt) := by
  rw [outside, ← Bool.decide_or, decide_eq_decide]
  constructor
  · intro h hi
    have h1 := BitVec.le_toInt (BitVec.ofInt w i)
    have h2 := BitVec.toInt_lt (x := BitVec.ofInt w i)
    omega
  · intro h
    by_contra hc
    push Not at hc
    exact h (BitVec.toInt_ofInt_eq_self hw hc.1 hc.2).symm

theorem intMul_eq {w : Nat} (hw : 0 < w) (f : W64) (ove : Bool) (x y : BitVec w) :
    intMul f ove w x.toNat y.toNat =
      IRes.orOverflow ⟨some (x * y).toNat, true, putV f (decide (x.toInt * y.toInt ≠ (x * y).toInt)), 0⟩ ove
        (decide (x.toInt * y.toInt ≠ (x * y).toInt)) := by
  have hr : BitVec.ofInt w (x.toInt * y.toInt) = x * y := by rw [BitVec.ofInt_mul, BitVec.ofInt_toInt, BitVec.ofInt_toInt]
  simp only [intMul, sval_toNat hw, lowBits_eq, outside_eq hw, hr]

theorem intDiv_eq {w : Nat} (hw : 0 < w) (f : W64) (ove : Bool) (x : BitVec w) {y : BitVec w} (hy : y ≠ 0) :
    intDiv f ove w x.toNat y.toNat =
      IRes.orOverflow ⟨some (x.sdiv y).toNat, true, putV f (decide (x = BitVec.intMin w ∧ y = -1#w)), 0⟩ ove
        (decide (x = BitVec.intMin w ∧ y = -1#w)) := by
  have hr : BitVec.ofInt w (x.toInt.tdiv y.toInt) = x.sdiv y :=
    BitVec.eq_of_toInt_eq (by rw [BitVec.toInt_ofInt, BitVec.toInt_sdiv])
  have ho : (x.toInt.tdiv y.toInt ≠ (x.sdiv y).toInt) ↔ (x = BitVec.intMin w ∧ y = -1#w) := by
    constructor
    · intro h
      by_contra hc
      exact h (BitVec.toInt_sdiv_of_ne_or_ne x y (by rwa [not_and_or] at hc)).symm
    · rintro ⟨rfl, rfl⟩
      have hp : (0 : Int) < 2 ^ (w - 1) := by positivity
      rw [BitVec.intMin_sdiv_neg_one, BitVec.toInt_intMin_of_pos hw, BitVec.neg_one_eq_allOnes, BitVec.toInt_allOnes, if_pos hw]
      simp only [Int.reduceNeg, Int.tdiv_neg, Int.tdiv_one]
      omega
  have hy' : y.toNat ≠ 0 := fun h => hy (BitVec.eq_of_toNat_eq h)
  simp only [intDiv, hy', if_false, sval_toNat hw, lowBits_eq, outside_eq hw, hr, ho]

theorem intRem_eq {w : Nat} (hw : 0 < w) (f : W64) (x : BitVec w) {y : BitVec w} (hy : y ≠ 0) :
    intRem f w x.toNat y.toNat = IRes.plain f true (x.srem y).toNat := by
  have hr : BitVec.ofInt w (x.toInt.tmod y.toInt) = x.srem y :=
    by rw [← BitVec.toInt_srem, BitVec.ofInt_toInt]
  have hy' : y.toNat ≠ 0 := fun h => hy (BitVec.eq_of_toNat_eq h)
  simp only [intRem, hy', if_false, sval_toNat hw, lowBits_eq, hr]

theorem intDivu_eq {w : Nat} (f : W64) (rem : Bool) (x : BitVec w) {y : BitVec w} (hy : y ≠ 0) :
    intDivu f rem x.toNat y.toNat = IRes.plain f false (if rem then x % y else x / y).toNat := by
  have hy' : y.toNat ≠ 0 := fun h => hy (BitVec.eq_of_toNat_eq h)
  cases rem <;> simp [intDivu, hy']

/-! ### Results that an instruction writes (R87) -/

/-- The result traps nothing and writes FLAGS `fl` and the register value `v`. -/
def IRes.Writes (r : IRes) (w : Nat) (fl v : W64) : Prop :=
  ∀ (a : Arch) (d : Nat), a.putInt w d r = .ok ({ a with flags := fl }.wrG d v)

theorem IRes.writes_sext {w : Nat} (hw : w ≤ 64) (fl : W64) (x : BitVec w) :
    IRes.Writes ⟨some x.toNat, true, fl, 0⟩ w fl (x.signExtend 64) := fun a d => a.putInt_sext hw d fl x

/-- A sign-extended result that leaves FLAGS alone, by its w-bit value. -/
theorem IRes.plain_sext {w n : Nat} (hw : w ≤ 64) (fl : W64) {x : BitVec w} (h : n = x.toNat) :
    (IRes.plain fl true n).Writes w fl (x.signExtend 64) := h ▸ IRes.writes_sext hw fl x

/-- A zero-extended result that leaves FLAGS alone, by its w-bit value. -/
theorem IRes.plain_zext {w n : Nat} (hw : w ≤ 64) (fl : W64) {x : BitVec w} (h : n = x.toNat) :
    (IRes.plain fl false n).Writes w fl (x.setWidth 64) := fun a d => h ▸ a.putInt_zext hw d fl x

/-- OVERFLOW is not raised where PSR.OVE masks it or nothing overflows. -/
theorem IRes.orOverflow_ok (r : IRes) {ove ov : Bool} (h : ove = true → ov = false) : r.orOverflow ove ov = r := by
  cases ove
  · rfl
  · rw [h rfl]; rfl

/-- A sum that does not overflow under PSR.OVE. -/
theorem intAdd_writes {w : Nat} (hw : 0 < w) (h64 : w ≤ 64) (f : W64) {ove : Bool} {x y : BitVec w} (c : Nat)
    (h : ove = true → x.toInt + y.toInt + c = (x + y + BitVec.ofNat w c).toInt) :
    (intAdd f ove w x.toNat y.toNat c).Writes w (sumFlags w f x y c) ((x + y + BitVec.ofNat w c).signExtend 64) := by
  rw [intAdd_eq hw, IRes.orOverflow_ok _ fun ho => by simpa using h ho]
  exact IRes.writes_sext h64 _ _

theorem intSub_writes {w : Nat} (hw : 0 < w) (h64 : w ≤ 64) (f : W64) {ove : Bool} {x y : BitVec w}
    (h : ove = true → x.toInt - y.toInt = (x - y).toInt) :
    (intSub f ove w x.toNat y.toNat).Writes w (diffFlags w f x y) ((x - y).signExtend 64) := by
  rw [intSub_eq hw, IRes.orOverflow_ok _ fun ho => by simpa using h ho]
  exact IRes.writes_sext h64 _ _

theorem intMul_writes {w : Nat} (hw : 0 < w) (h64 : w ≤ 64) (f : W64) {ove : Bool} {x y : BitVec w}
    (h : ove = true → x.toInt * y.toInt = (x * y).toInt) :
    (intMul f ove w x.toNat y.toNat).Writes w (putV f (decide (x.toInt * y.toInt ≠ (x * y).toInt))) ((x * y).signExtend 64) := by
  rw [intMul_eq hw, IRes.orOverflow_ok _ fun ho => by simpa using h ho]
  exact IRes.writes_sext h64 _ _

theorem intDiv_writes {w : Nat} (hw : 0 < w) (h64 : w ≤ 64) (f : W64) {ove : Bool} {x y : BitVec w} (hy : y ≠ 0)
    (h : ove = true → ¬(x = BitVec.intMin w ∧ y = -1#w)) :
    (intDiv f ove w x.toNat y.toNat).Writes w (putV f (decide (x = BitVec.intMin w ∧ y = -1#w))) ((x.sdiv y).signExtend 64) := by
  rw [intDiv_eq hw f ove x hy, IRes.orOverflow_ok _ fun ho => decide_eq_false (h ho)]
  exact IRes.writes_sext h64 _ _

/-- The high half of a signed product. -/
theorem intMulh_signed {w : Nat} (hw : 0 < w) (h64 : w ≤ 64) (f : W64) (x y : BitVec w) :
    (intMulh f w true x.toNat y.toNat).Writes w f ((BitVec.ofInt w (x.toInt * y.toInt / (2 : Int) ^ w)).signExtend 64) := by
  simp only [intMulh, if_true, sval_toNat hw, lowBits_eq]
  exact IRes.plain_sext h64 f rfl

/-- The high half of an unsigned product. -/
theorem intMulh_unsigned {w : Nat} (h64 : w ≤ 64) (f : W64) (x y : BitVec w) :
    (intMulh f w false x.toNat y.toNat).Writes w f ((BitVec.ofNat w (x.toNat * y.toNat / 2 ^ w)).setWidth 64) := by
  refine IRes.plain_zext h64 f ?_
  have h : x.toNat * y.toNat / 2 ^ w < 2 ^ w := Nat.div_lt_of_lt_mul (Nat.mul_lt_mul'' x.isLt y.isLt)
  rw [BitVec.toNat_ofNat, Nat.mod_eq_of_lt h]

/-! ### Shifts and rotates (R104) -/

theorem intShift_shl {w : Nat} (h64 : w ≤ 64) (f : W64) (x y : BitVec w) :
    (intShift f .shl w x.toNat y.toNat).Writes w f ((x <<< (y.toNat % w)).setWidth 64) :=
  IRes.plain_zext h64 f (by rw [BitVec.toNat_shiftLeft, Nat.shiftLeft_eq])

theorem intShift_shr {w : Nat} (h64 : w ≤ 64) (f : W64) (x y : BitVec w) :
    (intShift f .shr w x.toNat y.toNat).Writes w f ((x >>> (y.toNat % w)).setWidth 64) :=
  IRes.plain_zext h64 f (by rw [BitVec.toNat_ushiftRight, Nat.shiftRight_eq_div_pow])

theorem intShift_sar {w : Nat} (hw : 0 < w) (h64 : w ≤ 64) (f : W64) (x y : BitVec w) :
    (intShift f .sar w x.toNat y.toNat).Writes w f ((x.sshiftRight (y.toNat % w)).signExtend 64) := by
  refine IRes.plain_sext h64 f ?_
  have h : x.toInt / (2 : Int) ^ (y.toNat % w) = (x.sshiftRight (y.toNat % w)).toInt := by
    rw [BitVec.toInt_sshiftRight, Int.shiftRight_eq_div_pow]; push_cast; rfl
  rw [sval_toNat hw, lowBits_eq, h, BitVec.ofInt_toInt]

/-- A rotate puts the bits shifted out below those shifted left. -/
theorem intShift_rol {w : Nat} (hw : 0 < w) (h64 : w ≤ 64) (f : W64) (x y : BitVec w) :
    (intShift f .rol w x.toNat y.toNat).Writes w f ((x.rotateLeft (y.toNat % w)).setWidth 64) := by
  refine IRes.plain_zext h64 f ?_
  generalize hn : y.toNat % w = n
  have hlt : n < w := hn ▸ Nat.mod_lt _ hw
  have hw2 : 2 ^ w = 2 ^ (w - n) * 2 ^ n := by rw [← Nat.pow_add]; congr 1; omega
  have hlow : x.toNat / 2 ^ (w - n) < 2 ^ n := Nat.div_lt_of_lt_mul (hw2 ▸ x.isLt)
  rw [BitVec.toNat_rotateLeft, Nat.mod_eq_of_lt hlt, Nat.shiftLeft_eq, Nat.shiftRight_eq_div_pow, hw2, Nat.mul_mod_mul_right,
    Nat.mul_comm _ (2 ^ n), ← Nat.two_pow_add_eq_or_of_lt hlow]

/-! ### Minima, maxima and set-if-less (R104) -/

theorem intMinMax_signed {w : Nat} (hw : 0 < w) (h64 : w ≤ 64) (f : W64) (wantMin : Bool) (x y : BitVec w) :
    (intMinMax f wantMin true w x.toNat y.toNat).Writes w f
      ((if x.toInt ≤ y.toInt then (if wantMin then x else y) else (if wantMin then y else x)).signExtend 64) := by
  refine IRes.plain_sext h64 f ?_
  simp only [if_true, sval_toNat hw]
  rcases lt_trichotomy x.toInt y.toInt with h | h | h
  · cases wantMin <;> simp [h, h.le]
  · simp [BitVec.eq_of_toInt_eq h]
  · cases wantMin <;> simp [h.not_gt, h.not_ge]

theorem intMinMax_unsigned {w : Nat} (h64 : w ≤ 64) (f : W64) (wantMin : Bool) (x y : BitVec w) :
    (intMinMax f wantMin false w x.toNat y.toNat).Writes w f
      ((if x.toNat ≤ y.toNat then (if wantMin then x else y) else (if wantMin then y else x)).setWidth 64) := by
  refine IRes.plain_zext h64 f ?_
  simp only [Bool.false_eq_true, if_false]
  rcases lt_trichotomy x.toNat y.toNat with h | h | h
  · cases wantMin <;> simp [h, h.le]
  · simp [BitVec.eq_of_toNat_eq h]
  · cases wantMin <;> simp [h.not_gt, h.not_ge]

/-- A truth value at a width of two bits or more is the same under either extension. -/
theorem IRes.plain_bit {w : Nat} (h2 : 2 ≤ w) (h64 : w ≤ 64) (f : W64) (signed b : Bool) :
    (IRes.plain f signed b.toNat).Writes w f (if b then 1 else 0) := by
  have h1 : (1 : Nat) < 2 ^ w := Nat.one_lt_two_pow (by omega)
  have hint : (1#w).toInt = 1 := by
    rw [BitVec.toInt_eq_toNat_of_lt] <;> simp only [BitVec.toNat_ofNat, Nat.mod_eq_of_lt h1]
    · rfl
    · have := Nat.pow_lt_pow_right (a := 2) (by decide) (show 1 < w by omega)
      omega
  have hs : (1#w).signExtend 64 = 1 := by rw [BitVec.signExtend, hint]; rfl
  have hz : (1#w).setWidth 64 = 1 := BitVec.eq_of_toNat_eq (by simp [Nat.mod_eq_of_lt h1])
  cases b
  · cases signed
    · simpa using IRes.plain_zext h64 f (n := 0) (x := 0#w) (by simp)
    · simpa [BitVec.signExtend] using IRes.plain_sext h64 f (n := 0) (x := 0#w) (by simp)
  · cases signed
    · exact hz ▸ IRes.plain_zext h64 f (n := 1) (x := 1#w) (by simp [Nat.mod_eq_of_lt h1])
    · exact hs ▸ IRes.plain_sext h64 f (n := 1) (x := 1#w) (by simp [Nat.mod_eq_of_lt h1])

theorem intSlt_signed {w : Nat} (h2 : 2 ≤ w) (h64 : w ≤ 64) (f : W64) (x y : BitVec w) :
    (intSlt f true w x.toNat y.toNat).Writes w f (if x.toInt < y.toInt then 1 else 0) := by
  have h := IRes.plain_bit h2 h64 f true (decide (x.toInt < y.toInt))
  simpa only [intSlt, if_true, sval_toNat (show 0 < w by omega), decide_eq_true_eq] using h

theorem intSlt_unsigned {w : Nat} (h2 : 2 ≤ w) (h64 : w ≤ 64) (f : W64) (x y : BitVec w) :
    (intSlt f false w x.toNat y.toNat).Writes w f (if x.toNat < y.toNat then 1 else 0) := by
  have h := IRes.plain_bit h2 h64 f false (decide (x.toNat < y.toNat))
  simpa only [intSlt, Bool.false_eq_true, if_false, decide_eq_true_eq] using h

/-! ### Completion (R104) -/

theorem must0_iff (xs : List Nat) : must0 xs = 0 ↔ ∀ x ∈ xs, x = 0 := by
  simp only [must0, ite_eq_left_iff, List.all_eq_true, decide_eq_true_eq]
  exact ⟨fun h => by_contra fun hc => absurd (h hc) (by decide), fun h hc => absurd h hc⟩

/-- A register-register integer instruction completes with what its computation writes. -/
theorem intResult_of {c : Nat → Pfx → FmtR → Instr} {op : Nat} {unary : Bool}
    {ok : (w : Nat) → W64 → Bool → BitVec w → BitVec w → Prop}
    {v : (w : Nat) → W64 → BitVec w → BitVec w → W64} {fl : (w : Nat) → W64 → BitVec w → BitVec w → W64}
    {lat : Pfx → FmtR → Arch → Option Nat} {g : W64 → Bool → Nat → Nat → Nat → IRes}
    (run : Nat → Pfx → FmtR → State → Res) (hc : ∀ e p f s, exec (c e p f) s = run e p f s)
    (hr : ∀ e p f s, run e p f s = s.intR e p op f (bif unary then [f.b.toNat] else []) (lat p f) g)
    (hg : ∀ (w : Nat), 8 ≤ w → w ≤ 64 → ∀ (f : W64) (ove : Bool) (x y : BitVec w), ok w f ove x y →
      (g f ove w x.toNat y.toNat).Writes w (fl w f x y) (v w f x y)) : IntResult c op unary ok v fl := by
  intro s e p f hz hu he hok
  have h0 : must0 (f.z.toNat :: bif unary then [f.b.toNat] else []) = 0 := by
    cases unary <;> simp [must0_iff, hz, hu]
  rw [hc, hr]
  exact State.intR_retires (lat p f) g _ h0 he (hg _ (opW_le p).1 (opW_le p).2 _ _ _ _ hok _ _)

/-- An integer instruction with an immediate completes with what its computation writes. -/
theorem immResult_of {c : Nat → Pfx → FmtI → Instr} {op : Nat} {unary signed : Bool}
    {ok : (w : Nat) → W64 → Bool → BitVec w → BitVec w → Prop}
    {v : (w : Nat) → W64 → BitVec w → BitVec w → W64} {fl : (w : Nat) → W64 → BitVec w → BitVec w → W64}
    {lat : Pfx → FmtI → Arch → Option Nat} {g : W64 → Bool → Nat → Nat → Nat → IRes}
    (run : Nat → Pfx → FmtI → State → Res) (hc : ∀ e p f s, exec (c e p f) s = run e p f s)
    (hr : ∀ e p f s, run e p f s = s.intI e p op f (bif unary then [f.a.toNat] else []) signed (lat p f) g)
    (hg : ∀ (w : Nat), 8 ≤ w → w ≤ 64 → ∀ (f : W64) (ove : Bool) (x y : BitVec w), ok w f ove x y →
      (g f ove w x.toNat y.toNat).Writes w (fl w f x y) (v w f x y)) : ImmResult c op unary signed ok v fl := by
  intro s e p f hu hi he hok
  have h0 : lowest (must0 (bif unary then [f.a.toNat] else [])) (immCause p f.imm.toNat) = 0 := by
    have hm : must0 (bif unary then [f.a.toNat] else []) = 0 := by
      cases unary <;> simp [must0_iff, hu]
    rw [hm, hi]; rfl
  rw [hc, hr]
  exact State.intI_retires (lat p f) g _ h0 he (hg _ (opW_le p).1 (opW_le p).2 _ _ _ _ hok _ _)

/-! ### Sums and compares -/

theorem addSub_complete : Claims.AddSubComplete := by
  have sum : ∀ (w : Nat), 8 ≤ w → w ≤ 64 → ∀ (f : W64) (ove : Bool) (x y : BitVec w),
      (ove = true → x.toInt + y.toInt = (x + y : BitVec w).toInt) →
      (intAdd f ove w x.toNat y.toNat 0).Writes w (sumFlags w f x y 0) ((x + y).signExtend 64) := by
    intro w h8 h64 f ove x y h
    simpa using intAdd_writes (by omega) h64 f 0 (by simpa using h)
  refine ⟨intResult_of execAdd (fun _ _ _ _ => rfl) (fun _ _ _ _ => rfl) sum, ?_, ?_,
    immResult_of execAddi (fun _ _ _ _ => rfl) (fun _ _ _ _ => rfl) sum⟩
  · exact intResult_of execAddc (fun _ _ _ _ => rfl) (fun _ _ _ _ => rfl) fun w h8 h64 f ove x y h => intAdd_writes (by omega) h64 f _ h
  · exact intResult_of execSub (fun _ _ _ _ => rfl) (fun _ _ _ _ => rfl) fun w h8 h64 f ove x y h => intSub_writes (by omega) h64 f h

theorem compare_complete : Claims.CompareComplete := by
  refine ⟨fun s e p f hz hd he => ?_, fun s e p f hd hi he => ?_, fun s e p f hd hi he => ?_⟩
  · have h0 : must0 [f.z.toNat, f.d.toNat] = 0 := by simp [must0_iff, hz, hd]
    refine State.intR_retires latAdd (fun f _ w a b => intCmp f w a b) _ h0 he ?_
    rw [intCmp_eq (by have := opW_le p; omega)]
    rfl
  · have h0 : lowest (must0 [f.d.toNat]) (immCause p f.imm.toNat) = 0 := by simp [must0_iff, hd, hi, lowest]
    refine State.intI_retires latAdd (fun f _ w a b => intCmp f w a b) _ h0 he ?_
    rw [intCmp_eq (by have := opW_le p; omega)]
    rfl
  · have h0 : lowest (must0 [f.d.toNat]) (immCause p f.imm.toNat) = 0 := by simp [must0_iff, hd, hi, lowest]
    refine State.intI_retires latNone (fun f _ w a b => ⟨none, false, flagsOf f w (a &&& b) false false, 0⟩) _ h0 he ?_
    rw [← BitVec.toNat_and, flagsOf, nzOf_eq (by have := opW_le p; omega)]
    rfl

/-- Settles O1: what each computation writes, at the instruction's width. -/
theorem integerSumsAndCompares : Obligations.IntegerSumsAndCompares := ⟨addSub_complete, compare_complete⟩

/-! ### Logic and moves -/

theorem logicMove_complete : Claims.LogicMoveComplete := by
  refine ⟨intResult_of execAnd (fun _ _ _ _ => rfl) (fun _ _ _ _ => rfl) ?_,
    intResult_of execOr (fun _ _ _ _ => rfl) (fun _ _ _ _ => rfl) ?_,
    intResult_of execXor (fun _ _ _ _ => rfl) (fun _ _ _ _ => rfl) ?_,
    intResult_of execAndn (fun _ _ _ _ => rfl) (fun _ _ _ _ => rfl) ?_,
    intResult_of execMov (fun _ _ _ _ => rfl) (fun _ _ _ _ => rfl) ?_,
    intResult_of execSext (fun _ _ _ _ => rfl) (fun _ _ _ _ => rfl) ?_,
    intResult_of execZext (fun _ _ _ _ => rfl) (fun _ _ _ _ => rfl) ?_,
    immResult_of execAndi (fun _ _ _ _ => rfl) (fun _ _ _ _ => rfl) ?_,
    immResult_of execOri (fun _ _ _ _ => rfl) (fun _ _ _ _ => rfl) ?_,
    immResult_of execXori (fun _ _ _ _ => rfl) (fun _ _ _ _ => rfl) ?_,
    immResult_of execMovi (fun _ _ _ _ => rfl) (fun _ _ _ _ => rfl) ?_⟩ <;> intro w h8 h64 f _ x y _
  case refine_4 =>
    refine IRes.plain_zext h64 f ?_
    rw [BitVec.toNat_and, BitVec.toNat_not]
  case refine_6 => exact IRes.plain_sext h64 f rfl
  case refine_11 => exact IRes.plain_sext h64 f rfl
  all_goals exact IRes.plain_zext h64 f (by simp only [BitVec.toNat_and, BitVec.toNat_or, BitVec.toNat_xor])

theorem shift_complete : Claims.ShiftComplete := by
  refine ⟨intResult_of execShl (fun _ _ _ _ => rfl) (fun _ _ _ _ => rfl) fun w h8 h64 f _ x y _ => intShift_shl h64 f x y,
    intResult_of execShr (fun _ _ _ _ => rfl) (fun _ _ _ _ => rfl) fun w h8 h64 f _ x y _ => intShift_shr h64 f x y,
    intResult_of execSar (fun _ _ _ _ => rfl) (fun _ _ _ _ => rfl) fun w h8 h64 f _ x y _ => intShift_sar (by omega) h64 f x y,
    intResult_of execRol (fun _ _ _ _ => rfl) (fun _ _ _ _ => rfl) fun w h8 h64 f _ x y _ => intShift_rol (by omega) h64 f x y,
    immResult_of execShli (fun _ _ _ _ => rfl) (fun _ _ _ _ => rfl) fun w h8 h64 f _ x y _ => intShift_shl h64 f x y,
    immResult_of execShri (fun _ _ _ _ => rfl) (fun _ _ _ _ => rfl) fun w h8 h64 f _ x y _ => intShift_shr h64 f x y,
    immResult_of execSari (fun _ _ _ _ => rfl) (fun _ _ _ _ => rfl) fun w h8 h64 f _ x y _ => intShift_sar (by omega) h64 f x y,
    immResult_of execRoli (fun _ _ _ _ => rfl) (fun _ _ _ _ => rfl) fun w h8 h64 f _ x y _ => intShift_rol (by omega) h64 f x y⟩

theorem minMaxSet_complete : Claims.MinMaxSetComplete := by
  refine ⟨intResult_of execMin (fun _ _ _ _ => rfl) (fun _ _ _ _ => rfl) ?_,
    intResult_of execMax (fun _ _ _ _ => rfl) (fun _ _ _ _ => rfl) ?_,
    intResult_of execMinu (fun _ _ _ _ => rfl) (fun _ _ _ _ => rfl) ?_,
    intResult_of execMaxu (fun _ _ _ _ => rfl) (fun _ _ _ _ => rfl) ?_,
    intResult_of execSlt (fun _ _ _ _ => rfl) (fun _ _ _ _ => rfl) ?_,
    intResult_of execSltu (fun _ _ _ _ => rfl) (fun _ _ _ _ => rfl) ?_,
    immResult_of execSlti (fun _ _ _ _ => rfl) (fun _ _ _ _ => rfl) ?_,
    immResult_of execSltiu (fun _ _ _ _ => rfl) (fun _ _ _ _ => rfl) ?_⟩ <;> intro w h8 h64 f _ x y _
  · exact intMinMax_signed (by omega) h64 f true x y
  · exact intMinMax_signed (by omega) h64 f false x y
  · exact intMinMax_unsigned h64 f true x y
  · exact intMinMax_unsigned h64 f false x y
  · exact intSlt_signed (by omega) h64 f x y
  · exact intSlt_unsigned (by omega) h64 f x y
  · exact intSlt_signed (by omega) h64 f x y
  · exact intSlt_unsigned (by omega) h64 f x y

/-! ### Counts of bits and the order of bytes -/

/-- The leading zeros of a value, and the one that ends them. -/
theorem clzW_spec {w : Nat} (x : BitVec w) : clzW w x.toNat ≤ w ∧ (∀ i, i < clzW w x.toNat → x.getMsbD i = false) ∧
    (clzW w x.toNat < w → x.getMsbD (clzW w x.toNat) = true) := by
  by_cases h0 : x.toNat = 0
  · have hx : x = 0#w := BitVec.eq_of_toNat_eq (by simpa using h0)
    simp [clzW, hx]
  · have hlog : Nat.log2 x.toNat < w := (Nat.log2_lt h0).2 x.isLt
    have hlt : x.toNat < 2 ^ (Nat.log2 x.toNat + 1) := Nat.lt_log2_self
    simp only [clzW, if_neg h0]
    refine ⟨by omega, fun i hi => ?_, fun _ => ?_⟩
    · rw [BitVec.getMsbD, BitVec.getLsbD,
        Nat.testBit_lt_two_pow (Nat.lt_of_lt_of_le hlt (Nat.pow_le_pow_right (by decide) (by omega)))]
      exact Bool.and_false _
    · rw [BitVec.getMsbD, BitVec.getLsbD, show w - 1 - (w - 1 - Nat.log2 x.toNat) = Nat.log2 x.toNat by omega,
        Nat.testBit_log2 h0]
      simp; omega

/-- The trailing zeros of a value, and the one that ends them. -/
theorem ctzW_spec {w : Nat} (x : BitVec w) : ctzW w x.toNat ≤ w ∧ (∀ i, i < ctzW w x.toNat → x.getLsbD i = false) ∧
    (ctzW w x.toNat < w → x.getLsbD (ctzW w x.toNat) = true) := by
  unfold ctzW
  cases h : (List.range w).find? (fun i => x.toNat.testBit i) with
  | none =>
    rw [List.find?_range_eq_none] at h
    exact ⟨le_rfl, fun i hi => by simpa [BitVec.getLsbD] using h i hi, fun hc => absurd hc (lt_irrefl w)⟩
  | some k =>
    obtain ⟨h1, h2, h3⟩ := List.find?_range_eq_some.1 h
    exact ⟨(List.mem_range.1 h2).le, fun i hi => by simpa [BitVec.getLsbD] using h3 i hi, fun _ => h1⟩

/-- A number put together from its bytes, the first the highest: what its bytes are. -/
theorem foldl_bytes (d : Nat → Nat) (hd : ∀ i, d i < 256) (n : Nat) :
    (List.range n).foldl (fun r i => r * 256 + d i) 0 < 256 ^ n ∧
      ∀ j, j < n → (List.range n).foldl (fun r i => r * 256 + d i) 0 / 256 ^ j % 256 = d (n - 1 - j) := by
  induction n with
  | zero => exact ⟨by simp, fun j hj => absurd hj (Nat.not_lt_zero j)⟩
  | succ n ih =>
    have hn := hd n
    simp only [List.range_succ, List.foldl_append, List.foldl_cons, List.foldl_nil]
    refine ⟨by rw [Nat.pow_succ]; omega, fun j hj => ?_⟩
    cases j with
    | zero => simp [Nat.add_mod]; omega
    | succ j =>
      rw [Nat.pow_succ', ← Nat.div_div_eq_div_mul, show (List.foldl (fun r i => r * 256 + d i) 0 (List.range n) * 256 + d n) / 256 =
        List.foldl (fun r i => r * 256 + d i) 0 (List.range n) by omega, ih.2 j (by omega)]
      congr 1
      omega

/-- BSWAP at a width of whole bytes: its result lies in the width, and each byte is the one at the mirrored place. -/
theorem bswapW_spec {w : Nat} (h8 : w = 8 * (w / 8)) (x : BitVec w) : bswapW w x.toNat < 2 ^ w ∧
    ∀ i, i < w / 8 → (BitVec.ofNat w (bswapW w x.toNat)).extractLsb' (8 * i) 8 = x.extractLsb' (w - 8 - 8 * i) 8 := by
  have hpow : ∀ n, (256 : Nat) ^ n = 2 ^ (8 * n) := fun n => by rw [Nat.pow_mul]
  obtain ⟨hlt, hbyte⟩ := foldl_bytes (fun i => x.toNat / 256 ^ i % 256) (fun i => Nat.mod_lt _ (by decide)) (w / 8)
  have hb : bswapW w x.toNat < 2 ^ w := lt_of_lt_of_eq hlt (by rw [hpow, ← h8])
  refine ⟨hb, fun i hi => BitVec.eq_of_toNat_eq ?_⟩
  have hi' := hbyte i hi
  rw [hpow, hpow, show 8 * (w / 8 - 1 - i) = w - 8 - 8 * i by omega] at hi'
  simp only [BitVec.extractLsb'_toNat, BitVec.toNat_ofNat, Nat.mod_eq_of_lt hb, Nat.shiftRight_eq_div_pow]
  exact hi'

/-- A unary instruction that writes a zero-extended value completes with it. -/
theorem State.intR_value {s : State} {e : Nat} {p : Pfx} {op : Nat} {f : FmtR} (g : Nat → Nat → Nat) (hz : f.z = 0) (hb : f.b = 0)
    (he : s.executes e p op 0 = true) {r : BitVec (opW p)} (hr : g (opW p) ((s.eng e).arch.opnd (opW p) f.a.toNat).toNat = r.toNat) :
    ∃ t, s.intR e p op f [f.b.toNat] latNone (fun fl _ w a _ => IRes.plain fl false (g w a)) = .next t ∧
      Retires s t e p op (fun a => a.wrG f.d.toNat (r.setWidth 64)) :=
  State.intR_retires latNone _ _ (by simp [must0_iff, hz, hb]) he (IRes.plain_zext (opW_le p).2 _ hr _ _)

/-- The same where the value is a count of bits of the operand. -/
theorem State.intR_count {s : State} {e : Nat} {p : Pfx} {op : Nat} {f : FmtR} (g : Nat → Nat → Nat) (hz : f.z = 0) (hb : f.b = 0)
    (he : s.executes e p op 0 = true) {n : Nat} (hn : n ≤ opW p) (hr : g (opW p) ((s.eng e).arch.opnd (opW p) f.a.toNat).toNat = n) :
    ∃ t, s.intR e p op f [f.b.toNat] latNone (fun fl _ w a _ => IRes.plain fl false (g w a)) = .next t ∧
      Retires s t e p op (fun a => a.wrG f.d.toNat (BitVec.ofNat 64 n)) := by
  have hlt : n < 2 ^ opW p := Nat.lt_of_le_of_lt hn Nat.lt_two_pow_self
  rw [← BitVec.setWidth_ofNat_of_le_of_lt (opW_le p).2 hlt]
  exact State.intR_value g hz hb he (by rw [hr, BitVec.toNat_ofNat, Nat.mod_eq_of_lt hlt])

theorem bitCount_complete : Claims.BitCountComplete := by
  intro s e p f hz hb x
  refine ⟨fun he => ?_, fun he => ?_, fun he => ?_, fun he => ?_⟩
  · obtain ⟨h1, h2, h3⟩ := clzW_spec x
    obtain ⟨t, ht, hret⟩ := State.intR_count clzW hz hb he h1 rfl
    exact ⟨t, _, ht, h1, h2, h3, hret⟩
  · obtain ⟨h1, h2, h3⟩ := ctzW_spec x
    obtain ⟨t, ht, hret⟩ := State.intR_count ctzW hz hb he h1 rfl
    exact ⟨t, _, ht, h1, h2, h3, hret⟩
  · refine State.intR_count popW hz hb he (List.countP_le_length.trans (by simp)) ?_
    rw [popW, List.countP_eq_length_filter]
    rfl
  · obtain ⟨h1, h2⟩ := bswapW_spec (by rcases opW_cases p with h | h | h | h <;> rw [h]) x
    obtain ⟨t, ht, hret⟩ := State.intR_value bswapW hz hb he (r := BitVec.ofNat _ (bswapW (opW p) x.toNat))
      (by rw [BitVec.toNat_ofNat, Nat.mod_eq_of_lt h1])
    exact ⟨t, _, ht, h2, hret⟩

/-- Settles O2: the result of each computation at the instruction's width, the counts and BSWAP by the bits of their operand. -/
theorem logicShiftAndSelect : Obligations.LogicShiftAndSelect :=
  ⟨logicMove_complete, shift_complete, minMaxSet_complete, bitCount_complete⟩

/-! ### Multiplication and division -/

theorem multiply_complete : Claims.MultiplyComplete := by
  refine ⟨intResult_of execMul (fun _ _ _ _ => rfl) (fun _ _ _ _ => rfl) fun w h8 h64 f ove x y h => intMul_writes (by omega) h64 f h,
    intResult_of execMulh (fun _ _ _ _ => rfl) (fun _ _ _ _ => rfl) fun w h8 h64 f _ x y _ => intMulh_signed (by omega) h64 f x y,
    intResult_of execMulhu (fun _ _ _ _ => rfl) (fun _ _ _ _ => rfl) fun w h8 h64 f _ x y _ => intMulh_unsigned h64 f x y,
    immResult_of execMuli (fun _ _ _ _ => rfl) (fun _ _ _ _ => rfl) fun w h8 h64 f ove x y h => intMul_writes (by omega) h64 f h⟩

theorem divide_complete : Claims.DivideComplete := by
  refine ⟨intResult_of execDiv (fun _ _ _ _ => rfl) (fun _ _ _ _ => rfl) ?_,
    intResult_of execDivu (fun _ _ _ _ => rfl) (fun _ _ _ _ => rfl) ?_,
    intResult_of execRem (fun _ _ _ _ => rfl) (fun _ _ _ _ => rfl) ?_,
    intResult_of execRemu (fun _ _ _ _ => rfl) (fun _ _ _ _ => rfl) ?_⟩ <;> intro w h8 h64 f ove x y h
  · exact intDiv_writes (by omega) h64 f h.1 h.2
  · exact intDivu_eq f false x h ▸ IRes.plain_zext h64 f rfl
  · exact intRem_eq (by omega) f x h ▸ IRes.plain_sext h64 f rfl
  · exact intDivu_eq f true x h ▸ IRes.plain_zext h64 f rfl

/-- Settles O3: products and quotients as bit vectors, at the instruction's width. -/
theorem multiplyAndDivide : Obligations.MultiplyAndDivide := ⟨multiply_complete, divide_complete⟩

/-! ### Traps (R105) -/

/-- A register instruction that raises an exception: one engine cycle passes, then the exception's entry. -/
theorem State.regOp_traps {s : State} {e : Nat} {p : Pfx} {op bad v : Nat} (lat : Arch → Option Nat) (f : Arch → Alu)
    (h : s.executes e p op bad = true) (hf : f (s.eng e).arch.held = .trap v) :
    s.regOp e p op bad lat f = (s.cycle e).except e v 0 0 none false none := by
  unfold State.regOp
  rw [State.scalar_executes (bad := fun _ => bad) lat _ h]
  unfold State.perform
  simp only [State.eng_cycle, hf]

/-- A register-register integer instruction whose computation traps. -/
theorem State.intR_traps {s : State} {e : Nat} {p : Pfx} {op v : Nat} {f : FmtR} (lat : Arch → Option Nat)
    (g : W64 → Bool → Nat → Nat → Nat → IRes) (hz : f.z = 0) (h : s.executes e p op 0 = true) (hv : v ≠ 0)
    (hg : (g (s.eng e).arch.flags (s.eng e).arch.ove (opW p) ((s.eng e).arch.opnd (opW p) f.a.toNat).toNat
      ((s.eng e).arch.opnd (opW p) f.b.toNat).toNat).trap = v) :
    s.intR e p op f [] lat g = .next ((s.cycle e).except e v 0 0 none false none) := by
  have h0 : must0 (f.z.toNat :: []) = 0 := by simp [must0_iff, hz]
  refine congrArg Host.Outcome.next (State.regOp_traps lat _ (h0 ▸ h) ?_)
  simp only [Arch.srcW_eq]
  exact (if_pos (hg ▸ hv)).trans (congrArg Alu.trap hg)

/-- An integer instruction with an immediate whose computation traps. -/
theorem State.intI_traps {s : State} {e : Nat} {p : Pfx} {op v : Nat} {f : FmtI} {sg : Bool} (lat : Arch → Option Nat)
    (g : W64 → Bool → Nat → Nat → Nat → IRes) (hi : immCause p f.imm.toNat = 0) (h : s.executes e p op 0 = true) (hv : v ≠ 0)
    (hg : (g (s.eng e).arch.flags (s.eng e).arch.ove (opW p) ((s.eng e).arch.opnd (opW p) f.a.toNat).toNat
      (((immI p f sg).setWidth (opW p) : BitVec (opW p))).toNat).trap = v) :
    s.intI e p op f [] sg lat g = .next ((s.cycle e).except e v 0 0 none false none) := by
  have h0 : lowest (must0 []) (immCause p f.imm.toNat) = 0 := by rw [hi]; rfl
  refine congrArg Host.Outcome.next (State.regOp_traps lat _ (h0 ▸ h) ?_)
  simp only [Arch.srcW_eq, ← BitVec.toNat_setWidth]
  exact (if_pos (hg ▸ hv)).trans (congrArg Alu.trap hg)

theorem divideByZero_traps : Claims.DivideByZeroTraps := by
  intro c op hc s e p f hz he hy
  have h0 : ((s.eng e).arch.opnd (opW p) f.b.toNat).toNat = 0 := by simp [hy]
  simp only [List.mem_cons, List.not_mem_nil, or_false, Prod.mk.injEq] at hc
  rcases hc with ⟨rfl, rfl⟩ | ⟨rfl, rfl⟩ | ⟨rfl, rfl⟩ | ⟨rfl, rfl⟩
  · exact State.intR_traps (latDiv p) (fun f o w a b => intDiv f o w a b) hz he (by decide) (by simp [intDiv, h0])
  · exact State.intR_traps (latDiv p) (fun f _ _ a b => intDivu f false a b) hz he (by decide) (by simp [intDivu, h0])
  · exact State.intR_traps (latDiv p) (fun f _ w a b => intRem f w a b) hz he (by decide) (by simp [intRem, h0])
  · exact State.intR_traps (latDiv p) (fun f _ _ a b => intDivu f true a b) hz he (by decide) (by simp [intDivu, h0])

/-- A result that overflows under PSR.OVE raises vector 0x0D. -/
theorem IRes.orOverflow_trap (r : IRes) {ove ov : Bool} (h1 : ove = true) (h2 : ov = true) : (r.orOverflow ove ov).trap = 0x0D := by
  simp [IRes.orOverflow, h1, h2]

theorem overflow_traps : Claims.OverflowTraps := by
  intro s e p hove trapped
  have hw : 0 < opW p := by have := opW_le p; omega
  have sum : ∀ (x y : BitVec (opW p)) (c : Nat), x.toInt + y.toInt + c ≠ (x + y + BitVec.ofNat (opW p) c).toInt →
      (intAdd (s.eng e).arch.flags (s.eng e).arch.ove (opW p) x.toNat y.toNat c).trap = 0x0D := fun x y c h => by
    rw [intAdd_eq hw]; exact IRes.orOverflow_trap _ hove (decide_eq_true h)
  have product : ∀ (x y : BitVec (opW p)), x.toInt * y.toInt ≠ (x * y).toInt →
      (intMul (s.eng e).arch.flags (s.eng e).arch.ove (opW p) x.toNat y.toNat).trap = 0x0D := fun x y h => by
    rw [intMul_eq hw]; exact IRes.orOverflow_trap _ hove (decide_eq_true h)
  refine ⟨fun f hz => ⟨fun he h => ?_, fun he h => ?_, fun he h => ?_, fun he h => ?_, fun he hx hy => ?_⟩,
    fun f hi => ⟨fun he h => ?_, fun he h => ?_⟩⟩
  · exact State.intR_traps latAdd (fun f o w a b => intAdd f o w a b 0) hz he (by decide) (sum _ _ 0 (by simpa using h))
  · exact State.intR_traps latAdd (fun f o w a b => intAdd f o w a b (flagC f).toNat) hz he (by decide) (sum _ _ _ h)
  · refine State.intR_traps latAdd (fun f o w a b => intSub f o w a b) hz he (by decide) ?_
    rw [intSub_eq hw]; exact IRes.orOverflow_trap _ hove (decide_eq_true h)
  · exact State.intR_traps (latMul p true f) (fun f o w a b => intMul f o w a b) hz he (by decide) (product _ _ h)
  · refine State.intR_traps (latDiv p) (fun f o w a b => intDiv f o w a b) hz he (by decide) ?_
    have hy0 : (-1#(opW p)) ≠ 0 := fun h => by
      simpa [BitVec.neg_one_eq_allOnes, BitVec.toInt_allOnes, hw] using congrArg BitVec.toInt h
    rw [hy, intDiv_eq hw _ _ _ hy0]; exact IRes.orOverflow_trap _ hove (decide_eq_true ⟨hx, rfl⟩)
  · exact State.intI_traps latAdd (fun f o w a b => intAdd f o w a b 0) hi he (by decide) (sum _ _ 0 (by simpa using h))
  · exact State.intI_traps (latMuli p f) (fun f o w a b => intMul f o w a b) hi he (by decide) (product _ _ h)

/-- Settles O4: the computation's trap, and one engine cycle before the exception's entry. -/
theorem arithmeticTraps : Obligations.ArithmeticTraps := ⟨divideByZero_traps, overflow_traps⟩

end Sys2Proof.Machine

/-!
PROOFS. Floating-point and short-vector instructions (R75, R78, R108 to R110): completion with the registers that each computes,
sign operations as operations on bits, and short vectors lane by lane. Settles O6, O7 and O10.
-/
namespace Sys2Proof.Machine

/-! ### Widths that an instruction accepts (R81, Table 3.5) -/

theorem lowest_eq_zero {x y : Nat} : lowest x y = 0 ↔ x = 0 ∧ y = 0 := by
  unfold lowest
  split
  · simp [*]
  · split
    · simp [*]
    · simp_all

/-- An instruction without an illegal-encoding cause has prefixes that its opcode accepts. -/
theorem Arch.refused_of_legal {a : Arch} {e : Nat} {p : Pfx} {op bad : Nat} (h : a.illegal e p op bad = 0) :
    (pInfo p).refused op = false := by
  unfold Arch.illegal at h
  simp only at h
  split at h
  · simp [lowest_eq_zero] at h
  · simp only [lowest_eq_zero] at h
    obtain ⟨⟨⟨⟨⟨_, h⟩, _⟩, _⟩, _⟩, _⟩ := h
    by_contra hc
    simp [hc] at h

/-- An instruction executes at width 64 or at one that its opcode accepts. -/
theorem State.executes_width {s : State} {e : Nat} {p : Pfx} {op bad : Nat} (h : s.executes e p op bad = true) :
    opW p = 64 ∨ opW p ∈ widthsOk op := by
  have hr := Arch.refused_of_legal (State.executes_cases h).2.2.1
  unfold PInfo.refused at hr
  simp only [Bool.or_eq_false_iff] at hr
  obtain ⟨⟨⟨_, hw⟩, _⟩, _⟩ := hr
  unfold opW PInfo.w
  cases hi : (pInfo p).width with
  | none => exact .inl rfl
  | some w =>
    simp only [hi, Bool.not_eq_false', List.contains_iff_mem] at hw
    exact .inr hw

/-- A floating-point instruction executes at width 32 or 64. -/
theorem State.executes_float {s : State} {e : Nat} {p : Pfx} {op bad : Nat} (hop : widthsOk op = [32])
    (h : s.executes e p op bad = true) : opW p = 32 ∨ opW p = 64 := by
  have hw := State.executes_width h
  rw [hop, List.mem_singleton] at hw
  exact hw.symm

/-! ### Completion -/

/-- A register instruction of rows 0x9 and 0xA completes with an effect that agrees with its own where it executes. -/
theorem regResult_of {c : Nat → Pfx → FmtR → Instr} {op : Nat} {unary : Bool} {g : Pfx → FmtR → Arch → Arch}
    {lat : Pfx → FmtR → Arch → Option Nat} {g' : Pfx → FmtR → Arch → Arch}
    (run : Nat → Pfx → FmtR → State → Res) (hc : ∀ e p f s, exec (c e p f) s = run e p f s)
    (hr : ∀ e p f s, run e p f s = s.fpOp e p op f (bif unary then [f.b.toNat] else []) (lat p f) (g' p f))
    (hg : ∀ (s : State) (e : Nat) (p : Pfx) (f : FmtR), s.executes e p op 0 = true →
      g' p f (s.eng e).arch.held = g p f (s.eng e).arch.held) :
    RegResult c op unary g := by
  intro s e p f hz hu he
  have h0 : must0 (f.z.toNat :: bif unary then [f.b.toNat] else []) = 0 := by
    cases unary <;> simp [must0_iff, hz, hu]
  rw [hc, hr]
  exact ⟨_, rfl, State.regOp_retires (lat p f) _ (g p f) (h0 ▸ he) (congrArg Alu.ok (hg s e p f he))⟩

theorem floatArithmetic_complete : Claims.FloatArithmeticComplete :=
  ⟨regResult_of execFadd (fun _ _ _ _ => rfl) (fun _ _ _ _ => rfl) fun _ _ _ _ _ => rfl,
    regResult_of execFsub (fun _ _ _ _ => rfl) (fun _ _ _ _ => rfl) fun _ _ _ _ _ => rfl,
    regResult_of execFmul (fun _ _ _ _ => rfl) (fun _ _ _ _ => rfl) fun _ _ _ _ _ => rfl,
    regResult_of execFdiv (fun _ _ _ _ => rfl) (fun _ _ _ _ => rfl) fun _ _ _ _ _ => rfl,
    regResult_of execFsqrt (fun _ _ _ _ => rfl) (fun _ _ _ _ => rfl) fun _ _ _ _ _ => rfl,
    regResult_of execFmin (fun _ _ _ _ => rfl) (fun _ _ _ _ => rfl) fun _ _ _ _ _ => rfl,
    regResult_of execFmax (fun _ _ _ _ => rfl) (fun _ _ _ _ => rfl) fun _ _ _ _ _ => rfl,
    regResult_of execFma (fun _ _ _ _ => rfl) (fun _ _ _ _ => rfl) fun _ _ _ _ _ => rfl,
    regResult_of execFcvtif (fun _ _ _ _ => rfl) (fun _ _ _ _ => rfl) fun _ _ _ _ _ => rfl,
    regResult_of execFcvtfi (fun _ _ _ _ => rfl) (fun _ _ _ _ => rfl) fun _ _ _ _ _ => rfl⟩

/-! ### Sign operations and moves (R75, R108) -/

/-- Inverting the highest of `k + 1` bits. -/
theorem xor_two_pow_top {k x : Nat} (h : x < 2 ^ (k + 1)) : x ^^^ 2 ^ k = if x / 2 ^ k % 2 = 1 then x - 2 ^ k else x + 2 ^ k := by
  have hp : 0 < 2 ^ k := Nat.two_pow_pos k
  have hb : x / 2 ^ k < 2 := Nat.div_lt_of_lt_mul (by rwa [Nat.pow_succ] at h)
  have hx := Nat.div_add_mod x (2 ^ k)
  have hr := Nat.div_add_mod (x ^^^ 2 ^ k) (2 ^ k)
  rw [Nat.xor_div_two_pow, Nat.xor_mod_two_pow, Nat.div_self hp, Nat.mod_self, Nat.xor_zero] at hr
  obtain h0 | h1 : x / 2 ^ k = 0 ∨ x / 2 ^ k = 1 := by
    generalize x / 2 ^ k = b at hb
    omega
  · rw [h0] at hr hx ⊢
    simp at hr hx ⊢
    omega
  · rw [h1] at hr hx ⊢
    simp at hr hx ⊢
    omega

/-- The sign bit of the format of an instruction at its width. -/
theorem signBit_fmtOf {p : Pfx} (h : opW p = 32 ∨ opW p = 64) : (fmtOf p).signBit = 2 ^ (opW p - 1) := by
  change (if opW p = 32 then f32 else f64).signBit = _
  rcases h with h | h <;> rw [h] <;> rfl

/-- A floating-point operand as bits of its register. -/
theorem Arch.rdF_eq (a : Arch) (w n : Nat) : a.rdF w n = ((a.rdQ n).setWidth w).toNat := by
  simp [Arch.rdF, BitVec.toNat_setWidth]

/-- A floating-point result written as bits: the rest of Q[d] is cleared. -/
theorem Arch.wrF_bits (a : Arch) {w v : Nat} (d : Nat) {x : BitVec w} (h : v % 2 ^ w = x.toNat) :
    a.wrF w d v = a.wrQ d (x.setWidth 128) := by
  rw [Arch.wrF, h, BitVec.ofNat_toNat]

theorem FFmt.neg_bits {t : FFmt} {w : Nat} (hw : 0 < w) (ht : t.signBit = 2 ^ (w - 1)) (x : BitVec w) :
    t.neg x.toNat = (x ^^^ BitVec.twoPow w (w - 1)).toNat := by
  have hk : w - 1 + 1 = w := Nat.sub_add_cancel hw
  have hx : x.toNat < 2 ^ (w - 1 + 1) := lt_of_lt_of_eq x.isLt (by rw [hk])
  rw [BitVec.toNat_xor, BitVec.toNat_twoPow_of_lt (Nat.sub_lt hw Nat.one_pos), xor_two_pow_top hx]
  simp only [FFmt.neg, FFmt.sign, ht, decide_eq_true_eq]

theorem abs_bits {w : Nat} (x : BitVec w) : x.toNat % 2 ^ (w - 1) = (x &&& ~~~BitVec.twoPow w (w - 1)).toNat := by
  apply Nat.eq_of_testBit_eq
  intro i
  have hx : w ≤ i → x.getLsbD i = false := fun h => BitVec.getLsbD_of_ge x i h
  rw [Nat.testBit_mod_two_pow, ← BitVec.getLsbD, ← BitVec.getLsbD]
  simp only [BitVec.getLsbD_and, BitVec.getLsbD_not, BitVec.getLsbD_twoPow]
  by_cases h1 : w ≤ i
  · simp [hx h1]
  · by_cases h2 : w - 1 = i
    · simp [h2]
    · simp [show i < w - 1 by omega, show i < w by omega, h2]

/-- A sign operation that is an operation `b` on bits completes with it. -/
theorem signResult_of {c : Nat → Pfx → FmtR → Instr} {op : Nat} {h : FFmt → Nat → Nat} (hop : widthsOk op = [32])
    (run : Nat → Pfx → FmtR → State → Res) (hc : ∀ e p f s, exec (c e p f) s = run e p f s)
    (hr : ∀ e p f s, run e p f s = s.fpSign e p op f h) (b : (w : Nat) → BitVec w → BitVec w)
    (hb : ∀ (w : Nat) (t : FFmt) (x : BitVec w), 0 < w → t.signBit = 2 ^ (w - 1) → h t x.toNat = (b w x).toNat) :
    RegResult c op true (fun p f a => a.wrQ f.d.toNat ((b (opW p) ((a.rdQ f.a.toNat).setWidth (opW p))).setWidth 128)) := by
  refine regResult_of (g' := fun p f a => a.wrF (opW p) f.d.toNat (h (fmtOf p) (a.rdF (opW p) f.a.toNat))) run hc hr
    fun s e p f he => Arch.wrF_bits _ _ ?_
  rw [Arch.rdF_eq, hb _ _ _ (by have := opW_le p; omega) (signBit_fmtOf (State.executes_float hop he))]
  exact Nat.mod_eq_of_lt (BitVec.isLt _)

theorem floatMove_complete : Claims.FloatMoveComplete :=
  ⟨signResult_of rfl execFneg (fun _ _ _ _ => rfl) (fun _ _ _ _ => rfl) (fun w x => x ^^^ BitVec.twoPow w (w - 1))
      fun _ _ x hw ht => FFmt.neg_bits hw ht x,
    signResult_of rfl execFabs (fun _ _ _ _ => rfl) (fun _ _ _ _ => rfl) (fun w x => x &&& ~~~BitVec.twoPow w (w - 1))
      fun _ _ x _ ht => ht ▸ abs_bits x,
    signResult_of rfl execFmov (fun _ _ _ _ => rfl) (fun _ _ _ _ => rfl) (fun _ x => x) fun _ _ _ _ _ => rfl,
    regResult_of (g' := fun p f a => a.wrG f.d.toNat (BitVec.ofNat 64 (a.rdF (opW p) f.a.toNat))) execFmvfg
      (fun _ _ _ _ => rfl) (fun _ _ _ _ => rfl) fun s e p f _ => by rw [Arch.rdF_eq, BitVec.ofNat_toNat],
    regResult_of (g' := fun p f a => a.wrF (opW p) f.d.toNat (a.rdG f.a.toNat).toNat) execFmvgf
      (fun _ _ _ _ => rfl) (fun _ _ _ _ => rfl) fun s e p f _ => Arch.wrF_bits _ _ (BitVec.toNat_setWidth ..).symm⟩

/-- Settles O6: the arithmetic by its definition in the instruction's format, sign operations and moves by the bits of Q. -/
theorem floatArithmeticAndMoves : Obligations.FloatArithmeticAndMoves := ⟨floatArithmetic_complete, floatMove_complete⟩

/-! ### FCMP (R109) -/

theorem orSticky_none (f : W64) : orSticky f FFlags.none = f := by
  rw [orSticky, show stickyBits FFlags.none = 0 from rfl]; exact BitVec.or_zero

/-- Settles O7: the sticky flag of a signalling NaN, and Table 3.15 by the relation of the operands. -/
theorem floatCompareComplete : Obligations.FloatCompareComplete := by
  intro s e p f hz hd he a x y fl
  have h0 : must0 [f.z.toNat, f.d.toNat] = 0 := by simp [must0_iff, hz, hd]
  have hfl : orSticky a.flags (if (fmtOf p).isSnan x || (fmtOf p).isSnan y then FFlags.invalid else FFlags.none) = fl := by
    simp only [fl]
    split
    · rfl
    · exact orSticky_none _
  refine ⟨_, rfl, State.regOp_retires latNone _ _ (h0 ▸ he) (congrArg Alu.ok ?_)⟩
  refine congrArg (fun v : W64 => ({ a.held with flags := v } : Arch))
    (?_ : fcmpFlags (orSticky a.flags _) ((fmtOf p).cmp (fenvOf a.flags).daz x y) = _)
  refine (congrArg (fun v => fcmpFlags v _) hfl).trans ?_
  cases h : (fmtOf p).cmp (fenvOf a.flags).daz x y <;> simp only [a, Arch.held_flags] at h ⊢ <;> rw [h] <;> rfl

/-! ### Lanes (R110) -/

theorem lane_eq (w i : Nat) (x : W128) : lane w i x = (laneOf w i x).toNat := by
  rw [lane, laneOf, BitVec.extractLsb'_toNat, Nat.shiftRight_eq_div_pow]

/-- A number put together from digits of w bits, the first the lowest. -/
theorem foldr_lanes (w : Nat) (ls : List Nat) : ls.foldr (fun x acc => x % 2 ^ w + acc * 2 ^ w) 0 < 2 ^ (w * ls.length) ∧
    ∀ i (h : i < ls.length), ls.foldr (fun x acc => x % 2 ^ w + acc * 2 ^ w) 0 / 2 ^ (w * i) % 2 ^ w = ls[i] % 2 ^ w := by
  induction ls with
  | nil => exact ⟨by simp, fun i h => absurd h (Nat.not_lt_zero i)⟩
  | cons a ls ih =>
    have hp : 0 < 2 ^ w := Nat.two_pow_pos w
    have ha : a % 2 ^ w < 2 ^ w := Nat.mod_lt _ hp
    obtain ⟨hlt, hdig⟩ := ih
    simp only [List.foldr_cons]
    generalize ls.foldr (fun x acc => x % 2 ^ w + acc * 2 ^ w) 0 = r at hlt hdig
    refine ⟨?_, fun i hi => ?_⟩
    · calc a % 2 ^ w + r * 2 ^ w < 2 ^ w + r * 2 ^ w := by omega
        _ = (r + 1) * 2 ^ w := by ring
        _ ≤ 2 ^ (w * ls.length) * 2 ^ w := Nat.mul_le_mul_right _ hlt
        _ = 2 ^ (w * (a :: ls).length) := by rw [← Nat.pow_add, List.length_cons]; congr 1
    · cases i with
      | zero => simp [Nat.add_mul_mod_self_right]
      | succ i =>
        rw [Nat.mul_succ, Nat.add_comm (w * i) w, Nat.pow_add, ← Nat.div_div_eq_div_mul, Nat.add_mul_div_right _ _ hp,
          Nat.div_eq_of_lt ha, Nat.zero_add, hdig i (by simpa using hi)]
        rfl

/-- A lane of a register put together from its lanes. -/
theorem laneOf_fromLanes {w : Nat} {ls : List Nat} (hw : w * ls.length ≤ 128) {i : Nat} (h : i < ls.length) :
    laneOf w i (fromLanes w ls) = BitVec.ofNat w ls[i] := by
  obtain ⟨hlt, hdig⟩ := foldr_lanes w ls
  have h128 := Nat.lt_of_lt_of_le hlt (Nat.pow_le_pow_right (by decide) hw)
  apply BitVec.eq_of_toNat_eq
  rw [← lane_eq, lane, fromLanes, BitVec.toNat_ofNat, Nat.mod_eq_of_lt h128, hdig i h, BitVec.toNat_ofNat]

/-- A lane of a register put together lane by lane. -/
theorem laneOf_fromLanes_range {w n : Nat} (hw : w * n ≤ 128) (g : Nat → Nat) {i : Nat} (h : i < n) :
    laneOf w i (fromLanes w ((List.range n).map g)) = BitVec.ofNat w (g i) := by
  rw [laneOf_fromLanes (by simpa using hw) (by simpa using h)]
  simp

/-- A short-vector instruction that computes each lane by itself completes with `opn` of the lanes. -/
theorem laneResult_of {c : Nat → Pfx → FmtR → Instr} {op : Nat} {opn : (w : Nat) → BitVec w → BitVec w → BitVec w}
    {lat : Pfx → Arch → Option Nat} {g : Nat → Nat → Nat → Nat}
    (run : Nat → Pfx → FmtR → State → Res) (hc : ∀ e p f s, exec (c e p f) s = run e p f s)
    (hr : ∀ e p f s, run e p f s = s.qOp e p op f (lat p) g)
    (hg : ∀ (w : Nat), 0 < w → ∀ (x y : BitVec w), BitVec.ofNat w (g w x.toNat y.toNat) = opn w x y) : LaneResult c op opn := by
  intro s e p f hz he
  have h0 : must0 [f.z.toNat] = 0 := by simp [must0_iff, hz]
  rw [hc, hr]
  refine ⟨_, lanewise (opW p) (g (opW p)) ((s.eng e).arch.rdQ f.a.toNat) ((s.eng e).arch.rdQ f.b.toNat), rfl, fun i hi => ?_,
    State.regOp_retires (lat p) _ _ (h0 ▸ he) rfl⟩
  rw [lanewise, laneOf_fromLanes_range (Nat.mul_div_le ..) _ hi, lane_eq, lane_eq, hg _ (by have := opW_le p; omega)]

theorem ofNat_onesIf (w : Nat) (b : Bool) : BitVec.ofNat w (onesIf w b) = if b then BitVec.allOnes w else 0 := by
  cases b
  · rfl
  · exact BitVec.eq_of_toNat_eq (by simp [onesIf])

theorem shortVector_complete : Claims.ShortVectorComplete := by
  refine ⟨laneResult_of execQadd (fun _ _ _ _ => rfl) (fun _ _ _ _ => rfl) ?_,
    laneResult_of execQsub (fun _ _ _ _ => rfl) (fun _ _ _ _ => rfl) ?_,
    laneResult_of execQmul (fun _ _ _ _ => rfl) (fun _ _ _ _ => rfl) ?_,
    laneResult_of execQand (fun _ _ _ _ => rfl) (fun _ _ _ _ => rfl) ?_,
    laneResult_of execQor (fun _ _ _ _ => rfl) (fun _ _ _ _ => rfl) ?_,
    laneResult_of execQxor (fun _ _ _ _ => rfl) (fun _ _ _ _ => rfl) ?_,
    laneResult_of execQmin (fun _ _ _ _ => rfl) (fun _ _ _ _ => rfl) ?_,
    laneResult_of execQmax (fun _ _ _ _ => rfl) (fun _ _ _ _ => rfl) ?_,
    laneResult_of execQminu (fun _ _ _ _ => rfl) (fun _ _ _ _ => rfl) ?_,
    laneResult_of execQmaxu (fun _ _ _ _ => rfl) (fun _ _ _ _ => rfl) ?_,
    laneResult_of execQceq (fun _ _ _ _ => rfl) (fun _ _ _ _ => rfl) ?_,
    laneResult_of execQcgt (fun _ _ _ _ => rfl) (fun _ _ _ _ => rfl) ?_,
    laneResult_of execQcgtu (fun _ _ _ _ => rfl) (fun _ _ _ _ => rfl) ?_⟩ <;> intro w hw x y
  · exact BitVec.eq_of_toNat_eq (by simp)
  · refine BitVec.eq_of_toNat_eq ?_
    have hy := y.isLt
    rw [BitVec.toNat_ofNat, Nat.mod_mod, BitVec.toNat_sub, show x.toNat + 2 ^ w - y.toNat = 2 ^ w - y.toNat + x.toNat by omega]
  · exact BitVec.eq_of_toNat_eq (by simp)
  · simp [← BitVec.toNat_and]
  · simp [← BitVec.toNat_or]
  · simp [← BitVec.toNat_xor]
  · simp only [sval_toNat hw]; split <;> simp
  · simp only [sval_toNat hw]; split <;> simp
  · split <;> simp
  · split <;> simp
  · simp [ofNat_onesIf, BitVec.toNat_inj]
  · simp [ofNat_onesIf, sval_toNat hw]
  · simp [ofNat_onesIf]

/-! ### Shuffles and floating-point lanes -/

theorem stickyBits_or (x y : FFlags) : stickyBits (x.or y) = stickyBits x ||| stickyBits y := by
  have bits : ∀ z : FFlags, stickyBits z = (if z.nv then 0x1000 else 0) ||| (if z.dz then 0x800 else 0) |||
      (if z.of then 0x400 else 0) ||| (if z.uf then 0x200 else 0) ||| (if z.nx then 0x100 else 0) := by
    rintro ⟨nv, dz, of, uf, nx⟩
    cases nv <;> cases dz <;> cases of <;> cases uf <;> cases nx <;> rfl
  have ite_or : ∀ (a b : Bool) (v : W64), (if a || b then v else 0) = (if a then v else 0) ||| (if b then v else 0) := by
    intro a b v
    cases a <;> cases b <;> simp
  simp only [bits, FFlags.or, ite_or]
  ac_rfl

/-- The sticky flags of joined exceptions, one by one. -/
theorem orSticky_foldl {α : Type} (l : List α) (r : α → FFlags) (f : W64) (z : FFlags) :
    orSticky f (l.foldl (fun x i => x.or (r i)) z) = l.foldl (fun fl i => orSticky fl (r i)) (orSticky f z) := by
  induction l generalizing z with
  | nil => rfl
  | cons a l ih =>
    rw [List.foldl_cons, ih, List.foldl_cons]
    congr 1
    rw [orSticky, stickyBits_or, ← BitVec.or_assoc]
    rfl

/-- A floating-point short-vector instruction completes with its lanes and their joined exceptions. -/
theorem State.qfOp_retires {s : State} {e : Nat} {p : Pfx} {op : Nat} {f : FmtR} (g : FFmt → FEnv → Nat → Nat → Nat × FFlags)
    (hz : f.z = 0) (he : s.executes e p op 0 = true) :
    let a := (s.eng e).arch
    let r := fun (i : Nat) => g (fmtOf p) (fenvOf a.flags) (laneOf (opW p) i (a.rdQ f.a.toNat)).toNat
      (laneOf (opW p) i (a.rdQ f.b.toNat)).toNat
    ∃ t v, s.qfOp e p op f g = .next t ∧ (∀ i, i < 128 / opW p → laneOf (opW p) i v = BitVec.ofNat (opW p) (r i).1) ∧
      Retires s t e p op (fun a =>
        { a with flags := (List.range (128 / opW p)).foldl (fun fl i => orSticky fl (r i).2) a.flags }.wrQ f.d.toNat v) := by
  intro a r
  have h0 : must0 [f.z.toNat] = 0 := by simp [must0_iff, hz]
  refine ⟨_, fromLanes (opW p) ((List.range (128 / opW p)).map (fun i => (r i).1)), rfl,
    fun i hi => laneOf_fromLanes_range (Nat.mul_div_le ..) _ hi, State.regOp_retires (latF p 4 4) _ _ (h0 ▸ he) ?_⟩
  have hfl := orSticky_foldl (List.range (128 / opW p)) (fun i => (r i).2) a.flags FFlags.none
  rw [orSticky_none] at hfl
  rw [Arch.held_flags, ← hfl]
  simp only [lane_eq, List.map_map, List.foldl_map]
  rfl

theorem shuffleAndFloatLanes_complete : Claims.ShuffleAndFloatLanesComplete := by
  refine ⟨fun s e p f hz he => ?_, fun c opc op hc s e p f hz he => ?_⟩
  · intro x y
    have h0 : must0 [f.z.toNat] = 0 := by simp [must0_iff, hz]
    refine ⟨_, fromLanes 8 ((List.range 16).map (fun i => if 128 ≤ lane 8 i y then 0 else lane 8 (lane 8 i y % 16) x)), rfl,
      fun i hi => ?_, State.regOp_retires latNone _ _ (h0 ▸ he) rfl⟩
    have hbit : (laneOf 8 i y).getLsbD 7 = decide (128 ≤ (laneOf 8 i y).toNat) := BitVec.msb_eq_decide (laneOf 8 i y)
    rw [laneOf_fromLanes_range (by decide) _ hi, hbit]
    simp only [lane_eq, decide_eq_true_eq]
    split
    · rfl
    · exact BitVec.ofNat_toNat ..
  · rcases hc with h | h <;> obtain ⟨rfl, rfl, rfl⟩ := h
    · exact State.qfOp_retires FFmt.add hz he
    · exact State.qfOp_retires FFmt.mul hz he

/-- Settles O10: a register's lanes are those that it is put together from, and exceptions join lane by lane. -/
theorem shortVectors : Obligations.ShortVectors := ⟨shortVector_complete, shuffleAndFloatLanes_complete⟩

end Sys2Proof.Machine

/-!
PROOFS. Conditions, branches and jumps, and what does not execute (R84, R92 to R96, R115, R163): Settles O11, O12 and O14.
-/
namespace Sys2Proof.Machine

/-! ### Conditions (R93, Table 3.10) -/

theorem condition_table : Claims.ConditionTable := by
  refine ⟨fun f => rfl, rfl, fun k hk => ?_⟩
  rw [pkind, if_pos (by omega)]

/-- N, Z, C and V of FLAGS once they are replaced. -/
theorem flags_putNzcv (f : W64) (n z c v : Bool) : flagN (putNzcv f n z c v) = n ∧ flagZ (putNzcv f n z c v) = z ∧
    flagC (putNzcv f n z c v) = c ∧ flagV (putNzcv f n z c v) = v := by
  cases n <;> cases z <;> cases c <;> cases v <;> simp [flagN, flagZ, flagC, flagV, putNzcv]

/-- The signed value of a difference, which wraps by 2^w where it leaves the signed range. -/
theorem toInt_sub_cases {w : Nat} (hw : 0 < w) (x y : BitVec w) :
    (x - y).toInt = x.toInt - y.toInt ∨
    ((2 : Int) ^ (w - 1) ≤ x.toInt - y.toInt ∧ (x - y).toInt = x.toInt - y.toInt - 2 * 2 ^ (w - 1)) ∨
    (x.toInt - y.toInt < -(2 : Int) ^ (w - 1) ∧ (x - y).toInt = x.toInt - y.toInt + 2 * 2 ^ (w - 1)) := by
  have hp : ((2 ^ w : Nat) : Int) = 2 * 2 ^ (w - 1) := by push_cast; rw [← pow_succ']; congr 1; omega
  have hx := x.le_toInt
  have hx' := BitVec.toInt_lt (x := x)
  have hy := y.le_toInt
  have hy' := BitVec.toInt_lt (x := y)
  have hwrap : ∀ c : Int, (x - y).toInt = c ↔ -(((2 ^ w : Nat) : Int) / 2) ≤ c ∧ c < (((2 ^ w : Nat) : Int) + 1) / 2 ∧
      ((2 ^ w : Nat) : Int) ∣ c - (x.toInt - y.toInt) := fun c => by
    rw [BitVec.toInt_sub]; exact Int.bmod_eq_iff (Nat.two_pow_pos w)
  simp only [hwrap, hp]
  generalize (2 : Int) ^ (w - 1) = P at *
  by_cases h1 : P ≤ x.toInt - y.toInt
  · exact .inr (.inl ⟨h1, by omega, by omega, -1, by ring⟩)
  · by_cases h2 : x.toInt - y.toInt < -P
    · exact .inr (.inr ⟨h2, by omega, by omega, 1, by ring⟩)
    · exact .inl ⟨by omega, by omega, 0, by ring⟩

/-- After a difference, N differs from V exactly where x lies below y as signed numbers. -/
theorem msb_sub_bne_overflow {w : Nat} (hw : 0 < w) (x y : BitVec w) :
    ((x - y).msb != decide (x.toInt - y.toInt ≠ (x - y).toInt)) = decide (x.toInt < y.toInt) := by
  have hx := x.le_toInt
  have hx' := BitVec.toInt_lt (x := x)
  have hy := y.le_toInt
  have hy' := BitVec.toInt_lt (x := y)
  rw [BitVec.msb_eq_toInt]
  obtain h | ⟨h1, h⟩ | ⟨h1, h⟩ := toInt_sub_cases hw x y
  · simp only [h, ne_eq, not_true_eq_false, decide_false, Bool.bne_false, decide_eq_decide]
    omega
  · have hd : x.toInt - y.toInt ≠ (x - y).toInt := by omega
    simp only [decide_eq_true hd, decide_eq_true (show (x - y).toInt < 0 by omega), bne_self_eq_false]
    exact (decide_eq_false (by omega)).symm
  · have hd : x.toInt - y.toInt ≠ (x - y).toInt := by omega
    simp only [decide_eq_true hd, decide_eq_false (show ¬ (x - y).toInt < 0 by omega)]
    exact (decide_eq_true (by omega)).symm

/-- Z, C, V and N against V after a compare. -/
theorem flags_diffFlags {w : Nat} (hw : 0 < w) (f : W64) (x y : BitVec w) :
    flagZ (diffFlags w f x y) = decide (x = y) ∧ flagC (diffFlags w f x y) = decide (x.toNat < y.toNat) ∧
    flagV (diffFlags w f x y) = decide (x.toInt - y.toInt ≠ (x - y).toInt) ∧ flagN (diffFlags w f x y) = (x - y).msb ∧
    (flagN (diffFlags w f x y) != flagV (diffFlags w f x y)) = decide (x.toInt < y.toInt) ∧
    (flagN (diffFlags w f x y) == flagV (diffFlags w f x y)) = decide (y.toInt ≤ x.toInt) := by
  have heq : (x - y = 0) ↔ x = y := by
    rw [BitVec.sub_eq_iff_eq_add, show (0 : BitVec w) + y = y from BitVec.zero_add y]
  obtain ⟨hn, hz, hc, hv⟩ := flags_putNzcv f (x - y).msb (decide (x - y = 0)) (decide (x.toNat < y.toNat))
    (decide (x.toInt - y.toInt ≠ (x - y).toInt))
  have hlt : (flagN (diffFlags w f x y) != flagV (diffFlags w f x y)) = decide (x.toInt < y.toInt) := by
    rw [diffFlags, hn, hv]; exact msb_sub_bne_overflow hw x y
  refine ⟨hz.trans (decide_eq_decide.2 heq), hc, hv, hn, hlt, ?_⟩
  rw [← Bool.not_not (flagN _ == flagV _)]
  change (!(flagN (diffFlags w f x y) != flagV (diffFlags w f x y))) = _
  rw [hlt, ← decide_not, decide_eq_decide]
  exact not_lt

theorem conditions_meanComparisons : Claims.ConditionsMeanComparisons := by
  intro w f x y hw g
  obtain ⟨hz, hc, hv, hn, hlt, hge⟩ := flags_diffFlags hw f x y
  have hi : x = y ↔ x.toInt = y.toInt := BitVec.toInt_inj.symm
  have hu : x = y ↔ x.toNat = y.toNat := BitVec.toNat_inj.symm
  refine ⟨hz, ?_, hlt, hge, ?_, ?_, hc, ?_, ?_, ?_, hv, ?_, hn, congrArg Bool.not hn, rfl⟩
  · exact (congrArg Bool.not hz).trans decide_not.symm
  · change (flagZ g || (flagN g != flagV g)) = _
    rw [hz, hlt, ← Bool.decide_or, decide_eq_decide, hi]; omega
  · change (!flagZ g && (flagN g == flagV g)) = _
    rw [hz, hge, ← decide_not, ← Bool.decide_and, decide_eq_decide, hi]; omega
  · change (!flagC g) = _
    rw [hc, ← decide_not, decide_eq_decide]; exact not_lt
  · change (flagC g || flagZ g) = _
    rw [hz, hc, ← Bool.decide_or, decide_eq_decide, hu]; omega
  · change (!flagC g && !flagZ g) = _
    rw [hz, hc, ← decide_not, ← decide_not, ← Bool.decide_and, decide_eq_decide, hu]; omega
  · change (!flagV g) = _
    rw [hv, ← decide_not, decide_eq_decide]; exact not_not

/-- Settles O11: the table by evaluation, and its tests after a compare by the flags of a difference. -/
theorem conditions : Obligations.Conditions := ⟨condition_table, conditions_meanComparisons⟩

/-! ### Branches and jumps (R95, R96) -/

/-- An engine after an instruction's effect `g` on its registers, with what fetch holds and the branch predictor. -/
def Engine.Executed (x y : Engine) (g : Arch → Arch) : Prop :=
  y = { x with arch := g x.arch, pq := y.pq, flight := y.flight, lbuf := y.lbuf, fetches := y.fetches, got := y.got, btb := y.btb } ∧
    y.answers = x.answers

/-- One engine cycle, an effect, and retirement by `c`. -/
theorem State.retiresB_of {s u : State} {e : Nat} {p : Pfx} {op : Nat} {c : Ctl} {g : Arch → Arch} (hu : Touches (s.cycle e) u e)
    (hx : ((s.cycle e).eng e).Executed (u.eng e) g) : RetiresB s (u.retire e op (pLen p op) c) e p op g c := by
  obtain ⟨hy, hans⟩ := hx
  have h := Engine.retired_units (u.eng e) op (pLen p op) c
  have ha : (u.eng e).arch = g (s.eng e).arch.held := by rw [hy, State.eng_cycle]
  refine ⟨(s.touches_cycle e).trans (hu.trans (State.touches_retire _ e _ _ _)), ⟨?_, ?_⟩, ?_⟩
  · rw [State.eng_retire, h.1, hy, State.eng_cycle]
  · rw [State.eng_retire, h.2, hans, State.eng_cycle]; rfl
  · rw [State.eng_retire, Engine.retired_arch, ha]

/-- The same for an instruction that leaves the branch predictor and goes on at its end. -/
theorem State.retires_of_executed {s u : State} {e : Nat} {p : Pfx} {op : Nat} {g : Arch → Arch} (hu : Touches (s.cycle e) u e)
    (hx : ((s.cycle e).eng e).Executed (u.eng e) g) (hb : (u.eng e).btb = (s.eng e).btb) :
    Retires s (u.retire e op (pLen p op) .next) e p op g := by
  obtain ⟨ht, ⟨hunits, hans⟩, harch⟩ := State.retiresB_of (p := p) (op := op) (c := .next) hu hx
  have hbt : ((u.retire e op (pLen p op) .next).eng e).btb = (s.eng e).btb := by
    rw [State.eng_retire, (Engine.retired_units (u.eng e) op (pLen p op) .next).1]; exact hb
  exact ⟨ht, ⟨by rw [hunits, hbt], hans⟩, harch⟩

/-- Teaching the branch predictor changes the branch target buffer alone. -/
theorem Engine.btbUpdate_frame (x : Engine) (taken ind : Bool) (target : W64) :
    x.btbUpdate taken ind target = { x with btb := (x.btbUpdate taken ind target).btb } := by
  obtain ⟨c, hc, b, h⟩ : ∃ (c : Prop) (_ : Decidable c) (b : SMap (Option BtbEntry)),
      x.btbUpdate taken ind target = if c then x else { x with btb := b } := ⟨_, _, _, rfl⟩
  rw [h]
  split <;> rfl

/-- The registers after a branch or jump of an instruction at `a.pc`: the link register, where it is written. -/
def Arch.linked (a : Arch) (link : Bool) (v : W64) : Arch := if link then a.wrG 30 v else a

/-- A branch or jump that executes normally retires with its delay slot pending. -/
theorem State.jump_retires {s : State} {e : Nat} {p : Pfx} {op : Nat} {always taken an link ind : Bool} {target : W64} :
    let slot := (s.eng e).arch.pc + BitVec.ofNat 64 (pLen p op)
    ∃ u, (s.cycle e).jump e op p always taken an link ind target = .done u (.branch taken (annuls always taken an) target) ∧
      RetiresB s (u.retire e op (pLen p op) (.branch taken (annuls always taken an) target)) e p op
        (fun a => a.linked link (slot + BitVec.ofNat 64 ((s.cycle e).peekLen e slot.toNat)))
        (.branch taken (annuls always taken an) target) := by
  intro slot
  have hpc : ((s.cycle e).eng e).arch.pc = (s.eng e).arch.pc := by rw [State.eng_cycle]; rfl
  have hteach : ∃ b, ((s.cycle e).updEng e (fun x => if e < 512 then x.btbUpdate taken ind target else x)).eng e =
      { (s.cycle e).eng e with btb := b } := by
    rw [State.eng_updEng]
    split
    · exact ⟨_, Engine.btbUpdate_frame ..⟩
    · exact ⟨_, rfl⟩
  obtain ⟨b, hb⟩ := hteach
  unfold State.jump
  cases link
  · refine ⟨_, rfl, State.retiresB_of (State.touches_updEng ..) ?_⟩
    simp only [Bool.false_eq_true, if_false]
    rw [hb]
    exact ⟨rfl, rfl⟩
  · refine ⟨_, rfl, State.retiresB_of ?_ ?_⟩ <;> simp only [if_true]
    · exact (State.touches_updEng ..).trans (State.touches_updEng ..)
    rw [State.eng_updEng, hb, hpc]
    exact ⟨rfl, rfl⟩

/-- An instruction that executes normally and completes. -/
theorem State.scalar_done {s u : State} {e : Nat} {p : Pfx} {op : Nat} {bad : Arch → Nat} {lat : Arch → Option Nat}
    {body : State → Act} {c : Ctl} (h : s.executes e p op (bad (s.eng e).arch) = true) (hb : body (s.cycle e) = .done u c) :
    s.scalar e p op bad lat body = u.retire e op (pLen p op) c := by
  rw [State.scalar_executes lat body h, State.perform, hb]

/-- A branch of row 0x8 by its code: what it tests, when it annuls its delay slot and whether it links. -/
theorem State.branchOp_retires {s : State} {e : Nat} {p : Pfx} {op code : Nat} (f : FmtB) (hcode : op % 16 = code)
    (he : s.executes e p op 0 = true) :
    let a := (s.eng e).arch
    let taken := condHolds code a.flags
    let slot := a.pc + BitVec.ofNat 64 (pLen p op)
    let c := Ctl.branch taken (annuls (14 ≤ code) taken (f.an = 1)) (a.pc + f.disp.signExtend 64)
    ∃ t, s.branchOp e p op f = .next t ∧ RetiresB s t e p op
      (fun a => a.linked (code = 15) (slot + BitVec.ofNat 64 ((s.cycle e).peekLen e slot.toNat))) c := by
  intro a taken slot c
  have hd : sextW 23 (f.disp.setWidth 64) = f.disp.signExtend 64 := by
    rw [← BitVec.ofNat_toNat]; exact sextW_toNat (by decide) f.disp
  obtain ⟨u, hu, hret⟩ := State.jump_retires (s := s) (e := e) (p := p) (op := op) (always := decide (14 ≤ code)) (taken := taken)
    (an := decide (f.an = 1)) (link := decide (code = 15)) (ind := false) (target := a.pc + f.disp.signExtend 64)
  refine ⟨_, congrArg Host.Outcome.next (State.scalar_done (bad := fun _ => 0) he ?_), hret⟩
  simp only [hcode, hd, State.eng_cycle]
  exact hu

theorem branch_complete : Claims.BranchComplete := by
  refine ⟨fun c code hc s e p f he => ?_, fun s e p f he => ?_, fun s e p f he => ?_⟩
  · obtain ⟨hx, h14⟩ : exec (c e p f) s = s.branchOp e p (0x80 + code) f ∧ code < 14 := by
      simp only [List.mem_cons, List.not_mem_nil, or_false, Prod.mk.injEq] at hc
      rcases hc with ⟨rfl, rfl⟩ | ⟨rfl, rfl⟩ | ⟨rfl, rfl⟩ | ⟨rfl, rfl⟩ | ⟨rfl, rfl⟩ | ⟨rfl, rfl⟩ | ⟨rfl, rfl⟩ | ⟨rfl, rfl⟩ |
        ⟨rfl, rfl⟩ | ⟨rfl, rfl⟩ | ⟨rfl, rfl⟩ | ⟨rfl, rfl⟩ | ⟨rfl, rfl⟩ | ⟨rfl, rfl⟩ <;> exact ⟨rfl, by decide⟩
    have h := State.branchOp_retires f (show (0x80 + code) % 16 = code by omega) he
    simp only [annuls, show ¬ 14 ≤ code by omega, show code ≠ 15 by omega, decide_false, Bool.false_or] at h
    rw [hx]
    exact h
  · have h := State.branchOp_retires (code := 14) f rfl he
    simp only [annuls, le_refl, decide_true, Bool.true_or, Bool.and_true] at h
    exact h
  · have h := State.branchOp_retires (code := 15) f rfl he
    simp only [annuls, show 14 ≤ 15 by decide, decide_true, Bool.true_or, Bool.and_true] at h
    exact h

/-- JR and JLR: the target is read before the link register is written. -/
theorem State.jumpReg_retires {s : State} {e : Nat} {p : Pfx} {op : Nat} {f : FmtG} (link : Bool) (hf : f.sub.toNat / 2 = 0)
    (he : s.executes e p op 0 = true) :
    let slot := (s.eng e).arch.pc + BitVec.ofNat 64 (pLen p op)
    ∃ t, s.jumpReg e p op f link = .next t ∧ RetiresB s t e p op
      (fun a => a.linked link (slot + BitVec.ofNat 64 ((s.cycle e).peekLen e slot.toNat)))
      (.branch true (decide (f.sub = 1)) ((s.eng e).arch.rdG f.g.toNat)) := by
  intro slot
  have h0 : must0 [f.sub.toNat / 2] = 0 := by simp [must0_iff, hf]
  have han : annuls true true (decide (f.sub.toNat % 2 = 1)) = decide (f.sub = 1) := by
    rw [annuls, Bool.true_or, Bool.and_true, decide_eq_decide, ← BitVec.toNat_inj]
    change _ ↔ f.sub.toNat = 1
    omega
  obtain ⟨u, hu, hret⟩ := State.jump_retires (s := s) (e := e) (p := p) (op := op) (always := true) (taken := true)
    (an := decide (f.sub.toNat % 2 = 1)) (link := link) (ind := true) (target := (s.eng e).arch.rdG f.g.toNat)
  rw [han] at hu hret
  refine ⟨_, congrArg Host.Outcome.next (State.scalar_done (bad := fun _ => must0 [f.sub.toNat / 2]) (h0 ▸ he) ?_), hret⟩
  simp only [State.eng_cycle, Arch.held_rdG]
  exact hu

theorem jump_complete : Claims.JumpComplete := by
  intro s e p f hf target
  exact ⟨fun he => State.jumpReg_retires false hf he, fun he => State.jumpReg_retires true hf he⟩

/-- Settles O12: every branch and jump by the one operation that makes its delay slot pending. -/
theorem branchesAndJumps : Obligations.BranchesAndJumps := ⟨branch_complete, jump_complete⟩

/-! ### What is not executed, and what raises an exception instead (R82 to R84, R92, R115, R163) -/

theorem not_executed : Claims.NotExecuted := by
  intro s e p op bad lat body hi hs
  have hx : s.scalar e p op bad lat body = (s.cycle e).retire e op (pLen p op) .next := by
    unfold State.scalar
    rw [State.ready_of_issues hi]
    simp only [hs, Bool.not_false, if_true]
  exact hx ▸ s.cycle_retires e p op

/-- An instruction that is selected and meets no checker: its exceptions, or its effect. -/
theorem State.scalar_selected {s : State} {e : Nat} {p : Pfx} (op : Nat) (bad : Arch → Nat) (lat : Arch → Option Nat)
    (body : State → Act) (hi : s.issues e = true) (hs : (s.eng e).arch.selects p = true) (hk : p.chk = .good) :
    s.scalar e p op bad lat body =
      if (s.eng e).arch.illegal e p op (bad (s.eng e).arch) ≠ 0 then
        s.except e 0x03 ((s.eng e).arch.illegal e p op (bad (s.eng e).arch)) 0 none false none
      else if isPriv op && !(s.eng e).arch.sup then
        s.except e 0x04 (if op = 0x07 && !(s.eng e).arch.escact then 1 else 0) 0 none false none
      else s.perform e op (pLen p op) body := by
  have hc : s.checked e p.chk (lat (s.eng e).arch) = (s, true) := by
    rw [hk]; unfold State.checked; split <;> rfl
  unfold State.scalar
  rw [State.ready_of_issues hi]
  simp only [hs, hc, Bool.not_true, Bool.false_eq_true, if_false]

theorem illegal_and_privileged : Claims.IllegalAndPrivileged := by
  intro s e p op bad lat body hi hs hk c
  have h := State.scalar_selected op bad lat body hi hs hk
  refine ⟨fun hc => h.trans (if_pos hc), fun hc hp hu => ?_⟩
  rw [h, if_neg (not_not.2 hc), if_pos (by simp [hp, hu])]
  simp

theorem misaligned_traps : Claims.MisalignedTraps :=
  fun _ _ _ _ _ _ => ⟨fun h => if_pos h, fun h => if_pos h⟩

/-- An instruction without prefixes and outside a delay slot, of rows 0xC and 0xD, that its engine must not execute. -/
theorem Arch.illegal_vector {a : Arch} {e : Nat} {p : Pfx} {opc : Nat} (hp : p.bytes = []) (hds : a.ds = none)
    (hr : opc / 16 = 12 ∨ opc / 16 = 13) (he : e = 512 ∨ a.escact = true) : a.illegal e p opc 0 = 0x0A := by
  have hi : pInfo p = ⟨none, none, 0, none, [], 0⟩ := by rw [pInfo, hp]; rfl
  have hw : needsWidth opc = false := by
    simp [needsWidth]; omega
  have hj : isJump opc = false := by
    simp only [isJump, Bool.or_eq_false_iff, decide_eq_false_iff_not]; omega
  have hv : isVec opc = true := by simpa [isVec] using hr
  have he' : (decide (e = steward) || a.escact) = true := by
    rw [Bool.or_eq_true, decide_eq_true_eq]; exact he
  unfold Arch.illegal
  simp [hi, hp, hds, PInfo.refused, hw, hj, hv, he', lowest]

theorem vector_illegal : Claims.VectorIllegal := by
  intro s e p opc f hi hs hk hp hds hr hc he
  have hill := Arch.illegal_vector hp hds hr he
  rw [← hc] at hill
  refine congrArg Host.Outcome.next ((State.scalar_selected opc (fun _ => vecCause opc (opfOf f)) latNone _ hi hs hk).trans ?_)
  rw [hill]
  rfl

/-- Settles O14: the gate of every instruction by its cases, and misalignment before anything else of an access. -/
theorem notExecutedIllegalMisaligned : Obligations.NotExecutedIllegalMisaligned :=
  ⟨not_executed, illegal_and_privileged, misaligned_traps, vector_illegal⟩

end Sys2Proof.Machine

/-!
PROOFS. Control and system instructions (R76, R77, R107, R111, R112, R137, R140, R339, R436, R437, R445): what one engine cycle
leaves of what they look at, and each instruction's completion or wait. Settles O15 and O16.
-/
namespace Sys2Proof.Machine

/-! ### What an engine cycle leaves (R56, R171, R561) -/

section
variable (s : State) (e : Nat)

/-- An engine cycle writes no register below the engines' own. -/
theorem State.rd_cycle {r : RegRef} (h : r.off < 0x1000000) : (s.cycle e).rd r = s.rd r :=
  (s.cycle_frame e).2.2 r (notMem_enPmcCyc h)

theorem State.fld_cycle {r : RegRef} (h : r.off < 0x1000000) (hi lo : Nat) : (s.cycle e).fld r hi lo = s.fld r hi lo := by
  rw [State.fld, State.rd_cycle s e h, State.fld]

theorem State.bit_cycle {r : RegRef} (h : r.off < 0x1000000) (b : Nat) : (s.cycle e).bit r b = s.bit r b := by
  rw [State.bit, State.fld_cycle s e h, State.bit]

@[simp] theorem State.m_cycle : (s.cycle e).m = s.m := (congrArg State.m (s.cycle_frame e).1 :)
@[simp] theorem State.ring_cycle : (s.cycle e).ring = s.ring := (congrArg State.ring (s.cycle_frame e).1 :)
@[simp] theorem State.tb_cycle : (s.cycle e).tb = s.tb := (congrArg State.tb (s.cycle_frame e).1 :)
@[simp] theorem State.ord14_cycle : (s.cycle e).ord14 = s.ord14 := (congrArg State.ord14 (s.cycle_frame e).1 :)
@[simp] theorem State.evt_cycle : (s.cycle e).evt = s.evt := (congrArg State.evt (s.cycle_frame e).1 :)
@[simp] theorem State.lapTicks_cycle : (s.cycle e).lapTicks = s.lapTicks := State.lapTicks_congr (s.rd_cycle e (by decide))
@[simp] theorem State.lap_cycle : (s.cycle e).lap = s.lap := State.lap_congr (s.tb_cycle e) (s.rd_cycle e (by decide))
@[simp] theorem State.pos_cycle : (s.cycle e).pos = s.pos := State.pos_congr (s.rd_cycle e (by decide))
@[simp] theorem State.ringSize_cycle : (s.cycle e).ringSize = s.ringSize := s.fld_cycle e (by decide) 13 8
@[simp] theorem State.srcOf_cycle (j : Nat) : (s.cycle e).srcOf j = s.srcOf j := by rw [State.srcOf, State.pos_cycle, State.srcOf]
@[simp] theorem State.actMode_cycle : (s.cycle e).actMode = s.actMode :=
  State.actMode_congr (congrArg State.mode (s.cycle_frame e).1 :) (congrArg State.drainMode (s.cycle_frame e).1 :)
    (s.rd_cycle e (by decide))
@[simp] theorem State.hubNow_cycle : (s.cycle e).hubNow = s.hubNow := by simp [State.hubNow]
@[simp] theorem State.at1024_cycle : (s.cycle e).at1024 = s.at1024 := by simp [State.at1024, State.tick1024]
theorem State.seenFlag_cycle {c : Nat} (h : c < 256) : (s.cycle e).seenFlag c = s.seenFlag c := by
  have hf : (s.cycle e).flag c = s.flag c := s.bit_cycle e (by simp only [Reg.evtFlag]; omega) _
  rw [State.seenFlag, State.actMode_cycle, State.evt_cycle, hf, State.seenFlag]
@[simp] theorem State.writesDone_cycle : (s.cycle e).writesDone e = s.writesDone e := by
  simp [State.writesDone, State.eng_cycle]
@[simp] theorem State.ringDone_cycle (l : Nat) : (s.cycle e).ringDone l = s.ringDone l := by
  simp [State.ringDone, State.bit_cycle s e (r := Reg.ringLost) (by decide)]
end

/-! ### Control instructions, MFS and MTS (R76, R77, R111, R112, R137) -/

/-- An instruction whose whole effect is on the registers of its engine. -/
theorem State.scalar_toArch {s : State} {e : Nat} {p : Pfx} {op : Nat} {bad : Arch → Nat} {lat : Arch → Option Nat}
    {body : State → Act} {g : Arch → Arch} (h : s.executes e p op (bad (s.eng e).arch) = true)
    (hb : body (s.cycle e) = (s.cycle e).toArch e g) :
    ∃ t, (Host.Outcome.next (s.scalar e p op bad lat body) : Res) = .next t ∧ Retires s t e p op g :=
  ⟨_, congrArg Host.Outcome.next (State.scalar_done h hb), State.retires_of s e p op g⟩

/-- PSR.NBP is bit 10. -/
theorem Arch.setNbp_psr (a : Arch) (b : Bool) : (a.setNbp b).psr = if b then a.psr ||| 0x400 else a.psr &&& ~~~0x400 := by
  have h10 : (0x400 : W64) = BitVec.twoPow 64 10 := rfl
  refine BitVec.eq_of_getLsbD_eq fun i hi => ?_
  rw [Arch.setNbp, h10, BitVec.getLsbD_ofNat, testBit_putBits (show 10 ≤ 10 by decide)]
  by_cases h : i = 10
  · subst h; cases b <;> simp
  · have hne : ¬ (10 ≤ i ∧ i ≤ 10) := by omega
    have ht : (BitVec.twoPow 64 10).getLsbD i = false := by rw [BitVec.getLsbD_twoPow]; simp [Ne.symm h]
    cases b <;> simp [BitVec.getLsbD_or, BitVec.getLsbD_and, BitVec.getLsbD_not, BitVec.testBit_toNat, hne, hi, ht,
      -BitVec.getLsbD_eq_getElem]

theorem systemRegisters_complete : Claims.SystemRegistersComplete := by
  refine fun s e p => ⟨fun he => ?_, fun he => ?_, fun he => ?_, fun f hf => ?_, fun f hd ha hlo hhi he => ?_⟩
  · exact ⟨_, congrArg Host.Outcome.next (State.scalar_done (bad := fun _ => 0) he rfl), s.cycle_retires e p 0x00⟩
  · refine State.scalar_toArch (bad := fun _ => 0) he (congrArg (State.toArch _ e) (funext fun a => ?_))
    exact congrArg (fun v => { a with psr := v }) (a.setNbp_psr true)
  · refine State.scalar_toArch (bad := fun _ => 0) he (congrArg (State.toArch _ e) (funext fun a => ?_))
    exact congrArg (fun v => { a with psr := v }) (a.setNbp_psr false)
  · have h0 : must0 [f.sub.toNat] = 0 := by simp [must0_iff, hf]
    refine ⟨fun he => ?_, fun he => ?_, fun he => ?_, fun he => ?_, fun hlt he => ?_⟩
    · exact State.scalar_toArch (bad := fun _ => must0 [f.sub.toNat]) (h0 ▸ he) rfl
    · exact State.scalar_toArch (bad := fun _ => must0 [f.sub.toNat]) (h0 ▸ he) rfl
    · refine State.scalar_toArch (bad := fun _ => must0 [f.sub.toNat]) (h0 ▸ he) ?_
      simp only [State.actMode_cycle, State.lap_cycle, State.lapTicks_cycle, State.tb_cycle]
      rfl
    · refine State.scalar_toArch (bad := fun _ => must0 [f.sub.toNat]) (h0 ▸ he) ?_
      simp only [State.lap_cycle]
      rfl
    · refine State.scalar_toArch (bad := fun _ => must0 [f.sub.toNat]) (h0 ▸ he) ?_
      simp only [State.pos_cycle, hlt, if_true]
  · have hn : (if f.imm.toNat = 0 || 4096 < f.imm.toNat then 0x0B else 0) = 0 := if_neg (by simp; omega)
    have h0 : must0 [f.d.toNat, f.a.toNat] = 0 := by simp [must0_iff, hd, ha]
    refine State.scalar_toArch (bad := fun _ => lowest (must0 [f.d.toNat, f.a.toNat]) _) ?_ rfl
    rw [h0, hn]
    exact he

/-- The effect of MTS on an engine. -/
def Engine.mts (x : Engine) (r : SysReg) (a : Nat) : Engine :=
  { x with arch := x.arch.sysWrite r (x.arch.rdG a), btb := if r = .ctxid then [] else x.btb, lbuf := mtsLbuf x.lbuf r }

theorem systemRegisterMoves_complete : Claims.SystemRegisterMovesComplete := by
  intro s e p f r hr
  have hvs : (r = .vstate → (s.eng e).vinsts = []) → (r = .vstate && !((s.cycle e).eng e).tagsFree) = false := by
    intro h
    by_cases hv : r = .vstate
    · simp [State.eng_cycle, Engine.tagsFree, h hv]
    · simp [hv]
  have hpriv : ∀ b, ((s.eng e).arch.sup || r.user b) = true → (!((s.cycle e).eng e).arch.sup && !r.user b) = false := by
    intro b h
    rw [State.eng_cycle, ← Bool.not_or]
    exact congrArg Bool.not h
  refine ⟨fun ha he hu hv => ?_, fun hd hh he hu hv => ?_, fun a v => ?_⟩
  · have h0 : must0 [f.a.toNat] = 0 := by simp [must0_iff, ha]
    refine State.scalar_toArch (bad := fun _ => if (sysReg f.imm.toNat).isNone then 0x06 else must0 [f.a.toNat])
      (by rw [hr]; exact h0 ▸ he) ?_
    simp only [hr, hpriv _ hu, hvs hv]
    rfl
  · have h0 : must0 [f.d.toNat] = 0 := by simp [must0_iff, hd]
    have hb : (if (sysReg f.imm.toNat).isNone || sysReg f.imm.toNat = some .holdcnt then 0x06 else must0 [f.d.toNat]) = 0 := by
      simp [hr, hh, h0]
    have hdone : exec (.mts e p f) s =
        .next (((s.cycle e).updEng e fun x => x.mts r f.a.toNat).retire e 0xB1 (pLen p 0xB1) .next) := by
      refine congrArg Host.Outcome.next (State.scalar_done (bad := fun _ => _) (by rw [hb]; exact he) ?_)
      simp only [hr, hpriv _ hu, hvs hv]
      rfl
    have hbtb : (((s.cycle e).updEng e fun x => x.mts r f.a.toNat).retire e 0xB1 (pLen p 0xB1) .next |>.eng e).btb =
        if r = .ctxid then [] else (s.eng e).btb := by
      rw [State.eng_retire, (Engine.retired_units _ _ _ _).1, State.eng_updEng, State.eng_cycle]
      rfl
    refine ⟨_, hdone, ?_, fun h => hbtb.trans (if_pos h), fun h => hbtb.trans (if_neg h)⟩
    exact State.retiresB_of (g := fun a => a.sysWrite r (a.rdG f.a.toNat)) (State.touches_updEng _ e _)
      (by rw [State.eng_updEng]; exact ⟨rfl, rfl⟩)
  · exact ⟨rfl, rfl, rfl, rfl, rfl, fun i => SMap.get_set_self _ _ _ _⟩

/-- Settles O15: each body evaluated after the engine cycle, which changes nothing that it reads. -/
theorem systemRegisters : Obligations.SystemRegisters := ⟨systemRegisters_complete, systemRegisterMoves_complete⟩

/-! ### Barriers, events and waits (R107, R111, R140, R339, R431, R436, R437, R445) -/

/-- An instruction that waits changes nothing. -/
theorem State.scalar_waits {s : State} {e : Nat} {p : Pfx} {op : Nat} {bad : Arch → Nat} {lat : Arch → Option Nat}
    {body : State → Act} (h : s.executes e p op (bad (s.eng e).arch) = true) (hb : body (s.cycle e) = .wait) :
    s.scalar e p op bad lat body = s := by
  rw [State.scalar_executes lat body h, State.perform, hb]

/-- DSYNC and VWAIT: what a barrier does by whether the engine is drained. -/
theorem State.barrier_drained {s : State} {e : Nat} {p : Pfx} {op : Nat} (he : s.executes e p op 0 = true) :
    let r := s.sysOp e p op (fun s => if s.drained e then .done s .next else .wait)
    (s.drained e = true → ∃ t, r = .next t ∧ Retires s t e p op id) ∧ (s.drained e = false → r = .next s) := by
  refine ⟨fun hd => ⟨_, congrArg Host.Outcome.next (State.scalar_done (bad := fun _ => 0) he ?_), s.cycle_retires e p op⟩,
    fun hd => congrArg Host.Outcome.next (State.scalar_waits (bad := fun _ => 0) he ?_)⟩
  · exact if_pos ((s.drained_cycle e).trans hd)
  · exact if_neg (by rw [s.drained_cycle e, hd]; decide)

/-- Retirement in order finds nothing to drop where fetch holds nothing. -/
theorem Engine.retired_empty {x : Engine} (hq : x.pq = []) (hf : x.flight = []) (hl : x.lbuf = none) (op len : Nat) :
    (x.retired op len .next).pq = [] ∧ (x.retired op len .next).flight = [] ∧ (x.retired op len .next).lbuf = none := by
  have h : x.retired op len .next = { x with arch := x.arch.retire len .next } := by
    simp [Engine.retired, hq, hf, hl, lbufStep, LoopBuf.supplies, Engine.consume, Engine.dropWords, Engine.holds]
  rw [h]
  exact ⟨hq, hf, hl⟩

/-- Fetch starts again: the registers and the answers for the other units stay. -/
theorem Engine.refetch_executed (x : Engine) : x.Executed (x.refetch false) id :=
  ⟨rfl, by simp [Engine.answers, Engine.refetch, List.filter_filter]⟩

theorem ifence_complete {s : State} {e : Nat} {p : Pfx} (he : s.executes e p 0x02 0 = true) (hd : s.drained e = true) :
    ∃ t, exec (.ifence e p) s = .next t ∧ Retires s t e p 0x02 id ∧
      (t.eng e).pq = [] ∧ (t.eng e).flight = [] ∧ (t.eng e).lbuf = none := by
  refine ⟨_, congrArg Host.Outcome.next (State.scalar_done (bad := fun _ => 0) he
    (if_pos ((s.drained_cycle e).trans hd))), ?_, ?_⟩
  · refine State.retires_of_executed (State.touches_updEng _ e _) ?_ ?_
    · rw [State.eng_updEng]; exact Engine.refetch_executed _
    · rw [State.eng_updEng, State.eng_cycle]; rfl
  · rw [State.eng_retire, State.eng_updEng]
    exact Engine.retired_empty rfl rfl rfl _ _

/-- TSYNC after a TLBI of the Domain that now has taken effect everywhere. -/
theorem tsync_domain {s : State} {e n : Nat} {p : Pfx} (he : s.executes e p 0x09 0 = true) (hl : (s.eng e).tsyncLap = some n)
    (hn : n + 3 ≤ s.lap) (hk : s.at1024 = true) (hw : s.writesDone e = true) (hr : s.ringDone (n + 1) = true) :
    ∃ t, exec (.tsync e p) s = .next t ∧ Touches s t e ∧ (t.eng e).tsyncLap = none ∧
      (t.eng e).arch = (s.eng e).arch.held.retire (pLen p 0x09) .next := by
  have hl' : ((s.cycle e).eng e).tsyncLap = some n := by rw [State.eng_cycle]; exact hl
  refine ⟨_, congrArg Host.Outcome.next (State.scalar_done (bad := fun _ => 0)
    (u := (s.cycle e).updEng e fun x => { x with tsyncLap := none }) (c := .next) he ?_), ?_, ?_, ?_⟩
  · simp [hl', hn, hk, hw, hr]
  · exact (s.touches_cycle e).trans ((State.touches_updEng _ e _).trans (State.touches_retire _ e _ _ _))
  · rw [State.eng_retire, (Engine.retired_units _ _ _ _).1, State.eng_updEng]
  · rw [State.eng_retire, Engine.retired_arch, State.eng_updEng, State.eng_cycle]

theorem synchronisation_complete : Claims.SynchronisationComplete := by
  refine fun s e p => ⟨fun c op hc he => ?_, ifence_complete, fun he hl hw => ?_, fun n => tsync_domain, fun he hw => ?_⟩
  · have hx : exec c s = s.sysOp e p op (fun s => if s.drained e then .done s .next else .wait) := by
      simp only [List.mem_cons, List.not_mem_nil, or_false, Prod.mk.injEq] at hc
      rcases hc with ⟨rfl, rfl⟩ | ⟨rfl, rfl⟩ <;> rfl
    rw [hx]
    exact State.barrier_drained he
  · have hl' : ((s.cycle e).eng e).tsyncLap = none := by rw [State.eng_cycle]; exact hl
    refine ⟨_, congrArg Host.Outcome.next (State.scalar_done (bad := fun _ => 0) he ?_), s.cycle_retires e p 0x09⟩
    simp [hl', hw]
  · refine congrArg Host.Outcome.next (State.scalar_waits (bad := fun _ => 0) he ?_)
    cases hl : ((s.cycle e).eng e).tsyncLap <;> simp [hw]

/-- An engine owns a channel as a member of its cluster or by itself. -/
theorem ownsAs_of {e k i : Nat} (he : e < 512) (h : k = 2 ∧ i = e / 16 ∨ k = 3 ∧ i = e) : ownsAs e k i = true := by
  rw [ownsAs, if_neg (by omega)]
  simpa using h

theorem evsig_complete : Claims.EvsigComplete := by
  intro s e p f hlt he g c d
  have hpre : ∀ {u : State}, must0 [f.sub.toNat / 2] = 0 →
      (if f.sub = 1 then (s.cycle e).evsigDom e g else (s.cycle e).evsigLocal e g) = u →
      exec (.evsig e p f) s = .next (u.retire e 0x17 (pLen p 0x17) .next) := by
    intro u h0 hu
    refine congrArg Host.Outcome.next (State.scalar_done (bad := fun _ => must0 [f.sub.toNat / 2]) (h0 ▸ he) ?_)
    simp only [State.eng_cycle, Arch.held_rdG]
    rw [hu]
  have hsup : ((s.cycle e).eng e).arch.sup = (s.eng e).arch.sup := by rw [State.eng_cycle]; rfl
  refine ⟨fun hf h8 hown hsec => hpre (by simp [must0_iff, hf]) ?_, fun hf hown hpos hsec => hpre (by simp [must0_iff, hf]) ?_⟩
  · have hc : g.toNat % 256 = c := (BitVec.toNat_setWidth 8 g).symm
    have hoff : (Reg.evtChCfg c).off < 0x1000000 := by have := (g.setWidth 8 : BitVec 8).isLt; simp only [Reg.evtChCfg]; omega
    rw [hf, if_neg (by decide), State.evsigLocal, if_neg (by rw [h8]; decide)]
    simp [hc, State.fld_cycle s e hoff, State.bit_cycle s e hoff, ownsAs_of hlt hown, hsup, hsec]
  · have hd : g.toNat % 32 = d := (BitVec.toNat_setWidth 5 g).symm
    have hoff : (Reg.evtDchCfg d).off < 0x1000000 := by have := (g.setWidth 5 : BitVec 5).isLt; simp only [Reg.evtDchCfg]; omega
    rw [if_pos hf, State.evsigDom]
    simp [hd, State.fld_cycle s e hoff, State.bit_cycle s e hoff, ownsAs_of hlt hown, hsup, hsec, hpos]

theorem waite_complete : Claims.WaiteComplete := by
  intro s e p f hf he c hsec
  have h0 : must0 [f.sub.toNat] = 0 := by simp [must0_iff, hf]
  have hlt : c < 256 := (((s.eng e).arch.rdG f.g.toNat).setWidth 8 : BitVec 8).isLt
  have hc : ((s.eng e).arch.held.rdG f.g.toNat).toNat % 256 = c := (BitVec.toNat_setWidth 8 _).symm
  have hoff : (Reg.evtChCfg c).off < 0x1000000 := by simp only [Reg.evtChCfg]; omega
  have hok : (!(s.cycle e).bit (Reg.evtChCfg c) 20 && !(s.eng e).arch.held.sup) = false := by
    rw [s.bit_cycle e hoff, ← Bool.not_or]
    exact congrArg Bool.not hsec
  have hseen := s.seenFlag_cycle e hlt
  refine ⟨fun h => ⟨_, congrArg Host.Outcome.next
      (State.scalar_done (bad := fun _ => must0 [f.sub.toNat]) (c := .next) (h0 ▸ he) ?_), s.cycle_retires e p 0x18⟩,
    fun h => ⟨(s.cycle e).updEng e fun x => { x with waite := some (c, pLen p 0x18) },
    congrArg Host.Outcome.next ?_, (s.touches_cycle e).trans (State.touches_updEng _ e _), ?_⟩⟩
  · simp only [State.eng_cycle, hc, hok, hseen, h, Bool.false_eq_true, if_false, if_true]
  · rw [State.scalar_executes (bad := fun _ => must0 [f.sub.toNat]) latNone _ (h0 ▸ he)]
    simp only [State.perform, State.eng_cycle, hc, hok, hseen, h, Bool.false_eq_true, if_false]
  · rw [State.eng_updEng, State.eng_cycle]

/-- Settles O16: each wait is on state that an engine cycle leaves. -/
theorem synchronisationAndEvents : Obligations.SynchronisationAndEvents :=
  ⟨synchronisation_complete, evsig_complete, waite_complete⟩

end Sys2Proof.Machine

/-!
PROOFS. Scalar loads and stores (R74, R75, R87, R91, R92, R106, R311): what address translation and reads of memory leave as it
is, then completion of loads and stores. Settles O23 and O24.
-/
namespace Sys2Proof.Machine

/-! ### What translation and reads leave (R293, R300, R305, R321 to R331) -/

/-- No byte of memory, no waiting request, no retired epoch and no register of a placement differs: of an engine's registers at
most its error queue. -/
def ReadOnly (s t : State) : Prop :=
  t.m.mem = s.m.mem ∧ t.m.memq = s.m.memq ∧ t.flt.retired = s.flt.retired ∧ t.flt.sweeps = s.flt.sweeps ∧
    ∀ j, (t.eng j).arch = { (s.eng j).arch with errq := (t.eng j).arch.errq }

theorem ReadOnly.refl (s : State) : ReadOnly s s := ⟨rfl, rfl, rfl, rfl, fun _ => rfl⟩

theorem ReadOnly.trans {s t u : State} (h : ReadOnly s t) (k : ReadOnly t u) : ReadOnly s u := by
  obtain ⟨h1, h2, h3, h4, h5⟩ := h
  obtain ⟨k1, k2, k3, k4, k5⟩ := k
  exact ⟨k1.trans h1, k2.trans h2, k3.trans h3, k4.trans h4, fun j => by rw [k5 j, h5 j]⟩

/-- Registers of the part, queues of the links and the Task Table are none of these. -/
theorem ReadOnly.of_frame {s t : State} (hm : t.m.mem = s.m.mem) (hq : t.m.memq = s.m.memq) (hf : t.flt = s.flt)
    (he : t.engines = s.engines) : ReadOnly s t :=
  ⟨hm, hq, by rw [hf], by rw [hf], fun j => by rw [State.eng, he]; rfl⟩

theorem ReadOnly.filed {s t : State} (h : Filed s t) : ReadOnly s t := by
  refine ⟨by rw [h.m], by rw [h.m], ?_, ?_, fun j => by rw [h.eng]⟩
  · rw [h.1]
  · rw [h.1]

theorem ReadOnly.counted {s t : State} (h : Counted s t) : ReadOnly s t := by
  obtain ⟨h, -, -⟩ := h
  exact ReadOnly.of_frame (by rw [h]) (by rw [h]) (by rw [h]) (by rw [h])

theorem ReadOnly.updEng (s : State) (e : Nat) (g : Engine → Engine)
    (hg : (g (s.eng e)).arch = { (s.eng e).arch with errq := (g (s.eng e)).arch.errq }) : ReadOnly s (s.updEng e g) := by
  refine ⟨rfl, rfl, rfl, rfl, fun j => ?_⟩
  by_cases hj : j = e
  · subst hj; rw [State.eng_updEng]; exact hg
  · rw [State.eng_updEng_ne s e j g hj]

theorem ReadOnly.satInc (s : State) (r : RegRef) (hi lo : Nat) : ReadOnly s (s.satInc r hi lo) := by
  unfold State.satInc
  split
  · exact ReadOnly.of_frame rfl rfl rfl rfl
  · exact ReadOnly.refl s

theorem ReadOnly.add64 (s : State) (r : RegRef) (n : Nat) : ReadOnly s (s.add64 r n) := ReadOnly.of_frame rfl rfl rfl rfl

theorem ReadOnly.fault (s : State) (c o a p t d : Nat) : ReadOnly s (s.fault c o a p t d) :=
  ReadOnly.filed (Filed.fault s c o a p t d)

theorem ReadOnly.pushErr (s : State) (e cls : Nat) (addr : W64) : ReadOnly s (s.pushErr e cls addr) := by
  unfold State.pushErr
  split
  · exact ReadOnly.refl s
  · split
    · exact ReadOnly.updEng s e _ rfl
    · exact ReadOnly.of_frame rfl rfl rfl rfl

/-- The events of memory errors count, mark words and file a record. -/
theorem ReadOnly.ceEvent (s : State) (off : Nat) : ReadOnly s (s.ceEvent off) := by
  have hmark : ∀ u : State, ReadOnly u (if SMap.get Health.good u.m.health (healthKey off) = .good then
      { u with m := { u.m with health := SMap.set .good u.m.health (healthKey off) .corrected } } else u) := by
    intro u
    split
    · exact ReadOnly.of_frame rfl rfl rfl rfl
    · exact ReadOnly.refl u
  unfold State.ceEvent
  refine ReadOnly.trans ?_ (ReadOnly.fault ..)
  dsimp only
  split
  · exact ReadOnly.add64 ..
  · exact (hmark s).trans (ReadOnly.add64 ..)
  · exact ((hmark s).trans (ReadOnly.satInc ..)).trans (ReadOnly.pushErr ..)
  · exact ReadOnly.add64 ..
  · exact ReadOnly.refl s
  · exact ReadOnly.refl s

theorem ReadOnly.ueCount (s : State) (off : Nat) : ReadOnly s (s.ueCount off) := by
  unfold State.ueCount
  refine ReadOnly.trans ?_ (ReadOnly.fault ..)
  split
  · exact ReadOnly.add64 ..
  · exact ReadOnly.add64 ..
  · exact ReadOnly.satInc ..
  · exact ReadOnly.add64 ..
  · exact ReadOnly.refl s
  · exact ReadOnly.refl s

theorem ReadOnly.ueEvent (s : State) (off : Nat) : ReadOnly s (s.ueEvent off) := by
  have hp : ReadOnly s (s.poisonWord off) := by
    unfold State.poisonWord
    split
    · exact ReadOnly.of_frame rfl rfl rfl rfl
    · exact ReadOnly.of_frame rfl rfl rfl rfl
    · exact ReadOnly.of_frame rfl rfl rfl rfl
    all_goals exact ReadOnly.refl s
  exact hp.trans (ReadOnly.ueCount ..)

theorem ReadOnly.takeFound (s : State) (off : Nat) : ReadOnly s (s.takeFound off).1 := by
  have hclear : ∀ x, ReadOnly s { s with m := { s.m with found := x } } := fun _ => ReadOnly.of_frame rfl rfl rfl rfl
  unfold State.takeFound
  dsimp only
  split
  · obtain ⟨d, hd⟩ := s.touchLine_frame off
    rw [hd]
    exact ReadOnly.of_frame rfl rfl rfl rfl
  · split
    · exact ReadOnly.refl s
    · exact (hclear _).trans (ReadOnly.ceEvent ..)
    · exact (hclear _).trans (ReadOnly.ueEvent ..)
    · exact (hclear _).trans (ReadOnly.fault ..)

theorem ReadOnly.readLocal (s : State) (src : Src) (off n : Nat) : ReadOnly s (s.readLocal src off n).1 := by
  have hfold : ∀ (l : List Nat) (a : State × Bool), ReadOnly a.1 (l.foldl (fun (a : State × Bool) o =>
      let (t, b) := a.1.takeFound o
      (t, a.2 || b)) a).1 := by
    intro l
    induction l with
    | nil => exact fun a => ReadOnly.refl a.1
    | cons o t ih => exact fun a => (ReadOnly.takeFound a.1 o).trans (ih _)
  have hs := hfold (touched 16 off n) (s, false)
  unfold State.readLocal
  split
  · exact ReadOnly.refl s
  · split
    rename_i s1 bad h
    rw [h] at hs
    dsimp only
    split
    · exact hs
    · split
      · exact hs.trans (ReadOnly.ueCount ..)
      · split
        · exact hs.trans (ReadOnly.ueEvent ..)
        · exact hs

theorem ReadOnly.readCounted (s : State) (src : Src) (off n : Nat) (booked : Bool) :
    ReadOnly s (s.readCounted src off n booked).1 :=
  (ReadOnly.counted (Counted.countUnits ..)).trans (ReadOnly.readLocal ..)

theorem ReadOnly.setOvr (s : State) (tti bit : Nat) : ReadOnly s (s.setOvr tti bit) := ReadOnly.of_frame rfl rfl rfl rfl

theorem ReadOnly.spend (s : State) (e comp part k : Nat) : ReadOnly s (s.spend e comp part k).1 := by
  unfold State.spend
  split
  · exact ReadOnly.refl s
  · split
    · exact ReadOnly.refl s
    · split
      · exact ReadOnly.updEng s e _ rfl
      · exact (ReadOnly.updEng s e _ rfl).trans (ReadOnly.setOvr ..)

theorem ReadOnly.payFor (s : State) (e dpa n : Nat) : ReadOnly s (s.payFor e dpa n).1 := by
  unfold State.payFor
  split
  · exact ReadOnly.refl s
  · exact ReadOnly.spend ..

theorem ReadOnly.sendFlit (s : State) (f : Flit) : ReadOnly s (s.sendFlit f) := by
  unfold State.sendFlit
  split
  · exact ReadOnly.of_frame rfl rfl rfl rfl
  · exact ReadOnly.filed (Filed.toPort ..)

theorem ReadOnly.sendRead (s : State) (e dpa n : Nat) (w : ReqFor) (booked : Bool) : ReadOnly s (s.sendRead e dpa n w booked) :=
  ((ReadOnly.spend s e 5 (dpa / 2 ^ 46) 1).trans (ReadOnly.sendFlit ..)).trans (ReadOnly.of_frame rfl rfl rfl rfl)

theorem ReadOnly.askExp (s : State) (e port dpa n : Nat) (w : ReqFor) (booked : Bool) :
    ReadOnly s (s.askExp e port dpa n w booked) :=
  (ReadOnly.counted (Counted.countUnits s s.pos (dpa % 2 ^ 46) n s.lap booked)).trans (ReadOnly.of_frame rfl rfl rfl rfl)

theorem ReadOnly.readFor (s : State) (e who : Nat) (src : Src) (pay : Bool) (dpa n : Nat) :
    ReadOnly s (s.readFor e who src pay dpa n).1 := by
  have hpay : ReadOnly s (if pay then s.payFor e dpa n else (s, false)).1 := by
    split
    · exact ReadOnly.payFor ..
    · exact ReadOnly.refl s
  unfold State.readFor
  split
  · exact ReadOnly.refl s
  · split
    · exact ReadOnly.refl s
    · split
      · exact ReadOnly.refl s
      · split
        · exact ReadOnly.refl s
        · dsimp only
          split
          · exact hpay.trans (ReadOnly.sendRead ..)
          · split
            · exact hpay.trans (ReadOnly.askExp ..)
            · exact (hpay.trans (ReadOnly.readCounted ..)).trans (ReadOnly.updEng _ e _ rfl)

/-! ### Address translation (R321 to R331) -/

theorem ReadOnly.setWalk (s : State) (e k : Nat) (w : Option Walk) : ReadOnly s (s.setWalk e k w) := ReadOnly.updEng s e _ rfl

theorem ReadOnly.dropGot (s : State) (e who : Nat) : ReadOnly s (s.dropGot e who) := ReadOnly.updEng s e _ rfl

theorem ReadOnly.walkFrom (e k fuel : Nat) : ∀ (s : State) (w : Walk), ReadOnly s (s.walkFrom e k w fuel).1 := by
  induction fuel with
  | zero => exact fun s _ => ReadOnly.refl s
  | succ fuel ih =>
    intro s w
    have hread := ReadOnly.readFor s e k s.walkSrc true (w.ta + 8 * (w.va / 2 ^ (42 - 13 * (w.lvl - 1)) % 2 ^ 13)) 8
    unfold State.walkFrom
    dsimp only
    split
    · exact ReadOnly.refl s
    · split
      · rename_i s1 h
        rw [h] at hread; exact hread
      · rename_i s1 _ h
        rw [h] at hread; exact hread.trans (ReadOnly.dropGot ..)
      · rename_i s1 _ h
        rw [h] at hread; exact hread.trans (ReadOnly.dropGot ..)
      · rename_i s1 bs h
        rw [h] at hread
        have hdrop : ReadOnly s (s1.dropGot e k) := hread.trans (ReadOnly.dropGot ..)
        split
        · exact hdrop
        · split
          · exact hdrop
          · split
            · split
              · exact hdrop.trans (ReadOnly.satInc ..)
              · exact hdrop
            · exact hdrop.trans (ih ..)

theorem Engine.fill_arch (x : Engine) (f : Bool) (y : Slot) : (x.fill f y).arch = x.arch := by
  cases f <;> rfl

theorem ReadOnly.runWalk (s : State) (e k : Nat) (w : Walk) : ReadOnly s (s.runWalk e k w).1 := by
  have hwalk := ReadOnly.walkFrom e k (4 - w.lvl) s w
  unfold State.runWalk
  split
  · rename_i s1 y h
    rw [h] at hwalk
    exact (hwalk.trans (ReadOnly.updEng s1 e _ (by rw [Engine.fill_arch]))).trans (ReadOnly.setWalk ..)
  · rename_i s1 c h
    rw [h] at hwalk; exact hwalk.trans (ReadOnly.setWalk ..)
  · rename_i s1 w' h
    rw [h] at hwalk; exact hwalk.trans (ReadOnly.setWalk ..)

theorem ReadOnly.beginWalk (s : State) (e k : Nat) (ctx : BitVec 16) (ttb : W64) (va : Nat) :
    ReadOnly s (s.beginWalk e k ctx ttb va).1 := by
  have hmiss : ReadOnly s (if s.pmcOn then s.add64 (Reg.enPmcTlbmiss e) 1 else s) := by
    split
    · exact ReadOnly.add64 ..
    · exact ReadOnly.refl s
  unfold State.beginWalk
  dsimp only
  split
  · exact hmiss
  · exact hmiss.trans (ReadOnly.runWalk ..)

theorem ReadOnly.doWalk (s : State) (e k : Nat) (ctx : BitVec 16) (ttb : W64) (va : Nat) :
    ReadOnly s (s.doWalk e k ctx ttb va).1 := by
  unfold State.doWalk
  split
  · exact ReadOnly.beginWalk ..
  · split
    · split
      · exact ReadOnly.setWalk ..
      · exact ReadOnly.runWalk ..
    · split
      · exact (ReadOnly.setWalk s e k none).trans (ReadOnly.beginWalk ..)
      · exact ReadOnly.refl s

theorem Engine.lookup_arch {x z : Engine} {f : Bool} {va : Nat} {y : Slot} (h : x.lookup f va = some (y, z)) : z.arch = x.arch := by
  unfold Engine.lookup at h
  split at h
  · cases h; cases f <;> rfl
  · split at h
    · cases h; cases f <;> rfl
    · cases h

theorem ReadOnly.translate (s : State) (e k : Nat) (a : Acc) (atomic user : Bool) (pkr : BitVec 32) (va : Nat) :
    ReadOnly s (s.translate e k a atomic user pkr va).1 := by
  have hwalk := ReadOnly.doWalk s e k (s.eng e).arch.ctxid (s.eng e).arch.ttb va
  unfold State.translate
  dsimp only
  split
  · exact ReadOnly.refl s
  · split
    · rename_i y x h
      have hset : ReadOnly s (s.setEng e x) := ReadOnly.updEng s e (fun _ => x) (by rw [Engine.lookup_arch h])
      split
      · exact hset
      · exact hset
    · split
      · rename_i s1 y h
        rw [h] at hwalk
        split
        · exact hwalk
        · exact hwalk
      · rename_i s1 c h
        rw [h] at hwalk
        dsimp only
        split
        · exact hwalk.trans (ReadOnly.satInc ..)
        · exact hwalk
      · rename_i s1 _ h
        rw [h] at hwalk; exact hwalk

theorem ReadOnly.locate (s : State) (e : Nat) (a : Acc) (user : Bool) (va : Nat) : ReadOnly s (s.locate e a user va).1 := by
  have htr := ReadOnly.translate s e (if a = .fetch then 0 else 1) a false user (s.eng e).arch.pkr va
  unfold State.locate
  dsimp only
  split
  · exact ReadOnly.refl s
  · split
    · exact ReadOnly.refl s
    · split
      · rename_i s1 d h
        rw [h] at htr; exact htr
      · rename_i s1 v d h
        rw [h] at htr; exact htr
      · rename_i s1 h
        rw [h] at htr; exact htr

/-! ### Loads (R74, R75, R87, R92, R106) -/

/-- Budgets, digests and OVR alone may differ: no register of the part or of a placement, and nothing of memory. -/
def Paid (s t : State) : Prop :=
  t = { s with engines := t.engines, sta := t.sta } ∧ ∀ j, (t.eng j).arch = (s.eng j).arch

theorem Paid.refl (s : State) : Paid s s := ⟨rfl, fun _ => rfl⟩

theorem Paid.trans {s t u : State} (h : Paid s t) (k : Paid t u) : Paid s u := by
  obtain ⟨h1, h2⟩ := h
  obtain ⟨k1, k2⟩ := k
  exact ⟨by rw [k1, h1], fun j => (k2 j).trans (h2 j)⟩

theorem Paid.updEng (s : State) (e : Nat) (g : Engine → Engine) (hg : (g (s.eng e)).arch = (s.eng e).arch) :
    Paid s (s.updEng e g) := by
  refine ⟨rfl, fun j => ?_⟩
  by_cases hj : j = e
  · subst hj; rw [State.eng_updEng]; exact hg
  · rw [State.eng_updEng_ne s e j g hj]

theorem Paid.setPlace (s : State) (e : Nat) (q : Option Placement) : Paid s (s.updEng e fun x => { x with place := q }) :=
  Paid.updEng s e _ rfl

theorem Paid.setOvr (s : State) (tti bit : Nat) : Paid s (s.setOvr tti bit) := ⟨rfl, fun _ => rfl⟩

theorem Paid.payFor (s : State) (e dpa n : Nat) : Paid s (s.payFor e dpa n).1 := by
  unfold State.payFor State.spend
  split
  · exact Paid.refl s
  · split
    · exact Paid.refl s
    · split
      · exact Paid.refl s
      · split
        · exact Paid.setPlace ..
        · exact (Paid.setPlace ..).trans (Paid.setOvr ..)

theorem Paid.digestRec (s : State) (e kind dpa be data : Nat) : Paid s (s.digestRec e kind dpa be data) := by
  unfold State.digestRec
  exact Paid.updEng s e _ rfl

theorem Paid.digests (e : Nat) (ws : List (Nat × Nat × Nat)) :
    ∀ s : State, Paid s (ws.foldl (fun s w => s.digestRec e 0 w.1 w.2.1 w.2.2) s) := by
  induction ws with
  | nil => exact Paid.refl
  | cons w t ih => exact fun s => (Paid.digestRec s e 0 w.1 w.2.1 w.2.2).trans (ih _)

theorem Paid.pos {s t : State} (h : Paid s t) : t.pos = s.pos := State.pos_congr (by rw [h.1]; rfl)

/-- What an engine reaches does not lie among the registers. -/
theorem State.notRegs_of_reaches {s : State} {e d : Nat} (h : s.reaches e d = true) : inRegs (d % 2 ^ 46) = false := by
  simp only [State.reaches, State.reachable, Bool.and_eq_true, Bool.not_eq_true'] at h
  exact h.1.1.2

/-- A load from memory of this part that answers at once. -/
theorem State.loadOp_loaded {s s1 s3 : State} {e d : Nat} {l : LoadOp} {bs : List Byte} (hal : l.va.toNat % l.n = 0)
    (hloc : s.locate e .read (!(s.eng e).arch.sup) l.va.toNat = (s1, .dpa d)) (hreach : s1.reaches e d = true)
    (hpart : d / 2 ^ 46 = s1.pos) (hheld : s1.heldAt (d % 2 ^ 46) = false) (hvec : s.heldByVec e l.va.toNat l.n false = false)
    (hexp : (s1.payFor e d l.n).1.expPort d = none)
    (hread : (s1.payFor e d l.n).1.readCounted ((s1.payFor e d l.n).1.srcOf e) (d % 2 ^ 46) l.n (s1.payFor e d l.n).2 =
      (s3, .ok, bs)) :
    s.loadOp e l = s3.loaded e l bs ∧ s3.m.mem = s.m.mem := by
  have hsrc : (s1.payFor e d l.n).1.srcOf e = s1.srcOf e := by rw [State.srcOf, (Paid.payFor s1 e d l.n).pos, State.srcOf]
  have hl := ReadOnly.locate s e .read (!(s.eng e).arch.sup) l.va.toNat
  have hr := ReadOnly.readCounted (s1.payFor e d l.n).1 ((s1.payFor e d l.n).1.srcOf e) (d % 2 ^ 46) l.n (s1.payFor e d l.n).2
  rw [hloc] at hl
  rw [hread] at hr
  refine ⟨?_, ((hl.trans (ReadOnly.payFor s1 e d l.n)).trans hr).1⟩
  rw [State.loadOp, if_neg (by rw [hal]; decide), hloc]
  simp only [hvec, Bool.false_eq_true, if_false]
  rw [State.loadAt]
  simp only [State.notRegs_of_reaches hreach, Bool.and_false, Bool.false_eq_true, if_false, hreach, Bool.not_true, hheld, hpart,
    ne_eq, not_true_eq_false, hexp, ← hsrc, hread]

/-- Which streams are in use is the same after an engine cycle. -/
theorem State.streamBusy_cycle (s : State) (e c : Nat) : (s.cycle e).streamBusy e c = s.streamBusy e c := by
  have hdesc : ∀ k, (s.cycle e).desc e k = s.desc e k := fun k => by rw [State.desc, State.eng_cycle]; rfl
  have hix : ∀ k, (s.cycle e).ixOf e k = s.ixOf e k := fun k => by simp only [State.ixOf, hdesc]
  have hsrc : ∀ n k, (s.cycle e).sourcesOf e k n = s.sourcesOf e k n := by
    intro n
    induction n with
    | zero => exact fun _ => rfl
    | succ n ih => intro k; simp only [State.sourcesOf, hix, ih]
  have hstr : ∀ v, (s.cycle e).streamsOf e v = s.streamsOf e v := fun v => by
    simp only [State.streamsOf, State.namedOf, State.bitmapsOf, State.inputsOf, State.bmopOf, hdesc, hsrc]
  simp only [State.streamBusy, State.eng_cycle, hstr]

/-- The instruction is a scalar one whose body is `act` on the engine after its cycle, with no cause of its own. -/
def ActsAs (c : Instr) (s : State) (e : Nat) (p : Pfx) (op : Nat) (act : Act) : Prop :=
  ∃ bad lat body, exec c s = .next (s.scalar e p op bad lat body) ∧ bad (s.eng e).arch = 0 ∧ body (s.cycle e) = act

theorem ActsAs.completes {c : Instr} {s u : State} {e op : Nat} {p : Pfx} (h : ActsAs c s e p op (.done u .next))
    (he : s.executes e p op 0 = true) : exec c s = .next (u.retire e op (pLen p op) .next) := by
  obtain ⟨bad, lat, body, hx, h0, hb⟩ := h
  rw [hx, State.scalar_done (by rw [h0]; exact he) hb]

theorem loadI_actsAs {c : Instr} {s : State} {e op n file : Nat} {p : Pfx} {f : FmtI} {sext : Bool}
    (hc : exec c s = .next (s.loadI e p op f n sext file)) (hi : immCause p f.imm.toNat = 0) :
    ActsAs c s e p op ((s.cycle e).loadOp e ⟨(s.eng e).arch.eaI p f, n, sext, file, f.d.toNat, none, pLen p op⟩) := by
  refine ⟨_, _, _, hc, hi, ?_⟩
  simp only [State.eng_cycle]
  rfl

theorem loadX_actsAs {c : Instr} {s : State} {e op n file : Nat} {p : Pfx} {f : FmtX} {sext : Bool}
    (hc : exec c s = .next (s.loadX e p op f n sext file)) (hi : causeX p f (file = 0) = 0) :
    ActsAs c s e p op ((s.cycle e).loadOp e
      ⟨((s.eng e).arch.eaX p f).va, n, sext, file, f.t.toNat, ((s.eng e).arch.eaX p f).upd, pLen p op⟩) := by
  refine ⟨_, _, _, hc, hi, ?_⟩
  simp only [State.eng_cycle]
  rfl

theorem pop_actsAs {s : State} {e : Nat} {p : Pfx} {f : FmtG} (hs : f.sub = 0) (hg : f.g ≠ 31) :
    ActsAs (.pop e p f) s e p 0x13 ((s.cycle e).loadOp e
      ⟨(s.eng e).arch.rdG 31, 8, false, 0, f.g.toNat, some (31, (s.eng e).arch.rdG 31 + 8), pLen p 0x13⟩) := by
  refine ⟨_, _, _, rfl, by rw [causeStack, if_neg (not_not.2 hs), if_neg hg], ?_⟩
  simp only [State.eng_cycle, Arch.held_rdG]

theorem ldsd_actsAs {s : State} {e : Nat} {p : Pfx} {f : FmtG} (hb : s.streamBusy e f.sub.toNat = false) :
    ActsAs (.ldsd e p f) s e p 0x1C ((s.cycle e).loadOp e
      ⟨(s.eng e).arch.rdG f.g.toNat, 32, false, 3, f.sub.toNat, none, pLen p 0x1C⟩) := by
  refine ⟨_, _, _, rfl, rfl, ?_⟩
  simp only [State.streamBusy_cycle, hb, Bool.false_eq_true, if_false, State.eng_cycle, Arch.held_rdG]

theorem load_complete : Claims.LoadComplete := by
  intro s e p c op l hc he hal s1 s3 d bs hloc hreach hpart hheld hvec hexp hread
  obtain ⟨hact, hlen⟩ : ActsAs c s e p op ((s.cycle e).loadOp e l) ∧ l.len = pLen p op := by
    rcases hc with ⟨f, hi, hc⟩ | ⟨f, hi, hi0, hc⟩ | ⟨f, hs, hg, hc⟩ | ⟨f, hb, hc⟩
    · simp only [List.mem_cons, List.not_mem_nil, or_false, Prod.mk.injEq] at hc
      rcases hc with ⟨rfl, rfl, rfl⟩ | ⟨rfl, rfl, rfl⟩ | ⟨rfl, rfl, rfl⟩ | ⟨rfl, rfl, rfl⟩ <;>
        exact ⟨loadI_actsAs rfl hi, rfl⟩
    · simp only [List.mem_cons, List.not_mem_nil, or_false, Prod.mk.injEq] at hc
      rcases hc with ⟨rfl, rfl, rfl⟩ | ⟨rfl, rfl, rfl⟩ | ⟨rfl, rfl, rfl⟩ | ⟨rfl, rfl, rfl⟩
      · exact ⟨loadX_actsAs rfl (hi0 (.inl rfl)), rfl⟩
      · exact ⟨loadX_actsAs rfl (hi0 (.inr rfl)), rfl⟩
      · exact ⟨loadX_actsAs rfl hi, rfl⟩
      · exact ⟨loadX_actsAs rfl hi, rfl⟩
    · simp only [Prod.mk.injEq] at hc
      obtain ⟨rfl, rfl, rfl⟩ := hc
      exact ⟨pop_actsAs hs hg, rfl⟩
    · simp only [Prod.mk.injEq] at hc
      obtain ⟨rfl, rfl, rfl⟩ := hc
      exact ⟨ldsd_actsAs hb, rfl⟩
  have hsup : ((s.cycle e).eng e).arch.sup = (s.eng e).arch.sup := by rw [State.eng_cycle]; rfl
  obtain ⟨hload, hmem⟩ := State.loadOp_loaded hal (by rw [hsup]; exact hloc) hreach hpart hheld hvec hexp hread
  rw [hload] at hact
  refine ⟨?_, by rw [hmem, State.m_cycle]⟩
  rw [hact.completes he, hlen]
  rfl

theorem loaded_value : Claims.LoadedValue := by
  refine fun a reg n v => ⟨fun w hw hn hv => ?_, rfl, fun b => rfl⟩
  have h64 : w ≤ 64 := by omega
  have h8 : 8 * n = w := by omega
  have hnat : (BitVec.ofNat w v).toNat = v := by rw [BitVec.toNat_ofNat, Nat.mod_eq_of_lt hv]
  have hz : zextW w (BitVec.ofNat 64 v) = BitVec.ofNat 64 v := by
    conv_lhs => rw [← hnat]
    rw [zextW_toNat h64]
    exact BitVec.eq_of_toNat_eq (by rw [BitVec.toNat_setWidth, hnat, BitVec.toNat_ofNat])
  have hs : sextW w (BitVec.ofNat 64 v) = (BitVec.ofNat w v).signExtend 64 := by
    conv_lhs => rw [← hnat]
    exact sextW_toNat h64 _
  refine ⟨?_, ?_, ?_⟩
  · rw [Arch.putLoad, h8, hz]; rfl
  · rw [Arch.putLoad, h8, hs]; rfl
  · rw [Arch.putLoad, Arch.wrF, h8, Nat.mod_eq_of_lt hv]

/-- Settles O23: the one load operation for every form, then where each file puts the value. -/
theorem loadsComplete : Obligations.LoadsComplete := ⟨load_complete, loaded_value⟩

/-! ### Stores (R91, R106, R311) -/

/-- Posting a request changes no engine. -/
theorem State.engines_postReq (s : State) (r : MemReq) : (s.postReq r).engines = s.engines := by
  have hc : (s.countTarget r.src.part r.off r.lap r.booked).1.engines = s.engines := by
    rw [(Counted.countTarget s r.src.part r.off r.lap r.booked).1]
  unfold State.postReq
  split
  · rfl
  · exact hc

theorem State.eng_postCells (s : State) (r : MemReq) (cs : List (Nat × Byte)) (j : Nat) : (s.postCells r cs).eng j = s.eng j := by
  have hfold : ∀ (l : List (List (Nat × Byte))) (u : State), (l.foldl (fun s c =>
      s.postReq { r with off := (c.map (fun x => x.1)).headD 0, op := .write c }) u).engines = u.engines := by
    intro l
    induction l with
    | nil => exact fun _ => rfl
    | cons c t ih => exact fun u => (ih _).trans (u.engines_postReq _)
  rw [State.eng, State.postCells, hfold]
  rfl

/-- A store has posted `cs` from `src`: the requests wait behind the others, and no byte of memory and no register of a placement
has changed. -/
def StorePosted (s t : State) (src : Src) (cs : List (Nat × Byte)) : Prop :=
  t.m.mem = s.m.mem ∧ (∀ j, (t.eng j).arch = (s.eng j).arch) ∧
    ∃ rs, t.m.memq = s.m.memq ++ rs ∧ rs.flatMap MemReq.cells = cs ∧ ∀ r ∈ rs, r.src = src

theorem StorePosted.postCells {s : State} (hr : s.flt.retired = []) (hs : s.flt.sweeps = []) (r : MemReq) (cs : List (Nat × Byte)) :
    StorePosted s (s.postCells r cs) r.src cs := by
  obtain ⟨rs, ⟨-, -, hmem, hq⟩, hcells, hsrc⟩ := PostedReqs.postCells hr hs r cs
  exact ⟨hmem, fun j => by rw [State.eng_postCells], rs, hq, hcells, fun q hq => (hsrc q hq).1⟩

theorem StorePosted.of_paid {s t u : State} {src : Src} {cs : List (Nat × Byte)} (h : Paid s t) (k : StorePosted t u src cs) :
    StorePosted s u src cs := by
  obtain ⟨h1, h2⟩ := h
  obtain ⟨k1, k2, rs, k3, k4, k5⟩ := k
  exact ⟨by rw [k1, h1], fun j => (k2 j).trans (h2 j), rs, by rw [k3, h1], k4, k5⟩

/-- A store to memory of this part posts its bytes; a placement's is paid for and joins its digests. -/
theorem StorePosted.storeLoc {s : State} (hr : s.flt.retired = []) (hs : s.flt.sweeps = []) {e d : Nat} (hd : d / 2 ^ 46 = s.pos)
    (bs : List Byte) (va : W64) (entry : Bool) :
    StorePosted s (s.storeLoc e (.dpa d) bs va none entry) (s.srcOf e) (cellsAt (d % 2 ^ 46) bs) := by
  by_cases he : e = steward
  · simp only [State.storeLoc, he, if_true]
    exact StorePosted.postCells hr hs _ _
  · have hpaid := (Paid.payFor s e d bs.length).trans (Paid.digests e (wordsOf d bs) (s.payFor e d bs.length).1)
    have hpos := (Paid.payFor s e d bs.length).pos
    have hflt := congrArg State.flt hpaid.1
    simp only [State.storeLoc, he, if_false, State.issueWriteAs, State.issueAt]
    rw [if_pos (hd.trans hpos.symm), State.srcOf, if_neg he, ← hpos]
    exact StorePosted.of_paid hpaid (StorePosted.postCells (by rw [hflt]; exact hr) (by rw [hflt]; exact hs) _ _)

/-- A store to memory of this part. -/
theorem State.store_posts {s s1 : State} {e d : Nat} {va : W64} {bs : List Byte} (adj : Arch → Arch)
    (hal : va.toNat % bs.length = 0) (hr : s.flt.retired = []) (hs : s.flt.sweeps = [])
    (hloc : s.locate e .write (!(s.eng e).arch.sup) va.toNat = (s1, .dpa d)) (hreach : s1.reaches e d = true)
    (hpart : d / 2 ^ 46 = s1.pos) (hvec : s.heldByVec e va.toNat bs.length true = false) :
    ∃ u, s.store e va bs adj = .done (u.updEng e (fun x => { x with arch := adj x.arch })) .next ∧
      StorePosted s1 u (s1.srcOf e) (cellsAt (d % 2 ^ 46) bs) := by
  have hread := ReadOnly.locate s e .write (!(s.eng e).arch.sup) va.toNat
  rw [hloc] at hread
  obtain ⟨-, -, hret, hsw, -⟩ := hread
  refine ⟨_, ?_, StorePosted.storeLoc (hret.trans hr) (hsw.trans hs) hpart bs va false⟩
  rw [State.store, State.storeOp, if_neg (by rw [hal]; decide), hloc]
  simp only [State.notRegs_of_reaches hreach, Bool.and_false, Bool.false_eq_true, if_false, hreach, Bool.not_true, hvec,
    State.farHole, hpart, ne_eq, not_true_eq_false, decide_false, Bool.false_and]

theorem storeI_actsAs {c : Instr} {s : State} {e op n b : Nat} {p : Pfx} {f : FmtI} {v : Arch → Nat}
    (hc : exec c s = .next (s.storeI e p op f n v)) (hi : immCause p f.imm.toNat = 0) (hv : v (s.eng e).arch.held = b) :
    ActsAs c s e p op ((s.cycle e).store e ((s.eng e).arch.eaI p f) (leBytes n b) fun a => a.applyUpd none) := by
  refine ⟨_, _, _, hc, hi, ?_⟩
  simp only [State.eng_cycle, hv]
  rfl

theorem storeX_actsAs {c : Instr} {s : State} {e op n b : Nat} {p : Pfx} {f : FmtX} {v : Arch → Nat}
    (hc : exec c s = .next (s.storeX e p op f n v)) (hi : causeX p f false = 0) (hv : v (s.eng e).arch.held = b) :
    ActsAs c s e p op ((s.cycle e).store e ((s.eng e).arch.eaX p f).va (leBytes n b)
      fun a => a.applyUpd ((s.eng e).arch.eaX p f).upd) := by
  refine ⟨_, _, _, hc, hi, ?_⟩
  simp only [State.eng_cycle, hv]
  rfl

theorem push_actsAs {s : State} {e : Nat} {p : Pfx} {f : FmtG} (hs : f.sub = 0) (hg : f.g ≠ 31) :
    ActsAs (.push e p f) s e p 0x12 ((s.cycle e).store e ((s.eng e).arch.rdG 31 - 8)
      (leBytes 8 ((s.eng e).arch.rdG f.g.toNat).toNat) fun a => a.wrG 31 (a.rdG 31 - 8)) := by
  refine ⟨_, _, _, rfl, by rw [causeStack, if_neg (not_not.2 hs), if_neg hg], ?_⟩
  simp only [State.eng_cycle, Arch.held_rdG]

theorem stsd_actsAs {s : State} {e : Nat} {p : Pfx} {f : FmtG} (hb : s.streamBusy e f.sub.toNat = false) :
    ActsAs (.stsd e p f) s e p 0x1D ((s.cycle e).store e ((s.eng e).arch.rdG f.g.toNat)
      (SMap.get Desc.zero (s.eng e).arch.str f.sub.toNat).bytes fun a => a.applyUpd none) := by
  refine ⟨_, _, _, rfl, rfl, ?_⟩
  simp only [State.streamBusy_cycle, hb, Bool.false_eq_true, if_false, State.eng_cycle, Arch.held_rdG]
  rfl

/-- Settles O24: what the one store operation posts, then the address register's update and retirement for every form. -/
theorem storeComplete : Obligations.StoreComplete := by
  intro s e p c op va bs upd hc he hal hr hs s1 d hloc hreach hpart hvec
  obtain ⟨adj, hact, hadj⟩ : ∃ adj, ActsAs c s e p op ((s.cycle e).store e va bs adj) ∧
      adj (s1.eng e).arch = (s1.eng e).arch.applyUpd upd := by
    rcases hc with ⟨f, hi, hc⟩ | ⟨f, hi, hc⟩ | ⟨f, hsub, hg, hc⟩ | ⟨f, hb, hc⟩
    · simp only [List.mem_cons, List.not_mem_nil, or_false, Prod.mk.injEq] at hc
      rcases hc with ⟨rfl, rfl, rfl, rfl, rfl⟩ | ⟨rfl, rfl, rfl, rfl, rfl⟩ | ⟨rfl, rfl, rfl, rfl, rfl⟩ <;>
        exact ⟨fun a => a.applyUpd none, storeI_actsAs rfl hi rfl, rfl⟩
    · simp only [List.mem_cons, List.not_mem_nil, or_false, Prod.mk.injEq] at hc
      rcases hc with ⟨rfl, rfl, rfl, rfl, rfl⟩ | ⟨rfl, rfl, rfl, rfl, rfl⟩ | ⟨rfl, rfl, rfl, rfl, rfl⟩ <;>
        exact ⟨fun a => a.applyUpd ((s.eng e).arch.eaX p f).upd, storeX_actsAs rfl hi rfl, rfl⟩
    · simp only [Prod.mk.injEq] at hc
      obtain ⟨rfl, rfl, rfl, rfl, rfl⟩ := hc
      have hread := ReadOnly.locate (s.cycle e) e .write (!(s.eng e).arch.sup) ((s.eng e).arch.rdG 31 - 8).toNat
      rw [hloc] at hread
      obtain ⟨-, -, -, -, harch⟩ := hread
      have h31 : (s1.eng e).arch.rdG 31 = (s.eng e).arch.rdG 31 := by rw [harch e, State.eng_cycle]; rfl
      exact ⟨_, push_actsAs hsub hg, by rw [h31]; rfl⟩
    · simp only [Prod.mk.injEq] at hc
      obtain ⟨rfl, rfl, rfl, rfl, rfl⟩ := hc
      exact ⟨fun a => a.applyUpd none, stsd_actsAs hb, rfl⟩
  have hsup : ((s.cycle e).eng e).arch.sup = (s.eng e).arch.sup := by rw [State.eng_cycle]; rfl
  have hflt : (s.cycle e).flt = s.flt := (congrArg State.flt (s.cycle_frame e).1 :)
  obtain ⟨u, hstore, hmem, harch, rs, hq, hcells, hsrc⟩ := State.store_posts adj hal (by rw [hflt]; exact hr)
    (by rw [hflt]; exact hs) (by rw [hsup]; exact hloc) hreach hpart hvec
  have hread := ReadOnly.locate (s.cycle e) e .write (!(s.eng e).arch.sup) va.toNat
  rw [hloc] at hread
  obtain ⟨hmem1, hq1, -⟩ := hread
  rw [hstore] at hact
  have hm : ∀ v : State, (v.retire e op (pLen p op) .next).m = v.m := fun v =>
    (congrArg State.m (v.touches_retire e op (pLen p op) .next).1 :)
  refine ⟨_, hact.completes he, ?_, ?_, rs, ?_, hcells, hsrc⟩
  · exact (congrArg Memory.mem (hm _)).trans <| hmem.trans (hmem1.trans (by rw [State.m_cycle]))
  · rw [State.eng_retire, Engine.retired_arch, State.eng_updEng]
    exact congrArg (fun a => Arch.retire a (pLen p op) .next) ((congrArg adj (harch e)).trans hadj)
  · exact (congrArg Memory.memq (hm _)).trans <| hq.trans (by rw [hq1, State.m_cycle])

end Sys2Proof.Machine

/-!
PROOFS. Long vectors (R113, R114, R122, R123, R180 to R199): what stage 4 and the binding of chain slots leave of an instruction,
its issue into flight, and the commands of the load side and of groups. Settles O28.
-/
namespace Sys2Proof.Machine

/-! ### What stage 4 settles of an instruction (R114, R181, R256) -/

/-- The instruction is the one given, but for what its streams hold and the predicates of its Sieves. -/
def VInst.SameBut (v w : VInst) : Prop := w = { v with bufs := w.bufs, pred := w.pred }

theorem VInst.SameBut.refl (v : VInst) : v.SameBut v := rfl

theorem VInst.SameBut.trans {u v w : VInst} (h : u.SameBut v) (k : v.SameBut w) : u.SameBut w := by
  unfold VInst.SameBut at *
  rw [k, h]

theorem VInst.sameBut_setBuf (v : VInst) (c : Nat) (b : StreamBuf) : v.SameBut (v.setBuf c b) := rfl

/-- Such instructions share the tag, the opcode, the operand field, the limit and the privilege. -/
theorem VInst.SameBut.fields {v w : VInst} (h : v.SameBut w) :
    w.tag = v.tag ∧ w.opc = v.opc ∧ w.opf = v.opf ∧ w.limit = v.limit ∧ w.user = v.user := by
  unfold VInst.SameBut at h
  rw [h]
  exact ⟨rfl, rfl, rfl, rfl, rfl⟩

/-- The values of stage 4 are those that issue names: only the buffers of its streams are filled in afterwards. -/
theorem State.vNew_fields (s : State) (e tag opc : Nat) (o : BitVec 56) (limit : Option Nat) (carry : Option W64) (pc : W64) :
    let v := s.vNew e tag opc o limit carry pc
    v.tag = tag ∧ v.opc = opc ∧ v.opf = o ∧ v.limit = limit ∧ v.user = !(s.eng e).arch.sup := by
  unfold State.vNew
  exact VInst.SameBut.fields (List.foldlRecOn _ _ (motive := VInst.SameBut _) (VInst.SameBut.refl _)
    fun w hw c _ => hw.trans (w.sameBut_setBuf c _))

/-- An instruction whose predicate blocks are valid has gained those alone, and the elements that faults stand at. -/
theorem State.readPreds_sameBut {s s1 : State} {e : Nat} {v w : VInst} (h : s.readPreds e v = (s1, .ok w)) :
    v.SameBut w := by
  have hinv : ∀ w, (s.readPreds e v).2 = .ok w → v.SameBut w := by
    unfold State.readPreds
    refine List.foldlRecOn _ _ (motive := fun a : State × Stage4 => ∀ w, a.2 = .ok w → v.SameBut w) ?_ ?_
    · rintro w ⟨⟩
      exact VInst.SameBut.refl v
    · rintro ⟨t, r⟩ ih c - w hw
      cases r with
      | waits => cases hw
      | bad x => cases hw
      | ok u =>
        refine (ih u rfl).trans ?_
        dsimp only at hw
        split at hw
        · cases hw
        · split at hw
          · cases hw; rfl
          · cases hw
        · cases hw
          split
          · exact u.sameBut_setBuf c _
          · exact VInst.SameBut.refl u
  exact hinv w (congrArg Prod.snd h)

/-! ### Entering flight (R122, R123, R195) -/

@[simp] theorem State.vinsts_updSlot (s : State) (e c : Nat) (g : Chain → Chain) :
    ((s.updSlot e c g).eng e).vinsts = (s.eng e).vinsts := by
  rw [State.updSlot, State.eng_updEng]

/-- Binding chain slots leaves the instructions in flight. -/
@[simp] theorem State.vinsts_bindSlots (s : State) (e : Nat) (v : VInst) :
    ((s.bindSlots e v).eng e).vinsts = (s.eng e).vinsts := by
  unfold State.bindSlots
  refine List.foldlRecOn _ _ (motive := fun t : State => (t.eng e).vinsts = (s.eng e).vinsts) ?_
    fun t ht c _ => (t.vinsts_updSlot e c _).trans ht
  refine List.foldlRecOn _ _ (motive := fun t : State => (t.eng e).vinsts = (s.eng e).vinsts) ?_ fun t ht c _ => ?_
  · split
    · rw [State.eng_satInc]
    · rfl
  · split
    · exact (t.vinsts_updSlot e c _).trans ht
    · exact ht

/-- An instruction whose operands stage 4 finds valid is in flight, with what stage 4 settled. -/
theorem State.vPush_ok {s s1 : State} {e : Nat} {v w : VInst} (h : s.vPush e v = (s1, .ok w)) :
    v.SameBut w ∧ w ∈ (s1.eng e).vinsts := by
  unfold State.vPush at h
  dsimp only at h
  split at h
  · cases h
  · split at h
    · cases h
    · cases h
    · rename_i hread
      cases h
      exact ⟨State.readPreds_sameBut hread, by simp⟩

/-- The instruction with the values that it takes at stage 4, under a tag (R114, R123). -/
def State.atStage4 (s : State) (e tag : Nat) (p : Pfx) (opc : Nat) (f : FmtV) : VInst :=
  (s.cycle e).vNew e tag opc (opfOf f) ((s.eng e).arch.vLimit (pInfo p)) none (s.eng e).arch.pc

/-- Nothing that stage 4 takes from the Sequencer differs after the engine cycle of the issue. -/
theorem State.vNew_cycle {s : State} {e tag : Nat} (p : Pfx) (opc : Nat) (f : FmtV) (ht : (s.eng e).freeTag = some tag) :
    (s.cycle e).vNew e (((s.cycle e).eng e).freeTag.getD 0) opc (opfOf f) (((s.cycle e).eng e).arch.vLimit (pInfo p)) none
      ((s.cycle e).eng e).arch.pc = s.atStage4 e tag p opc f := by
  have htag : ((s.cycle e).eng e).freeTag = some tag := by rw [State.eng_cycle]; exact ht
  have hlim : ((s.cycle e).eng e).arch.vLimit (pInfo p) = (s.eng e).arch.vLimit (pInfo p) := by rw [State.eng_cycle]; rfl
  have hpc : ((s.cycle e).eng e).arch.pc = (s.eng e).arch.pc := by rw [State.eng_cycle]; rfl
  rw [htag, hlim, hpc]
  rfl

/-- An instruction that executes, need not wait and has valid operands enters flight and retires. -/
theorem State.vIssue_enters {s s1 : State} {e tag : Nat} {p : Pfx} {opc : Nat} {f : FmtV} {w : VInst}
    (he : s.executes e p opc 0 = true) (hc : vecCause opc (opfOf f) = 0) (ht : (s.eng e).freeTag = some tag)
    (hwait : (s.cycle e).vWaits e (s.atStage4 e tag p opc f) = false)
    (hpush : (s.cycle e).vPush e (s.atStage4 e tag p opc f) = (s1, .ok w)) :
    s.vIssue e p opc f = .next ((s1.vBegin e w).retire e opc (pLen p opc) .next) := by
  refine congrArg Host.Outcome.next (State.scalar_done (bad := fun _ => vecCause opc (opfOf f)) (by rw [hc]; exact he) ?_)
  dsimp only
  rw [State.vNew_cycle p opc f ht, hwait, hpush]
  rfl

/-- Each of these instructions issues by the one operation, on the values of stage 4. -/
theorem vectorIssue_complete : Claims.VectorIssueComplete := by
  intro c opc hform s s1 e p f tag w he hc ht lim v hwait hpush
  have hexec : exec (c e p f) s = s.vIssue e p opc f := by
    generalize hq : (c, opc) = q at hform
    fin_cases hform <;> cases hq <;> rfl
  obtain ⟨htag, hopc, hopf, hlim, huser⟩ := (s.cycle e).vNew_fields e tag opc (opfOf f) lim none (s.eng e).arch.pc
  obtain ⟨hsame, hmem⟩ := State.vPush_ok hpush
  obtain ⟨wtag, wopc, wopf, wlim, -⟩ := hsame.fields
  refine ⟨hexec.trans (State.vIssue_enters he hc ht hwait hpush), htag, hopc, hopf, hlim, huser.trans ?_, w, hmem,
    wtag.trans htag, wopc.trans hopc, wopf.trans hopf, wlim.trans hlim⟩
  rw [State.eng_cycle]
  rfl

/-! ### Streams and groups (R190, R191, R194) -/

/-- STREAM_REQUEST of a stream that may ask, and whose next index is known, asks for the unit at its next element. -/
theorem streamRequest_asks {s s1 : State} {e tag c x : Nat} {v : VInst} (hload : s.loadSide e tag c = some (s1, v))
    (hhold : s1.readHold e v c = false) (hask : s1.mayAsk e v c (v.buf c).reqTo = true)
    (hix : s1.ixVal e v c (v.buf c).reqTo = some x) : exec (.streamRequest e tag c) s = .next (s1.askUnit e v c x) := by
  change execStreamRequest e tag c s = _
  simp [execStreamRequest, hload, hhold, hask, hix]

/-- A beat that meets no error leaves what its target holds. -/
theorem State.findAt_clean (s : State) (dpa : Nat) : s.findAt dpa .clean = s := by simp [State.findAt]

/-- BEAT of a stream with answered elements puts them into its buffer. -/
theorem beat_delivers {s s1 s3 : State} {e tag c : Nat} {v : VInst} {w : Want} {ws : List Want} {b3 : StreamBuf}
    (hload : s.loadSide e tag c = some (s1, v)) (hwant : (v.buf c).want = w :: ws) (hfault : w.fault = none)
    (hbeat : s1.beatWant e v c w (w :: ws) (v.buf c) = (s3, b3)) (hnew : b3 ≠ v.buf c) :
    exec (.beat e tag c .clean) s = .next (s3.updV e tag (fun x => x.setBuf c b3)) := by
  change execBeat e tag c .clean s = _
  simp [execBeat, hload, hwant, hfault, State.findAt_clean, hbeat, hnew]

/-- GROUP of an instruction that has started, in a unit that meets no checker, takes one group through it and frees the tags of
the instructions that have ended. -/
theorem group_runs {s s1 s2 s3 : State} {e tag : Nat} {v v0 : VInst} (hact : s.active e = true) (he : e < 512)
    (hinst : (s.eng e).vinst tag = some v0) (hend : v0.ended = false) (hstart : s.startGroup e v0 = some s1)
    (hinst1 : (s1.eng e).vinst tag = some v) (hhold : s1.serialHold e v = false)
    (hpass : (s1.noteFull e tag).passSieves e tag = .go s2) (hgroup : s2.doGroup e tag = .go s3) :
    exec (.group e tag .good) s = .next (s3.freeEnded e 25) := by
  change execGroup e tag .good s = _
  simp [execGroup, hact, he, hinst, hend, hstart, hinst1, hhold, hpass, hgroup, State.afterGroup]

theorem vectorFlow_complete : Claims.VectorFlowComplete := by
  intro s s1 e tag c v
  exact ⟨fun x => streamRequest_asks, fun w ws s3 b3 => beat_delivers, fun v0 s2 s3 => group_runs⟩

/-- Settles O28: issue by what stage 4 and the binding of slots leave, the flow by the case that each command stands in. -/
theorem vectorIssueAndFlow : Obligations.VectorIssueAndFlow := ⟨vectorIssue_complete, vectorFlow_complete⟩

end Sys2Proof.Machine

/-!
PROOFS. Exceptions (R136, R151 to R165, R173): what an entry leaves once its frame, vector and handler have been read, what a frame
records and restores, and the returns from it. Settles O19 and O20.
-/
namespace Sys2Proof.Machine

/-! ### Changes of one engine alone -/

/-- Nothing of the part differs but engine `e`. -/
def EngineOnly (s t : State) (e : Nat) : Prop := t = { s with engines := t.engines } ∧ OnlyEng s t e

theorem EngineOnly.refl (s : State) (e : Nat) : EngineOnly s s e := ⟨rfl, OnlyEng.refl s e⟩

theorem EngineOnly.trans {s t u : State} {e : Nat} (h : EngineOnly s t e) (k : EngineOnly t u e) : EngineOnly s u e := by
  refine ⟨?_, h.2.trans k.2⟩
  rw [k.1, h.1]

theorem EngineOnly.updEng (s : State) (e : Nat) (g : Engine → Engine) : EngineOnly s (s.updEng e g) e :=
  ⟨rfl, OnlyEng.updEng s e g⟩

theorem EngineOnly.dropGot (s : State) (e who : Nat) : EngineOnly s (s.dropGot e who) e := EngineOnly.updEng s e _

@[simp] theorem State.eng_dropGot (s : State) (e who : Nat) :
    (s.dropGot e who).eng e = { s.eng e with got := (s.eng e).got.filter (fun g => g.who ≠ who) } :=
  s.eng_updEng e (fun x => { x with got := x.got.filter (fun g => g.who ≠ who) })

/-- The end of an entry drops what the engine has read for it, and nothing else. -/
theorem EngineOnly.endEntry (s : State) (e : Nat) : EngineOnly s (s.endEntry e) e :=
  (EngineOnly.updEng s e _).trans ((EngineOnly.dropGot _ e 5).trans (EngineOnly.dropGot _ e 6))

theorem State.eng_endEntry (s : State) (e : Nat) :
    (s.endEntry e).eng e = { s.eng e with entry := none, got := ((s.endEntry e).eng e).got } := by
  simp [State.endEntry]

/-! ### Entry (R154, R155, R157) -/

/-- The frame of a cause that is recognised while no long vector is in flight. -/
def State.quietFrame (s : State) (e vec detail : Nat) (faddr : W64) : Frame :=
  ⟨vec, detail, faddr, BitVec.ofNat 64 (match (s.eng e).place with | some q => q.cyc | none => 0),
    (s.eng e).arch.holdcnt ≠ 0, false, 0, 0⟩

/-- The state in which the frame of a recognised cause is pushed. -/
def State.quieted (s : State) (e : Nat) : State :=
  (s.dropReads e).updEng e (fun x => { x with waite := none, pend := none })

theorem State.recognise_quiet {s : State} {e : Nat} (hv : (s.eng e).vecBusy = false) (vec detail : Nat) (faddr : W64) :
    s.recognise e vec detail faddr none false none = (s.quieted e, ⟨s.quietFrame e vec detail faddr, none, 0, true⟩) := by
  simp only [State.recognise, hv]
  rfl

@[simp] theorem State.arch_quieted (s : State) (e : Nat) : ((s.quieted e).eng e).arch = (s.eng e).arch := by
  simp [State.quieted]

/-- An entry whose frame is pushed, whose vector is not 0 and whose handler is fetched goes on at the handler. -/
theorem State.enterAs_handler {s s1 s2 s3 : State} {e h bits : Nat} {f : Frame} (bad : State → Nat → State)
    (hpush : s.pushWords e ((s.eng e).arch.g31s - 64).toNat 0 true (f.words (s.eng e).arch) = (s1, .done))
    (hvec : s1.entryRead e 5 ((s.eng e).arch.evec.toNat + 8 * f.vec) 8 8 false = (s2, .value h)) (h0 : h ≠ 0)
    (hcode : s2.entryRead e 6 h 16 16 true = (s3, .value bits)) :
    s.enterAs e ⟨f, none, 0, true⟩ bad = s3.beginHandler e ⟨f, none, 0, true⟩ (BitVec.ofNat 64 h) bits := by
  unfold State.enterAs
  simp only [Nat.mul_zero, Nat.add_zero, List.drop_zero, hpush, hvec, if_neg h0, hcode]

/-- An engine at the first instruction of a handler, entered from the registers `a` (R155). -/
def Engine.atHandler (x : Engine) (a : Arch) (h : W64) (bits : Nat) : Engine :=
  { x.refetch (!a.sup) with
    pq := [⟨BitVec.ofNat 64 (h.toNat / 16 * 16), BitVec.ofNat 128 bits⟩],
    arch := { x.arch with g31s := a.g31s - 64, psr := entryPsr a.psr, pc := h, ds := none, erract := a.erract } }

theorem State.beginHandler_eq (s : State) (e : Nat) (f : Frame) (h : W64) (bits : Nat) :
    s.beginHandler e ⟨f, none, 0, true⟩ h bits =
      ((s.endEntry e).updEng e (fun x => x.atHandler (s.eng e).arch h bits)).pmcCount e (Reg.enPmcFetch e) := by
  simp only [State.beginHandler, Option.isSome_none, Bool.or_false, Bool.false_eq_true, if_false]
  rfl

/-- The state at the first instruction of a handler (R155): what the engine's registers and fetch hold, and the count of one fetch. -/
theorem State.beginHandler_spec (s : State) (e : Nat) (f : Frame) (h : W64) (bits : Nat) :
    let b := (s.eng e).arch
    let t := s.beginHandler e ⟨f, none, 0, true⟩ h bits
    (t.eng e).arch = { b with g31s := b.g31s - 64, psr := entryPsr b.psr, pc := h, ds := none } ∧
      (t.eng e).pq = [⟨BitVec.ofNat 64 (h.toNat / 16 * 16), BitVec.ofNat 128 bits⟩] ∧
      (t.eng e).flight = [] ∧ (t.eng e).lbuf = none ∧ (t.eng e).entry = none ∧ (b.sup = false → (t.eng e).btb = []) ∧
      OnlyEng s t e ∧ t = { s with engines := t.engines, regs := t.regs } ∧
      OnlyRegs s t [(Reg.enPmcFetch e).off, (Reg.enPmcFetch e).off + 4] := by
  intro b t
  obtain ⟨u, hu⟩ : ∃ u, u = (s.endEntry e).updEng e (fun x => x.atHandler (s.eng e).arch h bits) := ⟨_, rfl⟩
  have ht : t = u.pmcCount e (Reg.enPmcFetch e) := hu ▸ s.beginHandler_eq e f h bits
  obtain ⟨hall, heng, hregs⟩ := u.pmcCount_frame e (Reg.enPmcFetch e)
  rw [← ht] at hall heng hregs
  have hsu : EngineOnly s u e := hu ▸ (EngineOnly.endEntry s e).trans (EngineOnly.updEng _ e _)
  have hue : t.eng e = ((s.endEntry e).eng e).atHandler (s.eng e).arch h bits := by rw [heng, hu, State.eng_updEng]
  rw [s.eng_endEntry e] at hue
  refine ⟨by rw [hue]; rfl, by rw [hue]; rfl, by rw [hue]; rfl, by rw [hue]; rfl, by rw [hue]; rfl, fun hb => ?_,
    fun j hj => (heng j).trans (hsu.2 j hj), by rw [hall, hsu.1], fun r hr => (hregs r hr).trans ?_⟩
  · rw [hue]
    simp [Engine.atHandler, Engine.refetch, show (s.eng e).arch.sup = false from hb]
  · rw [hsu.1]
    rfl

theorem exception_entry : Claims.ExceptionEntry := by
  intro s s1 s2 s3 e vec detail h bits faddr hesc hvec a f hpush hread h0 hcode
  have hx : s.except e vec detail faddr none false none =
      s3.beginHandler e ⟨f, none, 0, true⟩ (BitVec.ofNat 64 h) bits := by
    unfold State.except
    rw [if_neg (by rw [hesc]; decide), State.recognise_quiet hvec]
    exact State.enterAs_handler _ (by rw [State.arch_quieted]; exact hpush) (by rw [State.arch_quieted]; exact hread) h0 hcode
  intro b t
  rw [show t = _ from hx]
  exact s3.beginHandler_spec e f (BitVec.ofNat 64 h) bits

/-! ### The frame (Table 5.2) -/

/-- A bit of a word as a field of one bit. -/
theorem getLsbD_eq_bitsOf (x : W64) (i : Nat) : x.getLsbD i = decide (bitsOf x.toNat i i = 1) := by
  rw [BitVec.getLsbD, Nat.testBit_eq_decide_div_mod_eq, bitsOf, Nat.add_sub_cancel_left, Nat.pow_one]

/-- Neighbouring bits of a word as a field. -/
theorem extractLsb'_eq_bitsOf (x : W64) (lo n : Nat) : (x.extractLsb' lo (n + 1)).toNat = bitsOf x.toNat (lo + n) lo := by
  rw [BitVec.extractLsb'_toNat, Nat.shiftRight_eq_div_pow, bitsOf, Nat.add_assoc, Nat.add_sub_cancel_left]

/-- The fourth word of a frame as a number (Table 5.2). -/
def Frame.status (f : Frame) (a : Arch) : Nat :=
  f.hld.toNat * 2 ^ 51 + f.vecStop.toNat * 2 ^ 50 + (match a.ds with | some d => d.taken | none => false : Bool).toNat * 2 ^ 49 +
    a.ds.isSome.toNat * 2 ^ 48 + f.estep % 16 * 2 ^ 44 + f.evec % 256 * 2 ^ 32 + f.detail % 65536 * 2 ^ 8 + f.vec % 256

/-- The words of a frame one by one. -/
theorem Frame.words_eq (f : Frame) (a : Arch) : f.words a =
    [a.pc, a.psr, a.flags, BitVec.ofNat 64 (f.status a), f.faddr, (match a.ds with | some d => d.target | none => 0), a.g31u,
      f.aux] := rfl

/-- Fields put side by side as in a frame's fourth word read as they were put (Table 5.2). -/
theorem bitsOf_sideBySide {h v b d : Nat} (hh : h ≤ 1) (hv : v ≤ 1) (hb : b ≤ 1) (hd : d ≤ 1) (step evec detail vec : Nat) :
    let n := h * 2 ^ 51 + v * 2 ^ 50 + b * 2 ^ 49 + d * 2 ^ 48 + step % 16 * 2 ^ 44 + evec % 256 * 2 ^ 32 +
      detail % 65536 * 2 ^ 8 + vec % 256
    n % 2 ^ 8 = vec % 2 ^ 8 ∧ bitsOf n 23 8 = detail % 2 ^ 16 ∧ bitsOf n 48 48 = d ∧ bitsOf n 49 49 = b ∧
      bitsOf n 50 50 = v ∧ bitsOf n 51 51 = h := by
  simp only [bitsOf, Nat.reducePow, Nat.reduceSub, Nat.reduceAdd]
  refine ⟨?_, ?_, ?_, ?_, ?_, ?_⟩ <;> omega

theorem Frame.bitsOf_status (f : Frame) (a : Arch) :
    f.status a % 2 ^ 8 = f.vec % 2 ^ 8 ∧ bitsOf (f.status a) 23 8 = f.detail % 2 ^ 16 ∧
      bitsOf (f.status a) 48 48 = a.ds.isSome.toNat ∧
      bitsOf (f.status a) 49 49 = (match a.ds with | some d => d.taken | none => false : Bool).toNat ∧
      bitsOf (f.status a) 50 50 = f.vecStop.toNat ∧ bitsOf (f.status a) 51 51 = f.hld.toNat := by
  unfold Frame.status
  exact bitsOf_sideBySide (Bool.toNat_le _) (Bool.toNat_le _) (Bool.toNat_le _) (Bool.toNat_le _) f.estep f.evec f.detail f.vec

/-- A flag of a word that is given as a number. -/
theorem getLsbD_ofNat_of_bitsOf {n i : Nat} {b : Bool} (hi : i < 64) (h : bitsOf n i i = b.toNat) :
    (BitVec.ofNat 64 n).getLsbD i = b := by
  rw [getLsbD_eq_bitsOf, bitsOf_ofNat hi, h]
  cases b <;> rfl

theorem frame_contents : Claims.FrameContents := by
  intro f a w
  obtain ⟨hvec, hdetail, h48, h49, h50, h51⟩ := f.bitsOf_status a
  rw [show w = _ from f.words_eq a]
  refine ⟨rfl, rfl, rfl, rfl, rfl, rfl, rfl, rfl, fun c hc => ?_⟩
  obtain rfl : BitVec.ofNat 64 (f.status a) = c := Option.some.inj hc
  refine ⟨?_, ?_, getLsbD_ofNat_of_bitsOf (by decide) h48, getLsbD_ofNat_of_bitsOf (by decide) h49,
    getLsbD_ofNat_of_bitsOf (by decide) h50, getLsbD_ofNat_of_bitsOf (by decide) h51⟩
  · apply BitVec.eq_of_toNat_eq
    simp only [BitVec.toNat_setWidth, BitVec.toNat_ofNat]
    omega
  · apply BitVec.eq_of_toNat_eq
    rw [extractLsb'_eq_bitsOf _ 8 15, bitsOf_ofNat (by decide), hdetail, BitVec.toNat_ofNat]

/-! ### BPFLUSH, BRK and TRAP (R111, R136) -/

/-- An instruction that raises an exception: its entry begins where the effect stands. -/
theorem State.scalar_trap {s u : State} {e vec detail : Nat} {faddr : W64} {p : Pfx} {op : Nat} {bad : Arch → Nat}
    {lat : Arch → Option Nat} {body : State → Act} (h : s.executes e p op (bad (s.eng e).arch) = true)
    (hb : body (s.cycle e) = .trap u vec detail faddr) :
    s.scalar e p op bad lat body = u.except e vec detail faddr none false none := by
  rw [State.scalar_executes lat body h, State.perform, hb]

/-- An instruction that stops or runs on elsewhere leaves the state that its effect gives. -/
theorem State.scalar_stop {s u : State} {e : Nat} {p : Pfx} {op : Nat} {bad : Arch → Nat}
    {lat : Arch → Option Nat} {body : State → Act} (h : s.executes e p op (bad (s.eng e).arch) = true)
    (hb : body (s.cycle e) = .stop u) : s.scalar e p op bad lat body = u := by
  rw [State.scalar_executes lat body h, State.perform, hb]

theorem bpflush_complete {s : State} {e : Nat} {p : Pfx} (he : s.executes e p 0x03 0 = true) :
    ∃ t, exec (.bpflush e p) s = .next t ∧ RetiresB s t e p 0x03 id .next ∧ (t.eng e).btb = [] := by
  obtain ⟨u, hu⟩ : ∃ u, u = (s.cycle e).updEng e (fun x => { x with btb := [] }) := ⟨_, rfl⟩
  have hx : u.eng e = { (s.cycle e).eng e with btb := [] } := by rw [hu, State.eng_updEng]
  refine ⟨u.retire e 0x03 (pLen p 0x03) .next, congrArg Host.Outcome.next (State.scalar_done (bad := fun _ => 0) he ?_),
    State.retiresB_of (hu ▸ State.touches_updEng _ e _) ?_, ?_⟩
  · rw [hu]
  · rw [hx]
    exact ⟨rfl, rfl⟩
  · rw [State.eng_retire, (Engine.retired_units (u.eng e) 0x03 (pLen p 0x03) .next).1, hx]

theorem flushBreakTrap_complete : Claims.FlushBreakTrapComplete := by
  intro s e p
  refine ⟨bpflush_complete, fun he => congrArg Host.Outcome.next (State.scalar_trap (bad := fun _ => 0) he rfl),
    fun f hd ha he => ?_⟩
  have h0 : must0 [f.d.toNat, f.a.toNat] = 0 := by simp [must0_iff, hd, ha]
  exact congrArg Host.Outcome.next (State.scalar_trap (bad := fun _ => must0 [f.d.toNat, f.a.toNat]) (h0 ▸ he) rfl)

/-- Settles O19: entry by its four steps, the frame's fourth word by its fields, the instructions by what each effect gives. -/
theorem exceptionEntryAndFrame : Obligations.ExceptionEntryAndFrame :=
  ⟨exception_entry, frame_contents, flushBreakTrap_complete⟩

/-! ### What a return restores (R159) -/

/-- A word without bits outside a mask is left by the mask. -/
theorem and_mask_eq {x m : W64} (h : x &&& ~~~m = 0) : x &&& m = x := by
  calc x &&& m = (x &&& m) ||| (x &&& ~~~m) := by rw [h]; exact BitVec.or_zero.symm
    _ = x := by rw [← BitVec.and_or_distrib_left, BitVec.or_not_self, BitVec.and_allOnes]

theorem return_restoresFrame : Claims.ReturnRestoresFrame := by
  intro f a b hann hpsr hflags r
  obtain ⟨-, -, h48, h49, -, -⟩ := f.bitsOf_status a
  have hpsr' : a.psr &&& (psrMask ||| 1) = a.psr := and_mask_eq hpsr
  have hflags' : a.flags &&& flagsMask = a.flags := and_mask_eq hflags
  have hds : r.ds = a.ds := by
    change (if bitsOf (BitVec.ofNat 64 (f.status a)).toNat 48 48 = 1 then
      some (⟨bitsOf (BitVec.ofNat 64 (f.status a)).toNat 49 49 = 1, false,
        (match a.ds with | some d => d.target | none => 0)⟩ : DSlot) else none) = a.ds
    rw [bitsOf_ofNat (by decide), bitsOf_ofNat (by decide), h48, h49]
    match hd : a.ds with
    | none => rfl
    | some ⟨taken, annul, target⟩ =>
      obtain rfl : annul = false := hann _ hd
      cases taken <;> rfl
  calc r = { b with pc := a.pc, psr := a.psr &&& (psrMask ||| 1), flags := a.flags &&& flagsMask, g31u := a.g31u, ds := r.ds } := rfl
    _ = _ := by rw [hpsr', hflags', hds]

/-! ### Returns (R159, R164, R173) -/

/-- An engine that a return takes from the registers `a` to the registers `b` (R159). -/
def Engine.returned (x : Engine) (a b : Arch) : Engine := { x.refetch (b.sup != a.sup) with arch := b }

/-- A return without stopped long vectors changes its engine alone. -/
theorem State.returnFrom_plain {s : State} {e : Nat} {bs : List Byte} (adj : Arch → Arch) (h : (wordAt bs 3).getLsbD 50 = false) :
    s.returnFrom e bs adj =
      s.updEng e (fun x => x.returned (s.eng e).arch (adj ((s.eng e).arch.restoreFrame (wordAt bs)))) := by
  have hv : decide (bitsOf (wordAt bs 3).toNat 50 50 = 1) = false := by rw [← getLsbD_eq_bitsOf, h]
  simp only [State.returnFrom, hv, State.resumeVec, Bool.false_eq_true, if_false, Engine.returned]

/-- The frame of the ERROR in force is forgotten where the return ends it. -/
def State.endError (s : State) (e : Nat) (done : Bool) : State :=
  if done then s.updEng e (fun x => { x with errFrame := none }) else s

theorem State.endError_spec (s : State) (e : Nat) (done : Bool) :
    EngineOnly s (s.endError e done) e ∧ ((s.endError e done).eng e).arch = (s.eng e).arch := by
  cases done with
  | false => exact ⟨EngineOnly.refl s e, rfl⟩
  | true =>
    rw [State.endError, if_pos rfl]
    exact ⟨EngineOnly.updEng s e _, by rw [State.eng_updEng]⟩

/-- A return from a state that differs from `s1` in the engine's reads and error frame alone. -/
theorem State.return_spec {s1 s2 : State} {e : Nat} {bs : List Byte} (adj : Arch → Arch) (h : EngineOnly s1 s2 e)
    (ha : (s2.eng e).arch = (s1.eng e).arch) (hb : (wordAt bs 3).getLsbD 50 = false) :
    let t := s2.returnFrom e bs adj
    (t.eng e).arch = adj ((s1.eng e).arch.restoreFrame (wordAt bs)) ∧ (t.eng e).pq = [] ∧ (t.eng e).flight = [] ∧
      OnlyEng s1 t e ∧ t = { s1 with engines := t.engines } := by
  intro t
  have ht : t = s2.updEng e (fun x => x.returned (s1.eng e).arch (adj ((s1.eng e).arch.restoreFrame (wordAt bs)))) :=
    ha ▸ State.returnFrom_plain adj hb
  have heng : t.eng e = (s2.eng e).returned (s1.eng e).arch (adj ((s1.eng e).arch.restoreFrame (wordAt bs))) := by
    rw [ht, State.eng_updEng]
  obtain ⟨hall, honly⟩ : EngineOnly s1 t e := ht ▸ h.trans (EngineOnly.updEng s2 e _)
  exact ⟨by rw [heng]; rfl, by rw [heng]; rfl, by rw [heng]; rfl, honly, hall⟩

theorem rfe_returns {s s1 : State} {e : Nat} {p : Pfx} {bs : List Byte} (he : s.executes e p 0x06 0 = true)
    (hesc : (s.eng e).arch.escact = false) (hread : (s.cycle e).readFrame e (s.eng e).arch.g31s.toNat = (s1, .bytes bs)) :
    let done := (s.eng e).endsError (.stack (s.eng e).arch.g31s)
    exec (.rfe e p) s = .next ((s1.endError e done).returnFrom e bs (fun a =>
      { a with g31s := (s.eng e).arch.g31s + 64, erract := a.erract && !done })) := by
  refine congrArg Host.Outcome.next (State.scalar_stop (bad := fun _ => 0) he ?_)
  simp only [State.eng_cycle, Arch.held, hesc, hread]
  rfl

theorem rfx_returns {s s1 : State} {e : Nat} {p : Pfx} {bs : List Byte} (he : s.executes e p 0x07 0 = true)
    (hesc : (s.eng e).arch.escact = true) (h8 : (s.eng e).arch.esp.toNat % 8 = 0) (htop : (s.eng e).arch.esp.toNat + 64 ≤ 0x40000)
    (hread : (s.cycle e).readLoc e 7 ((s.cycle e).srcOf e) ((s.cycle e).escLoc e (s.eng e).arch.esp.toNat) true 64 =
      (s1, some (.ok, bs))) :
    let done := (s.eng e).endsError .esc
    exec (.rfx e p) s = .next (((s1.endError e done).dropGot e 7).returnFrom e bs (fun a =>
      { a with esp := (s.eng e).arch.esp + 64, escact := false, erract := a.erract && !done })) := by
  have hsp : BitVec.ofNat 64 (((s.eng e).arch.esp.toNat + 64) % 2 ^ 19) = (s.eng e).arch.esp + 64 := by
    rw [Nat.mod_eq_of_lt (by omega), BitVec.ofNat_add, BitVec.ofNat_toNat, BitVec.setWidth_eq]
    rfl
  refine congrArg Host.Outcome.next (State.scalar_stop (bad := fun _ => 0) he ?_)
  have hmis : (decide ((s.eng e).arch.esp.toNat % 8 ≠ 0) || decide (0x40000 < (s.eng e).arch.esp.toNat + 64)) = false := by
    simp [h8, htop]
  simp only [State.eng_cycle, Arch.held, hesc, hmis, hread, hsp]
  rfl

theorem returns_complete : Claims.ReturnsComplete := by
  refine ⟨?_, ?_⟩
  · intro s s1 e p bs he hesc hread done
    obtain ⟨honly, harch⟩ := s1.endError_spec e done
    exact ⟨fun hb => ⟨_, rfe_returns he hesc hread, State.return_spec _ honly harch hb⟩, fun _ => ⟨_, rfl⟩⟩
  · intro s s1 e p bs he hesc h8 htop hread done
    obtain ⟨honly, harch⟩ := s1.endError_spec e done
    have hdrop : (((s1.endError e done).dropGot e 7).eng e).arch = (s1.eng e).arch := by rw [State.eng_dropGot]; exact harch
    exact ⟨fun hb => ⟨_, rfx_returns he hesc h8 htop hread,
      State.return_spec _ (honly.trans (EngineOnly.dropGot _ e 7)) hdrop hb⟩, fun _ => ⟨_, rfl⟩⟩

/-- Settles O20: what a frame's words restore, and a return as a change of its engine alone. -/
theorem returns : Obligations.Returns := ⟨return_restoresFrame, returns_complete⟩

end Sys2Proof.Machine

/-!
PROOFS. Save areas (R149, R150, Table 5.11): where the image of a placement state holds each register, and what is read back from
it. Settles O41.
-/
namespace Sys2Proof.Machine

/-! ### Numbers as bytes, and slices of lists put together from parts -/

theorem ofLe_leBytes (n x : Nat) : ofLe (leBytes n x) = x % 256 ^ n := by
  induction n generalizing x with
  | zero => rw [Nat.pow_zero, Nat.mod_one]; rfl
  | succ n ih =>
    rw [leBytes, ofLe, ih, BitVec.toNat_ofNat, Nat.pow_succ' (m := 256), Nat.mod_mul]

/-- The `n` items of a list from place `o` on. -/
def slice {α : Type} (l : List α) (o n : Nat) : List α := (l.drop o).take n

theorem slice_all {α : Type} (l : List α) : slice l 0 l.length = l := List.take_length

theorem slice_slice {α : Type} (l : List α) {o n i m : Nat} (h : i + m ≤ n) : slice (slice l o n) i m = slice l (o + i) m := by
  rw [slice, slice, slice, List.drop_take, List.take_take, List.drop_drop, Nat.min_eq_left (by omega)]

/-- A slice that lies within one part of a list. -/
theorem slice_flatten {α : Type} {ps : List (List α)} {k : Nat} {p : List α} (hk : ps[k]? = some p) {o n : Nat} (h : o + n ≤ p.length) :
    slice ps.flatten (((ps.take k).map List.length).sum + o) n = slice p o n := by
  induction ps generalizing k with
  | nil => simp at hk
  | cons q t ih =>
    cases k with
    | zero =>
      obtain rfl : q = p := Option.some.inj hk
      rw [slice, slice, List.take_zero, List.map_nil, List.sum_nil, Nat.zero_add, List.flatten_cons,
        List.drop_append_of_le_length (by omega), List.take_append_of_le_length (by rw [List.length_drop]; omega)]
    | succ k =>
      rw [← ih hk, slice, slice, List.take_succ_cons, List.map_cons, List.sum_cons, Nat.add_assoc, List.flatten_cons,
        List.drop_length_add_append]

/-- A slice that lies within the part that one item of a list gives, where all parts are of one length. -/
theorem slice_flatMap {α β : Type} {l : List α} {f : α → List β} {k : Nat} (hf : ∀ x, (f x).length = k) {i : Nat} {x : α}
    (hi : l[i]? = some x) {o n : Nat} (h : o + n ≤ k) : slice (l.flatMap f) (k * i + o) n = slice (f x) o n := by
  obtain ⟨hlt, -⟩ := List.getElem?_eq_some_iff.1 hi
  have hsum : (((l.map f).take i).map List.length).sum = k * i := by
    rw [← List.map_take, List.map_map, show List.length ∘ f = fun _ => k from funext hf, List.map_const', List.sum_replicate,
      List.length_take, Nat.min_eq_left hlt.le, smul_eq_mul, Nat.mul_comm]
  rw [List.flatMap_def, ← hsum, slice_flatten (by rw [List.getElem?_map, hi]; rfl) (by rw [hf]; exact h)]

/-- A word among words as bytes. -/
theorem slice_wordBytes {ws : List W64} {i : Nat} {x : W64} (hi : ws[i]? = some x) :
    slice (wordBytes ws) (8 * i) 8 = leBytes 8 x.toNat := by
  have h := slice_flatMap (f := fun w : W64 => leBytes 8 w.toNat) (fun _ => length_leBytes 8 _) hi (o := 0) (n := 8) (by decide)
  exact h.trans (List.take_of_length_le (by rw [List.drop_zero, length_leBytes]))

/-- The little-endian number of `n` bytes from place `o` on. -/
def numAt (bs : List Byte) (o n : Nat) : Nat := ofLe (slice bs o n)

theorem ofLe_word (x : W64) : ofLe (leBytes 8 x.toNat) = x.toNat := by
  rw [ofLe_leBytes]
  exact Nat.mod_eq_of_lt x.isLt

/-! ### Registers set one after another -/

theorem SMap.get_foldl_set {α : Type} [DecidableEq α] (d : α) (f : Nat → α) (n k : Nat) :
    SMap.get d ((List.range n).foldl (fun m i => SMap.set d m i (f i)) []) k = if k < n then f k else d := by
  induction n with
  | zero => rfl
  | succ n ih =>
    rw [List.range_succ, List.foldl_append, List.foldl_cons, List.foldl_nil]
    by_cases h : k = n
    · rw [h, SMap.get_set_self, if_pos (by omega)]
    · rw [SMap.get_set_ne _ _ _ _ _ _ h, ih]
      exact if_congr (by omega) rfl rfl

/-! ### The parts of an image (Table 5.11) -/

/-- The three words of a class of the error queue. -/
def Arch.errorWords (a : Arch) (c : Nat) : List W64 :=
  match a.errq.find? (fun x => x.cls = c) with
  | some x => [BitVec.ofNat 64 (2 ^ 63 + c), x.addr, BitVec.ofNat 64 x.count]
  | none => [0, 0, 0]

theorem Arch.length_errorWords (a : Arch) (c : Nat) : (a.errorWords c).length = 3 := by
  unfold Arch.errorWords
  split <;> rfl

/-- The words of a descriptor. -/
def Desc.words (d : Desc) : List W64 := [d.w0, d.w1, d.w2, d.w3]

/-- The words of a pending delay slot. -/
def Arch.slotWords (a : Arch) : List W64 :=
  [match a.ds with | some d => BitVec.ofNat 64 (d.taken.toNat * 2 + 1) | none => 0,
    match a.ds with | some d => d.target | none => 0]

/-- The first twelve words of an image. -/
def Arch.headWords (a : Arch) : List W64 :=
  [a.pc, a.psr, a.flags, BitVec.ofNat 64 (a.pkr.toNat * 2 ^ 32 + a.ctxid.toNat), a.ttb, a.evec, a.esp, a.holdcnt.setWidth 64,
    a.g31u, a.g31s, a.vstate, BitVec.ofNat 64 (a.erract.toNat * 2 + a.escact.toNat)]

/-- The parts of an image without resume records, in their order. -/
def Arch.saveParts (a : Arch) : List (List Byte) :=
  [wordBytes a.headWords, wordBytes ((List.range 3).map (SMap.get 0 a.ls)), wordBytes ((List.range 3).map (SMap.get 0 a.le)),
    wordBytes ((List.range 3).map (SMap.get 0 a.lc)), wordBytes a.slotWords, List.replicate 72 0,
    wordBytes ((List.range 31).map (SMap.get 0 a.g)), List.replicate 8 0,
    (List.range 32).flatMap (fun i => leBytes 16 (a.rdQ i).toNat),
    (List.range 8).flatMap (fun i => wordBytes (SMap.get Desc.zero a.str i).words),
    (List.range 24).flatMap (fun _ => List.replicate 24 0),
    (List.range 4).flatMap (fun c => wordBytes (a.errorWords c)), List.replicate 96 0]

theorem Arch.saveBytes_eq (a : Arch) : a.saveBytes [] = a.saveParts.flatten := by
  have herr : (fun c => wordBytes (a.errorWords c)) = fun c => match a.errq.find? (fun x => x.cls = c) with
      | some x => wordBytes [BitVec.ofNat 64 (2 ^ 63 + c), x.addr, BitVec.ofNat 64 x.count]
      | none => wordBytes [BitVec.ofNat 64 0, 0, 0] := by
    funext c
    unfold Arch.errorWords
    split <;> rfl
  simp only [Arch.saveParts, herr, List.flatten_cons, List.flatten_nil, List.append_nil]
  simp only [Arch.saveBytes, List.append_assoc]
  rfl

/-- The lengths of the parts. -/
def partSizes : List Nat := [96, 24, 24, 24, 16, 72, 248, 8, 512, 256, 576, 96, 96]

theorem Arch.length_saveParts (a : Arch) : a.saveParts.map List.length = partSizes := by
  simp only [Arch.saveParts, partSizes, List.map_cons, List.map_nil, length_wordBytes, List.length_map, List.length_range,
    List.length_replicate, List.cons.injEq, and_true, true_and]
  refine ⟨rfl, rfl, ?_, ?_, ?_, ?_⟩
  · exact length_flatMap_const _ _ fun _ _ => length_leBytes _ _
  · exact length_flatMap_const (k := 32) _ _ fun _ _ => length_wordBytes _
  · exact length_flatMap_const _ _ fun _ _ => List.length_replicate
  · exact length_flatMap_const _ _ fun c _ => (length_wordBytes _).trans (by rw [a.length_errorWords])

/-- A slice of an image that lies in one of its parts. -/
theorem Arch.slice_saveBytes (a : Arch) {k b o n : Nat} {p : List Byte} (hk : a.saveParts[k]? = some p) (hb : (partSizes.take k).sum = b)
    (h : o + n ≤ p.length) : slice (a.saveBytes []) (b + o) n = slice p o n := by
  rw [a.saveBytes_eq, ← hb, ← a.length_saveParts, ← List.map_take]
  exact slice_flatten hk h

/-- A word of an image. -/
theorem Arch.word_saveBytes (a : Arch) {k b i : Nat} {ws : List W64} {x : W64} (hk : a.saveParts[k]? = some (wordBytes ws))
    (hb : (partSizes.take k).sum = b) (hi : ws[i]? = some x) : numAt (a.saveBytes []) (b + 8 * i) 8 = x.toNat := by
  have hlen : 8 * i + 8 ≤ (wordBytes ws).length := by
    obtain ⟨h, -⟩ := List.getElem?_eq_some_iff.1 hi
    rw [length_wordBytes]
    omega
  rw [numAt, a.slice_saveBytes hk hb hlen, slice_wordBytes hi, ofLe_word]

/-- A word of an image's part that is put together from lists of words of one length. -/
theorem Arch.word_saveBytes_group (a : Arch) {k b g i j n : Nat} {f : Nat → List W64} {x : W64}
    (hk : a.saveParts[k]? = some ((List.range n).flatMap fun i => wordBytes (f i))) (hb : (partSizes.take k).sum = b)
    (hf : ∀ i, (f i).length = g) (hi : i < n) (hj : (f i)[j]? = some x) :
    numAt (a.saveBytes []) (b + (8 * g * i + 8 * j)) 8 = x.toNat := by
  have hjg : j < g := hf i ▸ (List.getElem?_eq_some_iff.1 hj).1
  have hlen : ∀ i, (wordBytes (f i)).length = 8 * g := fun i => by rw [length_wordBytes, hf]
  have hp : 8 * g * i + 8 * j + 8 ≤ ((List.range n).flatMap fun i => wordBytes (f i)).length := by
    rw [length_flatMap_const _ _ fun i _ => hlen i, List.length_range]
    have := Nat.mul_le_mul_left (8 * g) (Nat.succ_le_of_lt hi)
    rw [Nat.mul_succ] at this
    omega
  rw [numAt, a.slice_saveBytes hk hb hp, slice_flatMap hlen (List.getElem?_range hi) (by omega), slice_wordBytes hj, ofLe_word]

/-! ### What is read from an image (R150) -/

section
variable (bs : List Byte)

/-- The map of registers read from consecutive words. -/
def regsAt (o n : Nat) : SMap W64 :=
  (List.range n).foldl (fun m i => SMap.set 0 m i (BitVec.ofNat 64 (numAt bs (o + 8 * i) 8))) []

/-- The descriptor read at a place. -/
def descAt (o : Nat) : Desc :=
  ⟨BitVec.ofNat 64 (numAt bs o 8), BitVec.ofNat 64 (numAt bs (o + 8) 8), BitVec.ofNat 64 (numAt bs (o + 16) 8),
    BitVec.ofNat 64 (numAt bs (o + 24) 8)⟩

theorem archOf_pc : (archOf bs).pc = BitVec.ofNat 64 (numAt bs 0x000 8) := rfl
theorem archOf_psr : (archOf bs).psr = BitVec.ofNat 64 (numAt bs 0x008 8) &&& (psrMask ||| 1) := rfl
theorem archOf_flags : (archOf bs).flags = BitVec.ofNat 64 (numAt bs 0x010 8) &&& flagsMask := rfl
theorem archOf_pkr : (archOf bs).pkr = BitVec.ofNat 32 (numAt bs 0x018 8 / 2 ^ 32) := rfl
theorem archOf_ctxid : (archOf bs).ctxid = BitVec.ofNat 16 (numAt bs 0x018 8) := rfl
theorem archOf_ttb : (archOf bs).ttb = BitVec.ofNat 64 (numAt bs 0x020 8) &&& 0x000FFFFFFFFF0001 := rfl
theorem archOf_evec : (archOf bs).evec = BitVec.ofNat 64 (numAt bs 0x028 8) &&& 0x007FFFFFFFFFFF00 := rfl
theorem archOf_esp : (archOf bs).esp = BitVec.ofNat 64 (numAt bs 0x030 8 % 2 ^ 19) := rfl
theorem archOf_holdcnt : (archOf bs).holdcnt = BitVec.ofNat 32 (numAt bs 0x038 8 % 2 ^ 13) := rfl
theorem archOf_g31u : (archOf bs).g31u = BitVec.ofNat 64 (numAt bs 0x040 8) := rfl
theorem archOf_g31s : (archOf bs).g31s = BitVec.ofNat 64 (numAt bs 0x048 8) := rfl
theorem archOf_vstate : (archOf bs).vstate =
    BitVec.ofNat 64 (bitsOf (numAt bs 0x050 8) 63 39 * 2 ^ 39 + numAt bs 0x050 8 % 2 ^ 32) := rfl
theorem archOf_escact : (archOf bs).escact = decide (bitsOf (numAt bs 0x058 8) 0 0 = 1) := rfl
theorem archOf_erract : (archOf bs).erract = decide (bitsOf (numAt bs 0x058 8) 1 1 = 1) := rfl
theorem archOf_g : (archOf bs).g = regsAt bs 0x100 31 := rfl
theorem archOf_ls : (archOf bs).ls = regsAt bs 0x060 3 := rfl
theorem archOf_le : (archOf bs).le = regsAt bs 0x078 3 := rfl
theorem archOf_lc : (archOf bs).lc = regsAt bs 0x090 3 := rfl
theorem archOf_q : (archOf bs).q =
    (List.range 32).foldl (fun m i => SMap.set 0 m i (BitVec.ofNat 128 (numAt bs (0x200 + 16 * i) 16))) [] := rfl
theorem archOf_str : (archOf bs).str =
    (List.range 8).foldl (fun m i => SMap.set Desc.zero m i (descAt bs (0x400 + 32 * i))) [] := rfl
theorem archOf_ds : (archOf bs).ds = if bitsOf (numAt bs 0x0A8 8) 0 0 = 1 then
    some ⟨bitsOf (numAt bs 0x0A8 8) 1 1 = 1, false, BitVec.ofNat 64 (numAt bs 0x0B0 8)⟩ else none := rfl
theorem archOf_errq : (archOf bs).errq = ((List.range 4).filter (fun c => bitsOf (numAt bs (0x740 + 24 * c) 8) 63 63 = 1)).map
    (fun c => ⟨c, BitVec.ofNat 64 (numAt bs (0x748 + 24 * c) 8), numAt bs (0x750 + 24 * c) 8, 0⟩) := rfl

end

/-! ### What an image gives back (R150) -/

section
variable (a : Arch)

/-- A word of the first twelve. -/
theorem Arch.headWord {i : Nat} {x : W64} (hi : a.headWords[i]? = some x) : numAt (a.saveBytes []) (8 * i) 8 = x.toNat := by
  have h := a.word_saveBytes (k := 0) (b := 0) rfl rfl hi
  rwa [Nat.zero_add] at h

/-- Registers kept as consecutive words come back. -/
theorem Arch.regs_restored {k b n : Nat} {m : SMap W64} (hk : a.saveParts[k]? = some (wordBytes ((List.range n).map (SMap.get 0 m))))
    (hb : (partSizes.take k).sum = b) {i : Nat} (hi : i < n) : SMap.get 0 (regsAt (a.saveBytes []) b n) i = SMap.get 0 m i := by
  have hx : ((List.range n).map (SMap.get 0 m))[i]? = some (SMap.get 0 m i) := by
    rw [List.getElem?_map, List.getElem?_range hi]
    rfl
  rw [regsAt, SMap.get_foldl_set, if_pos hi, a.word_saveBytes hk hb hx, BitVec.ofNat_toNat, BitVec.setWidth_eq]

theorem Arch.loops_restored {n : Nat} (hn : n < 3) :
    SMap.get 0 (archOf (a.saveBytes [])).ls n = SMap.get 0 a.ls n ∧ SMap.get 0 (archOf (a.saveBytes [])).le n = SMap.get 0 a.le n ∧
      SMap.get 0 (archOf (a.saveBytes [])).lc n = SMap.get 0 a.lc n := by
  rw [archOf_ls, archOf_le, archOf_lc]
  exact ⟨a.regs_restored (k := 1) rfl rfl hn, a.regs_restored (k := 2) rfl rfl hn, a.regs_restored (k := 3) rfl rfl hn⟩

theorem Arch.general_restored {n : Nat} (hn : n < 31) : SMap.get 0 (archOf (a.saveBytes [])).g n = SMap.get 0 a.g n := by
  rw [archOf_g]
  exact a.regs_restored (k := 6) rfl rfl hn

theorem Arch.short_restored {n : Nat} (hn : n < 32) : (archOf (a.saveBytes [])).rdQ n = a.rdQ n := by
  have hp : 16 * n + 0 + 16 ≤ ((List.range 32).flatMap (fun i => leBytes 16 (a.rdQ i).toNat)).length := by
    rw [length_flatMap_const _ _ fun _ _ => length_leBytes _ _, List.length_range]
    omega
  have hall := slice_all (leBytes 16 (a.rdQ n).toNat)
  rw [length_leBytes] at hall
  have hnum : numAt (a.saveBytes []) (0x200 + 16 * n) 16 = (a.rdQ n).toNat := by
    have hq := a.slice_saveBytes (k := 8) (b := 0x200) rfl rfl hp
    rw [slice_flatMap (f := fun i => leBytes 16 (a.rdQ i).toNat) (fun _ => length_leBytes _ _) (List.getElem?_range hn) (by decide),
      hall, Nat.add_zero] at hq
    rw [numAt, hq, ofLe_leBytes]
    exact Nat.mod_eq_of_lt (a.rdQ n).isLt
  rw [Arch.rdQ, archOf_q, SMap.get_foldl_set, if_pos hn, hnum, BitVec.ofNat_toNat, BitVec.setWidth_eq]

theorem Arch.streams_restored {n : Nat} (hn : n < 8) :
    SMap.get Desc.zero (archOf (a.saveBytes [])).str n = SMap.get Desc.zero a.str n := by
  have hw : ∀ {j : Nat} {x : W64}, (SMap.get Desc.zero a.str n).words[j]? = some x →
      BitVec.ofNat 64 (numAt (a.saveBytes []) (0x400 + 32 * n + 8 * j) 8) = x := fun hj => by
    have h := a.word_saveBytes_group (k := 9) (b := 0x400) (g := 4) (f := fun i => (SMap.get Desc.zero a.str i).words) rfl rfl
      (fun _ => rfl) hn hj
    rw [Nat.add_assoc, h, BitVec.ofNat_toNat, BitVec.setWidth_eq]
  have h0 : BitVec.ofNat 64 (numAt (a.saveBytes []) (0x400 + 32 * n) 8) = (SMap.get Desc.zero a.str n).w0 := hw (j := 0) rfl
  rw [archOf_str, SMap.get_foldl_set, if_pos hn, descAt, h0, hw (j := 1) rfl, hw (j := 2) rfl, hw (j := 3) rfl]

theorem Arch.slot_restored : (archOf (a.saveBytes [])).ds = a.ds.map (fun d => { d with annul := false }) := by
  have hslot := a.word_saveBytes (k := 4) (b := 0xA8) (i := 0) rfl rfl rfl
  have htarget := a.word_saveBytes (k := 4) (b := 0xA8) (i := 1) rfl rfl rfl
  rw [archOf_ds, show numAt (a.saveBytes []) 0x0A8 8 = _ from hslot, show numAt (a.saveBytes []) 0x0B0 8 = _ from htarget]
  cases a.ds with
  | none => rfl
  | some d =>
    have h0 : bitsOf (d.taken.toNat * 2 + 1) 0 0 = 1 := by cases d.taken <;> rfl
    have h1 : decide (bitsOf (d.taken.toNat * 2 + 1) 1 1 = 1) = d.taken := by cases d.taken <;> rfl
    rw [BitVec.ofNat_toNat, BitVec.setWidth_eq, bitsOf_ofNat (by decide), bitsOf_ofNat (by decide), h0, h1, if_pos rfl]
    rfl

/-! ### The error queue (R173) -/

/-- In a queue ordered by class, the entry of a class is found. -/
theorem find?_cls_of_mem {l : List ErrEntry} (hl : l.Pairwise (fun x y => x.cls < y.cls)) {x : ErrEntry} (hx : x ∈ l) :
    l.find? (fun y => y.cls = x.cls) = some x := by
  induction l with
  | nil => simp at hx
  | cons y t ih =>
    obtain ⟨hy, ht⟩ := List.pairwise_cons.1 hl
    rcases List.mem_cons.1 hx with rfl | hx
    · exact List.find?_cons_of_pos (by simp)
    · rw [List.find?_cons_of_neg (by simpa using (hy x hx).ne), ih ht hx]

theorem Arch.errorWord {c j o : Nat} {x : W64} (hc : c < 4) (hj : (a.errorWords c)[j]? = some x) (ho : o = 0x740 + (24 * c + 8 * j)) :
    numAt (a.saveBytes []) o 8 = x.toNat := by
  rw [ho]
  exact a.word_saveBytes_group (k := 11) (b := 0x740) (g := 3) (f := a.errorWords) rfl rfl a.length_errorWords hc hj

/-- The valid bit of a class says whether the queue holds an entry of it. -/
theorem Arch.valid_saved {c : Nat} (hc : c < 4) :
    bitsOf (numAt (a.saveBytes []) (0x740 + 24 * c) 8) 63 63 = 1 ↔ ∃ x ∈ a.errq, x.cls = c := by
  cases hfind : a.errq.find? (fun x => x.cls = c) with
  | none =>
    rw [a.errorWord (j := 0) (o := 0x740 + 24 * c) (x := 0) hc (by rw [Arch.errorWords, hfind]; rfl) rfl]
    simpa [bitsOf] using hfind
  | some x =>
    have hbit : bitsOf (2 ^ 63 + c) 63 63 = 1 := by
      rw [bitsOf]
      omega
    rw [a.errorWord (j := 0) (o := 0x740 + 24 * c) (x := BitVec.ofNat 64 (2 ^ 63 + c)) hc (by rw [Arch.errorWords, hfind]; rfl) rfl,
      bitsOf_ofNat (by decide)]
    exact iff_of_true hbit ⟨x, List.mem_of_find?_eq_some hfind, by simpa using List.find?_some hfind⟩

theorem Arch.errors_restored (hq : ∀ x ∈ a.errq, x.cls < 4 ∧ x.count < 2 ^ 64) (hs : a.errq.Pairwise (fun x y => x.cls < y.cls)) :
    (archOf (a.saveBytes [])).errq = a.errq.map (fun x => { x with tick := 0 }) := by
  have hcls : (List.range 4).filter (fun c => bitsOf (numAt (a.saveBytes []) (0x740 + 24 * c) 8) 63 63 = 1) =
      a.errq.map ErrEntry.cls := by
    refine (List.pairwise_lt_range.filter _).eq_of_mem_iff (List.pairwise_map.2 hs) fun c => ?_
    simp only [List.mem_filter, List.mem_range, decide_eq_true_eq, List.mem_map]
    exact ⟨fun ⟨hc, hv⟩ => (a.valid_saved hc).1 hv, fun ⟨x, hx, hxc⟩ =>
      have hc : c < 4 := hxc ▸ (hq x hx).1
      ⟨hc, (a.valid_saved hc).2 ⟨x, hx, hxc⟩⟩⟩
  rw [archOf_errq, hcls, List.map_map]
  refine List.map_congr_left fun x hx => ?_
  obtain ⟨hc, hcount⟩ := hq x hx
  have hfind := find?_cls_of_mem hs hx
  have haddr := a.errorWord (j := 1) (o := 0x748 + 24 * x.cls) (x := x.addr) hc (by rw [Arch.errorWords, hfind]; rfl) (by omega)
  have hnum := a.errorWord (j := 2) (o := 0x750 + 24 * x.cls) (x := BitVec.ofNat 64 x.count) hc (by rw [Arch.errorWords, hfind]; rfl)
    (by omega)
  rw [BitVec.toNat_ofNat, Nat.mod_eq_of_lt hcount] at hnum
  simp only [Function.comp_apply, haddr, hnum, BitVec.ofNat_toNat, BitVec.setWidth_eq]

/-! ### The first twelve words -/

theorem Arch.head_restored {i : Nat} {x : W64} (hi : a.headWords[i]? = some x) :
    BitVec.ofNat 64 (numAt (a.saveBytes []) (8 * i) 8) = x := by
  rw [a.headWord hi, BitVec.ofNat_toNat, BitVec.setWidth_eq]

theorem Arch.words_restored : let b := archOf (a.saveBytes [])
    b.pc = a.pc ∧ b.g31u = a.g31u ∧ b.g31s = a.g31s ∧ b.psr = a.psr &&& (psrMask ||| 1) ∧ b.flags = a.flags &&& flagsMask ∧
      b.ttb = a.ttb &&& 0x000FFFFFFFFF0001 ∧ b.evec = a.evec &&& 0x007FFFFFFFFFFF00 := by
  intro b
  rw [archOf_pc, archOf_g31u, archOf_g31s, archOf_psr, archOf_flags, archOf_ttb, archOf_evec, a.head_restored (i := 0) rfl,
    a.head_restored (i := 1) rfl, a.head_restored (i := 2) rfl, a.head_restored (i := 4) rfl, a.head_restored (i := 5) rfl,
    a.head_restored (i := 8) rfl, a.head_restored (i := 9) rfl]
  exact ⟨rfl, rfl, rfl, rfl, rfl, rfl, rfl⟩

theorem Arch.keys_restored : (archOf (a.saveBytes [])).pkr = a.pkr ∧ (archOf (a.saveBytes [])).ctxid = a.ctxid := by
  have hp := a.pkr.isLt
  have hc := a.ctxid.isLt
  have h : numAt (a.saveBytes []) 0x018 8 = a.pkr.toNat * 2 ^ 32 + a.ctxid.toNat := by
    refine (a.headWord (i := 3) rfl).trans ((BitVec.toNat_ofNat _ _).trans (Nat.mod_eq_of_lt ?_))
    omega
  rw [archOf_pkr, archOf_ctxid, h]
  constructor <;> apply BitVec.eq_of_toNat_eq <;> rw [BitVec.toNat_ofNat] <;> omega

theorem Arch.active_restored :
    (archOf (a.saveBytes [])).escact = a.escact ∧ (archOf (a.saveBytes [])).erract = a.erract := by
  have h : numAt (a.saveBytes []) 0x058 8 = (BitVec.ofNat 64 (a.erract.toNat * 2 + a.escact.toNat)).toNat := a.headWord (i := 11) rfl
  rw [archOf_escact, archOf_erract, h]
  cases a.erract <;> cases a.escact <;> exact ⟨rfl, rfl⟩

theorem Arch.counters_restored : (archOf (a.saveBytes [])).esp = BitVec.ofNat 64 (a.esp.toNat % 2 ^ 19) ∧
    (archOf (a.saveBytes [])).holdcnt = BitVec.ofNat 32 (a.holdcnt.toNat % 2 ^ 13) := by
  have hesp : numAt (a.saveBytes []) 0x030 8 = a.esp.toNat := a.headWord (i := 6) rfl
  have hhold : numAt (a.saveBytes []) 0x038 8 = (a.holdcnt.setWidth 64).toNat := a.headWord (i := 7) rfl
  rw [archOf_esp, archOf_holdcnt, hesp, hhold, BitVec.toNat_setWidth_of_le (by decide)]
  exact ⟨rfl, rfl⟩

/-- The word without bits 38 to 32. -/
theorem bits_above_below (v : W64) :
    BitVec.ofNat 64 (bitsOf v.toNat 63 39 * 2 ^ 39 + v.toNat % 2 ^ 32) = v &&& 0xFFFFFF80FFFFFFFF := by
  have hmask : ∀ i < 64, (0xFFFFFF80FFFFFFFF : W64).getLsbD i = (decide (i < 32) || decide (39 ≤ i)) := by decide
  have hlow : v.toNat % 2 ^ 32 < 2 ^ 39 := by omega
  refine BitVec.eq_of_getLsbD_eq fun i hi => ?_
  rw [BitVec.getLsbD_and, hmask i hi, BitVec.getLsbD_ofNat, Nat.mul_comm, Nat.testBit_two_pow_mul_add _ hlow, testBit_bitsOf,
    Nat.testBit_mod_two_pow, BitVec.getLsbD]
  rcases Nat.lt_or_ge i 39 with h | h
  · simp [hi, h, Nat.not_le.2 h, Bool.and_comm]
  · simp [hi, h, Nat.not_lt.2 h, show i - 39 < 63 + 1 - 39 by omega, show 39 + (i - 39) = i by omega]

theorem Arch.vstate_restored : (archOf (a.saveBytes [])).vstate = a.vstate &&& 0xFFFFFF80FFFFFFFF := by
  have h : numAt (a.saveBytes []) 0x050 8 = a.vstate.toNat := a.headWord (i := 10) rfl
  rw [archOf_vstate, h, bits_above_below]

end

/-- Settles O41: every register by the part of the image that holds it. -/
theorem saveRestoreRoundTrip : Obligations.SaveRestoreRoundTrip := by
  intro a b
  obtain ⟨hpc, hg31u, hg31s, hpsr, hflags, httb, hevec⟩ := a.words_restored
  obtain ⟨hpkr, hctxid⟩ := a.keys_restored
  obtain ⟨hesp, hholdcnt⟩ := a.counters_restored
  obtain ⟨hescact, herract⟩ := a.active_restored
  have hds : b.ds.map (fun d => (d.taken, d.target)) = a.ds.map (fun d => (d.taken, d.target)) := by
    rw [show b.ds = _ from a.slot_restored, Option.map_map]
    rfl
  exact ⟨hpc, fun _ => a.general_restored, hg31u, hg31s, fun _ => a.short_restored, hpsr, hflags, hpkr, hctxid, httb, hevec, hesp,
    hholdcnt, a.vstate_restored, hescact, herract, fun _ => a.loops_restored, fun _ => a.streams_restored, hds, a.errors_restored⟩

end Sys2Proof.Machine

/-!
PROOFS. Results of long vectors (R225, R226, R251): the integer units' elements as bit vectors of the element's width, and the
sort of VSORT's blocks. Settles O29 and O30.
-/
namespace Sys2Proof.Machine

/-! ### Integer elements and results (R226) -/

section
variable {et : Nat} (het : et < 8)
include het

theorem etWidth_pos : 0 < etWidth et := by
  rw [etWidth, etSize, if_pos het]
  positivity

theorem ival_of_signed (h4 : 4 ≤ et) (x : BitVec (etWidth et)) : ival et x.toNat = x.toInt := by
  rw [ival, if_pos (by simp [etI]; omega), sval_toNat (etWidth_pos het)]

theorem ival_of_unsigned (h4 : ¬4 ≤ et) (x : BitVec (etWidth et)) : ival et x.toNat = x.toNat := by
  rw [ival, if_neg (by simp [etI]; omega), Nat.mod_eq_of_lt x.isLt]

/-- An element is the low bits of its value, whichever its sign rule. -/
theorem ofInt_ival (x : BitVec (etWidth et)) : BitVec.ofInt (etWidth et) (ival et x.toNat) = x := by
  by_cases h4 : 4 ≤ et
  · rw [ival_of_signed het h4, BitVec.ofInt_toInt]
  · rw [ival_of_unsigned het h4, BitVec.ofInt_natCast, BitVec.ofNat_toNat, BitVec.setWidth_eq]

theorem ival_eq_zero (x : BitVec (etWidth et)) : ival et x.toNat = 0 ↔ x = 0 := by
  constructor
  · intro h
    rw [← ofInt_ival het x, h]
    rfl
  · rintro rfl
    by_cases h4 : 4 ≤ et
    · exact (ival_of_signed het h4 0).trans BitVec.toInt_zero
    · exact (ival_of_unsigned het h4 0).trans (by simp)

theorem ival_le_iff (x y : BitVec (etWidth et)) :
    ival et x.toNat ≤ ival et y.toNat ↔ if 4 ≤ et then x.toInt ≤ y.toInt else x.toNat ≤ y.toNat := by
  split
  case isTrue h4 => rw [ival_of_signed het h4, ival_of_signed het h4]
  case isFalse h4 => rw [ival_of_unsigned het h4, ival_of_unsigned het h4, Int.ofNat_le]

end

/-- An exact result without OVERFLOW trapping is its low bits. -/
theorem EV.int_val {env : VEnv} (hove : env.ove = false) (et : Nat) (v : Int) :
    (EV.int env et v).val = (BitVec.ofInt (etWidth et) v).toNat := by
  rw [EV.int, hove]
  exact lowBits_eq _ v

/-! ### VALU (Table 7.3) -/

section
variable {env : VEnv} {et : Nat} (het : et < 8) (x y : BitVec (etWidth et))
include het

theorem vAlu_add (hove : env.ove = false) : (vAlu env 0 et x.toNat y.toNat).val = (x + y).toNat := by
  change (EV.int env et (ival et x.toNat + ival et y.toNat)).val = _
  rw [EV.int_val hove, BitVec.ofInt_add, ofInt_ival het, ofInt_ival het]

theorem vAlu_sub (hove : env.ove = false) : (vAlu env 1 et x.toNat y.toNat).val = (x - y).toNat := by
  change (EV.int env et (ival et x.toNat - ival et y.toNat)).val = _
  rw [EV.int_val hove, Int.sub_eq_add_neg, BitVec.ofInt_add, BitVec.ofInt_neg, ofInt_ival het, ofInt_ival het, BitVec.sub_eq_add_neg]

/-- FN 8 shifts in copies of the sign bit of an I type and zeros of a U type. -/
theorem vAlu_sar :
    (vAlu env 8 et x.toNat y.toNat).val =
      (if 4 ≤ et then x.sshiftRight (y.toNat % etWidth et) else x >>> (y.toNat % etWidth et)).toNat := by
  refine (lowBits_eq _ (ival et x.toNat / 2 ^ (y.toNat % etWidth et))).trans (congrArg BitVec.toNat ?_)
  generalize y.toNat % etWidth et = k
  split
  case isTrue h4 =>
    refine BitVec.eq_of_toInt_eq ?_
    rw [ival_of_signed het h4, ← BitVec.ofInt_toInt (x := x.sshiftRight k), BitVec.toInt_sshiftRight, Int.shiftRight_eq_div_pow]
    norm_cast
  case isFalse h4 =>
    refine BitVec.eq_of_toNat_eq ?_
    rw [ival_of_unsigned het h4, BitVec.toNat_ushiftRight, Nat.shiftRight_eq_div_pow, ← Nat.cast_ofNat (R := Int), ← Nat.cast_pow,
      ← Int.natCast_div, BitVec.ofInt_natCast, BitVec.toNat_ofNat, Nat.mod_eq_of_lt]
    exact (Nat.div_le_self _ _).trans_lt x.isLt

theorem vAlu_min : (vAlu env 9 et x.toNat y.toNat).val =
    if (if 4 ≤ et then x.toInt ≤ y.toInt else x.toNat ≤ y.toNat) then x.toNat else y.toNat :=
  if_congr (ival_le_iff het x y) rfl rfl

theorem vAlu_max : (vAlu env 10 et x.toNat y.toNat).val =
    if (if 4 ≤ et then x.toInt ≤ y.toInt else x.toNat ≤ y.toNat) then y.toNat else x.toNat :=
  if_congr (ival_le_iff het x y) rfl rfl

end

/-- FN 5 is a bitwise difference. -/
theorem vAlu_andNot (env : VEnv) {et : Nat} (x y : BitVec (etWidth et)) :
    (vAlu env 5 et x.toNat y.toNat).val = (x &&& ~~~y).toNat := by
  change Nat.ldiff x.toNat y.toNat = _
  refine Nat.eq_of_testBit_eq fun i => ?_
  rw [Nat.testBit_ldiff, ← BitVec.getLsbD, ← BitVec.getLsbD, ← BitVec.getLsbD, BitVec.getLsbD_and, BitVec.getLsbD_not]
  by_cases hi : i < etWidth et
  · simp [hi]
  · simp [BitVec.getLsbD_of_ge x i (Nat.not_lt.1 hi)]

theorem vAlu_shl (env : VEnv) {et : Nat} (x y : BitVec (etWidth et)) :
    (vAlu env 6 et x.toNat y.toNat).val = (x <<< (y.toNat % etWidth et)).toNat := by
  rw [BitVec.toNat_shiftLeft, Nat.shiftLeft_eq]
  rfl

theorem vAlu_shr (env : VEnv) {et : Nat} (x y : BitVec (etWidth et)) :
    (vAlu env 7 et x.toNat y.toNat).val = (x >>> (y.toNat % etWidth et)).toNat := by
  rw [BitVec.toNat_ushiftRight, Nat.shiftRight_eq_div_pow]
  rfl

/-! ### VMUL and VDIV (Table 7.3, R262) -/

section
variable {env : VEnv} {et : Nat} (het : et < 8) (x : BitVec (etWidth et)) {y : BitVec (etWidth et)}
include het

theorem vMul_low (hove : env.ove = false) (y : BitVec (etWidth et)) : (vMul env 0 et x.toNat y.toNat).val = (x * y).toNat := by
  change (EV.int env et (ival et x.toNat * ival et y.toNat)).val = _
  rw [EV.int_val hove, BitVec.ofInt_mul, ofInt_ival het, ofInt_ival het]

theorem vDiv_quotient (hove : env.ove = false) (hy : y ≠ 0) : (vDiv env 0 et x.toNat y.toNat).val =
    (BitVec.ofInt (etWidth et) ((ival et x.toNat).tdiv (ival et y.toNat))).toNat := by
  rw [← EV.int_val hove, vDiv, if_neg (mt (ival_eq_zero het y).1 hy)]
  rfl

theorem vDiv_remainder (hove : env.ove = false) (hy : y ≠ 0) : (vDiv env 1 et x.toNat y.toNat).val =
    (BitVec.ofInt (etWidth et) ((ival et x.toNat).tmod (ival et y.toNat))).toNat := by
  rw [← lowBits_eq, vDiv, if_neg (mt (ival_eq_zero het y).1 hy), hove]
  rfl

theorem vDiv_signed (hove : env.ove = false) (hy : y ≠ 0) (h4 : 4 ≤ et) :
    (vDiv env 0 et x.toNat y.toNat).val = (x.sdiv y).toNat ∧ (vDiv env 1 et x.toNat y.toNat).val = (x.srem y).toNat := by
  rw [vDiv_quotient het x hove hy, vDiv_remainder het x hove hy, ival_of_signed het h4, ival_of_signed het h4]
  constructor <;> refine congrArg BitVec.toNat (BitVec.eq_of_toInt_eq ?_)
  · rw [BitVec.toInt_ofInt, BitVec.toInt_sdiv]
  · rw [← BitVec.toInt_srem, BitVec.ofInt_toInt]

theorem vDiv_unsigned (hove : env.ove = false) (hy : y ≠ 0) (h4 : ¬4 ≤ et) :
    (vDiv env 0 et x.toNat y.toNat).val = (x / y).toNat ∧ (vDiv env 1 et x.toNat y.toNat).val = (x % y).toNat := by
  rw [vDiv_quotient het x hove hy, vDiv_remainder het x hove hy, ival_of_unsigned het h4, ival_of_unsigned het h4]
  constructor <;> refine congrArg BitVec.toNat (BitVec.eq_of_toNat_eq ?_)
  · rw [← Int.ofNat_tdiv, BitVec.ofInt_natCast, BitVec.toNat_ofNat, BitVec.toNat_udiv, Nat.mod_eq_of_lt]
    exact (Nat.div_le_self _ _).trans_lt x.isLt
  · rw [← Int.ofNat_tmod, BitVec.ofInt_natCast, BitVec.toNat_ofNat, BitVec.toNat_umod, Nat.mod_eq_of_lt]
    exact (Nat.mod_le _ _).trans_lt x.isLt

theorem vDiv_zero (fn : Nat) : (vDiv env fn et x.toNat (0 : BitVec (etWidth et)).toNat).exc = some (0x0C, 0, false) := by
  rw [vDiv, if_pos ((ival_eq_zero het 0).2 rfl)]

end

/-- Settles O29: each operation of an integer unit as the bit vector's, by the value of its elements. -/
theorem vectorIntegerElements : Obligations.VectorIntegerElements := by
  intro env et het hove w x y alu le
  refine ⟨vAlu_add het x y hove, vAlu_sub het x y hove, (BitVec.toNat_and x y).symm, (BitVec.toNat_or x y).symm,
    (BitVec.toNat_xor x y).symm, vAlu_andNot env x y, vAlu_shl env x y, vAlu_shr env x y, vAlu_sar het x y,
    fun h => ⟨(vAlu_min het x y).trans (if_pos h), (vAlu_max het x y).trans (if_pos h)⟩,
    fun h => ⟨(vAlu_min het x y).trans (if_neg h), (vAlu_max het x y).trans (if_neg h)⟩,
    vMul_low het x hove y, fun hy h4 => vDiv_signed het x hove hy h4,
    fun hy h4 => vDiv_unsigned het x hove hy (by omega), ?_⟩
  rintro rfl
  exact vDiv_zero het x 0

/-! ### The block sort (R225, R251) -/

section
variable {α : Type}

theorem insertBy_eq_orderedInsert (lt : α → α → Bool) (x : α) (l : List α) :
    insertBy lt x l = l.orderedInsert (fun a b => lt a b = true) x := by
  induction l with
  | nil => rfl
  | cons y t ih => rw [insertBy, List.orderedInsert, ih]

theorem insertBy_perm (lt : α → α → Bool) (x : α) (l : List α) : (insertBy lt x l).Perm (x :: l) := by
  rw [insertBy_eq_orderedInsert]
  exact List.perm_orderedInsert _ x l

/-- The last element is inserted last. -/
theorem stableSort_append (lt : α → α → Bool) (l : List α) (x : α) :
    stableSort lt (l ++ [x]) = insertBy lt x (stableSort lt l) := by
  rw [stableSort, List.foldl_append]
  rfl

theorem stableSort_perm (lt : α → α → Bool) (l : List α) : (stableSort lt l).Perm l := by
  induction l using List.reverseRecOn with
  | nil => exact .nil
  | append_singleton l x ih =>
    rw [stableSort_append]
    exact (insertBy_perm lt x _).trans ((ih.cons x).trans (List.perm_append_singleton x l).symm)

/-- Elements are ordered by an integer key. -/
def keyLt (key : α → Int) (x y : α) : Bool := decide (key x < key y)

variable (key : α → Int)

theorem insertBy_ascending (x : α) {l : List α} (h : l.Pairwise (fun a b => key a ≤ key b)) :
    (insertBy (keyLt key) x l).Pairwise (fun a b => key a ≤ key b) := by
  induction l with
  | nil => exact List.pairwise_singleton _ x
  | cons y t ih =>
    obtain ⟨hy, ht⟩ := List.pairwise_cons.1 h
    rw [insertBy]
    split
    case isTrue hlt =>
      have hxy : key x < key y := of_decide_eq_true hlt
      refine List.pairwise_cons.2 ⟨fun a ha => ?_, h⟩
      rcases List.mem_cons.1 ha with rfl | ha
      · exact hxy.le
      · exact hxy.le.trans (hy a ha)
    case isFalse hlt =>
      have hyx : key y ≤ key x := not_lt.1 (mt (decide_eq_true (p := key x < key y)) hlt)
      refine List.pairwise_cons.2 ⟨fun a ha => ?_, ih ht⟩
      rcases List.mem_cons.1 ((insertBy_perm _ x t).mem_iff.1 ha) with rfl | ha
      · exact hyx
      · exact hy a ha

/-- Among the elements of one key the new one stands last. -/
theorem insertBy_filter (x : α) (k : Int) {l : List α} (h : l.Pairwise (fun a b => key a ≤ key b)) :
    (insertBy (keyLt key) x l).filter (fun a => key a = k) = (l ++ [x]).filter (fun a => key a = k) := by
  induction l with
  | nil => rfl
  | cons y t ih =>
    obtain ⟨hy, ht⟩ := List.pairwise_cons.1 h
    rw [insertBy]
    split
    case isTrue hlt =>
      have hxy : key x < key y := of_decide_eq_true hlt
      by_cases hx : key x = k
      · have habove : ∀ a ∈ y :: t, key a ≠ k := by
          intro a ha
          rcases List.mem_cons.1 ha with rfl | ha
          · omega
          · have := hy a ha
            omega
        have hnone : (y :: t).filter (fun a => key a = k) = [] := List.filter_eq_nil_iff.2 (by simpa using habove)
        rw [List.filter_cons, List.filter_append, hnone]
        simp [hx]
      · rw [List.filter_cons, List.filter_append]
        simp [hx]
    case isFalse hlt => rw [List.cons_append, List.filter_cons, List.filter_cons, ih ht]

theorem stableSort_ascending (l : List α) : (stableSort (keyLt key) l).Pairwise (fun a b => key a ≤ key b) := by
  induction l using List.reverseRecOn with
  | nil => exact .nil
  | append_singleton l x ih =>
    rw [stableSort_append]
    exact insertBy_ascending key x ih

theorem stableSort_filter (l : List α) (k : Int) :
    (stableSort (keyLt key) l).filter (fun a => key a = k) = l.filter (fun a => key a = k) := by
  induction l using List.reverseRecOn with
  | nil => rfl
  | append_singleton l x ih =>
    rw [stableSort_append, insertBy_filter key x k (stableSort_ascending key l), List.filter_append, List.filter_append, ih]

end

/-- Of two elements neither precedes the other exactly where their keys agree. -/
theorem not_precedes_iff (et x k : Nat) : (!precedes et x k && !precedes et k x) = decide (ordKey et x = ordKey et k) := by
  simp only [precedes, ← decide_not, ← Bool.decide_and, decide_eq_decide]
  omega

/-- The key of an element of a block. -/
def blockKey (et : Nat) (p : Nat × Nat) : Int := ordKey et p.1

/-- Settles O30: the order of R225 is that of a key, under which insertion behind equals sorts and keeps their order. -/
theorem sortIsStable : Obligations.SortIsStable := by
  intro et l lt r
  refine ⟨stableSort_perm lt l, (stableSort_ascending (blockKey et) l).imp fun h => decide_eq_false h.not_gt, fun k => ?_⟩
  simp only [not_precedes_iff]
  exact stableSort_filter (blockKey et) l (ordKey et k)

end Sys2Proof.Machine

/-!
PROOFS. The memory targets (R248, R288 to R310) and the upkeep of memory (R298, R300, R304, R307): what an arbiter chooses where
one request waits or none, and what the commands of the targets then do. Settles O26.
-/
namespace Sys2Proof.Machine

/-! ### Requests that may be granted (R311, R416) -/

theorem State.heads_empty {s : State} (h : s.m.memq = []) : s.heads = [] := by
  rw [State.heads, h]
  rfl

/-- A request that waits alone, and that no fence holds, may be granted. -/
theorem State.heads_single {s : State} {r : MemReq} (h : s.m.memq = [r]) (hf : s.flt.fences = []) : s.heads = [r] := by
  have hfenced : s.fenced r = false := by
    unfold State.fenced
    split
    · rw [hf]
      rfl
    · rfl
  simp [State.heads, h, hfenced]

theorem State.atPort_empty {s : State} (h : s.heads = []) (t : Nat) : s.atPort t = [] := by simp [State.atPort, h]

/-- A request that waits alone for a crossbar target is the only one at its arbiter. -/
theorem State.atPort_single {s : State} {r : MemReq} {t : Nat} (h : s.heads = [r]) (ht : s.targetOf r = t)
    (hp : s.placeOf r = 16) (ha : s.asleepAt r.off = false) : s.atPort t = [r] := by
  cases hb : r.booked <;> simp [State.atPort, h, ht, hp, ha, hb]

/-! ### Arbitration (R288, R310) -/

/-- An arbitration changes only what the arbiter remembers. -/
theorem State.arbitrated_m (s : State) (t m : Nat) (booked : Bool) (ws : List (Nat × Bool)) :
    ∃ l g, (s.arbitrated t m booked ws).m = { s.m with lost := l, lastGrant := g } := by
  unfold State.arbitrated
  dsimp only
  split
  · exact ⟨_, _, State.satInc_m _ _ _ _⟩
  · exact ⟨_, _, rfl⟩

/-- Bytes and queue of memory are those before. -/
def SameQueue (s t : State) : Prop := t.m.mem = s.m.mem ∧ t.m.memq = s.m.memq

theorem SameQueue.arbitrated {s t : State} (h : SameQueue s t) (n m : Nat) (booked : Bool) (ws : List (Nat × Bool)) :
    SameQueue s (t.arbitrated n m booked ws) := by
  obtain ⟨l, g, hm⟩ := t.arbitrated_m n m booked ws
  rw [SameQueue, hm]
  exact h

theorem SameQueue.touchLine {s t : State} (h : SameQueue s t) (off : Nat) : SameQueue s (t.touchLine off) := by
  obtain ⟨d, hd⟩ := t.touchLine_frame off
  rw [hd]
  exact h

theorem State.xbarWinner_empty {s : State} (h : s.heads = []) (t : Nat) : s.xbarWinner t = none := by
  rw [State.xbarWinner, State.atPort_empty h]
  rfl

theorem State.xbarWinner_single {s : State} {r : MemReq} {t : Nat} (h : s.atPort t = [r]) :
    ∃ s1, s.xbarWinner t = some (r, s1) ∧ SameQueue s s1 := by
  refine ⟨s.arbitrated t r.via r.booked [(r.via, r.booked)], ?_, SameQueue.arbitrated ⟨rfl, rfl⟩ ..⟩
  rw [State.xbarWinner, h]
  rfl

/-! ### Home Banks (R288) -/

theorem State.bankGrants_empty {s : State} (h : s.heads = []) (bank sub : Nat) : s.bankGrants bank sub = [] := by
  simp [State.bankGrants, h, State.atPort_empty h, State.portChoice, leastBy]

theorem State.bankWinner_none {s : State} {bank sub : Nat} (h : s.bankGrants bank sub = []) : s.bankWinner bank sub = none := by
  rw [State.bankWinner, h]
  rfl

/-- A part that waits alone at a sub-bank is granted, and the grant moves only what the arbiters remember. -/
theorem State.bankWinner_single {s : State} {bank sub : Nat} {g : Grant} (h : s.bankGrants bank sub = [g]) :
    ∃ s1, s.bankWinner bank sub = some (g, s1) ∧ SameQueue s s1 := by
  rw [State.bankWinner, h]
  refine ⟨_, rfl, ?_⟩
  simp only [List.foldl_cons, List.foldl_nil, if_true]
  split
  · exact ⟨rfl, rfl⟩
  · exact SameQueue.arbitrated ⟨rfl, rfl⟩ ..

theorem State.cycleFor_solo {s : State} (h : s.actMode.mirrored = false) (outside : Bool) : s.cycleFor outside = true := by
  simp [State.cycleFor, h]

theorem State.placeOf_le (s : State) (r : MemReq) : s.placeOf r ≤ 16 := by
  unfold State.placeOf State.bankSource
  repeat' split
  all_goals omega

section
variable {s : State} {r : MemReq} {bank : Nat} (hh : s.heads = [r]) (ht : s.tier r.off = .bank bank)
include hh ht

/-- An atomic that waits alone for an awake bank asks its own sub-bank for a grant, and no other. -/
theorem State.bankGrants_atomic (hm : s.actMode.mirrored = false) (ha : s.asleepAt r.off = false) (hr : r.op.isAtomic = true)
    (sub : Nat) : s.bankGrants bank sub = if r.off / 16 % 16 = sub then [⟨17, r⟩] else [] := by
  have htarget : s.targetOf r = 16 + bank / 16 := by rw [State.targetOf, ht]; rfl
  by_cases hp : s.placeOf r < 16
  · have hport : s.atPort (16 + bank / 16) = [] := by simp [State.atPort, hh, hp.ne]
    by_cases hs : r.off / 16 % 16 = sub <;>
      simp [State.bankGrants, hh, ht, hp, hport, hs, hr, State.portChoice, leastBy, State.cycleFor_solo hm]
  · have hplace : s.placeOf r = 16 := by
      have := s.placeOf_le r
      omega
    have hport : s.atPort (16 + bank / 16) = [r] := State.atPort_single hh htarget hplace ha
    by_cases hs : r.off / 16 % 16 = sub <;>
      simp [State.bankGrants, hh, ht, hplace, hport, hs, hr, State.portChoice, leastBy, State.cycleFor_solo hm]

/-- The atomic unit of the bank is granted that atomic alone. -/
theorem State.atomicGrants_single (hm : s.actMode.mirrored = false) (ha : s.asleepAt r.off = false) (hr : r.op.isAtomic = true) :
    ∃ s1, s.atomicGrants bank = [(r, s1)] ∧ SameQueue s s1 := by
  obtain ⟨s1, hwin, hq⟩ := State.bankWinner_single
    ((State.bankGrants_atomic hh ht hm ha hr (r.off / 16 % 16)).trans (if_pos rfl))
  refine ⟨s1, ?_, hq⟩
  have hsub : ∀ sub, s.bankWinner bank sub = if r.off / 16 % 16 = sub then some (⟨17, r⟩, s1) else none := by
    intro sub
    split
    case isTrue h => rw [← h, hwin]
    case isFalse h => exact State.bankWinner_none ((State.bankGrants_atomic hh ht hm ha hr sub).trans (if_neg h))
  have hlt : r.off / 16 % 16 < 16 := Nat.mod_lt _ (by decide)
  simp only [State.atomicGrants, hsub]
  generalize r.off / 16 % 16 = k at hlt
  interval_cases k <;> rfl

end

theorem State.placeOf_of_tier {s : State} {r : MemReq} (h : ∀ b, s.tier r.off ≠ .bank b) : s.placeOf r = 16 := by
  unfold State.placeOf
  split
  case h_1 b hb => exact absurd hb (h b)
  all_goals rfl

theorem State.asleepAt_of_tier {s : State} {off : Nat} (h : ∀ b, s.tier off ≠ .bank b) : s.asleepAt off = false := by
  unfold State.asleepAt
  split
  case h_1 b hb => exact absurd hb (h b)
  all_goals rfl

/-- A request that waits alone for a device or a channel wins its arbiter. -/
theorem State.xbarWinner_alone {s : State} {r : MemReq} (hq : s.m.memq = [r]) (hf : s.flt.fences = [])
    (h : ∀ b, s.tier r.off ≠ .bank b) : ∃ s1, s.xbarWinner (s.tier r.off).target = some (r, s1) ∧ SameQueue s s1 :=
  State.xbarWinner_single (State.atPort_single (State.heads_single hq hf) rfl (State.placeOf_of_tier h) (State.asleepAt_of_tier h))

/-! ### What the targets do (R288, R289, R291, R292, R297) -/

@[simp] theorem State.noteFound_clean (s : State) (unit : Nat) : s.noteFound unit .clean = s := if_pos rfl

/-- An adder whose residue check holds performs its atomic. -/
theorem State.addAtomic_good (s : State) (r : MemReq) (u : Upset) (origin : Nat) :
    s.addAtomic r u .good origin = s.performAnswer r u := by
  unfold State.addAtomic
  cases r.op <;> rfl

/-- ATOMIC starts the only atomic that waits. -/
theorem atomic_performs {s : State} {r : MemReq} {bank : Nat} (hq : s.m.memq = [r]) (hf : s.flt.fences = [])
    (hm : s.actMode.mirrored = false) (hr : r.op.isAtomic = true) (ht : s.tier r.off = .bank bank) (ha : s.asleepAt r.off = false)
    (u : Upset) : ∃ s1 : State, exec (.atomic bank u .good) s = .next (s1.performAnswer r u) ∧ SameQueue s s1 := by
  obtain ⟨s1, hgrants, hsame⟩ := State.atomicGrants_single (State.heads_single hq hf) ht hm ha hr
  refine ⟨s1, ?_, hsame⟩
  change execAtomic bank u .good s = _
  simp [execAtomic, hgrants, hq, State.addAtomic_good]

/-- LINE_SLOT performs the only request that waits, an atomic from the line buffer. -/
theorem lineSlot_performs {s : State} {r : MemReq} {dev l : Nat} (hq : s.m.memq = [r]) (hf : s.flt.fences = [])
    (ht : s.tier r.off = .dir dev l) :
    ∃ s1 : State, exec (.lineSlot dev .clean .good) s = .next (s1.performAnswer r .clean) ∧ SameQueue s s1 := by
  obtain ⟨s1, hwin, hsame⟩ := State.xbarWinner_alone hq hf (by simp [ht])
  rw [ht] at hwin
  change ∃ t : State, execLineSlot dev .clean .good s = _ ∧ _
  rw [execLineSlot, show 12 + dev = (Tier.dir dev l).target from rfl, hwin]
  cases hr : r.op.isAtomic
  · exact ⟨s1.touchLine r.off, by simp [hr], hsame.touchLine r.off⟩
  · exact ⟨s1.bufferLine dev l, by simp [hr, ht, State.addAtomic_good], hsame⟩

/-- GRANULE performs the only request that waits, outside a maintenance window. -/
theorem granule_performs {s : State} {r : MemReq} {ch l : Nat} (hq : s.m.memq = [r]) (hf : s.flt.fences = [])
    (hw : s.inWindow ch = false) (ht : s.tier r.off = .ddr ch l) :
    ∃ s1 : State, exec (.granule ch .clean false) s = .next (s1.performAnswer r .clean) ∧ SameQueue s s1 := by
  obtain ⟨s1, hwin, hsame⟩ := State.xbarWinner_alone hq hf (by simp [ht])
  rw [ht] at hwin
  refine ⟨s1, ?_, hsame⟩
  change execGranule ch .clean false s = _
  simp [execGranule, hw, show s.xbarWinner ch = _ from hwin]

section
variable {s : State} (h : s.m.memq = [])
include h

theorem subBankGrant_idle (bank sub : Nat) : exec (.subBankGrant bank sub .clean) s = .next s := by
  change execSubBankGrant bank sub .clean s = _
  simp [execSubBankGrant, State.bankWinner_none (State.bankGrants_empty (State.heads_empty h) bank sub)]

theorem atomic_idle (bank : Nat) (u : Upset) : exec (.atomic bank u .good) s = .next s := by
  change execAtomic bank u .good s = _
  simp [execAtomic, h]

theorem lineSlot_idle (dev : Nat) : exec (.lineSlot dev .clean .good) s = .next s := by
  change execLineSlot dev .clean .good s = _
  simp [execLineSlot, State.xbarWinner_empty (State.heads_empty h)]

theorem granule_idle (ch : Nat) : exec (.granule ch .clean false) s = .next s := by
  change execGranule ch .clean false s = _
  simp [execGranule, State.xbarWinner_empty (State.heads_empty h)]

end

theorem targets_complete : Claims.TargetsComplete := by
  intro s
  refine ⟨fun bank sub u g s1 hwin hplace => ?_, fun bank sub h => subBankGrant_idle h bank sub, fun bank u h => atomic_idle h bank u,
    fun bank u r hq hf hm hr ht ha => atomic_performs hq hf hm hr ht ha u, fun dev h => lineSlot_idle h dev,
    fun dev r hq hf ⟨l, ht⟩ => lineSlot_performs hq hf ht, fun ch h => granule_idle h ch, fun ch u hw => ?_,
    fun ch r hq hf hw ⟨l, ht⟩ => granule_performs hq hf hw ht⟩
  · change execSubBankGrant bank sub u s = _
    simp [execSubBankGrant, hwin, hplace]
  · change execGranule ch u false s = _
    simp [execGranule, hw]

/-! ### Upkeep (R298, R300, R304, R307) -/

/-- MAINTENANCE_WINDOW in a window that its channel has not yet used. -/
theorem maintenanceWindow_once {s : State} {ch : Nat} (hw : s.inWindow ch = true) (hf : s.bit (Reg.ddrStat ch) 2 = false)
    (re : Bool) (u : Upset) :
    let s1 : State := { s with m := { s.m with window := SMap.set 0 s.m.window ch s.windowNow } }
    exec (.maintenanceWindow ch re u) s = .next (if re then s1.scrubGranule ch u else s1.channelFails ch) := by
  change execMaintenanceWindow ch re u s = _
  cases re <;> simp [execMaintenanceWindow, hw, hf]

/-- WRITE_BACK of a corrected word with nothing waiting for its unit makes the word good and leaves all else. -/
theorem writeBack_mends {s : State} {word : Nat} (hc : SMap.get Health.good s.m.health (healthKey word) = .corrected)
    (hfree : ∀ r ∈ s.m.memq, unitOf (s.tier r.off) r.off ≠ unitOf (s.tier word) word) :
    ∃ t, exec (.writeBack word) s = .next t ∧ t.m.health = SMap.set .good s.m.health (healthKey word) .good ∧
      t = { s with m := { s.m with health := SMap.set .good s.m.health (healthKey word) .good } } := by
  have hbusy : s.m.memq.any (fun r => unitOf (s.tier r.off) r.off = unitOf (s.tier word) word) = false := by
    simpa using hfree
  refine ⟨_, ?_, rfl, rfl⟩
  change execWriteBack word s = _
  simp [execWriteBack, hc, hbusy]

/-- EXPANDER_RESPONSE in time and without error: a read is answered, a write performed. -/
theorem expanderResponse_serves {s : State} {port : Nat} {x : ExpItem} (h : s.expChoice port = some x) :
    exec (.expanderResponse port false false) s = .next (match x with
      | .read q => (s.expServed port x).expAnswer q false
      | .write r => (s.expServed port x).performReq r .clean) := by
  change execExpanderResponse port false false s = _
  cases x <;> simp [execExpanderResponse, h]

/-- EXPANDER_TIMEOUT of the only item at a port, a Lap after its issue: the port fails, and the item is ended. -/
theorem expanderTimeout_ends {s : State} {port : Nat} {x : ExpItem} (h : s.expItems port = [x]) (ht : x.tick + s.lapTicks ≤ s.tb) :
    exec (.expanderTimeout port) s = .next (match x with
      | .read q => (s.portFails port).expAnswer q true
      | .write r => (s.portFails port).performReq r .clean) := by
  change execExpanderTimeout port s = _
  cases x <;> simp [execExpanderTimeout, h, ht, leastBy]

theorem expander_idle {s : State} {port : Nat} (h : s.expItems port = []) :
    exec (.expanderResponse port false false) s = .next s ∧ exec (.expanderTimeout port) s = .next s := by
  constructor
  · change execExpanderResponse port false false s = _
    simp [execExpanderResponse, State.expChoice, h, leastBy]
  · change execExpanderTimeout port s = _
    simp [execExpanderTimeout, h, leastBy]

theorem memoryUpkeep_complete : Claims.MemoryUpkeepComplete := by
  intro s
  refine ⟨fun ch re u hup hok hgood hnow hnew => ?_, fun word hc hfree => ?_, fun port q => expanderResponse_serves,
    fun port r => expanderResponse_serves, fun port q => expanderTimeout_ends, fun port r => expanderTimeout_ends,
    fun port => expander_idle⟩
  · exact maintenanceWindow_once (by simp [State.inWindow, hup, hok, hnow, hnew]) hgood re u
  · obtain ⟨t, hexec, hhealth, hrest⟩ := writeBack_mends hc hfree
    rw [← hhealth] at hrest
    refine ⟨t, hexec, ?_, fun k hk => ?_, hrest⟩ <;> rw [hhealth]
    · exact SMap.get_set_self _ _ _ _
    · exact SMap.get_set_ne _ _ _ _ _ _ hk

/-- Settles O26: the targets by what their arbiters choose, the upkeep by the case that each command stands in. -/
theorem targetsAndUpkeep : Obligations.TargetsAndUpkeep := ⟨targets_complete, memoryUpkeep_complete⟩

end Sys2Proof.Machine

/-!
PROOFS. Floating-point arithmetic (R265 to R274): what an operation on two operands gives when one of them is a NaN, what zeros and
finite non-zero numbers decode to, and Table 8.4. Settles O9 and O8.
-/
namespace Sys2Proof.Machine

/-! ### NaN operands (R268) -/

/-- A NaN first operand is the one that comes back; NV is raised by either operand's signalling. -/
theorem FFmt.nanOf_pair_of_isNan_left {t : FFmt} {a : Nat} (b : Nat) (ha : t.isNan a = true) :
    t.nanOf [a, b] = some (t.quiet a, ⟨t.isSnan a || t.isSnan b, false, false, false, false⟩) := by
  cases hs : t.isSnan a || t.isSnan b <;> simp [FFmt.nanOf, ha, hs, FFlags.invalid, FFlags.none]

theorem FFmt.nanOf_pair_of_isNan_right {t : FFmt} {a b : Nat} (ha : t.isNan a = false) (hb : t.isNan b = true) :
    t.nanOf [a, b] = some (t.quiet b, ⟨t.isSnan b, false, false, false, false⟩) := by
  have hsa : t.isSnan a = false := by simp [FFmt.isSnan, ha]
  cases hs : t.isSnan b <;> simp [FFmt.nanOf, ha, hb, hsa, hs, FFlags.invalid, FFlags.none]

theorem FFmt.nanOf_pair_of_no_nan {t : FFmt} {a b : Nat} (ha : t.isNan a = false) (hb : t.isNan b = false) :
    t.nanOf [a, b] = none := by
  simp [FFmt.nanOf, ha, hb]

/-- Addition, subtraction, multiplication and division look for a NaN operand before anything else. -/
theorem FFmt.arith_of_nanOf {t : FFmt} {env : FEnv} {a b : Nat} {r : Nat × FFlags} (h : t.nanOf [a, b] = some r) :
    ∀ op ∈ [t.add, t.sub, t.mul, t.div], op env a b = r := by
  simp [FFmt.add, FFmt.sub, FFmt.mul, FFmt.div, h]

/-! ### Zeros and finite numbers (R267, R269) -/

theorem FFmt.isNan_eq_false_iff {t : FFmt} {x : Nat} : t.isNan x = false ↔ x % t.signBit ≤ t.infBits := by
  simp [FFmt.isNan]

theorem FFmt.isNan_zero {t : FFmt} {x : Nat} (hx : x % t.signBit = 0) : t.isNan x = false :=
  FFmt.isNan_eq_false_iff.2 (hx.le.trans (Nat.zero_le _))

theorem FFmt.decode_zero {t : FFmt} (ht : 0 < t.infBits) (daz : Bool) {x : Nat} (hx : x % t.signBit = 0) :
    t.decode daz x = .num (t.sign x) 0 t.qmin := by
  simp [FFmt.decode, hx, ht.ne]

/-- Without DAZ, a finite number that is not a zero has a significand that is not 0: a subnormal's fraction, or a normal number's
fraction under its leading bit. -/
theorem FFmt.decode_finite {t : FFmt} {x : Nat} (h0 : 0 < x % t.signBit) (hfin : x % t.signBit < t.infBits) :
    ∃ m e, m ≠ 0 ∧ t.decode false x = .num (t.sign x) m e := by
  by_cases hexp : x % t.signBit / 2 ^ t.frac = 0
  · have hfrac : x % t.signBit % 2 ^ t.frac ≠ 0 := by
      rw [Nat.mod_eq_of_lt (by simpa using hexp)]
      exact h0.ne'
    exact ⟨_, t.qmin, hfrac, by simp [FFmt.decode, hfin.ne, hfin.le.not_gt, hexp]⟩
  · have hlead : x % t.signBit % 2 ^ t.frac + 2 ^ t.frac ≠ 0 := by positivity
    exact ⟨_, t.qmin + (x % t.signBit / 2 ^ t.frac : Nat) - 1, hlead, by
      simp [FFmt.decode, hfin.ne, hfin.le.not_gt, hexp]⟩

/-! ### Division of and by a zero (R269) -/

theorem FFmt.div_zero_zero {t : FFmt} (ht : 0 < t.infBits) (env : FEnv) {a b : Nat} (ha : a % t.signBit = 0)
    (hb : b % t.signBit = 0) : t.div env a b = (t.defNan, FFlags.invalid) := by
  have hnan : t.nanOf [a, b] = none := FFmt.nanOf_pair_of_no_nan (FFmt.isNan_zero ha) (FFmt.isNan_zero hb)
  simp [FFmt.div, hnan, FFmt.decode_zero ht env.daz ha, FFmt.decode_zero ht env.daz hb]

theorem FFmt.div_finite_zero {t : FFmt} {env : FEnv} (henv : env.daz = false) {a b : Nat} (h0 : 0 < a % t.signBit)
    (hfin : a % t.signBit < t.infBits) (hb : b % t.signBit = 0) :
    t.div env a b = (t.withSign (t.sign a != t.sign b) t.infBits, ⟨false, true, false, false, false⟩) := by
  obtain ⟨m, e, hm, hdec⟩ := FFmt.decode_finite h0 hfin
  have hnan : t.nanOf [a, b] = none :=
    FFmt.nanOf_pair_of_no_nan (FFmt.isNan_eq_false_iff.2 hfin.le) (FFmt.isNan_zero hb)
  simp [FFmt.div, hnan, henv, hdec, hm, FFmt.decode_zero (h0.trans hfin) false hb]

/-- Settles O9: a NaN operand by the operations' common first test, a zero divisor by what its operands decode to. -/
theorem nanAndZeroRules : Obligations.NanAndZeroRules := by
  intro t ht env a b _ _
  have hinf : 0 < t.infBits := by rcases ht with rfl | rfl <;> decide
  exact ⟨fun ha => FFmt.arith_of_nanOf (FFmt.nanOf_pair_of_isNan_left b ha),
    fun ha hb => FFmt.arith_of_nanOf (FFmt.nanOf_pair_of_isNan_right ha hb),
    FFmt.div_zero_zero hinf env, fun henv => FFmt.div_finite_zero henv⟩

/-! ### Table 8.4 (R272) -/

/-- Settles O8: each row of the table by evaluation under the four rounding directions. -/
theorem binary64Extremes : Obligations.Binary64Extremes := by
  unfold Obligations.Binary64Extremes
  and_intros <;> decide +kernel

end Sys2Proof.Machine

/-!
PROOFS. Requests at their targets (R244, R245, R289, R306, R311) and reads of a Home Bank (R26): what a write and an atomic put, what
a source sees of its own posted requests, and a read in which no unit has found an error. Settles O25.
-/
namespace Sys2Proof.Machine

/-! ### The bytes that a request puts (R244, R245, R289, R306) -/

/-- Where no address is named twice, each cell put reads as its byte. -/
theorem get_putCells_mem (m : SMap Byte) {cs : List (Nat × Byte)} (hnd : (cs.map (fun c => c.1)).Nodup) {c : Nat × Byte}
    (hc : c ∈ cs) : SMap.get 0 (putCells m cs) c.1 = c.2 := by
  induction cs generalizing m with
  | nil => simp at hc
  | cons d t ih =>
    obtain ⟨hd, ht⟩ := List.nodup_cons.1 hnd
    change SMap.get 0 (putCells (SMap.set 0 m d.1 d.2) t) c.1 = c.2
    rcases List.mem_cons.1 hc with rfl | hc
    · have hlater : ∀ x ∈ t, x.1 ≠ c.1 := fun x hx h => hd (List.mem_map.2 ⟨x, hx, h⟩)
      rw [get_putCells_ne _ _ _ hlater, SMap.get_set_self]
    · exact ih _ ht hc

/-- The word of an atomic, put and read again. -/
theorem word8_putCells (m : SMap Byte) (off x : Nat) : word8 (putCells m (cellsAt off (leBytes 8 x))) off = x % 2 ^ 64 := by
  have h := getBytes_putCells m off (leBytes 8 x)
  rw [length_leBytes] at h
  rw [word8, h, ofLe_leBytes]
  norm_num

theorem Memory.apply_write_mem {m : Memory} {r : MemReq} {cs : List (Nat × Byte)} (hr : r.op = .write cs)
    (h : (m.apply r).2 = false) : (m.apply r).1.mem = putCells m.mem cs := by
  unfold Memory.apply at h ⊢
  rw [hr] at h ⊢
  dsimp only at h ⊢
  split_ifs at h ⊢
  rfl

theorem Memory.apply_atomic_mem {m : Memory} {r : MemReq} (hr : r.op.isAtomic = true)
    (h : SMap.get Health.good m.health (healthKey r.off) ≠ .poisoned) :
    (m.apply r).1.mem = putCells m.mem (cellsAt r.off (leBytes 8 (r.op.result (word8 m.mem r.off)))) := by
  unfold Memory.apply
  cases hop : r.op with
  | write cs => rw [hop] at hr; cases hr
  | iadd v | fadd v rm ftz daz | swap v id => simp only [if_neg h]

/-- A request that meets poison leaves memory as it is. -/
theorem Memory.apply_poisoned {m : Memory} {r : MemReq} (h : (m.apply r).2 = true) : (m.apply r).1 = m := by
  unfold Memory.apply at h ⊢
  cases hop : r.op with
  | write cs =>
    rw [hop] at h
    dsimp only at h ⊢
    split_ifs at h ⊢
    rfl
  | iadd v | fadd v rm ftz daz | swap v id =>
    rw [hop] at h
    dsimp only at h ⊢
    split_ifs at h ⊢
    rfl

/-- What an atomic stores in its word. -/
theorem Memory.word8_apply {m : Memory} {r : MemReq} (hr : r.op.isAtomic = true)
    (h : SMap.get Health.good m.health (healthKey r.off) ≠ .poisoned) :
    word8 (m.apply r).1.mem r.off = r.op.result (word8 m.mem r.off) % 2 ^ 64 := by
  rw [Memory.apply_atomic_mem hr h, word8_putCells]

theorem MemReq.covers_write {r : MemReq} {cs : List (Nat × Byte)} (hr : r.op = .write cs) {o : Nat}
    (ho : o ∉ cs.map (fun c => c.1)) : r.covers o = false := by
  rw [MemReq.covers, hr]
  exact List.any_eq_false.2 fun c hc h => ho (List.mem_map.2 ⟨c, hc, of_decide_eq_true h⟩)

theorem MemReq.covers_atomic {r : MemReq} (hr : r.op.isAtomic = true) {o : Nat} (ho : o < r.off ∨ r.off + 8 ≤ o) :
    r.covers o = false := by
  have hout : (decide (r.off ≤ o) && decide (o < r.off + 8)) = false := by
    rw [Bool.and_eq_false_iff, decide_eq_false_iff_not, decide_eq_false_iff_not]
    omega
  unfold MemReq.covers
  cases hop : r.op with
  | write cs => rw [hop] at hr; cases hr
  | iadd v | fadd v rm ftz daz | swap v id => exact hout

/-- A write that meets no poison puts its bytes and no others. -/
theorem Memory.get_apply_write {m : Memory} {r : MemReq} {cs : List (Nat × Byte)} (hr : r.op = .write cs)
    (hnd : (cs.map (fun c => c.1)).Nodup) (h : (m.apply r).2 = false) :
    (∀ c ∈ cs, SMap.get 0 (m.apply r).1.mem c.1 = c.2) ∧
    (∀ o, o ∉ cs.map (fun c => c.1) → SMap.get 0 (m.apply r).1.mem o = SMap.get 0 m.mem o) := by
  refine ⟨fun c hc => ?_, fun o ho => m.get_apply_ne r o (MemReq.covers_write hr ho)⟩
  rw [Memory.apply_write_mem hr h]
  exact get_putCells_mem m.mem hnd hc

theorem request_performed : Claims.RequestPerformed := by
  intro m r
  refine ⟨fun cs => Memory.get_apply_write, fun hgood => ⟨fun v hr => ?iadd, fun v rm ftz daz hr => ?fadd, fun v x hr => ?swap,
    fun hr o ho => m.get_apply_ne r o (MemReq.covers_atomic hr ho)⟩, Memory.apply_poisoned⟩
  case iadd =>
    rw [Memory.word8_apply (by rw [hr]; rfl) hgood, hr]
    apply BitVec.eq_of_toNat_eq
    simp [MemOp.result]
  case fadd => rw [Memory.word8_apply (by rw [hr]; rfl) hgood, hr]; rfl
  case swap =>
    rw [Memory.word8_apply (by rw [hr]; rfl) hgood, hr]
    exact Nat.mod_eq_of_lt v.isLt

/-! ### Own requests first (R311) -/

/-- What a request does at its target does not depend on the requests that wait. -/
theorem Memory.apply_memq (m : Memory) (q : List MemReq) (r : MemReq) :
    (({ m with memq := q } : Memory).apply r).1 = { (m.apply r).1 with memq := q } := by
  unfold Memory.apply
  cases r.op with
  | write cs => dsimp only; split <;> rfl
  | iadd v | fadd v rm ftz daz | swap v id => dsimp only; split <;> rfl

theorem Memory.foldl_apply_memq (l : List MemReq) (m : Memory) (q : List MemReq) :
    l.foldl (fun m r => (m.apply r).1) { m with memq := q } = { l.foldl (fun m r => (m.apply r).1) m with memq := q } := by
  induction l generalizing m with
  | nil => rfl
  | cons r t ih => rw [List.foldl_cons, List.foldl_cons, Memory.apply_memq, ih]

/-- A source sees the request that it posts last performed on what it saw before. -/
theorem Memory.seenBy_append_own (m : Memory) (r : MemReq) :
    (({ m with memq := m.memq ++ [r] } : Memory).seenBy r.src).mem = ((m.seenBy r.src).apply r).1.mem := by
  have hown : (m.memq ++ [r]).filter (fun x => x.src = r.src) = m.memq.filter (fun x => x.src = r.src) ++ [r] := by simp
  rw [Memory.seenBy, hown, Memory.foldl_apply_memq, List.foldl_append]
  rfl

theorem own_stores_seen_first : Claims.OwnStoresSeenFirst := by
  intro m r cs hr hnd hok
  dsimp only
  rw [Memory.seenBy_append_own]
  exact Memory.get_apply_write hr hnd hok

/-! ### A clean read of a Home Bank (R26) -/

/-- The places at which a read looks at its units lie in the bytes that it reads. -/
theorem touched_range {unit off n o : Nat} (hn : 0 < n) (h : o ∈ touched unit off n) : off ≤ o ∧ o < off + n := by
  obtain ⟨i, hi, rfl⟩ := List.mem_map.1 h
  have hi : off / unit + i ≤ (off + n - 1) / unit := by have := List.mem_range.1 hi; omega
  have hlast : (off / unit + i) * unit ≤ off + n - 1 := (Nat.mul_le_mul_right unit hi).trans (Nat.div_mul_le_self _ _)
  exact ⟨Nat.le_max_left _ _, Nat.max_lt.2 ⟨by omega, by omega⟩⟩

/-- A look at a Home Bank that has found no error leaves the state. -/
theorem State.takeFound_bank {s : State} (hf : s.m.found = []) {off b : Nat} (ht : s.tier off = .bank b) :
    s.takeFound off = (s, false) := by
  simp [State.takeFound, State.lineHeld, ht, hf, SMap.get]

/-- One more look of a read at a unit: the state after it, and whether any look so far found bad data. -/
def State.look (a : State × Bool) (o : Nat) : State × Bool := ((a.1.takeFound o).1, a.2 || (a.1.takeFound o).2)

/-- Looks at Home Banks that have found no error leave the state. -/
theorem State.foldl_look_bank {s : State} (hf : s.m.found = []) {b : Nat} {l : List Nat} (h : ∀ o ∈ l, s.tier o = .bank b) :
    l.foldl State.look (s, false) = (s, false) := by
  induction l with
  | nil => rfl
  | cons o t ih =>
    rw [List.foldl_cons, State.look, State.takeFound_bank hf (h o List.mem_cons_self)]
    exact ih fun x hx => h x (List.mem_cons_of_mem _ hx)

/-- A read that answers leaves the state that its looks at the units leave. -/
theorem State.readLocal_ok_state {s t : State} {src : Src} {off n : Nat} {bs : List Byte}
    (h : s.readLocal src off n = (t, .ok, bs)) : t = ((touched 16 off n).foldl State.look (s, false)).1 := by
  unfold State.readLocal at h
  split at h
  · cases h
  · split at h
    case h_1 s1 bad hlooks =>
      rw [show (touched 16 off n).foldl State.look (s, false) = (s1, bad) from hlooks]
      dsimp only at h
      split at h
      case isTrue => cases h
      split at h
      case isTrue => cases h
      split at h
      case h_1 => cases h
      case h_2 => cases h; rfl

theorem clean_read : Claims.CleanRead := by
  intro s src b off n hn hfirst hlast hall hfound hhealth hq
  obtain ⟨d, hread⟩ := State.readLocal_clean src hhealth hfound hq (by rw [hfirst]; rfl) (by rw [hfirst]; rfl) (by rw [hlast]; rfl)
  have hbanks : ∀ o ∈ touched 16 off n, s.tier o = .bank b := fun o ho => by
    obtain ⟨hlo, hhi⟩ := touched_range hn ho
    obtain ⟨i, rfl⟩ := Nat.exists_eq_add_of_le hlo
    exact hall i (by omega)
  have hstate := State.readLocal_ok_state hread
  rw [State.foldl_look_bank hfound hbanks] at hstate
  have hbytes : (List.range n).map (fun i => s.byteIn s.m (off + i)) = (List.range n).map (fun i => SMap.get 0 s.m.mem (off + i)) :=
    List.map_congr_left fun i hi => by rw [State.byteIn, hall i (List.mem_range.1 hi)]
  rw [hread, hstate, hbytes]

/-- Settles O25: what a request puts by the equation of its kind, own requests as one more performed on what the source saw, a clean
read by the units that it looks at. -/
theorem requestsPerformed : Obligations.RequestsPerformed := ⟨own_stores_seen_first, request_performed, clean_read⟩

end Sys2Proof.Machine

/-!
PROOFS. Invalidation and translation (R321 to R338): what TLBI removes and keeps, what a hit leads to, and what a walk leaves in the
TLBs or in its walker. Settles O17 and O27.
-/
namespace Sys2Proof.Machine

/-! ### TLBI (R336 to R338) -/

/-- The slots that TLBI names by its scope, its address and its context (Table 10.6). -/
def tlbiNames (sub : BitVec 3) (g : W64) (y : Slot) : Bool :=
  if sub = 1 then !y.g && y.ctx = g.setWidth 16
  else if sub = 2 then true
  else pageSel ((g.extractLsb' 16 39).toNat * 2 ^ 16) (g.setWidth 16) y

/-- Scope PAGE, and with it scope 3, drops the slots that it names. -/
theorem Engine.tlbi_page (x : Engine) {sub : BitVec 3} (g : W64) (h1 : sub ≠ 1) (h2 : sub ≠ 2) :
    x.tlbi 0 g = x.dropSlots (tlbiNames sub g) := by
  have hsel : tlbiNames sub g = pageSel (bitsOf g.toNat 54 16 * 2 ^ 16) (g.setWidth 16) := by
    funext y
    rw [tlbiNames, if_neg h1, if_neg h2, extractLsb'_eq_bitsOf g 16 38]
  rw [hsel]
  rfl

/-- Scopes PAGE, CONTEXT and ALL drop the slots that they name. -/
theorem Engine.tlbi_eq_dropSlots (x : Engine) {sub : BitVec 3} (g : W64) (h : sub.toNat < 3) :
    x.tlbi sub.toNat g = x.dropSlots (tlbiNames sub g) := by
  obtain h0 | h0 | h0 : sub.toNat = 0 ∨ sub.toNat = 1 ∨ sub.toNat = 2 := by omega
  · obtain rfl : sub = 0 := BitVec.eq_of_toNat_eq h0
    exact x.tlbi_page g (by decide) (by decide)
  · obtain rfl : sub = 1 := BitVec.eq_of_toNat_eq h0
    rfl
  · obtain rfl : sub = 2 := BitVec.eq_of_toNat_eq h0
    rfl

/-- What dropping slots leaves in a set of the second-level TLB. -/
theorem Engine.mem_l2_dropSlots (x : Engine) (sel : Slot → Bool) (k : Nat) (y : Slot) :
    y ∈ SMap.get [] (x.dropSlots sel).l2 k ↔ y ∈ SMap.get [] x.l2 k ∧ sel y = false := by
  rw [Engine.dropSlots, SMap.get_remap [] [] _ x.l2 k rfl, List.mem_filter, Bool.not_eq_true']

/-- Retirement leaves the TLBs, and the Lap of a Domain invalidation, as they are. -/
theorem Engine.retired_tlbs (x : Engine) (op len : Nat) (c : Ctl) :
    (x.retired op len c).itlb = x.itlb ∧ (x.retired op len c).dtlb = x.dtlb ∧ (x.retired op len c).l2 = x.l2 ∧
      (x.retired op len c).tsyncLap = x.tsyncLap := by
  rw [(x.retired_units op len c).1]
  exact ⟨rfl, rfl, rfl, rfl⟩

/-- An engine cycle, dropped slots and retirement: what of the engine is left. -/
theorem State.retire_dropSlots {s u : State} {e op len : Nat} {sel : Slot → Bool} {lap : Option Nat}
    (hu : u.eng e = { ((s.cycle e).eng e).dropSlots sel with tsyncLap := lap }) :
    ((u.retire e op len .next).eng e).itlb = (s.eng e).itlb.filter (fun y => !sel y) ∧
    ((u.retire e op len .next).eng e).dtlb = (s.eng e).dtlb.filter (fun y => !sel y) ∧
    (∀ k y, y ∈ SMap.get [] ((u.retire e op len .next).eng e).l2 k ↔ y ∈ SMap.get [] (s.eng e).l2 k ∧ sel y = false) ∧
    ((u.retire e op len .next).eng e).arch = (s.eng e).arch.held.retire len .next ∧
    ((u.retire e op len .next).eng e).tsyncLap = lap := by
  obtain ⟨hi, hd, h2, ht⟩ := (u.eng e).retired_tlbs op len .next
  rw [State.eng_retire, hi, hd, h2, ht, Engine.retired_arch, hu, State.eng_cycle]
  exact ⟨rfl, rfl, (s.eng e).mem_l2_dropSlots sel, rfl, rfl⟩

/-- TLBI of the Domain in this part: the engine drops the slots of the page and waits for the Domain, and the other engines have
the invalidation before them. -/
def State.domainSwept (s : State) (e : Nat) (g : W64) : State :=
  { s.updEng e (fun x => { x.tlbi 0 g with tsyncLap := some s.lap }) with
    tlbi := s.tlbi ++ [(s.lap + 2, bitsOf g.toNat 54 16 * 2 ^ 16, g.setWidth 16)] }

theorem State.eng_domainSwept (s : State) (e : Nat) {sub : BitVec 3} (g : W64) (h : sub = 3) :
    (s.domainSwept e g).eng e = { (s.eng e).dropSlots (tlbiNames sub g) with tsyncLap := some s.lap } := by
  rw [← Engine.tlbi_page _ g (by rw [h]; decide) (by rw [h]; decide)]
  exact s.eng_updEng e (fun x => { x.tlbi 0 g with tsyncLap := some s.lap })

theorem State.onlyEng_domainSwept (s : State) (e : Nat) (g : W64) : OnlyEng s (s.domainSwept e g) e :=
  OnlyEng.updEng s e (fun x => { x.tlbi 0 g with tsyncLap := some s.lap })

section
variable {s : State} {e : Nat} {p : Pfx} {f : FmtG}

/-- TLBI of the engine's own TLBs. -/
theorem State.exec_tlbi_own (he : e < 512) (hsub : f.sub.toNat < 3) (hex : s.executes e p 0x14 0 = true) :
    exec (.tlbi e p f) s = .next (((s.cycle e).updEng e (fun x => x.dropSlots
      (tlbiNames f.sub ((s.eng e).arch.rdG f.g.toNat)))).retire e 0x14 (pLen p 0x14) .next) := by
  have h0 : must0 [f.sub.toNat / 4] = 0 := by simp only [must0_iff, List.mem_singleton]; omega
  have hmod : f.sub.toNat % 4 = f.sub.toNat := Nat.mod_eq_of_lt (by omega)
  refine congrArg Host.Outcome.next (State.scalar_done (bad := fun _ => must0 [f.sub.toNat / 4]) (by rw [h0]; exact hex) ?_)
  simp only [State.eng_cycle, Arch.held_rdG, hmod, if_neg (Nat.not_le.2 he), if_pos hsub, Engine.tlbi_eq_dropSlots _ _ hsub]

/-- TLBI of the Domain: besides the engine, the invalidation to come and the message to the ring's other parts. -/
theorem State.exec_tlbi_domain (he : e < 512) (hsub : f.sub = 3) (hex : s.executes e p 0x14 0 = true) {g : W64}
    (hg : (s.eng e).arch.rdG f.g.toNat = g) :
    exec (.tlbi e p f) s = .next ((((s.cycle e).domainSwept e g).sendCtl [BitVec.ofNat 64 (s.lap % 256 * 256 + 0x02),
      BitVec.ofNat 64 (bitsOf g.toNat 54 16 * 2 ^ 16 + g.toNat % 65536)]).retire e 0x14 (pLen p 0x14) .next) := by
  have h0 : must0 [f.sub.toNat / 4] = 0 := by rw [hsub]; rfl
  have hg' : ((s.cycle e).eng e).arch.rdG f.g.toNat = g := by rw [State.eng_cycle]; exact hg
  refine congrArg Host.Outcome.next (State.scalar_done (bad := fun _ => must0 [f.sub.toNat / 4]) (by rw [h0]; exact hex) ?_)
  rw [← hg', ← s.lap_cycle e]
  exact (if_neg (Nat.not_le.2 he)).trans (if_neg (by rw [hsub]; decide))
end

/-- Settles O17: an own invalidation drops the slots it names and retires; a Domain one also files its message. -/
theorem tlbiComplete : Obligations.TlbiComplete := by
  intro s e p f he hsub hex x g va gone
  by_cases h3 : f.sub.toNat < 3
  · obtain ⟨u, hu⟩ : ∃ u, u = (s.cycle e).updEng e (fun x => x.dropSlots (tlbiNames f.sub g)) := ⟨_, rfl⟩
    have hexec := State.exec_tlbi_own he h3 hex
    rw [← hu] at hexec
    have htouch : Touches s (u.retire e 0x14 (pLen p 0x14) .next) e := by
      rw [hu]
      exact (s.touches_cycle e).trans ((State.touches_updEng _ e _).trans (State.touches_retire ..))
    obtain ⟨hi, hd, h2, ha, ht⟩ := State.retire_dropSlots (s := s) (u := u) (op := 0x14) (len := pLen p 0x14)
      (sel := tlbiNames f.sub g) (lap := x.tsyncLap) (by rw [hu, State.eng_updEng, State.eng_cycle]; rfl)
    refine ⟨_, hexec, hi, hd, h2, ha, htouch.2.1, (congrArg State.m htouch.1 :), fun _ => ⟨htouch, ht⟩, fun h => ?_⟩
    rw [h] at h3
    exact absurd h3 (by decide)
  · have hsub3 : f.sub = 3 := BitVec.eq_of_toNat_eq (Nat.le_antisymm (Nat.le_of_lt_succ hsub) (Nat.not_lt.1 h3))
    obtain ⟨u, hu⟩ : ∃ u, u = ((s.cycle e).domainSwept e g).sendCtl [BitVec.ofNat 64 (s.lap % 256 * 256 + 0x02),
      BitVec.ofNat 64 (bitsOf g.toNat 54 16 * 2 ^ 16 + g.toNat % 65536)] := ⟨_, rfl⟩
    have hexec := State.exec_tlbi_domain he hsub3 hex (g := g) rfl
    have hfiled : Filed ((s.cycle e).domainSwept e g) u := by rw [hu]; exact Filed.sendCtl ..
    rw [← hu] at hexec
    obtain ⟨hi, hd, h2, ha, ht⟩ := State.retire_dropSlots (s := s) (u := u) (op := 0x14) (len := pLen p 0x14)
      (sel := tlbiNames f.sub g) (lap := some s.lap)
      (by rw [hfiled.eng, State.eng_domainSwept _ _ _ hsub3, State.lap_cycle])
    obtain ⟨hframe, honly, -⟩ := u.touches_retire e 0x14 (pLen p 0x14) .next
    have hothers : OnlyEng s u e := ((s.touches_cycle e).2.1.trans (State.onlyEng_domainSwept _ e g)).trans
      (OnlyEng.of_engines hfiled.engines e)
    have htlbi : u.tlbi = s.tlbi ++ [(s.lap + 2, va, g.setWidth 16)] := by
      have hcycle : (s.cycle e).tlbi = s.tlbi := (congrArg State.tlbi (s.cycle_frame e).1 :)
      have hva : va = bitsOf g.toNat 54 16 * 2 ^ 16 := congrArg (· * 2 ^ 16) (extractLsb'_eq_bitsOf g 16 38)
      rw [hfiled.tlbi, State.domainSwept, hcycle, State.lap_cycle, hva]
    exact ⟨_, hexec, hi, hd, h2, ha, hothers.trans honly,
      (congrArg State.m hframe :).trans (hfiled.m.trans (s.m_cycle e)), fun h => absurd h h3,
      fun _ => ⟨ht, (congrArg State.tlbi hframe :).trans htlbi⟩⟩

/-! ### A translation that hits (R321, R328, R329) -/

/-- The checks of a slot for an access that is no atomic, in the order of R328 and R329. -/
theorem Slot.check_plain (y : Slot) (a : Acc) (user : Bool) (pkr : BitVec 32) {xl : Nat}
    (hxl : xl = if a = .fetch then 0x01 else 0x08) : y.check a false user pkr =
      if user = true ∧ y.u = false then some (xl, 0x30)
      else if a = .write ∧ y.w = false then some (xl, 0x31)
      else if a = .fetch ∧ y.x = false then some (xl, 0x32)
      else if user = true ∧ (a = .read ∧ pkr.getLsbD (2 * y.key.toNat) = true ∨
          a = .write ∧ pkr.getLsbD (2 * y.key.toNat + 1) = true) then some (0x09, y.key.toNat)
      else none := by
  cases a <;> cases user <;> simp [Slot.check, hxl]

theorem translation_by_hit : Claims.TranslationByHit := by
  intro s e k va a user pkr y x hva hlook xl
  have htrans : s.translate e k a false user pkr va = (s.setEng e x,
      match y.check a false user pkr with
      | some t => Xl.trap t.1 t.2
      | none => Xl.dpa (y.oa + (va - y.vbase))) := by
    unfold State.translate
    simp only [if_neg (Nat.not_le.2 hva), hlook]
    cases y.check a false user pkr <;> rfl
  refine ⟨by rw [htrans], ?_⟩
  rw [htrans, y.check_plain a user pkr (xl := xl) rfl]
  split_ifs <;> rfl

/-! ### Lookups and fills (R331, R332) -/

theorem bestSlot_eq_none (l : List Slot) : bestSlot l = none ↔ l = [] := by
  cases l with
  | nil => exact ⟨fun _ => rfl, fun _ => rfl⟩
  | cons x t =>
    rw [bestSlot]
    split <;> simp

/-- A lookup of an address that a slot of the requester's TLB holds finds a slot. -/
theorem Engine.lookup_ne_none {x : Engine} {f : Bool} {va : Nat} {y : Slot} (hmem : y ∈ x.l1 f)
    (hhit : y.hits va x.arch.ctxid = true) : x.lookup f va ≠ none := by
  have hbest : bestSlot ((x.l1 f).filter (fun y => y.hits va x.arch.ctxid)) ≠ none := fun h =>
    List.ne_nil_of_mem (List.mem_filter.2 ⟨hmem, hhit⟩) ((bestSlot_eq_none _).1 h)
  obtain ⟨z, hz⟩ := Option.ne_none_iff_exists'.1 hbest
  rw [Engine.lookup, hz]
  exact Option.some_ne_none _

/-- A filled slot stands in the TLB of its requester. -/
theorem Engine.mem_l1_fill (x : Engine) (f : Bool) (y : Slot) : y ∈ (x.fill f y).l1 f := by
  cases f <;> exact List.mem_cons_self

/-! ### WALK (R324 to R326) -/

/-- Engine `e` with other tables in force (R208). -/
def State.underTables (s : State) (e : Nat) (c : BitVec 16 × W64) : State :=
  s.updEng e (fun x => { x with arch := { x.arch with ctxid := c.1, ttb := c.2 } })

@[simp] theorem State.eng_underTables (s : State) (e : Nat) (c : BitVec 16 × W64) :
    (s.underTables e c).eng e = { s.eng e with arch := { (s.eng e).arch with ctxid := c.1, ttb := c.2 } } :=
  s.eng_updEng e _

theorem State.onlyEng_underTables (s : State) (e : Nat) (c : BitVec 16 × W64) : OnlyEng s (s.underTables e c) e :=
  OnlyEng.updEng s e _

@[simp] theorem State.walk_underTables (s : State) (e k : Nat) (c : BitVec 16 × W64) :
    (s.underTables e c).walk e k = s.walk e k := by
  rw [State.walk, State.eng_underTables]; rfl

@[simp] theorem State.walk_setWalk (s : State) (e k : Nat) (w : Option Walk) : (s.setWalk e k w).walk e k = w := by
  rw [State.walk, State.setWalk, State.eng_updEng]
  exact SMap.get_set_self ..

/-- Walker 0 is that of fetch (R326). -/
theorem walkerNum_eq_zero (k : Walker) : decide (walkerNum k = 0) = decide (k = .fetch) := by
  cases k <;> rfl

/-- A walk that ends in a slot has filled the TLB of its requester. -/
theorem State.mem_l1_runWalk {s s2 : State} {e k : Nat} {w : Walk} {y : Slot} (h : s.runWalk e k w = (s2, .slot y)) :
    y ∈ (s2.eng e).l1 (k = 0) := by
  unfold State.runWalk at h
  split at h
  case h_1 s1 z _ =>
    cases h
    rw [State.setWalk, State.eng_updEng, State.eng_updEng]
    exact Engine.mem_l1_fill ..
  case h_2 => cases h
  case h_3 => cases h

theorem State.mem_l1_beginWalk {s s2 : State} {e k va : Nat} {ctx : BitVec 16} {ttb : W64} {y : Slot}
    (h : s.beginWalk e k ctx ttb va = (s2, .slot y)) : y ∈ (s2.eng e).l1 (k = 0) := by
  unfold State.beginWalk at h
  dsimp only at h
  split at h
  case isTrue => cases h
  case isFalse => exact State.mem_l1_runWalk h

theorem State.doWalk_idle {s : State} {e k : Nat} (h : s.walk e k = none) (ctx : BitVec 16) (ttb : W64) (va : Nat) :
    s.doWalk e k ctx ttb va = s.beginWalk e k ctx ttb va := by
  rw [State.doWalk, h]

theorem State.withXlate_fst {α : Type} (s : State) (e : Nat) (ctx : BitVec 16) (ttb : W64) (f : State → State × α) :
    (s.withXlate e ctx ttb f).1 =
      (f (s.underTables e (ctx, ttb))).1.underTables e ((s.eng e).arch.ctxid, (s.eng e).arch.ttb) := rfl

/-- What WALK does under the tables of its request: nothing where it hits a TLB, and else its walk. -/
def State.walkUnlessHit (s : State) (e : Nat) (k : Walker) (c : BitVec 16 × W64) (n : Nat) : State :=
  match (s.eng e).lookup (k = Walker.fetch) n with
  | some _ => s
  | none => s.walkAhead e (walkerNum k) c.1 c.2 n

/-- WALK of a placement outside Escalation acts under the tables of its request, and those of the engine come back. -/
theorem State.exec_walk {s : State} {e : Nat} {va : BitVec 64} {k : Walker} (he : e < 512)
    (hp : (s.eng e).place.isSome = true) (hesc : (s.eng e).arch.escact = false) (hva : va.toNat < 2 ^ 55)
    {c : BitVec 16 × W64} (hc : (s.eng e).walkTables k = c) :
    exec (.walk e va k false) s = .next (((s.underTables e c).walkUnlessHit e k c va.toNat).underTables e
      ((s.eng e).arch.ctxid, (s.eng e).arch.ttb)) := by
  obtain ⟨ctx, ttb⟩ := c
  have hwalk : exec (.walk e va k false) s = execWalk e va k false s := rfl
  rw [hwalk, execWalk, if_pos ⟨he, hp, by rw [hesc]; rfl, hva⟩]
  simp only [Bool.false_eq_true, if_false, hc, State.withXlate_fst, State.walkUnlessHit]
  cases ((s.underTables e (ctx, ttb)).eng e).lookup (k = Walker.fetch) va.toNat <;> rfl

section
variable {s s2 : State} {e n : Nat} {k : Walker} {c : BitVec 16 × W64}

theorem State.walkUnlessHit_hit {r : Slot × Engine} (hlook : (s.eng e).lookup (k = Walker.fetch) n = some r) :
    s.walkUnlessHit e k c n = s := by
  rw [State.walkUnlessHit, hlook]

variable (hlook : (s.eng e).lookup (k = Walker.fetch) n = none) (hidle : s.walk e (walkerNum k) = none)
include hlook hidle

/-- A walk that an idle walker ends in a slot is all that a miss does. -/
theorem State.walkUnlessHit_slot {y : Slot} (hwalk : s.doWalk e (walkerNum k) c.1 c.2 n = (s2, .slot y)) :
    s.walkUnlessHit e k c n = s2 := by
  simp [State.walkUnlessHit, State.walkAhead, hlook, hidle, hwalk]

/-- A fault that the walk of an idle walker ends in stays with the walker. -/
theorem State.walkUnlessHit_fault {code : Nat} (hwalk : s.doWalk e (walkerNum k) c.1 c.2 n = (s2, .fault code)) :
    s.walkUnlessHit e k c n = s2.setWalk e (walkerNum k) (some ⟨n, c.1, c.2, 1, 0, some code⟩) := by
  simp [State.walkUnlessHit, State.walkAhead, hlook, hidle, hwalk]
end

theorem walk_complete : Claims.WalkComplete := by
  intro s e va k he hp hesc hva c s1
  have hexec := State.exec_walk (k := k) he hp hesc hva rfl
  refine ⟨fun y x hlook => ?_, fun hlook hidle => ?_⟩
  · rw [State.walkUnlessHit_hit (s := s.underTables e c) hlook] at hexec
    refine ⟨_, hexec, fun j => ?_, rfl⟩
    by_cases hj : j = e
    · subst hj
      rw [State.eng_underTables, State.eng_underTables]
    · exact ((s.onlyEng_underTables e c).trans (State.onlyEng_underTables _ e _)) j hj
  · have hidle' : (s.underTables e c).walk e (walkerNum k) = none := (s.walk_underTables e _ c).trans hidle
    refine ⟨fun s2 y hwalk => ?_, fun s2 code hwalk => ?_⟩
    · rw [State.walkUnlessHit_slot (s := s.underTables e c) hlook hidle' hwalk] at hexec
      have hfilled : y ∈ (s2.eng e).l1 (k = Walker.fetch) := by
        rw [← walkerNum_eq_zero]
        exact State.mem_l1_beginWalk ((State.doWalk_idle hidle' ..).symm.trans hwalk)
      have hmem : y ∈ ((s2.underTables e ((s.eng e).arch.ctxid, (s.eng e).arch.ttb)).eng e).l1 (k = Walker.fetch) := by
        rw [State.eng_underTables]; exact hfilled
      exact ⟨_, hexec, rfl, s2.onlyEng_underTables e _, hmem, Engine.lookup_ne_none hmem⟩
    · rw [State.walkUnlessHit_fault (s := s.underTables e c) hlook hidle' hwalk] at hexec
      exact ⟨_, hexec, rfl, (OnlyEng.updEng s2 e _).trans (State.onlyEng_underTables _ e _),
        by rw [State.walk_underTables, State.walk_setWalk]⟩

/-- Settles O27: a hit by the checks of its slot, WALK by where the walk that it begins ends. -/
theorem translation : Obligations.Translation := ⟨translation_by_hit, walk_complete⟩

end Sys2Proof.Machine

/-!
PROOFS. The ring's links (R346 to R356): a port's training state and its register, what a change of it leaves alone, and the
beginning and failure of equalisation.
-/
namespace Sys2Proof.Machine

/-! ### Training states and ports (R351, Table 11.3) -/

/-- The register whose bits 31 to 28 hold a port's training state (Tables 11.19, 12.10). -/
def ltsReg (p : Nat) : RegRef := if p < 2 then Reg.ringPortStat p else Reg.pairStat

theorem ltsReg_off (p : Nat) : (ltsReg p).off = ltsOff p := by
  unfold ltsReg ltsOff
  split <;> rfl

theorem ltsReg_ring {p : Nat} (h : p < 2) : ltsReg p = Reg.ringPortStat p := if_pos h

theorem ltsOff_ring {p : Nat} (h : p < 2) : ltsOff p = 0x800104 + p * 0x100 := if_pos h

theorem State.lts_eq (s : State) (p : Nat) : s.lts p = s.fld (ltsReg p) 31 28 := by
  unfold State.lts ltsReg
  split <;> rfl

theorem State.setLts_eq (s : State) (p v : Nat) : s.setLts p v = s.setFld (ltsReg p) 31 28 v := by
  unfold State.setLts ltsReg
  split <;> rfl

/-- The ports keep their training states apart. -/
theorem ltsOff_ne {p q : Nat} (hp : p < 3) (hq : q < 3) (h : q ≠ p) : ltsOff q ≠ ltsOff p := by
  simp only [ltsOff, Reg.ringPortStat, Reg.pairStat]
  split <;> split <;> omega

theorem State.lts_setLts (s : State) (p : Nat) {v : Nat} (h : v < 16) : (s.setLts p v).lts p = v := by
  rw [State.lts_eq, State.setLts_eq, State.fld_setFld _ _ (by decide) (by decide)]
  exact Nat.mod_eq_of_lt h

theorem OnlyRegs.lts {s t : State} {offs : List Nat} (h : OnlyRegs s t offs) {p : Nat} (hp : ltsOff p ∉ offs) :
    t.lts p = s.lts p := by
  rw [State.lts_eq, State.lts_eq, h.fld (by rwa [ltsReg_off])]

/-- Nothing differs but the register that holds a port's training state. -/
def LtsOnly (s t : State) (p : Nat) : Prop := t = { s with regs := t.regs } ∧ OnlyRegs s t [ltsOff p]

theorem LtsOnly.refl (s : State) (p : Nat) : LtsOnly s s p := ⟨rfl, OnlyRegs.refl s _⟩

theorem LtsOnly.trans {s t u : State} {p : Nat} (h : LtsOnly s t p) (k : LtsOnly t u p) : LtsOnly s u p :=
  ⟨State.regs_trans h.1 k.1, h.2.trans k.2⟩

theorem LtsOnly.setFld (s : State) (p hi lo v : Nat) : LtsOnly s (s.setFld (ltsReg p) hi lo v) p :=
  ⟨rfl, OnlyRegs.wr s (by simp [ltsReg_off]) _⟩

theorem LtsOnly.setLts (s : State) (p v : Nat) : LtsOnly s (s.setLts p v) p := by
  rw [State.setLts_eq]
  exact LtsOnly.setFld s p 31 28 v

theorem LtsOnly.setGen (s : State) (p v : Nat) : LtsOnly s (s.setGen p v) p := by
  unfold State.setGen
  split
  · rename_i h
    rw [← ltsReg_ring h]
    exact LtsOnly.setFld s p 27 26 v
  · exact LtsOnly.refl s p

section
variable {s t : State} {p : Nat} (h : LtsOnly s t p)
include h

theorem LtsOnly.port (q : Nat) : t.port q = s.port q := by rw [h.1]; rfl
theorem LtsOnly.ring : t.ring = s.ring := by rw [h.1]
theorem LtsOnly.mode : t.mode = s.mode := by rw [h.1]
theorem LtsOnly.m : t.m = s.m := by rw [h.1]
theorem LtsOnly.sta : t.sta = s.sta := by rw [h.1]
theorem LtsOnly.engines : t.engines = s.engines := by rw [h.1]
theorem LtsOnly.flt : t.flt = s.flt := by rw [h.1]

end

/-- Another field of the register keeps a port's training state. -/
theorem State.lts_setFld (s : State) (p : Nat) {hi lo : Nat} (h : lo ≤ hi) (hs : hi < 28) (v : Nat) :
    (s.setFld (ltsReg p) hi lo v).lts p = s.lts p := by
  rw [State.lts_eq, State.lts_eq]
  exact s.fld_setFld_apart _ h (by decide) (.inr hs) v

theorem State.lts_setGen (s : State) (p v : Nat) : (s.setGen p v).lts p = s.lts p := by
  unfold State.setGen
  split
  · rename_i h
    rw [← ltsReg_ring h, s.lts_setFld p (by decide) (by decide)]
  · rfl

@[simp] theorem State.port_updPort (s : State) (p : Nat) (g : Port → Port) : (s.updPort p g).port p = g (s.port p) :=
  s.port_setPort p _

theorem State.port_updPort_ne (s : State) {p q : Nat} (g : Port → Port) (h : q ≠ p) : (s.updPort p g).port q = s.port q :=
  s.port_setPort_ne p q _ h

@[simp] theorem State.lts_setPort (s : State) (p : Nat) (x : Port) (q : Nat) : (s.setPort p x).lts q = s.lts q := rfl

@[simp] theorem State.lts_updPort (s : State) (p : Nat) (g : Port → Port) (q : Nat) : (s.updPort p g).lts q = s.lts q := rfl

/-! ### EQ and its failures (R350, R351, R353) -/

/-- EQ begins: the port trains at the generation, and of the registers only the port's status differs, its preset and state. -/
theorem State.beginEq_spec (s : State) (p gen : Nat) :
    let t := s.beginEq p gen
    t = { s with regs := t.regs, ring := t.ring } ∧ OnlyRegs s t [ltsOff p] ∧ t.lts p = 3 ∧
      t.port p = { s.port p with gen := gen } ∧ t.fld (ltsReg p) 24 20 = s.fld (ltsReg p) 24 20 := by
  obtain ⟨u, hu⟩ : ∃ u, u = s.setLts p 3 := ⟨_, rfl⟩
  have hl : LtsOnly s u p := hu ▸ LtsOnly.setLts s p 3
  have h3 : u.lts p = 3 := hu ▸ s.lts_setLts p (by decide)
  have hf : u.fld (ltsReg p) 24 20 = s.fld (ltsReg p) 24 20 := by
    rw [hu, State.setLts_eq, State.fld_setFld_apart _ _ (by decide) (by decide) (.inl (by decide))]
  obtain ⟨v, hv⟩ : ∃ v, v = u.updPort p (fun x => { x with gen := gen }) := ⟨_, rfl⟩
  obtain ⟨w, hw, hr, h3', hf'⟩ : ∃ w, LtsOnly v w p ∧ w = s.beginEq p gen ∧ w.lts p = v.lts p ∧
      w.fld (ltsReg p) 24 20 = v.fld (ltsReg p) 24 20 := by
    unfold State.beginEq
    rw [← hu, ← hv]
    split
    · rename_i h2
      rw [← ltsReg_ring h2]
      exact ⟨_, LtsOnly.setFld v p 19 16 _, rfl, v.lts_setFld p (by decide) (by decide) _,
        v.fld_setFld_apart _ (by decide) (by decide) (.inr (by decide)) _⟩
    · exact ⟨v, LtsOnly.refl v p, rfl, rfl, rfl⟩
  rw [← hr]
  have hvs : v = { s with regs := v.regs, ring := v.ring } := by rw [hv, hl.1]; rfl
  have hvr : OnlyRegs s v [ltsOff p] := fun q hq => by rw [hv, State.rd_updPort, hl.2 q hq]
  refine ⟨?_, hvr.trans hw.2, ?_, ?_, ?_⟩
  · rw [hw.1, hvs]
  · rw [h3', hv, State.lts_updPort, h3]
  · rw [hw.port, hv, State.port_updPort, hl.port]
  · rw [hf', ← hf, hv, State.fld, State.fld, State.rd_updPort]

/-- A failed EQ or CHECK leads back to EQ at OR-1 after OR-2 on a ring port, and to OFF otherwise. -/
theorem State.checkFails_spec (s : State) (p : Nat) :
    let t := s.checkFails p
    t = { s with regs := t.regs, ring := t.ring } ∧ OnlyRegs s t [ltsOff p] ∧
      (if p < 2 ∧ (s.port p).gen = 2 then t.lts p = 3 ∧ (t.port p).gen = 1 else t.lts p = 0 ∧ t.ring = s.ring) := by
  unfold State.checkFails
  split
  · obtain ⟨hf, hr, h3, hp, -⟩ := s.beginEq_spec p 1
    exact ⟨hf, hr, h3, by rw [hp]⟩
  · have hl := LtsOnly.setLts s p 0
    refine ⟨?_, hl.2, s.lts_setLts p (by decide), hl.ring⟩
    generalize s.setLts p 0 = u at hl
    rw [hl.1]

end Sys2Proof.Machine

/-!
PROOFS. What broadcasts, records of faults and flits that are queued leave of the links (R372, R378, R384, R410): every training
state, and of every port all but its queues.
-/
namespace Sys2Proof.Machine

/-! ### Broadcasts, records and what they leave of the links (R378, R384, R410) -/

/-- Of every port only the queues of waiting flits differ. -/
structure OnlyQueues (s t : State) : Prop where
  port : ∀ p, t.port p = { s.port p with inject := (t.port p).inject, transit := (t.port p).transit }

theorem OnlyQueues.of_ports {s t : State} (h : t.ring.ports = s.ring.ports) : OnlyQueues s t :=
  ⟨fun p => by rw [State.port, State.port, h]⟩

theorem OnlyQueues.refl (s : State) : OnlyQueues s s := ⟨fun _ => rfl⟩

theorem OnlyQueues.trans {s t u : State} (h : OnlyQueues s t) (k : OnlyQueues t u) : OnlyQueues s u :=
  ⟨fun p => by rw [k.port p, h.port p]⟩

theorem OnlyQueues.updPort (s : State) (p : Nat) {g : Port → Port}
    (hg : g (s.port p) = { s.port p with inject := (g (s.port p)).inject, transit := (g (s.port p)).transit }) :
    OnlyQueues s (s.updPort p g) := by
  refine ⟨fun q => ?_⟩
  by_cases hq : q = p
  · subst hq; rw [State.port_updPort]; exact hg
  · rw [State.port_updPort_ne s g hq]

theorem OnlyQueues.inject (s : State) (p : Nat) (f : Flit) : OnlyQueues s (s.inject p f) := OnlyQueues.updPort s p rfl

theorem OnlyQueues.add64 (s : State) (r : RegRef) (n : Nat) : OnlyQueues s (s.add64 r n) := OnlyQueues.of_ports rfl

theorem OnlyQueues.setTx (s : State) (k : Nat) (x : TxE2e) : OnlyQueues s (s.setTx k x) := OnlyQueues.of_ports rfl

theorem OnlyQueues.toPort (s : State) (p : Nat) (f : Flit) : OnlyQueues s (s.toPort p f) := by
  unfold State.toPort
  split
  · exact OnlyQueues.inject ..
  · split
    · exact OnlyQueues.add64 ..
    · exact OnlyQueues.inject ..

theorem OnlyQueues.sendCtl (s : State) (ws : List W64) : OnlyQueues s (s.sendCtl ws) := by
  unfold State.sendCtl
  split
  · exact OnlyQueues.refl s
  · exact ((OnlyQueues.setTx ..).trans (OnlyQueues.toPort ..)).trans (OnlyQueues.toPort ..)

theorem State.ring_fixHandoff (s : State) (r : FaultRec) (b : Bool) : (s.fixHandoff r b).ring = s.ring := by
  rw [State.fixHandoff, State.wr64_ring, State.setBit_ring]

theorem OnlyQueues.identify (s : State) (r : FaultRec) : OnlyQueues s (s.identify r) := by
  have hfix : ∀ q b, OnlyQueues s (s.fixHandoff q b) := fun q b => OnlyQueues.of_ports (by rw [State.ring_fixHandoff])
  unfold State.identify State.identifyBy
  split
  · split
    · exact hfix _ _
    · split
      · exact OnlyQueues.refl s
      · dsimp only
        split
        · exact hfix _ _
        · split
          · exact hfix _ _
          · exact OnlyQueues.refl s
  · exact OnlyQueues.refl s

theorem OnlyQueues.queueRec (s : State) (r : FaultRec) : OnlyQueues s (s.queueRec r) := by
  refine OnlyQueues.of_ports ?_
  unfold State.queueRec
  split
  · rfl
  · split
    · rw [State.add64_ring]
    · split
      · rfl
      · rw [State.setBit_ring, State.satInc_ring]

theorem OnlyQueues.collect (s : State) (r : FaultRec) (src : RecSrc) : OnlyQueues s (s.collect r src) := by
  unfold State.collect
  refine OnlyQueues.trans ?_ (OnlyQueues.queueRec _ _)
  refine OnlyQueues.trans ?_ (OnlyQueues.identify _ _)
  obtain ⟨s1, h1, e1⟩ : ∃ s1 : State, OnlyQueues s s1 ∧
      s1 = if s.flt.keys.contains r.key then s else { s with flt := { s.flt with keys := s.flt.keys ++ [r.key] } } := by
    refine ⟨_, OnlyQueues.of_ports ?_, rfl⟩
    split <;> rfl
  simp only [← e1]
  have hfwd : OnlyQueues s (if src = .own && 2 ≤ r.sev && !s.flt.keys.contains r.key && s.ringSize ≠ 0 then
      (s1.sendCtl [r.w0, r.w1, r.w2, r.w3]).add64 Reg.fltCntFwd 1 else s1) := by
    split
    · exact h1.trans ((OnlyQueues.sendCtl ..).trans (OnlyQueues.add64 ..))
    · exact h1
  split
  · exact hfwd.trans (OnlyQueues.inject ..)
  · exact hfwd

/-- Flits have been queued and records filed: no register of a link, no training state and of no port more than its queues differs,
nor anything of memory, engines or Tasks. -/
def LinksKept (s t : State) : Prop :=
  t = { s with regs := t.regs, ring := t.ring, pair := t.pair, flt := t.flt } ∧ OnlyRegs s t faultOffs ∧
    (∀ p, t.lts p = s.lts p) ∧ OnlyQueues s t

theorem LinksKept.refl (s : State) : LinksKept s s := ⟨rfl, OnlyRegs.refl s _, fun _ => rfl, OnlyQueues.refl s⟩

theorem LinksKept.trans {s t u : State} (h : LinksKept s t) (k : LinksKept t u) : LinksKept s u := by
  obtain ⟨h1, h2, h3, h4⟩ := h
  obtain ⟨k1, k2, k3, k4⟩ := k
  exact ⟨by rw [k1, h1], h2.trans k2, fun p => (k3 p).trans (h3 p), h4.trans k4⟩

theorem LinksKept.foldl {β : Type} (l : List β) (f : State → β → State) (h : ∀ s b, LinksKept s (f s b)) (s : State) :
    LinksKept s (l.foldl f s) := by
  induction l generalizing s with
  | nil => exact LinksKept.refl s
  | cons b t ih => exact (h s b).trans (ih _)

/-- A field of a register is made of its bits. -/
theorem State.fld_of_bits {s t : State} {r : RegRef} {hi lo : Nat} (h : ∀ b, lo ≤ b → b ≤ hi → t.bit r b = s.bit r b) :
    t.fld r hi lo = s.fld r hi lo := by
  refine Nat.eq_of_testBit_eq fun i => ?_
  rw [State.fld, State.fld, testBit_bitsOf, testBit_bitsOf]
  by_cases hi' : i < hi + 1 - lo
  · have hb := h (lo + i) (by omega) (by omega)
    have key : ∀ n : Nat, decide (bitsOf n (lo + i) (lo + i) = 1) = n.testBit (lo + i) := fun n => by
      rw [bitsOf, Nat.add_sub_cancel_left, Nat.testBit_eq_decide_div_mod_eq, Nat.pow_one]
    rw [State.bit, State.bit, State.fld, State.fld, key, key] at hb
    rw [hb]
  · rw [decide_eq_false hi', Bool.false_and, Bool.false_and]

/-- The status and the other registers of a ring port are none of fault records. -/
theorem ringPort_notMem_faultOffs {p d : Nat} (hp : p < 2) (hd : d < 0x100) : 0x800100 + p * 0x100 + d ∉ faultOffs := by
  simp only [faultOffs, Reg.ringCntDrop, Reg.fltCntFwd, Reg.fltCntCoal, Reg.fltStat, Reg.pairStat, Reg.pairHandoffLap, Reg.fltOvf,
    List.mem_append, List.mem_cons, List.not_mem_nil, or_false, List.mem_map, List.mem_range, not_or, not_exists, not_and]
  exact ⟨by omega, fun c _ => by omega⟩

theorem LinksKept.of_filed {s t : State} (h : Filed s t) (hq : OnlyQueues s t) : LinksKept s t := by
  refine ⟨by rw [h.1], h.regs, fun p => ?_, hq⟩
  by_cases hp : p < 2
  · refine h.regs.lts ?_
    rw [ltsOff_ring hp, show 0x800104 + p * 0x100 = 0x800100 + p * 0x100 + 4 by omega]
    exact ringPort_notMem_faultOffs hp (by decide)
  · have hreg : ltsReg p = Reg.pairStat := if_neg hp
    rw [State.lts_eq, State.lts_eq, hreg]
    exact State.fld_of_bits fun b h1 h2 => h.2.2 b (by omega) (by omega)

theorem LinksKept.toPort (s : State) (p : Nat) (f : Flit) : LinksKept s (s.toPort p f) :=
  LinksKept.of_filed (Filed.toPort ..) (OnlyQueues.toPort ..)

theorem LinksKept.sendCtl (s : State) (ws : List W64) : LinksKept s (s.sendCtl ws) :=
  LinksKept.of_filed (Filed.sendCtl ..) (OnlyQueues.sendCtl ..)

theorem LinksKept.fault (s : State) (c o a e k d : Nat) : LinksKept s (s.fault c o a e k d) :=
  LinksKept.of_filed (Filed.fault ..) (OnlyQueues.collect ..)

theorem LinksKept.noteSwitch (s : State) (a b lap : Nat) (joins : Bool) : LinksKept s (s.noteSwitch a b lap joins) :=
  ⟨rfl, fun _ _ => rfl, fun _ => rfl, OnlyQueues.of_ports rfl⟩

theorem LinksKept.announce (s : State) (p : Nat) (joins : Bool) : LinksKept s (s.announce p joins) :=
  (LinksKept.sendCtl ..).trans (LinksKept.noteSwitch ..)

theorem LinksKept.turnBack (s : State) (p : Nat) (f : Flit) : LinksKept s (s.turnBack p f) := by
  unfold State.turnBack
  split
  · exact LinksKept.of_filed (Filed.wr64 s (by decide) (by decide) (by decide) (by simp [Reg.pairStat, Reg.ringCntDrop]) _)
      (OnlyQueues.add64 ..)
  · exact ⟨rfl, fun _ _ => rfl, fun _ => rfl, OnlyQueues.updPort s (1 - p) rfl⟩

theorem LinksKept.pairLost (s : State) : LinksKept s s.pairLost := by
  unfold State.pairLost
  split
  · have h : LinksKept s { s with pair := { s.pair with lostLap := some s.lap } } :=
      ⟨rfl, fun _ _ => rfl, fun _ => rfl, OnlyQueues.of_ports rfl⟩
    exact h.trans (LinksKept.fault ..)
  · exact LinksKept.refl s

section
variable {s t : State} (h : LinksKept s t)
include h

theorem LinksKept.m : t.m = s.m := by rw [h.1]
theorem LinksKept.sta : t.sta = s.sta := by rw [h.1]
theorem LinksKept.engines : t.engines = s.engines := by rw [h.1]
theorem LinksKept.regs : OnlyRegs s t faultOffs := h.2.1
theorem LinksKept.lts (p : Nat) : t.lts p = s.lts p := h.2.2.1 p
theorem LinksKept.port (p : Nat) :
    t.port p = { s.port p with inject := (t.port p).inject, transit := (t.port p).transit } := h.2.2.2.port p

end

/-- A record of this part has the class that it was raised with. -/
theorem State.cls_mkRec (s : State) {cls : Nat} (h : cls < 256) (sev origin addr epoch task detail : Nat) :
    (s.mkRec cls sev origin addr epoch task detail).cls = cls := by
  have hside : (if s.onTrail then 2 ^ 37 else 0) ≤ 2 ^ 37 := by split <;> omega
  have hcls : (s.mkRec cls sev origin addr epoch task detail).cls =
      bitsOf (s.lap % 65536 * 2 ^ 48 + cls % 256 * 2 ^ 40 + sev % 4 * 2 ^ 38 + (if s.onTrail then 2 ^ 37 else 0) +
        origin % 2 ^ 18 * 2 ^ 18 + 3) 47 40 := bitsOf_ofNat (by decide) _ _
  rw [hcls, bitsOf]
  omega

/-- A fault raised where the queue has room waits there. -/
theorem State.reports_fault {s : State} (h : s.flt.queue.length < 1024) {cls : Nat} (hc : cls < 256) (o a e k d : Nat) :
    (s.fault cls o a e k d).reports cls := by
  have hr := State.reports_collect (s.mkRec cls (classSev cls) o a e k d) .own h
  rwa [State.cls_mkRec s hc] at hr

end Sys2Proof.Machine

/-!
PROOFS. Training (R346, R348, R350, R351, R353): each command's step from one training state to the next.
-/
namespace Sys2Proof.Machine

/-! ### Training (R346, R348, R350, R351, R353) -/

theorem trainingAttempt_complete {s : State} {p : Nat} (ht : s.trains p = true) (h0 : s.lts p = 0) :
    ∃ t, exec (.trainingAttempt p) s = .next t ∧ t.lts p = 1 ∧ t = { s with regs := t.regs } ∧
      (p < 2 → t.rd64 (Reg.ringPortTrain p) = s.rd64 (Reg.ringPortTrain p) + 1) := by
  have hexec : exec (.trainingAttempt p) s =
      .next (if p < 2 then (s.setLts p 1).add64 (Reg.ringPortTrain p) 1 else s.setLts p 1) := if_pos ⟨ht, h0⟩
  have hl := LtsOnly.setLts s p 1
  have h1 : (s.setLts p 1).lts p = 1 := s.lts_setLts p (by decide)
  rw [hexec]
  split
  · rename_i h2
    have hne : (Reg.ringPortTrain p).off ∉ [ltsOff p] ∧ (Reg.ringPortTrain p).off + 4 ∉ [ltsOff p] := by
      simp only [ltsOff_ring h2, Reg.ringPortTrain, List.mem_singleton]
      omega
    refine ⟨_, rfl, ?_, State.regs_trans hl.1 (State.add64_regs ..), fun _ => ?_⟩
    · have hadd : OnlyRegs (s.setLts p 1) ((s.setLts p 1).add64 (Reg.ringPortTrain p) 1)
          [(Reg.ringPortTrain p).off, (Reg.ringPortTrain p).off + 4] := OnlyRegs.add64 _ (by simp) (by simp) 1
      rw [hadd.lts, h1]
      simp only [ltsOff_ring h2, Reg.ringPortTrain, List.mem_cons, List.not_mem_nil, or_false]
      omega
    · rw [State.rd64_add64, hl.2.rd64 hne.1 hne.2]
      rfl
  · rename_i h2
    exact ⟨_, rfl, h1, hl.1, fun h => absurd h h2⟩

/-- The lanes that must lock: sixteen of a ring port, eight of the pair port (R348). -/
theorem exec_detect (p : Nat) (locked inverted : BitVec 16) {s : State} (h : s.lts p = 1) :
    exec (.detect p locked inverted) s = .next (
      if (if p < 2 then locked = 0xFFFF else locked &&& 0xFF = 0xFF) then
        (if p < 2 then (s.setLts p 2).setFld (ltsReg p) 15 0 inverted.toNat else s.setLts p 2)
      else s.setLts p 0) := by
  change execDetect p locked inverted s = _
  unfold execDetect
  rw [if_neg (not_not.2 h)]
  by_cases hp : p < 2
  · by_cases hall : locked = 0xFFFF
    · simp [hp, hall, ltsReg_ring hp]
    · simp [hp, show ¬ locked = 0xFFFF#16 from hall]
  · by_cases hall : locked &&& 0xFF = 0xFF
    · simp [hp, show locked &&& 0xFF#16 = 0xFF#16 from hall]
    · simp [hp, show ¬ locked &&& 0xFF#16 = 0xFF#16 from hall]

theorem detect_complete {s : State} {p : Nat} (h : s.lts p = 1) (locked inverted : BitVec 16) :
    ∃ t, exec (.detect p locked inverted) s = .next t ∧ t = { s with regs := t.regs } ∧ OnlyRegs s t [ltsOff p] ∧
      t.lts p = (if (if p < 2 then locked = 0xFFFF else locked &&& 0xFF = 0xFF) then 2 else 0) ∧
      (p < 2 → locked = 0xFFFF → t.fld (Reg.ringPortStat p) 15 0 = inverted.toNat) := by
  rw [exec_detect p locked inverted h]
  have hl := LtsOnly.setLts s p 2
  have h2 : (s.setLts p 2).lts p = 2 := s.lts_setLts p (by decide)
  by_cases hall : (if p < 2 then locked = 0xFFFF else locked &&& 0xFF = 0xFF)
  · rw [if_pos hall, if_pos hall]
    by_cases hp : p < 2
    · rw [if_pos hp]
      have hf := hl.trans (LtsOnly.setFld (s.setLts p 2) p 15 0 inverted.toNat)
      refine ⟨_, rfl, hf.1, hf.2, ?_, fun _ _ => ?_⟩
      · rw [State.lts_setFld _ p (by decide) (by decide), h2]
      · rw [← ltsReg_ring hp, State.fld_setFld _ _ (by decide) (by decide)]
        exact Nat.mod_eq_of_lt inverted.isLt
    · rw [if_neg hp]
      exact ⟨_, rfl, hl.1, hl.2, h2, fun h => absurd h hp⟩
  · rw [if_neg hall, if_neg hall]
    have hl := LtsOnly.setLts s p 0
    refine ⟨_, rfl, hl.1, hl.2, s.lts_setLts p (by decide), fun hp hlock => ?_⟩
    rw [if_pos hp] at hall
    exact absurd hlock hall

theorem eq_complete {s : State} {p : Nat} (h : s.lts p = 3) :
    ∃ t, exec (.eq p) s = .next t ∧ t = { s with regs := t.regs } ∧ OnlyRegs s t [ltsOff p] ∧ t.lts p = 4 := by
  have hl := LtsOnly.setLts s p 4
  exact ⟨_, if_pos h, hl.1, hl.2, s.lts_setLts p (by decide)⟩

theorem eqTimeout_complete {s : State} {p : Nat} (h : s.lts p = 3) :
    ∃ t, exec (.eqTimeout p) s = .next t ∧ t = { s with regs := t.regs, ring := t.ring } ∧ OnlyRegs s t [ltsOff p] ∧
      (if p < 2 ∧ (s.port p).gen = 2 then t.lts p = 3 ∧ (t.port p).gen = 1 else t.lts p = 0 ∧ t.ring = s.ring) :=
  ⟨_, if_pos h, s.checkFails_spec p⟩

theorem check_complete {s : State} {p : Nat} (h : s.lts p = 4) :
    (∃ t, exec (.check p false) s = .next t ∧ t = { s with regs := t.regs } ∧ OnlyRegs s t [ltsOff p] ∧ t.lts p = 5) ∧
    (∃ t, exec (.check p true) s = .next t ∧ t = { s with regs := t.regs, ring := t.ring } ∧ OnlyRegs s t [ltsOff p] ∧
      (if p < 2 ∧ (s.port p).gen = 2 then t.lts p = 3 ∧ (t.port p).gen = 1 else t.lts p = 0 ∧ t.ring = s.ring)) := by
  have hl := LtsOnly.setLts s p 5
  exact ⟨⟨_, if_neg (not_not.2 h), hl.1, hl.2, s.lts_setLts p (by decide)⟩, _, if_neg (not_not.2 h), s.checkFails_spec p⟩

/-- A port whose link comes up: sequence numbers 0, nothing unacknowledged, credits at the buffer sizes (R351, R357). -/
def Port.fresh (x : Port) : Port := { Port.init with gen := x.gen, minGen := x.minGen, inject := x.inject }

/-- A port becomes ACTIVE. -/
def State.linkUp (s : State) (p : Nat) (delay : BitVec 16) : State :=
  let s1 := ((s.setLts p 6).setGen p (s.port p).gen).setPort p (s.port p).fresh
  if p < 2 then s1.setFld (Reg.ringPortDly p) 15 0 delay.toNat else s1

theorem exec_align (p : Nat) (ok : Bool) (delay : BitVec 16) {s : State} (h : s.lts p = 5) :
    exec (.align p ok delay) s = .next (
      if ok = true ∧ (s.port p).minGen ≤ (s.port p).gen then
        (if p < 2 && s.mode.running then (s.linkUp p delay).announce p true else s.linkUp p delay)
      else s.setLts p 0) := by
  change execAlign p ok delay s = _
  unfold execAlign
  rw [if_neg (not_not.2 h)]
  cases ok with
  | false => rfl
  | true =>
    by_cases hg : (s.port p).minGen ≤ (s.port p).gen
    · simp [State.linkUp, Port.fresh, hg, Nat.not_lt.2 hg]
    · simp [hg, Nat.lt_of_not_le hg]

theorem State.linkUp_spec (s : State) (p : Nat) (delay : BitVec 16) :
    let t := s.linkUp p delay
    t.m = s.m ∧ t.sta = s.sta ∧ t.lts p = 6 ∧ t.port p = (s.port p).fresh ∧
      (p < 2 → t.fld (Reg.ringPortDly p) 15 0 = delay.toNat) := by
  have hl := (LtsOnly.setLts s p 6).trans (LtsOnly.setGen _ p (s.port p).gen)
  have h6 : ((s.setLts p 6).setGen p (s.port p).gen).lts p = 6 := by rw [State.lts_setGen, s.lts_setLts p (by decide)]
  unfold State.linkUp
  generalize (s.setLts p 6).setGen p (s.port p).gen = u at hl h6
  obtain ⟨v, hv⟩ : ∃ v, v = u.setPort p (s.port p).fresh := ⟨_, rfl⟩
  have hport : v.port p = (s.port p).fresh := by rw [hv, State.port_setPort]
  have hm : v.m = s.m := by rw [hv, State.setPort_m, hl.m]
  have hsta : v.sta = s.sta := by rw [hv, State.setPort_sta, hl.sta]
  have hv6 : v.lts p = 6 := by rw [hv, State.lts_setPort, h6]
  dsimp only
  rw [← hv]
  split
  · rename_i hp
    have hd : OnlyRegs v (v.setFld (Reg.ringPortDly p) 15 0 delay.toNat) [(Reg.ringPortDly p).off] := OnlyRegs.wr v (by simp) _
    refine ⟨hm, hsta, ?_, hport, fun _ => ?_⟩
    · rw [hd.lts, hv6]
      simp only [ltsOff_ring hp, Reg.ringPortDly, List.mem_singleton]
      omega
    · rw [State.fld_setFld _ _ (by decide) (by decide)]
      exact Nat.mod_eq_of_lt delay.isLt
  · rename_i hp
    exact ⟨hm, hsta, hv6, hport, fun h => absurd h hp⟩

theorem align_complete {s : State} {p : Nat} (h : s.lts p = 5) (ok : Bool) (delay : BitVec 16) :
    ∃ t, exec (.align p ok delay) s = .next t ∧ t.m = s.m ∧ t.sta = s.sta ∧
      (if ok = true ∧ (s.port p).minGen ≤ (s.port p).gen then
        t.lts p = 6 ∧ (t.port p).txSeq = 0 ∧ (t.port p).rxSeq = 0 ∧ (t.port p).replay = [] ∧
          (t.port p).credits = Port.init.credits ∧ (p < 2 → t.fld (Reg.ringPortDly p) 15 0 = delay.toNat)
       else t.lts p = 0) := by
  rw [exec_align p ok delay h]
  split
  · obtain ⟨u, hu⟩ : ∃ u, u = s.linkUp p delay := ⟨_, rfl⟩
    obtain ⟨t, hk, ht⟩ : ∃ t, LinksKept u t ∧ t = if p < 2 && s.mode.running then u.announce p true else u := by
      refine ⟨_, ?_, rfl⟩
      split
      · exact LinksKept.announce ..
      · exact LinksKept.refl u
    obtain ⟨hm, hsta, h6, hport, hdly⟩ := s.linkUp_spec p delay
    rw [← hu, ← ht]
    rw [← hu] at hm hsta h6 hport hdly
    refine ⟨t, rfl, hk.m.trans hm, hk.sta.trans hsta, (hk.lts p).trans h6, ?_, ?_, ?_, ?_, fun hp => ?_⟩
    · rw [hk.port p, hport]; rfl
    · rw [hk.port p, hport]; rfl
    · rw [hk.port p, hport]; rfl
    · rw [hk.port p, hport]; rfl
    · have hoff : (Reg.ringPortDly p).off = 0x800100 + p * 0x100 + 8 := by simp only [Reg.ringPortDly]; omega
      rw [hk.regs.fld (hoff ▸ ringPort_notMem_faultOffs hp (by decide)), hdly hp]
  · have hl := LtsOnly.setLts s p 0
    exact ⟨_, rfl, hl.m, hl.sta, s.lts_setLts p (by decide)⟩

theorem training_complete : Claims.TrainingComplete := fun _ _ _ =>
  ⟨trainingAttempt_complete, fun locked inverted h => detect_complete h locked inverted, eq_complete, eqTimeout_complete,
    check_complete, fun ok delay h => align_complete h ok delay⟩

end Sys2Proof.Machine

/-!
PROOFS. The partner's identity (R352, R353, R505): a partner that is accepted, one that is late, and one that is refused, with the
entry to SERVICE.
-/
namespace Sys2Proof.Machine

/-! ### SERVICE (R515) -/

theorem State.portOff_frame (s : State) (p : Nat) :
    s.portOff p = { s with regs := (s.portOff p).regs, ring := (s.portOff p).ring } ∧ OnlyRegs s (s.portOff p) [ltsOff p] := by
  have hl := (LtsOnly.setLts s p 0).trans (LtsOnly.setGen _ p 0)
  unfold State.portOff
  generalize (s.setLts p 0).setGen p 0 = u at hl
  refine ⟨?_, fun q hq => ?_⟩
  · rw [hl.1]; rfl
  · rw [State.rd_setPort, hl.2 q hq]

theorem State.regs_clearPlace (s : State) (e : Nat) : (s.clearPlace e).regs = s.regs := by
  rw [(s.clearPlace_frame e).1]

theorem State.clearPlaces_frame (l : List Nat) (s : State) :
    (l.foldl (fun s e => s.clearPlace e) s).m.mem = s.m.mem ∧ (l.foldl (fun s e => s.clearPlace e) s).m.memq = s.m.memq ∧
      (l.foldl (fun s e => s.clearPlace e) s).regs = s.regs := by
  induction l generalizing s with
  | nil => exact ⟨rfl, rfl, rfl⟩
  | cons e l ih =>
    obtain ⟨h1, h2, h3⟩ := ih (s.clearPlace e)
    rw [List.foldl_cons, h1, h2, h3]
    exact ⟨s.mem_clearPlace e, s.memq_clearPlace e, s.regs_clearPlace e⟩

/-- The registers that the entry to SERVICE changes: the admission control and the states of the ports. -/
def serviceOffs : List Nat := [Reg.staAdmitCtrl.off, ltsOff 0, ltsOff 1, ltsOff 2]

theorem State.enterService_frame (s : State) :
    s.enterService.mode = .service ∧ s.enterService.m.mem = s.m.mem ∧ s.enterService.m.memq = s.m.memq ∧
      OnlyRegs s s.enterService serviceOffs := by
  obtain ⟨s1, hm, hr, e1⟩ : ∃ s1 : State, s1.m = s.m ∧ OnlyRegs s s1 serviceOffs ∧
      s1 = (((s.setBit Reg.staAdmitCtrl 0 false).portOff 0).portOff 1).portOff 2 := by
    refine ⟨_, ?_, ?_, rfl⟩
    · rw [(State.portOff_frame _ 2).1, (State.portOff_frame _ 1).1, (State.portOff_frame _ 0).1, State.setBit_m]
    · have hadm : OnlyRegs s (s.setBit Reg.staAdmitCtrl 0 false) serviceOffs := OnlyRegs.wr s (by simp [serviceOffs]) _
      exact hadm.trans (((State.portOff_frame _ 0).2.mono (by simp [serviceOffs])).trans
        (((State.portOff_frame _ 1).2.mono (by simp [serviceOffs])).trans
          ((State.portOff_frame _ 2).2.mono (by simp [serviceOffs]))))
  obtain ⟨k1, k2, k3⟩ := State.clearPlaces_frame (s1.listed.filter (fun e => e < 512)) s1
  unfold State.enterService
  rw [← e1]
  dsimp only
  generalize (s1.listed.filter (fun e => e < 512)).foldl (fun s e => s.clearPlace e) s1 = u at k1 k2 k3
  refine ⟨rfl, k1.trans (by rw [hm]), k2.trans (by rw [hm]), fun q hq => ?_⟩
  rw [← hr q hq]
  exact congrArg (fun x => SMap.get q.rst x q.off) k3

/-! ### The partner's identity (R352, R353, R505) -/

/-- What CAPS shows of a ring partner before it is accepted: its number and whether it is adjacent (Table 11.19). -/
def State.showPart (s : State) (p part : Nat) : State :=
  if p < 2 then
    let adj := if p = 0 then (s.pos + 1) % s.ringSize else (s.pos + s.ringSize - 1) % s.ringSize
    (s.setFld (Reg.ringPortStat p) 24 20 part).setBit (Reg.ringPortStat p) 25 (part ≠ adj)
  else s

/-- CAPS with an answer in time: refused, or equalisation begins at the lower of the two maxima. -/
theorem exec_caps (p : Nat) (f : CapsFrame) {s : State} (h : s.lts p = 2) :
    exec (.caps p f true) s = .next (
      if (if p < 2 then s.capsOk p f else s.pairCapsOk f) = true then
        ((s.showPart p f.part).updPort p (fun x => { x with
          minGen := Nat.max (s.gens p).1 (if p < 2 then f.mingen else 2) })).beginEq p
            (if p < 2 then Nat.min (s.gens p).2 f.maxgen else 2)
      else (s.showPart p f.part).idFail p) := by
  change execCaps p f true s = _
  unfold execCaps
  rw [if_neg (not_not.2 h)]
  obtain ⟨ok, hok⟩ : ∃ ok : Bool, ok = if p < 2 then s.capsOk p f else s.pairCapsOk f := ⟨_, rfl⟩
  rw [← hok]
  cases ok <;> rfl

theorem LtsOnly.showPart (s : State) (p part : Nat) : LtsOnly s (s.showPart p part) p := by
  unfold State.showPart
  split
  · rename_i hp
    rw [← ltsReg_ring hp]
    exact (LtsOnly.setFld s p 24 20 part).trans (LtsOnly.setFld _ p 25 25 _)
  · exact LtsOnly.refl s p

theorem State.part_showPart (s : State) {p part : Nat} (hp : p < 2) (h : part < 32) :
    (s.showPart p part).fld (ltsReg p) 24 20 = part := by
  unfold State.showPart
  rw [if_pos hp, ltsReg_ring hp]
  dsimp only
  rw [State.setBit, State.fld_setFld_apart _ _ (by decide) (by decide) (.inl (by decide)),
    State.fld_setFld _ _ (by decide) (by decide)]
  exact Nat.mod_eq_of_lt h

theorem caps_late {s : State} {p : Nat} (h : s.lts p = 2) (f : CapsFrame) :
    ∃ t, exec (.caps p f false) s = .next t ∧ t = { s with regs := t.regs } ∧ OnlyRegs s t [ltsOff p] ∧ t.lts p = 0 := by
  have hl := LtsOnly.setLts s p 0
  exact ⟨_, if_neg (not_not.2 h), hl.1, hl.2, s.lts_setLts p (by decide)⟩

theorem caps_accepted {s : State} {p : Nat} (h : s.lts p = 2) {f : CapsFrame}
    (hok : (if p < 2 then s.capsOk p f else s.pairCapsOk f) = true) :
    ∃ t, exec (.caps p f true) s = .next t ∧ t = { s with regs := t.regs, ring := t.ring } ∧ OnlyRegs s t [ltsOff p] ∧
      t.lts p = 3 ∧
      (p < 2 → f.part < 32 → (t.port p).gen = Nat.min (s.fld (Reg.ringPortCfg p) 5 4) f.maxgen ∧
        (t.port p).minGen = Nat.max (s.fld (Reg.ringPortCfg p) 7 6) f.mingen ∧
        t.fld (Reg.ringPortStat p) 24 20 = f.part) := by
  rw [exec_caps p f h, if_pos hok]
  have hl := LtsOnly.showPart s p f.part
  have hpart := fun hp hf => s.part_showPart (p := p) (part := f.part) hp hf
  generalize s.showPart p f.part = u at hl hpart
  obtain ⟨v, hv⟩ : ∃ v, v = u.updPort p (fun x => { x with
    minGen := Nat.max (s.gens p).1 (if p < 2 then f.mingen else 2) }) := ⟨_, rfl⟩
  have hvf : v = { s with regs := v.regs, ring := v.ring } := by rw [hv, hl.1]; rfl
  have hvr : OnlyRegs s v [ltsOff p] := fun q hq => by rw [hv, State.rd_updPort, hl.2 q hq]
  rw [← hv]
  obtain ⟨hf, hr, h3, hport, hfld⟩ := v.beginEq_spec p (if p < 2 then Nat.min (s.gens p).2 f.maxgen else 2)
  refine ⟨_, rfl, ?_, hvr.trans hr, h3, fun hp hf32 => ?_⟩
  · generalize v.beginEq p _ = t at hf
    rw [hf, hvf]
  · have hgens : s.gens p = (s.fld (Reg.ringPortCfg p) 7 6, s.fld (Reg.ringPortCfg p) 5 4) := if_pos hp
    refine ⟨?_, ?_, ?_⟩
    · rw [hport, if_pos hp, hgens]
    · rw [hport, hv, State.port_updPort, if_pos hp, hgens]
    · rw [← ltsReg_ring hp, hfld, hv, State.fld, State.rd_updPort]
      exact hpart hp hf32

/-- Outside PREP a refused identity is reported, and the port stays refused. -/
theorem State.idFail_running {s : State} (hm : s.mode ≠ .prep) (p : Nat) :
    (s.idFail p).m = s.m ∧ (s.idFail p).lts p = 7 ∧ (s.flt.queue.length < 1024 → (s.idFail p).reports 0x0E) := by
  have hl := LtsOnly.setLts s p 7
  have h7 : (s.setLts p 7).lts p = 7 := s.lts_setLts p (by decide)
  rw [State.idFail, if_pos hm]
  generalize s.setLts p 7 = u at hl h7
  have hk := LinksKept.fault u 0x0E (originOf s.pos 5 p) 0 0 0 0
  exact ⟨hk.m.trans hl.m, (hk.lts p).trans h7, fun hq => State.reports_fault (by rwa [hl.flt]) (by decide) _ _ _ _ _⟩

/-- In PREP a refused pair partner leads to SERVICE. -/
theorem State.idFail_pair {s : State} (hm : s.mode = .prep) :
    (s.idFail 2).m.mem = s.m.mem ∧ (s.idFail 2).m.memq = s.m.memq ∧ (s.idFail 2).bit Reg.dawnStat 11 = true ∧
      (s.idFail 2).mode = .service := by
  have hl := LtsOnly.setLts s 2 7
  rw [State.idFail, if_neg (not_not.2 hm), if_pos rfl]
  generalize s.setLts 2 7 = u at hl
  obtain ⟨kmode, kmem, kmemq, kr⟩ := (u.setBit Reg.dawnStat 11 true).enterService_frame
  refine ⟨?_, ?_, ?_, kmode⟩
  · rw [kmem, State.setBit_m, hl.m]
  · rw [kmemq, State.setBit_m, hl.m]
  · rw [kr.bit (by decide), State.bit_setBit _ _ (by decide)]

/-- In PREP a refused ring partner leads to SERVICE where the other ring port has been refused too. -/
theorem State.idFail_ring {s : State} (hm : s.mode = .prep) {p : Nat} (hp : p < 2) :
    (s.idFail p).m.mem = s.m.mem ∧ (s.idFail p).m.memq = s.m.memq ∧ (s.idFail p).bit Reg.dawnStat 10 = true ∧
      (if s.lts (1 - p) = 7 then (s.idFail p).mode = .service else (s.idFail p).mode = .prep ∧ (s.idFail p).lts p = 7) := by
  have hl := LtsOnly.setLts s p 7
  have h7 : (s.setLts p 7).lts p = 7 := s.lts_setLts p (by decide)
  obtain ⟨v, hv⟩ : ∃ v, v = (s.setLts p 7).setBit Reg.dawnStat 10 true := ⟨_, rfl⟩
  have heq : s.idFail p = if v.lts (1 - p) = 7 then v.enterService else v := by
    rw [State.idFail, if_neg (not_not.2 hm), if_neg (by omega), hv]
  rw [heq]
  generalize s.setLts p 7 = u at hl h7 hv
  have hvr : OnlyRegs u v [Reg.dawnStat.off] := by rw [hv]; exact OnlyRegs.wr u (by simp) _
  have hlts : ∀ q, q < 2 → v.lts q = u.lts q := fun q hq => hvr.lts (by
    simp only [ltsOff_ring hq, Reg.dawnStat, List.mem_singleton]
    omega)
  have hother : v.lts (1 - p) = s.lts (1 - p) := by
    rw [hlts (1 - p) (by omega), hl.2.lts]
    rw [List.mem_singleton]
    exact ltsOff_ne (by omega) (by omega) (by omega)
  have hbit : v.bit Reg.dawnStat 10 = true := by rw [hv, State.bit_setBit _ _ (by decide)]
  have hvm : v.m = s.m := by rw [hv, State.setBit_m, hl.m]
  have hvmode : v.mode = .prep := by rw [hv, State.setBit_mode, hl.mode, hm]
  rw [hother]
  split
  · obtain ⟨kmode, kmem, kmemq, kr⟩ := v.enterService_frame
    exact ⟨by rw [kmem, hvm], by rw [kmemq, hvm], by rw [kr.bit (by decide), hbit], kmode⟩
  · exact ⟨by rw [hvm], by rw [hvm], hbit, hvmode, (hlts p hp).trans h7⟩

theorem caps_refused {s : State} {p : Nat} (hp : p < 3) (h : s.lts p = 2) {f : CapsFrame}
    (hno : (if p < 2 then s.capsOk p f else s.pairCapsOk f) = false) :
    ∃ t, exec (.caps p f true) s = .next t ∧ t.m.mem = s.m.mem ∧ t.m.memq = s.m.memq ∧
      (s.mode = .prep → t.bit Reg.dawnStat (if p = 2 then 11 else 10) = true ∧
        (if p = 2 ∨ s.lts (1 - p) = 7 then t.mode = .service else t.mode = .prep ∧ t.lts p = 7)) ∧
      (s.mode ≠ .prep → t.lts p = 7 ∧ (s.flt.queue.length < 1024 → t.reports 0x0E)) := by
  rw [exec_caps p f h, if_neg (by rw [hno]; exact Bool.false_ne_true)]
  have hl := LtsOnly.showPart s p f.part
  generalize s.showPart p f.part = u at hl
  refine ⟨_, rfl, ?_⟩
  by_cases hm : s.mode = .prep
  · have hu : u.mode = .prep := hl.mode.trans hm
    by_cases h2 : p = 2
    · subst h2
      obtain ⟨k1, k2, k3, k4⟩ := State.idFail_pair hu
      exact ⟨k1.trans (by rw [hl.m]), k2.trans (by rw [hl.m]), fun _ => ⟨k3, k4⟩, fun hn => absurd hm hn⟩
    · have hp2 : p < 2 := by omega
      obtain ⟨k1, k2, k3, k4⟩ := State.idFail_ring hu hp2
      have hother : u.lts (1 - p) = s.lts (1 - p) := hl.2.lts (by
        rw [List.mem_singleton]
        exact ltsOff_ne (by omega) (by omega) (by omega))
      rw [hother] at k4
      refine ⟨k1.trans (by rw [hl.m]), k2.trans (by rw [hl.m]), fun _ => ?_, fun hn => absurd hm hn⟩
      simp only [h2, if_false, false_or]
      exact ⟨k3, k4⟩
  · obtain ⟨k1, k2, k3⟩ := State.idFail_running (s := u) (by rwa [hl.mode]) p
    rw [hl.flt] at k3
    exact ⟨by rw [k1, hl.m], by rw [k1, hl.m], fun hn => absurd hn hm, fun _ => ⟨k2, k3⟩⟩

theorem partner_identity : Claims.PartnerIdentity := fun _ _ f hp h =>
  ⟨caps_late h f, caps_accepted h, caps_refused hp h⟩

end Sys2Proof.Machine

/-!
PROOFS. Loss and upkeep of a link (R354 to R356, R377, R378, R404). Settles O44.
-/
namespace Sys2Proof.Machine

/-! ### Loss of a link (R356, R377, R378, R404) -/

/-- The port of a lost link: OFF, lost, and nothing left in it. -/
def State.dropLink (s : State) (p : Nat) : State := ((s.setLts p 0).setGen p 0).setPort p { Port.init with lost := true }

theorem State.dropLink_spec (s : State) (p : Nat) :
    (s.dropLink p).lts p = 0 ∧ (s.dropLink p).port p = { Port.init with lost := true } ∧ (s.dropLink p).m = s.m ∧
      (s.dropLink p).sta = s.sta ∧ (s.dropLink p).engines = s.engines := by
  have hl := (LtsOnly.setLts s p 0).trans (LtsOnly.setGen _ p 0)
  have h0 : ((s.setLts p 0).setGen p 0).lts p = 0 := by rw [State.lts_setGen, s.lts_setLts p (by decide)]
  unfold State.dropLink
  generalize (s.setLts p 0).setGen p 0 = u at hl h0
  refine ⟨?_, u.port_setPort p _, ?_, ?_, ?_⟩
  · rw [State.lts_setPort, h0]
  · rw [State.setPort_m, hl.m]
  · rw [State.setPort_sta, hl.sta]
  · rw [State.setPort_engines, hl.engines]

/-- What a lost active link does beyond its port: flits are turned back or dropped, the span is announced, records are filed. -/
theorem LinksKept.linkLost {s : State} {p : Nat} (h : s.lts p = 6) : LinksKept (s.dropLink p) (s.linkLost p) := by
  unfold State.linkLost
  rw [if_neg (not_not.2 h)]
  dsimp only
  rw [← State.dropLink]
  generalize s.dropLink p = u
  split
  · have hq : LinksKept u (u.updPort 2 (fun y => { y with inject := (s.port p).inject })) :=
      ⟨rfl, fun _ _ => rfl, fun _ => rfl, OnlyQueues.updPort u 2 rfl⟩
    exact hq.trans (LinksKept.pairLost _)
  · have hsent := (LinksKept.foldl ((s.port p).replay.filter (fun f => f.kind ≠ 4) ++ (s.port p).transit.map (fun q => q.2))
      (fun s f => s.turnBack p f) (fun s f => LinksKept.turnBack s p f) u).trans
        (LinksKept.foldl (s.port p).inject (fun s f => s.toPort p f) (fun s f => LinksKept.toPort s p f) _)
    split
    · exact hsent.trans ((LinksKept.announce ..).trans (LinksKept.fault ..))
    · exact hsent

theorem State.linkLost_spec {s : State} {p : Nat} (h : s.lts p = 6) :
    (s.linkLost p).lts p = 0 ∧ ((s.linkLost p).port p).lost = true ∧ ((s.linkLost p).port p).replay = [] ∧
      (s.linkLost p).m = s.m ∧ (s.linkLost p).sta = s.sta ∧ (s.linkLost p).engines = s.engines := by
  have hk := LinksKept.linkLost h
  obtain ⟨h0, hport, hm, hsta, heng⟩ := s.dropLink_spec p
  refine ⟨(hk.lts p).trans h0, ?_, ?_, hk.m.trans hm, hk.sta.trans hsta, hk.engines.trans heng⟩
  · rw [hk.port p, hport]
  · rw [hk.port p, hport]; rfl

/-- Commands that find a link lost, and those that lose it where a limit is reached. -/
theorem exec_losesLink {s : State} {p : Nat} (h : s.lts p = 6) {c : Instr}
    (hc : c ∈ [Instr.lossOfSignal p, Instr.linkDown p, Instr.frame p, Instr.replayTimeout p])
    (hf : c = .frame p → 3 ≤ (s.port p).missed)
    (hr : c = .replayTimeout p → (s.port p).replay ≠ [] ∧ 7 ≤ (s.port p).tries) : exec c s = .next (s.linkLost p) := by
  simp only [List.mem_cons, List.not_mem_nil, or_false] at hc
  rcases hc with rfl | rfl | rfl | rfl
  · rfl
  · exact if_pos h
  · change execFrame p s = _
    rw [execFrame, if_neg (not_not.2 h), if_pos (hf rfl)]
  · obtain ⟨hne, ht⟩ := hr rfl
    change execReplayTimeout p s = _
    rw [execReplayTimeout, if_pos h, State.resendAll, if_neg (by simpa using hne), if_pos (by omega)]

theorem linkLoss_complete : Claims.LinkLossComplete := fun _ _ _ h _ hc hf hr =>
  ⟨_, exec_losesLink h hc hf hr, State.linkLost_spec h⟩

/-! ### Upkeep of a link (R354 to R356) -/

theorem frame_counts {s : State} {p : Nat} (h : s.lts p = 6) (hm : (s.port p).missed < 3) :
    exec (.frame p) s = .next (s.setPort p { s.port p with
      missed := (s.port p).missed + 1, frame := s.tb % s.lapTicks / 1000 }) := by
  change execFrame p s = _
  rw [execFrame, if_neg (not_not.2 h), if_neg (Nat.not_le.2 hm)]
  rfl

theorem retrain_counts {s : State} {p : Nat} (h : s.lts p = 6) :
    exec (.retrain p) s = .next (s.setPort p { s.port p with rxSeq := (s.port p).rxSeq + 1 }) := if_pos h

theorem replayTimeout_resends {s : State} {p : Nat} (h : s.lts p = 6) (hne : (s.port p).replay ≠ []) (ht : (s.port p).tries < 7) :
    exec (.replayTimeout p) s = .next (s.setPort p { s.port p with
      resend := (s.port p).replay.length, tries := (s.port p).tries + 1 }) := by
  change execReplayTimeout p s = _
  rw [execReplayTimeout, if_pos h, State.resendAll, if_neg (by simpa using hne), if_neg (by omega)]

theorem replayTimeout_idle {s : State} {p : Nat} (h : s.lts p = 6) (he : (s.port p).replay = []) :
    exec (.replayTimeout p) s = .next s := by
  change execReplayTimeout p s = _
  rw [execReplayTimeout, if_pos h, State.resendAll, if_pos (by rw [he]; rfl)]

theorem linkUpkeep_complete : Claims.LinkUpkeepComplete := fun _ _ _ h =>
  ⟨frame_counts h, retrain_counts h, replayTimeout_resends h, replayTimeout_idle h⟩

/-- Settles O44: each step of training sets its port's state, and what a partner's refusal or a lost link does beyond its port queues
flits and files records. -/
theorem linksTrainAndFail : Obligations.LinksTrainAndFail :=
  ⟨training_complete, partner_identity, linkLoss_complete, linkUpkeep_complete⟩

end Sys2Proof.Machine

/-!
PROOFS. Time transfer (R374 to R376, R395): what a marker does to the Time Base, and what the absence of markers reports. Settles
O45.
-/
namespace Sys2Proof.Machine

/-! ### Markers (R374, R375) -/

/-- A marker agrees with the Lap and the frame of the Time Base (R374). -/
def State.agrees (s : State) (k : Marker) : Prop := k.lap = s.lap ∧ k.frame = s.tb % s.lapTicks / 1000

theorem not_first_lock {s : State} (hlock : s.mode ≠ .prep ∨ s.ring.locked = true) :
    (decide (s.mode = .prep) && !s.ring.locked) = false := by
  rcases hlock with hm | hl
  · rw [decide_eq_false hm, Bool.false_and]
  · rw [hl, Bool.not_true, Bool.and_false]

theorem baton_refused {s : State} {p : Nat} (h : s.lts p = 6) (k : Marker) {crcOk : Bool} (rxd : Int)
    (hbad : crcOk = false ∨ (s.mode ≠ .prep ∨ s.ring.locked = true) ∧ ¬ s.agrees k) :
    exec (.baton p k crcOk rxd) s = .next (if p < 2 then s.add64 (Reg.ringPortMkerr p) 1 else s) := by
  change execBaton p k crcOk rxd s = _
  rw [execBaton, if_neg (not_not.2 h)]
  dsimp only
  rw [if_pos]
  rcases hbad with rfl | ⟨hlock, hno⟩
  · rfl
  · have hagree : (decide (k.lap = s.lap) && decide (k.frame = s.tb % s.lapTicks / 1000)) = false := by
      rw [Bool.and_eq_false_iff, decide_eq_false_iff_not, decide_eq_false_iff_not]
      exact not_and_or.1 hno
    rw [not_first_lock hlock, hagree]
    simp

theorem exec_baton {s : State} {p : Nat} (h : s.lts p = 6) {k : Marker} (rxd : Int) (ha : s.agrees k) :
    exec (.baton p k true rxd) s = .next (s.marker p k rxd) := by
  obtain ⟨hl, hf⟩ := ha
  change execBaton p k true rxd s = _
  rw [execBaton, if_neg (not_not.2 h)]
  simp [hl, hf]

/-- Ports, memory, engines, Tasks and time stay. -/
def TimeKept (s t : State) : Prop :=
  t.ring.ports = s.ring.ports ∧ t.m = s.m ∧ t.engines = s.engines ∧ t.sta = s.sta ∧ t.tb = s.tb ∧ t.tbFrac = s.tbFrac

theorem TimeKept.trans {s t u : State} (h : TimeKept s t) (k : TimeKept t u) : TimeKept s u := by
  obtain ⟨h1, h2, h3, h4, h5, h6⟩ := h
  obtain ⟨k1, k2, k3, k4, k5, k6⟩ := k
  exact ⟨k1.trans h1, k2.trans h2, k3.trans h3, k4.trans h4, k5.trans h5, k6.trans h6⟩

theorem TimeKept.setFld (s : State) (r : RegRef) (hi lo v : Nat) : TimeKept s (s.setFld r hi lo v) :=
  ⟨rfl, rfl, rfl, rfl, rfl, rfl⟩

/-- The part has a valid marker: it is recorded at its port, and the upstream port is chosen (R375). -/
def State.heard (s : State) (p : Nat) (k : Marker) (rxd : Int) : State :=
  let s1 := s.updPort p (fun x => { x with missed := 0, mhops := k.mhops, mv := k.mv, rxd := rxd })
  let s2 := if p < 2 then s1.setFld (Reg.ringPortDly p) 15 0 (field16 ((rxd + k.rxd) / 2)) else s1
  { s2 with ring := { s2.ring with upstream := s2.chooseUp } }

/-- The markers that agree in a row are counted, sixteen of them shown (R375). -/
def State.noteDrift (s : State) (th : Int) : State :=
  let good := if -8 ≤ th ∧ th ≤ 8 then s.ring.good + 1 else 0
  ({ s with ring := { s.ring with good := Nat.min good 16 } } : State).setBit Reg.ringStat 19 (decide (16 ≤ good))

/-- The step of the Time Base for a measured difference: one unit towards it. -/
def stepFor (th : Int) : Int := if 0 < th then -1 else if th < 0 then 1 else 0

theorem stepFor_bounds (th : Int) : -1 ≤ stepFor th ∧ stepFor th ≤ 1 := by
  unfold stepFor
  split
  · decide
  · split <;> decide

theorem State.marker_locked {s : State} (hlock : s.mode ≠ .prep ∨ s.ring.locked = true) (p : Nat) (k : Marker) (rxd : Int) :
    s.marker p k rxd =
      if (s.heard p k rxd).isMaster then (s.heard p k rxd).noteDrift 0
      else if (s.heard p k rxd).ring.upstream ≠ p ∨ !k.mv then s.heard p k rxd
      else ((((s.heard p k rxd).setFld Reg.ringSync 31 16 (field16 ((rxd - k.rxd) / 2))).setFld Reg.ringStat 24 20
        (k.mhops + 1)).noteDrift ((rxd - k.rxd) / 2)).moveTime (stepFor ((rxd - k.rxd) / 2)) := by
  unfold State.marker
  rw [not_first_lock hlock]
  rfl

theorem TimeKept.noteDrift (s : State) (th : Int) : TimeKept s (s.noteDrift th) := by
  unfold State.noteDrift
  refine ⟨?_, ?_, ?_, ?_, ?_, ?_⟩
  · rw [State.setBit_ring]
  · rw [State.setBit_m]
  · rw [State.setBit_engines]
  · rw [State.setBit_sta]
  · rw [State.setBit_tb]
  · rw [State.setBit_tbFrac]

theorem TimeKept.heard (s : State) (p : Nat) (k : Marker) (rxd : Int) :
    TimeKept (s.updPort p (fun x => { x with missed := 0, mhops := k.mhops, mv := k.mv, rxd := rxd })) (s.heard p k rxd) := by
  unfold State.heard
  generalize s.updPort p _ = u
  dsimp only
  split
  · exact ⟨rfl, rfl, rfl, rfl, rfl, rfl⟩
  · exact ⟨rfl, rfl, rfl, rfl, rfl, rfl⟩

/-- Once time is locked, a valid marker is recorded at its port and moves the Time Base by at most 1/64 ns. -/
theorem State.marker_step {s : State} (hlock : s.mode ≠ .prep ∨ s.ring.locked = true) (p : Nat) (k : Marker) (rxd : Int) :
    ∃ u, TimeKept (s.updPort p (fun x => { x with missed := 0, mhops := k.mhops, mv := k.mv, rxd := rxd })) u ∧
      (s.marker p k rxd = u ∨ ∃ d : Int, -1 ≤ d ∧ d ≤ 1 ∧ s.marker p k rxd = u.moveTime d) := by
  rw [State.marker_locked hlock]
  have hh := TimeKept.heard s p k rxd
  split
  · exact ⟨_, hh.trans (TimeKept.noteDrift ..), .inl rfl⟩
  · split
    · exact ⟨_, hh, .inl rfl⟩
    · obtain ⟨h1, h2⟩ := stepFor_bounds ((rxd - k.rxd) / 2)
      exact ⟨_, hh.trans ((TimeKept.setFld ..).trans ((TimeKept.setFld ..).trans (TimeKept.noteDrift ..))),
        .inr ⟨_, h1, h2, rfl⟩⟩

/-- Time in units of 1/64 ns (R374). -/
def State.time64 (s : State) : Int := (s.tb : Int) * 64 + s.tbFrac

theorem State.time64_moveTime {s : State} (htb : 0 < s.tb) (hfrac : 0 ≤ s.tbFrac) {d : Int} (hd : -1 ≤ d) :
    (s.moveTime d).time64 = s.time64 + d := by
  have h0 : 0 ≤ (s.tb : Int) * 64 + s.tbFrac + d := by omega
  have htime : (s.moveTime d).time64 =
      ((((s.tb : Int) * 64 + s.tbFrac + d) / 64).toNat : Int) * 64 + ((s.tb : Int) * 64 + s.tbFrac + d) % 64 := rfl
  rw [htime, State.time64]
  generalize (s.tb : Int) * 64 + s.tbFrac + d = x at h0
  omega

theorem baton_moves {s : State} {p : Nat} (h : s.lts p = 6) {k : Marker} (rxd : Int)
    (hlock : s.mode ≠ .prep ∨ s.ring.locked = true) (ha : s.agrees k) (htb : 0 < s.tb) (hfrac : 0 ≤ s.tbFrac) :
    ∃ t, exec (.baton p k true rxd) s = .next t ∧ (t.port p).missed = 0 ∧ (t.port p).mhops = k.mhops ∧ (t.port p).mv = k.mv ∧
      t.m = s.m ∧ t.engines = s.engines ∧ t.sta = s.sta ∧
      ∃ d : Int, -1 ≤ d ∧ d ≤ 1 ∧ (t.tb : Int) * 64 + t.tbFrac = (s.tb : Int) * 64 + s.tbFrac + d := by
  obtain ⟨u, ⟨hp, hm, heng, hsta, hutb, hufrac⟩, hu⟩ := State.marker_step hlock p k rxd
  have hport : u.port p = { s.port p with missed := 0, mhops := k.mhops, mv := k.mv, rxd := rxd } := by
    rw [State.port, hp]
    exact s.port_updPort p _
  have htime : u.time64 = s.time64 := by rw [State.time64, hutb, hufrac]; rfl
  rw [exec_baton h rxd ha]
  rcases hu with hu | ⟨d, h1, h2, hu⟩
  · rw [hu]
    exact ⟨u, rfl, by rw [hport], by rw [hport], by rw [hport], hm, heng, hsta, 0, by decide, by decide,
      htime.trans (Int.add_zero _).symm⟩
  · rw [hu]
    have hmove := u.time64_moveTime (d := d) (by rw [hutb]; exact htb) (by rw [hufrac]; exact hfrac) h1
    have hport' : (u.moveTime d).port p = u.port p := rfl
    exact ⟨_, rfl, by rw [hport', hport], by rw [hport', hport], by rw [hport', hport], hm, heng, hsta, d, h1, h2,
      hmove.trans (by rw [htime]; rfl)⟩

/-! ### Holdover (R376, R395) -/

theorem holdover_complete {s : State} (hmaster : s.isMaster = false) (hrun : s.mode.running = true)
    (hlts : s.lts s.ring.upstream = 6) (hup : s.ring.upstream < 2) (hmiss : 3 ≤ (s.port s.ring.upstream).missed) :
    ∃ t, exec .holdover s = .next t ∧ t.m = s.m ∧ t.engines = s.engines ∧ t.sta = s.sta ∧
      (s.flt.queue.length < 1024 → t.reports 0x15) ∧
      t.ring.upstream = (if s.lts (1 - s.ring.upstream) = 6 ∧ (s.port (1 - s.ring.upstream)).mv = true ∧
          (s.port (1 - s.ring.upstream)).missed = 0 then 1 - s.ring.upstream else s.ring.upstream) := by
  have hk := LinksKept.fault s 0x15 (originOf s.pos 6 4) 0 0 0 0
  have hrep : s.flt.queue.length < 1024 → (s.fault 0x15 (originOf s.pos 6 4) 0 0 0 0).reports 0x15 :=
    fun hq => State.reports_fault hq (by decide) _ _ _ _ _
  have hexec : exec .holdover s = .next (let u := s.fault 0x15 (originOf s.pos 6 4) 0 0 0 0
      { u with ring := { u.ring with
        upstream := if decide (s.ring.upstream < 2) && decide (u.lts (1 - s.ring.upstream) = 6) &&
          (u.port (1 - s.ring.upstream)).mv && decide ((u.port (1 - s.ring.upstream)).missed = 0)
          then 1 - s.ring.upstream else s.ring.upstream } }) := by
    change execHoldover s = _
    rw [execHoldover]
    simp only [hmaster, hrun, hlts, hmiss, Bool.not_false, Bool.true_and, decide_true, if_true]
  rw [hexec]
  generalize s.fault 0x15 (originOf s.pos 6 4) 0 0 0 0 = u at hk hrep
  have hother := hk.port (1 - s.ring.upstream)
  have hmv : (u.port (1 - s.ring.upstream)).mv = (s.port (1 - s.ring.upstream)).mv := by rw [hother]
  have hmissed : (u.port (1 - s.ring.upstream)).missed = (s.port (1 - s.ring.upstream)).missed := by rw [hother]
  refine ⟨_, rfl, hk.m, hk.engines, hk.sta, hrep, ?_⟩
  dsimp only
  simp only [hup, hk.lts, hmv, hmissed, decide_true, Bool.true_and, Bool.and_eq_true, decide_eq_true_eq, and_assoc]

/-- Settles O45: a marker that is refused is counted, one that agrees is recorded at its port before time moves by at most one unit,
and holdover files its record and then chooses its port. -/
theorem timeTransferComplete : Obligations.TimeTransferComplete := by
  refine ⟨fun s p k crcOk rxd _ h => ⟨fun hlock => ⟨fun hbad => ?_, fun hok ha htb hfrac => ?_⟩, fun hbad => ?_⟩,
    fun _ => holdover_complete⟩
  · exact baton_refused h k rxd (hbad.imp_right fun hno => ⟨hlock, hno⟩)
  · subst hok
    exact baton_moves h rxd hlock ha htb hfrac
  · exact baton_refused h k rxd (.inl hbad)

end Sys2Proof.Machine

/-!
PROOFS. The link layer of a receiver (R355 to R358): a flit on a link that is not active, one with a wrong CRC, one whose link
fields alone count, and one in the link's order.
-/
namespace Sys2Proof.Machine

theorem SMap.get_upd_self {α : Type} [DecidableEq α] (d : α) (m : SMap α) (k : Nat) (f : α → α) :
    SMap.get d (SMap.upd d m k f) k = f (SMap.get d m k) := SMap.get_set_self d m k _

theorem SMap.get_upd_ne {α : Type} [DecidableEq α] (d : α) (m : SMap α) {k j : Nat} (f : α → α) (h : j ≠ k) :
    SMap.get d (SMap.upd d m k f) j = SMap.get d m j := SMap.get_set_ne d d m k j _ h

/-! ### Link fields (R356, R357) -/

/-- A port whose partner has acknowledged flits and returned credits. -/
def Port.linked (x : Port) (f : Flit) : Port :=
  let keep := x.replay.filter (fun g => decide (512 ≤ (f.ack - g.seq).toNat))
  { x with
    acked := f.ack, replay := keep, resend := Nat.min x.resend keep.length,
    tries := if keep.length < x.replay.length then 0 else x.tries,
    credits := [(0, f.crd.toNat / 512), (1, f.crd.toNat / 64 % 8), (2, f.crd.toNat / 8 % 8), (3, f.crd.toNat % 8)].foldl
      (fun m (q : Nat × Nat) => SMap.upd 0 m q.1 (· + q.2)) x.credits }

/-- The link fields of a flit without NAK change their port alone. -/
theorem State.linkFields_eq (s : State) (p : Nat) {f : Flit} (h : f.nak = 0) :
    s.linkFields p f = s.setPort p ((s.port p).linked f) := by
  unfold State.linkFields
  rw [h]
  rfl

theorem Port.credit_linked (x : Port) (f : Flit) :
    (x.linked f).credit 0 = x.credit 0 + f.crd.toNat / 512 ∧ (x.linked f).credit 1 = x.credit 1 + f.crd.toNat / 64 % 8 ∧
      (x.linked f).credit 2 = x.credit 2 + f.crd.toNat / 8 % 8 ∧ (x.linked f).credit 3 = x.credit 3 + f.crd.toNat % 8 := by
  simp only [Port.credit, Port.linked, List.foldl_cons, List.foldl_nil]
  refine ⟨?_, ?_, ?_, ?_⟩ <;>
    simp [SMap.get_upd_self, SMap.get_upd_ne]

/-- A port that asks its partner once for a replay (R356). -/
def Port.asking (x : Port) : Port := if x.nakSent then x else { x with nakSent := true, nakOut := true }

theorem Port.asking_eq (x : Port) : x.asking = { x with nakSent := true, nakOut := x.asking.nakOut } := by
  unfold Port.asking
  split
  · rename_i h
    rw [← h]
  · rfl

theorem State.askReplay_eq (s : State) (p : Nat) : s.askReplay p = s.setPort p (s.port p).asking := rfl

/-! ### Arrival (R355 to R358) -/

/-- Each command names the kinds of flits that it stands for (Table 11.4). -/
theorem exec_arrival {c : Nat → Flit → BitVec 32 → Instr} {ks : List Nat}
    (h : (c, ks) ∈ [(Instr.idle, [0]), (Instr.pkt, [1, 5, 6, 7]), (Instr.data, [2]), (Instr.ack, [3])]) (p : Nat) {f : Flit}
    (crc : BitVec 32) (s : State) (hk : f.kind.toNat ∈ ks) :
    exec (c p f crc) s =
      .next (if (s.rxLink p f crc).2 = true then (s.rxLink p f crc).1.route p f else (s.rxLink p f crc).1) := by
  have hrec : exec (c p f crc) s = s.receive p f crc ks := by
    simp only [List.mem_cons, List.not_mem_nil, or_false, Prod.mk.injEq] at h
    rcases h with ⟨rfl, rfl⟩ | ⟨rfl, rfl⟩ | ⟨rfl, rfl⟩ | ⟨rfl, rfl⟩ <;> rfl
  rw [hrec, State.receive, if_neg (by simpa using hk)]
  rcases s.rxLink p f crc with ⟨t, b⟩
  cases b <;> rfl

theorem State.rxLink_inactive {s : State} {p : Nat} (h : s.lts p ≠ 6) (f : Flit) (crc : BitVec 32) :
    s.rxLink p f crc = (s, false) := if_pos h

theorem State.rxLink_badCrc {s : State} {p : Nat} (h : s.lts p = 6) {f : Flit} {crc : BitVec 32} (hc : crc ≠ flitCrc f) :
    s.rxLink p f crc = ((if p < 2 then s.add64 (Reg.ringPortCrcerr p) 1 else s).askReplay p, false) := by
  rw [State.rxLink, if_neg (not_not.2 h), if_pos hc]

/-- A good flit without SEQ, or out of order, counts for its link fields alone; the latter asks for a replay. -/
theorem State.rxLink_fields {s : State} {p : Nat} (h : s.lts p = 6) {f : Flit} {crc : BitVec 32} (hc : crc = flitCrc f)
    (hn : f.nak = 0) (hbad : f.kind = 0 ∨ f.seq ≠ (s.port p).rxSeq + 1) :
    s.rxLink p f crc = (if f.kind = 0 then s.setPort p ((s.port p).linked f)
      else (s.setPort p ((s.port p).linked f)).setPort p ((s.port p).linked f).asking, false) := by
  rw [State.rxLink, if_neg (not_not.2 h), if_neg (not_not.2 hc), s.linkFields_eq p hn]
  dsimp only
  rw [State.lts_setPort, State.port_setPort]
  by_cases hk : f.kind = 0
  · rw [if_pos (.inl hk), if_pos hk]
  · have hseq : f.seq ≠ ((s.port p).linked f).rxSeq + 1 := hbad.resolve_left hk
    rw [if_neg (not_or.2 ⟨hk, not_not.2 h⟩), if_neg hk, if_pos hseq, State.askReplay_eq, State.port_setPort]

/-- A port that takes the next flit of its link. -/
def Port.took (x : Port) (f : Flit) : Port := { x.linked f with rxSeq := f.seq, nakSent := false }

/-- A flit in the link's order goes on. -/
theorem State.rxLink_inOrder {s : State} {p : Nat} {f : Flit} {crc : BitVec 32} (h : s.inOrder p f crc) :
    s.rxLink p f crc = ((s.setPort p ((s.port p).linked f)).setPort p ((s.port p).took f), true) := by
  obtain ⟨hl, hc, hn, hs, hk, hcls, hr⟩ := h
  have hseq : f.seq = ((s.port p).linked f).rxSeq + 1 := hs
  have hk0 : f.kind ≠ 0 := fun h0 => by rw [h0] at hk; simp at hk
  have hk4 : ¬ 4 < f.kind.toNat := by
    simp only [List.mem_cons, List.not_mem_nil, or_false] at hk
    omega
  rw [State.rxLink, if_neg (not_not.2 hl), if_neg (not_not.2 hc), s.linkFields_eq p hn]
  dsimp only
  rw [State.lts_setPort, State.port_setPort, if_neg (not_or.2 ⟨hk0, not_not.2 hl⟩), if_neg (not_not.2 hseq), if_neg]
  · rw [State.updPort, State.port_setPort]
    rfl
  · rintro (h4 | h3 | hreqr)
    · exact hk4 h4
    · exact hcls h3
    · omega

theorem arrival_inactive {s : State} {p : Nat} (h : s.lts p ≠ 6) (f : Flit) (crc : BitVec 32) :
    (if (s.rxLink p f crc).2 = true then (s.rxLink p f crc).1.route p f else (s.rxLink p f crc).1) = s := by
  rw [State.rxLink_inactive h]
  rfl

theorem rxLink_badCrc_spec {s : State} {p : Nat} (h : s.lts p = 6) {f : Flit} {crc : BitVec 32} (hc : crc ≠ flitCrc f) :
    ∃ t, s.rxLink p f crc = (t, false) ∧ (t.port p).nakSent = true ∧ (t.port p).rxSeq = (s.port p).rxSeq ∧
      (t.port p).replay = (s.port p).replay ∧ (t.port p).credits = (s.port p).credits ∧
      (p < 2 → t.rd64 (Reg.ringPortCrcerr p) = s.rd64 (Reg.ringPortCrcerr p) + 1) ∧
      t = { s with regs := t.regs, ring := t.ring } := by
  obtain ⟨u, hu, hport, hcnt, e⟩ : ∃ u : State, u = { s with regs := u.regs } ∧ u.port p = s.port p ∧
      (p < 2 → u.rd64 (Reg.ringPortCrcerr p) = s.rd64 (Reg.ringPortCrcerr p) + 1) ∧
      u = if p < 2 then s.add64 (Reg.ringPortCrcerr p) 1 else s := by
    refine ⟨_, ?_, ?_, ?_, rfl⟩ <;> split
    · exact State.add64_regs ..
    · rfl
    · rfl
    · rfl
    · exact fun _ => s.rd64_add64 _ 1
    · exact fun hp => absurd hp ‹¬ p < 2›
  rw [State.rxLink_badCrc h hc, ← e, State.askReplay_eq, hport]
  have hask : (u.setPort p (s.port p).asking).port p = { s.port p with nakSent := true, nakOut := (s.port p).asking.nakOut } := by
    rw [State.port_setPort, ← Port.asking_eq]
  refine ⟨_, rfl, by rw [hask], by rw [hask], by rw [hask], by rw [hask], fun hp => ?_, ?_⟩
  · rw [← hcnt hp]
    rfl
  · rw [hu]
    rfl

theorem rxLink_fields_spec {s : State} {p : Nat} (h : s.lts p = 6) {f : Flit} {crc : BitVec 32} (hc : crc = flitCrc f)
    (hn : f.nak = 0) (hbad : f.kind = 0 ∨ f.seq ≠ (s.port p).rxSeq + 1) :
    ∃ t a, s.rxLink p f crc = (t, false) ∧ t = { s with ring := t.ring } ∧
      t.port p = { (s.port p).linked f with nakSent := a, nakOut := (t.port p).nakOut } := by
  rw [State.rxLink_fields h hc hn hbad]
  split
  · exact ⟨_, ((s.port p).linked f).nakSent, rfl, rfl, by rw [State.port_setPort]⟩
  · refine ⟨_, true, rfl, rfl, ?_⟩
    rw [State.port_setPort]
    exact Port.asking_eq _

theorem linkLayer_complete : Claims.LinkLayerComplete := by
  intro s p f crc c ks hp hmem hk
  rw [exec_arrival hmem p crc s hk]
  refine ⟨fun h => by rw [arrival_inactive h], fun h hc => ?_, fun h hc hn hbad => ?_⟩
  · obtain ⟨t, ht, hspec⟩ := rxLink_badCrc_spec h hc
    rw [ht]
    exact ⟨t, rfl, hspec⟩
  · obtain ⟨t, a, ht, hframe, hport⟩ := rxLink_fields_spec h hc hn hbad
    obtain ⟨h0, h1, h2, h3⟩ := (s.port p).credit_linked f
    rw [ht]
    refine ⟨t, rfl, ?_, ?_, ?_, ?_, ?_, ?_, hframe⟩
    · rw [hport]; rfl
    · rw [hport]; rfl
    · rw [hport]; exact h0
    · rw [hport]; exact h1
    · rw [hport]; exact h2
    · rw [hport]; exact h3

end Sys2Proof.Machine

/-!
PROOFS. Flits that a ring port takes in the order of its link (R366 to R368, R370 to R372, R378): those for this part, in the order
of their triple or repeated, acknowledgements, and those for another part.
-/
namespace Sys2Proof.Machine

/-! ### The port that takes a flit -/

/-- Nothing differs but ports. -/
def PortsOnly (s t : State) : Prop := t = { s with ring := { s.ring with ports := t.ring.ports } }

theorem PortsOnly.trans {s t u : State} (h : PortsOnly s t) (k : PortsOnly t u) : PortsOnly s u := by
  unfold PortsOnly at *
  rw [k, h]

theorem PortsOnly.setPort (s : State) (p : Nat) (x : Port) : PortsOnly s (s.setPort p x) := rfl

section
variable {s t : State} (h : PortsOnly s t)
include h

theorem PortsOnly.m : t.m = s.m := by rw [h]
theorem PortsOnly.engines : t.engines = s.engines := by rw [h]
theorem PortsOnly.rx : t.ring.rx = s.ring.rx := by rw [h]
theorem PortsOnly.wdata : t.ring.wdata = s.ring.wdata := by rw [h]
theorem PortsOnly.rxT (k : Nat) : t.rxT k = s.rxT k := by rw [h]; rfl
theorem PortsOnly.tx (k : Nat) : t.tx k = s.tx k := by rw [h]; rfl
theorem PortsOnly.pos : t.pos = s.pos := by rw [h]; rfl
theorem PortsOnly.bit (r : RegRef) (b : Nat) : t.bit r b = s.bit r b := by rw [h]; rfl
theorem PortsOnly.rd64 (r : RegRef) : t.rd64 r = s.rd64 r := by rw [h]; rfl
theorem PortsOnly.mirroredNow : t.mirroredNow = s.mirroredNow := by rw [h]; rfl

end

/-- A port of the ring has taken the next flit of its link, and its buffer is as before or free. -/
def TookFlit (s t : State) (p : Nat) (f : Flit) : Prop :=
  PortsOnly s t ∧ (t.port p).rxSeq = f.seq ∧ ∀ q, q ≠ p → t.port q = s.port q

theorem State.tookFlit (s : State) (p : Nat) (f : Flit) :
    TookFlit s ((s.setPort p ((s.port p).linked f)).setPort p ((s.port p).took f)) p f := by
  refine ⟨(PortsOnly.setPort ..).trans (PortsOnly.setPort ..), ?_, fun q hq => ?_⟩
  · rw [State.port_setPort]; rfl
  · rw [State.port_setPort_ne _ _ _ _ hq, State.port_setPort_ne _ _ _ _ hq]

theorem TookFlit.freeBuf {s t : State} {p : Nat} {f : Flit} (h : TookFlit s t p f) (hp : p < 2) (vc : Nat) :
    TookFlit s (t.freeBuf p vc) p f := by
  obtain ⟨h1, h2, h3⟩ := h
  have he : t.freeBuf p vc = t.setPort p { t.port p with returns := SMap.upd 0 (t.port p).returns vc (· + 1) } :=
    if_neg (by omega)
  rw [he]
  refine ⟨h1.trans (PortsOnly.setPort ..), ?_, fun q hq => ?_⟩
  · rw [State.port_setPort]; exact h2
  · rw [State.port_setPort_ne _ _ _ _ hq, h3 q hq]

/-- An arriving flit in the link's order is routed from a state in which its port has taken it. -/
theorem exec_inOrder {c : Nat → Flit → BitVec 32 → Instr} {ks : List Nat}
    (hc : (c, ks) ∈ [(Instr.idle, [0]), (Instr.pkt, [1, 5, 6, 7]), (Instr.data, [2]), (Instr.ack, [3])]) {s : State} {p : Nat}
    {f : Flit} {crc : BitVec 32} (hk : f.kind.toNat ∈ ks) (h : s.inOrder p f crc) :
    ∃ u, TookFlit s u p f ∧ exec (c p f crc) s = .next (u.route p f) := by
  rw [exec_arrival hc p crc s hk, State.rxLink_inOrder h]
  exact ⟨_, s.tookFlit p f, rfl⟩

/-! ### Routes (R372, R378) -/

/-- A flit for this part is taken off its buffer, and acknowledges or is checked. -/
theorem State.route_here {s : State} {p : Nat} (hp : p < 2) {f : Flit} (h : s.forHere f) (hk : f.kind ≠ 4) :
    s.route p f = if f.kind = 3 then (s.freeBuf p f.vc.toNat).takeAck p f else (s.freeBuf p f.vc.toNat).acceptFlit p f := by
  obtain ⟨hdst, hne, hlost⟩ := h
  have hne' : f.src.toNat ≠ f.dst.toNat := fun h => hne (BitVec.eq_of_toNat_eq h)
  unfold State.route
  dsimp only
  rw [if_neg hk, if_neg (show p ≠ 2 by omega), if_neg (by rw [hlost]; exact Bool.false_ne_true),
    if_neg (fun h => hne' h.2.2), if_pos hdst]

theorem State.route_onward {s : State} {p : Nat} (hp : p < 2) {f : Flit} (hk : f.kind ≠ 4) (hdst : f.dst.toNat ≠ s.pos)
    (hne : f.src ≠ f.dst) (hsrc : s.bit Reg.ringLost f.src.toNat = false) (hlost : s.bit Reg.ringLost f.dst.toNat = false) :
    s.route p f = s.forward p f := by
  have hne' : f.src.toNat ≠ f.dst.toNat := fun h => hne (BitVec.eq_of_toNat_eq h)
  unfold State.route
  dsimp only
  rw [if_neg hk, if_neg (show p ≠ 2 by omega), if_neg (by rw [hsrc]; exact Bool.false_ne_true),
    if_neg (fun h => hne' h.2.2), if_neg hdst, if_neg (by rw [hlost]; exact Bool.false_ne_true)]

theorem TookFlit.forHere {s t : State} {p : Nat} {f g : Flit} (h : TookFlit s t p f) (hg : s.forHere g) : t.forHere g := by
  rw [State.forHere, h.1.pos, h.1.bit]
  exact hg

/-- A flit for this part is checked and delivered from a state in which its port has taken it and freed its buffer. -/
theorem exec_forHere {c : Nat → Flit → BitVec 32 → Instr} {ks : List Nat}
    (hc : (c, ks) ∈ [(Instr.idle, [0]), (Instr.pkt, [1, 5, 6, 7]), (Instr.data, [2]), (Instr.ack, [3])]) {s : State} {p : Nat}
    (hp : p < 2) {f : Flit} {crc : BitVec 32} (hk : f.kind.toNat ∈ ks) (hk4 : f.kind ≠ 4) (h : s.inOrder p f crc)
    (hhere : s.forHere f) :
    ∃ u, TookFlit s u p f ∧ exec (c p f crc) s = .next (if f.kind = 3 then u.takeAck p f else u.acceptFlit p f) := by
  obtain ⟨u, hu, he⟩ := exec_inOrder hc hk h
  rw [State.route_here hp (hu.forHere hhere) hk4] at he
  exact ⟨_, hu.freeBuf hp _, he⟩

/-! ### The check of a triple (R370, R371) -/

/-- The triple's key of a flit on a ring port. -/
def rxKey (f : Flit) : Nat := f.src.toNat * 4 + f.vc.toNat

/-- Nothing differs but the Record Unit and its registers. -/
def LogOnly (s t : State) : Prop := t = { s with regs := t.regs, recd := t.recd }

theorem LogOnly.refl (s : State) : LogOnly s s := rfl

theorem LogOnly.trans {s t u : State} (h : LogOnly s t) (k : LogOnly t u) : LogOnly s u := by
  unfold LogOnly at *
  rw [k, h]

theorem LogOnly.log (s : State) (ty a : Nat) (b : W64) (pay : List W64) : LogOnly s (s.log ty a b pay) := (s.log_frame ty a b pay).1

theorem LogOnly.logOpen (s : State) (f : Flit) : LogOnly s (s.logOpen f) := by
  unfold State.logOpen
  dsimp only
  split
  · exact LogOnly.log ..
  · split
    · rfl
    · exact LogOnly.log ..

/-- A repeated flit is counted and dropped. -/
theorem State.acceptFlit_copy {s : State} {p : Nat} (hp : p < 2) {f : Flit} (h : f.eseq = (s.rxT (rxKey f)).last) :
    s.acceptFlit p f = s.add64 Reg.ringCntE2edup 1 := by
  unfold State.acceptFlit
  dsimp only
  rw [if_neg (show p ≠ 2 by omega), ← rxKey, if_pos (.inl (by rw [h, BitVec.sub_self]; rfl))]

/-- The next flit of its triple is delivered outside mirrored operation, the Record Unit having noted it. -/
theorem State.acceptFlit_next {s : State} {p : Nat} (hp : p < 2) {f : Flit} (hm : s.mirroredNow = false)
    (h : f.eseq = (s.rxT (rxKey f)).last + 1) :
    ∃ u, LogOnly { s with ring := { s.ring with rx2e := SMap.set ⟨0⟩ s.ring.rx2e (rxKey f) ⟨f.eseq⟩ } } u ∧
      s.acceptFlit p f = if f.kind = 1 then u.unpack p f else u.takeData f := by
  obtain ⟨s1, e1⟩ : ∃ s1 : State, s1 =
    { s with ring := { s.ring with rx2e := SMap.set ⟨0⟩ s.ring.rx2e (rxKey f) ⟨f.eseq⟩ } } := ⟨_, rfl⟩
  obtain ⟨s2, h2, e2⟩ : ∃ s2, LogOnly s1 s2 ∧ s2 = if p < 2 ∧ s.bit Reg.recCfg 1 then
      s1.log 0x09 p 0 ([BitVec.ofNat 64 (flitHeader f), BitVec.ofNat 64 ((flitHeader f) / 2 ^ 64)] ++ f.body) else s1 := by
    refine ⟨_, ?_, rfl⟩
    split
    · exact LogOnly.log ..
    · exact LogOnly.refl s1
  obtain ⟨s3, h3, e3⟩ : ∃ s3, LogOnly s2 s3 ∧ s3 = if p < 2 ∧ f.cls = 1 then s2.logOpen f else s2 := by
    refine ⟨_, ?_, rfl⟩
    split
    · exact LogOnly.logOpen ..
    · exact LogOnly.refl s2
  have hd : (f.eseq - (s.rxT (rxKey f)).last).toNat = 1 := by
    have : f.eseq - (s.rxT (rxKey f)).last = 1 := by rw [h]; ring
    rw [this]
    rfl
  have hacc : s.acceptFlit p f = s2.deliverFlit p f := by
    unfold State.acceptFlit
    dsimp only
    rw [if_neg (show p ≠ 2 by omega), ← rxKey, hd, if_neg (by decide), if_neg (by decide), ← e1, ← e2,
      if_neg (by simp [hm])]
  refine ⟨s3, e1 ▸ h2.trans h3, ?_⟩
  rw [hacc, e3]
  rfl

/-! ### Delivery (R366 to R368) -/

/-- A flit that carries one good packet brings that packet, which waits to be performed. -/
theorem State.unpack_one {s : State} {p : Nat} (hp : p < 2) {f : Flit} {ty : Nat} {ws : List W64}
    (hf : flitPackets f = [(ty, ws)]) (hok : pktOk ty ws = true) (hmsg : ¬(ty = 6 ∧ (ws.getD 0 0).toNat % 256 = 3)) :
    s.unpack p f = { s with ring := { s.ring with rx := s.ring.rx ++
      [⟨p, f.src.toNat, f.reqr.toNat, f.vc.toNat, f.cls.toNat, f.laptag.toNat, bitsOf (f.body.getD 0 0).toNat 63 48, f.eseq,
        ty, ws⟩] } } := by
  have hring : (!(decide (p < 2) || decide (f.vc = 2))) = false := by rw [decide_eq_true hp]; rfl
  have hbad : (!pktOk ty ws || (decide (p = 2) && windowPkt (ty, ws))) = false := by
    rw [hok, decide_eq_false (show p ≠ 2 by omega)]; rfl
  unfold State.unpack
  rw [hf]
  dsimp only [List.foldl_cons, List.foldl_nil]
  rw [hring, hbad, if_neg Bool.false_ne_true, if_neg Bool.false_ne_true, if_neg hmsg]

theorem State.takeData_write (s : State) {f : Flit} (h : f.vc ≠ 1) :
    s.takeData f = { s with ring := { s.ring with
      wdata := SMap.upd [] s.ring.wdata ((f.src.toNat * 1024 + f.reqr.toNat) * 4 + f.vc.toNat)
        (fun l => l ++ (flitBytes f).take (f.dlen.toNat + 1)) } } := if_neg h

/-- A state in which a port has taken a flit that is the next of its triple. -/
def Accepted (s t : State) (p : Nat) (f : Flit) : Prop :=
  (t.port p).rxSeq = f.seq ∧ (t.rxT (rxKey f)).last = f.eseq ∧ t.m = s.m ∧ t.engines = s.engines ∧ t.ring.rx = s.ring.rx ∧
    t.ring.wdata = s.ring.wdata

/-- A flit for this part, next in its link and in its triple, is unpacked, or its data are taken. -/
theorem exec_nextFlit {c : Nat → Flit → BitVec 32 → Instr} {ks : List Nat}
    (hc : (c, ks) ∈ [(Instr.idle, [0]), (Instr.pkt, [1, 5, 6, 7]), (Instr.data, [2]), (Instr.ack, [3])]) {s : State} {p : Nat}
    (hp : p < 2) {f : Flit} {crc : BitVec 32} (hk : f.kind.toNat ∈ ks) (hk3 : f.kind ≠ 3) (hk4 : f.kind ≠ 4)
    (h : s.inOrder p f crc) (hhere : s.forHere f) (hm : s.mirroredNow = false) (he : f.eseq = (s.rxT (rxKey f)).last + 1) :
    ∃ v, Accepted s v p f ∧ exec (c p f crc) s = .next (if f.kind = 1 then v.unpack p f else v.takeData f) := by
  obtain ⟨u, hu, hexec⟩ := exec_forHere hc hp hk hk4 h hhere
  obtain ⟨v, hv, hacc⟩ := State.acceptFlit_next (s := u) hp (by rw [hu.1.mirroredNow, hm]) (by rw [hu.1.rxT, he])
  rw [if_neg hk3, hacc] at hexec
  obtain ⟨hports, hseq, -⟩ := hu
  unfold LogOnly at hv
  refine ⟨v, ⟨?_, ?_, ?_, ?_, ?_, ?_⟩, hexec⟩
  · rw [hv]; exact hseq
  · rw [hv, State.rxT]
    exact congrArg RxE2e.last (SMap.get_set_self (⟨0⟩ : RxE2e) u.ring.rx2e (rxKey f) ⟨f.eseq⟩)
  · rw [hv]; exact hports.m
  · rw [hv]; exact hports.engines
  · rw [hv]; exact hports.rx
  · rw [hv]; exact hports.wdata

theorem packet_taken {s : State} {p : Nat} (hp : p < 2) {f : Flit} {crc : BitVec 32} (h : s.inOrder p f crc) (hhere : s.forHere f)
    (hk : f.kind = 1) (hm : s.mirroredNow = false) (he : f.eseq = (s.rxT (rxKey f)).last + 1) {ty : Nat} {ws : List W64}
    (hf : flitPackets f = [(ty, ws)]) (hok : pktOk ty ws = true) (hmsg : ¬(ty = 6 ∧ (ws.getD 0 0).toNat % 256 = 3)) :
    ∃ t, exec (.pkt p f crc) s = .next t ∧ (t.port p).rxSeq = f.seq ∧ (t.rxT (rxKey f)).last = f.eseq ∧ t.m = s.m ∧
      t.engines = s.engines ∧ t.ring.rx = s.ring.rx ++ [⟨p, f.src.toNat, f.reqr.toNat, f.vc.toNat, f.cls.toNat, f.laptag.toNat,
        bitsOf (f.body.getD 0 0).toNat 63 48, f.eseq, ty, ws⟩] := by
  obtain ⟨v, ⟨h1, h2, h3, h4, h5, -⟩, hexec⟩ := exec_nextFlit (c := Instr.pkt) (ks := [1, 5, 6, 7]) (by simp) hp
    (by rw [hk]; decide) (by rw [hk]; decide) (by rw [hk]; decide) h hhere hm he
  rw [if_pos hk, State.unpack_one hp hf hok hmsg] at hexec
  refine ⟨_, hexec, h1, h2, h3, h4, ?_⟩
  rw [← h5]

theorem data_taken {s : State} {p : Nat} (hp : p < 2) {f : Flit} {crc : BitVec 32} (h : s.inOrder p f crc) (hhere : s.forHere f)
    (hk : f.kind = 2) (hvc : f.vc ≠ 1) (hm : s.mirroredNow = false) (he : f.eseq = (s.rxT (rxKey f)).last + 1) :
    let k := (f.src.toNat * 1024 + f.reqr.toNat) * 4 + f.vc.toNat
    ∃ t, exec (.data p f crc) s = .next t ∧ (t.port p).rxSeq = f.seq ∧ (t.rxT (rxKey f)).last = f.eseq ∧ t.m = s.m ∧
      t.ring.rx = s.ring.rx ∧
      SMap.get [] t.ring.wdata k = SMap.get [] s.ring.wdata k ++ (flitBytes f).take (f.dlen.toNat + 1) := by
  obtain ⟨v, ⟨h1, h2, h3, -, h5, h6⟩, hexec⟩ := exec_nextFlit (c := Instr.data) (ks := [2]) (by simp) hp
    (by rw [hk]; decide) (by rw [hk]; decide) (by rw [hk]; decide) h hhere hm he
  rw [if_neg (by rw [hk]; decide), v.takeData_write hvc] at hexec
  refine ⟨_, hexec, h1, h2, h3, h5, ?_⟩
  rw [← h6]
  exact SMap.get_upd_self [] v.ring.wdata _ (fun l => l ++ (flitBytes f).take (f.dlen.toNat + 1))

theorem copy_dropped {s : State} {p : Nat} (hp : p < 2) {f : Flit} {crc : BitVec 32} (h : s.inOrder p f crc) (hhere : s.forHere f)
    (hk : f.kind = 1) (he : f.eseq = (s.rxT (rxKey f)).last) :
    ∃ t, exec (.pkt p f crc) s = .next t ∧ (t.port p).rxSeq = f.seq ∧ t.ring.rx = s.ring.rx ∧ t.m = s.m ∧
      t.rd64 Reg.ringCntE2edup = s.rd64 Reg.ringCntE2edup + 1 := by
  obtain ⟨u, ⟨hports, hseq, -⟩, hexec⟩ := exec_forHere (c := Instr.pkt) (ks := [1, 5, 6, 7]) (by simp) hp
    (by rw [hk]; decide) (by rw [hk]; decide) h hhere
  rw [if_neg (by rw [hk]; decide), State.acceptFlit_copy hp (by rw [hports.rxT, he])] at hexec
  refine ⟨_, hexec, hseq, hports.rx, hports.m, ?_⟩
  rw [State.rd64_add64, hports.rd64]
  rfl

theorem flit_goes_on {s : State} {p : Nat} (hp : p < 2) {f : Flit} {crc : BitVec 32} (h : s.inOrder p f crc) (hk : f.kind = 1)
    (hdst : f.dst.toNat ≠ s.pos) (hne : f.src ≠ f.dst) (hsrc : s.bit Reg.ringLost f.src.toNat = false)
    (hlost : s.bit Reg.ringLost f.dst.toNat = false) (hup : (s.port (1 - p)).lost = false) (hhops : f.hops ≠ 31) :
    ∃ t, exec (.pkt p f crc) s = .next t ∧ t.m = s.m ∧ t.ring.rx = s.ring.rx ∧
      (t.port (1 - p)).transit = (s.port (1 - p)).transit ++ [(p, { f with hops := f.hops + 1 })] := by
  obtain ⟨u, ⟨hports, -, hother⟩, hexec⟩ := exec_inOrder (c := Instr.pkt) (ks := [1, 5, 6, 7]) (by simp)
    (by rw [hk]; decide) h
  have hport : u.port (1 - p) = s.port (1 - p) := hother _ (by omega)
  rw [State.route_onward hp (by rw [hk]; decide) (by rwa [hports.pos]) hne (by rwa [hports.bit]) (by rwa [hports.bit]),
    State.forward] at hexec
  rw [hport, hup, if_neg Bool.false_ne_true, if_neg hhops] at hexec
  refine ⟨_, hexec, hports.m, hports.rx, ?_⟩
  rw [State.port_updPort, hport]

/-! ### Acknowledgements (R371) -/

/-- A source drops from a triple's buffer what its RACK covers. -/
def State.rackTx (s : State) (k : Nat) (r : BitVec 12) : State :=
  s.setTx k { s.tx k with rack := r, unacked := (s.tx k).unacked.filter (fun g => !decide ((r - g.eseq).toNat < 2048)) }

theorem State.unacked_rackTx (s : State) (k : Nat) (r : BitVec 12) :
    ((s.rackTx k r).tx k).unacked = (s.tx k).unacked.filter (fun g => !decide ((r - g.eseq).toNat < 2048)) :=
  congrArg TxE2e.unacked (SMap.get_set_self ..)

theorem State.tx_rackTx_ne (s : State) {k j : Nat} (r : BitVec 12) (h : j ≠ k) : (s.rackTx k r).tx j = s.tx j :=
  SMap.get_set_ne _ _ _ _ _ _ h

/-- What the RACKs of an acknowledgement leave of the triples to a part. -/
def State.rackAll (s : State) (n w : Nat) : State :=
  [0, 1, 2, 3].foldl (fun s vc => s.rackTx (n * 4 + vc) (BitVec.ofNat 12 (w / 2 ^ (12 * vc)))) s

theorem State.rackTx_frame (s : State) (k : Nat) (r : BitVec 12) :
    s.rackTx k r = { s with ring := { s.ring with tx2e := (s.rackTx k r).ring.tx2e } } := rfl

theorem State.rackAll_frame (s : State) (n w : Nat) :
    s.rackAll n w = { s with ring := { s.ring with tx2e := (s.rackAll n w).ring.tx2e } } := by
  simp only [State.rackAll, List.foldl_cons, List.foldl_nil]
  rw [State.rackTx_frame, State.rackTx_frame, State.rackTx_frame, State.rackTx_frame]

theorem State.unacked_rackAll (s : State) (n w : Nat) {vc : Nat} (h : vc < 4) :
    ((s.rackAll n w).tx (n * 4 + vc)).unacked = (s.tx (n * 4 + vc)).unacked.filter (fun g =>
      !decide ((BitVec.ofNat 12 (w / 2 ^ (12 * vc)) - g.eseq).toNat < 2048)) := by
  have hne : ∀ {i j : Nat}, i ≠ j → n * 4 + i ≠ n * 4 + j := fun h => by omega
  simp only [State.rackAll, List.foldl_cons, List.foldl_nil]
  interval_cases vc
  · rw [State.tx_rackTx_ne _ _ (hne (by decide)), State.tx_rackTx_ne _ _ (hne (by decide)),
      State.tx_rackTx_ne _ _ (hne (by decide)), State.unacked_rackTx]
  · rw [State.tx_rackTx_ne _ _ (hne (by decide)), State.tx_rackTx_ne _ _ (hne (by decide)), State.unacked_rackTx,
      State.tx_rackTx_ne _ _ (hne (by decide))]
  · rw [State.tx_rackTx_ne _ _ (hne (by decide)), State.unacked_rackTx, State.tx_rackTx_ne _ _ (hne (by decide)),
      State.tx_rackTx_ne _ _ (hne (by decide))]
  · rw [State.unacked_rackTx, State.tx_rackTx_ne _ _ (hne (by decide)), State.tx_rackTx_ne _ _ (hne (by decide)),
      State.tx_rackTx_ne _ _ (hne (by decide))]

/-- An acknowledgement on a ring port frees the triples' buffers, and completes writes. -/
theorem State.takeAck_ring (s : State) {p : Nat} (hp : p < 2) (f : Flit) :
    ∃ l, s.takeAck p f = { s.rackAll f.src.toNat (f.body.getD 0 0).toNat with
      ring := { (s.rackAll f.src.toNat (f.body.getD 0 0).toNat).ring with remote := l } } := by
  unfold State.takeAck
  dsimp only
  rw [if_neg (show p ≠ 2 by omega), if_neg (show p ≠ 2 by omega), if_neg (show p ≠ 2 by omega)]
  exact ⟨_, rfl⟩

theorem ack_taken {s : State} {p : Nat} (hp : p < 2) {f : Flit} {crc : BitVec 32} (h : s.inOrder p f crc) (hhere : s.forHere f)
    (hk : f.kind = 3) :
    ∃ t, exec (.ack p f crc) s = .next t ∧ (t.port p).rxSeq = f.seq ∧ t.m = s.m ∧
      ∀ vc, vc < 4 → (t.tx (f.src.toNat * 4 + vc)).unacked = (s.tx (f.src.toNat * 4 + vc)).unacked.filter (fun g =>
        !decide ((BitVec.ofNat 12 ((f.body.getD 0 0).toNat / 2 ^ (12 * vc)) - g.eseq).toNat < 2048)) := by
  obtain ⟨u, ⟨hports, hseq, -⟩, hexec⟩ := exec_forHere (c := Instr.ack) (ks := [3]) (by simp) hp
    (by rw [hk]; decide) (by rw [hk]; decide) h hhere
  obtain ⟨l, hl⟩ := u.takeAck_ring hp f
  rw [if_pos hk, hl] at hexec
  have hun := fun vc (hvc : vc < 4) => u.unacked_rackAll f.src.toNat (f.body.getD 0 0).toNat hvc
  have hfr := u.rackAll_frame f.src.toNat (f.body.getD 0 0).toNat
  generalize u.rackAll f.src.toNat (f.body.getD 0 0).toNat = v at hexec hun hfr
  have hm : v.m = s.m := by rw [hfr]; exact hports.m
  have hport : v.port p = u.port p := by rw [hfr]; rfl
  refine ⟨_, hexec, ?_, hm, fun vc hvc => ?_⟩
  · rw [← hseq, ← hport]
    rfl
  · rw [← hports.tx, ← hun vc hvc]
    rfl

theorem flits_taken : Claims.FlitsComplete :=
  ⟨fun _ _ _ _ _ _ hp h hhere hk hm he hf hok hmsg => packet_taken hp h hhere hk hm he hf hok hmsg,
    fun _ _ _ _ hp h hhere hk hvc hm he => data_taken hp h hhere hk hvc hm he,
    fun _ _ _ _ hp h hhere hk => ack_taken hp h hhere hk,
    fun _ _ _ _ hp h hhere hk he => copy_dropped hp h hhere hk he,
    fun _ _ _ _ hp h hk hdst hne hsrc hlost hup hhops => flit_goes_on hp h hk hdst hne hsrc hlost hup hhops⟩

end Sys2Proof.Machine

/-!
PROOFS. Resends, the end of a drain and the bypass (R371, R380, R383).
-/
namespace Sys2Proof.Machine

/-- The counters of dropped and of resent flits. -/
def resendOffs : List Nat :=
  [Reg.ringCntDrop.off, Reg.ringCntDrop.off + 4, Reg.ringCntResend.off, Reg.ringCntResend.off + 4]

/-- Flits have been queued again: the ports and the two counters alone differ. -/
def Requeued (s t : State) : Prop :=
  t = { s with regs := t.regs, ring := { s.ring with ports := t.ring.ports } } ∧ OnlyRegs s t resendOffs

theorem Requeued.refl (s : State) : Requeued s s := ⟨rfl, OnlyRegs.refl s _⟩

theorem Requeued.trans {s t u : State} (h : Requeued s t) (k : Requeued t u) : Requeued s u :=
  ⟨by rw [k.1, h.1], h.2.trans k.2⟩

theorem Requeued.updPort (s : State) (p : Nat) (g : Port → Port) : Requeued s (s.updPort p g) := ⟨rfl, fun _ _ => rfl⟩

theorem Requeued.add64 (s : State) {r : RegRef} (h : r.off ∈ resendOffs) (h' : r.off + 4 ∈ resendOffs) (n : Nat) :
    Requeued s (s.add64 r n) := by
  refine ⟨?_, OnlyRegs.add64 s h h' n⟩
  obtain ⟨x, hx⟩ : ∃ x, s.add64 r n = { s with regs := x } := ⟨_, s.add64_regs r n⟩
  rw [hx]

theorem Requeued.draining {s t : State} (h : Requeued s t) : t.ring.draining = s.ring.draining := by rw [h.1]

theorem Requeued.drainHeld {s t : State} (h : Requeued s t) : t.ring.drainHeld = s.ring.drainHeld := by rw [h.1]

theorem Requeued.toPort (s : State) (p : Nat) (f : Flit) : Requeued s (s.toPort p f) := by
  unfold State.toPort
  split
  · exact Requeued.updPort ..
  · split
    · exact Requeued.add64 s (by decide) (by decide) 1
    · exact Requeued.updPort ..

theorem Requeued.resendTriple (s : State) (k : Nat) : Requeued s (s.resendTriple k) :=
  (Requeued.updPort ..).trans (Requeued.add64 _ (by decide) (by decide) _)

theorem Requeued.foldl {β : Type} (l : List β) (f : State → β → State) (h : ∀ s b, Requeued s (f s b)) (s : State) :
    Requeued s (l.foldl f s) := by
  induction l generalizing s with
  | nil => exact Requeued.refl s
  | cons b t ih => exact (h s b).trans (ih _)

/-- Where nothing drains, flits that were held go to the ports of their routes. -/
theorem Requeued.sendFlits (l : List Flit) {s : State} (h : s.ring.draining = []) :
    Requeued s (l.foldl (fun s f => s.sendFlit f) s) := by
  induction l generalizing s with
  | nil => exact Requeued.refl s
  | cons f t ih =>
    have h1 : Requeued s (s.sendFlit f) := by
      rw [State.sendFlit, h]
      exact Requeued.toPort ..
    exact h1.trans (ih (by rw [h1.draining, h]))

/-- Flits wait at a port once more, as flits that hold no buffer. -/
def Port.requeue (x : Port) (fs : List Flit) : Port := { x with transit := x.transit ++ fs.map (fun f => (3, f)) }

/-- A triple on the ring is resent by the port of its route. -/
theorem State.resendTriple_ring (s : State) {dst vc : Nat} (hdst : dst < 32) (hvc : vc < 4) :
    s.resendTriple (dst * 4 + vc) = (s.updPort (s.routePort dst) (fun x => x.requeue (s.tx (dst * 4 + vc)).unacked)).add64
      Reg.ringCntResend (s.tx (dst * 4 + vc)).unacked.length := by
  rw [State.resendTriple, if_neg (show ¬ 128 ≤ dst * 4 + vc by omega), show (dst * 4 + vc) / 4 = dst by omega]
  rfl

theorem resend_complete {s : State} {dst vc : Nat} (hdst : dst < 32) (hvc : vc < 4) (hne : dst ≠ s.pos) :
    ∃ t, exec (.resend dst vc) s = .next t ∧ t = { s with regs := t.regs, ring := t.ring } ∧
      (t.port (s.routePort dst)).transit =
        (s.port (s.routePort dst)).transit ++ (s.tx (dst * 4 + vc)).unacked.map (fun f => (3, f)) ∧
      t.rd64 Reg.ringCntResend = s.rd64 Reg.ringCntResend + BitVec.ofNat 64 (s.tx (dst * 4 + vc)).unacked.length := by
  have hexec : exec (.resend dst vc) s = .next (s.resendTriple (dst * 4 + vc)) := by
    change execResend dst vc s = _
    rw [execResend, if_neg hne]
  have hq := Requeued.resendTriple s (dst * 4 + vc)
  refine ⟨_, hexec, by rw [hq.1], ?_, ?_⟩
  · rw [s.resendTriple_ring hdst hvc, State.port_add64, State.port_updPort]
    rfl
  · rw [s.resendTriple_ring hdst hvc, State.rd64_add64]
    rfl

theorem drainHoldEnd_complete {s : State} (h : s.bit Reg.ringStat 18 = true) :
    ∃ t, exec .drainHoldEnd s = .next t ∧ t.bit Reg.ringStat 18 = false ∧ t.ring.drainHeld = [] ∧ t.ring.draining = [] ∧
      t = { s with regs := t.regs, ring := t.ring } := by
  obtain ⟨u, hu⟩ : ∃ u, u =
      ({ s with ring := { s.ring with drainHeld := [], draining := [] } } : State).setBit Reg.ringStat 18 false := ⟨_, rfl⟩
  have hbit : u.bit Reg.ringStat 18 = false := by rw [hu, State.bit_setBit _ _ (by decide)]
  have hring : u.ring.drainHeld = [] ∧ u.ring.draining = [] := by rw [hu, State.setBit_ring]; exact ⟨rfl, rfl⟩
  have hframe : u = { s with regs := u.regs, ring := u.ring } := by rw [hu]; rfl
  have hexec : exec .drainHoldEnd s = .next (s.ring.draining.foldl
      (fun s d => [0, 1, 2].foldl (fun s vc => s.resendTriple (d * 4 + vc)) s)
      (s.ring.drainHeld.foldl (fun s f => s.sendFlit f) u)) := by
    rw [hu]
    exact if_pos h
  have hq := (Requeued.sendFlits s.ring.drainHeld hring.2).trans (Requeued.foldl s.ring.draining
    (fun s d => [0, 1, 2].foldl (fun s vc => s.resendTriple (d * 4 + vc)) s)
    (fun s d => Requeued.foldl [0, 1, 2] (fun s vc => s.resendTriple (d * 4 + vc)) (fun s vc => Requeued.resendTriple ..) s) _)
  refine ⟨_, hexec, ?_, hq.drainHeld.trans hring.1, hq.draining.trans hring.2, ?_⟩
  · rw [hq.2.bit (by decide), hbit]
  · rw [hq.1, hframe]

theorem resendAndBypass_complete : Claims.ResendAndBypassComplete :=
  ⟨fun _ _ _ => resend_complete, fun _ => drainHoldEnd_complete, fun _ h => if_pos h, fun _ h => if_pos h⟩

end Sys2Proof.Machine

/-!
PROOFS. Cells (R357, R359, R361, R362, R370): what filling a cell changes, and the flit that a cell for scheduled traffic sends.
Settles O46.
-/
namespace Sys2Proof.Machine

/-! ### What a cell changes (R361) -/

/-- Only registers and the ring layer differ. -/
def RingOnly (s t : State) : Prop := t = { s with regs := t.regs, ring := t.ring }

theorem RingOnly.trans {s t u : State} (h : RingOnly s t) (k : RingOnly t u) : RingOnly s u := by
  unfold RingOnly at *
  rw [k, h]

theorem RingOnly.ring (s : State) (x : Ring) : RingOnly s { s with ring := x } := rfl

theorem RingOnly.add64 (s : State) (r : RegRef) (n : Nat) : RingOnly s (s.add64 r n) := by
  unfold RingOnly
  obtain ⟨x, hx⟩ : ∃ x, s.add64 r n = { s with regs := x } := ⟨_, s.add64_regs r n⟩
  rw [hx]

theorem RingOnly.launch (s : State) (p : Nat) (f : Flit) : RingOnly s (s.launch p f) := RingOnly.ring s _

theorem RingOnly.freeBuf (s : State) (p vc : Nat) : RingOnly s (s.freeBuf p vc) := by
  unfold State.freeBuf
  split
  · rfl
  · exact RingOnly.ring s _

theorem RingOnly.tryReplay {s t : State} {p : Nat} (h : s.tryReplay p = some t) : RingOnly s t := by
  unfold State.tryReplay at h
  dsimp only at h
  split at h
  · exact absurd h (by simp)
  · rw [← Option.some.inj h]
    split
    · exact (RingOnly.ring s _).trans (RingOnly.add64 _ _ 1)
    · exact RingOnly.ring s _

theorem RingOnly.tryTransit {s t : State} {p : Nat} {want : Flit → Bool} (h : s.tryTransit p want = some t) : RingOnly s t := by
  unfold State.tryTransit at h
  dsimp only at h
  split at h
  · exact absurd h (by simp)
  · split at h
    · exact absurd h (by simp)
    · rw [← Option.some.inj h]
      exact ((RingOnly.ring s _).trans (RingOnly.launch ..)).trans (RingOnly.freeBuf ..)

theorem RingOnly.tryAck {s t : State} {p : Nat} (h : s.tryAck p = some t) : RingOnly s t := by
  unfold State.tryAck at h
  dsimp only at h
  split at h
  · exact absurd h (by simp)
  · obtain ⟨n, -, hn⟩ := List.exists_of_findSome?_eq_some h
    obtain ⟨f, -, hf⟩ := Option.map_eq_some_iff.1 hn
    rw [← hf]
    exact (RingOnly.ring s _).trans (RingOnly.launch ..)

/-- The state in which a flit has been numbered in its triple, marked as sent, and counted against its grant (R362, R370). -/
def State.numbered (s : State) (p : Nat) (f : Flit) : State :=
  let t := s.tx (txKey p f)
  let s2 := s.setTx (txKey p f) { t with next := t.next + 1, unacked := t.unacked ++ [f] }
  let s3 := if p = 2 then s2 else s2.markSent f
  if p < 2 ∧ f.cls = 0 ∧ f.vc ≠ 1 then
    { s3 with ring := { s3.ring with sentLap := SMap.upd 0 s3.ring.sentLap (f.dst.toNat * 256 + f.laptag.toNat) (· + 1) } }
  else s3

/-- Numbering changes neither ports nor anything outside the ring layer, and of the triples that of the flit. -/
theorem State.numbered_spec (s : State) (p : Nat) (f : Flit) :
    RingOnly s (s.numbered p f) ∧ (s.numbered p f).ring.ports = s.ring.ports ∧
      (s.numbered p f).tx (txKey p f) = { s.tx (txKey p f) with
        next := (s.tx (txKey p f)).next + 1, unacked := (s.tx (txKey p f)).unacked ++ [f] } := by
  obtain ⟨s2, e2⟩ : ∃ s2, s2 = s.setTx (txKey p f) { s.tx (txKey p f) with
    next := (s.tx (txKey p f)).next + 1, unacked := (s.tx (txKey p f)).unacked ++ [f] } := ⟨_, rfl⟩
  have h2 : RingOnly s s2 ∧ s2.ring.ports = s.ring.ports ∧ s2.tx (txKey p f) = { s.tx (txKey p f) with
      next := (s.tx (txKey p f)).next + 1, unacked := (s.tx (txKey p f)).unacked ++ [f] } := by
    rw [e2]
    exact ⟨rfl, rfl, SMap.get_set_self ..⟩
  obtain ⟨s3, h3, e3⟩ : ∃ s3, (RingOnly s2 s3 ∧ s3.ring.ports = s2.ring.ports ∧ s3.ring.tx2e = s2.ring.tx2e) ∧
      s3 = if p = 2 then s2 else s2.markSent f := by
    refine ⟨_, ?_, rfl⟩
    split <;> exact ⟨rfl, rfl, rfl⟩
  obtain ⟨s4, h4, e4⟩ : ∃ s4, (RingOnly s3 s4 ∧ s4.ring.ports = s3.ring.ports ∧ s4.ring.tx2e = s3.ring.tx2e) ∧
      s4 = s.numbered p f := by
    unfold State.numbered
    dsimp only
    rw [← e2, ← e3]
    refine ⟨_, ?_, rfl⟩
    split <;> exact ⟨rfl, rfl, rfl⟩
  obtain ⟨k1, k2, k3⟩ := h2
  obtain ⟨l1, l2, l3⟩ := h3
  obtain ⟨m1, m2, m3⟩ := h4
  rw [← e4]
  refine ⟨k1.trans (l1.trans m1), m2.trans (l2.trans k2), ?_⟩
  rw [State.tx, m3, l3]
  exact k3

/-- Whether the flit at a place of the injection queue may leave (R357, R370, R372). -/
def State.mayInject (s : State) (p : Nat) (want : Flit → Bool) (i : Nat) : Bool :=
  match (s.port p).inject[i]? with
  | none => false
  | some f => want { f with cls := BitVec.ofNat 2 (s.injCls p f) } && decide (2 ≤ (s.port p).credit f.vc.toNat) &&
      !((s.port p).inject.take i).any (fun g => decide (g.dst = f.dst) && decide (g.vc = f.vc) && decide (g.reqr = f.reqr)) &&
      decide ((s.tx (txKey p f)).unacked.length < 2047) && !s.e2eFull p

/-- The flit as it is injected: with the class that its grant leaves it, and the next number of its triple. -/
def State.stamped (s : State) (p : Nat) (f : Flit) : Flit :=
  { f with cls := BitVec.ofNat 2 (s.injCls p f), eseq := (s.tx (txKey p f)).next }

theorem State.tryInject_eq (s : State) (p : Nat) (want : Flit → Bool) :
    s.tryInject p want =
      if 512 ≤ (s.port p).replay.length then none
      else ((List.range (s.port p).inject.length).find? (s.mayInject p want)).bind fun i =>
        ((s.port p).inject[i]?).map fun f =>
          let s1 := s.setPort p { s.port p with inject := (s.port p).inject.eraseIdx i }
          if p < 2 ∧ f.vc = 3 then s1.launch p f else (s1.numbered p (s.stamped p f)).launch p (s.stamped p f) := by
  unfold State.tryInject
  dsimp only
  split
  · rfl
  · split
    · rename_i hnone
      have hfind : (List.range (s.port p).inject.length).find? (s.mayInject p want) = none := hnone
      rw [hfind]
      rfl
    · rename_i i hsome
      have hfind : (List.range (s.port p).inject.length).find? (s.mayInject p want) = some i := hsome
      rw [hfind, Option.bind_some]
      split
      · rename_i hf
        rw [hf]
        rfl
      · rename_i f hf
        rw [hf, Option.map_some]
        split
        · rfl
        · rfl

theorem RingOnly.tryInject {s t : State} {p : Nat} {want : Flit → Bool} (h : s.tryInject p want = some t) : RingOnly s t := by
  rw [State.tryInject_eq] at h
  split at h
  · exact absurd h (by simp)
  · obtain ⟨i, -, hi⟩ := Option.bind_eq_some_iff.1 h
    obtain ⟨f, -, hf⟩ := Option.map_eq_some_iff.1 hi
    rw [← hf]
    dsimp only
    split
    · exact (RingOnly.ring s _).trans (RingOnly.launch ..)
    · exact ((RingOnly.ring s _).trans (State.numbered_spec _ p _).1).trans (RingOnly.launch ..)

/-- A candidate for a slot, where it has a flit ready, changes registers and the ring layer alone. -/
def Fills (s : State) (o : Option State) : Prop := ∀ t, o = some t → RingOnly s t

theorem Fills.tryReplay (s : State) (p : Nat) : Fills s (s.tryReplay p) := fun _ => RingOnly.tryReplay
theorem Fills.tryAck (s : State) (p : Nat) : Fills s (s.tryAck p) := fun _ => RingOnly.tryAck
theorem Fills.tryTransit (s : State) (p : Nat) (want : Flit → Bool) : Fills s (s.tryTransit p want) := fun _ => RingOnly.tryTransit
theorem Fills.tryInject (s : State) (p : Nat) (want : Flit → Bool) : Fills s (s.tryInject p want) := fun _ => RingOnly.tryInject

theorem Fills.firstOf {s : State} {l : List (Option State)} (h : ∀ o ∈ l, Fills s o) : Fills s (firstOf l) := by
  intro t ht
  induction l with
  | nil => exact absurd ht (by simp [Machine.firstOf])
  | cons o l ih =>
    obtain ⟨ho, hl⟩ := List.forall_mem_cons.1 h
    cases o with
    | none => exact ih hl ht
    | some u => exact ho t ht

/-- What a slot is filled with is one of the flits that wait, or IDLE. -/
theorem RingOnly.fillSlot (s : State) (p code : Nat) : RingOnly s (s.fillSlot p code) := by
  unfold State.fillSlot
  dsimp only
  split
  · rename_i t ht
    refine Fills.firstOf ?_ t ht
    split
    · simp [Fills.tryReplay, Fills.tryAck, Fills.tryTransit, Fills.tryInject]
    · split
      · simp [Fills.tryReplay, Fills.tryTransit, Fills.tryInject]
      · split
        · simp [Fills.tryReplay, Fills.tryAck, Fills.tryTransit, Fills.tryInject]
        · simp [Fills.tryReplay, Fills.tryAck, Fills.tryTransit, Fills.tryInject]
  · exact RingOnly.ring s _

theorem exec_cell {s : State} {p c : Nat} (h : s.lts p = 6) (hc : c < 390 * s.fld Reg.lapCfg 5 0) :
    exec (.cell p c) s = .next (
      let code := if p < 2 then s.cellCode p c else 0
      if p < 2 ∧ (s.port p).gen = 2 then (s.fillSlot p code).fillSlot p code else s.fillSlot p code) :=
  if_neg (not_or.2 ⟨not_not.2 h, Nat.not_le.2 hc⟩)

theorem cell_ringOnly {s : State} {p c : Nat} (h : s.lts p = 6) (hc : c < 390 * s.fld Reg.lapCfg 5 0) :
    ∃ t, exec (.cell p c) s = .next t ∧ RingOnly s t := by
  rw [exec_cell h hc]
  refine ⟨_, rfl, ?_⟩
  dsimp only
  split
  · exact (RingOnly.fillSlot ..).trans (RingOnly.fillSlot ..)
  · exact RingOnly.fillSlot ..

/-! ### The flit that a scheduled cell sends (R357, R359, R361, R362, R370) -/

/-- The flit as it leaves: with the link's next number, its acknowledgement, its NAK and its credits. -/
def Port.outgoing (x : Port) (f : Flit) : Flit :=
  { f with seq := x.txSeq + 1, ack := x.rxSeq, nak := if x.nakOut then 1 else 0, crd := x.takeCrd.1 }

theorem State.launch_port (s : State) (p : Nat) (f : Flit) :
    (s.launch p f).port p = { (s.port p).takeCrd.2 with
      txSeq := (s.port p).txSeq + 1, replay := (s.port p).replay ++ [(s.port p).outgoing f],
      credits := SMap.upd 0 (s.port p).credits f.vc.toNat (fun c => c - 1) } :=
  s.port_setPort p _

/-- The first flit of an injection queue leaves where it is wanted, has two credits and finds room. -/
theorem State.tryInject_head {s : State} {p : Nat} {want : Flit → Bool} {f : Flit} {rest : List Flit}
    (hq : (s.port p).inject = f :: rest) (hrep : (s.port p).replay.length < 512)
    (hw : want { f with cls := BitVec.ofNat 2 (s.injCls p f) } = true) (hcr : 2 ≤ (s.port p).credit f.vc.toNat)
    (htx : (s.tx (txKey p f)).unacked.length < 2047) (hfull : s.e2eFull p = false) (hvc : f.vc ≠ 3) :
    s.tryInject p want =
      some (((s.setPort p { s.port p with inject := rest }).numbered p (s.stamped p f)).launch p (s.stamped p f)) := by
  have hmay : s.mayInject p want 0 = true := by
    unfold State.mayInject
    rw [hq]
    simp [hw, hcr, htx, hfull]
  have hfind : (List.range (s.port p).inject.length).find? (s.mayInject p want) = some 0 := by
    rw [hq, List.length_cons, List.range_succ_eq_map, List.find?_cons_of_pos hmay]
  rw [State.tryInject_eq, if_neg (Nat.not_le.2 hrep), hfind, Option.bind_some, hq, List.getElem?_cons_zero, Option.map_some,
    List.eraseIdx_cons_zero]
  dsimp only
  rw [if_neg (fun h => hvc h.2)]

/-- A slot for scheduled traffic, with nothing to replay and nothing in transit, takes the oldest flit within its grant. -/
theorem State.fillSlot_scheduled {s t : State} {p : Nat} (hp : p < 2) (hres : (s.port p).resend = 0)
    (htr : (s.port p).transit = []) (hi : s.tryInject p (fun f => decide (f.cls = 0)) = some t) : s.fillSlot p 1 = t := by
  have hr : s.tryReplay p = none := if_pos hres
  have ht : s.tryTransit p (fun f => decide (f.cls = 0)) = none := by
    unfold State.tryTransit
    dsimp only
    rw [htr]
    split <;> rfl
  unfold State.fillSlot
  dsimp only
  rw [if_neg (show p ≠ 2 by omega), if_pos rfl, hr, ht, hi]
  rfl

theorem cell_sends {s : State} {p c : Nat} {f : Flit} {rest : List Flit} (hp : p < 2) (h : s.lts p = 6)
    (hc : c < 390 * s.fld Reg.lapCfg 5 0) (hcode : s.cellCode p c = 1) (hgen : (s.port p).gen ≠ 2)
    (hres : (s.port p).resend = 0) (htr : (s.port p).transit = []) (hq : (s.port p).inject = f :: rest) (hvc : f.vc ≠ 3)
    (hcls : s.injCls p f = 0) (hrep : (s.port p).replay.length < 512) (hcr : 2 ≤ (s.port p).credit f.vc.toNat)
    (htx : (s.tx (txKey p f)).unacked.length < 2047) (hfull : s.e2eFull p = false) :
    ∃ t g, exec (.cell p c) s = .next t ∧ (t.port p).inject = rest ∧ (t.port p).replay = (s.port p).replay ++ [g] ∧
      g.seq = (s.port p).txSeq + 1 ∧ (t.port p).txSeq = (s.port p).txSeq + 1 ∧ g.ack = (s.port p).rxSeq ∧
      g.eseq = (s.tx (txKey p f)).next ∧ (t.tx (txKey p f)).next = (s.tx (txKey p f)).next + 1 ∧
      (t.tx (txKey p f)).unacked.length = (s.tx (txKey p f)).unacked.length + 1 ∧ g.kind = f.kind ∧ g.dst = f.dst ∧
      g.vc = f.vc ∧ g.reqr = f.reqr ∧ g.body = f.body ∧ g.cls = 0 ∧
      (t.port p).credit f.vc.toNat = (s.port p).credit f.vc.toNat - 1 := by
  have hinj := State.tryInject_head (want := fun f => decide (f.cls = 0)) hq hrep (by rw [hcls]; rfl) hcr htx hfull hvc
  obtain ⟨x, hx⟩ : ∃ x : Port, x = { s.port p with inject := rest } := ⟨_, rfl⟩
  obtain ⟨u, hu⟩ : ∃ u, u = (s.setPort p x).numbered p (s.stamped p f) := ⟨_, rfl⟩
  rw [← hx, ← hu] at hinj
  obtain ⟨-, hports, htxu⟩ := (s.setPort p x).numbered_spec p (s.stamped p f)
  rw [← hu] at hports htxu
  have hport : u.port p = x := by
    rw [State.port, hports]
    exact s.port_setPort p x
  have hlaunch := u.launch_port p (s.stamped p f)
  rw [hport] at hlaunch
  have hexec : exec (.cell p c) s = .next (u.launch p (s.stamped p f)) := by
    rw [exec_cell h hc]
    dsimp only
    rw [if_neg (fun h => hgen h.2), if_pos hp, hcode, State.fillSlot_scheduled hp hres htr hinj]
  have htxt : (u.launch p (s.stamped p f)).tx (txKey p f) = { s.tx (txKey p f) with
      next := (s.tx (txKey p f)).next + 1, unacked := (s.tx (txKey p f)).unacked ++ [s.stamped p f] } := htxu
  refine ⟨_, x.outgoing (s.stamped p f), hexec, ?_, ?_, ?_, ?_, ?_, ?_, ?_, ?_, ?_, ?_, ?_, ?_, ?_, ?_, ?_⟩
  · rw [hlaunch, hx]; rfl
  · rw [hlaunch, hx]
  · rw [hx]; rfl
  · rw [hlaunch, hx]
  · rw [hx]; rfl
  · rfl
  · rw [htxt]
  · rw [htxt, List.length_append]; rfl
  · rfl
  · rfl
  · rfl
  · rfl
  · rfl
  · change BitVec.ofNat 2 (s.injCls p f) = 0
    rw [hcls]
    rfl
  · rw [hlaunch, hx]
    exact SMap.get_upd_self 0 (s.port p).credits f.vc.toNat (fun c => c - 1)

theorem cell_complete : Claims.CellComplete := by
  refine ⟨fun s p c h hc => ?_, fun s p c f rest hp h hc hcode hgen hres htr hq hvc hcls hrep hcr htx hfull =>
    cell_sends hp h hc hcode hgen hres htr hq hvc hcls hrep hcr htx hfull⟩
  obtain ⟨t, ht, hr⟩ := cell_ringOnly h hc
  exact ⟨t, ht, by rw [hr], by rw [hr], by rw [hr], by rw [hr], by rw [hr]⟩

/-- Settles O46: a cell by the flit that it launches, an arrival by its link, its route and its triple, and resends by the queues that
they fill. -/
theorem flitsComplete : Obligations.FlitsComplete := ⟨cell_complete, linkLayer_complete, flits_taken, resendAndBypass_complete⟩

end Sys2Proof.Machine

/-!
PROOFS. Handoffs, fences, re-runs and rejoins (R411, R412, R416 to R418, R422, R425): what losing a request and stopping engines
leave, then each command by the state that its rule leads to. Settles O50.
-/
namespace Sys2Proof.Machine

/-! ### A request that is lost (R245, R368, R416) -/

theorem RingOnly.toPort (s : State) (p : Nat) (f : Flit) : RingOnly s (s.toPort p f) := by
  unfold State.toPort
  split
  · exact RingOnly.ring s _
  · split
    · exact RingOnly.add64 s _ 1
    · exact RingOnly.ring s _

theorem RingOnly.sendFlit (s : State) (f : Flit) : RingOnly s (s.sendFlit f) := by
  unfold State.sendFlit
  split
  · exact RingOnly.ring s _
  · exact RingOnly.toPort ..

theorem RingOnly.foldl {β : Type} (l : List β) (g : State → β → State) (h : ∀ s b, RingOnly s (g s b)) (s : State) :
    RingOnly s (l.foldl g s) := by
  induction l generalizing s with
  | nil => rfl
  | cons b t ih => exact (h s b).trans (ih _)

theorem RingOnly.respond (s : State) (part reqr cls laptag sts : Nat) (bs : List Byte) :
    RingOnly s (s.respond part reqr cls laptag sts bs) :=
  RingOnly.foldl _ _ (fun s _ => (RingOnly.ring s _).trans (RingOnly.sendFlit ..)) s

theorem RingOnly.answer (s : State) (id sts : Nat) (bs : List Byte) : RingOnly s (s.answer id sts bs) := by
  unfold State.answer State.sendAnswers
  split
  · rfl
  · exact ((RingOnly.ring s _).trans (RingOnly.ring _ _)).trans (RingOnly.foldl _ _ (fun s _ => RingOnly.respond s ..) _)

theorem RingOnly.returnOld (s : State) (r : MemReq) (sts : Nat) : RingOnly s (s.returnOld r sts) := by
  unfold State.returnOld
  split
  · exact RingOnly.answer ..
  · rfl

section
variable {s t : State} (h : RingOnly s t)
include h

theorem RingOnly.flt : t.flt = s.flt := by rw [h]
theorem RingOnly.m : t.m = s.m := by rw [h]
theorem RingOnly.eng (e : Nat) : t.eng e = s.eng e := by rw [h]; rfl

end

theorem flt_foldl {β : Type} (l : List β) (g : State → β → State) (h : ∀ s b, (g s b).flt = s.flt) (s : State) :
    (l.foldl g s).flt = s.flt := by
  induction l generalizing s with
  | nil => rfl
  | cons b t ih => exact (ih _).trans (h s b)

@[simp] theorem State.flt_spend (s : State) (e c p k : Nat) : (s.spend e c p k).1.flt = s.flt := by
  unfold State.spend
  split
  · rfl
  · split
    · rfl
    · split <;> rfl

@[simp] theorem State.flt_postReq (s : State) (r : MemReq) : (s.postReq r).flt = s.flt := by
  have hc : (s.countTarget r.src.part r.off r.lap r.booked).1.flt = s.flt := by
    rw [(Counted.countTarget s r.src.part r.off r.lap r.booked).1]
  unfold State.postReq
  split
  · exact s.add64_flt _ _
  · exact hc

@[simp] theorem State.flt_postCells (s : State) (r : MemReq) (cs : List (Nat × Byte)) : (s.postCells r cs).flt = s.flt :=
  flt_foldl _ _ (fun _ _ => State.flt_postReq _ _) s

@[simp] theorem State.flt_sendPacket (s : State) (e p ty : Nat) (ws : List W64) (b : Bool) : (s.sendPacket e p ty ws b).flt = s.flt :=
  (RingOnly.sendFlit _ _).flt.trans (s.flt_spend e 5 p 1)

@[simp] theorem State.flt_noteRemote (s : State) (p e : Nat) (a : W64) (v : Nat) (b : Bool) : (s.noteRemote p e a v b).flt = s.flt := by
  unfold State.noteRemote
  split <;> rfl

@[simp] theorem State.flt_issueAt (s : State) (e p off : Nat) (ws : List (Nat × Nat × Nat)) (bs : List Byte) (va : W64) (b n : Bool) :
    (s.issueAt e p off ws bs va b n).flt = s.flt := by
  have hd := congrArg State.flt (Paid.digests e ws s).1
  unfold State.issueAt
  split
  · exact (State.flt_postCells _ _ _).trans hd
  · refine (flt_foldl _ _ (fun _ _ => ?_) _).trans hd
    rw [State.flt_noteRemote, State.flt_sendPacket]

@[simp] theorem State.flt_engineWrite (s : State) (e d : Nat) (bs : List Byte) (va : W64) : (s.engineWrite e d bs va).flt = s.flt :=
  (State.flt_issueAt _ e _ _ _ bs va _ false).trans (s.flt_spend ..)

@[simp] theorem State.flt_ropdWrite (s : State) (e : Nat) (q : SwapOut) (v : W64) : (s.ropdWrite e q v).flt = s.flt := by
  unfold State.ropdWrite
  generalize leBytes 8 v.toNat = bs
  generalize q.pieces = ps
  generalize s.epochOf e = n
  induction ps generalizing s bs with
  | nil => rfl
  | cons p t ih =>
    rw [List.foldl_cons, ih]
    split
    · exact State.flt_engineWrite ..
    · exact State.flt_issueAt ..

@[simp] theorem State.flt_drainSwaps (s : State) (e : Nat) (l : List SwapOut) : (s.drainSwaps e l).flt = s.flt := by
  induction l generalizing s with
  | nil => rfl
  | cons q t ih =>
    unfold State.drainSwaps
    split
    · rfl
    · exact ih s
    · rw [ih, State.flt_ropdWrite]

@[simp] theorem State.flt_loseReq (s : State) (r : MemReq) : (s.loseReq r).flt = s.flt := by
  have hswap : ∀ t : State, (t.swapLost r).flt = t.flt := fun t => by
    unfold State.swapLost
    split
    · split
      · exact State.flt_drainSwaps ..
      · rfl
    · rfl
  exact (hswap _).trans (RingOnly.returnOld s r 1).flt

/-- No engine waits for the old value of a swap. -/
def State.noSwaps (s : State) : Prop := ∀ e, (s.eng e).swaps = []

theorem State.swapLost_noSwaps {s : State} (h : s.noSwaps) (r : MemReq) :
    (s.swapLost r).noSwaps ∧ (s.swapLost r).m = s.m := by
  unfold State.swapLost
  split
  · rename_i n e _ id _ _
    split
    · have heq : s.swapEnds e id none = s.updEng e (fun x => { x with swaps := [] }) := by
        rw [State.swapEnds, h e]
        rfl
      rw [heq]
      refine ⟨fun j => ?_, rfl⟩
      by_cases hj : j = e
      · rw [hj, State.eng_updEng]
      · rw [State.eng_updEng_ne _ _ _ _ hj, h j]
    · exact ⟨h, rfl⟩
  · exact ⟨h, rfl⟩

theorem State.loseReq_noSwaps {s : State} (h : s.noSwaps) (r : MemReq) : (s.loseReq r).noSwaps ∧ (s.loseReq r).m = s.m := by
  have hr := RingOnly.returnOld s r 1
  have hn : (s.returnOld r 1).noSwaps := fun e => by rw [hr.eng e, h e]
  obtain ⟨h1, h2⟩ := State.swapLost_noSwaps hn r
  exact ⟨h1, h2.trans hr.m⟩

theorem State.loseReqs_m {s : State} (h : s.noSwaps) (l : List MemReq) : (l.foldl (fun s r => s.loseReq r) s).m = s.m := by
  induction l generalizing s with
  | nil => rfl
  | cons r t ih =>
    obtain ⟨h1, h2⟩ := State.loseReq_noSwaps h r
    exact (ih h1).trans h2

/-! ### Engines that stop, and bookings that return (R61, R64, R412, R416) -/

/-- Placements have gone and bookings returned: engines, the Starter, lost engines, and the reads that nobody wants any more
alone differ. -/
def Stopped (s t : State) : Prop :=
  t = { s with
    engines := t.engines, sta := t.sta, blk := t.blk
    ring := { s.ring with reqs := t.ring.reqs }, m := { s.m with expq := t.m.expq } }

theorem Stopped.refl (s : State) : Stopped s s := rfl

theorem Stopped.trans {s t u : State} (h : Stopped s t) (k : Stopped t u) : Stopped s u := by
  unfold Stopped at *
  rw [k, h]

theorem Stopped.foldl {β : Type} (l : List β) (g : State → β → State) (h : ∀ s b, Stopped s (g s b)) (s : State) :
    Stopped s (l.foldl g s) := by
  induction l generalizing s with
  | nil => rfl
  | cons b t ih => exact (h s b).trans (ih _)

theorem Stopped.chargeCyc (s : State) (e : Nat) : Stopped s (s.chargeCyc e) := by
  unfold State.chargeCyc
  split <;> rfl

theorem Stopped.clearPlace (s : State) (e : Nat) : Stopped s (s.clearPlace e) := rfl

theorem Stopped.loseEngine (s : State) (e : Nat) : Stopped s (s.loseEngine e) := rfl

theorem Stopped.returnBookings (s : State) (t : Nat) : Stopped s (s.returnBookings t) := rfl

section
variable {s t : State} (h : Stopped s t)
include h

theorem Stopped.flt : t.flt = s.flt := by rw [h]
theorem Stopped.mem : t.m.mem = s.m.mem := by rw [h]
theorem Stopped.memq : t.m.memq = s.m.memq := by rw [h]
theorem Stopped.pair : t.pair = s.pair := by rw [h]
theorem Stopped.rd (r : RegRef) : t.rd r = s.rd r := by rw [h]; rfl
theorem Stopped.pos : t.pos = s.pos := State.pos_congr (h.rd _)

end

/-- Engines give their placements up unsaved, their cycles charged. -/
def State.stopEngines (s : State) (l : List Nat) : State := l.foldl (fun s e => (s.chargeCyc e).clearPlace e) s

theorem Stopped.stopEngines (s : State) (l : List Nat) : Stopped s (s.stopEngines l) :=
  Stopped.foldl l _ (fun s e => (Stopped.chargeCyc s e).trans (Stopped.clearPlace _ e)) s

/-- An engine that neither runs nor holds a placement. -/
def Engine.idle (x : Engine) : Prop := x.running = false ∧ x.place = none

/-- An engine that stops is idle, and an idle one stays so. -/
theorem State.stopEngines_idle {s : State} {l : List Nat} {e : Nat} (h : e ∈ l ∨ (s.eng e).idle) :
    ((s.stopEngines l).eng e).idle := by
  induction l generalizing s with
  | nil => exact h.resolve_left (by simp)
  | cons d t ih =>
    have hcharge : (s.chargeCyc d).eng e = s.eng e := by rw [(s.chargeCyc_eq d).1]; rfl
    obtain ⟨-, hothers, hself⟩ := (s.chargeCyc d).clearPlace_frame d
    refine ih ?_
    by_cases hd : e = d
    · subst hd
      right
      rw [hself]
      exact ⟨rfl, rfl⟩
    · rw [hothers e hd, hcharge]
      exact h.imp_left fun hm => (List.mem_cons.1 hm).resolve_left hd

theorem SMap.get_of_not_key {α : Type} (d : α) {m : SMap α} {k : Nat} (h : k ∉ m.map (fun p => p.1)) : SMap.get d m k = d := by
  induction m with
  | nil => rfl
  | cons p t ih =>
    rw [List.map_cons, List.mem_cons, not_or] at h
    obtain ⟨hp, ht⟩ := h
    exact (if_neg (Ne.symm hp)).trans (ih ht)

/-- Once every listed engine has stopped, all are idle. -/
theorem State.stopListed_idle (s : State) {e : Nat} (he : e < 512) :
    ((s.stopEngines (s.listed.filter (fun e => e < 512))).eng e).idle := by
  refine State.stopEngines_idle ?_
  by_cases hl : e ∈ s.listed
  · exact .inl (List.mem_filter.2 ⟨hl, decide_eq_true he⟩)
  · right
    rw [State.eng, SMap.get_of_not_key _ hl]
    exact ⟨rfl, rfl⟩

/-! ### The end of a fence (R416, R417) -/

theorem Stopped.dropHung (s : State) (f : Fence) : Stopped s (s.dropHung f) := by
  unfold State.dropHung
  split
  · exact Stopped.refl s
  · exact Stopped.foldl _ _ (fun s e => (Stopped.clearPlace s e).trans (Stopped.loseEngine _ e)) s

/-- A request of the part's engines under the epoch. -/
def MemReq.under (r : MemReq) (f : Fence) : Bool :=
  match r.src with
  | .engine n _ => n = f.part && r.epoch = f.epoch
  | .master _ _ => false

theorem MemReq.under_iff {r : MemReq} {f : Fence} : r.under f = true ↔ ∃ e, r.src = .engine f.part e ∧ r.epoch = f.epoch := by
  unfold MemReq.under
  cases hr : r.src with
  | engine n e => simp
  | master n i => simp

/-- Retirement of an epoch: an entry more, and of the waiting requests those under the epoch are gone. -/
theorem State.retireEpoch_spec (s : State) (f : Fence) :
    (s.retireEpoch f).flt = { s.flt with retired := s.flt.retired ++ [⟨f.part, f.epoch, f.lap⟩] } ∧
      (s.retireEpoch f).m.mem = s.m.mem ∧
      (s.noSwaps → (s.retireEpoch f).m.memq = s.m.memq.filter (fun r => !r.under f)) := by
  obtain ⟨s1, h1⟩ : ∃ s1 : State, s1 = { s with
      m := { s.m with memq := s.m.memq.filter (fun r => !r.under f) }
      flt := { s.flt with retired := s.flt.retired ++ [⟨f.part, f.epoch, f.lap⟩] } } := ⟨_, rfl⟩
  have heq : s.retireEpoch f = ((s.m.memq.filter (fun r => r.under f)).foldl (fun s r => s.loseReq r) s1).add64
      Reg.fltCntEpochdrop (s.m.memq.filter (fun r => r.under f)).length := by
    rw [h1]
    rfl
  rw [heq, State.add64_flt, State.add64_m]
  refine ⟨?_, ?_, fun hs => ?_⟩
  · rw [flt_foldl _ _ (fun _ _ => State.flt_loseReq _ _), h1]
  · rw [mem_foldl _ _ (fun _ _ => State.mem_loseReq _ _), h1]
  · have hn : s1.noSwaps := by
      rw [h1]
      exact hs
    rw [State.loseReqs_m hn, h1]

/-- A sweep of a part, this one too, is kept with its Lap; of the Fault Collector nothing else differs. -/
theorem State.sweepPart_spec (s : State) (n f : Nat) :
    (s.sweepPart n f).flt = { s.flt with sweeps := SMap.ins s.flt.sweeps n f } ∧ (s.sweepPart n f).m.mem = s.m.mem := by
  have hflt : ∀ (u : State) (r : MemReq), ((u.dropReq r).loseReq r).flt = u.flt := fun u r => (u.dropReq r).flt_loseReq r
  have hmem : ∀ (u : State) (r : MemReq), ((u.dropReq r).loseReq r).m.mem = u.m.mem := fun u r => (u.dropReq r).mem_loseReq r
  unfold State.sweepPart
  dsimp only
  rw [State.add64_flt, State.add64_m]
  exact ⟨flt_foldl _ _ hflt _, mem_foldl _ _ hmem _⟩

/-- A part that sweeps keeps its fences and retired epochs, and notes the present Lap. -/
theorem State.sweepOwn_spec (s : State) :
    s.sweepOwn.flt.fences = s.flt.fences ∧ s.sweepOwn.flt.retired = s.flt.retired ∧ (s.pos, s.lap) ∈ s.sweepOwn.flt.sweeps ∧
      s.sweepOwn.m.mem = s.m.mem := by
  obtain ⟨s1, h1⟩ : ∃ s1, s1 = s.collect (s.mkRec 0x05 2 (originOf s.pos 7 0) 0 0xFFFF 0 0) .own := ⟨_, rfl⟩
  have hf : Filed s s1 := h1 ▸ Filed.collect s _ _
  obtain ⟨s3, rr, hstop, heq⟩ : ∃ (s3 : State) (rr : List (Nat × Nat)), Stopped s1 s3 ∧
      s.sweepOwn = ({ s3 with flt := { s3.flt with rerun := rr } } : State).sweepPart s3.pos s.lap := by
    subst h1
    exact ⟨_, _, (Stopped.stopEngines _ _).trans (Stopped.foldl _ _ (fun s t => Stopped.returnBookings s t) _), rfl⟩
  obtain ⟨hflt, hmem⟩ := State.sweepPart_spec { s3 with flt := { s3.flt with rerun := rr } } s3.pos s.lap
  have hpos : s3.pos = s.pos := hstop.pos.trans hf.pos
  have hf1 : s1.flt = { s.flt with keys := s1.flt.keys, queue := s1.flt.queue } := by rw [hf.1]
  rw [heq, hflt, hmem, hpos]
  refine ⟨?_, ?_, SMap.mem_ins_self _ _ _, ?_⟩
  · change s3.flt.fences = _
    rw [hstop.flt, hf1]
  · change s3.flt.retired = _
    rw [hstop.flt, hf1]
  · change s3.m.mem = _
    rw [hstop.mem, hf.m]

/-- The state whose one fence has gone. -/
def State.unfenced (s : State) : State := { s with flt := { s.flt with fences := [] } }

theorem exec_fenceEnd {s : State} {f : Fence} (h : s.flt.fences = [f]) : exec (.fenceEnd f.part f.epoch) s =
    if s.lap < f.lap + 2 then .next s
    else if f.lifted then .next s.unfenced
    else if f.part = s.pos && 64 ≤ s.ownRetired then .next (s.unfenced.sweepOwn.dropHung f)
    else .next ((s.unfenced.retireEpoch f).dropHung f) := by
  have hfind : s.flt.fences.find? (fun (g : Fence) => g.part = f.part && g.epoch = f.epoch) = some f := by
    rw [h]
    simp
  have herase : s.flt.fences.erase f = [] := by
    rw [h]
    simp
  change execFenceEnd f.part f.epoch s = _
  rw [execFenceEnd, hfind]
  dsimp only
  rw [herase]
  rfl

theorem fenceEnd_retires {s : State} {f : Fence} (h : s.flt.fences = [f]) (hl : f.lap + 2 ≤ s.lap) (hn : f.lifted = false)
    (ho : f.part = s.pos → s.ownRetired < 64) :
    ∃ t, exec (.fenceEnd f.part f.epoch) s = .next t ∧ t.flt.fences = [] ∧ t.m.mem = s.m.mem ∧
      t.flt.retired = s.flt.retired ++ [⟨f.part, f.epoch, f.lap⟩] ∧
      ((∀ e, (s.eng e).swaps = []) →
        ∀ r, r ∈ t.m.memq ↔ r ∈ s.m.memq ∧ ∀ e, ¬(r.src = .engine f.part e ∧ r.epoch = f.epoch)) := by
  obtain ⟨hflt, hmem, hmemq⟩ := s.unfenced.retireEpoch_spec f
  have hd := Stopped.dropHung (s.unfenced.retireEpoch f) f
  have hexec : exec (.fenceEnd f.part f.epoch) s = .next ((s.unfenced.retireEpoch f).dropHung f) := by
    rw [exec_fenceEnd h, if_neg (Nat.not_lt.2 hl), if_neg (by simp [hn]), if_neg]
    rw [Bool.and_eq_true, decide_eq_true_eq, decide_eq_true_eq]
    exact fun hc => Nat.not_le.2 (ho hc.1) hc.2
  refine ⟨_, hexec, ?_, hd.mem.trans hmem, ?_, fun hs r => ?_⟩
  · rw [hd.flt, hflt]
    rfl
  · rw [hd.flt, hflt]
    rfl
  · rw [hd.memq, hmemq hs, List.mem_filter, Bool.not_eq_true', ← Bool.not_eq_true, MemReq.under_iff, not_exists]
    rfl

theorem fenceEnd_sweeps {s : State} {f : Fence} (h : s.flt.fences = [f]) (hl : f.lap + 2 ≤ s.lap) (hn : f.lifted = false)
    (hp : f.part = s.pos) (ho : 64 ≤ s.ownRetired) :
    ∃ t, exec (.fenceEnd f.part f.epoch) s = .next t ∧ t.flt.fences = [] ∧ (s.pos, s.lap) ∈ t.flt.sweeps ∧
      t.flt.retired = s.flt.retired ∧ t.m.mem = s.m.mem := by
  obtain ⟨hfences, hretired, hsweeps, hmem⟩ := s.unfenced.sweepOwn_spec
  have hd := Stopped.dropHung s.unfenced.sweepOwn f
  have hexec : exec (.fenceEnd f.part f.epoch) s = .next (s.unfenced.sweepOwn.dropHung f) := by
    rw [exec_fenceEnd h, if_neg (Nat.not_lt.2 hl), if_neg (by simp [hn]), if_pos (by simp [hp, ho])]
  refine ⟨_, hexec, ?_, ?_, ?_, hd.mem.trans hmem⟩
  · rw [hd.flt, hfences]
    rfl
  · rw [hd.flt]
    exact hsweeps
  · rw [hd.flt, hretired]
    rfl

/-! ### Re-runs (R61, R418) -/

/-- The state in which the one re-run has been taken from its list. -/
def State.noRerun (s : State) : State := { s with flt := { s.flt with rerun := [] } }

theorem exec_reRun {s : State} {tti f : Nat} (h : s.flt.rerun = [(tti, f)])
    (hl : f + 2 < s.lap ∨ (f + 2 = s.lap ∧ s.pastCycle 64 = true)) : exec (.reRun tti) s = .next (s.noRerun.reRun tti f) := by
  have hfind : s.flt.rerun.find? (fun p => p.1 = tti) = some (tti, f) := by
    rw [h]
    simp
  have herase : s.flt.rerun.erase (tti, f) = [] := by
    rw [h]
    simp
  have hdue : ¬ (s.lap < f + 2 ∨ (s.lap = f + 2 ∧ !s.pastCycle 64)) := by
    rintro (hc | ⟨hc, hp⟩)
    · omega
    · rcases hl with hl | ⟨-, hl⟩
      · omega
      · simp [hl] at hp
  change execReRun tti s = _
  rw [execReRun, hfind]
  dsimp only
  rw [if_neg hdue, herase]
  rfl

/-- The entry of a stopped Task that starts again from its beginning, under a new epoch. -/
def Task.again (t : Task) (st : TState) (epoch laps : Nat) : Task :=
  { t with st := st, epoch := epoch, ovr := 0, started := false, ended := false, lapsLeft := laps }

/-- The state in which a Task starts again under the next epoch, with `laps` Laps to come. -/
def State.restarted (s : State) (tti : Nat) (st : TState) (laps : Nat) : State :=
  s.nextEpoch.1.updTask tti (fun t => t.again st s.nextEpoch.2 laps)

theorem State.task_restarted (s : State) (tti : Nat) (st : TState) (laps : Nat) :
    (s.restarted tti st laps).task tti = (s.task tti).again st s.nextEpoch.2 laps := State.task_updTask _ _ _

/-- The Laps that the search of R54 finds for the bookings of a stopped Task (R418). -/
def State.rerunLaps (s : State) (tti f : Nat) : List Nat :=
  (s.choose (s.task tti).cv (f + 3) ((s.task tti).cv.span + 1) ((s.task tti).deadlineLap + 1 - (f + 3))).1

section
variable {s : State} {tti : Nat} (ha : (s.task tti).alive)
include ha

theorem State.reRun_cancelled (f : Nat) (hc : (s.task tti).cancelReq = true) (ho : (s.task tti).ovr = 0) :
    s.reRun tti f = s.settle tti .cancelled 0 0 := by
  obtain ⟨hfree, hsettled⟩ := ha
  simp [State.reRun, hfree, hsettled, hc, ho]

theorem State.reRun_failed (f : Nat) (hc : (s.task tti).cancelReq = false) (hr : (s.task tti).restart = false) :
    s.reRun tti f = s.fail tti 0x05 := by
  obtain ⟨hfree, hsettled⟩ := ha
  simp [State.reRun, hfree, hsettled, hc, hr]

theorem State.reRun_open (f : Nat) (hc : (s.task tti).cancelReq = false) (hr : (s.task tti).restart = true)
    (h2 : (s.task tti).cls = 2) : s.reRun tti f =
      let u := s.restarted tti .queued (s.task tti).lapsLeft
      { u with sta := { u.sta with openq := tti :: u.sta.openq.filter (fun x => x ≠ tti) } } := by
  obtain ⟨hfree, hsettled⟩ := ha
  simp only [State.reRun, hfree, hsettled, hc, hr, h2]
  rfl

theorem State.reRun_booked (f : Nat) (hc : (s.task tti).cancelReq = false) (hr : (s.task tti).restart = true)
    (h2 : (s.task tti).cls ≠ 2) : s.reRun tti f =
      if (s.rerunLaps tti f).length < (s.task tti).cv.span + 1 then s.fail tti 0x05
      else (s.rerunLaps tti f).foldl (fun u l => u.bookLap (s.task tti).cv tti l)
        (s.restarted tti .booked ((s.task tti).cv.span + 1)) := by
  obtain ⟨hfree, hsettled⟩ := ha
  simp only [State.reRun, hfree, hsettled, hc, hr, h2]
  rfl

/-- Settling leaves the list of re-runs. -/
theorem State.settle_ends (o : Outcome) (cause : Nat) :
    (s.settle tti o cause 0).flt = s.flt ∧ ((s.settle tti o cause 0).task tti).st = .settled ∧
      ((s.settle tti o cause 0).task tti).outcome = o ∧ ((s.settle tti o cause 0).task tti).cause = cause := by
  rw [State.task_settle ha]
  exact ⟨by rw [(s.settle_frame tti o cause 0).1], rfl, rfl, rfl⟩

end

/-- Every Lap found is booked on the engine that its row gives. -/
theorem State.row_rerunLaps {s u : State} {tti f l : Nat} (hb : u.blk = s.blk) (hr : u.sta.rows = s.sta.rows)
    (hl : l ∈ s.rerunLaps tti f) : ∃ e, s.pick (s.task tti).cv (s.row l) = some e ∧
      ((s.rerunLaps tti f).foldl (fun u l => u.bookLap (s.task tti).cv tti l) u).row l = (s.row l).book (s.task tti).cv tti e := by
  obtain ⟨-, hrise, hfits⟩ := s.choose_spec (s.task tti).cv ((s.task tti).deadlineLap + 1 - (f + 3)) (f + 3) ((s.task tti).cv.span + 1)
  obtain ⟨-, -, hfit⟩ := hfits l hl
  obtain ⟨-, e, he⟩ := State.pick_of_fits hfit
  have hrow : u.row l = s.row l := by rw [State.row, hr]; rfl
  have hnodup : (s.rerunLaps tti f).Nodup := hrise.imp Nat.ne_of_lt
  refine ⟨e, he, ?_⟩
  rw [← hrow]
  exact State.row_bookLaps hnodup hl (by rw [State.pick_congr hb, hrow, he])

section
variable {s : State} {tti f : Nat} (h : s.flt.rerun = [(tti, f)])
  (hl : f + 2 < s.lap ∨ (f + 2 = s.lap ∧ s.pastCycle 64 = true)) (ha : (s.task tti).alive)
include h hl ha

theorem reRun_cancels (hc : (s.task tti).cancelReq = true) (ho : (s.task tti).ovr = 0) :
    ∃ t, exec (.reRun tti) s = .next t ∧ t.flt.rerun = [] ∧ (t.task tti).st = .settled ∧ (t.task tti).outcome = .cancelled := by
  obtain ⟨h1, h2, h3, -⟩ := State.settle_ends (s := s.noRerun) ha .cancelled 0
  refine ⟨_, exec_reRun h hl, ?_⟩
  rw [State.reRun_cancelled (s := s.noRerun) ha f hc ho, h1]
  exact ⟨rfl, h2, h3⟩

/-- A re-run that settles its Task Failed. -/
theorem reRun_fails (hrun : s.noRerun.reRun tti f = s.noRerun.fail tti 0x05) :
    ∃ t, exec (.reRun tti) s = .next t ∧ t.flt.rerun = [] ∧ (t.task tti).st = .settled ∧ (t.task tti).outcome = .failed ∧
      (t.task tti).cause = 5 := by
  obtain ⟨h1, h2⟩ := State.settle_ends (s := s.noRerun) ha .failed 5
  refine ⟨_, exec_reRun h hl, ?_⟩
  rw [hrun, State.fail, h1]
  exact ⟨rfl, h2⟩

variable (hc : (s.task tti).cancelReq = false) (hr : (s.task tti).restart = true)
include hc hr

theorem reRun_queues (h2 : (s.task tti).cls = 2) :
    ∃ t, exec (.reRun tti) s = .next t ∧ t.flt.rerun = [] ∧ (t.task tti).st = .queued ∧ (t.task tti).started = false ∧
      t.sta.openq.head? = some tti ∧ (t.task tti).epoch = s.nextEpoch.2 := by
  have hrun := State.reRun_open (s := s.noRerun) ha f hc hr h2
  obtain ⟨u, hu⟩ : ∃ u, u = s.noRerun.restarted tti .queued (s.task tti).lapsLeft := ⟨_, rfl⟩
  have hk : u.task tti = (s.task tti).again .queued s.nextEpoch.2 (s.task tti).lapsLeft := hu ▸ State.task_restarted ..
  have hflt : u.flt.rerun = [] := by rw [hu]; rfl
  refine ⟨{ u with sta := { u.sta with openq := tti :: u.sta.openq.filter (fun x => x ≠ tti) } },
    (exec_reRun h hl).trans (by rw [hrun, hu]; rfl), ?_⟩
  exact ⟨hflt, congrArg Task.st hk, congrArg Task.started hk, rfl, congrArg Task.epoch hk⟩

theorem reRun_books (h2 : (s.task tti).cls ≠ 2) :
    let k := s.task tti
    let laps := (s.choose k.cv (f + 3) (k.cv.span + 1) (k.deadlineLap + 1 - (f + 3))).1
    (laps.length < k.cv.span + 1 →
      ∃ t, exec (.reRun tti) s = .next t ∧ t.flt.rerun = [] ∧ (t.task tti).st = .settled ∧ (t.task tti).outcome = .failed ∧
        (t.task tti).cause = 5) ∧
    (k.cv.span + 1 ≤ laps.length →
      ∃ t, exec (.reRun tti) s = .next t ∧ t.flt.rerun = [] ∧ (t.task tti).st = .booked ∧ (t.task tti).started = false ∧
        (t.task tti).lapsLeft = k.cv.span + 1 ∧ (t.task tti).epoch = s.nextEpoch.2 ∧
        ∀ l, l ∈ laps → ∃ e, s.pick k.cv (s.row l) = some e ∧ t.row l = (s.row l).book k.cv tti e) := by
  intro k laps
  have hlaps : s.noRerun.rerunLaps tti f = laps := congrArg Prod.fst (State.choose_congr (s := s) (t := s.noRerun) rfl rfl ..)
  have hrun := State.reRun_booked (s := s.noRerun) ha f hc hr h2
  refine ⟨fun hn => reRun_fails h hl ha (hrun.trans (if_pos (by rw [hlaps]; exact hn))), fun hn => ?_⟩
  rw [if_neg (by rw [hlaps]; exact Nat.not_lt.2 hn), hlaps] at hrun
  obtain ⟨u, hu⟩ : ∃ u, u = s.noRerun.restarted tti .booked (k.cv.span + 1) := ⟨_, rfl⟩
  have hk : u.task tti = k.again .booked s.nextEpoch.2 (k.cv.span + 1) := hu ▸ State.task_restarted ..
  obtain ⟨t, ht⟩ : ∃ t, t = laps.foldl (fun u l => u.bookLap k.cv tti l) u := ⟨_, rfl⟩
  have hframe := (u.bookLaps_frame k.cv tti laps).1
  rw [← ht] at hframe
  have htask : t.task tti = k.again .booked s.nextEpoch.2 (k.cv.span + 1) := by rw [← hk, hframe]; rfl
  have hflt : t.flt.rerun = [] := by rw [hframe, hu]; rfl
  refine ⟨t, (exec_reRun h hl).trans (by rw [hrun, ht, hu]; rfl), hflt, ?_, ?_, ?_, ?_, fun l hl => ?_⟩
  · exact congrArg Task.st htask
  · exact congrArg Task.started htask
  · exact congrArg Task.lapsLeft htask
  · exact congrArg Task.epoch htask
  · rw [ht]
    exact State.row_rerunLaps (by rw [hu]; rfl) (by rw [hu]; rfl) hl

end

/-! ### Fault records that are popped (R422) -/

theorem fltPop_pops {s : State} {m : Nat} {v : BitVec 32} (h : s.direct m 0xA00004 = true) (hv : v.getLsbD 0 = true) :
    let n := s.noted m 0xA00004 v
    exec (.fltPop m v) s = .next { n with
      flt := { n.flt with queue := s.flt.queue.drop 1 },
      host := { n.host with fltLog := s.host.fltLog ++ s.flt.queue.take 1 } } := by
  have hframe := (s.noted_frame m 0xA00004 v).1
  have hflt : (s.noted m 0xA00004 v).flt = s.flt := by rw [hframe]
  have hhost : (s.noted m 0xA00004 v).host = s.host := by rw [hframe]
  change execFltPop m v s = _
  rw [execFltPop, if_pos (State.accessOk_of_direct h), State.gate_direct h, State.fltPopWrite, if_pos hv, hflt, hhost]

theorem fenceAndRerun_complete : Claims.FenceAndRerunComplete := by
  refine ⟨fun s f h hl => ⟨fun hlift => ?_, fenceEnd_retires h hl, fenceEnd_sweeps h hl⟩, fun s f h hl => ?_,
    fun s tti f h hl hfree hsettled => ?_, fun s m v h hv => fltPop_pops h hv⟩
  · rw [exec_fenceEnd h, if_neg (Nat.not_lt.2 hl), if_pos hlift]
    rfl
  · rw [exec_fenceEnd h, if_pos hl]
  · have ha : (s.task tti).alive := ⟨hfree, hsettled⟩
    exact ⟨reRun_cancels h hl ha, fun hc hr => reRun_fails h hl ha (State.reRun_failed (s := s.noRerun) ha f hc hr),
      reRun_queues h hl ha, reRun_books h hl ha⟩

/-! ### Handoff (R411, R412) -/

/-- Another bit of the same register reads as before. -/
theorem State.bit_setBit_apart (s : State) (r : RegRef) {b b' : Nat} (h : b' < 32) (hb : b' ≠ b) (v : Bool) :
    (s.setBit r b v).bit r b' = s.bit r b' := by
  rw [State.bit, State.bit, State.setBit, s.fld_setFld_apart r (Nat.le_refl b) h (by omega)]

/-- What stops with its ring: its engines are idle, admission is off, and FENCED shows; memory and its requests stay. -/
theorem State.becomeFenced_spec (s : State) :
    s.becomeFenced.bit Reg.pairStat 26 = true ∧ s.becomeFenced.bit Reg.pairStat 25 = false ∧
      s.becomeFenced.bit Reg.staAdmitCtrl 0 = false ∧ s.becomeFenced.pair = s.pair ∧ s.becomeFenced.m.mem = s.m.mem ∧
      s.becomeFenced.m.memq = s.m.memq ∧ ∀ e, e < 512 → (s.becomeFenced.eng e).idle := by
  obtain ⟨u, hu⟩ : ∃ u, u = s.stopEngines (s.listed.filter (fun e => e < 512)) := ⟨_, rfl⟩
  have hstop : Stopped s u := hu ▸ Stopped.stopEngines ..
  have hidle : ∀ e, e < 512 → (u.eng e).idle := fun e he => hu ▸ s.stopListed_idle he
  obtain ⟨w, hw⟩ : ∃ w, w = (u.setBit Reg.staAdmitCtrl 0 false).portOff 2 := ⟨_, rfl⟩
  obtain ⟨hoff, hregs⟩ := (u.setBit Reg.staAdmitCtrl 0 false).portOff_frame 2
  rw [← hw] at hoff hregs
  have heq : s.becomeFenced = (w.setBit Reg.pairStat 26 true).setBit Reg.pairStat 25 false := by
    rw [hw, hu]
    rfl
  have hadmit : w.bit Reg.staAdmitCtrl 0 = false := by
    rw [hregs.bit (by decide), State.bit_setBit _ _ (by decide)]
  rw [heq]
  refine ⟨?_, State.bit_setBit _ _ (by decide) _, ?_, ?_, ?_, ?_, fun e he => ?_⟩
  · rw [State.bit_setBit_apart _ _ (by decide) (by decide), State.bit_setBit _ _ (by decide)]
  · rw [State.bit_setBit_ne _ _ _ _ _ _ (by decide), State.bit_setBit_ne _ _ _ _ _ _ (by decide), hadmit]
  · rw [State.setBit_pair, State.setBit_pair, hoff, ← hstop.pair]
    rfl
  · rw [State.setBit_m, State.setBit_m, hoff, ← hstop.mem]
    rfl
  · rw [State.setBit_m, State.setBit_m, hoff, ← hstop.memq]
    rfl
  · have heng : w.eng e = u.eng e := by rw [hoff]; rfl
    rw [State.eng_setBit, State.eng_setBit, heng]
    exact hidle e he

/-- Stopped Tasks of the surviving side are taken over: fences, re-runs and the Starter alone differ. -/
theorem State.adoptStopped_frame (s : State) : s.adoptStopped = { s with sta := s.adoptStopped.sta, flt := s.adoptStopped.flt } := by
  have hfence : ∀ (u : State) (p n l : Nat), u.beginFence p n l = { u with flt := (u.beginFence p n l).flt } := fun u p n l => by
    unfold State.beginFence
    split <;> rfl
  have hfold : ∀ (l : List Nat) (u : State), ∃ x y, l.foldl (fun s t =>
      let s1 := (s.returnBookings t).beginFence s.pos (s.task t).epoch s.lap
      { s1 with flt := { s1.flt with rerun := s1.flt.rerun ++ [(t, s1.lap)] } }) u = { u with sta := x, flt := y } := by
    intro l
    induction l with
    | nil => exact fun u => ⟨_, _, rfl⟩
    | cons t l ih =>
      intro u
      obtain ⟨x, y, hxy⟩ := ih _
      rw [List.foldl_cons, hxy, hfence]
      exact ⟨_, _, rfl⟩
  obtain ⟨x, y, hxy⟩ := hfold _ s
  unfold State.adoptStopped
  dsimp only
  rw [hxy]

theorem State.becomeSurvivor_spec (s : State) :
    s.becomeSurvivor.bit Reg.pairStat 27 = true ∧ s.becomeSurvivor.bit Reg.pairStat 25 = false ∧
      s.becomeSurvivor.pair = s.pair ∧ s.becomeSurvivor.m = s.m ∧ s.becomeSurvivor.engines = s.engines := by
  obtain ⟨u, hu⟩ : ∃ u, u = (s.setBit Reg.pairStat 27 true).setBit Reg.pairStat 25 false := ⟨_, rfl⟩
  have hframe := u.adoptStopped_frame
  have heq : s.becomeSurvivor = u.adoptStopped := by rw [hu]; rfl
  have hbit : ∀ b, u.adoptStopped.bit Reg.pairStat b = u.bit Reg.pairStat b := fun b => by rw [hframe]; rfl
  have h27 : u.bit Reg.pairStat 27 = true := by
    rw [hu, State.bit_setBit_apart _ _ (by decide) (by decide), State.bit_setBit _ _ (by decide)]
  have h25 : u.bit Reg.pairStat 25 = false := by rw [hu, State.bit_setBit _ _ (by decide)]
  have hpair : u.pair = s.pair := by rw [hu, State.setBit_pair, State.setBit_pair]
  have hm : u.m = s.m := by rw [hu, State.setBit_m, State.setBit_m]
  have heng : u.engines = s.engines := by rw [hu, State.setBit_engines, State.setBit_engines]
  rw [heq, hbit, hbit, hframe]
  exact ⟨h27, h25, hpair, hm, heng⟩

theorem exec_handoff {s : State} {h : Nat} {trail : Bool} (hh : s.pair.handoff = some (h, trail)) : exec .handoff s =
    if s.lap < h ∨ !s.mirroredNow then .next s
    else
      let s1 := { s with pair := { s.pair with handoff := none, lostLap := none } }
      .next (if s.onTrail = trail then s1.becomeFenced else s1.becomeSurvivor) := by
  change execHandoff s = _
  rw [execHandoff, hh]

theorem handoff_complete : Claims.HandoffComplete := by
  intro s h trail hh
  obtain ⟨s1, hs1⟩ : ∃ s1 : State, s1 = { s with pair := { s.pair with handoff := none, lostLap := none } } := ⟨_, rfl⟩
  have hdue : h ≤ s.lap → s.mirroredNow = true →
      exec .handoff s = .next (if s.onTrail = trail then s1.becomeFenced else s1.becomeSurvivor) := fun hl hm => by
    rw [exec_handoff hh, if_neg (by simp [hm, hl]), hs1]
  refine ⟨fun hl => ?_, fun hl hm ht => ?_, fun hl hm ht => ?_⟩
  · rw [exec_handoff hh, if_pos (.inl hl)]
  · obtain ⟨h26, h25, hadmit, hpair, hmem, hmemq, hidle⟩ := s1.becomeFenced_spec
    refine ⟨_, (hdue hl hm).trans (by rw [if_pos ht]), h26, h25, hadmit, ?_, ?_, ?_, hidle⟩
    · rw [hpair, hs1]
    · rw [hmem, hs1]
    · rw [hmemq, hs1]
  · obtain ⟨h27, h25, hpair, hm', heng⟩ := s1.becomeSurvivor_spec
    refine ⟨_, (hdue hl hm).trans (by rw [if_neg ht]), h27, h25, ?_, ?_, ?_⟩
    · rw [hpair, hs1]
    · rw [hm', hs1]
    · rw [heng, hs1]

/-! ### Rejoin (R425) -/

theorem SMap.mem_remap {α β : Type} [DecidableEq β] {d : β} {g : Nat → α → β} {m : SMap α} {p : Nat × β}
    (h : p ∈ SMap.remap d g m) : ∃ v, (p.1, v) ∈ m ∧ p.2 = g p.1 v := by
  induction m with
  | nil => exact absurd h (by simp [SMap.remap])
  | cons q t ih =>
    obtain ⟨k, v⟩ := q
    have hp : p = (k, g k v) ∨ p ∈ SMap.remap d g t := by
      unfold SMap.remap SMap.set at h
      split at h
      · exact .inr (List.mem_filter.1 h).1
      · exact SMap.mem_ins h
    rcases hp with rfl | hp
    · exact ⟨v, List.mem_cons_self, rfl⟩
    · obtain ⟨w, hw, hpw⟩ := ih hp
      exact ⟨w, List.mem_cons_of_mem _ hw, hpw⟩

theorem SMap.remap_default {α β : Type} [DecidableEq β] (d : β) {g : Nat → α → β} (m : SMap α) (h : ∀ k v, g k v = d) :
    SMap.remap d g m = [] := by
  refine List.eq_nil_iff_forall_not_mem.2 fun p hp => ?_
  obtain ⟨v, -, hpv⟩ := SMap.mem_remap hp
  exact (SMap.wf_remap d g m).2 p hp (hpv.trans (h p.1 v))

/-- After the flush no engine has an entry in a TLB or a branch predictor. -/
theorem State.flushAll_empty (s : State) (e : Nat) (x : Engine) (h : (e, x) ∈ s.flushAll.engines) :
    x.itlb = [] ∧ x.dtlb = [] ∧ x.l2 = [] ∧ x.btb = [] := by
  obtain ⟨v, -, hv⟩ := SMap.mem_remap h
  have hx : x = { v.dropSlots (fun _ => true) with btb := [] } := hv
  rw [hx]
  exact ⟨by simp [Engine.dropSlots], by simp [Engine.dropSlots], SMap.remap_default _ _ fun _ _ => by simp, rfl⟩

theorem State.lap_noted (s : State) (m off : Nat) (v : BitVec 32) : (s.noted m off v).lap = s.lap := by
  obtain ⟨hf, hr⟩ := s.noted_frame m off v
  exact State.lap_congr (by rw [hf]) (hr _ (by decide))

theorem exec_pairRejoin {s : State} {m : Nat} (h : s.direct m 0x900010 = true) (v : BitVec 64) :
    exec (.pairRejoin m v) s = .next ((s.noted m 0x900010 (v.setWidth 32)).rejoinWrite v) := by
  change execPairRejoin m v s = _
  rw [execPairRejoin, if_pos (State.accessOk_of_direct h), State.gate_direct h]

/-- A survivor of a mirrored pair takes a Lap that is far enough ahead. -/
theorem pairRejoin_takes {s : State} {m : Nat} {v : BitVec 64} (h : s.direct m 0x900010 = true) (hv : s.lap + 257 ≤ v.toNat)
    (hs : s.bit Reg.pairStat 27 = true) (hm : s.mode.mirrored = true) :
    ∃ t, exec (.pairRejoin m v) s = .next t ∧ t.pair.rejoinLap = some v.toNat ∧ t.rd64 Reg.pairRejoin = v := by
  obtain ⟨n, hn⟩ : ∃ n, n = s.noted m 0x900010 (v.setWidth 32) := ⟨_, rfl⟩
  obtain ⟨hf, hr⟩ := s.noted_frame m 0x900010 (v.setWidth 32)
  have hlap : n.lap = s.lap := hn ▸ s.lap_noted ..
  rw [← hn] at hf hr
  obtain ⟨u, hu⟩ : ∃ u, u = n.wr64 Reg.pairRejoin v := ⟨_, rfl⟩
  have hmode : n.mode.mirrored = true := by rw [hf]; exact hm
  have hbit : n.bit Reg.pairStat 27 = true := (hr.bit (by decide) 27).trans hs
  obtain ⟨w, hw⟩ : ∃ w : State, w = { u with pair := { u.pair with rejoinLap := some v.toNat, copyAt := 0 } } := ⟨_, rfl⟩
  have hw64 : w.rd64 Reg.pairRejoin = v := by
    have hu64 : u.rd64 Reg.pairRejoin = v := hu ▸ n.rd64_wr64 Reg.pairRejoin v
    rw [← hu64, hw]
    rfl
  have hreg : OnlyRegs w (w.setBit Reg.pairStat 24 false) [Reg.pairStat.off] := OnlyRegs.wr w (by decide) _
  have hwrite : n.rejoinWrite v = w.setBit Reg.pairStat 24 false := by
    rw [hw, State.rejoinWrite, if_neg (by omega), ← hu]
    exact if_pos (by rw [hmode, hbit, Bool.true_or, Bool.and_true])
  refine ⟨_, (exec_pairRejoin h v).trans (by rw [← hn, hwrite]), ?_, ?_⟩
  · rw [State.setBit_pair, hw]
  · rw [hreg.rd64 (by decide) (by decide), hw64]

theorem exec_rejoin_due {s : State} {c : Nat} (h : s.pair.rejoinLap = some c) (hc : c ≤ s.lap) (hs : s.bit Reg.pairStat 27 = true)
    (all : Bool) : exec (.rejoin all) s =
      if all then .next (({ s.flushAll with mode := .lead, runLap := s.lap }.setBit Reg.pairStat 27 false).setBit Reg.pairStat 24 true)
      else .next ({ s with pair := { s.pair with rejoinLap := none } }.setBit Reg.pairStat 23 true) := by
  change execRejoin all s = _
  rw [execRejoin, h]
  exact if_neg (by simp [hc, hs])

theorem exec_rejoin_own {s : State} (h : s.pair.rejoinLap = none) (hr : s.rejoining = true) (all : Bool) : exec (.rejoin all) s =
      if all then .next (s.flushAll.setBit Reg.pairStat 24 true) else .next (s.setBit Reg.pairStat 23 true) := by
  change execRejoin all s = _
  rw [execRejoin, h]
  exact if_pos hr

theorem rejoin_complete : Claims.RejoinComplete := by
  refine ⟨fun s m v h hv hs hm => pairRejoin_takes h hv hs hm, fun s m v h hv => ?_, fun s c h hc hs => ⟨?_, ?_⟩,
    fun s h hr => ⟨?_, exec_rejoin_own h hr false⟩⟩
  · rw [exec_pairRejoin h, State.rejoinWrite, if_pos (by rw [State.lap_noted]; exact hv)]
  · refine ⟨_, exec_rejoin_due h hc hs true, ?_, ?_, ?_, State.bit_setBit _ _ (by decide) _, ?_, ?_⟩
    · rw [State.setBit_mode, State.setBit_mode]
    · rw [State.setBit_runLap, State.setBit_runLap]
    · rw [State.bit_setBit_apart _ _ (by decide) (by decide), State.bit_setBit _ _ (by decide)]
    · rw [State.setBit_m, State.setBit_m]
      rfl
    · rw [State.setBit_engines, State.setBit_engines]
      exact s.flushAll_empty
  · refine ⟨_, exec_rejoin_due h hc hs false, ?_, State.bit_setBit _ _ (by decide) _, ?_, ?_, ?_⟩
    · rw [State.setBit_pair]
    · rw [State.setBit_mode]
    · rw [State.setBit_engines]
    · rw [State.setBit_m]
  · refine ⟨_, exec_rejoin_own h hr true, State.bit_setBit _ _ (by decide) _, ?_, ?_⟩
    · rw [State.setBit_m]
      rfl
    · rw [State.setBit_engines]
      exact s.flushAll_empty

/-- Settles O50: a Handoff by what stops and what stays, a fence's end by the requests that it drops, a re-run by the case of its
Task, a rejoin by the flush that it begins with. -/
theorem handoffFenceRejoin : Obligations.HandoffFenceRejoin := ⟨handoff_complete, fenceAndRerun_complete, rejoin_complete⟩

end Sys2Proof.Machine

/-! PROOFS. What a step runs, and what reset leaves. Settles O58 and O59. -/

namespace Sys2Proof.Machine

/-- Settles O58: with a command in front its arm of exec, with none the tick. -/
theorem stepRunsFront : Obligations.StepRunsFront := by
  refine ⟨fun c rest s => rfl, fun s hs => ?_⟩
  unfold step
  rw [hs]

/-- The flags are bits of registers whose reset value is 0. -/
theorem State.flag_reset (c : Nat) : State.reset.flag c = false := by
  unfold State.flag State.bit State.fld State.rd
  simp [State.reset, Reg.evtFlag, bitsOf, SMap.get]

/-- Settles O59: each value as State.reset gives it, the registers by their reset table. -/
theorem resetState : Obligations.ResetState := by
  refine ⟨⟨rfl, rfl, rfl, fun r => rfl, fun e => rfl, fun k => rfl, rfl, rfl, ?_, ?_, fun c _ => State.flag_reset c, fun a => rfl⟩,
    SMap.wf_nil 0⟩
  · decide
  · decide

end Sys2Proof.Machine

/-! PROOFS. What no operation of the machine but the writes of memory does to the bytes: the memory is as before. One lemma for
each operation that moves no byte, in the order of the definitions. Support of O60. -/

namespace Sys2Proof.Machine

/-- A choice between two states: its memory is that of the one chosen. -/
@[simp] theorem State.mem_of_ite {c : Prop} [Decidable c] (a b : State) :
    (if c then a else b).m.mem = if c then a.m.mem else b.m.mem := by
  split <;> rfl

/-- What an operation that also answers leaves in memory, once its result is taken apart. -/
theorem mem_fst {α : Type} {p : State × α} {t : State} {x : α} {mem : SMap Byte} (h : p = (t, x)) (hp : p.1.m.mem = mem) :
    t.m.mem = mem := by
  rw [← hp, h]

/-- The same where every answer lies in one of the cases of `split`. -/
theorem mem_foldl_fst {α β : Type} (l : List α) (f : State × β → α → State × β)
    (h : ∀ p a, (f p a).1.m.mem = p.1.m.mem) (p : State × β) : (l.foldl f p).1.m.mem = p.1.m.mem := by
  induction l generalizing p with
  | nil => rfl
  | cons a t ih => rw [List.foldl_cons, ih, h]

/-! ### Operations of the state -/

@[simp] theorem State.mem_cdtReloadNow (s : State) (j : Nat) : (s.cdtReloadNow j).m.mem = s.m.mem := by simp [State.cdtReloadNow]

@[simp] theorem State.mem_cdtStart (s0 : State) (j : Nat) : (s0.cdtStart j).m.mem = s0.m.mem := by simp [State.cdtStart]

@[simp] theorem State.mem_cdtStop (s : State) (j : Nat) : (s.cdtStop j).m.mem = s.m.mem := by simp [State.cdtStop]

@[simp] theorem State.mem_cdtReset (s : State) (j : Nat) : (s.cdtReset j).m.mem = s.m.mem := by simp [State.cdtReset]

@[simp] theorem State.mem_cdtActs (s : State) (j : Nat) (acts : List Nat) : (s.cdtActs j acts).m.mem = s.m.mem := by simp [State.cdtActs]

@[simp] theorem State.mem_timerActs (s : State) (acts : List (Nat × Nat)) : (s.timerActs acts).m.mem = s.m.mem := by
  simp [State.timerActs, mem_foldl]

@[simp] theorem State.mem_groupOps (s : State) (on off : BitVec 32) : (s.groupOps on off).m.mem = s.m.mem := by simp [State.groupOps]

@[simp] theorem State.mem_wake (s : State) (c : Nat) : (s.wake c).m.mem = s.m.mem := by simp [State.wake]

@[simp] theorem State.mem_acceptPulse (s : State) (c now : Nat) : (s.acceptPulse c now).m.mem = s.m.mem := by simp [State.acceptPulse]

@[simp] theorem State.mem_pulse (s : State) (c now : Nat) : (s.pulse c now).m.mem = s.m.mem := by simp [State.pulse]

@[simp] theorem State.mem_fireCode (s : State) (code now : Nat) : (s.fireCode code now).m.mem = s.m.mem := by
  simp [State.fireCode, mem_foldl]

@[simp] theorem State.mem_softPulse (s : State) (c now : Nat) : (s.softPulse c now).m.mem = s.m.mem := by simp [State.softPulse]

@[simp] theorem State.mem_domArrive (s : State) (d now : Nat) : (s.domArrive d now).m.mem = s.m.mem := by simp [State.domArrive]

/-! ### Registers -/

@[simp] theorem State.mem_noAccess (s : State) (m off : Nat) : (s.noAccess m off).m.mem = s.m.mem := by simp [State.noAccess]

@[simp] theorem State.mem_noRead (s : State) (m off : Nat) : (s.noRead m off).m.mem = s.m.mem := by simp [State.noRead]

@[simp] theorem State.mem_takeInput (s : State) (i : Input) (ty : Nat) (ws : List W64) : (s.takeInput i ty ws).m.mem = s.m.mem := by
  simp [State.takeInput]

@[simp] theorem State.mem_offer (s : State) (i : Input) (ty : Nat) (ws : List W64) : (s.offer i ty ws).m.mem = s.m.mem := by
  simp [State.offer]

@[simp] theorem State.mem_writeWord (s : State) (rlOk : Bool) (off : Nat) (v : BitVec 32) : (s.writeWord rlOk off v).m.mem = s.m.mem := by
  unfold State.writeWord
  split <;> simp

@[simp] theorem State.mem_clearRC (s : State) (off : Nat) : (s.clearRC off).m.mem = s.m.mem := by
  unfold State.clearRC
  split <;> simp

@[simp] theorem State.mem_readReg (s : State) (m off : Nat) : (s.readReg m off).1.m.mem = s.m.mem := by
  unfold State.readReg
  split <;> simp

/-! ### Timers -/

@[simp] theorem State.mem_cdtStep (s : State) (j : Nat) : (s.cdtStep j).m.mem = s.m.mem := by simp [State.cdtStep]

@[simp] theorem State.mem_residency (s : State) (n c : Nat) : (s.residency n c).m.mem = s.m.mem := by simp [State.residency]

@[simp] theorem State.mem_engineCycles (s : State) (n e : Nat) : (s.engineCycles n e).m.mem = s.m.mem := by
  unfold State.engineCycles
  split <;> simp

@[simp] theorem State.mem_deliverFwd (s : State) : s.deliverFwd.m.mem = s.m.mem := by simp [State.deliverFwd, mem_foldl]

@[simp] theorem State.mem_linkActs (s : State) : s.linkActs.m.mem = s.m.mem := by simp [State.linkActs]

@[simp] theorem State.mem_linkNext (s : State) (act j : Nat) : (s.linkNext act j).m.mem = s.m.mem := by simp [State.linkNext]

@[simp] theorem State.mem_cmpFire (s : State) (k : Nat) : (s.cmpFire k).m.mem = s.m.mem := by
  unfold State.cmpFire
  dsimp only
  split
  · split
    · rw [State.add64_m, State.mem_fireCode]
    · rw [State.setBit_m, State.mem_fireCode]
  · rfl

@[simp] theorem State.mem_cdtZero (s : State) (j : Nat) : (s.cdtZero j).m.mem = s.m.mem := by simp [State.cdtZero]

@[simp] theorem State.mem_cdtMatchFire (s : State) (j : Nat) : (s.cdtMatchFire j).m.mem = s.m.mem := by simp [State.cdtMatchFire]

@[simp] theorem State.mem_dueEvents (s : State) : s.dueEvents.m.mem = s.m.mem := by
  unfold State.dueEvents
  dsimp only
  rw [mem_foldl _ _ (fun t j => t.mem_cdtMatchFire j), mem_foldl _ _ (fun t j => t.mem_cdtZero j),
    mem_foldl _ _ (fun t k => t.mem_cmpFire k)]

@[simp] theorem State.mem_timeTick (s : State) : s.timeTick.m.mem = s.m.mem := by simp [State.timeTick, mem_foldl]

@[simp] theorem State.mem_advanceTime (s : State) (n : Nat) : (s.advanceTime n).m.mem = s.m.mem := by simp [State.advanceTime, mem_foldl]

@[simp] theorem State.mem_tick (s : State) : s.tick.m.mem = s.m.mem := by simp [State.tick]

@[simp] theorem State.mem_cmpPassed (s : State) (k : Nat) : (s.cmpPassed k).m.mem = s.m.mem := by
  unfold State.cmpPassed
  dsimp only
  rw [State.setBit_m]

@[simp] theorem State.mem_unstage (s : State) (m off : Nat) : (s.unstage m off).m.mem = s.m.mem := by simp [State.unstage]

@[simp] theorem State.mem_cmpValueWrite (s : State) (m k : Nat) (hi : BitVec 32) : (s.cmpValueWrite m k hi).m.mem = s.m.mem := by
  simp [State.cmpValueWrite]

@[simp] theorem State.mem_cmpCtlWrite (s : State) (k : Nat) (v : BitVec 32) : (s.cmpCtlWrite k v).m.mem = s.m.mem := by
  rw [State.cmpCtlWrite, State.mem_cmpPassed, State.setFld_m]

@[simp] theorem State.mem_cdtCountWrite (s0 : State) (j : Nat) (v : BitVec 32) : (s0.cdtCountWrite j v).m.mem = s0.m.mem := by
  simp [State.cdtCountWrite]

@[simp] theorem State.mem_cdtLoadNow (s : State) (j : Nat) : (s.cdtLoadNow j).m.mem = s.m.mem := by simp [State.cdtLoadNow]

@[simp] theorem State.mem_cdtCtlWrite (s : State) (j : Nat) (v : BitVec 32) : (s.cdtCtlWrite j v).m.mem = s.m.mem := by
  unfold State.cdtCtlWrite
  extract_lets s1 s2
  have h1 : s1.m.mem = s.m.mem := by
    change (State.setFld _ _ _ _ _).m.mem = _
    rw [State.setFld_m, State.mem_cdtReloadNow]
  have h2 : s2.m.mem = s.m.mem := State.mem_ite ((s1.mem_cdtLoadNow j).trans h1) h1
  split
  · rw [State.mem_cdtStop, h2]
  · split
    · rw [State.mem_cdtStart, h2]
    · exact h2

/-! ### The memory -/

@[simp] theorem State.mem_taskErr (s : State) (tti : Nat) (x : ErrEntry) : (s.taskErr tti x).m.mem = s.m.mem := by simp [State.taskErr]

@[simp] theorem State.mem_ueCount (s : State) (off : Nat) : (s.ueCount off).m.mem = s.m.mem := by
  unfold State.ueCount
  dsimp only
  repeat' split
  all_goals simp

@[simp] theorem State.mem_poisonWord (s : State) (off : Nat) : (s.poisonWord off).m.mem = s.m.mem := by
  unfold State.poisonWord
  split <;> simp

@[simp] theorem State.mem_bufferLine (s : State) (dev line : Nat) : (s.bufferLine dev line).m.mem = s.m.mem := by simp [State.bufferLine]

@[simp] theorem State.mem_touchLine (s : State) (off : Nat) : (s.touchLine off).m.mem = s.m.mem := by
  unfold State.touchLine
  split <;> simp

@[simp] theorem State.mem_takeFound (s : State) (off : Nat) : (s.takeFound off).1.m.mem = s.m.mem := by
  unfold State.takeFound
  dsimp only
  repeat' split
  all_goals simp

@[simp] theorem State.mem_readLocal (s : State) (src : Src) (off n : Nat) : (s.readLocal src off n).1.m.mem = s.m.mem :=
  (ReadOnly.readLocal s src off n).1

@[simp] theorem State.mem_hostData (s : State) (dpa : Nat) (held : List (Nat × Byte)) (bs : Option (List Byte)) :
    (s.hostData dpa held bs).m.mem = s.m.mem := by
  simp [State.hostData]

@[simp] theorem State.mem_countGrant (s : State) (k g : Nat) : (s.countGrant k g).1.m.mem = s.m.mem := by
  unfold State.countGrant
  dsimp only
  repeat' split
  all_goals simp

@[simp] theorem State.mem_countSpread (s : State) (k g c : Nat) : (s.countSpread k g c).1.m.mem = s.m.mem := by simp [State.countSpread]

@[simp] theorem State.mem_countUnits (s : State) (part off n lap : Nat) (booked : Bool) :
    (s.countUnits part off n lap booked).1.m.mem = s.m.mem :=
  (ReadOnly.counted (Counted.countUnits s part off n lap booked)).1

@[simp] theorem State.mem_postWrite (s : State) (src : Src) (epoch : Nat) (cs : List (Nat × Byte)) (va : W64) (booked : Bool) (lap : Nat) :
    (s.postWrite src epoch cs va booked lap).m.mem = s.m.mem := by
  simp [State.postWrite]

@[simp] theorem State.mem_dropReq (s : State) (r : MemReq) : (s.dropReq r).m.mem = s.m.mem := by simp [State.dropReq]

@[simp] theorem State.mem_bankLoss (s : State) (src : Src) : (s.bankLoss src).m.mem = s.m.mem := by
  unfold State.bankLoss
  split <;> simp

@[simp] theorem State.mem_arbitrated (s : State) (t m : Nat) (booked : Bool) (ws : List (Nat × Bool)) :
    (s.arbitrated t m booked ws).m.mem = s.m.mem := by
  simp [State.arbitrated]

theorem State.mem_xbarWinner {s t : State} {n : Nat} {r : MemReq} (h : s.xbarWinner n = some (r, t)) : t.m.mem = s.m.mem := by
  unfold State.xbarWinner at h
  dsimp only at h
  split at h
  · cases h
  · cases h
    exact (SameQueue.arbitrated ⟨rfl, rfl⟩ ..).1

theorem State.mem_bankWinner {s t : State} {bank sub : Nat} {g : Grant} (h : s.bankWinner bank sub = some (g, t)) :
    t.m.mem = s.m.mem := by
  unfold State.bankWinner at h
  dsimp only at h
  split at h
  · cases h
  · rename_i g' _
    cases h
    have hl : ∀ (l : List Grant) (u : State),
        (l.foldl (fun s q => if q.req = g.req then s else s.bankLoss q.req.src) u).m.mem = u.m.mem :=
      fun l u => mem_foldl _ _ (fun _ _ => by split <;> simp) u
    split
    · exact hl ..
    · rw [(SameQueue.arbitrated ⟨rfl, rfl⟩ ..).1, hl]

@[simp] theorem State.mem_setOvr (s : State) (tti bit : Nat) : (s.setOvr tti bit).m.mem = s.m.mem := by simp [State.setOvr]

@[simp] theorem State.mem_issueWrite (s : State) (e dpa : Nat) (bs : List Byte) (va : W64) (booked : Bool) :
    (s.issueWrite e dpa bs va booked).m.mem = s.m.mem := by
  simp [State.issueWrite]

@[simp] theorem State.mem_sendAnswers (s : State) (part reqr : Nat) : (s.sendAnswers part reqr).m.mem = s.m.mem := by
  simp [State.sendAnswers, mem_foldl]

@[simp] theorem State.mem_openAnswer (s : State) (a : Answer) : (s.openAnswer a).m.mem = s.m.mem := by simp [State.openAnswer]

@[simp] theorem State.mem_returnOld (s : State) (r : MemReq) (sts : Nat) : (s.returnOld r sts).m.mem = s.m.mem := by
  unfold State.returnOld
  split <;> simp

/-! ### Translation -/

@[simp] theorem State.mem_sendRead (s : State) (e dpa n : Nat) (w : ReqFor) (booked : Bool) :
    (s.sendRead e dpa n w booked).m.mem = s.m.mem := by
  simp [State.sendRead]

@[simp] theorem State.mem_askExp (s : State) (e port dpa n : Nat) (w : ReqFor) (booked : Bool) :
    (s.askExp e port dpa n w booked).m.mem = s.m.mem := by
  simp [State.askExp]

@[simp] theorem State.mem_queueRead (s : State) (port id dpa n : Nat) (w : ReqFor) : (s.queueRead port id dpa n w).m.mem = s.m.mem := by
  simp [State.queueRead]

@[simp] theorem State.mem_payFor (s : State) (e dpa n : Nat) : (s.payFor e dpa n).1.m.mem = s.m.mem := by
  unfold State.payFor
  split <;> simp

@[simp] theorem State.mem_readCounted (s : State) (src : Src) (off n : Nat) (booked : Bool) :
    (s.readCounted src off n booked).1.m.mem = s.m.mem := by
  simp [State.readCounted]

@[simp] theorem State.mem_keepGot (s : State) (e : Nat) (g : Got) : (s.keepGot e g).m.mem = s.m.mem := by simp [State.keepGot]

@[simp] theorem State.mem_dropGot (s : State) (e who : Nat) : (s.dropGot e who).m.mem = s.m.mem := by simp [State.dropGot]

@[simp] theorem State.mem_readFor (s : State) (e who : Nat) (src : Src) (pay : Bool) (dpa n : Nat) :
    (s.readFor e who src pay dpa n).1.m.mem = s.m.mem := by
  unfold State.readFor
  dsimp only
  repeat' split
  all_goals simp

@[simp] theorem State.mem_setWalk (s : State) (e k : Nat) (w : Option Walk) : (s.setWalk e k w).m.mem = s.m.mem := by simp [State.setWalk]

@[simp] theorem State.mem_runWalk (s : State) (e k : Nat) (w : Walk) : (s.runWalk e k w).1.m.mem = s.m.mem :=
  (ReadOnly.runWalk s e k w).1

@[simp] theorem State.mem_beginWalk (s : State) (e k : Nat) (ctx : BitVec 16) (ttb : W64) (va : Nat) :
    (s.beginWalk e k ctx ttb va).1.m.mem = s.m.mem := by
  unfold State.beginWalk
  repeat' split
  all_goals simp

@[simp] theorem State.mem_doWalk (s : State) (e k : Nat) (ctx : BitVec 16) (ttb : W64) (va : Nat) :
    (s.doWalk e k ctx ttb va).1.m.mem = s.m.mem := by
  unfold State.doWalk
  repeat' split
  all_goals simp

@[simp] theorem State.mem_translate (s : State) (e k : Nat) (a : Acc) (atomic user : Bool) (pkr : BitVec 32) (va : Nat) :
    (s.translate e k a atomic user pkr va).1.m.mem = s.m.mem :=
  (ReadOnly.translate s e k a atomic user pkr va).1

@[simp] theorem State.mem_goOnWalk (s : State) (e k : Nat) : (s.goOnWalk e k).m.mem = s.m.mem := by
  unfold State.goOnWalk
  split
  · rfl
  · split
    · rfl
    · split <;> rename_i h <;> simp [mem_fst h (s.mem_runWalk ..)]

@[simp] theorem State.mem_dropReads (s : State) (e : Nat) : (s.dropReads e).m.mem = s.m.mem := by simp [State.dropReads]

/-! ### The vector unit -/

@[simp] theorem State.mem_setIndex (s : State) (e c i : Nat) : (s.setIndex e c i).m.mem = s.m.mem := by simp [State.setIndex]

@[simp] theorem State.mem_updV (s : State) (e tag : Nat) (f : VInst → VInst) : (s.updV e tag f).m.mem = s.m.mem := by simp [State.updV]

@[simp] theorem State.mem_updSlot (s : State) (e c : Nat) (f : Chain → Chain) : (s.updSlot e c f).m.mem = s.m.mem := by simp [State.updSlot]

@[simp] theorem State.mem_dropStreams (s : State) (e tag : Nat) : (s.dropStreams e tag).m.mem = s.m.mem := by simp [State.dropStreams]

@[simp] theorem State.mem_restart (s : State) (e : Nat) (v : VInst) : (s.restart e v).m.mem = s.m.mem := by simp [State.restart]

@[simp] theorem State.mem_restartGroup (s : State) (e : Nat) (g : List VInst) : (s.restartGroup e g).m.mem = s.m.mem := by
  simp [State.restartGroup, mem_foldl]

theorem State.mem_startGroup {s t : State} {e : Nat} {v : VInst} (h : s.startGroup e v = some t) : t.m.mem = s.m.mem := by
  unfold State.startGroup at h
  dsimp only at h
  split at h
  · cases h
    rfl
  · split at h
    · cases h
    · cases h
      rw [mem_foldl _ _ (fun _ _ => by split <;> simp)]
      split <;> simp

/-- An access under the tables of an instruction leaves memory as the access itself does. -/
theorem State.mem_withXlate {α : Type} (s : State) (e : Nat) (ctx : BitVec 16) (ttb : W64) (f : State → State × α)
    (h : ∀ t, (f t).1.m.mem = t.m.mem) : (s.withXlate e ctx ttb f).1.m.mem = s.m.mem :=
  h _

@[simp] theorem State.mem_vXlate (s : State) (e : Nat) (v : VInst) (k : Nat) (acc : Acc) (atomic : Bool) (va : Nat) :
    (s.vXlate e v k acc atomic va).1.m.mem = s.m.mem :=
  s.mem_withXlate e _ _ _ (fun t => t.mem_translate e k acc atomic v.user v.pkr va)

@[simp] theorem State.mem_unmapped (s : State) (e dpa : Nat) : (s.unmapped e dpa).m.mem = s.m.mem := by simp [State.unmapped]

@[simp] theorem State.mem_vRead (s : State) (e : Nat) (v : VInst) (who va : Nat) (dir : Nat → Bool) :
    (s.vRead e v who va dir).1.m.mem = s.m.mem := by
  unfold State.vRead
  split <;> rename_i h
  · exact mem_fst h (s.mem_vXlate ..)
  · exact mem_fst h (s.mem_vXlate ..)
  · have hx := mem_fst h (s.mem_vXlate ..)
    repeat' split
    · simp [hx]
    · simp [hx]
    · simp [hx]
    all_goals exact (mem_fst ‹_› (State.mem_readFor ..)).trans hx

@[simp] theorem State.mem_readPreds (s : State) (e : Nat) (v : VInst) : (s.readPreds e v).1.m.mem = s.m.mem := by
  refine mem_foldl_fst _ _ (fun p c => ?_) (s, _)
  obtain ⟨s, r⟩ := p
  cases r with
  | ok v =>
    dsimp only
    split <;> rename_i h
    · exact mem_fst h (s.mem_vRead ..)
    · split
      · exact mem_fst h (s.mem_vRead ..)
      · exact mem_fst h (s.mem_vRead ..)
    · exact mem_fst h (s.mem_vRead ..)
  | waits => rfl
  | bad x => rfl

@[simp] theorem State.mem_dropPredReads (s : State) (e : Nat) : (s.dropPredReads e).m.mem = s.m.mem := by
  simp [State.dropPredReads, mem_foldl]

@[simp] theorem State.mem_bindSlots (s : State) (e : Nat) (v : VInst) : (s.bindSlots e v).m.mem = s.m.mem := by
  simp [State.bindSlots, mem_foldl]

@[simp] theorem State.mem_vPush (s : State) (e : Nat) (v : VInst) : (s.vPush e v).1.m.mem = s.m.mem := by
  unfold State.vPush
  dsimp only
  split
  · rfl
  · split <;> rename_i h <;> simp [mem_fst h (s.mem_readPreds ..)]

@[simp] theorem State.mem_setCursors (s : State) (e : Nat) (v : VInst) (sn : Snap) : (s.setCursors e v sn).m.mem = s.m.mem := by
  simp [State.setCursors, mem_foldl]

@[simp] theorem State.mem_dropPreds (s : State) (e tag : Nat) : (s.dropPreds e tag).m.mem = s.m.mem := by simp [State.dropPreds]

@[simp] theorem State.mem_vComplete (s : State) (e tag : Nat) (sn : Snap) (n : Nat) :
    (s.vComplete e tag sn n).m.mem = s.m.mem := by
  induction n generalizing s tag sn with
  | zero => rfl
  | succ n ih =>
    unfold State.vComplete
    dsimp only
    split
    · rfl
    · rw [mem_foldl]
      · simp
      · intro t q
        split
        · simp
        · split
          · simp
          · refine State.mem_ite (by simp) ?_
            rw [ih]
            simp

@[simp] theorem State.mem_freeEnded (s : State) (e n : Nat) : (s.freeEnded e n).m.mem = s.m.mem := by
  induction n generalizing s with
  | zero => rfl
  | succ n ih =>
    unfold State.freeEnded
    split
    · rfl
    · rw [ih, State.mem_vComplete]

@[simp] theorem State.mem_vFinish (s : State) (e tag : Nat) : (s.vFinish e tag).m.mem = s.m.mem := by
  rw [State.vFinish, State.mem_freeEnded, State.updEng_m, State.mem_updV]

@[simp] theorem State.mem_vBegin (s : State) (e : Nat) (v : VInst) : (s.vBegin e v).m.mem = s.m.mem := by simp [State.vBegin]

/-- A line of records at a time: said of any base, whose value the kernel is not to work out. -/
theorem State.mem_writeLines (s : State) (e base : Nat) (bs : List Byte) (l : List Nat) :
    (l.foldl (fun s i =>
      let l := (bs.drop (64 * i)).take 64
      let (s1, booked) := s.spend e 1 s.pos 1
      s1.issueWriteAs e (base + 64 * i) l (BitVec.ofNat 64 (base + 64 * i)) booked true) s).m.mem = s.m.mem := by
  refine mem_foldl _ _ (fun t i => ?_) s
  dsimp only
  rw [State.mem_issueWriteAs, State.mem_spend]

@[simp] theorem State.mem_writeRecords (s : State) (e : Nat) (rs : List VRec) : (s.writeRecords e rs).m.mem = s.m.mem :=
  s.mem_writeLines ..

@[simp] theorem State.mem_abandonReads (s : State) (e : Nat) : (s.abandonReads e).m.mem = s.m.mem := by
  unfold State.abandonReads
  dsimp only
  rw [mem_foldl]
  exact fun t i => t.mem_dropStreams e i

@[simp] theorem State.mem_markHeld (s : State) (e : Nat) : (s.markHeld e).m.mem = s.m.mem := by simp [State.markHeld, mem_foldl]

@[simp] theorem State.mem_vStop (s : State) (e : Nat) (cause : Option (Nat × Nat × Nat)) (lapres : Bool) :
    (s.vStop e cause lapres).m.mem = s.m.mem := by
  simp [State.vStop, mem_foldl]

@[simp] theorem State.mem_setNrec (s : State) (e n : Nat) (lapres : Bool) : (s.setNrec e n lapres).m.mem = s.m.mem := by
  simp [State.setNrec]

@[simp] theorem State.mem_recordBad (s : State) (e : Nat) (fopd fidx : Nat) : (s.recordBad e fopd fidx).m.mem = s.m.mem := by
  simp [State.recordBad]

@[simp] theorem State.mem_goReissue (s : State) (e n : Nat) : (s.goReissue e n).1.m.mem = s.m.mem := by
  induction n generalizing s with
  | zero => rfl
  | succ n ih =>
    unfold State.goReissue
    dsimp only
    split
    · rfl
    · split
      · rw [State.updEng_m, State.mem_setNrec]
      · split
        · rw [State.mem_recordBad]
        · split
          · rw [State.mem_recordBad]
          · split
            · rfl
            · split <;> rename_i h <;> have hx := mem_fst h (s.mem_vPush ..)
              · exact hx
              · rw [State.mem_recordBad, State.updEng_m, hx]
              · rw [ih, State.updEng_m, State.mem_vBegin, hx]

@[simp] theorem State.mem_reissue (s : State) (e : Nat) : (s.reissue e).1.m.mem = s.m.mem := by
  rw [State.reissue, State.mem_goReissue, State.updEng_m]

/-! ### Accesses -/

@[simp] theorem State.mem_locate (s : State) (e : Nat) (a : Acc) (user : Bool) (va : Nat) :
    (s.locate e a user va).1.m.mem = s.m.mem :=
  (ReadOnly.locate s e a user va).1

@[simp] theorem State.mem_storeLoc (s : State) (e : Nat) (l : Loc) (bs : List Byte) (va : W64) (cls : Option Bool) (entry : Bool) :
    (s.storeLoc e l bs va cls entry).m.mem = s.m.mem := by
  unfold State.storeLoc
  dsimp only
  repeat' split
  all_goals simp

@[simp] theorem State.mem_readLoc (s : State) (e who : Nat) (src : Src) (l : Loc) (pay : Bool) (n : Nat) :
    (s.readLoc e who src l pay n).1.m.mem = s.m.mem := by
  unfold State.readLoc
  split <;> simp

/-! ### Tasks -/

@[simp] theorem State.mem_setRow (s : State) (l : Nat) (r : Row) : (s.setRow l r).m.mem = s.m.mem := by simp [State.setRow]

@[simp] theorem State.mem_openAt (s : State) (l : Nat) : (s.openAt l).m.mem = s.m.mem := by simp [State.openAt]

@[simp] theorem State.mem_bookLap (s : State) (cv : CostVec) (tti l : Nat) : (s.bookLap cv tti l).m.mem = s.m.mem := by
  unfold State.bookLap
  split <;> simp

@[simp] theorem State.mem_updTask (s : State) (t : Nat) (f : Task → Task) : (s.updTask t f).m.mem = s.m.mem := by simp [State.updTask]

@[simp] theorem State.mem_returnBookings (s : State) (t : Nat) : (s.returnBookings t).m.mem = s.m.mem := by simp [State.returnBookings]

@[simp] theorem State.mem_updCq (s : State) (q : Nat) (f : CQueue → CQueue) : (s.updCq q f).m.mem = s.m.mem := by simp [State.updCq]

@[simp] theorem State.mem_hold (s : State) (q : Nat) (r : CRec) : (s.hold q r).m.mem = s.m.mem := by simp [State.hold]

@[simp] theorem State.mem_fail (s : State) (tti cause : Nat) : (s.fail tti cause).m.mem = s.m.mem := by simp [State.fail]

@[simp] theorem State.mem_dropAnnulled (s : State) (e : Nat) : (s.dropAnnulled e).m.mem = s.m.mem := by
  unfold State.dropAnnulled
  split <;> simp

@[simp] theorem State.mem_noteRan (s : State) (e tti : Nat) : (s.noteRan e tti).m.mem = s.m.mem := by simp [State.noteRan]

@[simp] theorem State.mem_takePlacement (s : State) (e tti : Nat) (isOpen : Bool) : (s.takePlacement e tti isOpen).m.mem = s.m.mem := by
  simp [State.takePlacement]

@[simp] theorem State.mem_clearPlace_eq (s : State) (e : Nat) : (s.clearPlace e).m.mem = s.m.mem := by simp [State.clearPlace]

@[simp] theorem State.mem_chargeCyc (s : State) (e : Nat) : (s.chargeCyc e).m.mem = s.m.mem := by
  unfold State.chargeCyc
  split <;> simp

@[simp] theorem State.mem_advanceEngine (s : State) (e : Nat) : (s.advanceEngine e).m.mem = s.m.mem := by
  unfold State.advanceEngine
  repeat' split
  all_goals simp

@[simp] theorem State.mem_failPlacement (s : State) (e cause vector : Nat) : (s.failPlacement e cause vector).m.mem = s.m.mem := by
  unfold State.failPlacement
  split <;> simp

@[simp] theorem State.mem_stopIssue (s : State) (e : Nat) : (s.stopIssue e).m.mem = s.m.mem := by simp [State.stopIssue]

@[simp] theorem State.mem_nextEpoch (s : State) : s.nextEpoch.1.m.mem = s.m.mem := by simp [State.nextEpoch]

@[simp] theorem State.mem_beginFence (s : State) (part epoch lap : Nat) : (s.beginFence part epoch lap).m.mem = s.m.mem := by
  simp [State.beginFence]

@[simp] theorem State.mem_sweepPart (s : State) (n f : Nat) : (s.sweepPart n f).m.mem = s.m.mem := by simp [State.sweepPart, mem_foldl]

@[simp] theorem State.mem_sweepOwn (s : State) : s.sweepOwn.m.mem = s.m.mem := by simp [State.sweepOwn, mem_foldl]

@[simp] theorem State.mem_engineFault (s : State) (e cls addr detail : Nat) : (s.engineFault e cls addr detail).m.mem = s.m.mem := by
  unfold State.engineFault
  split <;> simp

@[simp] theorem State.mem_loseEngine (s : State) (e : Nat) : (s.loseEngine e).m.mem = s.m.mem := by simp [State.loseEngine]

@[simp] theorem State.mem_engineParity (s : State) (e : Nat) (pc : W64) : (s.engineParity e pc).m.mem = s.m.mem := by
  simp [State.engineParity]

@[simp] theorem State.mem_reExecuted (s : State) (e cost : Nat) : (s.reExecuted e cost).m.mem = s.m.mem := by simp [State.reExecuted]

@[simp] theorem State.mem_residueOnce (s : State) (e : Nat) (pc : W64) (cost : Nat) : (s.residueOnce e pc cost).1.m.mem = s.m.mem := by
  unfold State.residueOnce
  dsimp only
  repeat' split
  all_goals simp

@[simp] theorem State.mem_residueHard (s : State) (e : Nat) (pc : W64) (cost : Nat) : (s.residueHard e pc cost).m.mem = s.m.mem := by
  simp [State.residueHard]

/-! ### Exceptions -/

@[simp] theorem State.mem_stewardExpire (s : State) : s.stewardExpire.m.mem = s.m.mem := by simp [State.stewardExpire]

@[simp] theorem State.mem_thirdFault (s : State) (e : Nat) : (s.thirdFault e).m.mem = s.m.mem := by simp [State.thirdFault]

@[simp] theorem State.mem_escalate (s : State) (e : Nat) (f : Frame) (step evec : Nat) : (s.escalate e f step evec).m.mem = s.m.mem := by
  simp [State.escalate]

@[simp] theorem State.mem_pushLoc (s : State) (e va : Nat) : (s.pushLoc e va).1.m.mem = s.m.mem := by
  unfold State.pushLoc
  split
  · rfl
  · split
    · rfl
    · split <;> rename_i h
      · have hx := mem_fst h (s.mem_locate ..)
        repeat' split
        · simp [hx]
        · exact hx
        · exact hx
      · exact mem_fst h (s.mem_locate ..)
      · exact mem_fst h (s.mem_locate ..)

@[simp] theorem State.mem_payWord (s : State) (e i va : Nat) (l : Loc) (booked : Bool) : (s.payWord e i va l booked).1.m.mem = s.m.mem := by
  unfold State.payWord
  repeat' split
  all_goals simp

@[simp] theorem State.mem_pushWords (s : State) (e va i : Nat) (booked : Bool) (ws : List W64) :
    (s.pushWords e va i booked ws).1.m.mem = s.m.mem := by
  induction ws generalizing s va i booked with
  | nil => rfl
  | cons w t ih =>
    unfold State.pushWords
    split <;> rename_i h
    · exact mem_fst h (s.mem_pushLoc ..)
    · exact mem_fst h (s.mem_pushLoc ..)
    · dsimp only
      rw [ih, State.mem_storeLoc, State.mem_payWord]
      exact mem_fst h (s.mem_pushLoc ..)

@[simp] theorem State.mem_entryRead (s : State) (e who va at_ n : Nat) (code : Bool) :
    (s.entryRead e who va at_ n code).1.m.mem = s.m.mem := by
  unfold State.entryRead
  split
  · rfl
  · split <;> rename_i h <;> have hx := mem_fst h (s.mem_locate ..)
    · exact hx
    · exact hx
    · exact hx
    · exact hx
    · split
      · simp [hx]
      · split <;> rename_i h <;> exact (mem_fst h (State.mem_readLoc ..)).trans hx

@[simp] theorem State.mem_resumeVec (s : State) (e : Nat) (vec : Bool) : (s.resumeVec e vec).1.m.mem = s.m.mem := by
  unfold State.resumeVec
  split
  · split <;> rename_i h <;> exact mem_fst h (s.mem_reissue e)
  · rfl

@[simp] theorem State.mem_endEntry (s : State) (e : Nat) : (s.endEntry e).m.mem = s.m.mem := by simp [State.endEntry]

theorem State.mem_noHandler (s : State) (e : Nat) (en : Entry) {bad : State → Nat → State}
    (hb : ∀ t n, (bad t n).m.mem = t.m.mem) : (s.noHandler e en bad).m.mem = s.m.mem := by
  unfold State.noHandler
  dsimp only
  split
  · simp
  · split
    · split
      · split <;> rename_i h
        · simpa using mem_fst h (State.mem_resumeVec ..)
        · simpa [hb] using mem_fst h (State.mem_resumeVec ..)
      · simp
    · simp

@[simp] theorem State.mem_beginHandler (s : State) (e : Nat) (en : Entry) (h : W64) (bits : Nat) :
    (s.beginHandler e en h bits).m.mem = s.m.mem := by
  simp [State.beginHandler]

theorem State.mem_enterAs (s : State) (e : Nat) (en : Entry) {bad : State → Nat → State}
    (hb : ∀ t n, (bad t n).m.mem = t.m.mem) : (s.enterAs e en bad).m.mem = s.m.mem := by
  unfold State.enterAs
  dsimp only
  split <;> rename_i h <;> have h1 := mem_fst h (s.mem_pushWords ..)
  · simp [h1]
  · simp [h1]
  · split <;> rename_i h <;> have h2 := (mem_fst h (State.mem_entryRead ..)).trans h1
    · simp [h2]
    · simp [h2]
    · split
      · rw [State.mem_noHandler _ _ _ hb, h2]
      · split <;> rename_i h <;> have h3 := (mem_fst h (State.mem_entryRead ..)).trans h2
        · simp [h3]
        · simp [h3]
        · simp [h3]

@[simp] theorem State.mem_recognise (s : State) (e vec detail : Nat) (faddr : W64) (cause : Option (Nat × Nat × Nat))
    (stopped : Bool) (err : Option (Nat × Nat)) :
    (s.recognise e vec detail faddr cause stopped err).1.m.mem = s.m.mem := by
  simp [State.recognise]

@[simp] theorem State.mem_recordFails (s : State) (e c : Nat) : (s.recordFails e c).m.mem = s.m.mem := by
  unfold State.recordFails
  dsimp only
  rw [State.mem_enterAs _ _ _ (fun _ _ => rfl), State.mem_recognise]

@[simp] theorem State.mem_enter (s : State) (e : Nat) (en : Entry) : (s.enter e en).m.mem = s.m.mem :=
  s.mem_enterAs e en (fun t n => t.mem_recordFails e n)

@[simp] theorem State.mem_except (s : State) (e vec detail : Nat) (faddr : W64) (cause : Option (Nat × Nat × Nat))
    (stopped : Bool) (err : Option (Nat × Nat)) :
    (s.except e vec detail faddr cause stopped err).m.mem = s.m.mem := by
  simp [State.except]

@[simp] theorem State.mem_goOnEntry (s : State) (e : Nat) : (s.goOnEntry e).m.mem = s.m.mem := by
  unfold State.goOnEntry
  split <;> simp

@[simp] theorem State.mem_returnFrom (s : State) (e : Nat) (bs : List Byte) (adj : Arch → Arch) :
    (s.returnFrom e bs adj).m.mem = s.m.mem := by
  unfold State.returnFrom
  dsimp only
  split <;> rename_i h <;> simp [mem_fst h (State.mem_resumeVec ..)]

@[simp] theorem State.mem_takeError (s : State) (e : Nat) : (s.takeError e).m.mem = s.m.mem := by
  unfold State.takeError
  split <;> simp

@[simp] theorem State.mem_takeInterrupt (s : State) (e i : Nat) : (s.takeInterrupt e i).m.mem = s.m.mem := by simp [State.takeInterrupt]

/-! ### Scalar instructions -/

@[simp] theorem State.mem_pmcCount (s : State) (e : Nat) (r : RegRef) : (s.pmcCount e r).m.mem = s.m.mem := by simp [State.pmcCount]

@[simp] theorem State.mem_retire (s : State) (e op len : Nat) (c : Ctl) : (s.retire e op len c).m.mem = s.m.mem := by simp [State.retire]

theorem State.mem_ready {s t : State} {e : Nat} (h : s.ready e = some t) : t.m.mem = s.m.mem := by
  unfold State.ready at h
  dsimp only at h
  split at h
  · cases h
  · split at h
    · cases h
      rfl
    · split at h
      · cases h
        simp
      · cases h

@[simp] theorem State.mem_checked (s : State) (e : Nat) (chk : Check) (lat : Option Nat) : (s.checked e chk lat).1.m.mem = s.m.mem := by
  unfold State.checked
  dsimp only
  repeat' split
  all_goals simp

@[simp] theorem State.mem_stalled (s : State) (e : Nat) : (s.stalled e).m.mem = s.m.mem := by
  unfold State.stalled
  split
  · split <;> rename_i h <;> simp [mem_fst h (s.mem_goReissue ..)]
  · rfl

@[simp] theorem State.mem_stewErr (s : State) : s.stewErr.m.mem = s.m.mem := by simp [State.stewErr]

@[simp] theorem State.mem_awaitLoad (s : State) (e dpa : Nat) (l : LoadOp) : (s.awaitLoad e dpa l).m.mem = s.m.mem := by
  simp [State.awaitLoad]

@[simp] theorem State.mem_stewardRead (s : State) (off n : Nat) : (s.stewardRead off n).1.m.mem = s.m.mem := by
  unfold State.stewardRead
  split <;> simp

/-! ### The event fabric -/

@[simp] theorem State.mem_denied (s : State) (c : Nat) : (s.denied c).m.mem = s.m.mem := by simp [State.denied]

@[simp] theorem State.mem_domSend (s : State) (d now : Nat) : (s.domSend d now).m.mem = s.m.mem := by simp [State.domSend]

@[simp] theorem State.mem_evtFireWrite (s : State) (m : Nat) (v : BitVec 32) (now : Nat) : (s.evtFireWrite m v now).m.mem = s.m.mem := by
  simp [State.evtFireWrite]

@[simp] theorem State.mem_flagClear (s : State) (m c : Nat) : (s.flagClear m c).m.mem = s.m.mem := by simp [State.flagClear]

@[simp] theorem State.mem_evtFlagWrite (s : State) (m k : Nat) (v : BitVec 32) : (s.evtFlagWrite m k v).m.mem = s.m.mem := by
  simp [State.evtFlagWrite, mem_foldl]

@[simp] theorem State.mem_groupEnWrite (s : State) (v : BitVec 32) (on off : BitVec 16) : (s.groupEnWrite v on off).m.mem = s.m.mem := by
  simp [State.groupEnWrite]

@[simp] theorem State.mem_reopen (s : State) (m c : Nat) : (s.reopen m c).m.mem = s.m.mem := by simp [State.reopen]

@[simp] theorem State.mem_chStatWrite (s : State) (m c : Nat) (v : BitVec 32) : (s.chStatWrite m c v).m.mem = s.m.mem := by
  simp [State.chStatWrite]

@[simp] theorem State.mem_pinEdge (s : State) (i : Nat) (level : Bool) (stamp : Nat) : (s.pinEdge i level stamp).m.mem = s.m.mem := by
  simp [State.pinEdge]

@[simp] theorem State.mem_countPinLaps (s : State) : s.countPinLaps.m.mem = s.m.mem := by simp [State.countPinLaps]

/-! ### System instructions -/

@[simp] theorem State.mem_deliver (s : State) (tti : Nat) : (s.deliver tti).m.mem = s.m.mem := by simp [State.deliver]

@[simp] theorem State.mem_meetTend (s : State) (t : Tendd) : (s.meetTend t).m.mem = s.m.mem := by
  unfold State.meetTend
  split <;> simp

@[simp] theorem State.mem_sendTend (s : State) (e : Nat) (p : Placement) : (s.sendTend e p).m.mem = s.m.mem := by simp [State.sendTend]

@[simp] theorem State.mem_retireTend (s : State) (e : Nat) (p : Placement) : (s.retireTend e p).m.mem = s.m.mem := by
  simp [State.retireTend]

@[simp] theorem State.mem_frameWord (s : State) (e a : Nat) (first : Bool) :
    (s.frameWord e a first).1.m.mem = s.m.mem := by
  unfold State.frameWord
  split
  · rfl
  · split <;> rename_i h <;> have hx := mem_fst h (s.mem_locate ..)
    · exact hx
    · exact hx
    · exact hx
    · exact hx
    · split
      · simp [hx]
      · split <;> rename_i h <;> simp [mem_fst h (State.mem_readFor ..), hx]

@[simp] theorem State.mem_frameFrom (s : State) (e va : Nat) (bs : List Byte) (n : Nat) :
    (s.frameFrom e va bs n).1.m.mem = s.m.mem := by
  induction n generalizing s bs with
  | zero => rfl
  | succ n ih =>
    unfold State.frameFrom
    split
    · rename_i h
      rw [ih, mem_fst h (s.mem_frameWord ..)]
    · exact s.mem_frameWord ..

@[simp] theorem State.mem_readFrame (s : State) (e va : Nat) : (s.readFrame e va).1.m.mem = s.m.mem := by
  unfold State.readFrame
  split <;> rename_i h <;> have hx := mem_fst h (s.mem_frameFrom ..)
  · exact hx
  · rw [State.mem_dropGot, hx]

@[simp] theorem State.mem_evsigLocal (s : State) (e : Nat) (g : W64) : (s.evsigLocal e g).m.mem = s.m.mem := by simp [State.evsigLocal]

@[simp] theorem State.mem_evsigDom (s : State) (e : Nat) (g : W64) : (s.evsigDom e g).m.mem = s.m.mem := by simp [State.evsigDom]

/-! ### Laps and placements -/

@[simp] theorem State.mem_kickWrite (s : State) (v : BitVec 32) : (s.kickWrite v).m.mem = s.m.mem := by simp [State.kickWrite]

@[simp] theorem State.mem_closeEngine (s : State) (e : Nat) : (s.closeEngine e).m.mem = s.m.mem := by simp [State.closeEngine]

@[simp] theorem State.mem_sendLapDig (s : State) : s.sendLapDig.m.mem = s.m.mem := by
  unfold State.sendLapDig
  split
  · simp
  · rfl

@[simp] theorem State.mem_closeDigests (s : State) : s.closeDigests.m.mem = s.m.mem := by simp [State.closeDigests, mem_foldl]

@[simp] theorem State.mem_lapResume (s : State) (e : Nat) : (s.lapResume e).m.mem = s.m.mem := by
  unfold State.lapResume
  split
  · split <;> rename_i h <;> simp [mem_fst h (s.mem_resumeVec ..)]
  · rfl

@[simp] theorem State.mem_resumeSame (s : State) (e : Nat) (p : Placement) : (s.resumeSame e p).m.mem = s.m.mem := by
  simp [State.resumeSame]

@[simp] theorem State.mem_sweepTlb (s : State) (e : Nat) : (s.sweepTlb e).m.mem = s.m.mem := by simp [State.sweepTlb]

@[simp] theorem State.mem_ledgerCe (s : State) (ce : Bool) : (s.ledgerCe ce).m.mem = s.m.mem := by simp [State.ledgerCe]

@[simp] theorem State.mem_badEntries (s : State) (e : Nat) (bad : List Nat) : (s.badEntries e bad).m.mem = s.m.mem := by
  simp [State.badEntries, mem_foldl]

@[simp] theorem State.mem_takeNext (s : State) (e : Nat) : (s.takeNext e).m.mem = s.m.mem := by
  unfold State.takeNext
  repeat' split
  all_goals simp

@[simp] theorem State.mem_readSave (s : State) (dpa : Nat) : (s.readSave dpa).1.m.mem = s.m.mem := by
  unfold State.readSave
  split <;> rename_i h <;> have hx := mem_fst h (s.mem_readLocal ..) <;> exact hx

@[simp] theorem State.mem_moveOne (s : State) (e l tti : Nat) : (s.moveOne e l tti).m.mem = s.m.mem := by
  unfold State.moveOne
  dsimp only
  repeat' split
  all_goals simp

@[simp] theorem State.mem_moveBookings (s : State) (e : Nat) : (s.moveBookings e).m.mem = s.m.mem := by simp [State.moveBookings, mem_foldl]

/-! ### Admission -/

@[simp] theorem State.mem_enterIntake (s : State) (m : Subm) : (s.enterIntake m).m.mem = s.m.mem := by simp [State.enterIntake]

@[simp] theorem State.mem_present (s : State) (sq sqhead : Nat) (r : Rec64) : (s.present sq sqhead r).m.mem = s.m.mem := by
  simp [State.present]

theorem State.mem_chargeRow (s : State) (off n : Nat) : ((s.chargeRow off n).getD s).m.mem = s.m.mem := by
  cases h : s.chargeRow off n with
  | none => rfl
  | some t =>
    obtain ⟨x, rfl⟩ := State.chargeRow_frame h
    rfl

@[simp] theorem State.mem_noteDecision (s : State) (tti reason sq cid : Nat) : (s.noteDecision tti reason sq cid).m.mem = s.m.mem := by
  simp [State.noteDecision]

@[simp] theorem State.mem_refuse (s : State) (m : Subm) (reason part : Nat) : (s.refuse m reason part).m.mem = s.m.mem := by
  simp [State.refuse]

@[simp] theorem State.mem_admitSubm (s : State) (m : Subm) (tti : Nat) (laps : List Nat) : (s.admitSubm m tti laps).m.mem = s.m.mem := by
  simp [State.admitSubm, mem_foldl]

@[simp] theorem State.mem_decideSubm (s : State) (m : Subm) : (s.decideSubm m).m.mem = s.m.mem := by
  unfold State.decideSubm
  split <;> simp

@[simp] theorem State.mem_badRows (s : State) (bad : List Nat) : (s.badRows bad).m.mem = s.m.mem := by simp [State.badRows, mem_foldl]

@[simp] theorem State.mem_ttIndexWrite (s : State) (v : BitVec 32) : (s.ttIndexWrite v).m.mem = s.m.mem := by
  unfold State.ttIndexWrite
  rw [mem_foldl _ _ (fun _ _ => congrArg Memory.mem (State.wr_m ..)), State.setFld_m]

@[simp] theorem State.mem_sendMsix (s : State) (v : Nat) : (s.sendMsix v).m.mem = s.m.mem := by simp [State.sendMsix]

@[simp] theorem State.mem_advanceTail (s : State) (q : Nat) : (s.advanceTail q).m.mem = s.m.mem := by
  unfold State.advanceTail
  dsimp only
  rw [State.mem_updCq, State.setFld_m]

@[simp] theorem State.mem_freePosted (s : State) (r : CRec) : (s.freePosted r).m.mem = s.m.mem := by
  unfold State.freePosted
  split <;> simp

@[simp] theorem State.mem_post (s : State) (q ty : Nat) : (s.post q ty).m.mem = s.m.mem := by
  unfold State.post
  split
  · rfl
  · refine State.mem_ite ?_ (State.mem_ite ?_ rfl)
    · rw [State.mem_freePosted, State.mem_updCq]
    · dsimp only
      split
      · rw [State.mem_sendPair, State.mem_freePosted, State.mem_sendMsix, State.add64_m, State.mem_advanceTail, State.emit_m,
          State.mem_updCq]
      · rw [State.mem_freePosted, State.mem_sendMsix, State.add64_m, State.mem_advanceTail, State.emit_m, State.mem_updCq]

/-! ### The issue of vector instructions -/

@[simp] theorem State.mem_vRaise (s : State) (e tag : Nat) (x : VErr) : (s.vRaise e tag x).m.mem = s.m.mem := by simp [State.vRaise]

/-! ### Vector loads -/

@[simp] theorem State.mem_vPlace (s : State) (e : Nat) (v : VInst) (c i x : Nat) (acc : Acc) (atomic : Bool) :
    (s.vPlace e v c i x acc atomic).1.m.mem = s.m.mem := by
  unfold State.vPlace
  dsimp only
  split
  · rfl
  · refine mem_foldl_fst _ _ (fun p q => ?_) (s, _)
    obtain ⟨s, r⟩ := p
    cases r with
    | ok ps =>
      dsimp only
      split <;> rename_i h <;> have hx := mem_fst h (s.mem_vXlate ..)
      · exact hx
      · exact hx
      · split <;> simp [hx]
    | waits => rfl
    | err x => rfl

theorem State.mem_loadSide {s t : State} {e tag c : Nat} {v : VInst} (h : s.loadSide e tag c = some (t, v)) :
    t.m.mem = s.m.mem := by
  unfold State.loadSide at h
  split at h
  · cases h
  · split at h
    · cases h
    · split at h
      · cases h
      · split at h
        · cases h
        · rename_i hs
          obtain ⟨w, -, hw⟩ := Option.map_eq_some_iff.1 h
          cases hw
          exact State.mem_startGroup hs

@[simp] theorem State.mem_askElems (s : State) (e : Nat) (v : VInst) (c uA uB unit : Nat) (first one : Bool) (i n : Nat) :
    (s.askElems e v c uA uB unit first one i n).1.m.mem = s.m.mem := by
  induction n generalizing s i with
  | zero => rfl
  | succ n ih =>
    unfold State.askElems
    dsimp only
    split
    · split
      · split <;> rename_i h
        · split
          · exact mem_fst h (s.mem_vPlace ..)
          · exact (ih ..).trans (mem_fst h (s.mem_vPlace ..))
        · exact mem_fst h (s.mem_vPlace ..)
        · rfl
      · rfl
    · rfl

theorem State.mem_askSieve {s t : State} {e : Nat} {v : VInst} {c : Nat} {ws : List Want} {booked : Bool}
    (h : s.askSieve e v c ws booked = some t) : t.m.mem = s.m.mem := by
  unfold State.askSieve at h
  dsimp only at h
  split at h
  · cases h
    dsimp only
    split <;> simp
  · cases h

@[simp] theorem State.mem_askUnit (s : State) (e : Nat) (v : VInst) (c x : Nat) :
    (s.askUnit e v c x).m.mem = s.m.mem := by
  unfold State.askUnit
  extract_lets b d i va
  split <;> rename_i s1 _ h <;> have hx := mem_fst h (s.mem_vPlace ..)
  · exact hx
  · rw [State.mem_updV, hx]
  · extract_lets dpa part bulk wide unit sieve room u base
    clear_value u base unit room sieve
    refine State.mem_ite rfl (State.mem_ite rfl ?_)
    dsimp only
    split
    · split
      · rename_i hs
        rw [State.mem_updV, State.mem_askSieve hs, State.mem_askElems, State.mem_payFor, hx]
      · rfl
    · split
      · rw [State.mem_updV, State.mem_sendRead, State.mem_askElems, State.mem_payFor, hx]
      · split
        · rw [State.mem_askExp, State.mem_updV, State.mem_askElems, State.mem_payFor, hx]
        · rw [State.mem_updV, State.mem_countUnits, State.mem_askElems, State.mem_payFor, hx]

@[simp] theorem State.mem_readPiece (s : State) (e : Nat) (b : StreamBuf) (p : Nat × Nat) :
    (s.readPiece e b p).1.m.mem = s.m.mem := by
  unfold State.readPiece
  split
  · rfl
  · split
    · split <;> rename_i h <;> simp [mem_fst h (s.mem_readLocal ..)]
    · split
      · rfl
      · repeat' split
        all_goals rfl

@[simp] theorem State.mem_readPieces (s : State) (e : Nat) (b : StreamBuf) (ps : List (Nat × Nat)) :
    (s.readPieces e b ps).1.m.mem = s.m.mem := by
  induction ps generalizing s with
  | nil => rfl
  | cons p t ih =>
    unfold State.readPieces
    split <;> rename_i h <;> have hx := mem_fst h (s.mem_readPiece ..)
    · exact hx
    · split <;> rename_i h <;> exact (mem_fst h (ih ..)).trans hx
    · exact hx

@[simp] theorem State.mem_countSieve (s : State) (u : Nat) (r : Bool × Bool) : (s.countSieve u r).m.mem = s.m.mem := by
  simp [State.countSieve]

@[simp] theorem State.mem_mkElem (s : State) (e : Nat) (v : VInst) (c : Nat) (w : Want) (bs : List Byte) (vec : Nat) :
    (s.mkElem e v c w bs vec).1.m.mem = s.m.mem := by
  unfold State.mkElem
  repeat' split
  all_goals simp

@[simp] theorem State.mem_beatWant (s : State) (e : Nat) (v : VInst) (c : Nat) (w0 : Want) (ws : List Want) (b : StreamBuf) :
    (s.beatWant e v c w0 ws b).1.m.mem = s.m.mem := by
  induction ws generalizing s b with
  | nil => rfl
  | cons w t ih =>
    unfold State.beatWant
    dsimp only
    split
    · rfl
    · split
      · split <;> rfl
      · split
        · split
          · rfl
          · exact ih ..
        · split <;> rename_i h
          · rfl
          · rw [ih, State.mem_mkElem, mem_fst h (s.mem_readPieces ..)]

@[simp] theorem State.mem_beatOwn (s : State) (e : Nat) (v : VInst) (c : Nat) (w0 : Option Want) (n : Nat) :
    (s.beatOwn e v c w0 n).1.m.mem = s.m.mem := by
  induction n generalizing s w0 with
  | zero => rfl
  | succ n ih =>
    unfold State.beatOwn
    extract_lets i
    split
    · extract_lets d va u
      split
      · rfl
      · split <;> rename_i h <;> have hx := mem_fst h (s.mem_vPlace ..)
        · exact hx
        · split
          · rfl
          · exact hx
        · split
          · rfl
          · exact (ih ..).trans hx
    · rfl

@[simp] theorem State.mem_findAt (s : State) (dpa : Nat) (u : Upset) : (s.findAt dpa u).m.mem = s.m.mem := by simp [State.findAt]

@[simp] theorem State.mem_chargeBeat (s : State) (e : Nat) (ws : List Want) : (s.chargeBeat e ws).m.mem = s.m.mem := by
  simp [State.chargeBeat, mem_foldl]

/-! ### Groups of a vector instruction -/

@[simp] theorem State.mem_mark (s : State) (e : Nat) (ds : List (Nat × Snap)) : (s.mark e ds).m.mem = s.m.mem :=
  mem_foldl _ _ (fun t _ => t.mem_updV ..) s

@[simp] theorem State.mem_stick (s : State) (e : Nat) (f : W64) : (s.stick e f).m.mem = s.m.mem := rfl

@[simp] theorem State.mem_chargeStore (s : State) (e tag dpa n : Nat) : (s.chargeStore e tag dpa n).m.mem = s.m.mem := by
  refine mem_foldl _ _ (fun t u => ?_) s
  split
  · rfl
  · split <;> simp

@[simp] theorem State.mem_writePieces (s : State) (e tag : Nat) (va : W64) (ps : List (Nat × Nat)) (bs : List Byte) :
    (s.writePieces e tag va ps bs).m.mem = s.m.mem := by
  induction ps generalizing s bs with
  | nil => rfl
  | cons p t ih =>
    unfold State.writePieces
    dsimp only
    rw [ih, State.issueWrite, State.mem_issueWriteAs, State.mem_chargeStore]

@[simp] theorem State.mem_farByte (s : State) (e : Nat) (v : VInst) (dpa : Nat) : (s.farByte e v dpa).1.m.mem = s.m.mem := by
  unfold State.farByte
  split <;> rename_i h <;> exact mem_fst h (s.mem_readFor ..)

@[simp] theorem State.mem_bitByte (s : State) (e : Nat) (v : VInst) (dpa : Nat) : (s.bitByte e v dpa).1.m.mem = s.m.mem := by
  unfold State.bitByte
  split
  · rfl
  · split
    · split
      · rfl
      · simp
    · simp

@[simp] theorem State.mem_planElem (s : State) (e : Nat) (v : VInst) (c i x : Nat) :
    (s.planElem e v c i x).1.m.mem = s.m.mem := by
  unfold State.planElem
  dsimp only
  split
  · rfl
  · split <;> rename_i h <;> have hx := mem_fst h (s.mem_vPlace ..)
    · exact hx
    · exact hx
    · split
      · exact hx
      · split
        · split <;> rename_i h <;> exact (mem_fst h (State.mem_bitByte ..)).trans hx
        · exact hx

@[simp] theorem State.mem_writeElem (s : State) (e tag : Nat) (p : Store) (val : Nat) :
    (s.writeElem e tag p val).m.mem = s.m.mem := by
  unfold State.writeElem
  split
  · simp
  · dsimp only
    split <;> simp

@[simp] theorem State.mem_noteSwap (s : State) (e : Nat) (ps : List (Nat × Nat)) (va : W64) :
    (s.noteSwap e ps va).1.m.mem = s.m.mem := rfl

@[simp] theorem State.mem_issueAtomic (s : State) (e dpa : Nat) (op : MemOp) (va : W64) :
    (s.issueAtomic e dpa op va).m.mem = s.m.mem := by
  unfold State.issueAtomic
  dsimp only
  split
  · simp
  · split <;> simp

@[simp] theorem State.mem_planD (s : State) (e : Nat) (v : VInst) (ix : Nat) : (s.planD e v ix).1.m.mem = s.m.mem := by
  unfold State.planD
  split
  · rfl
  · split <;> rename_i h <;> exact mem_fst h (s.mem_planElem ..)

@[simp] theorem State.mem_give (s : State) (e tag val : Nat) (p : Option Store) (snap : Snap) (ds : List (Nat × Snap))
    (fl : W64) : (s.give e tag val p snap ds fl).m.mem = s.m.mem := by
  unfold State.give
  split
  · rfl
  · dsimp only
    split <;> simp

@[simp] theorem State.mem_planBits (s : State) (e : Nat) (v : VInst) (gs : List Fed) :
    (s.planBits e v gs).1.m.mem = s.m.mem := by
  induction gs generalizing s with
  | nil => rfl
  | cons g t ih =>
    have hrest : ∀ (t' : State) (p : Option Store), (match t'.planBits e v t with
        | (s1, .ok l) => (s1, Plan.ok ((g, p) :: l))
        | other => other).1.m.mem = t'.m.mem := fun t' p => by
      split
      · exact mem_fst ‹_› (ih t')
      · exact ih t'
    unfold State.planBits
    dsimp only
    split
    · exact hrest ..
    · split
      · split
        · rfl
        · exact hrest ..
      · split <;> rename_i h <;> have hx := mem_fst h (s.mem_planElem ..)
        · exact (hrest ..).trans hx
        · exact hx
        · exact hx
        · exact hx

@[simp] theorem State.mem_takeOne (s : State) (e tag : Nat) (g : Fed) (p : Option Store) :
    (s.takeOne e tag g p).m.mem = s.m.mem := by
  unfold State.takeOne
  dsimp only
  split
  · rfl
  · split
    · simp
    · split
      · simp
      · split <;> simp

@[simp] theorem State.mem_takeAll (s : State) (e tag : Nat) (ps : List (Fed × Option Store)) :
    (s.takeAll e tag ps).m.mem = s.m.mem :=
  mem_foldl _ _ (fun t _ => t.mem_takeOne ..) s

@[simp] theorem State.mem_markBits (s : State) (e tag : Nat) (ps : List (Fed × Option Store)) :
    (s.markBits e tag ps).m.mem = s.m.mem := by
  unfold State.markBits
  split
  · rfl
  · split <;> simp

/-- The state that a step of a long vector ends in holds the given bytes. -/
def VStep.Keeps (mem : SMap Byte) : VStep → Prop
  | .go s | .stall s | .fin s | .trap s _ => s.m.mem = mem
  | .wait => True

section
variable {mem : SMap Byte} {r : VStep} {t : State} (hr : r.Keeps mem)
include hr

theorem VStep.Keeps.go (h : r = .go t) : t.m.mem = mem := by
  subst h
  exact hr

theorem VStep.Keeps.stall (h : r = .stall t) : t.m.mem = mem := by
  subst h
  exact hr

theorem VStep.Keeps.fin (h : r = .fin t) : t.m.mem = mem := by
  subst h
  exact hr

end

theorem VStep.keeps_each {α : Type} {f : State → α → VStep} (hf : ∀ s x, (f s x).Keeps s.m.mem) (l : List α) (s : State) :
    (VStep.each f l s).Keeps s.m.mem := by
  induction l generalizing s with
  | nil => rfl
  | cons x t ih =>
    unfold VStep.each
    split
    · rename_i h
      exact (hf s x).go h ▸ ih _
    · exact hf s x

theorem State.keeps_skipSieve (s : State) (e tag c n : Nat) : (s.skipSieve e tag c n).Keeps s.m.mem := by
  induction n generalizing s with
  | zero => rfl
  | succ n ih =>
    unfold State.skipSieve
    split
    · exact trivial
    · split
      · split
        · rfl
        · split <;> rename_i h
          · rename_i s1 ps
            have hi := ih ((s1.takeAll e tag ps).markBits e tag ps)
            rw [State.mem_markBits, State.mem_takeAll, mem_fst h (s.mem_planBits ..)] at hi
            exact hi
          · rfl
          · exact mem_fst h (s.mem_planBits ..)
          · exact mem_fst h (s.mem_planBits ..)
      · rfl

@[simp] theorem State.mem_setDshort (s : State) (e : Nat) : (s.setDshort e).m.mem = s.m.mem := rfl

theorem State.keeps_endFull (s : State) (e : Nat) (v : VInst) (cs : List Nat) : (s.endFull e v cs).Keeps s.m.mem := by
  unfold State.endFull
  split
  · rfl
  · split
    · exact trivial
    · rfl
  · rfl
  · split
    · exact (State.mem_updV ..).trans (s.mem_takeAll ..)
    · rfl

theorem State.keeps_position (s : State) (e : Nat) (v : VInst) (gs : List Fed) (acc : Nat) (r : EV) (out : Option Nat)
    (held : List (Nat × Snap)) : (s.position e v gs acc r out held).Keeps s.m.mem := by
  unfold State.position
  extract_lets planned
  have hp : planned.1.m.mem = s.m.mem := by
    cases out with
    | none => rfl
    | some _ => exact s.mem_planD ..
  obtain ⟨s1, pl⟩ := planned
  have h1 : s1.m.mem = s.m.mem := hp
  cases pl with
  | wait => exact trivial
  | stall => exact h1
  | trap x => exact h1
  | ok p =>
    dsimp only
    split <;> rename_i h <;> have h2 := (mem_fst h (State.mem_planBits ..)).trans h1
    · exact trivial
    · exact h2
    · exact h2
    · split
      · simp [VStep.Keeps, h2]
      · split
        · exact trivial
        · simp [VStep.Keeps, h2]

theorem State.keeps_posEach (s : State) (e : Nat) (v : VInst) (f : List Fed → EV × Nat) :
    (s.posEach e v f).Keeps s.m.mem := by
  unfold State.posEach
  split
  · exact s.keeps_endFull ..
  · split
    · rfl
    · exact trivial
    · rfl
    · dsimp only
      split
      · rfl
      · exact s.keeps_position ..

theorem State.keeps_withD (s : State) (e : Nat) (v : VInst) (gs : List Fed) {f : List Fed → VStep}
    (hf : ∀ l, (f l).Keeps s.m.mem) : (s.withD e v gs f).Keeps s.m.mem := by
  unfold State.withD
  split
  · rfl
  · exact trivial
  · rfl
  · exact hf _

theorem State.keeps_withIn (s : State) (e : Nat) (v : VInst) {f : List Fed → VStep} (hf : ∀ l, (f l).Keeps s.m.mem) :
    (s.withIn e v f).Keeps s.m.mem := by
  unfold State.withIn
  split
  · exact s.keeps_endFull ..
  · split
    · rfl
    · exact trivial
    · rfl
    · exact hf _

theorem State.keeps_posComp (s : State) (e : Nat) (v : VInst) : (s.posComp e v).Keeps s.m.mem :=
  s.keeps_withIn e v fun gs => by
    split
    · exact s.keeps_withD e v gs (fun _ => s.keeps_position ..)
    · exact s.keeps_position ..

@[simp] theorem State.mem_holdIn (s : State) (e : Nat) (v : VInst) (gs : List Fed) : (s.holdIn e v gs).m.mem = s.m.mem :=
  s.mem_updV ..

theorem State.keeps_posSegr (s : State) (e : Nat) (v : VInst) : (s.posSegr e v).Keeps s.m.mem :=
  s.keeps_withIn e v fun gs => by
    split
    · exact trivial
    · dsimp only
      split
      · rfl
      · split
        · refine s.keeps_withD e v gs (fun all => ?_)
          have hp := s.keeps_position e v all (foldId (opFn v.opf) (opEt v.opf)) (v.fold gs) (some (v.fold gs).val) v.hold
          split
          · exact (State.mem_updV ..).trans (hp.go ‹_›)
          · exact hp
        · have hp := s.keeps_position e v gs (v.fold gs).val (v.fold gs) none []
          split
          · exact (State.mem_holdIn ..).trans (hp.go ‹_›)
          · exact hp

theorem State.keeps_posRed (s : State) (e : Nat) (v : VInst) : (s.posRed e v).Keeps s.m.mem :=
  s.keeps_withIn e v fun gs => by
    dsimp only
    split
    · rfl
    · have hp := s.keeps_position e v gs (v.fold gs).val (v.fold gs) none []
      split
      · exact (State.mem_holdIn ..).trans (hp.go ‹_›)
      · exact hp

theorem State.keeps_posExp (s : State) (e : Nat) (v : VInst) : (s.posExp e v).Keeps s.m.mem := by
  have hd : ∀ gs x, (s.withD e v gs (fun all => s.position e v all 0 (EV.pure 0) (some x) [])).Keeps s.m.mem :=
    fun gs x => s.keeps_withD e v gs (fun _ => s.keeps_position ..)
  unfold State.posExp
  dsimp only
  repeat' split
  all_goals first | exact hd .. | exact trivial | rfl

theorem State.keeps_posMerge (s : State) (e : Nat) (v : VInst) : (s.posMerge e v).Keeps s.m.mem := by
  have hd : ∀ gs x, (s.withD e v gs (fun all => s.position e v all 0 (EV.pure 0) (some x) [])).Keeps s.m.mem :=
    fun gs x => s.keeps_withD e v gs (fun _ => s.keeps_position ..)
  unfold State.posMerge
  dsimp only
  repeat' split
  all_goals first | exact hd .. | exact trivial | rfl

@[simp] theorem State.mem_sortClose (s : State) (e : Nat) (v : VInst) : (s.sortClose e v).m.mem = s.m.mem := by
  unfold State.sortClose
  dsimp only
  split <;> simp

theorem State.keeps_sortGive (s : State) (e : Nat) (v : VInst) (b : ChainElem) (gs : List Fed) :
    (s.sortGive e v b gs).Keeps s.m.mem := by
  unfold State.sortGive
  dsimp only
  split <;> rename_i h <;> have h1 := mem_fst h (s.mem_planD ..)
  · exact trivial
  · exact h1
  · exact h1
  · split <;> rename_i h <;> have h2 := (mem_fst h (State.mem_planBits ..)).trans h1
    · exact trivial
    · exact h2
    · exact h2
    · split
      · exact trivial
      · simp [VStep.Keeps, h2]

theorem State.keeps_posSort (s : State) (e : Nat) (v : VInst) : (s.posSort e v).Keeps s.m.mem := by
  unfold State.posSort
  split
  · split
    · rfl
    · split
      · exact trivial
      · exact s.keeps_withD e v [] (fun _ => s.keeps_sortGive ..)
  · split
    · split
      · rfl
      · exact s.mem_sortClose ..
    · generalize hx : s.withIn e v _ = r
      have hr : r.Keeps s.m.mem := by
        rw [← hx]
        refine s.keeps_withIn e v (fun gs => ?_)
        split <;> rename_i h <;> have h1 := mem_fst h (s.mem_planBits ..)
        · exact trivial
        · exact h1
        · exact h1
        · dsimp only
          split
          · split <;> simp [VStep.Keeps, h1]
          · exact trivial
      split
      · split
        · exact hr
        · exact s.mem_sortClose ..
      · exact hr

@[simp] theorem State.mem_probe (s : State) (e : Nat) (v : VInst) (key sz bkt n : Nat) :
    (s.probe e v key sz bkt n).1.m.mem = s.m.mem := by
  induction n generalizing s bkt with
  | zero => rfl
  | succ n ih =>
    unfold State.probe
    dsimp only
    split <;> rename_i h <;> have hx := mem_fst h (s.mem_vRead ..)
    · exact hx
    · exact hx
    · split
      · exact hx
      · split
        · exact hx
        · split
          · exact hx
          · exact (ih ..).trans hx

theorem State.keeps_posProbe (s : State) (e : Nat) (v : VInst) : (s.posProbe e v).Keeps s.m.mem := by
  unfold State.posProbe
  dsimp only
  split
  · exact s.keeps_endFull ..
  · split
    · rfl
    · exact trivial
    · rfl
    · split
      · split <;> rename_i h <;> have hx := mem_fst h (s.mem_probe ..)
        · exact hx
        · exact (State.mem_dropGot ..).trans hx
        · rw [← hx]
          split
          · exact (State.mem_dropGot ..).trans ((State.keeps_position ..).go ‹_›)
          · exact State.keeps_position ..
      · exact s.keeps_position ..

@[simp] theorem State.mem_ropdPlace (s : State) (e : Nat) (v : VInst) : (s.ropdPlace e v).1.m.mem = s.m.mem := by
  unfold State.ropdPlace
  dsimp only
  split
  · rfl
  · split
    · rfl
    · split <;> rename_i h <;> exact mem_fst h (s.mem_vPlace ..)

@[simp] theorem State.mem_atomicPlace (s : State) (e : Nat) (v : VInst) (i ix : Nat) :
    (s.atomicPlace e v i ix).1.m.mem = s.m.mem := by
  unfold State.atomicPlace
  dsimp only
  split
  · rfl
  · split <;> rename_i h <;> have hx := mem_fst h (s.mem_vPlace ..)
    · exact hx
    · exact hx
    · split <;> exact hx

@[simp] theorem State.mem_doAtomic (s : State) (e : Nat) (v : VInst) (dpa val : Nat) (va : W64)
    (rop : Option (List (Nat × Nat) × W64)) : (s.doAtomic e v dpa val va rop).m.mem = s.m.mem := by
  unfold State.doAtomic
  split <;> simp

theorem State.keeps_posAtomic (s : State) (e : Nat) (v : VInst) : (s.posAtomic e v).Keeps s.m.mem := by
  have hpass : ∀ (t : State) (gs : List Fed), (match t.position e v gs 0 (EV.pure 0) none [] with
      | .go s1 => VStep.go (s1.updV e v.tag (fun w => { w with made := w.made + 1 }))
      | other => other).Keeps t.m.mem := fun t gs => by
    split
    · exact (State.mem_updV ..).trans ((t.keeps_position ..).go ‹_›)
    · exact t.keeps_position ..
  unfold State.posAtomic
  dsimp only
  split
  · exact s.keeps_endFull ..
  · split
    · rfl
    · exact trivial
    · rfl
    · split
      · exact hpass ..
      · split <;> rename_i h <;> have h1 := mem_fst h (s.mem_atomicPlace ..)
        · exact trivial
        · exact h1
        · exact h1
        · split <;> rename_i h <;> have h2 := (mem_fst h (State.mem_ropdPlace ..)).trans h1
          · exact trivial
          · exact h2
          · exact h2
          · rw [← h2]
            split
            · have h3 := (hpass ..).go ‹_›
              split
              · simp [VStep.Keeps, h3]
              · exact trivial
            · exact hpass ..

theorem State.keeps_posMake (s : State) (e : Nat) (v : VInst) : (s.posMake e v).Keeps s.m.mem := by
  unfold State.posMake
  split
  · split
    · rfl
    · exact s.keeps_endFull ..
  · split
    · rfl
    · exact trivial
    · rfl
    · split <;> exact s.keeps_position ..

theorem State.keeps_passSieves (s : State) (e tag : Nat) : (s.passSieves e tag).Keeps s.m.mem := by
  unfold State.passSieves
  split
  · exact trivial
  · split
    · rfl
    · exact VStep.keeps_each (fun t c => t.keeps_skipSieve e tag c 4096) _ s

@[simp] theorem State.mem_noteFull (s : State) (e tag : Nat) : (s.noteFull e tag).m.mem = s.m.mem := by
  unfold State.noteFull
  split <;> simp

theorem State.keeps_vPos (s : State) (e tag : Nat) : (s.vPos e tag).Keeps s.m.mem := by
  have hp := (s.noteFull e tag).keeps_passSieves e tag
  rw [State.mem_noteFull] at hp
  unfold State.vPos
  split
  · rw [← hp.go ‹_›]
    split
    · exact trivial
    · split
      · rfl
      · split
        · exact State.keeps_posSort ..
        · split
          · rfl
          · split
            · split
              · exact State.keeps_posEach ..
              · exact State.keeps_posMake ..
            · exact State.keeps_posComp ..
            · exact State.keeps_posExp ..
            · exact State.keeps_posEach ..
            · exact State.keeps_posSegr ..
            · exact State.keeps_posRed ..
            · exact State.keeps_posProbe ..
            · exact State.keeps_posAtomic ..
            · exact State.keeps_posAtomic ..
            · exact State.keeps_posMerge ..
            · exact State.keeps_posEach ..
  · exact hp

theorem State.keeps_runGroup (s : State) (e tag : Nat) (bits begun : Bool) (n : Nat) :
    (s.runGroup e tag bits begun n).Keeps s.m.mem := by
  induction n generalizing s begun with
  | zero => rfl
  | succ n ih =>
    have hp := s.keeps_vPos e tag
    unfold State.runGroup
    split
    · exact hp.go ‹_› ▸ ih _ true
    · split
      · rfl
      · exact trivial
    · exact hp.stall ‹_›
    · exact hp

theorem State.keeps_vEnd (s : State) (e tag : Nat) : (s.vEnd e tag).Keeps s.m.mem := by
  unfold State.vEnd
  split
  · exact trivial
  · split
    · exact trivial
    · split
      · generalize hx : s.withD e _ [] _ = r
        have hr : r.Keeps s.m.mem := by
          rw [← hx]
          refine s.keeps_withD e _ [] (fun gs => ?_)
          split <;> rename_i h <;> have h1 := mem_fst h (s.mem_planD ..)
          · exact trivial
          · exact h1
          · exact h1
          · simp [VStep.Keeps, h1]
        split
        · exact (State.mem_vFinish ..).trans hr
        · exact (State.mem_vFinish ..).trans hr
        · exact hr
      · exact s.mem_vFinish ..

theorem State.keeps_doGroup (s : State) (e tag : Nat) : (s.doGroup e tag).Keeps s.m.mem := by
  unfold State.doGroup
  split
  · exact trivial
  · split
    · exact trivial
    · have hr := fun f b n => (s.updV e tag f).keeps_runGroup e tag b false n
      simp only [State.mem_updV] at hr
      split
      · rename_i s1 hf
        have h1 := (hr ..).fin hf
        have hv := s1.keeps_vEnd e tag
        split
        · exact h1
        · exact (hv.stall ‹_›).trans h1
        · exact h1 ▸ hv
      · exact hr ..

@[simp] theorem State.mem_elemTrap (s : State) (e tag : Nat) (x : VErr) : (s.elemTrap e tag x).m.mem = s.m.mem := by simp [State.elemTrap]

theorem State.mem_afterGroup (s : State) (e tag : Nat) {r : VStep} (hr : r.Keeps s.m.mem) :
    (s.afterGroup e tag r).m.mem = s.m.mem := by
  cases r with
  | wait => rfl
  | go t | fin t | stall t => exact (State.mem_freeEnded ..).trans hr
  | trap t x => exact (State.mem_elemTrap ..).trans hr

/-! ### The fetch -/

@[simp] theorem State.mem_fetchWord (s : State) (e w : Nat) : (s.fetchWord e w).1.m.mem = s.m.mem := by
  unfold State.fetchWord
  split <;> rename_i h <;> have hx := mem_fst h (s.mem_locate ..)
  · exact hx
  · exact hx
  · exact hx
  · exact hx
  · split
    · rw [State.mem_unmapped, hx]
    · dsimp only
      split <;> rename_i h2 <;> have h3 := (mem_fst h2 (State.mem_readFor ..)).trans hx
      · exact h3
      · rw [State.mem_dropGot, h3]
      · exact h3
      · exact h3

@[simp] theorem State.mem_fetchFault (s : State) (e v d : Nat) : (s.fetchFault e v d).m.mem = s.m.mem := by simp [State.fetchFault]

@[simp] theorem State.mem_btbError (s : State) (e w : Nat) : (s.btbError e w).m.mem = s.m.mem := by
  unfold State.btbError
  dsimp only
  repeat' split
  all_goals simp

@[simp] theorem State.mem_fetchNext (s : State) (e : Nat) (btbUe : Bool) (r : Ahead) :
    (s.fetchNext e btbUe r).m.mem = s.m.mem := by
  unfold State.fetchNext
  dsimp only
  split
  · simp
  · split <;> rename_i h <;> have hx := mem_fst h (State.mem_fetchWord ..)
    · simp [hx]
    · simp [hx]
    · split <;> simp [hx]

@[simp] theorem State.mem_queueWord (s : State) (e : Nat) : (s.queueWord e).m.mem = s.m.mem := by simp [State.queueWord]

@[simp] theorem State.mem_slotError (s : State) (e : Nat) (f : Bool) (va : Nat) : (s.slotError e f va).m.mem = s.m.mem := by
  unfold State.slotError
  dsimp only
  repeat' split
  all_goals simp

@[simp] theorem State.mem_walkAhead (s : State) (e k : Nat) (ctx : BitVec 16) (ttb : W64) (va : Nat) :
    (s.walkAhead e k ctx ttb va).m.mem = s.m.mem := by
  unfold State.walkAhead
  split
  · simp
  · split <;> rename_i h <;> simp [mem_fst h (s.mem_doWalk ..)]

/-! ### The memory system -/

@[simp] theorem State.mem_noteFound (s : State) (unit : Nat) (u : Upset) : (s.noteFound unit u).m.mem = s.m.mem := by simp [State.noteFound]

@[simp] theorem State.mem_answerLoad (s : State) (e status : Nat) (bs : List Byte) :
    (s.answerLoad e status bs).m.mem = s.m.mem := by
  unfold State.answerLoad
  split
  · rfl
  · extract_lets s0 l fin
    have hfin : ∀ t v, (fin t v).m.mem = t.m.mem := fun t v => by
      change (State.retire _ _ _ _ _).m.mem = _
      rw [State.mem_retire, State.updEng_m]
    have h0 : s0.m.mem = s.m.mem := congrArg Memory.mem (State.updEng_m ..)
    split
    · rw [hfin, h0]
    · split
      · rw [hfin, State.bump_m, State.mem_stewErr, h0]
      · split
        · rw [State.mem_except, h0]
        · split
          · by_cases hc : (e < 512 && s0.mirroredNow) = true
            · rw [State.dataError, if_pos hc]
              exact (State.mem_clearPlace_eq ..).trans ((s0.mem_chargeCyc e).trans h0)
            · rw [State.dataError, if_neg hc]
              exact (s0.mem_except ..).trans h0
          · rw [State.mem_except]
            exact State.mem_ite ((s0.mem_unmapped ..).trans h0) h0

@[simp] theorem State.mem_answerStream (s : State) (e tag c dpa status : Nat) (bs : List Byte) :
    (s.answerStream e tag c dpa status bs).m.mem = s.m.mem := by
  simp [State.answerStream]

@[simp] theorem State.mem_answerStep (s : State) (e who dpa n : Nat) (st : RdStat) (bs : List Byte) :
    (s.answerStep e who dpa n st bs).m.mem = s.m.mem := by
  simp [State.answerStep]

@[simp] theorem State.mem_sieveRead (s : State) (src : Src) (dpa : Nat) (r : Rec64) :
    (s.sieveRead src dpa r).1.m.mem = s.m.mem := by
  refine mem_foldl_fst _ _ (fun p i => ?_) (s, _)
  dsimp only
  split <;> rename_i h <;> simp [mem_fst h (State.mem_readLocal ..)]

theorem State.mem_atomicGrants {s : State} {bank : Nat} {p : MemReq × State} (h : p ∈ s.atomicGrants bank) :
    p.2.m.mem = s.m.mem := by
  obtain ⟨sub, -, hs⟩ := List.mem_filterMap.1 h
  split at hs
  · split at hs
    · cases hs
      exact State.mem_bankWinner ‹_›
    · cases hs
  · cases hs

@[simp] theorem State.mem_channelFails (s : State) (ch : Nat) : (s.channelFails ch).m.mem = s.m.mem := by simp [State.channelFails]

@[simp] theorem State.mem_scrubGranule (s : State) (ch : Nat) (upset : Upset) : (s.scrubGranule ch upset).m.mem = s.m.mem := by
  unfold State.scrubGranule
  dsimp only
  repeat' split
  all_goals simp

@[simp] theorem State.mem_expServed (s : State) (port : Nat) (x : ExpItem) : (s.expServed port x).m.mem = s.m.mem := by
  simp [State.expServed]

@[simp] theorem State.mem_expAnswer (s : State) (q : ExpReq) (poison : Bool) : (s.expAnswer q poison).m.mem = s.m.mem := by
  unfold State.expAnswer
  dsimp only
  repeat' split
  all_goals simp

@[simp] theorem State.mem_expLate (s : State) (port : Nat) (tti : Option Nat) (dpa : Nat) : (s.expLate port tti dpa).m.mem = s.m.mem := by
  unfold State.expLate
  split <;> simp

@[simp] theorem State.mem_holdAnswer (s : State) (q : ExpReq) (poison : Bool) : (s.holdAnswer q poison).m.mem = s.m.mem := by
  simp [State.holdAnswer]

@[simp] theorem State.mem_portFails (s : State) (port : Nat) : (s.portFails port).m.mem = s.m.mem := by simp [State.portFails]

/-! ### The ring links -/

@[simp] theorem State.mem_trigger (s : State) (m : Mode) : (s.trigger m).m.mem = s.m.mem := by simp [State.trigger]

@[simp] theorem State.mem_setLts (s : State) (p v : Nat) : (s.setLts p v).m.mem = s.m.mem := by
  unfold State.setLts
  split
  · rw [State.setFld_m]
  · rw [State.setFld_m]

@[simp] theorem State.mem_setGen (s : State) (p v : Nat) : (s.setGen p v).m.mem = s.m.mem := by
  unfold State.setGen
  split
  · rw [State.setFld_m]
  · rfl

@[simp] theorem State.mem_portOff (s : State) (p : Nat) : (s.portOff p).m.mem = s.m.mem := by simp [State.portOff]

@[simp] theorem State.mem_enterService (s : State) : s.enterService.m.mem = s.m.mem := by simp [State.enterService, mem_foldl]

@[simp] theorem State.mem_beginEq (s : State) (p gen : Nat) : (s.beginEq p gen).m.mem = s.m.mem := by
  unfold State.beginEq
  dsimp only
  split
  · rw [State.setFld_m, State.updPort_m, State.mem_setLts]
  · rw [State.updPort_m, State.mem_setLts]

@[simp] theorem State.mem_idFail (s : State) (p : Nat) : (s.idFail p).m.mem = s.m.mem := by simp [State.idFail]

@[simp] theorem State.mem_checkFails (s : State) (p : Nat) : (s.checkFails p).m.mem = s.m.mem := by simp [State.checkFails]

@[simp] theorem State.mem_noteSwitch (s : State) (a b lap : Nat) (joins : Bool) : (s.noteSwitch a b lap joins).m.mem = s.m.mem := by
  simp [State.noteSwitch]

@[simp] theorem State.mem_announce (s : State) (p : Nat) (joins : Bool) : (s.announce p joins).m.mem = s.m.mem := by simp [State.announce]

@[simp] theorem State.mem_turnBack (s : State) (p : Nat) (f : Flit) : (s.turnBack p f).m.mem = s.m.mem := by simp [State.turnBack]

@[simp] theorem State.mem_pairLost (s : State) : s.pairLost.m.mem = s.m.mem := by simp [State.pairLost]

@[simp] theorem State.mem_linkLost (s : State) (p : Nat) : (s.linkLost p).m.mem = s.m.mem := by simp [State.linkLost, mem_foldl]

@[simp] theorem State.mem_resendAll (s : State) (p : Nat) : (s.resendAll p).m.mem = s.m.mem := by simp [State.resendAll]

@[simp] theorem State.mem_moveTime (s : State) (d : Int) : (s.moveTime d).m.mem = s.m.mem := by simp [State.moveTime]

@[simp] theorem State.mem_stepTime (s : State) (n : Nat) (frac : Int) : (s.stepTime n frac).m.mem = s.m.mem := by simp [State.stepTime]

@[simp] theorem State.mem_marker (s : State) (p : Nat) (k : Marker) (m1 : Int) : (s.marker p k m1).m.mem = s.m.mem := by
  unfold State.marker
  extract_lets d th s1 s2 up _ s3 note s4 t
  have h1 : s1.m.mem = s.m.mem := congrArg Memory.mem (State.updPort_m ..)
  have h3 : s3.m.mem = s.m.mem := by
    change s2.m.mem = _
    refine State.mem_ite ?_ h1
    rw [State.setFld_m]
    exact h1
  have h4 : s4.m.mem = s.m.mem := by
    change ((s3.setFld Reg.ringSync 31 16 (field16 th)).setFld Reg.ringStat 24 20 (k.mhops + 1)).m.mem = _
    rw [State.setFld_m, State.setFld_m, h3]
  have hn : ∀ (t : State) (x : Int), (note t x).m.mem = t.m.mem := fun t x => by
    change (State.setBit _ Reg.ringStat 19 _).m.mem = _
    rw [State.setBit_m]
  clear_value note s4 s3
  split
  · rw [hn, h3]
  · split
    · exact h3
    · split
      · change (t.stepTime t.tb t.tbFrac).m.mem = _
        rw [State.mem_stepTime, ← h4]
        exact s4.mem_moveTime _
      · rw [State.mem_moveTime, hn, h4]

@[simp] theorem State.mem_launch (s : State) (p : Nat) (f : Flit) : (s.launch p f).m.mem = s.m.mem := by simp [State.launch]

@[simp] theorem State.mem_freeBuf (s : State) (p vc : Nat) : (s.freeBuf p vc).m.mem = s.m.mem := by simp [State.freeBuf]

@[simp] theorem State.mem_markSent (s : State) (f : Flit) : (s.markSent f).m.mem = s.m.mem := by simp [State.markSent]

@[simp] theorem State.mem_fillSlot (s : State) (p code : Nat) : (s.fillSlot p code).m.mem = s.m.mem :=
  congrArg Memory.mem (RingOnly.fillSlot s p code).m

@[simp] theorem State.mem_askReplay (s : State) (p : Nat) : (s.askReplay p).m.mem = s.m.mem := by simp [State.askReplay]

@[simp] theorem State.mem_linkFields (s : State) (p : Nat) (f : Flit) : (s.linkFields p f).m.mem = s.m.mem := by simp [State.linkFields]

@[simp] theorem State.mem_rxLink (s : State) (p : Nat) (f : Flit) (crc : BitVec 32) : (s.rxLink p f crc).1.m.mem = s.m.mem := by
  unfold State.rxLink
  dsimp only
  repeat' split
  all_goals simp

@[simp] theorem State.mem_badPacket (s : State) (src : Nat) : (s.badPacket src).m.mem = s.m.mem := by simp [State.badPacket]

@[simp] theorem State.mem_unpack (s : State) (p : Nat) (f : Flit) : (s.unpack p f).m.mem = s.m.mem := by simp [State.unpack, mem_foldl]

@[simp] theorem State.mem_answerReq (s : State) (q : RemoteReq) (sts : Nat) (bs : List Byte) : (s.answerReq q sts bs).m.mem = s.m.mem := by
  unfold State.answerReq
  repeat' split
  all_goals simp [mem_foldl]

@[simp] theorem State.mem_matchRsp (s : State) (part reqr n : Nat) : (s.matchRsp part reqr n).m.mem = s.m.mem := by
  induction n generalizing s with
  | zero => rfl
  | succ n ih =>
    unfold State.matchRsp
    extract_lets k st
    split
    · rfl
    · extract_lets n1 short
      refine State.mem_ite rfl ?_
      rw [ih, State.mem_answerReq]

@[simp] theorem State.mem_takeData (s : State) (f : Flit) : (s.takeData f).m.mem = s.m.mem := by
  unfold State.takeData
  dsimp only
  split
  · rw [State.mem_matchRsp]
    dsimp only
    split <;> split <;> simp
  · rfl

@[simp] theorem State.mem_logOpen (s : State) (f : Flit) : (s.logOpen f).m.mem = s.m.mem := by
  unfold State.logOpen
  split <;> simp

@[simp] theorem State.mem_deliverFlit (s : State) (p : Nat) (f : Flit) : (s.deliverFlit p f).m.mem = s.m.mem := by simp [State.deliverFlit]

@[simp] theorem State.mem_acceptFlit (s : State) (p : Nat) (f : Flit) : (s.acceptFlit p f).m.mem = s.m.mem := by simp [State.acceptFlit]

@[simp] theorem State.mem_takeAck (s : State) (p : Nat) (f : Flit) : (s.takeAck p f).m.mem = s.m.mem := by
  have hf : ∀ t : State, ([0, 1, 2, 3].foldl (fun s vc => s.setTx ((if p = 2 then 32 else f.src.toNat) * 4 + vc)
      { s.tx ((if p = 2 then 32 else f.src.toNat) * 4 + vc) with
        rack := BitVec.ofNat 12 ((f.body.getD 0 0).toNat / 2 ^ (12 * vc)),
        unacked := (s.tx ((if p = 2 then 32 else f.src.toNat) * 4 + vc)).unacked.filter (fun g =>
          !decide ((BitVec.ofNat 12 ((f.body.getD 0 0).toNat / 2 ^ (12 * vc)) - g.eseq).toNat < 2048)) }) t).m.mem =
      t.m.mem := fun t => mem_foldl _ _ (fun _ _ => by rw [State.setTx_m]) t
  unfold State.takeAck
  dsimp only
  rw [mem_foldl _ _ (fun _ _ => by rw [State.setFld_m])]
  split
  · exact hf s
  · exact hf s

@[simp] theorem State.mem_forward (s : State) (p : Nat) (f : Flit) : (s.forward p f).m.mem = s.m.mem := by simp [State.forward]

@[simp] theorem State.mem_route (s : State) (p : Nat) (f : Flit) : (s.route p f).m.mem = s.m.mem := by simp [State.route]

@[simp] theorem State.mem_resendTriple (s : State) (k : Nat) : (s.resendTriple k).m.mem = s.m.mem := by simp [State.resendTriple]

/-! ### The ring messages -/

@[simp] theorem State.mem_pktUnmapped (s : State) (x : RxPkt) (dpa : Nat) : (s.pktUnmapped x dpa).m.mem = s.m.mem := by
  simp [State.pktUnmapped]

@[simp] theorem State.mem_answerNow (s : State) (x : RxPkt) (booked : Bool) (sts : Nat) (bs : List Byte) :
    (s.answerNow x booked sts bs).m.mem = s.m.mem := by
  simp [State.answerNow]

@[simp] theorem State.mem_queueRd (s : State) (x : RxPkt) (port n : Nat) (booked : Bool) (sv : Option Rec64) :
    (s.queueRd x port n booked sv).m.mem = s.m.mem := by
  simp [State.queueRd]

@[simp] theorem State.mem_doRd (s : State) (x : RxPkt) : (s.doRd x).m.mem = s.m.mem := by
  unfold State.doRd
  extract_lets off n sv pred
  refine State.mem_ite (by simp) (State.mem_ite (by simp) ?_)
  clear_value pred
  dsimp only
  split
  · simp
  · cases pred with
    | some r => simp
    | none =>
      dsimp only
      split <;> rename_i h <;> simp [mem_fst h (State.mem_readLocal ..)]

@[simp] theorem State.mem_postPkt (s : State) (x : RxPkt) (cs : List (Nat × Byte)) : (s.postPkt x cs).m.mem = s.m.mem := by
  simp [State.postPkt]

@[simp] theorem State.mem_doWrite (s : State) (x : RxPkt) (dpa : Nat) (bs : List Byte) (be : Nat) :
    (s.doWrite x dpa bs be).m.mem = s.m.mem := by
  simp [State.doWrite]

@[simp] theorem State.mem_doAt (s : State) (x : RxPkt) : (s.doAt x).m.mem = s.m.mem := by simp [State.doAt]

@[simp] theorem State.mem_tlbiNow (s : State) (va : Nat) (ctx : BitVec 16) : (s.tlbiNow va ctx).m.mem = s.m.mem := by simp [State.tlbiNow]

@[simp] theorem State.mem_recActs (s : State) (r : FaultRec) : (s.recActs r).m.mem = s.m.mem := by simp [State.recActs]

/-! ### The pair unit -/

@[simp] theorem State.mem_retireEpoch (s : State) (f : Fence) : (s.retireEpoch f).m.mem = s.m.mem := by simp [State.retireEpoch, mem_foldl]

@[simp] theorem State.mem_dropHung (s : State) (f : Fence) : (s.dropHung f).m.mem = s.m.mem := by simp [State.dropHung, mem_foldl]

@[simp] theorem State.mem_reRun (s : State) (tti f : Nat) : (s.reRun tti f).m.mem = s.m.mem := by simp [State.reRun, mem_foldl]

@[simp] theorem State.mem_fltPopWrite (s : State) (v : BitVec 32) : (s.fltPopWrite v).m.mem = s.m.mem := by simp [State.fltPopWrite]

@[simp] theorem State.mem_becomeFenced (s : State) : s.becomeFenced.m.mem = s.m.mem := by
  unfold State.becomeFenced
  rw [State.setBit_m, State.setBit_m, State.mem_portOff, State.setBit_m, mem_foldl _ _ (fun _ _ => by simp)]

@[simp] theorem State.mem_adoptStopped (s : State) : s.adoptStopped.m.mem = s.m.mem := by simp [State.adoptStopped, mem_foldl]

@[simp] theorem State.mem_becomeSurvivor (s : State) : s.becomeSurvivor.m.mem = s.m.mem := by
  rw [State.becomeSurvivor, State.mem_adoptStopped, State.setBit_m, State.setBit_m]

@[simp] theorem State.mem_rejoinWrite (s : State) (v : W64) : (s.rejoinWrite v).m.mem = s.m.mem := by
  unfold State.rejoinWrite
  dsimp only
  split
  · rfl
  · split
    · rw [State.setBit_m, State.wr64_m]
    · rw [State.wr64_m]

@[simp] theorem State.mem_flushAll (s : State) : s.flushAll.m.mem = s.m.mem := by simp [State.flushAll]

/-! ### The host port -/

@[simp] theorem State.mem_badBell (s : State) : s.badBell.m.mem = s.m.mem := by simp [State.badBell]

@[simp] theorem State.mem_sqTailWrite (s : State) (q : Nat) (v : BitVec 32) : (s.sqTailWrite q v).m.mem = s.m.mem := by
  simp [State.sqTailWrite]

@[simp] theorem State.mem_cqHeadWrite (s : State) (q : Nat) (v : BitVec 32) : (s.cqHeadWrite q v).m.mem = s.m.mem := by
  simp [State.cqHeadWrite]

@[simp] theorem State.mem_sqCfgWrite (s : State) (q : Nat) (v : BitVec 32) : (s.sqCfgWrite q v).m.mem = s.m.mem := by
  unfold State.sqCfgWrite
  dsimp only
  split
  · split
    · rfl
    · rw [State.setBit_m]
  · split
    · rw [State.setFld_m, State.setBit_m, State.setFld_m, State.setFld_m]
    · rw [State.setFld_m, State.setFld_m]

@[simp] theorem State.mem_purgeCq (s : State) (q : Nat) : (s.purgeCq q).m.mem = s.m.mem := by
  unfold State.purgeCq
  dsimp only
  split
  · rfl
  · rw [State.add64_m, State.mem_updCq, mem_foldl _ _ (fun _ _ => by split <;> rfl)]

@[simp] theorem State.mem_cqCfgWrite (s : State) (q : Nat) (v : BitVec 32) : (s.cqCfgWrite q v).m.mem = s.m.mem := by
  have h0 : (if bitsOf v.toNat 30 30 = 1 then s.purgeCq q else s).m.mem = s.m.mem := State.mem_ite (s.mem_purgeCq q) rfl
  unfold State.cqCfgWrite
  dsimp only
  split
  · split
    · rfl
    · rw [State.setBit_m]
  · split
    · rw [State.mem_updCq, State.setFld_m, State.setBit_m, State.setFld_m, State.setFld_m, h0]
    · rw [State.setFld_m, State.setFld_m, h0]

@[simp] theorem State.mem_hostDrop (s : State) (dpa : Nat) (isRead : Bool) : (s.hostDrop dpa isRead).m.mem = s.m.mem := by
  simp [State.hostDrop]

@[simp] theorem State.mem_hostUnmapped (s : State) (dpa : Nat) (isRead : Bool) : (s.hostUnmapped dpa isRead).m.mem = s.m.mem := by
  simp [State.hostUnmapped]

@[simp] theorem State.mem_hostWrite (s : State) (dpa : Nat) (be : BitVec 64) (d : Rec64) : (s.hostWrite dpa be d).m.mem = s.m.mem := by
  simp [State.hostWrite, mem_foldl]

/-- A read of a management master leaves memory as handing its answer on does. -/
theorem State.mem_masterRead (s : State) (id dpa n : Nat) (w : ReqFor) {give : State → Option (List Byte) → State}
    (hg : ∀ t o, (give t o).m.mem = t.m.mem) : (s.masterRead id dpa n w give).m.mem = s.m.mem := by
  unfold State.masterRead
  split
  · simp
  · split
    · simp
    · split <;> rename_i h <;> rw [hg] <;> exact mem_fst h (s.mem_readLocal ..)

@[simp] theorem State.mem_hostRead (s : State) (dpa : Nat) (held : List (Nat × Byte)) (give : Bool) :
    (s.hostRead dpa held give).m.mem = s.m.mem := by
  unfold State.hostRead
  dsimp only
  split
  · split <;> simp
  · split
    · exact s.mem_masterRead _ _ _ _ (fun t o => by split <;> simp)
    · split
      · simp
      · rfl

@[simp] theorem State.mem_releaseReads (s : State) : s.releaseReads.m.mem = s.m.mem := by simp [State.releaseReads, mem_foldl]

@[simp] theorem State.mem_hostMem (s : State) (dpa : Nat) (isRead : Bool) (be : BitVec 64) (d : Rec64) :
    (s.hostMem dpa isRead be d).m.mem = s.m.mem := by
  simp [State.hostMem]

@[simp] theorem State.mem_clearQueues (s : State) : s.clearQueues.m.mem = s.m.mem := by
  have hb : ∀ (t : State) (r : RegRef), (if t.bit r 31 then t.setBit r 31 false else t).m.mem = t.m.mem :=
    fun t r => State.mem_ite (congrArg Memory.mem (t.setBit_m ..)) rfl
  unfold State.clearQueues
  dsimp only
  rw [mem_foldl _ _ (fun t q => (State.mem_updCq ..).trans (hb t _)), mem_foldl _ _ (fun t q => hb t _)]

@[simp] theorem State.mem_dropHostReads (s : State) : s.dropHostReads.m.mem = s.m.mem := by simp [State.dropHostReads]

@[simp] theorem State.mem_hostReset (s : State) : s.hostReset.m.mem = s.m.mem := by simp [State.hostReset, mem_foldl]

@[simp] theorem State.mem_sendPend (s : State) (v : Nat) : (s.sendPend v).m.mem = s.m.mem := by simp [State.sendPend]

@[simp] theorem State.mem_mboxEnd (s : State) (status : Nat) : (s.mboxEnd status).m.mem = s.m.mem := by
  unfold State.mboxEnd
  dsimp only
  split
  · rw [State.setBit_m, State.setFld_m]
  · rw [State.mem_sendMsix, State.setBit_m, State.setFld_m]

@[simp] theorem State.mem_mboxWait (s : State) : s.mboxWait.m.mem = s.m.mem := by simp [State.mboxWait]

@[simp] theorem State.mem_mboxRsp (s : State) (ws : List (BitVec 32)) : (s.mboxRsp ws).m.mem = s.m.mem :=
  mem_foldl _ _ (fun _ _ => by rw [State.wr_m]) s

@[simp] theorem State.mem_mboxCtlWrite (s : State) (v : BitVec 32) : (s.mboxCtlWrite v).m.mem = s.m.mem := by
  unfold State.mboxCtlWrite
  dsimp only
  split
  · rfl
  · split
    · rw [State.setFld_m, State.setBit_m, State.setFld_m]
    · rw [State.setFld_m]

/-! ### Management -/

@[simp] theorem State.mem_keepCommit (s : State) (i : Nat) (v : W64) (verified : Bool) :
    (s.keepCommit i v verified).m.mem = s.m.mem := by
  unfold State.keepCommit
  extract_lets s1 s2
  have h2 : s2.m.mem = s.m.mem :=
    State.mem_ite ((congrArg Memory.mem (State.setBit_m ..)).trans (congrArg Memory.mem (State.satInc_m ..)))
      (congrArg Memory.mem (State.satInc_m ..))
  split
  · rw [State.wr64_m, h2]
  · rw [State.mem_fault, State.setFld_m, State.setBit_m, State.bump_m, State.wr64_m, h2]

@[simp] theorem State.mem_keepWrite (s : State) (m i : Nat) (hi : BitVec 32) (verified : Bool) :
    (s.keepWrite m i hi verified).m.mem = s.m.mem := by
  simp [State.keepWrite]

@[simp] theorem State.mem_flashPut (s : State) (a : Nat) (bs : List Byte) : (s.flashPut a bs).m.mem = s.m.mem := by simp [State.flashPut]

@[simp] theorem State.mem_flashCmdWrite (s : State) (v : BitVec 32) : (s.flashCmdWrite v).m.mem = s.m.mem := by
  unfold State.flashCmdWrite
  dsimp only
  split
  · rfl
  · split
    · rw [State.setFld_m]
    · split
      · rw [State.setFld_m]
      · split
        · rw [State.setFld_m]
        · rw [State.setFld_m, State.setBit_m]

@[simp] theorem State.mem_flashDone (s : State) (ok : Bool) : (s.flashDone ok).m.mem = s.m.mem := by
  have h1 : (if ok = true then s else s.bump).m.mem = s.m.mem := State.mem_ite rfl rfl
  unfold State.flashDone
  extract_lets a page sect bytes s1
  split
  · exact (mem_foldl _ _ (fun _ _ => by rw [State.wr_m]) s1).trans h1
  · exact h1
  · exact h1
  · exact h1

@[simp] theorem State.mem_stage (s : State) (m off : Nat) (v : BitVec 32) : (s.stage m off v).m.mem = s.m.mem := by simp [State.stage]

@[simp] theorem State.mem_commit64 (s : State) (rlOk : Bool) (m off : Nat) (hi : BitVec 32) :
    (s.commit64 rlOk m off hi).m.mem = s.m.mem := by
  unfold State.commit64
  dsimp only
  repeat' split
  all_goals simp

@[simp] theorem State.mem_highWrite (s : State) (rlOk : Bool) (m off : Nat) (hi : BitVec 32) :
    (s.highWrite rlOk m off hi).m.mem = s.m.mem := by
  simp [State.highWrite]

@[simp] theorem State.mem_timerWrite (s : State) (rlOk : Bool) (off : Nat) (v : BitVec 32) : (s.timerWrite rlOk off v).m.mem = s.m.mem := by
  simp [State.timerWrite]

@[simp] theorem State.mem_eventWrite (s : State) (rlOk : Bool) (m off : Nat) (v : BitVec 32) :
    (s.eventWrite rlOk m off v).m.mem = s.m.mem := by
  simp [State.eventWrite]

@[simp] theorem State.mem_hostRegWrite (s : State) (rlOk : Bool) (off : Nat) (v : BitVec 32) :
    (s.hostRegWrite rlOk off v).m.mem = s.m.mem := by
  unfold State.hostRegWrite
  repeat' split
  all_goals simp

@[simp] theorem State.mem_regWrite (s : State) (rlOk : Bool) (m off : Nat) (v : BitVec 32) : (s.regWrite rlOk m off v).m.mem = s.m.mem := by
  unfold State.regWrite
  split <;> simp

/-! ### Power -/

@[simp] theorem State.mem_cutFlash (s : State) : s.cutFlash.m.mem = s.m.mem := by simp [State.cutFlash]

@[simp] theorem State.mem_ordDefaults (s : State) : s.ordDefaults.m.mem = s.m.mem := by simp [State.ordDefaults]

@[simp] theorem State.mem_drivePins (s : State) : s.drivePins.m.mem = s.m.mem := by simp [State.drivePins]

@[simp] theorem State.mem_takeTemp (s : State) (k : Nat) (v : BitVec 12) : (s.takeTemp k v).m.mem = s.m.mem := by
  unfold State.takeTemp
  dsimp only
  split
  · rw [State.setFld_m, State.setFld_m, State.wr_m]
  · rw [State.setFld_m, State.wr_m]

@[simp] theorem State.mem_sleep (s : State) (c st tend : Nat) : (s.sleep c st tend).m.mem = s.m.mem := by
  unfold State.sleep
  dsimp only
  rw [State.setFld_m, mem_foldl]
  exact fun _ _ => rfl

@[simp] theorem State.mem_toNoon (s : State) (c : Nat) : (s.toNoon c).m.mem = s.m.mem := by
  rw [State.toNoon, State.setFld_m]

@[simp] theorem State.mem_allNoon (s : State) : s.allNoon.m.mem = s.m.mem := by simp [State.allNoon, mem_foldl]

@[simp] theorem State.mem_pinInstr (s : State) (code : BitVec 8) (kind : Nat) : (s.pinInstr code kind).m.mem = s.m.mem := by
  simp [State.pinInstr]

@[simp] theorem State.mem_dbgUnmapped (s : State) (dpa : Nat) : (s.dbgUnmapped dpa).m.mem = s.m.mem := by simp [State.dbgUnmapped]

@[simp] theorem State.mem_dbgRead (s : State) (dpa n : Nat) : (s.dbgRead dpa n).m.mem = s.m.mem := by
  unfold State.dbgRead
  split
  · exact s.mem_masterRead _ _ _ _ (fun t o => by rw [State.emit_m])
  · simp

@[simp] theorem State.mem_dbgWrite (s : State) (dpa : Nat) (be : BitVec 64) (d : Rec64) : (s.dbgWrite dpa be d).m.mem = s.m.mem := by
  simp [State.dbgWrite]

/-! ### Dawn -/

@[simp] theorem State.mem_writeRec (s : State) (ty n a b : Nat) (ds : List W64) : (s.writeRec ty n a b ds).m.mem = s.m.mem := by
  simp [State.writeRec, mem_foldl]

@[simp] theorem State.mem_writeShutdown (s : State) (clean : Bool) : (s.writeShutdown clean).m.mem = s.m.mem := by
  simp [State.writeShutdown]

@[simp] theorem State.mem_takeBadblock (s : State) : s.takeBadblock.m.mem = s.m.mem := by simp [State.takeBadblock]

@[simp] theorem State.mem_writeBadblock (s : State) : s.writeBadblock.m.mem = s.m.mem := by simp [State.writeBadblock]

@[simp] theorem State.mem_selfTest (s : State) (sigs : List (Nat × W64)) (banks : List Nat) :
    (s.selfTest sigs banks).m.mem = s.m.mem := by
  rw [State.selfTest]
  dsimp only
  split
  · rw [State.setBit_m, State.setFld_m, State.setFld_m, mem_foldl]
    exact fun _ _ => by rw [State.wr_m, State.wr64_m]
  · rw [State.setBit_m, State.setFld_m, State.setFld_m, mem_foldl]
    exact fun _ _ => by rw [State.wr_m, State.wr64_m]

@[simp] theorem State.mem_applyGrants (s : State) (c : Nat) : (s.applyGrants c).m.mem = s.m.mem :=
  mem_foldl _ _ (fun _ _ => (mem_foldl _ _ (fun _ _ => by rw [State.wr_m]) _).trans
    (mem_foldl _ _ (fun _ _ => by rw [State.wr_m]) _)) s

@[simp] theorem State.mem_enterPrep (s : State) : s.enterPrep.m.mem = s.m.mem := by simp [State.enterPrep]

@[simp] theorem State.mem_acceptCopy (s : State) (c : Nat) (o : DawnOutcome) : (s.acceptCopy c o).m.mem = s.m.mem := by
  unfold State.acceptCopy
  dsimp only
  repeat' split
  all_goals simp

@[simp] theorem State.mem_setReason (s : State) (c r : Nat) : (s.setReason c r).m.mem = s.m.mem := by
  unfold State.setReason
  split
  · rw [State.setFld_m]
  · rw [State.setFld_m]

/-! ### The Record Unit -/

@[simp] theorem State.mem_logPut (s : State) (off : Nat) (bs : List Byte) : (s.logPut off bs).m.mem = s.m.mem := by simp [State.logPut]

@[simp] theorem State.mem_stopLog (s : State) : s.stopLog.m.mem = s.m.mem := by
  rw [State.stopLog, State.setBit_m]

@[simp] theorem State.mem_sealBlock (s : State) : s.sealBlock.m.mem = s.m.mem := by simp [State.sealBlock]

@[simp] theorem State.mem_rollLog (s : State) (n : Nat) : (s.rollLog n).m.mem = s.m.mem := by simp [State.rollLog]

/-- A block put in its place. -/
theorem State.mem_putBlock (s : State) (o : Nat) (bs : List Byte) (r : Record) (v : W64) :
    (({ s.logPut o bs with recd := r } : State).wr64 Reg.recOldest v).m.mem = s.m.mem := by
  rw [State.wr64_m, State.mem_logPut]

/-- The mark where the region is left, whatever its bytes. -/
theorem State.mem_putMark (s : State) (o : Nat) (h : List Byte) (l : List (Nat × Nat)) (c : Prop) [Decidable c] :
    ((if c then { s.logPut o h with recd := { (s.logPut o h).recd with blocks := l } } else s).setBit Reg.recStat 31 true).m.mem =
      s.m.mem := by
  rw [State.setBit_m]
  exact State.mem_ite (s.mem_logPut ..) rfl

@[simp] theorem State.mem_writeBlock (s : State) (b : LogBlk) (rest : List LogBlk) : (s.writeBlock b rest).m.mem = s.m.mem := by
  rw [State.writeBlock]
  refine State.mem_ite (State.mem_putBlock ..) (State.mem_ite ?_ ((State.mem_putBlock ..).trans (State.mem_putMark ..)))
  rw [State.mem_stopLog, State.setBit_m]

@[simp] theorem State.mem_recErr (s : State) (bad : Bool) : (s.recErr bad).m.mem = s.m.mem := by simp [State.recErr]

@[simp] theorem State.mem_loadBlock (s : State) : s.loadBlock.m.mem = s.m.mem := by
  rw [State.loadBlock]
  dsimp only
  split
  · rw [State.mem_recErr, State.setFld_m]
  · split
    · rw [State.mem_recErr, State.setFld_m]
    · split
      · rw [State.mem_recErr, State.setFld_m]
      · rfl

@[simp] theorem State.mem_replaySubmit (s : State) (q : Nat) (ws : List W64) : (s.replaySubmit q ws).m.mem = s.m.mem := by
  unfold State.replaySubmit
  extract_lets w r m off n s1
  have h1 : s1.m.mem = s.m.mem := s.mem_chargeRow ..
  split
  · simp
  · split
    · simp
    · split <;> rename_i h <;> simp [mem_fst h (State.mem_readLocal ..), h1]

@[simp] theorem State.mem_diverge (s : State) (kind lap : Nat) : (s.diverge kind lap).m.mem = s.m.mem := by
  unfold State.diverge
  split
  · rfl
  · rw [State.wr64_m, State.setFld_m, State.setBit_m]

@[simp] theorem State.mem_compareLap (s : State) : s.compareLap.m.mem = s.m.mem := by
  unfold State.compareLap
  split
  · rfl
  · rename_i b hb
    extract_lets es part dec s1 s2 s3 s4 s5 stop s6
    have h1 : s1.m.mem = s.m.mem := State.mem_ite (s.mem_diverge ..) rfl
    have h2 : s2.m.mem = s.m.mem := State.mem_ite h1 ((State.mem_diverge ..).trans h1)
    have h3 : s3.m.mem = s.m.mem := State.mem_ite ((State.mem_diverge ..).trans h2) h2
    have h4 : s4.m.mem = s.m.mem := (mem_foldl _ _ (fun _ _ => by rw [State.setBit_m]) s3).trans h3
    have h5 : s5.m.mem = s.m.mem := State.mem_ite ((congrArg Memory.mem (State.satInc_m ..)).trans h4) h4
    split
    · rw [State.setFld_m]
      exact h5
    · exact h5

/-! ### The modes -/

@[simp] theorem State.mem_reroute (s : State) (back : List Nat) : (s.reroute back).m.mem = s.m.mem := by
  unfold State.reroute
  dsimp only
  rw [State.setFld_m, State.setFld_m, State.wr_m]

@[simp] theorem State.mem_takePartner (s : State) (o : PrepOutcome) : (s.takePartner o).m.mem = s.m.mem := by simp [State.takePartner]

@[simp] theorem State.mem_scaleCaps (s : State) : s.scaleCaps.m.mem = s.m.mem := by
  unfold State.scaleCaps
  extract_lets c cut sc s1
  have hcut : ∀ t r hi k, (cut t r hi k).m.mem = t.m.mem := fun t r hi k =>
    State.mem_ite rfl (congrArg Memory.mem (State.setFld_m ..))
  have h1 : s1.m.mem = s.m.mem := (hcut ..).trans ((hcut ..).trans (hcut ..))
  rw [State.mem_sendCtl, State.setFld_m, h1]

@[simp] theorem State.mem_trainMemory (s : State) (o : PrepOutcome) : (s.trainMemory o).m.mem = s.m.mem := by
  unfold State.trainMemory
  dsimp only
  rw [mem_foldl _ _ (fun _ _ => by rw [State.setBit_m, State.setBit_m, State.setBit_m])]

@[simp] theorem State.mem_writeSeeds (s : State) : s.writeSeeds.m.mem = s.m.mem := by simp [State.writeSeeds]

/-- The case of a log that does not fit, whatever its health. -/
theorem State.mem_replayFails (s : State) (bad : Bool) (f : Nat) (p : Option (Mode × Nat)) :
    ({ (s.recErr bad).setFld Reg.recRplStat 31 29 f with pendMode := p, recd := { s.recd with ending := true } } : State).m.mem =
      s.m.mem := by
  rw [State.setFld_m, State.mem_recErr]

@[simp] theorem State.mem_setTarget (s : State) : s.setTarget.m.mem = s.m.mem := by
  rw [State.setTarget]
  refine State.mem_ite (State.mem_ite (s.mem_replayFails ..) ?_) ?_
  · dsimp only
    rw [State.mem_stepTime]
  · split <;> rfl

@[simp] theorem State.mem_writePosition (s : State) : s.writePosition.m.mem = s.m.mem := by simp [State.writePosition]

@[simp] theorem State.mem_beginDrain (s : State) : s.beginDrain.m.mem = s.m.mem := by
  unfold State.beginDrain
  dsimp only
  rw [mem_foldl _ _ (fun _ _ => by simp), State.setFld_m, State.setBit_m]

@[simp] theorem State.mem_judgeNext (s : State) : s.judgeNext.m.mem = s.m.mem := by
  unfold State.judgeNext
  split <;> simp

@[simp] theorem State.mem_enterDusk (s : State) : s.enterDusk.m.mem = s.m.mem := by simp [State.enterDusk]

@[simp] theorem State.mem_drainToService (s : State) : s.drainToService.m.mem = s.m.mem := by
  have h : (((s.setFld Reg.pwrDuskStat 31 29 0).stopLog).enterService).allNoon.m.mem = s.m.mem := by
    rw [State.mem_allNoon, State.mem_enterService, State.mem_stopLog, State.setFld_m]
  unfold State.drainToService
  exact State.mem_ite ((State.mem_mboxEnd ..).trans h) h

@[simp] theorem State.mem_enterDegraded (s : State) : s.enterDegraded.m.mem = s.m.mem := by simp [State.enterDegraded, mem_foldl]

@[simp] theorem State.mem_discardHeld (s : State) : s.discardHeld.m.mem = s.m.mem := by
  unfold State.discardHeld
  dsimp only
  rw [State.setFld_m, mem_foldl, mem_foldl]
  · exact fun _ _ => rfl
  · exact fun _ _ => State.mem_ite rfl rfl

@[simp] theorem State.mem_afterPost (s : State) : s.afterPost.m.mem = s.m.mem := by
  unfold State.afterPost
  split
  · rw [State.setFld_m]
  · simp

/-! ### Management commands -/

@[simp] theorem State.mem_mgmtRead (s : State) (m off : Nat) : (s.mgmtRead m off).m.mem = s.m.mem := by simp [State.mgmtRead]

/-! ### The Lap boundary -/

@[simp] theorem State.mem_rollRecord (s : State) (n : Nat) : (s.rollRecord n).m.mem = s.m.mem := by simp [State.rollRecord]

@[simp] theorem State.mem_sendReady (s : State) : s.sendReady.m.mem = s.m.mem := by simp [State.sendReady, mem_foldl]

@[simp] theorem State.mem_sendLapEnd (s : State) (n : Nat) : (s.sendLapEnd n).m.mem = s.m.mem := by simp [State.sendLapEnd]

@[simp] theorem State.mem_recordFlags (s : State) : s.recordFlags.m.mem = s.m.mem := by simp [State.recordFlags]

@[simp] theorem State.mem_lateTends (s : State) : s.lateTends.m.mem = s.m.mem := by simp [State.lateTends]

@[simp] theorem State.mem_judgeDigests (s : State) : s.judgeDigests.m.mem = s.m.mem := by simp [State.judgeDigests, mem_foldl]

@[simp] theorem State.mem_judgePairLost (s : State) : s.judgePairLost.m.mem = s.m.mem := by
  unfold State.judgePairLost
  split <;> simp

@[simp] theorem State.mem_pairBoundary (s : State) (n : Nat) : (s.pairBoundary n).m.mem = s.m.mem := by simp [State.pairBoundary]

@[simp] theorem State.mem_stopAtBoundary (s : State) (e : Nat) : (s.stopAtBoundary e).m.mem = s.m.mem := by
  unfold State.stopAtBoundary
  split <;> simp

@[simp] theorem State.mem_requeue (s : State) (tti : Nat) : (s.requeue tti).m.mem = s.m.mem := by simp [State.requeue]

@[simp] theorem State.mem_taskBoundary (s : State) (tti : Nat) : (s.taskBoundary tti).m.mem = s.m.mem := by simp [State.taskBoundary]

@[simp] theorem State.mem_rollLedger (s : State) : s.rollLedger.m.mem = s.m.mem := by simp [State.rollLedger]

@[simp] theorem State.mem_starterBoundary (s : State) : s.starterBoundary.m.mem = s.m.mem := by simp [State.starterBoundary, mem_foldl]

@[simp] theorem State.mem_resetCounts (s : State) : s.resetCounts.m.mem = s.m.mem := by
  unfold State.resetCounts
  dsimp only
  rw [State.mem_fireCode, State.setBit_m, State.mem_countPinLaps]
  exact mem_foldl _ _ (fun _ _ => by rw [State.setFld_m]) s

@[simp] theorem State.mem_applyTlbi (s : State) : s.applyTlbi.m.mem = s.m.mem := by simp [State.applyTlbi]

@[simp] theorem State.mem_replayRate (s : State) (p : Nat) : (s.replayRate p).m.mem = s.m.mem := by simp [State.replayRate]

@[simp] theorem State.mem_failAtBreak (s : State) (lost : List Nat) (breaks : Bool) : (s.failAtBreak lost breaks).m.mem = s.m.mem := by
  simp [State.failAtBreak, mem_foldl]

@[simp] theorem State.mem_losePart (s : State) (q : Nat) : (s.losePart q).m.mem = s.m.mem := by simp [State.losePart, mem_foldl]

@[simp] theorem State.mem_sortInject (s : State) (lost changed : List Nat) (p : Nat) : (s.sortInject lost changed p).m.mem = s.m.mem := by
  simp [State.sortInject]

@[simp] theorem State.mem_routeSwitch (s : State) : s.routeSwitch.m.mem = s.m.mem := by
  unfold State.routeSwitch
  extract_lets due p _ s0 joins breaks mark s1 back s2 others dir changed lost s3 _ s4 s5
  have hmark : ∀ v t x, (mark v t x).m.mem = t.m.mem := fun v t x => mem_foldl _ _ (fun _ _ => by rw [State.setBit_m]) t
  have h2 : s2.m.mem = s.m.mem :=
    (State.mem_reroute ..).trans ((mem_foldl _ _ (hmark true) _).trans (mem_foldl _ _ (hmark false) s0))
  have h3 : s3.m.mem = s.m.mem := (mem_foldl _ _ (fun _ _ => State.mem_sortInject ..) s2).trans h2
  have h4 : s4.m.mem = s.m.mem := by
    refine State.mem_ite h3 ?_
    rw [State.setBit_m]
    exact h3
  have h5 : s5.m.mem = s.m.mem :=
    (State.mem_failAtBreak ..).trans ((mem_foldl _ _ (fun _ _ => State.mem_losePart ..) s4).trans h4)
  split
  · rfl
  · rw [State.add64_m, h5]

@[simp] theorem State.mem_sendDone (s : State) (n : Nat) : (s.sendDone n).m.mem = s.m.mem := by simp [State.sendDone]

@[simp] theorem State.mem_freeRetired (s : State) : s.freeRetired.m.mem = s.m.mem := by simp [State.freeRetired]

@[simp] theorem State.mem_drainEnds (s : State) : s.drainEnds.m.mem = s.m.mem := by
  unfold State.drainEnds
  split
  · rw [State.setFld_m]
  · rfl

@[simp] theorem State.mem_wakeEvening (s : State) : s.wakeEvening.m.mem = s.m.mem := by simp [State.wakeEvening, mem_foldl]

@[simp] theorem State.mem_rollDigests (s : State) : s.rollDigests.m.mem = s.m.mem := by simp [State.rollDigests]

@[simp] theorem State.mem_saveMarks (s : State) : s.saveMarks.m.mem = s.m.mem := by simp [State.saveMarks]

@[simp] theorem State.mem_releaseCmd (s : State) (sq sqhead : Nat) (r : Rec64) : (s.releaseCmd sq sqhead r).m.mem = s.m.mem := by
  unfold State.releaseCmd
  dsimp only
  split
  · simp
  · split
    · rfl
    · rw [State.mem_present, State.setFld_m]

@[simp] theorem State.mem_releaseInput (s0 : State) (i : Input) : (s0.releaseInput i).m.mem = s0.m.mem := by
  unfold State.releaseInput
  split <;> simp

@[simp] theorem State.mem_offerAgain (s : State) (i : Input) : (s.offerAgain i).m.mem = s.m.mem := by simp [State.offerAgain]

@[simp] theorem State.mem_offerWaiting (s : State) : s.offerWaiting.m.mem = s.m.mem := by simp [State.offerWaiting, mem_foldl]

@[simp] theorem State.mem_openLap (s : State) : s.openLap.m.mem = s.m.mem := by simp [State.openLap]

@[simp] theorem State.mem_moverStep (s : State) : s.moverStep.m.mem = s.m.mem := by
  unfold State.moverStep
  dsimp only
  split
  · rfl
  · split
    · rfl
    · split
      · rw [State.setBit_m]
      · split
        · rfl
        · split <;> rename_i h <;> have hx := mem_fst h (s.mem_readLocal ..)
          · exact (State.mem_copyOut ..).trans hx
          · exact hx
          · exact hx

@[simp] theorem State.mem_releaseInputs (s : State) : s.releaseInputs.m.mem = s.m.mem := by simp [State.releaseInputs, mem_foldl]

@[simp] theorem State.mem_releaseHeld (s : State) : s.releaseHeld.m.mem = s.m.mem := by simp [State.releaseHeld, mem_foldl]

@[simp] theorem State.mem_paceSlip (s : State) : s.paceSlip.m.mem = s.m.mem := by
  unfold State.paceSlip
  repeat' split
  all_goals simp [mem_foldl]

@[simp] theorem State.mem_freeEntries (s : State) : s.freeEntries.m.mem = s.m.mem := by simp [State.freeEntries, mem_foldl]

@[simp] theorem State.mem_takeView (s : State) : s.takeView.m.mem = s.m.mem := by simp [State.takeView, mem_foldl]

@[simp] theorem State.mem_serveAlone (s : State) : s.serveAlone.m.mem = s.m.mem := by simp [State.serveAlone, mem_foldl]

@[simp] theorem State.mem_release (s : State) : s.release.m.mem = s.m.mem := by simp [State.release]

end Sys2Proof.Machine

/-! PROOFS. The operations that change bytes keep the canonical form of the memory: resets, writes, saves, loaded images, Laps. -/

namespace Sys2Proof.Machine

/-! ### Operations that change bytes keep the form -/

theorem State.wf_of_mem {s t : State} (h : s.m.wf) (e : t.m.mem = s.m.mem) : t.m.wf := by
  show SMap.wf 0 _
  rw [e]
  exact h

theorem State.wf_ite {c : Prop} [Decidable c] {a b : State} (ha : a.m.wf) (hb : b.m.wf) : (if c then a else b).m.wf := by
  split
  · exact ha
  · exact hb

theorem State.wf_foldl {α : Type} (l : List α) {f : State → α → State} (hf : ∀ t a, t.m.wf → (f t a).m.wf) {s : State}
    (h : s.m.wf) : (l.foldl f s).m.wf := by
  induction l generalizing s with
  | nil => exact h
  | cons a t ih => exact ih (hf _ _ h)

theorem State.wf_enterHold {s : State} (h : s.m.wf) : s.enterHold.m.wf := by
  refine State.wf_of_mem (State.wf_afterReset (State.wf_of_mem h s.mem_cutFlash) .hold) ?_
  unfold State.enterHold
  rw [State.mem_drivePins]

theorem State.wf_tryLeave {s : State} (h : s.m.wf) : s.tryLeave.m.wf := by
  unfold State.tryLeave
  exact State.wf_ite
    (State.wf_of_mem (State.wf_afterReset (State.wf_of_mem h s.mem_cutFlash) .dawn) (State.mem_drivePins ..)) h

theorem State.wf_quietInstr {s : State} (h : s.m.wf) (code : BitVec 8) : (s.quietInstr code).m.wf :=
  State.wf_ite h (State.wf_tryLeave h)

theorem State.wf_devCtlWrite {s : State} (h : s.m.wf) (v : BitVec 32) : (s.devCtlWrite v).m.wf :=
  State.wf_ite (State.wf_tryLeave (State.wf_enterHold h)) h

/-- A gated write keeps the form where the write does: what the gate itself does moves no byte. -/
theorem State.wf_gate {s : State} (h : s.m.wf) (m off : Nat) (v : BitVec 32) {act : State → State}
    (ha : ∀ t : State, t.m.wf → (act t).m.wf) : (s.gate m off v act).m.wf := by
  unfold State.gate
  refine State.wf_ite (State.wf_of_mem h (congrArg Memory.mem (State.satInc_m ..)))
    (State.wf_ite (State.wf_of_mem h (State.mem_offer ..)) ?_)
  refine State.wf_ite (State.wf_ite (State.wf_of_mem h (congrArg Memory.mem (State.satInc_m ..))) h) (ha _ ?_)
  exact State.wf_ite (State.wf_of_mem h (State.mem_log ..)) h

theorem State.wf_mgmtWrite {s : State} (h : s.m.wf) (m off : Nat) (v : BitVec 32) : (s.mgmtWrite m off v).m.wf :=
  State.wf_gate h m off v (fun _ ht => State.wf_ite (State.wf_devCtlWrite ht v)
    (State.wf_ite ht (State.wf_of_mem ht (State.mem_regWrite ..))))

theorem State.wf_savePlacement {s : State} (h : s.m.wf) (e dpa : Nat) : (s.savePlacement e dpa).m.wf := by
  have hd : (s.dropAnnulled e).m.wf := State.wf_of_mem h (s.mem_dropAnnulled e)
  unfold State.savePlacement
  exact State.wf_foldl _ (fun _ _ ht => State.wf_of_mem ht (State.mem_digestRec ..)) (State.wf_putNow hd ..)

theorem State.wf_saveOut {s : State} (h : s.m.wf) (e : Nat) : (s.saveOut e).m.wf := by
  unfold State.saveOut
  split
  · exact h
  · rename_i p _
    have h1 : (if p.restored then s.savePlacement e p.save else s).m.wf := State.wf_ite (State.wf_savePlacement h ..) h
    refine State.wf_of_mem h1 ?_
    rw [State.mem_clearPlace_eq, State.mem_updTask]

theorem State.wf_stopUnder57 {s : State} (h : s.m.wf) (e : Nat) : (s.stopUnder57 e).m.wf := by
  have h0 : (s.stopIssue e).m.wf := State.wf_of_mem h (s.mem_stopIssue e)
  unfold State.stopUnder57
  split
  · exact h
  · extract_lets s0 s1 s2
    have h1 : s1.m.wf :=
      State.wf_ite (State.wf_of_mem (State.wf_savePlacement h0 ..) (State.mem_updTask ..)) h0
    have h2 : s2.m.wf := State.wf_of_mem h1 ((State.mem_clearPlace_eq ..).trans (s1.mem_chargeCyc e))
    refine State.wf_of_mem h2 ?_
    rw [State.mem_advanceEngine, State.mem_updTask]

theorem State.wf_performAnswer {s : State} (h : s.m.wf) (r : MemReq) (u : Upset) : (s.performAnswer r u).m.wf := by
  unfold State.performAnswer
  exact State.wf_performReq (State.wf_of_mem h ((State.mem_returnOld ..).trans (State.mem_upsetWrite ..))) _ _

theorem State.wf_addAtomic {s : State} (h : s.m.wf) (r : MemReq) (u : Upset) (a : AdderCheck) (o : Nat) :
    (s.addAtomic r u a o).m.wf := by
  unfold State.addAtomic
  split
  · exact State.wf_performAnswer h r u
  · exact State.wf_performAnswer h r u
  · exact State.wf_performAnswer h r u
  · exact State.wf_performAnswer (State.wf_of_mem h (State.mem_fault ..)) r u
  · refine State.wf_of_mem h ?_
    dsimp only
    rw [State.mem_fault]
    split <;> simp [State.dropReq]

/-- One section of a flash image: what it puts in a Home Bank or in the SRAM is put in the form. -/
theorem State.wf_applySect {s : State} (h : s.m.wf) (c : Nat) (x : Sect) : (s.applySect c x).m.wf := by
  have hb : ∀ (t : State) (e o : Nat) (bs : List Byte), t.m.wf →
      (if t.bankUp e then ({ t with m := { t.m with mem := putCells t.m.mem (cellsAt (bankBase e + o) bs) } } : State)
        else t).m.wf :=
    fun _ _ _ _ ht => State.wf_ite (wf_putCells ht _) ht
  unfold State.applySect
  generalize List.range 512 = l
  dsimp only
  split
  · refine State.wf_foldl _ (fun t r ht => ?_) h
    exact State.wf_of_mem ht (t.mem_regWrite ..)
  · exact h
  · exact h
  · exact h
  · exact State.wf_foldl _ (fun t e ht => hb t e _ _ ht) h
  · exact hb s _ _ _ h
  · exact h

theorem State.wf_applyImage {s : State} (h : s.m.wf) (c : Nat) : (s.applyImage c).m.wf :=
  State.wf_of_mem (State.wf_foldl _ (fun _ x ht => State.wf_applySect ht c x) h) (State.mem_applyGrants ..)

theorem State.wf_loadCopy {s : State} (h : s.m.wf) (c : Nat) : (s.loadCopy c).2.m.wf := by
  unfold State.loadCopy
  dsimp only
  split
  · exact h
  · exact State.wf_applyImage h c

theorem State.wf_tryCopies {s : State} (h : s.m.wf) (o : DawnOutcome) (cs : List Nat) : (s.tryCopies o cs).m.wf := by
  induction cs generalizing s with
  | nil => exact State.wf_of_mem h s.mem_enterService
  | cons c t ih =>
    have hc : ∀ {r : Nat} {s1 : State}, s.loadCopy c = (r, s1) → s1.m.wf := fun e => by
      have := State.wf_loadCopy h c
      rwa [e] at this
    unfold State.tryCopies
    split
    · exact State.wf_of_mem (hc ‹_›) (State.mem_acceptCopy ..)
    · exact ih (State.wf_of_mem h (State.mem_setReason ..))

/-- The header put at the region's start, whatever its bytes. -/
theorem State.mem_putHeader (s : State) (bs : List Byte) (r : Record) (v : W64) :
    ({ ((s.setFld Reg.recStat 31 28 1).wr64 Reg.recOldest v).logPut 0 bs with recd := r } : State).m.mem = s.m.mem := by
  rw [State.mem_logPut, State.wr64_m, State.setFld_m]

@[simp] theorem State.mem_startLog (s : State) (first : Nat) : (s.startLog first).m.mem = s.m.mem := by
  rw [State.startLog]
  refine State.mem_ite rfl (State.mem_ite ?_ (State.mem_putHeader ..))
  rw [State.setBit_m]

/-- The rows of the Ledger opened for a running mode, and what is then written down. -/
theorem State.mem_openRows (s : State) (m : Mode) (l : List Nat) :
    (((l.foldl (fun (s : State) i => s.openAt (s.lap + 1 + i))
      { s with mode := m, pendMode := none, nextMode := none, runLap := s.lap }).writePosition).writeShutdown false).m.mem = s.m.mem := by
  rw [State.mem_writeShutdown, State.mem_writePosition, mem_foldl _ _ (fun t _ => t.mem_openAt _)]

/-- A replay begins with its first block, where the log has one. -/
theorem State.mem_startReplay (s : State) (o : Nat) :
    (let s1 : State := { s with recd := { s.recd with playOff := o } }
      if s1.recd.ending then s1 else s1.loadBlock).m.mem = s.m.mem :=
  State.mem_ite rfl (State.mem_loadBlock _)

@[simp] theorem State.mem_enterRunning (s : State) (m : Mode) : (s.enterRunning m).m.mem = s.m.mem := by
  have h : (((s.wr Reg.ringBroken (BitVec.ofNat 32 s.brokenAtEntry)).reroute []).setBit Reg.staAdmitCtrl 0 true).m.mem =
      s.m.mem := by
    rw [State.setBit_m, State.mem_reroute, State.wr_m]
  rw [State.enterRunning]
  generalize List.range 256 = l
  refine State.mem_ite ?_ ((State.mem_startLog ..).trans ((State.mem_openRows ..).trans h))
  refine (State.mem_startReplay _ 0x1000).trans ?_
  exact (State.mem_openRows ..).trans h

theorem State.wf_applyEnt {s : State} (h : s.m.wf) (x : LogEnt) : (s.applyEnt x).m.wf := by
  unfold State.applyEnt
  split
  · exact State.wf_of_mem h (State.mem_ite (State.mem_sqTailWrite ..) (State.mem_cqHeadWrite ..))
  · exact State.wf_of_mem h (State.mem_replaySubmit ..)
  · exact State.wf_performReq h _ _
  · exact State.wf_of_mem h (State.mem_regWrite ..)
  · exact h
  · exact State.wf_of_mem h (State.mem_pinEdge ..)
  · exact State.wf_of_mem h (State.mem_deliverFlit ..)
  · exact h

theorem State.wf_nextEnt {s : State} (h : s.m.wf) : s.nextEnt.m.wf := by
  unfold State.nextEnt
  split
  · exact h
  · split
    · exact h
    · refine State.wf_applyEnt ?_ _
      exact h

theorem State.wf_finishEnts {s : State} (h : s.m.wf) : s.finishEnts.m.wf := by
  unfold State.finishEnts
  split
  · exact h
  · exact State.wf_foldl _ (fun _ _ ht => State.wf_nextEnt ht) h

theorem State.wf_closeLap {s : State} (h : s.m.wf) : s.closeLap.m.wf := by
  have h1 : s.closeDigests.finishEnts.m.wf := State.wf_finishEnts (State.wf_of_mem h s.mem_closeDigests)
  unfold State.closeLap
  dsimp only
  split
  · exact State.wf_foldl _ (fun _ _ ht => State.wf_of_mem ht (State.mem_moveBookings ..)) h1
  · exact h1

theorem State.wf_lapBoundary {s : State} (h : s.m.wf) : s.lapBoundary.m.wf := by
  unfold State.lapBoundary
  refine State.wf_ite h (State.wf_ite (State.wf_of_mem h s.mem_openLap) ?_)
  exact State.wf_of_mem (State.wf_closeLap h) ((State.mem_openLap _).trans (State.mem_advanceTime ..))

theorem State.wf_idleTick {s : State} (h : s.m.wf) : s.idleTick.m.wf := by
  unfold State.idleTick
  extract_lets s1
  have h1 : s1.m.wf :=
    State.wf_ite (State.wf_of_mem (State.wf_closeLap h) (State.mem_tick _)) (State.wf_of_mem h s.mem_tick)
  have h2 : (if s1.windowUp && s1.lastLap < s1.lap then s1.openLap else s1).m.wf :=
    State.wf_ite (State.wf_of_mem h1 s1.mem_openLap) h1
  refine State.wf_of_mem h2 ?_
  exact (State.mem_moverStep _).trans (State.mem_releaseReads _)

end Sys2Proof.Machine

/-! PROOFS. What the instructions and commands answer keeps the canonical form. Settles O60. -/

namespace Sys2Proof.Machine

/-! ### What the instructions answer -/

/-- The answer of a command leaves the memory in its canonical form. -/
def Res.Wf (r : Res) : Prop :=
  match r with
  | .next t => t.m.wf
  | .fault _ => True
  | .refused _ => True

/-- What an instruction's body leaves is in the canonical form. -/
def Act.Wf (a : Act) : Prop :=
  match a with
  | .done t _ => t.m.wf
  | .trap t _ _ _ => t.m.wf
  | .wait => True
  | .stop t => t.m.wf

theorem Res.wf_ite {c : Prop} [Decidable c] {a b : Res} (ha : a.Wf) (hb : b.Wf) : (if c then a else b).Wf := by
  split
  · exact ha
  · exact hb

theorem Act.wf_ite {c : Prop} [Decidable c] {a b : Act} (ha : a.Wf) (hb : b.Wf) : (if c then a else b).Wf := by
  split
  · exact ha
  · exact hb

theorem State.wf_next {s t : State} (h : s.m.wf) (e : t.m.mem = s.m.mem) : Res.Wf (.next t) := State.wf_of_mem h e

theorem State.wf_perform {s : State} (h : s.m.wf) (e op len : Nat) {body : State → Act}
    (hb : (body (s.cycle e)).Wf) : (s.perform e op len body).m.wf := by
  unfold State.perform
  generalize body (s.cycle e) = a at hb
  cases a with
  | done t c => exact State.wf_of_mem hb (State.mem_retire ..)
  | trap t vec detail faddr => exact State.wf_of_mem hb (State.mem_except ..)
  | wait => exact h
  | stop t => exact hb

/-- An instruction keeps the form where its body does: the ways past it move no byte. -/
theorem State.wf_scalar {s : State} (h : s.m.wf) (e : Nat) (p : Pfx) (op : Nat) (bad : Arch → Nat) (lat : Arch → Option Nat)
    {body : State → Act} (hb : ∀ t : State, t.m.wf → (body t).Wf) : (s.scalar e p op bad lat body).m.wf := by
  unfold State.scalar
  split
  · exact State.wf_of_mem h (State.mem_stalled ..)
  · rename_i s0 hr
    have h0 : s0.m.wf := State.wf_of_mem h (State.mem_ready hr)
    have hc : ∀ {s1 : State} {b : Bool}, s0.checked e p.chk (lat (s0.eng e).arch) = (s1, b) → s1.m.wf :=
      fun hp => State.wf_of_mem h0 (mem_fst hp (State.mem_checked ..))
    refine State.wf_ite (State.wf_of_mem h0 ((State.mem_retire ..).trans (congrArg Memory.mem (State.m_cycle ..))))
      (State.wf_ite (State.wf_of_mem h0 (State.mem_except ..)) ?_)
    split
    · exact hc ‹_›
    · have h1 := hc ‹_›
      exact State.wf_ite (State.wf_of_mem h1 (State.mem_except ..))
        (State.wf_perform h1 e op _ (hb _ (State.wf_of_mem h1 (congrArg Memory.mem (State.m_cycle ..)))))

theorem State.wf_regOp {s : State} (h : s.m.wf) (e : Nat) (p : Pfx) (op bad : Nat) (lat : Arch → Option Nat) (f : Arch → Alu) :
    (s.regOp e p op bad lat f).m.wf := by
  refine State.wf_scalar h e p op _ lat (fun t ht => ?_)
  split
  · exact State.wf_of_mem ht (congrArg Memory.mem (State.updEng_m ..))
  · exact ht

theorem State.wf_toArch {s : State} (h : s.m.wf) (e : Nat) (g : Arch → Arch) : (s.toArch e g).Wf := h

theorem State.wf_jump {s : State} (h : s.m.wf) (e op : Nat) (p : Pfx) (always taken an link ind : Bool) (target : W64) :
    (s.jump e op p always taken an link ind target).Wf := by
  have h1 : ∀ f : Engine → Engine, (s.updEng e f).m.wf := fun f => State.wf_of_mem h (congrArg Memory.mem (State.updEng_m ..))
  exact State.wf_ite (State.wf_of_mem (h1 _) (congrArg Memory.mem (State.updEng_m ..))) (h1 _)

theorem State.wf_openLoop {s : State} (h : s.m.wf) (e op : Nat) (p : Pfx) (count : W64) (body : Nat) :
    (s.openLoop e op p count body).Wf :=
  Act.wf_ite (State.wf_of_mem h (congrArg Memory.mem (State.updEng_m ..)))
    (State.wf_of_mem h (congrArg Memory.mem (State.updEng_m ..)))

theorem State.wf_dataError {s : State} (h : s.m.wf) (e dpa : Nat) (va : W64) : (s.dataError e dpa va).Wf :=
  Act.wf_ite (State.wf_of_mem h ((State.mem_clearPlace_eq ..).trans (s.mem_chargeCyc e))) h

theorem State.wf_loaded {s : State} (h : s.m.wf) (e : Nat) (l : LoadOp) (bs : List Byte) : (s.loaded e l bs).Wf :=
  State.wf_of_mem h (congrArg Memory.mem (State.updEng_m ..))

theorem State.wf_stewardError {s : State} (h : s.m.wf) (l : LoadOp) : (s.stewardError l).Wf :=
  State.wf_loaded (s := s.stewErr.bump) (State.wf_of_mem h s.mem_stewErr) ..

theorem State.wf_loadAt {s : State} (h : s.m.wf) (e dpa : Nat) (l : LoadOp) : (s.loadAt e dpa l).Wf := by
  have hp : (s.payFor e dpa l.n).1.m.wf := State.wf_of_mem h (s.mem_payFor ..)
  have hu : ∀ {t : State}, t.m.wf → (t.unmapped e dpa).m.wf := fun ht => State.wf_of_mem ht (State.mem_unmapped ..)
  unfold State.loadAt
  refine Act.wf_ite (State.wf_loaded (State.wf_of_mem h (State.mem_stewardRead ..)) ..)
    (Act.wf_ite (Act.wf_ite (State.wf_stewardError (hu h) l) (hu h)) (Act.wf_ite trivial ?_))
  dsimp only
  refine Act.wf_ite (State.wf_of_mem hp ((State.mem_awaitLoad ..).trans (State.mem_sendRead ..))) ?_
  split
  · exact State.wf_of_mem hp ((State.mem_awaitLoad ..).trans (State.mem_askExp ..))
  · split <;> rename_i hr <;> have h2 := State.wf_of_mem hp (mem_fst hr (State.mem_readCounted ..))
    · exact State.wf_loaded h2 ..
    · exact Act.wf_ite (State.wf_stewardError h2 l) (State.wf_dataError h2 ..)
    · exact hu h2

theorem State.wf_loadOp {s : State} (h : s.m.wf) (e : Nat) (l : LoadOp) : (s.loadOp e l).Wf := by
  unfold State.loadOp
  refine Act.wf_ite h ?_
  split <;> rename_i hl <;> have h1 := State.wf_of_mem h (mem_fst hl (s.mem_locate ..))
  · exact Act.wf_ite (State.wf_of_mem h1 (State.mem_unmapped ..)) h1
  · exact State.wf_of_mem h1 (State.mem_thirdFault ..)
  · exact h1
  · exact State.wf_loaded h1 ..
  · exact Act.wf_ite trivial (State.wf_loadAt h1 ..)

theorem State.wf_storeOp {s : State} (h : s.m.wf) (e : Nat) (va : W64) (bs : List Byte) (adj : Arch → Arch)
    {mgmt : State → Nat → BitVec 32 → State} (hm : ∀ (t : State) (off : Nat) (v : BitVec 32), t.m.wf → (mgmt t off v).m.wf) :
    (s.storeOp e va bs adj mgmt).Wf := by
  have hfin : ∀ {t : State}, t.m.wf → (t.updEng e (fun x => { x with arch := adj x.arch })).m.wf :=
    fun ht => State.wf_of_mem ht (congrArg Memory.mem (State.updEng_m ..))
  have hs : ∀ {t : State} (l : Loc), t.m.wf → (t.storeLoc e l bs va none false).m.wf :=
    fun _ ht => State.wf_of_mem ht (State.mem_storeLoc ..)
  have hu : ∀ {t : State} (d : Nat), t.m.wf → (t.unmapped e d).m.wf := fun _ ht => State.wf_of_mem ht (State.mem_unmapped ..)
  unfold State.storeOp
  refine Act.wf_ite h ?_
  split <;> rename_i hl <;> have h1 := State.wf_of_mem h (mem_fst hl (s.mem_locate ..))
  · exact Act.wf_ite (hu _ h1) h1
  · exact State.wf_of_mem h1 (State.mem_thirdFault ..)
  · exact h1
  · exact hfin (hs _ h1)
  · refine Act.wf_ite (hfin (State.wf_ite (hm _ _ _ h1) h1)) (Act.wf_ite (Act.wf_ite ?_ (hu _ h1)) ?_)
    · exact hfin (State.wf_of_mem (hu _ h1) (State.mem_stewErr _))
    · exact Act.wf_ite trivial (Act.wf_ite (hs _ h1) (hfin (hs _ h1)))

theorem State.wf_store {s : State} (h : s.m.wf) (e : Nat) (va : W64) (bs : List Byte) (adj : Arch → Arch) :
    (s.store e va bs adj).Wf :=
  State.wf_storeOp h e va bs adj (fun _ _ _ ht => State.wf_ite (State.wf_mgmtWrite ht ..) ht)

theorem State.wf_intR {s : State} (h : s.m.wf) (e : Nat) (p : Pfx) (op : Nat) (f : FmtR) (zero : List Nat)
    (lat : Arch → Option Nat) (g : W64 → Bool → Nat → Nat → Nat → IRes) : (s.intR e p op f zero lat g).Wf :=
  State.wf_regOp h ..

theorem State.wf_intI {s : State} (h : s.m.wf) (e : Nat) (p : Pfx) (op : Nat) (f : FmtI) (zero : List Nat) (signed : Bool)
    (lat : Arch → Option Nat) (g : W64 → Bool → Nat → Nat → Nat → IRes) : (s.intI e p op f zero signed lat g).Wf :=
  State.wf_regOp h ..

theorem State.wf_fpOp {s : State} (h : s.m.wf) (e : Nat) (p : Pfx) (op : Nat) (f : FmtR) (zero : List Nat)
    (lat : Arch → Option Nat) (g : Arch → Arch) : (s.fpOp e p op f zero lat g).Wf :=
  State.wf_regOp h ..

theorem State.wf_branchOp {s : State} (h : s.m.wf) (e : Nat) (p : Pfx) (op : Nat) (f : FmtB) : (s.branchOp e p op f).Wf :=
  State.wf_scalar h e p op _ _ (fun _ ht => State.wf_jump ht ..)

theorem State.wf_jumpReg {s : State} (h : s.m.wf) (e : Nat) (p : Pfx) (op : Nat) (f : FmtG) (link : Bool) :
    (s.jumpReg e p op f link).Wf :=
  State.wf_scalar h e p op _ _ (fun _ ht => State.wf_jump ht ..)

theorem State.wf_loadI {s : State} (h : s.m.wf) (e : Nat) (p : Pfx) (op : Nat) (f : FmtI) (n : Nat) (sext : Bool) (file : Nat) :
    (s.loadI e p op f n sext file).m.wf :=
  State.wf_scalar h e p op _ _ (fun _ ht => State.wf_loadOp ht ..)

theorem State.wf_loadX {s : State} (h : s.m.wf) (e : Nat) (p : Pfx) (op : Nat) (f : FmtX) (n : Nat) (sext : Bool) (file : Nat) :
    (s.loadX e p op f n sext file).m.wf :=
  State.wf_scalar h e p op _ _ (fun _ ht => State.wf_loadOp ht ..)

theorem State.wf_storeI {s : State} (h : s.m.wf) (e : Nat) (p : Pfx) (op : Nat) (f : FmtI) (n : Nat) (v : Arch → Nat) :
    (s.storeI e p op f n v).m.wf :=
  State.wf_scalar h e p op _ _ (fun _ ht => State.wf_store ht ..)

theorem State.wf_storeX {s : State} (h : s.m.wf) (e : Nat) (p : Pfx) (op : Nat) (f : FmtX) (n : Nat) (v : Arch → Nat) :
    (s.storeX e p op f n v).m.wf :=
  State.wf_scalar h e p op _ _ (fun _ ht => State.wf_store ht ..)

theorem State.wf_vIssue {s : State} (h : s.m.wf) (e : Nat) (p : Pfx) (opc : Nat) (f : FmtV) : (s.vIssue e p opc f).Wf := by
  refine State.wf_scalar h e p opc _ _ (fun t ht => Act.wf_ite trivial ?_)
  split <;> rename_i hv <;> have h1 := State.wf_of_mem ht (mem_fst hv (t.mem_vPush ..))
  · exact h1
  · exact State.wf_of_mem h1 (State.mem_vBegin ..)
  · exact State.wf_of_mem h1 ((State.mem_vRaise ..).trans (State.mem_retire ..))

theorem State.wf_receive {s : State} (h : s.m.wf) (p : Nat) (f : Flit) (crc : BitVec 32) (kinds : List Nat) :
    (s.receive p f crc kinds).Wf := by
  unfold State.receive
  refine Res.wf_ite h ?_
  split <;> rename_i hr <;> have h1 := State.wf_of_mem h (mem_fst hr (s.mem_rxLink ..))
  · exact h1
  · exact State.wf_of_mem h1 (State.mem_route ..)

/-- A packet taken from the receive queue keeps the form where what it does keeps it. -/
theorem State.wf_onPkt {s : State} (h : s.m.wf) (want : RxPkt → Bool) {act : State → RxPkt → State}
    (ha : ∀ (t : State) (x : RxPkt), (act t x).m.mem = t.m.mem) : (s.onPkt want act).Wf := by
  unfold State.onPkt
  split
  · exact h
  · exact State.wf_of_mem h (ha _ _)

theorem State.wf_heldInput {s : State} (h : s.m.wf) (i : Input) : (s.heldInput i).Wf :=
  Res.wf_ite (State.wf_of_mem h (congrArg Memory.mem (State.add64_m ..))) h

theorem State.wf_cond {s a b : State} (h : s.m.wf) {c : Prop} [Decidable c] (ha : a.m.mem = s.m.mem) (hb : b.m.mem = s.m.mem) :
    Res.Wf (if c then .next a else .next b) :=
  Res.wf_ite (a := .next a) (b := .next b) (State.wf_of_mem h ha) (State.wf_of_mem h hb)

/-- A command that is a gated write of a register. -/
theorem State.wf_gated {s : State} (h : s.m.wf) {c : Prop} [Decidable c] {m off : Nat} {v : BitVec 32} {act : State → State}
    (ha : ∀ t : State, (act t).m.mem = t.m.mem) :
    Res.Wf (if c then .next (s.gate m off v act) else .next (s.noAccess m off)) :=
  Res.wf_ite (a := .next (s.gate m off v act)) (b := .next (s.noAccess m off))
    (State.wf_gate h m off v (fun _ ht => State.wf_of_mem ht (ha _))) (State.wf_of_mem h (State.mem_noAccess ..))

section
variable {s : State} (h : s.m.wf)
include h

/-! #### Engines -/

theorem wf_execTend (e : Nat) (p : Pfx) : Res.Wf (execTend e p s) := by
  refine State.wf_scalar h e p _ _ _ (fun t ht => Act.wf_ite trivial ?_)
  split
  · exact State.wf_of_mem ht (State.mem_retireTend ..)
  · exact ht

theorem wf_execRfe (e : Nat) (p : Pfx) : Res.Wf (execRfe e p s) := by
  refine State.wf_scalar h e p _ _ _ (fun t ht => Act.wf_ite (State.wf_of_mem ht (State.mem_thirdFault ..)) ?_)
  dsimp only
  split <;> rename_i hr <;> have h1 := State.wf_of_mem ht (mem_fst hr (t.mem_readFrame ..))
  · exact h1
  · exact Act.wf_ite (State.wf_of_mem h1 ((State.mem_clearPlace_eq ..).trans (State.mem_chargeCyc ..))) h1
  · refine State.wf_of_mem h1 ((State.mem_returnFrom ..).trans ?_)
    exact State.mem_ite (congrArg Memory.mem (State.updEng_m ..)) rfl

theorem wf_execRfx (e : Nat) (p : Pfx) : Res.Wf (execRfx e p s) := by
  refine State.wf_scalar h e p _ _ _ (fun t ht => Act.wf_ite ht (Act.wf_ite (State.wf_of_mem ht (State.mem_thirdFault ..)) ?_))
  split <;> rename_i hr <;> have h1 := State.wf_of_mem ht (mem_fst hr (t.mem_readLoc ..))
  · exact h1
  · refine State.wf_of_mem h1 ((State.mem_returnFrom ..).trans ((State.mem_dropGot ..).trans ?_))
    exact State.mem_ite (congrArg Memory.mem (State.updEng_m ..)) rfl
  · exact State.wf_of_mem h1 ((State.mem_thirdFault ..).trans (State.mem_dropGot ..))

theorem wf_execTsync (e : Nat) (p : Pfx) : Res.Wf (execTsync e p s) := by
  refine State.wf_scalar h e p _ _ _ (fun t ht => ?_)
  split
  · exact Act.wf_ite ht trivial
  · exact Act.wf_ite (State.wf_of_mem ht (congrArg Memory.mem (State.updEng_m ..))) trivial

theorem wf_execTlbi (e : Nat) (p : Pfx) (f : FmtG) : Res.Wf (execTlbi e p f s) := by
  refine State.wf_scalar h e p _ _ _ (fun t ht => Act.wf_ite ht ?_)
  exact Act.wf_ite (State.wf_of_mem ht (congrArg Memory.mem (State.updEng_m ..))) (State.wf_of_mem ht (State.mem_sendCtl ..))

theorem wf_execEvsig (e : Nat) (p : Pfx) (f : FmtG) : Res.Wf (execEvsig e p f s) :=
  State.wf_scalar h e p _ _ _ (fun _ ht =>
    State.wf_ite (State.wf_of_mem ht (State.mem_evsigDom ..)) (State.wf_of_mem ht (State.mem_evsigLocal ..)))

theorem wf_execWaite (e : Nat) (p : Pfx) (f : FmtG) : Res.Wf (execWaite e p f s) := by
  refine State.wf_scalar h e p _ _ _ (fun t ht => Act.wf_ite ?_ (Act.wf_ite ht ?_))
  · exact State.wf_of_mem ht ((congrArg Memory.mem (State.updEng_m ..)).trans (State.mem_denied ..))
  · exact State.wf_of_mem ht (congrArg Memory.mem (State.updEng_m ..))

theorem wf_execMfs (e : Nat) (p : Pfx) (f : FmtI) : Res.Wf (execMfs e p f s) := by
  refine State.wf_scalar h e p _ _ _ (fun t ht => ?_)
  split
  · exact trivial
  · exact Act.wf_ite ht (Act.wf_ite trivial (State.wf_toArch ht ..))

theorem wf_execMts (e : Nat) (p : Pfx) (f : FmtI) : Res.Wf (execMts e p f s) := by
  refine State.wf_scalar h e p _ _ _ (fun t ht => ?_)
  split
  · exact trivial
  · exact Act.wf_ite ht (Act.wf_ite trivial (State.wf_of_mem ht (congrArg Memory.mem (State.updEng_m ..))))

theorem State.wf_badOpcode (e : Nat) : (s.badOpcode e).m.wf := by
  unfold State.badOpcode
  split
  · exact h
  · exact State.wf_ite h (State.wf_scalar h e _ _ _ _ (fun _ ht => ht))

theorem wf_execFetch (e : Nat) (btbUe : Bool) : Res.Wf (execFetch e btbUe s) := by
  unfold execFetch
  refine Res.wf_ite h (Res.wf_ite (State.wf_of_mem h (State.mem_goOnEntry ..)) ?_)
  extract_lets pass s1 s2
  have h1 : s1.m.wf := State.wf_of_mem h (State.mem_queueWord ..)
  have h2 : s2.m.wf := by
    change (match (s1.eng e).ahead with | some r => s1.fetchNext e btbUe r | none => s1).m.wf
    split
    · exact State.wf_of_mem h1 (State.mem_fetchNext ..)
    · exact h1
  exact Res.wf_ite h (Res.wf_ite (State.wf_badOpcode h2 e) h2)

theorem wf_execExceptionEntry (e vec detail : Nat) (faddr : W64) : Res.Wf (execExceptionEntry e vec detail faddr s) := by
  refine Res.wf_ite h (Res.wf_ite (State.wf_of_mem h (State.mem_goOnEntry ..)) (Res.wf_ite ?_ (Res.wf_ite ?_ (Res.wf_ite ?_ h))))
  · exact State.wf_ite (State.wf_of_mem h (State.mem_takeError ..)) h
  · exact State.wf_ite (State.wf_of_mem h (State.mem_takeInterrupt ..)) h
  · exact State.wf_of_mem h ((State.mem_except ..).trans (State.mem_dropAnnulled ..))

theorem wf_execInterrupt (e : Nat) : Res.Wf (execInterrupt e s) := by
  refine Res.wf_ite h ?_
  split
  · exact State.wf_of_mem h (State.mem_takeInterrupt ..)
  · exact h

theorem wf_execWalk (e : Nat) (va : W64) (kind : Walker) (tlbUe : Bool) : Res.Wf (execWalk e va kind tlbUe s) := by
  unfold execWalk
  extract_lets f s1
  have h1 : s1.m.wf := State.wf_ite (State.wf_of_mem h (State.mem_slotError ..)) h
  refine Res.wf_ite (State.wf_of_mem h1 (State.mem_withXlate _ _ _ _ _ (fun t => ?_))) h
  split
  · rfl
  · exact State.mem_walkAhead ..

theorem wf_execEngineHang (e : Nat) (stopped : Bool) : Res.Wf (execEngineHang e stopped s) := by
  unfold execEngineHang
  split
  · exact h
  · extract_lets x s1 hang _ s2
    have hh : ∀ (t : State) (b : Bool), t.m.wf → (hang t b).m.wf := fun _ _ ht =>
      State.wf_of_mem ht (congrArg Memory.mem (State.updEng_m ..))
    have h1 : s1.m.wf := State.wf_of_mem h (State.mem_fault ..)
    refine Res.wf_ite h (Res.wf_ite (hh _ _ (State.wf_saveOut (s := s2) h1 e)) (Res.wf_ite (hh _ _ h1) (Res.wf_ite ?_ ?_)))
    · exact State.wf_of_mem h1 (State.mem_sweepOwn _)
    · exact hh _ _ (State.wf_of_mem h1 ((State.mem_beginFence ..).trans (State.mem_returnBookings ..)))

/-- A group's end, whatever its last step answered. -/
theorem State.wf_endGroup (e tag : Nat) : (s.afterGroup e tag (s.doGroup e tag)).m.wf :=
  State.wf_of_mem h (State.mem_afterGroup s e tag (s.keeps_doGroup e tag))

theorem wf_execGroup (e tag : Nat) (chk : Check) : Res.Wf (execGroup e tag chk s) := by
  unfold execGroup
  refine Res.wf_ite h ?_
  split
  · exact h
  · refine Res.wf_ite h ?_
    split
    · exact h
    · rename_i s0 hs
      have h0 : s0.m.wf := State.wf_of_mem h (State.mem_startGroup hs)
      have hp := (s0.noteFull e tag).keeps_passSieves e tag
      rw [State.mem_noteFull] at hp
      refine Res.wf_ite h0 ?_
      split
      · rename_i s1 hg
        have h1 : s1.m.wf := State.wf_of_mem h0 (hp.go hg)
        split
        · exact h1
        · exact State.wf_of_mem h1 ((s1.keeps_doGroup e tag).stall ‹_›)
        all_goals
          split
          · exact State.wf_of_mem h1 (State.mem_engineParity ..)
          · split <;> rename_i hr <;> have h2 := State.wf_of_mem h1 (mem_fst hr (State.mem_residueOnce ..))
            · exact State.wf_endGroup h2 e tag
            · exact State.wf_of_mem h2 (State.mem_residueHard ..)
          · exact State.wf_of_mem h1 (State.mem_residueHard ..)
          · exact State.wf_endGroup h1 e tag
          · exact State.wf_endGroup h1 e tag
          · exact State.wf_endGroup h1 e tag
      · exact State.wf_of_mem h0 (State.mem_afterGroup s0 e tag hp)

theorem wf_execStreamRequest (e tag sreg : Nat) : Res.Wf (execStreamRequest e tag sreg s) := by
  unfold execStreamRequest
  split
  · exact h
  · rename_i s1 v hl
    have h1 : s1.m.wf := State.wf_of_mem h (State.mem_loadSide hl)
    refine Res.wf_ite h1 ?_
    split
    · exact h1
    · exact State.wf_of_mem h1 (State.mem_askUnit ..)

theorem wf_execBeat (e tag sreg : Nat) (upset : Upset) : Res.Wf (execBeat e tag sreg upset s) := by
  unfold execBeat
  split
  · exact h
  · rename_i s1 v hl
    have h1 : s1.m.wf := State.wf_of_mem h (State.mem_loadSide hl)
    extract_lets b
    split
    · have h2 : ∀ (c : Bool) (o : Nat), (if c then s1 else s1.findAt o upset).m.wf := fun c o =>
        State.wf_ite h1 (State.wf_of_mem h1 (State.mem_findAt ..))
      exact Res.wf_ite h1 (State.wf_of_mem (h2 _ _) ((State.mem_updV ..).trans (State.mem_beatWant ..)))
    · refine Res.wf_ite h1 ?_
      split <;> rename_i hb <;> have h2 := State.wf_of_mem h1 (mem_fst hb (s1.mem_beatOwn ..))
      · exact h2
      · dsimp only
        refine State.wf_of_mem h2 ?_
        rw [State.mem_updV, State.mem_beatWant, State.mem_findAt, State.mem_chargeBeat]

/-! #### The scheduler -/

theorem wf_execPreemptionSweep (e : Nat) (found : LedgerRead) : Res.Wf (execPreemptionSweep e found s) := by
  unfold execPreemptionSweep
  extract_lets s0
  have h0 : s0.m.wf := State.wf_of_mem h (by simp [s0])
  refine Res.wf_ite ?_ h
  split
  · exact State.wf_of_mem h0 (State.mem_takeNext ..)
  · refine Res.wf_ite h (Res.wf_ite ?_ ?_)
    · exact State.wf_of_mem h0 ((State.mem_resumeSame ..).trans (State.mem_closeEngine ..))
    · exact State.wf_of_mem (State.wf_saveOut h0 e) ((State.mem_takeNext ..).trans (State.mem_closeEngine ..))

/-- The restored placement of a saved Task, whatever its record area holds. -/
theorem State.wf_restored (src : Src) (ep dpa : Nat) (bs : List Byte) (e tti : Nat) (f : Engine → Engine) (g : Task → Task) :
    ((((s.putNow src ep dpa bs).updEng e f).updTask tti g).lapResume e).m.wf := by
  refine State.wf_of_mem (State.wf_putNow h src ep dpa bs) ?_
  rw [State.mem_lapResume, State.mem_updTask, State.updEng_m]

theorem wf_execPlacementRestore (e : Nat) : Res.Wf (execPlacementRestore e s) := by
  unfold execPlacementRestore
  split
  · exact h
  · refine Res.wf_ite (Res.wf_ite (State.wf_of_mem h (State.mem_updTask ..)) (Res.wf_ite h ?_)) h
    split
    rename_i s1 bs hr
    exact State.wf_restored (State.wf_of_mem h (mem_fst hr (State.mem_readSave ..))) ..

theorem wf_execEngineCycleCounterExhausted (e : Nat) : Res.Wf (execEngineCycleCounterExhausted e s) := by
  unfold execEngineCycleCounterExhausted
  split
  · exact h
  · rename_i p _
    have h1 : (s.setOvr p.tti 0).m.wf := State.wf_of_mem h (State.mem_setOvr ..)
    exact Res.wf_ite (Res.wf_ite (State.wf_stopUnder57 h1 e) h1) h

theorem wf_execOpenTask (e : Nat) : Res.Wf (execOpenTask e s) := by
  refine Res.wf_ite ?_ h
  split
  · exact State.wf_of_mem h ((State.mem_takePlacement ..).trans (State.mem_sweepTlb ..))
  · exact h

theorem wf_execSqFetch : Res.Wf (execSqFetch s) := by
  refine Res.wf_ite ?_ h
  split
  · exact h
  · exact h

theorem wf_execSubmit (r : Rec64) (ok : Bool) : Res.Wf (execSubmit r ok s) := by
  unfold execSubmit
  split
  · exact h
  · dsimp only
    refine Res.wf_ite (State.wf_of_mem h ?_) (Res.wf_ite (State.wf_of_mem h ?_) (State.wf_of_mem h ?_))
    · rw [State.setBit_m, State.setBit_m]
    · rw [State.mem_takeInput, State.add64_m]
    · rw [State.mem_present, State.setFld_m, State.add64_m]

theorem wf_execCostVectorRead (ue : Bool) : Res.Wf (execCostVectorRead ue s) := by
  unfold execCostVectorRead
  split
  · exact h
  · rename_i m rest hc
    extract_lets off n
    split
    · exact h
    · rename_i s1 hr
      extract_lets s2 _ s3
      have h1 : s1.m.wf := State.wf_of_mem h (by
        have := s.mem_chargeRow off n
        rwa [hr] at this)
      have h3 : s3.m.wf := State.wf_of_mem h1 (State.mem_countUnits ..)
      refine Res.wf_ite h (Res.wf_ite (State.wf_of_mem h3 ((State.mem_enterIntake ..).trans (State.mem_ueEvent ..))) ?_)
      split <;> rename_i hl <;> have h4 := State.wf_of_mem h3 (mem_fst hl (s3.mem_readLocal ..))
      · exact State.wf_of_mem h4 (State.mem_enterIntake ..)
      · exact State.wf_of_mem h4 (State.mem_enterIntake ..)

theorem wf_execDecision (found : LedgerRead) : Res.Wf (execDecision found s) := by
  unfold execDecision
  split
  · exact h
  · exact State.wf_cond h (by simp) rfl

theorem wf_execCancel : Res.Wf (execCancel s) := by
  unfold execCancel
  split
  · exact h
  · dsimp only
    refine Res.wf_ite (Res.wf_ite (State.wf_of_mem h (State.mem_noteDecision ..)) ?_) h
    split
    all_goals exact State.wf_of_mem h (by simp)

theorem wf_execNotice (q : Nat) : Res.Wf (execNotice q s) := by
  unfold execNotice
  split
  · exact h
  · exact State.wf_cond h (by rw [State.mem_sendMsix, State.setBit_m, State.mem_post]) rfl

end

section
variable {s : State} (h : s.m.wf)
include h

/-! #### Memory -/

theorem wf_execSubBankGrant (bank sub : Nat) (upset : Upset) : Res.Wf (execSubBankGrant bank sub upset s) := by
  unfold execSubBankGrant
  split
  · rename_i g s1 hg
    exact Res.wf_ite h (State.wf_performAnswer (State.wf_of_mem h (State.mem_bankWinner hg)) _ _)
  · exact State.wf_of_mem h (State.mem_noteFound ..)

theorem wf_execAtomic (bank : Nat) (upset : Upset) (adder : AdderCheck) : Res.Wf (execAtomic bank upset adder s) := by
  unfold execAtomic
  dsimp only
  split
  · exact h
  · split
    · rename_i hg
      exact State.wf_addAtomic (State.wf_of_mem h (State.mem_atomicGrants (List.mem_of_find?_eq_some hg))) _ _ _ _
    · exact h

theorem wf_execLineSlot (dev : Nat) (upset : Upset) (adder : AdderCheck) : Res.Wf (execLineSlot dev upset adder s) := by
  unfold execLineSlot
  split
  · exact State.wf_of_mem h (State.mem_noteFound ..)
  · rename_i r s1 hw
    have h1 : s1.m.wf := State.wf_of_mem h (State.mem_xbarWinner hw)
    exact Res.wf_ite (State.wf_addAtomic (State.wf_of_mem h1 (State.mem_bufferLine ..)) _ _ _ _)
      (State.wf_performAnswer (State.wf_of_mem h1 (State.mem_touchLine ..)) _ _)

theorem wf_execGranule (ch : Nat) (upset : Upset) (fails : Bool) : Res.Wf (execGranule ch upset fails s) := by
  unfold execGranule
  refine Res.wf_ite h ?_
  extract_lets s0
  have h0 : s0.m.wf := State.wf_ite (State.wf_of_mem h (State.mem_channelFails ..)) h
  split
  · rename_i r s1 hw
    exact State.wf_performAnswer (State.wf_of_mem h0 (State.mem_xbarWinner hw)) _ _
  · exact State.wf_of_mem h0 (State.mem_noteFound ..)

theorem wf_execExpanderResponse (port : Nat) (late poison : Bool) : Res.Wf (execExpanderResponse port late poison s) := by
  have hs : ∀ i : ExpItem, (s.expServed port i).m.wf := fun i => State.wf_of_mem h (State.mem_expServed ..)
  unfold execExpanderResponse
  split
  · exact h
  · rename_i q _
    extract_lets s1 s2
    have h2 : s2.m.wf := State.wf_ite (State.wf_of_mem (hs _) (State.mem_expLate ..)) (hs _)
    exact State.wf_ite (State.wf_of_mem h2 (State.mem_holdAnswer ..)) (State.wf_of_mem h2 (State.mem_expAnswer ..))
  · rename_i r _
    extract_lets s1 s2
    have h2 : s2.m.wf := State.wf_ite (State.wf_of_mem (hs _) (State.mem_expLate ..)) (hs _)
    refine State.wf_ite (State.wf_of_mem h2 ((State.mem_loseReq ..).trans ?_)) (State.wf_performReq h2 _ _)
    simp [State.dropReq]

theorem wf_execExpanderTimeout (port : Nat) : Res.Wf (execExpanderTimeout port s) := by
  have hp : (s.portFails port).m.wf := State.wf_of_mem h (State.mem_portFails ..)
  unfold execExpanderTimeout
  split
  · exact State.wf_of_mem hp (State.mem_expAnswer ..)
  · exact State.wf_performReq hp _ _
  · exact h

/-! #### The ring and the pair -/

theorem wf_execDetect (p : Nat) (locked inverted : BitVec 16) : Res.Wf (execDetect p locked inverted s) := by
  have h2 : (s.setLts p 2).m.wf := State.wf_of_mem h (State.mem_setLts ..)
  refine Res.wf_ite h (Res.wf_ite (State.wf_of_mem h (State.mem_setLts ..)) (State.wf_ite (State.wf_of_mem h2 ?_) h2))
  rw [State.setFld_m]

theorem wf_execCaps (p : Nat) (f : CapsFrame) (intime : Bool) : Res.Wf (execCaps p f intime s) := by
  have hs : ∀ (a : Nat) (b : Bool), (if p < 2 then (s.setFld (Reg.ringPortStat p) 24 20 a).setBit (Reg.ringPortStat p) 25 b
      else s).m.wf := fun a b => State.wf_ite (State.wf_of_mem h (by rw [State.setBit_m, State.setFld_m])) h
  unfold execCaps
  refine Res.wf_ite h (Res.wf_ite (State.wf_of_mem h (State.mem_setLts ..)) (Res.wf_ite ?_ ?_))
  · exact State.wf_of_mem (hs _ _) (State.mem_idFail ..)
  · exact State.wf_of_mem (hs _ _) (State.mem_beginEq ..)

theorem wf_execAlign (p : Nat) (ok : Bool) (delay : BitVec 16) : Res.Wf (execAlign p ok delay s) := by
  unfold execAlign
  refine Res.wf_ite h ?_
  extract_lets x _ s1 s2
  have h1 : s1.m.wf := State.wf_of_mem h ((State.mem_setGen ..).trans (State.mem_setLts ..))
  have h2 : s2.m.wf := by
    refine State.wf_ite (State.wf_of_mem h1 ?_) h1
    rw [State.setFld_m]
  exact Res.wf_ite (State.wf_of_mem h (State.mem_setLts ..)) (State.wf_ite (State.wf_of_mem h2 (State.mem_announce ..)) h2)

theorem wf_execBaton (p : Nat) (k : Marker) (crcOk : Bool) (rxd : Int) : Res.Wf (execBaton p k crcOk rxd s) := by
  refine Res.wf_ite h (Res.wf_ite (State.wf_ite (State.wf_of_mem h ?_) h) (State.wf_of_mem h (State.mem_marker ..)))
  rw [State.add64_m]

theorem wf_execHoldover : Res.Wf (execHoldover s) :=
  Res.wf_ite (State.wf_of_mem h (State.mem_fault ..)) h

theorem wf_execCell (p c : Nat) : Res.Wf (execCell p c s) := by
  refine Res.wf_ite h (State.wf_ite ?_ ?_)
  · exact State.wf_of_mem h ((State.mem_fillSlot ..).trans (State.mem_fillSlot ..))
  · exact State.wf_of_mem h (State.mem_fillSlot ..)

theorem wf_execDrainHoldEnd : Res.Wf (execDrainHoldEnd s) := by
  refine Res.wf_ite (State.wf_of_mem h ?_) h
  rw [mem_foldl, mem_foldl, State.setBit_m]
  · exact fun _ _ => State.mem_sendFlit ..
  · exact fun _ _ => mem_foldl _ _ (fun _ _ => State.mem_resendTriple ..) _

theorem wf_execFenceEnd (part epoch : Nat) : Res.Wf (execFenceEnd part epoch s) := by
  unfold execFenceEnd
  split
  · exact h
  · refine Res.wf_ite h (Res.wf_ite h (Res.wf_ite ?_ ?_))
    · exact State.wf_of_mem h ((State.mem_dropHung ..).trans (State.mem_sweepOwn _))
    · exact State.wf_of_mem h ((State.mem_dropHung ..).trans (State.mem_retireEpoch ..))

theorem wf_execReRun (tti : Nat) : Res.Wf (execReRun tti s) := by
  unfold execReRun
  split
  · exact h
  · exact Res.wf_ite h (State.wf_of_mem h (State.mem_reRun ..))

theorem wf_execPosted (tti sq cid : Nat) : Res.Wf (execPosted tti sq cid s) := by
  unfold execPosted
  refine Res.wf_ite h ?_
  split
  · exact h
  · split
    · exact h
    · exact State.wf_of_mem h ((State.mem_freePosted ..).trans ((State.mem_advanceTail ..).trans (State.mem_updCq ..)))

theorem wf_execHandoff : Res.Wf (execHandoff s) := by
  unfold execHandoff
  split
  · exact h
  · exact Res.wf_ite h (State.wf_ite (State.wf_of_mem h (State.mem_becomeFenced _)) (State.wf_of_mem h (State.mem_becomeSurvivor _)))

theorem wf_execRejoin (all : Bool) : Res.Wf (execRejoin all s) := by
  unfold execRejoin
  split
  · refine Res.wf_ite h (Res.wf_ite (State.wf_of_mem h ?_) (State.wf_of_mem h ?_))
    · rw [State.setBit_m, State.setBit_m, State.mem_flushAll]
    · rw [State.setBit_m]
  · refine Res.wf_ite (Res.wf_ite (State.wf_of_mem h ?_) (State.wf_of_mem h ?_)) h
    · rw [State.setBit_m, State.mem_flushAll]
    · rw [State.setBit_m]

theorem wf_execRd : Res.Wf (execRd s) := by
  refine State.wf_onPkt h _ (fun t x => ?_)
  rw [State.mem_doRd]

theorem wf_execWr : Res.Wf (execWr s) := by
  refine State.wf_onPkt h _ (fun t x => ?_)
  rw [State.mem_doWrite]

theorem wf_execWrl : Res.Wf (execWrl s) := by
  refine State.wf_onPkt h _ (fun t x => ?_)
  rw [State.mem_doWrite]

theorem wf_execAtPkt : Res.Wf (execAtPkt s) := by
  refine State.wf_onPkt h _ (fun t x => ?_)
  rw [State.mem_doAt]

theorem wf_execEvt : Res.Wf (execEvt s) := by
  refine State.wf_onPkt h _ (fun t x => ?_)
  rw [State.mem_domArrive]

theorem wf_execBreakMsg : Res.Wf (execBreakMsg s) := by
  refine State.wf_onPkt h _ (fun t x => ?_)
  rw [State.mem_noteSwitch]

theorem wf_execScale : Res.Wf (execScale s) := by
  refine State.wf_onPkt h _ (fun t x => ?_)
  rw [State.setFld_m]

theorem wf_execPred : Res.Wf (execPred s) := by
  refine State.wf_onPkt h _ (fun t x => ?_)
  rfl

theorem wf_execDoneMsg : Res.Wf (execDoneMsg s) := by
  refine State.wf_onPkt h _ (fun t x => ?_)
  rfl

theorem wf_execTlbiMsg : Res.Wf (execTlbiMsg s) :=
  State.wf_onPkt h _ (fun _ _ => State.mem_ite (State.mem_tlbiNow ..) rfl)

theorem wf_execJoin : Res.Wf (execJoin s) := by
  refine State.wf_onPkt h _ (fun t x => ?_)
  dsimp only
  split
  · rw [State.mem_noteSwitch]
  · rw [State.mem_noteSwitch]

end

section
variable {s : State} (h : s.m.wf)
include h

/-! #### The host, power and the modes -/

theorem wf_execStuck (n : Nat) : Res.Wf (execStuck n s) := by
  refine Res.wf_ite (State.wf_of_mem h ?_) h
  rw [State.mem_fireCode, State.setBit_m]

theorem wf_execHostwr (lap line : Nat) (isRead : Bool) (be : W64) (d : Rec64) : Res.Wf (execHostwr lap line isRead be d s) :=
  Res.wf_ite (State.wf_of_mem h (State.mem_badPacket ..)) (State.wf_heldInput h _)

theorem wf_execCommit (n base size skip : Nat) : Res.Wf (execCommit n base size skip s) := Res.wf_ite h h

theorem wf_execCxlMemRead (hpa n : Nat) : Res.Wf (execCxlMemRead hpa n s) := by
  refine Res.wf_ite h ?_
  split
  · exact h
  · exact State.wf_of_mem h (State.mem_hostMem ..)

theorem wf_execCxlMemWrite (hpa : Nat) (be : W64) (d : Rec64) : Res.Wf (execCxlMemWrite hpa be d s) := by
  refine Res.wf_ite h ?_
  split
  · exact h
  · exact State.wf_of_mem h (State.mem_hostMem ..)

theorem wf_execFunctionLevelReset : Res.Wf (execFunctionLevelReset s) := by
  refine Res.wf_ite h (State.wf_of_mem h ?_)
  rw [mem_foldl, State.wr_m, State.mem_clearQueues]
  exact fun _ _ => by rw [State.wr_m, State.wr_m]

theorem wf_execHostLinkUp (speed width cxl : Nat) : Res.Wf (execHostLinkUp speed width cxl s) := by
  refine Res.wf_ite h (State.wf_of_mem h ?_)
  rw [State.setFld_m, State.setFld_m, State.setFld_m, State.setBit_m]

theorem wf_execD0 : Res.Wf (execD0 s) := by
  refine Res.wf_ite (State.wf_of_mem h ?_) h
  rw [mem_foldl]
  exact fun _ _ => State.mem_sendPend ..

theorem wf_execEnterDusk : Res.Wf (execEnterDusk s) := by
  refine Res.wf_ite h (Res.wf_ite (State.wf_of_mem h (State.mem_mboxEnd ..)) (Res.wf_ite ?_ (Res.wf_ite ?_ ?_)))
  · exact State.wf_of_mem h ((State.mem_trigger ..).trans (State.mem_mboxWait _))
  · exact State.wf_of_mem h ((State.mem_mboxWait _).trans (State.mem_trigger ..))
  · exact State.wf_of_mem h (State.mem_mboxEnd ..)

theorem wf_execEnterService : Res.Wf (execEnterService s) := by
  refine Res.wf_ite h (Res.wf_ite (State.wf_of_mem h (State.mem_mboxEnd ..)) (Res.wf_ite ?_ (Res.wf_ite ?_ (Res.wf_ite ?_ ?_))))
  · exact State.wf_of_mem h ((State.mem_mboxEnd ..).trans (State.mem_enterService _))
  · exact State.wf_of_mem h ((State.mem_trigger ..).trans (State.mem_mboxWait _))
  · exact State.wf_of_mem h ((State.mem_mboxEnd ..).trans (State.mem_trigger ..))
  · exact State.wf_of_mem h (State.mem_mboxEnd ..)

theorem wf_execKeepRead : Res.Wf (execKeepRead s) := by
  refine Res.wf_ite h (Res.wf_ite (State.wf_of_mem h (State.mem_mboxEnd ..)) (State.wf_of_mem h ?_))
  rw [State.mem_mboxEnd, State.mem_mboxRsp]

theorem wf_execVddCoreRemoved (keepRail : Bool) : Res.Wf (execVddCoreRemoved keepRail s) := by
  refine State.wf_of_mem (State.wf_enterHold h) ((State.mem_drivePins _).trans (State.mem_ite rfl ?_))
  rw [State.setBit_m]

theorem wf_execPowerOn (ord14 : Bool) : Res.Wf (execPowerOn ord14 s) := by
  refine Res.wf_ite (State.wf_enterHold (State.wf_of_mem h ?_)) h
  rw [State.wr_m, State.wr_m]

theorem wf_execPgood (level : Bool) : Res.Wf (execPgood level s) := by
  refine Res.wf_ite h (Res.wf_ite (State.wf_tryLeave ?_) (State.wf_enterHold ?_))
  · exact h
  · exact h

theorem wf_execResetNAsserted : Res.Wf (execResetNAsserted s) := by
  refine Res.wf_ite h (State.wf_enterHold ?_)
  exact h

theorem wf_execResetNReleased : Res.Wf (execResetNReleased s) := by
  refine Res.wf_ite h (State.wf_tryLeave ?_)
  exact h

theorem wf_execToHold : Res.Wf (execToHold s) := by
  refine Res.wf_ite (State.wf_enterHold ?_) h
  exact h

theorem wf_execDawn (o : DawnOutcome) : Res.Wf (execDawn o s) := by
  have h1 : ((s.takeBadblock.setFld Reg.supClkStat 1 0 3).setBit Reg.dawnStat 8 (o.sfdpOk && o.octal)).m.wf :=
    State.wf_of_mem h (by rw [State.setBit_m, State.setFld_m, State.mem_takeBadblock])
  unfold execDawn
  refine Res.wf_ite h ?_
  dsimp only
  exact State.wf_tryCopies (State.wf_of_mem h1 ((State.mem_setReason ..).trans (State.mem_setReason ..))) o _

theorem wf_execPrepComplete (o : PrepOutcome) : Res.Wf (execPrepComplete o s) := by
  refine Res.wf_ite h (State.wf_of_mem h ?_)
  rw [State.mem_setTarget, State.mem_writeSeeds, State.mem_scaleCaps, State.mem_trainMemory, State.mem_takePartner]

theorem wf_execModeTransition : Res.Wf (execModeTransition s) := by
  unfold execModeTransition
  split
  · refine Res.wf_ite h (Res.wf_ite (Res.wf_ite (State.wf_of_mem h (State.mem_enterRunning ..)) h) (Res.wf_ite h ?_))
    exact Res.wf_ite (State.wf_of_mem h (State.mem_enterDusk _)) (Res.wf_ite (State.wf_of_mem h (State.mem_beginDrain _)) h)
  · exact Res.wf_ite (State.wf_of_mem h (State.mem_enterDegraded _)) h

theorem wf_execPost : Res.Wf (execPost s) := by
  refine Res.wf_ite h (Res.wf_ite (State.wf_of_mem h (State.mem_afterPost _)) (Res.wf_ite (State.wf_of_mem h ?_) h))
  rw [State.mem_afterPost, State.mem_discardHeld]

theorem wf_execTest (sigs : List (Nat × W64)) (banks : List Nat) : Res.Wf (execTest sigs banks s) := by
  refine Res.wf_ite (State.wf_of_mem h ?_) h
  rw [State.setFld_m, State.mem_selfTest]

theorem wf_execRecord : Res.Wf (execRecord s) := by
  unfold execRecord
  extract_lets s1 void s2 s3 s4
  have h1 : s1.m.wf := State.wf_clearEngines h
  have h2 : s2.m.wf := State.wf_ite (State.wf_of_mem h1 (State.mem_writeBadblock _)) h1
  have h3 : s3.m.wf := State.wf_of_mem h2 (State.mem_writeShutdown ..)
  have h4 : s4.m.wf := State.wf_ite (State.wf_of_mem h3 ((State.mem_mboxEnd ..).trans (State.mem_mboxRsp ..))) h3
  refine Res.wf_ite (State.wf_of_mem h4 ?_) h
  rw [State.setFld_m]

theorem wf_execFlashCommandEnd (ok : Bool) : Res.Wf (execFlashCommandEnd ok s) := by
  refine Res.wf_ite (State.wf_of_mem h ?_) h
  rw [State.setFld_m, State.setFld_m, State.setBit_m, State.mem_flashDone]

theorem wf_execStateChoice (c : Nat) : Res.Wf (execStateChoice c s) := by
  refine Res.wf_ite h ?_
  split
  · exact Res.wf_ite (State.wf_of_mem h (State.mem_sleep ..)) h
  · exact h

theorem wf_execEarlyWake (c : Nat) : Res.Wf (execEarlyWake c s) := by
  refine Res.wf_ite h (State.wf_of_mem h ?_)
  rw [State.satInc_m, mem_foldl]
  exact fun _ _ => State.mem_setRow ..

theorem wf_execWarning (rail : Nat) : Res.Wf (execWarning rail s) := by
  refine Res.wf_ite h (Res.wf_ite (State.wf_of_mem h ?_) (State.wf_of_mem h ?_))
  · rw [State.mem_drivePins, State.setBit_m, State.setBit_m]
  · rw [State.mem_drivePins, State.emit_m, State.mem_fault, State.setBit_m, State.setBit_m]

theorem wf_execWarningEnd (rail : Nat) : Res.Wf (execWarningEnd rail s) := by
  refine Res.wf_ite h (State.wf_of_mem h ?_)
  rw [State.mem_drivePins, State.setBit_m]

theorem wf_execSupplyReset (rails : BitVec 8) : Res.Wf (execSupplyReset rails s) := by
  refine Res.wf_ite h (State.wf_enterHold (State.wf_of_mem h ?_))
  rw [State.wr_m]

theorem wf_execSupplyRecovery : Res.Wf (execSupplyRecovery s) := by
  refine Res.wf_ite (State.wf_tryLeave (State.wf_of_mem h ?_)) h
  rw [State.mem_drivePins]

theorem wf_execClockLoss (ring : Bool) : Res.Wf (execClockLoss ring s) := by
  unfold execClockLoss
  refine Res.wf_ite h ?_
  extract_lets i s1 s2
  have h1 : s1.m.wf := State.wf_of_mem h (by
    change (State.setBit _ _ _ _).m.mem = _
    rw [State.setBit_m, State.setFld_m])
  have h2 : s2.m.wf := State.wf_ite (State.wf_of_mem h1 (State.mem_fault ..)) h1
  refine State.wf_enterHold ?_
  exact h2

theorem wf_execClockRecovery : Res.Wf (execClockRecovery s) := by
  refine Res.wf_ite (State.wf_tryLeave (State.wf_of_mem h ?_)) h
  rw [State.mem_drivePins, State.setFld_m]

theorem wf_execThermalWarning (sensor : Nat) (reading : BitVec 12) : Res.Wf (execThermalWarning sensor reading s) := by
  have h1 : (s.takeTemp sensor reading).m.wf := State.wf_of_mem h (State.mem_takeTemp ..)
  refine Res.wf_ite h (Res.wf_ite h1 (State.wf_of_mem h1 ?_))
  rw [State.mem_drivePins, State.mem_fault, State.setBit_m]

theorem wf_execThermalWarningEnd : Res.Wf (execThermalWarningEnd s) := by
  refine Res.wf_ite h (State.wf_of_mem h ?_)
  rw [State.mem_drivePins, State.setBit_m]

theorem wf_execTrip (sensor : Nat) (reading : BitVec 12) : Res.Wf (execTrip sensor reading s) := by
  refine Res.wf_ite h (State.wf_enterHold (State.wf_of_mem h ?_))
  rw [State.setBit_m]

theorem wf_execBlockWrite : Res.Wf (execBlockWrite s) := by
  unfold execBlockWrite
  extract_lets s1 s2
  have h1 : s1.m.wf := State.wf_ite (State.wf_of_mem h (State.mem_closeDigests _)) h
  have h2 : s2.m.wf := State.wf_ite (State.wf_of_mem h1 (State.mem_sealBlock _)) h1
  split
  · exact h
  · exact Res.wf_ite (State.wf_of_mem h2 (State.mem_writeBlock ..)) h

theorem wf_execLogEntry : Res.Wf (execLogEntry s) := by
  unfold execLogEntry
  split
  · split
    · exact Res.wf_ite (State.wf_nextEnt h) h
    · exact h
  · exact h

theorem wf_execSamplePreload (cells : List Bool) : Res.Wf (execSamplePreload cells s) := by
  refine Res.wf_ite h (State.wf_quietInstr ?_ _)
  exact h

theorem wf_execDbgAccess (x : DbgOp) : Res.Wf (execDbgAccess s x) := by
  have h1 := State.wf_quietInstr h 0x10
  refine Res.wf_ite h1 ?_
  cases x with
  | select => exact h1
  | read dpa n => exact State.wf_of_mem h1 (State.mem_dbgRead ..)
  | write dpa be d => exact State.wf_of_mem h1 (State.mem_dbgWrite ..)

end

theorem State.wf_when {s t : State} (h : s.m.wf) {c : Prop} [Decidable c] (e : t.m.mem = s.m.mem) :
    Res.Wf (if c then .next t else .next s) :=
  State.wf_cond h e rfl

theorem State.wf_unless {s t : State} (h : s.m.wf) {c : Prop} [Decidable c] (e : t.m.mem = s.m.mem) :
    Res.Wf (if c then .next s else .next t) :=
  State.wf_cond h rfl e

/-- A command that is a write on the management crossbar. -/
theorem State.wf_managed {s : State} (h : s.m.wf) {c : Prop} [Decidable c] {m off : Nat} {v : BitVec 32} :
    Res.Wf (if c then .next (s.mgmtWrite m off v) else .next (s.noAccess m off)) :=
  Res.wf_ite (a := .next (s.mgmtWrite m off v)) (b := .next (s.noAccess m off)) (State.wf_mgmtWrite h m off v)
    (State.wf_of_mem h (State.mem_noAccess ..))

/-- Every command keeps the canonical form: by the family that it belongs to, or by what its own operation leaves in memory. -/
theorem exec_wf {s : State} (h : s.m.wf) (i : Instr) : Res.Wf (exec i s) := by
  cases i with
  | preemptionSweep e found => exact wf_execPreemptionSweep h e found
  | placementRestore e => exact wf_execPlacementRestore h e
  | sqFetch => exact wf_execSqFetch h
  | submit r ok => exact wf_execSubmit h r ok
  | costVectorRead ue => exact wf_execCostVectorRead h ue
  | decision found => exact wf_execDecision h found
  | cancel => exact wf_execCancel h
  | engineCycleCounterExhausted e => exact wf_execEngineCycleCounterExhausted h e
  | openTask e => exact wf_execOpenTask h e
  | notice q => exact wf_execNotice h q
  | tend e p => exact wf_execTend h e p
  | rfe e p => exact wf_execRfe h e p
  | rfx e p => exact wf_execRfx h e p
  | tsync e p => exact wf_execTsync h e p
  | jr _ _ _ | jlr _ _ _ =>
    rw [exec]
    exact State.wf_jumpReg h ..
  | tlbi e p f => exact wf_execTlbi h e p f
  | evsig e p f => exact wf_execEvsig h e p f
  | waite e p f => exact wf_execWaite h e p f
  | add _ _ _ | sub _ _ _ | and _ _ _ | or _ _ _ | xor _ _ _ | andn _ _ _ | shl _ _ _ | shr _ _ _ | sar _ _ _ | rol _ _ _
  | mul _ _ _ | mulh _ _ _ | mulhu _ _ _ | div _ _ _ | divu _ _ _ | rem _ _ _ | remu _ _ _ | cmp _ _ _ | min _ _ _ | max _ _ _
  | minu _ _ _ | maxu _ _ _ | slt _ _ _ | sltu _ _ _ | mov _ _ _ | clz _ _ _ | ctz _ _ _ | popc _ _ _ | bswap _ _ _ | sext _ _ _
  | zext _ _ _ | addc _ _ _ =>
    rw [exec]
    exact State.wf_intR h ..
  | addi _ _ _ | andi _ _ _ | ori _ _ _ | xori _ _ _ | shli _ _ _ | shri _ _ _ | sari _ _ _ | roli _ _ _ | muli _ _ _ | cmpi _ _ _
  | slti _ _ _ | sltiu _ _ _ | movi _ _ _ | tsti _ _ _ =>
    rw [exec]
    exact State.wf_intI h ..
  | ld _ _ _ | lds _ _ _ | ldf _ _ _ | ldq _ _ _ =>
    rw [exec]
    exact State.wf_loadI h ..
  | st _ _ _ | stf _ _ _ | stq _ _ _ =>
    rw [exec]
    exact State.wf_storeI h ..
  | lea _ _ _ | leax _ _ _ =>
    rw [exec]
    exact State.wf_regOp h ..
  | ldx _ _ _ | ldsx _ _ _ | ldfx _ _ _ | ldqx _ _ _ =>
    rw [exec]
    exact State.wf_loadX h ..
  | stx _ _ _ | stfx _ _ _ | stqx _ _ _ =>
    rw [exec]
    exact State.wf_storeX h ..
  | beq _ _ _ | bne _ _ _ | blt _ _ _ | bge _ _ _ | ble _ _ _ | bgt _ _ _ | bltu _ _ _ | bgeu _ _ _ | bleu _ _ _ | bgtu _ _ _
  | bvs _ _ _ | bvc _ _ _ | bmi _ _ _ | bpl _ _ _ | bal _ _ _ | call _ _ _ =>
    rw [exec]
    exact State.wf_branchOp h ..
  | fadd _ _ _ | fsub _ _ _ | fmul _ _ _ | fdiv _ _ _ | fsqrt _ _ _ | fmin _ _ _ | fmax _ _ _ | fcmp _ _ _ | fcvtfi _ _ _
  | fcvtif _ _ _ | fneg _ _ _ | fabs _ _ _ | fmov _ _ _ | fmvfg _ _ _ | fmvgf _ _ _ | fma _ _ _ | qadd _ _ _ | qsub _ _ _
  | qmul _ _ _ | qand _ _ _ | qor _ _ _ | qxor _ _ _ | qmin _ _ _ | qmax _ _ _ | qminu _ _ _ | qmaxu _ _ _ | qceq _ _ _ | qcgt _ _ _
  | qcgtu _ _ _ | qshuf _ _ _ | qfadd _ _ _ | qfmul _ _ _ =>
    rw [exec]
    exact State.wf_fpOp h ..
  | mfs e p f => exact wf_execMfs h e p f
  | mts e p f => exact wf_execMts h e p f
  | vmov _ _ _ | valu _ _ _ | vmul _ _ _ | vdiv _ _ _ | vfp _ _ _ | vcmp _ _ _ | vcomp _ _ _ | vexp _ _ _ | vscan _ _ _
  | vsegr _ _ _ | vred _ _ _ | vhash _ _ _ | vprobe _ _ _ | vscadd _ _ _ | vscswp _ _ _ | vmerge _ _ _ | vsort _ _ _ | vkcmp _ _ _
  | vdadd _ _ _ | vdsub _ _ _ | vcvt _ _ _ =>
    rw [exec]
    exact State.wf_vIssue h ..
  | engineHang e stopped => exact wf_execEngineHang h e stopped
  | fetch e btbUe => exact wf_execFetch h e btbUe
  | exceptionEntry e vec detail faddr => exact wf_execExceptionEntry h e vec detail faddr
  | interrupt e => exact wf_execInterrupt h e
  | group e tag chk => exact wf_execGroup h e tag chk
  | streamRequest e tag sreg => exact wf_execStreamRequest h e tag sreg
  | beat e tag sreg upset => exact wf_execBeat h e tag sreg upset
  | subBankGrant bank sub upset => exact wf_execSubBankGrant h bank sub upset
  | atomic bank upset adder => exact wf_execAtomic h bank upset adder
  | lineSlot dev upset adder => exact wf_execLineSlot h dev upset adder
  | granule ch upset parityRetryFails => exact wf_execGranule h ch upset parityRetryFails
  | expanderResponse port late poison => exact wf_execExpanderResponse h port late poison
  | expanderTimeout port => exact wf_execExpanderTimeout h port
  | walk e va kind tlbUe => exact wf_execWalk h e va kind tlbUe
  | detect p locked inverted => exact wf_execDetect h p locked inverted
  | caps p f intime => exact wf_execCaps h p f intime
  | align p ok delay => exact wf_execAlign h p ok delay
  | baton p k crcOk rxd => exact wf_execBaton h p k crcOk rxd
  | holdover => exact wf_execHoldover h
  | cell p c => exact wf_execCell h p c
  | idle _ _ _ | pkt _ _ _ | data _ _ _ | ack _ _ _ =>
    rw [exec]
    exact State.wf_receive h ..
  | rd => exact wf_execRd h
  | wr => exact wf_execWr h
  | wrl => exact wf_execWrl h
  | atPkt => exact wf_execAtPkt h
  | pred => exact wf_execPred h
  | evt => exact wf_execEvt h
  | tlbiMsg => exact wf_execTlbiMsg h
  | breakMsg => exact wf_execBreakMsg h
  | join => exact wf_execJoin h
  | scale => exact wf_execScale h
  | doneMsg => exact wf_execDoneMsg h
  | drainHoldEnd => exact wf_execDrainHoldEnd h
  | hostcmd _ _ _ | regwr _ _ _ =>
    rw [exec]
    exact State.wf_heldInput h ..
  | hostwr lap line isRead be d => exact wf_execHostwr h lap line isRead be d
  | posted tti sq cid => exact wf_execPosted h tti sq cid
  | handoff => exact wf_execHandoff h
  | fenceEnd part epoch => exact wf_execFenceEnd h part epoch
  | reRun tti => exact wf_execReRun h tti
  | rejoin allSynced => exact wf_execRejoin h allSynced
  | stuck n => exact wf_execStuck h n
  | cxlMemRead hpa n => exact wf_execCxlMemRead h hpa n
  | cxlMemWrite hpa be d => exact wf_execCxlMemWrite h hpa be d
  | commit n base size skip => exact wf_execCommit h n base size skip
  | functionLevelReset => exact wf_execFunctionLevelReset h
  | enterDusk => exact wf_execEnterDusk h
  | enterService => exact wf_execEnterService h
  | keepRead => exact wf_execKeepRead h
  | powerOn ord14 => exact wf_execPowerOn h ord14
  | vddCoreRemoved keepRail => exact wf_execVddCoreRemoved h keepRail
  | resetNAsserted => exact wf_execResetNAsserted h
  | pgood level => exact wf_execPgood h level
  | resetNReleased => exact wf_execResetNReleased h
  | dawn o => exact wf_execDawn h o
  | prepComplete o => exact wf_execPrepComplete h o
  | modeTransition => exact wf_execModeTransition h
  | post => exact wf_execPost h
  | test signatures badBanks => exact wf_execTest h signatures badBanks
  | record => exact wf_execRecord h
  | toHold => exact wf_execToHold h
  | stateChoice c => exact wf_execStateChoice h c
  | earlyWake c => exact wf_execEarlyWake h c
  | warning rail => exact wf_execWarning h rail
  | warningEnd rail => exact wf_execWarningEnd h rail
  | supplyReset rails => exact wf_execSupplyReset h rails
  | supplyRecovery => exact wf_execSupplyRecovery h
  | clockLoss ring => exact wf_execClockLoss h ring
  | thermalWarning sensor reading => exact wf_execThermalWarning h sensor reading
  | trip sensor reading => exact wf_execTrip h sensor reading
  | blockWrite => exact wf_execBlockWrite h
  | logEntry => exact wf_execLogEntry h
  | samplePreload cells => exact wf_execSamplePreload h cells
  | dbgAccess x => exact wf_execDbgAccess h x
  | clockRecovery => exact wf_execClockRecovery h
  | thermalWarningEnd => exact wf_execThermalWarningEnd h
  | hostLinkUp speed width cxl => exact wf_execHostLinkUp h speed width cxl
  | d0 => exact wf_execD0 h
  | flashCommandEnd ok => exact wf_execFlashCommandEnd h ok
  | registerWrite _ _ _ _ | lowHalfWrite _ _ _ | highHalfWrite _ _ _ | redawn _ _ | replay _ _ | flashRead _ | flashProgram _
  | flashErase _ => exact State.wf_managed h
  | rcRead _ _ _ => exact State.wf_cond h (State.mem_mgmtRead ..) (State.mem_noRead ..)
  | lowHalfRead _ _ => exact Res.wf_ite (State.wf_of_mem h (State.mem_noRead ..)) (State.wf_when h (State.mem_mgmtRead ..))
  | kick _ _ => exact State.wf_gated h (fun _ => State.mem_kickWrite ..)
  | stewardWatchdog => exact State.wf_when h (State.mem_stewardExpire ..)
  | lapBoundary => exact State.wf_lapBoundary h
  | bookingMove e => exact State.wf_when h (s.mem_moveBookings e)
  | staTtIndex _ _ => exact State.wf_gated h (fun _ => State.mem_ttIndexWrite ..)
  | complete _ | accept _ => exact State.wf_of_mem h (State.mem_post ..)
  | nop e p | bpbar e p | bpallow e p | brk e p | rdpkr e p _ | wrpkr e p _ | time e p _ | lapn e p _ | enid e p _ | hold e p _
  | trap e p _ => exact State.wf_scalar h e p _ _ _ (fun _ ht => ht)
  | ifence e p =>
    exact State.wf_scalar h e p _ _ _ (fun _ ht => Act.wf_ite (State.wf_of_mem ht (congrArg Memory.mem (State.updEng_m ..))) trivial)
  | bpflush e p | lexit e p =>
    exact State.wf_scalar h e p _ _ _ (fun _ ht => State.wf_of_mem ht (congrArg Memory.mem (State.updEng_m ..)))
  | dsync e p | vwait e p => exact State.wf_scalar h e p _ _ _ (fun _ ht => Act.wf_ite ht trivial)
  | push e p _ => exact State.wf_scalar h e p _ _ _ (fun _ ht => State.wf_store ht ..)
  | pop e p _ => exact State.wf_scalar h e p _ _ _ (fun _ ht => State.wf_loadOp ht ..)
  | ldsd e p _ => exact State.wf_scalar h e p _ _ _ (fun _ ht => Act.wf_ite trivial (State.wf_loadOp ht ..))
  | stsd e p _ => exact State.wf_scalar h e p _ _ _ (fun _ ht => Act.wf_ite trivial (State.wf_store ht ..))
  | loop e p _ | loopi e p _ => exact State.wf_scalar h e p _ _ _ (fun _ ht => State.wf_openLoop ht ..)
  | error _ => exact State.wf_when h (State.mem_takeError ..)
  | holdcntZero _ => exact State.wf_when h (congrArg Memory.mem (State.updEng_m ..))
  | poisonWrite _ _ => exact State.wf_when h (State.mem_pushErr ..)
  | maintenanceWindow _ _ _ =>
    exact Res.wf_ite h (Res.wf_ite (State.wf_of_mem h (State.mem_channelFails ..)) (State.wf_of_mem h (State.mem_scrubGranule ..)))
  | writeBack _ | bypassClose | bypassOpen | events _ _ | lapend _ _ | ready _ _ | d3hot => exact State.wf_when h rfl
  | trainingAttempt p =>
    exact State.wf_when h (State.mem_ite ((congrArg Memory.mem (State.add64_m ..)).trans (s.mem_setLts p 1)) (s.mem_setLts p 1))
  | eq _ => exact State.wf_when h (State.mem_setLts ..)
  | check p _ => exact Res.wf_ite h (State.wf_cond h (s.mem_checkFails p) (s.mem_setLts p 5))
  | frame p => exact Res.wf_ite h (State.wf_cond h (s.mem_linkLost p) (congrArg Memory.mem (State.updPort_m ..)))
  | linkDown _ => exact State.wf_when h (State.mem_linkLost ..)
  | retrain _ => exact State.wf_when h (congrArg Memory.mem (State.updPort_m ..))
  | replayTimeout _ => exact State.wf_when h (State.mem_resendAll ..)
  | flt _ _ => exact State.wf_cond h ((State.mem_collect ..).trans (State.mem_recActs ..)) (State.mem_collect ..)
  | resend _ _ => exact State.wf_of_mem h (State.mem_resendTriple ..)
  | lossOfSignal _ => exact State.wf_of_mem h (State.mem_linkLost ..)
  | tendd _ _ _ _ => exact State.wf_when h (State.mem_meetTend ..)
  | lapdig _ _ _ => exact State.wf_when h s.mem_closeDigests
  | fence _ => exact State.wf_of_mem h (State.mem_collect ..)
  | release => exact State.wf_when h (State.mem_release ..)
  | fltPop _ _ => exact State.wf_gated h (fun _ => State.mem_fltPopWrite ..)
  | pairRejoin _ _ => exact State.wf_gated h (fun _ => State.mem_rejoinWrite ..)
  | pulse _ _ _ => exact State.wf_when h (State.mem_pulse ..)
  | evtFire _ _ _ | dom _ _ _ => exact State.wf_gated h (fun _ => State.mem_evtFireWrite ..)
  | evtFlag _ _ _ => exact State.wf_gated h (fun _ => State.mem_evtFlagWrite ..)
  | evtGroupEn _ _ _ _ => exact State.wf_gated h (fun _ => State.mem_groupEnWrite ..)
  | closed _ _ => exact State.wf_gated h (fun _ => State.mem_reopen ..)
  | compare _ => exact State.wf_of_mem h (State.mem_cmpFire ..)
  | cmpValue _ _ _ => exact State.wf_gated h (fun _ => State.mem_cmpValueWrite ..)
  | cmpCtl _ _ _ => exact State.wf_gated h (fun _ => State.mem_cmpCtlWrite ..)
  | zero _ => exact State.wf_of_mem h (State.mem_cdtZero ..)
  | matchEvt _ => exact State.wf_of_mem h (State.mem_cdtMatchFire ..)
  | start _ => exact State.wf_when h (State.mem_cdtStart ..)
  | stop _ => exact State.wf_when h (State.mem_cdtStop ..)
  | reset _ => exact State.wf_when h (State.mem_cdtReset ..)
  | loadnow _ => exact State.wf_when h (State.mem_cdtLoadNow ..)
  | cdtCount _ _ _ => exact State.wf_gated h (fun _ => State.mem_cdtCountWrite ..)
  | pin _ _ _ => exact State.wf_when h (State.mem_pinEdge ..)
  | hostSqTail _ _ _ => exact State.wf_gated h (fun _ => State.mem_sqTailWrite ..)
  | hostCqHead _ _ _ => exact State.wf_gated h (fun _ => State.mem_cqHeadWrite ..)
  | hostSqCfg _ _ _ => exact State.wf_gated h (fun _ => State.mem_sqCfgWrite ..)
  | hostCqCfg _ _ _ => exact State.wf_gated h (fun _ => State.mem_cqCfgWrite ..)
  | purge _ _ => exact State.wf_gated h (fun _ => State.mem_purgeCq ..)
  | hostLinkDown | hotReset | perstN => exact State.wf_when h (State.mem_hostReset ..)
  | faultRead => exact State.wf_unless h ((State.mem_mboxEnd ..).trans (State.mem_mboxRsp ..))
  | unsupported => exact State.wf_when h (State.mem_mboxEnd ..)
  | keepReg _ _ _ _ => exact State.wf_gated h (fun _ => State.mem_keepWrite ..)
  | wake c => exact State.wf_unless h (s.mem_toNoon c)
  | freeze _ _ => exact State.wf_gated h (fun _ => State.mem_writeWord ..)
  | extest | clamp | highz | extestPulse | extestTrain => exact State.wf_of_mem h (State.mem_pinInstr ..)
  | idcode | bypass | trstN => exact State.wf_quietInstr h _
  | msiXUnmask _ => exact State.wf_when h (State.mem_sendPend ..)
  | eqTimeout _ => exact State.wf_when h (State.mem_checkFails ..)

theorem step_wf {s : State} (h : s.m.wf) : Res.Wf (step s) := by
  unfold step
  split
  · exact State.wf_idleTick h
  · refine exec_wf ?_ _
    exact h

/-- Settles O60: a tick keeps the form, and so does each command. -/
theorem stepKeepsMemoryCanonical : Obligations.StepKeepsMemoryCanonical := by
  intro s s' h hs
  have hw := step_wf h
  rwa [hs] at hw

end Sys2Proof.Machine

/-!
PROOFS. The debug port: a read of a Home Bank that sleeps, in a part that is not the first of its Domain. Refutes O54.
-/

namespace Sys2Proof.Machine

/-! ### A sleeping Home Bank of a part that is not the first of its Domain -/

/-- Part 1 of a Domain of two, its cluster 0 in Night. -/
def sleeper : State :=
  { State.reset with
    mode := .ring
    regs := [((Reg.pwrClStat 0).off, 0x80000000), (Reg.ringCfg.off, 0x201)] }

/-- The part with DBG_ACCESS in its test port. -/
def sleeperDbg : State := { sleeper with scan := { sleeper.scan with ir := 0x10, pins := 0 } }

/-- A DPA of Home Bank 0 of part 1. -/
def sleeperDpa : BitVec 52 := 0x680000000040

/-- What the local memory answers for the bytes there. -/
def sleeperRead : State × RdStat × List Byte := sleeperDbg.readLocal (.master sleeperDbg.pos 41) (sleeperDpa.toNat % 2 ^ 46) 8

theorem sleeperRead_ok : sleeperRead.2.1 = .ok := by decide

/-- The bank sleeps, so the read waits in its queue (log 151). -/
theorem exec_dbgRead_sleeper : ∃ t, exec (.dbgAccess (.read sleeperDpa 8)) sleeper = .next t ∧ t.m.expq.length = 1 :=
  ⟨_, rfl, by decide⟩

theorem sleeperRead_expq : sleeperRead.1.m.expq.length = 0 := by decide

/-- Refutes O54: TestPortComplete asks `heldAt` of the DPA itself, where a read asks it of the offset inside the part. For part 1 of a
Domain the two differ: the cluster of a Home Bank sleeps, no bank stands at the DPA taken as an offset, and the read that the
statement says is answered now waits in its queue. -/
theorem not_powerAndTestPort : ¬ Obligations.PowerAndTestPort := by
  unfold Obligations.PowerAndTestPort
  rintro ⟨-, -, htest⟩
  obtain ⟨-, -, hread, -⟩ := htest
  obtain ⟨hnow, -⟩ := hread sleeper sleeperDpa 8 (by decide) (by decide) (by decide)
  have hr : sleeperDbg.readLocal (.master sleeper.pos 41) (sleeperDpa.toNat % 2 ^ 46) 8 = (sleeperRead.1, .ok, sleeperRead.2.2) :=
    Prod.ext rfl (Prod.ext sleeperRead_ok rfl)
  have he := hnow sleeperRead.2.2 sleeperRead.1 (by decide) (by decide) (by decide) hr
  obtain ⟨t, ht, hq⟩ := exec_dbgRead_sleeper
  obtain rfl := Host.Outcome.next.inj (ht.symm.trans he)
  exact absurd (hq.symm.trans sleeperRead_expq) (by decide)

end Sys2Proof.Machine

/-!
PROOFS. What a reset leaves, and HOLD. The rules about resets that O55 and O56 rest on.
-/

namespace Sys2Proof.Machine

/-! ### The flash buffer (R516) -/

/-- The words of the flash buffer. -/
def flashBufOffs : List Nat := (List.range 64).map (fun k => (Reg.dawnFlashBuf k).off)

theorem notMem_flashBufOffs {off : Nat} (h : off < 0x100100 ∨ 0x100200 ≤ off) : off ∉ flashBufOffs := by
  intro hm
  obtain ⟨k, hk, rfl⟩ := List.mem_map.1 hm
  have := List.mem_range.1 hk
  simp only [Reg.dawnFlashBuf] at h
  omega

/-- Nothing differs but the flash, its buffer and the count of free values. -/
def FlashOnly (s t : State) : Prop :=
  t = { s with regs := t.regs, flash := t.flash, freeCtr := t.freeCtr } ∧ OnlyRegs s t flashBufOffs

theorem FlashOnly.refl (s : State) : FlashOnly s s := ⟨rfl, OnlyRegs.refl s _⟩

theorem FlashOnly.trans {s t u : State} (h : FlashOnly s t) (k : FlashOnly t u) : FlashOnly s u := by
  obtain ⟨h1, h2⟩ := h
  obtain ⟨k1, k2⟩ := k
  exact ⟨by rw [k1, h1], h2.trans k2⟩

theorem FlashOnly.flashPut (s : State) (a : Nat) (bs : List Byte) : FlashOnly s (s.flashPut a bs) := ⟨rfl, fun _ _ => rfl⟩

/-- Words written to the buffer change the buffer alone. -/
theorem FlashOnly.fillBuffer (f : Nat → BitVec 32) (l : List Nat) (hl : ∀ k ∈ l, k < 64) (s : State) :
    FlashOnly s (l.foldl (fun s k => s.wr (Reg.dawnFlashBuf k) (f k)) s) := by
  induction l generalizing s with
  | nil => exact FlashOnly.refl s
  | cons k ks ih =>
    have hk : (Reg.dawnFlashBuf k).off ∈ flashBufOffs :=
      List.mem_map.2 ⟨k, List.mem_range.2 (hl k List.mem_cons_self), rfl⟩
    have hw : FlashOnly s (s.wr (Reg.dawnFlashBuf k) (f k)) := ⟨rfl, OnlyRegs.wr s hk _⟩
    exact hw.trans (ih (fun j hj => hl j (List.mem_cons_of_mem _ hj)) _)

theorem FlashOnly.flashDone (s : State) (ok : Bool) : FlashOnly s (s.flashDone ok) := by
  have h1 : FlashOnly s (if ok then s else s.bump) := by
    split
    · exact FlashOnly.refl s
    · exact ⟨rfl, fun _ _ => rfl⟩
  rw [State.flashDone]
  split
  · exact h1.trans (FlashOnly.fillBuffer _ _ (fun k hk => List.mem_range.1 hk) _)
  · exact h1.trans (FlashOnly.flashPut ..)
  · exact h1.trans (FlashOnly.flashPut ..)
  · exact h1

theorem FlashOnly.cutFlash (s : State) : FlashOnly s s.cutFlash := by
  unfold State.cutFlash
  split
  · exact FlashOnly.flashDone s false
  · exact FlashOnly.refl s

/-! ### What a reset leaves (R490, R509, R518, R546, R584) -/

/-- The registers that a reset does not keep lose their words. -/
theorem keptWord_of_not_outlives {off : Nat} (h : outlives off = false) (v : BitVec 32) : keptWord off v = 0 := by
  simp only [outlives, Bool.or_eq_false_iff, List.contains_eq_mem, List.mem_cons, List.not_mem_nil, or_false, not_or,
    decide_eq_false_iff_not, Bool.and_eq_false_iff] at h
  obtain ⟨⟨h1, h2, h3, h4, h5, h6, h7, h8⟩, h9⟩ := h
  have h10 : ¬(0x108000 ≤ off ∧ off < 0x10B000) ∧ off ≠ 0x10B000 := by omega
  simp [keptWord, h1, h2, h3, h4, h5, h6, h7, h8, h10]

theorem keptWord_zero (off : Nat) : keptWord off 0 = 0 := by
  unfold keptWord
  repeat' split
  all_goals simp

/-- A word that a reset keeps. -/
theorem keptRegs_get (m : SMap (BitVec 32)) (off : Nat) :
    SMap.get 0 (keptRegs m) off = keptWord off (SMap.get 0 m off) :=
  SMap.get_remap 0 0 keptWord m off (keptWord_zero off)

theorem SMap.get_remap_gone {α β : Type} [DecidableEq β] (d d' : β) (f : Nat → α → β) (m : SMap α) (k : Nat)
    (h : ∀ v, f k v = d) : SMap.get d' (SMap.remap d f m) k = d' := by
  induction m with
  | nil => rfl
  | cons p t ih =>
    obtain ⟨j, v⟩ := p
    rw [SMap.remap]
    by_cases hj : k = j
    · subst hj
      rw [h, SMap.set, if_pos rfl]
      exact SMap.get_filter_self d' _ k
    · rw [SMap.get_set_ne _ _ _ _ _ _ hj, ih]

/-- The state of a reset before the ordering code's reset value is applied reads its kept words. -/
theorem State.rd_afterReset {s : State} {md : Mode} {r : RegRef} (h : s.ord14 = true → r.off ≠ Reg.lapCfg.off) :
    (s.afterReset md).rd r = SMap.get r.rst (keptRegs s.cutFlash.regs) r.off := by
  have hc : s.cutFlash.ord14 = s.ord14 := by rw [(FlashOnly.cutFlash s).1]
  rw [State.afterReset, State.ordDefaults]
  split
  · rename_i ho
    exact State.rd_wr_ne _ _ _ _ (h (hc ▸ ho))
  · rfl

theorem State.rd_afterReset_lapCfg {s : State} {md : Mode} (h : s.ord14 = true) :
    (s.afterReset md).rd Reg.lapCfg = 0x36B0000A := by
  have hc : s.cutFlash.ord14 = s.ord14 := by rw [(FlashOnly.cutFlash s).1]
  rw [State.afterReset, State.ordDefaults, if_pos (hc.trans h)]
  exact State.rd_wr ..

theorem State.rd_afterReset_cleared {s : State} {md : Mode} {r : RegRef} (hr : outlives r.off = false)
    (h : s.ord14 = true → r.off ≠ Reg.lapCfg.off) : (s.afterReset md).rd r = r.rst := by
  rw [State.rd_afterReset h]
  exact SMap.get_remap_gone 0 r.rst keptWord _ _ (keptWord_of_not_outlives hr)

theorem outlives_apart {off : Nat} (h : outlives off = true) : off ≠ Reg.lapCfg.off ∧ off ∉ flashBufOffs := by
  have hoff : off < 0x100100 ∨ 0x108000 ≤ off ∧ off ≠ Reg.lapCfg.off := by
    simp only [outlives, Bool.or_eq_true, List.contains_eq_mem, List.mem_cons, List.not_mem_nil, or_false,
      decide_eq_true_eq, Bool.and_eq_true, Reg.lapCfg] at h ⊢
    omega
  refine ⟨?_, notMem_flashBufOffs (by omega)⟩
  simp only [Reg.lapCfg] at hoff ⊢
  omega

/-- A register that outlives a reset reads what a reset keeps of it. -/
theorem State.rd_afterReset_kept {s : State} {md : Mode} {r : RegRef} (hr : outlives r.off = true) (h0 : r.rst = 0) :
    (s.afterReset md).rd r = keptWord r.off (s.rd r) := by
  obtain ⟨hl, hf⟩ := outlives_apart hr
  rw [State.rd_afterReset (fun _ => hl), h0, keptRegs_get, ← (FlashOnly.cutFlash s).2 r hf, State.rd, h0]


/-- What a reset leaves besides the registers. -/
theorem State.afterReset_frame (s : State) (md : Mode) :
    s.afterReset md = { State.reset with
      pending := s.pending
      freeCtr := (s.afterReset md).freeCtr
      mode := md
      ord14 := s.ord14
      regs := (s.afterReset md).regs
      m := { State.reset.m with mem := (s.afterReset md).m.mem }
      host := { State.reset.host with out := s.host.out }
      ring := { State.reset.ring with bypass := s.ring.bypass }
      pwr := { s.pwr with plans := [], expPerstN := false }
      scan := s.scan
      flash := (s.afterReset md).flash } := by
  have hc := (FlashOnly.cutFlash s).1
  have hf : s.cutFlash.pending = s.pending ∧ s.cutFlash.ord14 = s.ord14 ∧ s.cutFlash.host = s.host ∧
      s.cutFlash.ring = s.ring ∧ s.cutFlash.pwr = s.pwr ∧ s.cutFlash.scan = s.scan :=
    ⟨by rw [hc], by rw [hc], by rw [hc], by rw [hc], by rw [hc], by rw [hc]⟩
  obtain ⟨h1, h2, h3, h4, h5, h6⟩ := hf
  rw [State.afterReset, State.ordDefaults]
  split <;> simp only [State.wr, h1, h2, h3, h4, h5, h6]

/-- A filter on keys keeps what is read at a key, or empties it. -/
theorem SMap.get_filter_key {α : Type} (d : α) (m : SMap α) (p : Nat → Bool) (k : Nat) :
    SMap.get d (m.filter (fun q => p q.1)) k = d ∨ SMap.get d (m.filter (fun q => p q.1)) k = SMap.get d m k := by
  cases hp : p k with
  | true => exact .inr (SMap.get_filter_ne d m _ k (fun _ => hp))
  | false =>
    refine .inl (SMap.get_of_not_key d fun hm => ?_)
    obtain ⟨q, hq, rfl⟩ := List.mem_map.1 hm
    exact Bool.false_ne_true (hp.symm.trans (List.mem_filter.1 hq).2)

theorem State.mem_afterReset (s : State) (md : Mode) (a : Nat) :
    SMap.get 0 (s.afterReset md).m.mem a = 0 ∨ SMap.get 0 (s.afterReset md).m.mem a = SMap.get 0 s.m.mem a := by
  have hm : (s.afterReset md).m.mem = s.cutFlash.m.mem.filter (fun q => match s.cutFlash.tier q.1 with
      | .exp _ _ => true
      | .ddr _ _ | .dir _ _ | .bank _ | .regs | .none => false) := by
    rw [State.afterReset, State.ordDefaults]
    split <;> rfl
  rw [hm, s.mem_cutFlash]
  exact SMap.get_filter_key 0 s.m.mem (fun a => match s.cutFlash.tier a with
    | .exp _ _ => true
    | .ddr _ _ | .dir _ _ | .bank _ | .regs | .none => false) a

theorem keepReg_range {i : Nat} (h : i < 1024) : 0x108000 ≤ (Reg.keepReg i).off ∧ (Reg.keepReg i).off + 4 < 0x10A000 := by
  simp only [Reg.keepReg]
  omega

theorem outlives_keep {off : Nat} (h : 0x108000 ≤ off ∧ off < 0x10B000) : outlives off = true := by
  rw [outlives, Bool.or_eq_true]
  exact .inr (by simp only [Bool.and_eq_true, decide_eq_true_eq]; omega)

theorem keptWord_keep {off : Nat} (h : 0x108000 ≤ off ∧ off < 0x10B000) (v : BitVec 32) : keptWord off v = v := by
  unfold keptWord
  split
  · rfl
  · rw [if_pos (by simpa using h)]

/-- The Keep registers outlive every reset. -/
theorem State.keepReg_afterReset (s : State) (md : Mode) {i : Nat} (h : i < 1024) :
    (s.afterReset md).rd64 (Reg.keepReg i) = s.rd64 (Reg.keepReg i) := by
  obtain ⟨hlo, hhi⟩ := keepReg_range h
  have hl : 0x108000 ≤ (Reg.keepReg i).off ∧ (Reg.keepReg i).off < 0x10B000 := by omega
  have hh : 0x108000 ≤ (Reg.keepReg i).off + 4 ∧ (Reg.keepReg i).off + 4 < 0x10B000 := by omega
  rw [State.rd64, State.rd64, State.rd_afterReset_kept (outlives_keep hl) rfl, keptWord_keep hl,
    State.rd_afterReset_kept (r := (Reg.keepReg i).high) (outlives_keep hh) rfl,
    keptWord_keep (off := (Reg.keepReg i).high.off) hh]

/-- A reset leaves what every reset leaves. -/
theorem State.afterAnyReset_afterReset (s : State) (md : Mode) : s.afterAnyReset (s.afterReset md) := by
  have hf := s.afterReset_frame md
  have ho : (s.afterReset md).ord14 = s.ord14 := by rw [hf]
  refine ⟨by rw [hf]; rfl, by rw [hf], by rw [hf]; rfl, by rw [hf], by rw [hf], by rw [hf], by rw [hf]; rfl, by rw [hf],
    fun r hr hl => State.rd_afterReset_cleared hr (ho ▸ hl), fun h => State.rd_afterReset_lapCfg (ho ▸ h),
    s.mem_afterReset md, fun i hi => s.keepReg_afterReset md hi⟩

/-- What a reset leaves is said of nothing but these parts of the state. -/
theorem State.afterAnyReset_congr {s s' t t' : State} (h : s.afterAnyReset t) (hp : s'.pending = s.pending)
    (hm : s'.m.mem = s.m.mem) (hk : ∀ i, i < 1024 → s'.rd64 (Reg.keepReg i) = s.rd64 (Reg.keepReg i))
    (ht : t' = { t with mode := t'.mode, flt := t'.flt, ring := t'.ring, pwr := t'.pwr, scan := t'.scan, stew := t'.stew,
                        replayFlag := t'.replayFlag }) :
    s'.afterAnyReset t' := by
  obtain ⟨h1, h2, h3, h4, h5, h6, h7, h8, h9, h10, h11, h12⟩ := h
  have hrd : ∀ r, t'.rd r = t.rd r := fun r => by rw [ht]; rfl
  have hrd64 : ∀ r, t'.rd64 r = t.rd64 r := fun r => by rw [State.rd64, State.rd64, hrd, hrd]
  have ho : t'.ord14 = t.ord14 := by rw [ht]
  refine ⟨by rw [ht]; exact h1, by rw [ht]; exact h2, by rw [ht]; exact h3, by rw [ht]; exact h4, by rw [ht]; exact h5,
    by rw [ht]; exact h6, by rw [ht]; exact h7, by rw [ht, hp]; exact h8, fun r hr hl => (hrd r).trans (h9 r hr (ho ▸ hl)),
    fun h => (hrd _).trans (h10 (ho ▸ h)), fun a => ?_, fun i hi => ((hrd64 _).trans (h12 i hi)).trans (hk i hi).symm⟩
  have hmem : t'.m = t.m := by rw [ht]
  rw [hmem, hm]
  exact h11 a

/-- Between `s` and `u` nothing that a reset keeps of memory, Keep registers and waiting commands has changed. -/
def ResetAlike (s u : State) : Prop :=
  u.pending = s.pending ∧ u.m.mem = s.m.mem ∧ ∀ i, i < 1024 → u.rd64 (Reg.keepReg i) = s.rd64 (Reg.keepReg i)

theorem ResetAlike.refl (s : State) : ResetAlike s s := ⟨rfl, rfl, fun _ _ => rfl⟩

theorem ResetAlike.trans {s t u : State} (h : ResetAlike s t) (k : ResetAlike t u) : ResetAlike s u := by
  obtain ⟨h1, h2, h3⟩ := h
  obtain ⟨k1, k2, k3⟩ := k
  exact ⟨k1.trans h1, k2.trans h2, fun i hi => (k3 i hi).trans (h3 i hi)⟩

theorem ResetAlike.pwr (s : State) (p : Power) : ResetAlike s { s with pwr := p } := ⟨rfl, rfl, fun _ _ => rfl⟩

theorem ResetAlike.of_onlyRegs {s t : State} {offs : List Nat} (hp : t.pending = s.pending) (hm : t.m.mem = s.m.mem)
    (h : OnlyRegs s t offs) (ho : ∀ i, i < 1024 → (Reg.keepReg i).off ∉ offs ∧ (Reg.keepReg i).off + 4 ∉ offs) : ResetAlike s t :=
  ⟨hp, hm, fun i hi => h.rd64 (ho i hi).1 (ho i hi).2⟩

theorem ResetAlike.wr (s : State) {r : RegRef} (h : r.off < 0x108000 ∨ 0x10A000 ≤ r.off) (v : BitVec 32) :
    ResetAlike s (s.wr r v) := by
  refine ResetAlike.of_onlyRegs rfl rfl (OnlyRegs.wr s (List.mem_singleton_self r.off) v) (fun i hi => ?_)
  simp only [Reg.keepReg, List.mem_singleton]
  omega

/-! ### HOLD and its end (R490, R491, R574 to R576) -/

theorem State.drivePins_frame (s : State) : s.drivePins = { s with pwr := s.drivePins.pwr } := rfl

/-- Entering HOLD: everything but the fault records, the bypass and the pins is as a reset leaves it. -/
theorem State.enterHold_frame (s : State) :
    s.enterHold = { s.afterReset .hold with
      flt := s.flt, ring := s.enterHold.ring, pwr := s.enterHold.pwr } := rfl

theorem State.mode_enterHold (s : State) : s.enterHold.mode = .hold := by rw [s.enterHold_frame, s.afterReset_frame]

theorem State.ord14_enterHold (s : State) : s.enterHold.ord14 = s.ord14 := by rw [s.enterHold_frame, s.afterReset_frame]

theorem State.rd_enterHold (s : State) (r : RegRef) : s.enterHold.rd r = (s.afterReset .hold).rd r := rfl

/-- The causes of HOLD stay as they are; ALERT_N and THERMTRIP_N follow theirs. -/
theorem State.pwr_enterHold (s : State) :
    s.enterHold.pwr = { s.pwr with
      plans := [], expPerstN := false, alertN := s.enterHold.pwr.alertN, thermtripN := !s.pwr.tripHold } := by
  have hp : (s.afterReset .hold).pwr = { s.pwr with plans := [], expPerstN := false } := by rw [s.afterReset_frame]
  have hd : s.enterHold.pwr = { (s.afterReset .hold).pwr with
      alertN := s.enterHold.pwr.alertN, thermtripN := !(s.afterReset .hold).pwr.tripHold } := rfl
  rw [hd, hp]

theorem State.afterAnyReset_enterHold {s u : State} (h : ResetAlike s u) : s.afterAnyReset u.enterHold := by
  obtain ⟨hp, hm, hk⟩ := h
  exact State.afterAnyReset_congr (u.afterAnyReset_afterReset .hold) hp.symm hm.symm (fun i hi => (hk i hi).symm)
    u.enterHold_frame

/-- HOLD for the supplies or a clock drives ALERT_N. -/
theorem State.alertN_enterHold {s : State} (h : (s.pwr.supplyHold || s.pwr.clockHold) = true) :
    s.enterHold.pwr.alertN = false := by
  have hp : (s.afterReset .hold).pwr = { s.pwr with plans := [], expPerstN := false } := by rw [s.afterReset_frame]
  have hm : (s.afterReset .hold).mode = .hold := by rw [s.afterReset_frame]
  have ha : s.enterHold.pwr.alertN = !((s.afterReset .hold).bit Reg.supThermStat 30 ||
      (s.afterReset .hold).fld Reg.supStat 7 0 ≠ 0 || ((s.afterReset .hold).mode = .hold &&
        ((s.afterReset .hold).pwr.supplyHold || (s.afterReset .hold).pwr.clockHold))) := rfl
  rw [ha, hp, hm]
  simp only [h, decide_true, Bool.and_self, Bool.or_true, Bool.not_true]

/-- Where something holds the part, it stays in HOLD. -/
theorem State.tryLeave_held {s : State} (h : s.held = true) : s.tryLeave = s := by
  rw [State.tryLeave, h, Bool.not_true, Bool.and_false]
  rfl

theorem State.tryLeave_free {s : State} (hm : s.mode = .hold) (h : s.held = false) :
    s.tryLeave = (s.afterReset .dawn).drivePins := by
  rw [State.tryLeave, decide_eq_true hm, h]
  rfl

/-- The last cause of HOLD to go lets DAWN begin. -/
theorem State.mode_tryLeave {s : State} (hm : s.mode = .hold) : s.tryLeave.mode = if s.held then .hold else .dawn := by
  split
  · rename_i h
    rw [State.tryLeave_held h, hm]
  · rename_i h
    rw [State.tryLeave_free hm (Bool.not_eq_true _ ▸ h), State.drivePins_frame, State.afterReset_frame]

/-- A register that a reset keeps whole, of the supply and clock monitors. -/
theorem State.rd_enterHold_kept (s : State) {r : RegRef} (hr : r ∈ [Reg.supLast, Reg.supClkStat]) : s.enterHold.rd r = s.rd r := by
  rw [s.rd_enterHold]
  rcases List.mem_pair.1 hr with rfl | rfl
  · rw [State.rd_afterReset_kept rfl rfl]
    rfl
  · rw [State.rd_afterReset_kept rfl rfl]
    rfl

theorem State.rd_drivePins (s : State) (r : RegRef) : s.drivePins.rd r = s.rd r := rfl

theorem State.fld_drivePins (s : State) (r : RegRef) (hi lo : Nat) : s.drivePins.fld r hi lo = s.fld r hi lo := rfl

theorem State.bit_drivePins (s : State) (r : RegRef) (b : Nat) : s.drivePins.bit r b = s.bit r b := rfl

theorem State.alerts_drivePins (s : State) : s.drivePins.alerts = s.alerts := rfl

/-- ALERT_N follows its causes once the pins are driven. -/
theorem State.alertN_follows (s : State) : s.drivePins.pwr.alertN = !s.drivePins.alerts := rfl

theorem State.held_drivePins (s : State) : s.drivePins.held = s.held := rfl

/-- The causes of HOLD and the monitors' registers that a reset keeps are as before when DAWN begins. -/
theorem State.tryLeave_keeps (s : State) : s.tryLeave.pwr.supplyHold = s.pwr.supplyHold ∧
    s.tryLeave.pwr.clockHold = s.pwr.clockHold ∧ s.tryLeave.rd Reg.supClkStat = s.rd Reg.supClkStat := by
  unfold State.tryLeave
  split
  · have hp : (s.afterReset .dawn).pwr = { s.pwr with plans := [], expPerstN := false } := by rw [s.afterReset_frame]
    have hd : (s.afterReset .dawn).drivePins.pwr.supplyHold = (s.afterReset .dawn).pwr.supplyHold ∧
        (s.afterReset .dawn).drivePins.pwr.clockHold = (s.afterReset .dawn).pwr.clockHold := ⟨rfl, rfl⟩
    refine ⟨hd.1.trans (by rw [hp]), hd.2.trans (by rw [hp]), ?_⟩
    rw [State.rd_drivePins, State.rd_afterReset_kept rfl rfl]
    rfl
  · exact ⟨rfl, rfl, rfl⟩

/-! ### Bits and fields of a register -/

theorem State.bit_eq_testBit (s : State) (r : RegRef) (b : Nat) : s.bit r b = (s.rd r).toNat.testBit b := by
  rw [State.bit, State.fld, bitsOf, Nat.add_sub_cancel_left, Nat.testBit_eq_decide_div_mod_eq, Nat.pow_one]

theorem State.testBit_fld (s : State) (r : RegRef) (hi lo i : Nat) :
    (s.fld r hi lo).testBit i = (decide (i < hi + 1 - lo) && s.bit r (lo + i)) := by
  rw [State.fld, testBit_bitsOf, s.bit_eq_testBit]

/-- A field with a bit set is not 0. -/
theorem State.fld_ne_zero {s : State} {r : RegRef} {hi lo b : Nat} (hl : lo ≤ b) (hh : b ≤ hi) (h : s.bit r b = true) :
    s.fld r hi lo ≠ 0 := by
  intro h0
  have ht := s.testBit_fld r hi lo (b - lo)
  rw [h0, Nat.zero_testBit, decide_eq_true (by omega), Bool.true_and, Nat.add_sub_cancel' hl, h] at ht
  cases ht

theorem State.setFld_frame (s : State) (r : RegRef) (hi lo v : Nat) :
    s.setFld r hi lo v = { s with regs := (s.setFld r hi lo v).regs } := rfl

theorem State.setBit_frame (s : State) (r : RegRef) (b : Nat) (v : Bool) :
    s.setBit r b v = { s with regs := (s.setBit r b v).regs } := rfl

theorem State.drivePins_setBit (s : State) (r : RegRef) (b : Nat) (v : Bool) :
    (s.setBit r b v).drivePins = { s with regs := (s.setBit r b v).drivePins.regs, pwr := (s.setBit r b v).drivePins.pwr } := rfl

theorem OnlyRegs.drivePins {s t : State} {offs : List Nat} (h : OnlyRegs s t offs) : OnlyRegs s t.drivePins offs := h

theorem OnlyRegs.setFld (s : State) {r : RegRef} {offs : List Nat} (hr : r.off ∈ offs) (hi lo v : Nat) :
    OnlyRegs s (s.setFld r hi lo v) offs :=
  OnlyRegs.wr s hr _

theorem OnlyRegs.setBit (s : State) {r : RegRef} {offs : List Nat} (hr : r.off ∈ offs) (b : Nat) (v : Bool) :
    OnlyRegs s (s.setBit r b v) offs :=
  OnlyRegs.wr s hr _

/-- A bit of a register after a field of it has been put. -/
theorem State.bit_setFld (s : State) (r : RegRef) {hi lo b : Nat} (h : lo ≤ hi) (hb : b < 32) (v : Nat) :
    (s.setFld r hi lo v).bit r b = if lo ≤ b ∧ b ≤ hi then v.testBit (b - lo) else s.bit r b := by
  rw [State.bit_eq_testBit, State.setFld, State.rd_wr, BitVec.toNat_ofNat, Nat.testBit_mod_two_pow, decide_eq_true hb,
    Bool.true_and, testBit_putBits h, s.bit_eq_testBit]

end Sys2Proof.Machine

/-!
PROOFS. Cluster states and the monitors of supplies, clocks and temperatures. Settles O56.
-/

namespace Sys2Proof.Machine

/-! ### Cluster states (R535 to R539) -/

theorem Row.ctr_setCtr_self (r : Row) (e v : Nat) : (r.setCtr e v).ctr e = v := SMap.get_set_self _ _ _ _

theorem Row.ctr_setCtr_ne (r : Row) {e d : Nat} (v : Nat) (h : d ≠ e) : (r.setCtr e v).ctr d = r.ctr d :=
  SMap.get_set_ne _ _ _ _ _ _ h

/-- Emptied counters of a row stay empty, and those of the engines listed are empty. -/
theorem Row.ctr_emptied (c : Nat) (l : List Nat) (r : Row) {e : Nat} (h : r.ctr e = 0 ∨ ∃ i ∈ l, e = c * 16 + i) :
    (l.foldl (fun (r : Row) i => r.setCtr (c * 16 + i) 0) r).ctr e = 0 := by
  induction l generalizing r with
  | nil => exact h.resolve_right (fun ⟨_, hi, _⟩ => absurd hi List.not_mem_nil)
  | cons i is ih =>
    refine ih _ ?_
    by_cases he : e = c * 16 + i
    · exact .inl (he ▸ r.ctr_setCtr_self (c * 16 + i) 0)
    · refine h.imp (fun h0 => (r.ctr_setCtr_ne 0 he).trans h0) (fun ⟨j, hj, hej⟩ => ⟨j, ?_, hej⟩)
      exact (List.mem_cons.1 hj).resolve_left (fun hji => he (hji ▸ hej))

/-- The row with no cycle for a cluster's engines. -/
def Row.withheld (c : Nat) (r : Row) : Row := (List.range 16).foldl (fun (r : Row) i => r.setCtr (c * 16 + i) 0) r

theorem Row.ctr_withheld (c : Nat) (r : Row) {e : Nat} (h : e / 16 = c) : (r.withheld c).ctr e = 0 :=
  r.ctr_emptied c (List.range 16) (.inr ⟨e % 16, List.mem_range.2 (Nat.mod_lt _ (by decide)), by omega⟩)

/-- Nothing differs but rows of the Ledger. -/
def RowsOnly (s t : State) : Prop := t = { s with sta := { s.sta with rows := t.sta.rows } }

theorem RowsOnly.foldl (g : State → Nat → Row) (l : List Nat) (s : State) :
    RowsOnly s (l.foldl (fun s l => s.setRow l (g s l)) s) := by
  induction l generalizing s with
  | nil => rfl
  | cons k ks ih =>
    have hk : RowsOnly s (s.setRow k (g s k)) := rfl
    have ht := ih (s.setRow k (g s k))
    rw [RowsOnly] at ht hk ⊢
    rw [List.foldl_cons, ht, hk]

/-- Rows withheld one after the other: each Lap listed has no cycle left for the cluster. -/
theorem State.row_withheld (c : Nat) (ls : List Nat) (s : State) {l e : Nat} (he : e / 16 = c)
    (h : (s.row l).ctr e = 0 ∨ l ∈ ls) :
    ((ls.foldl (fun s l => s.setRow l ((s.row l).withheld c)) s).row l).ctr e = 0 := by
  induction ls generalizing s with
  | nil => exact h.resolve_right List.not_mem_nil
  | cons k ks ih =>
    refine ih _ ?_
    by_cases hk : l = k
    · subst hk
      left
      rw [s.row_setRow]
      exact Row.ctr_withheld c _ he
    · refine h.imp (fun h0 => ?_) (fun hm => (List.mem_cons.1 hm).resolve_left hk)
      rw [s.row_setRow_ne _ hk]
      exact h0

/-- The Laps whose rows a sleep until `tend` withholds. -/
def State.withheldLaps (s : State) (st tend : Nat) : List Nat :=
  if st < 2 then [] else ((List.range 256).map (fun i => s.lap + 1 + i)).filter (fun l => l * s.lapTicks < tend)

theorem State.mem_withheldLaps {s : State} {st tend l : Nat} (h2 : 2 ≤ st) (hl : s.lap < l) (hu : l ≤ s.lap + 256)
    (ht : l * s.lapTicks < tend) : l ∈ s.withheldLaps st tend := by
  rw [State.withheldLaps, if_neg (by omega)]
  exact List.mem_filter.2 ⟨List.mem_map.2 ⟨l - (s.lap + 1), List.mem_range.2 (by omega), by omega⟩, decide_eq_true ht⟩

/-- The state with a plan for a cluster. -/
def State.planned (s : State) (c : Nat) (p : Nat × Nat × List Nat) : State :=
  { s with pwr := { s.pwr with plans := SMap.set (0, 0, []) s.pwr.plans c p } }

theorem State.plan_planned (s : State) (c : Nat) (p : Nat × Nat × List Nat) : (s.planned c p).plan c = p := SMap.get_set_self _ _ _ _

theorem State.sleep_eq (s : State) (c st tend : Nat) : ∃ u p,
    u = (s.withheldLaps st tend).foldl (fun s l => s.setRow l ((s.row l).withheld c)) s ∧
    s.sleep c st tend = (u.planned c (tend - wakeNs st - s.guardNs, tend, s.withheldLaps st tend ++ p)).setFld
      (Reg.pwrClStat c) 31 30 st :=
  ⟨_, _, rfl, rfl⟩

/-- What a sleep leaves: the state, its plan, and the rows withheld. -/
theorem State.sleep_completes (s : State) (c : Nat) {st : Nat} (h4 : st < 4) (tend : Nat) :
    (s.sleep c st tend).clState c = st ∧ ((s.sleep c st tend).plan c).1 = tend - wakeNs st - s.guardNs ∧
      ((s.sleep c st tend).plan c).2.1 = tend ∧ (s.sleep c st tend).m = s.m ∧ (s.sleep c st tend).engines = s.engines ∧
      (s.sleep c st tend).sta.tasks = s.sta.tasks ∧
      ∀ l e, 2 ≤ st → s.lap < l → l ≤ s.lap + 256 → l * s.lapTicks < tend → e / 16 = c →
        l ∈ ((s.sleep c st tend).plan c).2.2 ∧ ((s.sleep c st tend).row l).ctr e = 0 := by
  obtain ⟨u, p, hu, hs⟩ := s.sleep_eq c st tend
  have hr : RowsOnly s u := hu ▸ RowsOnly.foldl _ _ s
  obtain ⟨w, hw⟩ : ∃ w, w = u.planned c (tend - wakeNs st - s.guardNs, tend, s.withheldLaps st tend ++ p) := ⟨_, rfl⟩
  rw [← hw] at hs
  obtain ⟨r, hf⟩ : ∃ r, s.sleep c st tend = { w with regs := r } := ⟨_, hs.trans (w.setFld_frame ..)⟩
  have hplan : (s.sleep c st tend).plan c = (tend - wakeNs st - s.guardNs, tend, s.withheldLaps st tend ++ p) := by
    have hpw : (s.sleep c st tend).plan c = w.plan c := by
      rw [hf]
      rfl
    rw [hpw, hw, u.plan_planned]
  refine ⟨?_, by rw [hplan], by rw [hplan], ?_, ?_, ?_, fun l e h2 hl hle ht he => ⟨?_, ?_⟩⟩
  · rw [hs, State.clState, State.fld_setFld _ _ (by decide) (by decide)]
    exact Nat.mod_eq_of_lt h4
  · rw [hf, hw, State.planned, hr]
  · rw [hf, hw, State.planned, hr]
  · rw [hf, hw, State.planned, hr]
  · rw [hplan]
    exact List.mem_append_left _ (State.mem_withheldLaps h2 hl hle ht)
  · have hrow : (s.sleep c st tend).row l = u.row l := by
      rw [hf, hw]
      rfl
    rw [hrow, hu]
    exact State.row_withheld c _ s he (.inr (State.mem_withheldLaps h2 hl hle ht))

theorem find_deepest {p : Nat → Bool} {st : Nat} (h : st ∈ [1, 2, 3]) (hp : p st = true)
    (hd : ∀ k, k ∈ [1, 2, 3] → st < k → p k = false) : [3, 2, 1].find? p = some st := by
  simp only [List.mem_cons, List.not_mem_nil, or_false] at h
  rcases h with rfl | rfl | rfl
  · simp [hp, hd 2, hd 3]
  · simp [hp, hd 3]
  · simp [hp]

/-- The deepest state that fits is the one that fits while no deeper one does. -/
theorem State.sleepChoice_deepest {s : State} {c tend st : Nat} (hst : st ∈ [1, 2, 3]) (hc : st ≤ s.fld (Reg.pwrClCfg c) 1 0)
    (hf : entryNs st + wakeNs st + s.guardNs ≤ tend - s.tb)
    (hd : ∀ k, k ∈ [1, 2, 3] → st < k → ¬(k ≤ s.fld (Reg.pwrClCfg c) 1 0 ∧ entryNs k + wakeNs k + s.guardNs ≤ tend - s.tb)) :
    s.sleepChoice c tend = some st := by
  refine find_deepest hst ?_ (fun k hk hlt => ?_)
  · rw [decide_eq_true hc, decide_eq_true hf]
    rfl
  · rw [← Bool.not_eq_true, Bool.and_eq_true, decide_eq_true_eq, decide_eq_true_eq]
    exact hd k hk hlt

/-- The part of EARLY_WAKE that moves the plan, given the state with its rows restored. -/
theorem execEarlyWake_due {s : State} {c : Nat} (hc : c < 32) (hst : s.clState c ≠ 0) (h : s.tb < (s.plan c).1) :
    ∃ u ls, RowsOnly s u ∧ exec (.earlyWake c) s = .next ((u.planned c (s.tb, (s.plan c).2.1, ls)).satInc (Reg.pwrClStat c) 15 0) := by
  refine ⟨_, _, RowsOnly.foldl (fun s l => (s.clEngines c).foldl (fun (r : Row) e => r.setCtr e r.u) (s.row l)) _ s, if_neg ?_⟩
  rintro (h1 | h1 | h1)
  · omega
  · exact hst h1
  · omega

theorem earlyWake_completes {s : State} {c : Nat} (hc : c < 32) (hst : s.clState c ≠ 0) (h : s.tb < (s.plan c).1) :
    ∃ t, exec (.earlyWake c) s = .next t ∧ t.clState c = s.clState c ∧ (t.plan c).1 = s.tb ∧
      t.fld (Reg.pwrClStat c) 15 0 = Nat.min 65535 (s.fld (Reg.pwrClStat c) 15 0 + 1) ∧ t.m = s.m ∧ t.engines = s.engines := by
  obtain ⟨u, ls, hu, he⟩ := execEarlyWake_due hc hst h
  obtain ⟨w, hw⟩ : ∃ w, w = u.planned c (s.tb, (s.plan c).2.1, ls) := ⟨_, rfl⟩
  rw [← hw] at he
  have hregs : ∀ hi lo, w.fld (Reg.pwrClStat c) hi lo = s.fld (Reg.pwrClStat c) hi lo := fun hi lo => by
    rw [hw, hu]
    rfl
  have hplan : w.plan c = (s.tb, (s.plan c).2.1, ls) := by
    rw [hw, u.plan_planned]
  obtain ⟨hf, -⟩ := w.satInc_frame (Reg.pwrClStat c) 15 0
  refine ⟨_, he, ?_, ?_, ?_, ?_, ?_⟩
  · rw [State.clState, w.fld_satInc_apart _ (by decide) (by decide) (by decide)]
    exact hregs 31 30
  · rw [hf]
    exact congrArg (fun p => p.1) hplan
  · rw [w.fld_satInc _ (by decide) (by decide), hregs]
    rfl
  · rw [hf, hw, State.planned, hu]
  · rw [hf, hw, State.planned, hu]

theorem wake_completes {s : State} {c : Nat} (hc : c < 32) (hst : s.clState c ≠ 0)
    (h : (s.plan c).1 + wakeNs (s.clState c) ≤ s.tb) :
    ∃ t, exec (.wake c) s = .next t ∧ t.clState c = 0 ∧ OnlyRegs s t [(Reg.pwrClStat c).off] ∧
      t = { s with regs := t.regs, pwr := { s.pwr with plans := t.pwr.plans } } := by
  have he : exec (.wake c) s = .next (s.toNoon c) := if_neg (by
    rintro (h1 | h1 | h1)
    · omega
    · exact hst h1
    · omega)
  refine ⟨_, he, ?_, ?_, rfl⟩
  · rw [State.clState, State.toNoon, State.fld_setFld _ _ (by decide) (by decide)]
    rfl
  · exact OnlyRegs.setFld _ (List.mem_singleton_self _) 31 30 0

theorem clusterStatesComplete : Claims.ClusterStatesComplete := by
  refine ⟨fun s c st hm hc hi hst hlt hcfg hfit hdeep => ?_, fun s c hc hst => ⟨wake_completes hc hst, fun h => ?_, ?_, fun h => ?_⟩⟩
  · have hguard : ¬ (!s.mode.sleeps || decide (32 ≤ c) || !s.clIdle c) = true := by
      rw [hm, hi, decide_eq_false (by omega)]
      decide
    have hch := State.sleepChoice_deepest hst hcfg hfit hdeep
    have he : exec (.stateChoice c) s = .next (s.sleep c st (s.sleepEnd c)) := by
      change execStateChoice c s = _
      rw [execStateChoice, if_neg hguard, hch]
      exact if_pos hlt
    have h4 : st < 4 := by
      simp only [List.mem_cons, List.not_mem_nil, or_false] at hst
      omega
    exact ⟨_, he, s.sleep_completes c h4 (s.sleepEnd c)⟩
  · exact if_pos (.inr (.inr h))
  · exact earlyWake_completes hc hst
  · exact if_pos (.inr (.inr h))

/-! ### The monitors (R541 to R544, R574, R580) -/

/-- The registers of fault records stand beyond those of the monitors and of the Keep tile. -/
theorem notMem_faultOffs {off : Nat} (h : off < 0x800000) : off ∉ faultOffs := by
  simp only [faultOffs, Reg.ringCntDrop, Reg.fltCntFwd, Reg.fltCntCoal, Reg.fltStat, Reg.pairStat, Reg.pairHandoffLap, Reg.fltOvf,
    List.mem_append, List.mem_cons, List.not_mem_nil, or_false, List.mem_map, List.mem_range, not_or, not_exists, not_and]
  exact ⟨by omega, fun c _ => by omega⟩

theorem ResetAlike.of_filed {s t : State} (h : Filed s t) : ResetAlike s t :=
  ResetAlike.of_onlyRegs (by rw [h.1]) (by rw [h.1]) h.regs fun i hi => by
    obtain ⟨-, hk⟩ := keepReg_range hi
    exact ⟨notMem_faultOffs (by omega), notMem_faultOffs (by omega)⟩

/-- A rail or temperature beyond its warning threshold drives ALERT_N. -/
theorem State.alertN_drivePins {s : State} (h : s.alerts = true) : s.drivePins.pwr.alertN = false := by
  have hd : s.drivePins.pwr.alertN = !s.alerts := rfl
  rw [hd, h]
  rfl

theorem State.alerts_of_rail {s : State} {k : Nat} (hk : k < 8) (h : s.bit Reg.supStat k = true) : s.alerts = true := by
  have hf : s.fld Reg.supStat 7 0 ≠ 0 := State.fld_ne_zero (Nat.zero_le k) (by omega) h
  rw [State.alerts, decide_eq_true hf, Bool.or_true, Bool.true_or]

theorem State.alerts_of_temp {s : State} (h : s.bit Reg.supThermStat 30 = true) : s.alerts = true := by
  rw [State.alerts, h, Bool.true_or, Bool.true_or]

/-- The state in which a rail's warning shows. -/
def State.railWarns (s : State) (k : Nat) : State := (s.setBit Reg.supStat k true).setBit Reg.supStat (8 + k) true

theorem State.bit_railWarns (s : State) {k : Nat} (hk : k < 8) :
    (s.railWarns k).bit Reg.supStat k = true ∧ (s.railWarns k).bit Reg.supStat (8 + k) = true := by
  refine ⟨?_, State.bit_setBit _ _ (by omega) _⟩
  rw [State.railWarns, State.bit_setBit_apart _ _ (by omega) (by omega), State.bit_setBit _ _ (by omega)]

theorem State.railWarns_frame (s : State) (k : Nat) : s.railWarns k = { s with regs := (s.railWarns k).regs } := rfl

/-- What a warning that is new does: it shows, and is reported where the register window is open. -/
theorem exec_warning {s : State} {k : Nat} (h : ¬ (s.mode = .off ∨ 8 ≤ k ∨ s.bit Reg.supStat k = true)) :
    exec (.warning k) s =
      if !s.windowUp then .next (s.railWarns k).drivePins
      else
        let u := ((s.railWarns k).fault 0x14 (originOf s.pos 6 5) 0 0 0 k).emit .stewardIrq
        let void : Bool := k ≤ 1 && s.mode = .dusk && s.fld Reg.pwrDuskStat 31 29 = 3
        .next ({ u with blk := { u.blk with voided := u.blk.voided || void } } : State).drivePins :=
  if_neg h

theorem warning_completes {s : State} {k : Nat} (hm : s.mode ≠ .off) (hk : k < 8) (h : s.bit Reg.supStat k = false) :
    ∃ t, exec (.warning k) s = .next t ∧ t.bit Reg.supStat k = true ∧ t.bit Reg.supStat (8 + k) = true ∧ t.pwr.alertN = false ∧
      t.m = s.m ∧ t.mode = s.mode ∧
      (s.windowUp = true → t.host.out = s.host.out ++ [.stewardIrq] ∧ (s.flt.queue.length < 1024 → t.reports 0x14)) := by
  have hguard : ¬ (s.mode = .off ∨ 8 ≤ k ∨ s.bit Reg.supStat k = true) := by
    rintro (h1 | h1 | h1)
    · exact hm h1
    · omega
    · rw [h] at h1
      cases h1
  obtain ⟨hb, hb'⟩ := s.bit_railWarns hk
  by_cases hw : s.windowUp = true
  · obtain ⟨u, hu⟩ : ∃ u, u = (s.railWarns k).fault 0x14 (originOf s.pos 6 5) 0 0 0 k := ⟨_, rfl⟩
    obtain ⟨v, he⟩ : ∃ v, exec (.warning k) s = .next ({ u.emit .stewardIrq with blk := v } : State).drivePins := by
      rw [exec_warning hguard, hw, hu]
      exact ⟨_, rfl⟩
    have hf : Filed (s.railWarns k) u := hu ▸ Filed.fault ..
    have hreg : ∀ b, ({ u.emit .stewardIrq with blk := v } : State).bit Reg.supStat b = (s.railWarns k).bit Reg.supStat b :=
      fun b => hf.regs.bit (notMem_faultOffs (by decide)) b
    refine ⟨_, he, (hreg k).trans hb, (hreg (8 + k)).trans hb', State.alertN_drivePins (State.alerts_of_rail hk ((hreg k).trans hb)),
      hf.m, (by rw [hf.1]; rfl : u.mode = s.mode), fun _ => ⟨?_, fun hq => ?_⟩⟩
    · exact congrArg (fun x : HostPort => x.out ++ [Out.stewardIrq]) hf.host
    · have hr : u.reports 0x14 := hu ▸ State.reports_fault (s := s.railWarns k) hq (by decide) ..
      exact hr
  · have he : exec (.warning k) s = .next (s.railWarns k).drivePins := by
      rw [exec_warning hguard, eq_false_of_ne_true hw]
      rfl
    exact ⟨_, he, hb, hb', State.alertN_drivePins (State.alerts_of_rail hk hb), rfl, rfl, fun h1 => absurd h1 hw⟩

theorem warningEnd_completes {s : State} {k : Nat} (hm : s.mode ≠ .off) (hk : k < 8) :
    ∃ t, exec (.warningEnd k) s = .next t ∧ t.bit Reg.supStat k = false ∧ OnlyRegs s t [Reg.supStat.off] ∧
      (∀ j, j < 16 → j ≠ k → t.bit Reg.supStat j = s.bit Reg.supStat j) ∧ t.pwr.alertN = !t.alerts ∧
      t = { s with regs := t.regs, pwr := t.pwr } := by
  have he : exec (.warningEnd k) s = .next (s.setBit Reg.supStat k false).drivePins := if_neg (by
    rintro (h1 | h1)
    · exact hm h1
    · omega)
  refine ⟨_, he, ?_, ?_, fun j hj hjk => ?_, State.alertN_follows _, State.drivePins_setBit ..⟩
  · rw [State.bit_drivePins, State.bit_setBit _ _ (by omega)]
  · exact (OnlyRegs.setBit s (List.mem_singleton_self _) _ false).drivePins
  · rw [State.bit_drivePins, State.bit_setBit_apart _ _ (by omega) hjk]

theorem supplyReset_completes {s : State} {rails : BitVec 8} (hm : s.mode ≠ .off) (hr : rails ≠ 0) :
    ∃ t, exec (.supplyReset rails) s = .next t ∧ t.mode = .hold ∧ t.pwr.supplyHold = true ∧ t.pwr.alertN = false ∧
      t.rd Reg.supLast = rails.setWidth 32 ∧ s.afterAnyReset t := by
  obtain ⟨u, hu⟩ : ∃ u : State, u = { s with pwr := { s.pwr with supplyHold := true } } := ⟨_, rfl⟩
  have he : exec (.supplyReset rails) s = .next (u.wr Reg.supLast (rails.setWidth 32)).enterHold := by
    rw [hu]
    exact if_neg (fun h => h.elim hm hr)
  have hp : (u.wr Reg.supLast (rails.setWidth 32)).pwr.supplyHold = true := by rw [hu]; rfl
  have ha : ResetAlike s (u.wr Reg.supLast (rails.setWidth 32)) :=
    ResetAlike.trans (hu ▸ ResetAlike.pwr s _) (ResetAlike.wr u (.inr (by decide)) _)
  refine ⟨_, he, State.mode_enterHold _, ?_, State.alertN_enterHold (by rw [hp]; rfl), ?_, State.afterAnyReset_enterHold ha⟩
  · rw [State.pwr_enterHold]
    exact hp
  · rw [State.rd_enterHold_kept _ (by decide), State.rd_wr]

/-- The state in which the loss of a clock shows. -/
def State.clockLost (s : State) (i : Nat) : State := (s.setFld Reg.supClkStat 3 2 (i + 1)).setBit Reg.supClkStat i false

theorem State.fld_clockLost (s : State) {i : Nat} (hi : i < 2) :
    (s.clockLost i).fld Reg.supClkStat 3 2 = i + 1 ∧ (s.clockLost i).bit Reg.supClkStat i = false := by
  refine ⟨?_, State.bit_setBit _ _ (by omega) _⟩
  rw [State.clockLost, State.setBit, State.fld_setFld_apart _ _ (Nat.le_refl i) (by decide) (by omega),
    State.fld_setFld _ _ (by decide) (by decide)]
  exact Nat.mod_eq_of_lt (by omega)

theorem State.clockLost_resetAlike (s : State) (i : Nat) : ResetAlike s (s.clockLost i) :=
  (ResetAlike.wr s (r := Reg.supClkStat) (.inr (by decide)) _).trans (ResetAlike.wr _ (r := Reg.supClkStat) (.inr (by decide)) _)

theorem clockLoss_completes {s : State} (hm : s.mode ≠ .off) (ring : Bool) :
    ∃ t, exec (.clockLoss ring) s = .next t ∧ t.mode = .hold ∧ t.pwr.clockHold = true ∧ t.pwr.alertN = false ∧
      t.fld Reg.supClkStat 3 2 = ring.toNat + 1 ∧ t.bit Reg.supClkStat ring.toNat = false ∧ s.afterAnyReset t := by
  have hi : ring.toNat < 2 := by cases ring <;> decide
  obtain ⟨hfld, hbit⟩ := s.fld_clockLost hi
  obtain ⟨u, hu, he⟩ : ∃ u : State, Filed (s.clockLost ring.toNat) u ∧
      exec (.clockLoss ring) s = .next ({ u with pwr := { u.pwr with clockHold := true } } : State).enterHold := by
    refine ⟨_, ?_, if_neg hm⟩
    split
    · exact Filed.fault ..
    · exact Filed.refl _
  obtain ⟨w, hw⟩ : ∃ w : State, w = { u with pwr := { u.pwr with clockHold := true } } := ⟨_, rfl⟩
  rw [← hw] at he
  have hrd : w.enterHold.rd Reg.supClkStat = (s.clockLost ring.toNat).rd Reg.supClkStat := by
    rw [w.rd_enterHold_kept (by decide), hw]
    exact hu.regs _ (notMem_faultOffs (by decide))
  have hp : w.pwr.clockHold = true := by rw [hw]
  have ha : ResetAlike s w := by
    rw [hw]
    exact ((s.clockLost_resetAlike _).trans (ResetAlike.of_filed hu)).trans (ResetAlike.pwr u _)
  refine ⟨_, he, w.mode_enterHold, ?_, State.alertN_enterHold (by rw [hp, Bool.or_true]), ?_, ?_, State.afterAnyReset_enterHold ha⟩
  · rw [w.pwr_enterHold]
    exact hp
  · rw [State.fld, hrd]
    exact hfld
  · rw [State.bit, State.fld, hrd]
    exact hbit

theorem supplyRecovery_completes {s : State} (hm : s.mode = .hold) (h : s.fld Reg.supStat 7 0 = 0) :
    ∃ t, exec .supplyRecovery s = .next t ∧ t.pwr.supplyHold = false ∧
      t.mode = (if ({ s with pwr := { s.pwr with supplyHold := false } } : State).held then .hold else .dawn) := by
  obtain ⟨u, hu⟩ : ∃ u : State, u = { s with pwr := { s.pwr with supplyHold := false } } := ⟨_, rfl⟩
  have he : exec .supplyRecovery s = .next u.drivePins.tryLeave := by
    rw [hu]
    exact if_pos ⟨hm, h⟩
  have hum : u.drivePins.mode = .hold := by rw [hu]; exact hm
  refine ⟨_, he, ?_, ?_⟩
  · rw [u.drivePins.tryLeave_keeps.1, hu]
    rfl
  · rw [State.mode_tryLeave hum, u.held_drivePins, hu]

theorem clockRecovery_completes {s : State} (hm : s.mode = .hold) (h : s.fld Reg.supStat 7 0 = 0) :
    ∃ t, exec .clockRecovery s = .next t ∧ t.pwr.clockHold = false ∧ t.fld Reg.supClkStat 1 0 = 3 ∧
      t.mode = (if ({ s with pwr := { s.pwr with clockHold := false } } : State).held then .hold else .dawn) := by
  obtain ⟨u, hu⟩ : ∃ u : State, u = { s with pwr := { s.pwr with clockHold := false } } := ⟨_, rfl⟩
  have he : exec .clockRecovery s = .next (u.setFld Reg.supClkStat 1 0 3).drivePins.tryLeave := by
    rw [hu]
    exact if_pos ⟨hm, h⟩
  obtain ⟨-, hc, hr⟩ := (u.setFld Reg.supClkStat 1 0 3).drivePins.tryLeave_keeps
  have hum : (u.setFld Reg.supClkStat 1 0 3).drivePins.mode = .hold := by rw [hu]; exact hm
  refine ⟨_, he, ?_, ?_, ?_⟩
  · rw [hc, hu]
    rfl
  · rw [State.fld, hr, State.rd_drivePins]
    exact u.fld_setFld Reg.supClkStat (by decide) (by decide) 3
  · rw [State.mode_tryLeave hum, State.held_drivePins, hu]
    rfl

/-- The registers of the temperatures. -/
def tempOffs (k : Nat) : List Nat := [(Reg.supTemp k).off, Reg.supThermStat.off]

theorem supTemp_ne_supThermStat (k : Nat) : (Reg.supTemp k).off ≠ Reg.supThermStat.off := by
  simp only [Reg.supTemp, Reg.supThermStat]
  omega

/-- A reading shows; of SUP_THERM_STAT only the highest reading and its sensor differ. -/
theorem State.takeTemp_completes (s : State) (k : Nat) (v : BitVec 12) :
    s.takeTemp k v = { s with regs := (s.takeTemp k v).regs } ∧ (s.takeTemp k v).rd (Reg.supTemp k) = v.setWidth 32 ∧
      (s.takeTemp k v).bit Reg.supThermStat 30 = s.bit Reg.supThermStat 30 := by
  have hne := supTemp_ne_supThermStat k
  obtain ⟨u, n, hu, hr, hb, he⟩ : ∃ (u : State) (n : Nat), u = { s with regs := u.regs } ∧ u.rd (Reg.supTemp k) = v.setWidth 32 ∧
      u.bit Reg.supThermStat 30 = s.bit Reg.supThermStat 30 ∧ s.takeTemp k v = u.setFld Reg.supThermStat 23 18 n := by
    have hw : (s.wr (Reg.supTemp k) (v.setWidth 32)).bit Reg.supThermStat 30 = s.bit Reg.supThermStat 30 := by
      rw [State.bit, State.bit, State.fld, State.fld, s.rd_wr_ne _ _ _ hne.symm]
    refine ⟨_, _, ?_, ?_, ?_, rfl⟩ <;> split
    · rfl
    · rfl
    · rw [State.rd_setFld_ne _ _ _ _ _ _ hne, State.rd_wr]
    · rw [State.rd_wr]
    · rw [State.bit, State.fld_setFld_apart _ _ (by decide) (by decide) (by decide)]
      exact hw
    · exact hw
  rw [he]
  refine ⟨?_, by rw [State.rd_setFld_ne _ _ _ _ _ _ hne, hr], ?_⟩
  · rw [State.setFld, State.wr, hu]
  · rw [State.bit, State.fld_setFld_apart _ _ (by decide) (by decide) (by decide)]
    exact hb

theorem thermalWarning_completes {s : State} {k : Nat} {v : BitVec 12} (hw : s.windowUp = true) (hk : k < 36)
    (hv : 4 * (s.fld Reg.supThermCfg 7 0 : Int) < v.toInt) :
    ∃ t, exec (.thermalWarning k v) s = .next t ∧ t.rd (Reg.supTemp k) = v.setWidth 32 ∧ t.bit Reg.supThermStat 30 = true ∧
      t.m = s.m ∧ t.mode = s.mode ∧
      (s.bit Reg.supThermStat 30 = false → t.pwr.alertN = false ∧ (s.flt.queue.length < 1024 → t.reports 0x14)) ∧
      (s.bit Reg.supThermStat 30 = true → t.flt = s.flt) := by
  have hguard : ¬ ((!s.windowUp) = true ∨ 36 ≤ k ∨ v.toInt ≤ 4 * (s.fld Reg.supThermCfg 7 0 : Int)) := by
    rw [hw]
    rintro (h1 | h1 | h1)
    · cases h1
    · omega
    · omega
  obtain ⟨hf, hr, hb⟩ := s.takeTemp_completes k v
  obtain ⟨u, hu⟩ : ∃ u, u = s.takeTemp k v := ⟨_, rfl⟩
  rw [← hu] at hf hr hb
  cases hs : s.bit Reg.supThermStat 30 with
  | true =>
    have he : exec (.thermalWarning k v) s = .next u := by
      rw [hu]
      exact (if_neg hguard).trans (if_pos hs)
    exact ⟨_, he, hr, hb.trans hs, by rw [hf], by rw [hf], nofun, fun _ => by rw [hf]⟩
  | false =>
    obtain ⟨w, hww⟩ : ∃ w, w = u.setBit Reg.supThermStat 30 true := ⟨_, rfl⟩
    have hwf : w = { s with regs := w.regs } := by
      rw [hww, State.setBit, State.setFld, State.wr, hf]
    obtain ⟨x, hx⟩ : ∃ x, x = w.fault 0x14 (originOf s.pos 6 7) 0 0 0 (0x200 + k) := ⟨_, rfl⟩
    have he : exec (.thermalWarning k v) s = .next x.drivePins := by
      rw [hx, hww, hu]
      exact (if_neg hguard).trans (if_neg (by rw [hs]; decide))
    have hfl : Filed w x := hx ▸ Filed.fault ..
    have hbit : x.bit Reg.supThermStat 30 = true := by
      rw [hfl.regs.bit (notMem_faultOffs (by decide)), hww, State.bit_setBit _ _ (by decide)]
    refine ⟨_, he, ?_, hbit, ?_, ?_, fun _ => ⟨State.alertN_drivePins (State.alerts_of_temp hbit), fun hq => ?_⟩, nofun⟩
    · rw [State.rd_drivePins, hfl.regs _ (notMem_faultOffs (by simp only [Reg.supTemp]; omega)), hww, State.setBit,
        State.rd_setFld_ne _ _ _ _ _ _ (supTemp_ne_supThermStat k), hr]
    · exact (hfl.m).trans (by rw [hwf])
    · exact (by rw [hfl.1] : x.mode = w.mode).trans (by rw [hwf])
    · have hr : x.reports 0x14 := hx ▸ State.reports_fault (by rw [hwf]; exact hq) (by decide) ..
      exact hr

theorem thermalWarningEnd_completes {s : State} (hm : s.mode ≠ .off) :
    ∃ t, exec .thermalWarningEnd s = .next t ∧ t.bit Reg.supThermStat 30 = false ∧ OnlyRegs s t [Reg.supThermStat.off] ∧
      t.pwr.alertN = !t.alerts ∧ t = { s with regs := t.regs, pwr := t.pwr } := by
  refine ⟨_, if_neg hm, ?_, ?_, State.alertN_follows _, State.drivePins_setBit ..⟩
  · rw [State.bit_drivePins, State.bit_setBit _ _ (by decide)]
  · exact (OnlyRegs.setBit s (List.mem_singleton_self _) _ false).drivePins

theorem trip_completes {s : State} {k : Nat} {v : BitVec 12} (hm : s.mode ≠ .off) (hk : k < 36) (hv : 460 ≤ v.toInt) :
    ∃ t, exec (.trip k v) s = .next t ∧ t.mode = .hold ∧ t.pwr.tripHold = true ∧ t.pwr.thermtripN = false ∧
      t.bit Reg.supThermStat 31 = true ∧ s.afterAnyReset t := by
  obtain ⟨u, hu⟩ : ∃ u : State, u = { s with pwr := { s.pwr with tripHold := true } } := ⟨_, rfl⟩
  have he : exec (.trip k v) s = .next (u.setBit Reg.supThermStat 31 true).enterHold := by
    rw [hu]
    refine if_neg ?_
    rintro (h1 | h1 | h1)
    · exact hm h1
    · omega
    · omega
  have hp : (u.setBit Reg.supThermStat 31 true).pwr.tripHold = true := by rw [hu]; rfl
  have ha : ResetAlike s (u.setBit Reg.supThermStat 31 true) :=
    ResetAlike.trans (hu ▸ ResetAlike.pwr s _) (ResetAlike.wr u (r := Reg.supThermStat) (.inr (by decide)) _)
  refine ⟨_, he, State.mode_enterHold _, ?_, ?_, ?_, State.afterAnyReset_enterHold ha⟩
  · rw [State.pwr_enterHold]
    exact hp
  · rw [State.pwr_enterHold]
    exact congrArg not hp
  · have hk31 : ∀ x : BitVec 32, (keptWord Reg.supThermStat.off x).toNat.testBit 31 = x.toNat.testBit 31 := by
      intro x
      have hkw : keptWord Reg.supThermStat.off x = x &&& 0xC0000000 := rfl
      rw [hkw, BitVec.toNat_and, Nat.testBit_and]
      exact Bool.and_true _
    rw [State.bit_eq_testBit, State.rd_enterHold, State.rd_afterReset_kept rfl rfl, hk31, ← State.bit_eq_testBit,
      State.bit_setBit _ _ (by decide)]

theorem monitorsComplete : Claims.MonitorsComplete :=
  ⟨fun _ _ hm hk => ⟨warning_completes hm hk, fun h => if_pos (.inr (.inr h)), warningEnd_completes hm hk⟩,
    fun _ _ => supplyReset_completes, fun _ ring hm => clockLoss_completes hm ring,
    fun _ hm h => ⟨supplyRecovery_completes hm h, clockRecovery_completes hm h⟩,
    fun _ _ _ => thermalWarning_completes, fun _ => thermalWarningEnd_completes, fun _ _ _ => trip_completes⟩

/-- Settles O56: clusters by what a sleep and a wake leave, the monitors by what HOLD leaves and a fault record changes. -/
theorem clustersAndMonitors : Obligations.ClustersAndMonitors := ⟨clusterStatesComplete, monitorsComplete⟩

end Sys2Proof.Machine

/-!
PROOFS. The mailbox and the entry to SERVICE. Settles O53.
-/

namespace Sys2Proof.Machine

/-! ### The entry to SERVICE (R515) -/

theorem State.lts_portOff (s : State) (p : Nat) : (s.portOff p).lts p = 0 := by
  rw [State.portOff, State.lts_setPort, State.lts_setGen, State.lts_setLts _ _ (by decide)]

/-- SERVICE ends admission and turns every port off. -/
theorem State.enterService_shows (s : State) :
    s.enterService.bit Reg.staAdmitCtrl 0 = false ∧ ∀ p, p < 3 → s.enterService.lts p = 0 := by
  obtain ⟨a, ha⟩ : ∃ a, a = s.setBit Reg.staAdmitCtrl 0 false := ⟨_, rfl⟩
  obtain ⟨b, hb⟩ : ∃ b, b = ((a.portOff 0).portOff 1).portOff 2 := ⟨_, rfl⟩
  have h1 := (a.portOff 0).portOff_frame 1
  have h2 := ((a.portOff 0).portOff 1).portOff_frame 2
  have h0 := a.portOff_frame 0
  have hregs : s.enterService.regs = b.regs := by
    rw [hb, ha]
    exact (State.clearPlaces_frame _ _).2.2
  have hrd : ∀ r, s.enterService.rd r = b.rd r := fun r => congrArg (fun x => SMap.get r.rst x r.off) hregs
  have hoff : ∀ p q, p < 3 → q < 3 → p ≠ q → ltsOff p ∉ [ltsOff q] := fun p q hp hq hpq =>
    fun hm => ltsOff_ne hq hp hpq (List.mem_singleton.1 hm)
  refine ⟨?_, fun p hp => ?_⟩
  · have hadm : b.rd Reg.staAdmitCtrl = a.rd Reg.staAdmitCtrl := by
      rw [hb, h2.2 _ (by decide), h1.2 _ (by decide), h0.2 _ (by decide)]
    rw [State.bit, State.fld, hrd, hadm, ha]
    exact s.bit_setBit Reg.staAdmitCtrl (by decide) false
  · have hl : s.enterService.lts p = b.lts p := by
      rw [State.lts_eq, State.lts_eq, State.fld, State.fld, hrd]
    rw [hl, hb]
    have hp' : p = 0 ∨ p = 1 ∨ p = 2 := by omega
    rcases hp' with rfl | rfl | rfl
    · rw [h2.2.lts (hoff 0 2 (by decide) (by decide) (by decide)), h1.2.lts (hoff 0 1 (by decide) (by decide) (by decide)),
        State.lts_portOff]
    · rw [h2.2.lts (hoff 1 2 (by decide) (by decide) (by decide)), State.lts_portOff]
    · exact State.lts_portOff _ 2

/-- A transition that is asked for while none is pending is due at the next boundary. -/
theorem State.trigger_free {s : State} (h : s.pendMode = none) (m : Mode) :
    s.trigger m = { s with pendMode := some (m, if s.mirroredNow then s.lap else s.lap + 1) } := by
  rw [State.trigger, h]
  rfl

/-! ### Answers of the mailbox (R485) -/

theorem State.setFld_setBit_frame (s : State) (r : RegRef) (hi lo v b : Nat) (x : Bool) :
    ∃ regs, (s.setFld r hi lo v).setBit r b x = { s with regs := regs } := ⟨_, rfl⟩

/-- What an answer leaves: its register, and the host port's messages. -/
theorem State.mboxEnd_frame (s : State) (status : Nat) :
    (∃ x, s.mboxEnd status = { s with regs := (s.mboxEnd status).regs, host := x }) ∧
      OnlyRegs s (s.mboxEnd status) [Reg.hostMboxCtl.off] ∧
      (s.mboxEnd status).rd Reg.hostMboxCtl =
        ((s.setFld Reg.hostMboxCtl 30 28 status).setBit Reg.hostMboxCtl 31 false).rd Reg.hostMboxCtl := by
  obtain ⟨u, hu⟩ : ∃ u, u = (s.setFld Reg.hostMboxCtl 30 28 status).setBit Reg.hostMboxCtl 31 false := ⟨_, rfl⟩
  have hr : OnlyRegs s u [Reg.hostMboxCtl.off] := by
    rw [hu]
    exact (OnlyRegs.setFld s (List.mem_singleton_self _) 30 28 status).trans (OnlyRegs.setBit _ (List.mem_singleton_self _) 31 false)
  have hf : ∃ x, u = { s with regs := x } := by
    rw [hu]
    exact s.setFld_setBit_frame ..
  obtain ⟨x, he⟩ : ∃ x, s.mboxEnd status = { u with host := x } := by
    obtain ⟨w, hw⟩ : ∃ w : State, w = { u with host := { u.host with mboxBusy := false, duskCmd := false } } := ⟨_, rfl⟩
    have hend : s.mboxEnd status = if w.trails then w else w.sendMsix (w.fld Reg.hostCfg 13 7) := by
      rw [hw, hu, State.mboxEnd]
    rw [hend]
    split
    · exact ⟨_, hw⟩
    · obtain ⟨x, o, h, -⟩ := w.sendMsix_frame (w.fld Reg.hostCfg 13 7)
      rw [h, hw]
      exact ⟨_, rfl⟩
  obtain ⟨r, hf⟩ := hf
  have hrd : ∀ q, (s.mboxEnd status).rd q = u.rd q := fun q => by rw [he]; rfl
  refine ⟨⟨x, ?_⟩, fun q hq => (hrd q).trans (hr q hq), by rw [hrd, hu]⟩
  rw [he, hf]

theorem State.mboxEnd_answers (s : State) {status : Nat} (h : status < 8) :
    (s.mboxEnd status).fld Reg.hostMboxCtl 30 28 = status ∧ (s.mboxEnd status).bit Reg.hostMboxCtl 31 = false := by
  obtain ⟨-, -, hr⟩ := s.mboxEnd_frame status
  constructor
  · rw [State.fld, hr]
    refine (State.fld_setFld_apart _ _ (Nat.le_refl 31) (by decide) (by decide) _).trans ?_
    rw [s.fld_setFld _ (by decide) (by decide)]
    exact Nat.mod_eq_of_lt h
  · rw [State.bit, State.fld, hr]
    exact State.bit_setBit _ _ (by decide) false

theorem State.m_mboxEnd (s : State) (status : Nat) : (s.mboxEnd status).m = s.m := by
  obtain ⟨⟨x, h⟩, -⟩ := s.mboxEnd_frame status
  rw [h]

theorem State.mode_mboxEnd (s : State) (status : Nat) : (s.mboxEnd status).mode = s.mode := by
  obtain ⟨⟨x, h⟩, -⟩ := s.mboxEnd_frame status
  rw [h]

theorem State.pendMode_mboxEnd (s : State) (status : Nat) : (s.mboxEnd status).pendMode = s.pendMode := by
  obtain ⟨⟨x, h⟩, -⟩ := s.mboxEnd_frame status
  rw [h]

/-- Registers written one after the other: each listed one reads what was written to it. -/
theorem State.rd_foldl_wr {ref : Nat → RegRef} (hne : ∀ j k, k ≠ j → (ref k).off ≠ (ref j).off) (f : Nat → BitVec 32) (ks : List Nat)
    (s : State) {k : Nat} (h : k ∈ ks ∨ s.rd (ref k) = f k) :
    (ks.foldl (fun s k => s.wr (ref k) (f k)) s).rd (ref k) = f k := by
  induction ks generalizing s with
  | nil => exact h.resolve_left List.not_mem_nil
  | cons j js ih =>
    refine ih _ ?_
    by_cases hj : k = j
    · subst hj
      exact .inr (s.rd_wr ..)
    · refine h.imp (fun hm => (List.mem_cons.1 hm).resolve_left hj) (fun hr => ?_)
      rw [s.rd_wr_ne _ _ _ (hne j k hj), hr]

theorem State.rd_mboxRsp (s : State) {ws : List (BitVec 32)} {k : Nat} (h : k < ws.length) :
    (s.mboxRsp ws).rd (Reg.hostMboxRsp k) = ws.getD k 0 :=
  State.rd_foldl_wr (fun j k hjk => by simp only [Reg.hostMboxRsp]; omega) (fun k => ws.getD k 0) _ s
    (.inl (List.mem_range.2 h))

theorem State.m_mboxRsp (s : State) (ws : List (BitVec 32)) : (s.mboxRsp ws).m = s.m := by
  unfold State.mboxRsp
  generalize List.range ws.length = ks
  induction ks generalizing s with
  | nil => rfl
  | cons k ks ih => exact ih (s.wr _ _)

/-- An answer leaves the response words. -/
theorem State.rd_rsp_mboxEnd (s : State) (status k : Nat) :
    (s.mboxEnd status).rd (Reg.hostMboxRsp k) = s.rd (Reg.hostMboxRsp k) := by
  obtain ⟨-, h, -⟩ := s.mboxEnd_frame status
  refine h _ ?_
  simp only [Reg.hostMboxRsp, Reg.hostMboxCtl, List.mem_singleton]
  omega

/-- What an answer with response words leaves. -/
theorem State.mboxRsp_answers (s : State) (ws : List (BitVec 32)) :
    ((s.mboxRsp ws).mboxEnd 2).fld Reg.hostMboxCtl 30 28 = 2 ∧ ((s.mboxRsp ws).mboxEnd 2).bit Reg.hostMboxCtl 31 = false ∧
      ((s.mboxRsp ws).mboxEnd 2).m = s.m ∧
      ∀ k, k < ws.length → ((s.mboxRsp ws).mboxEnd 2).rd (Reg.hostMboxRsp k) = ws.getD k 0 := by
  obtain ⟨h1, h2⟩ := (s.mboxRsp ws).mboxEnd_answers (show 2 < 8 by decide)
  refine ⟨h1, h2, (State.m_mboxEnd ..).trans (s.m_mboxRsp ws), fun k hk => ?_⟩
  rw [State.rd_rsp_mboxEnd, s.rd_mboxRsp hk]

/-- A word is its two halves. -/
theorem halves_append (w : W64) : (w >>> 32).setWidth 32 ++ (w.setWidth 32 : BitVec 32) = w := by
  refine BitVec.eq_of_getLsbD_eq fun i hi => ?_
  simp only [BitVec.getLsbD_append, BitVec.getLsbD_setWidth, BitVec.getLsbD_ushiftRight]
  by_cases h : i < 32
  · simp [h]
  · simp only [h, decide_false, if_false]
    rw [Nat.add_sub_cancel' (by omega), decide_eq_true (by omega), Bool.true_and]

/-! ### The commands (R485, R490, R491, R515, R531, R532) -/

/-- A request that is taken. -/
theorem ite_asks {b : Bool} (h : b = true) (x y : Res) : (if !b then x else y) = y := by
  rw [h]
  rfl

theorem enterDusk_completes {s : State} (h : s.mboxAsks (fun c => c = 1) = true) (hb : s.bootRom = false)
    (hp : s.pendMode = none) :
    (s.mode.running = true →
      exec .enterDusk s = .next { s with
        pendMode := some (.dusk, if s.mirroredNow then s.lap else s.lap + 1),
        host := { s.host with mboxBusy := true, duskCmd := true } }) ∧
    (s.mode.running = false → ∃ t, exec .enterDusk s = .next t ∧ t.fld Reg.hostMboxCtl 30 28 = 4 ∧
      t.bit Reg.hostMboxCtl 31 = false ∧ t.mode = s.mode ∧ t.m = s.m) := by
  have he : exec .enterDusk s = if s.mode.running then
      .next { (s.trigger .dusk).mboxWait with host := { (s.trigger .dusk).mboxWait.host with duskCmd := true } }
      else .next (s.mboxEnd 4) := by
    change execEnterDusk s = _
    rw [execEnterDusk, ite_asks h, hb, hp]
    rfl
  rw [he]
  refine ⟨fun hr => ?_, fun hr => ?_⟩
  · rw [if_pos hr, State.trigger_free hp]
    rfl
  · rw [if_neg (by rw [hr]; decide)]
    obtain ⟨h1, h2⟩ := s.mboxEnd_answers (show 4 < 8 by decide)
    exact ⟨_, rfl, h1, h2, s.mode_mboxEnd 4, s.m_mboxEnd 4⟩

theorem enterService_completes {s : State} (h : s.mboxAsks (fun c => c = 2) = true) (hb : s.bootRom = false)
    (hp : s.pendMode = none) :
    (s.mode = .prep → ∃ t, exec .enterService s = .next t ∧ t.mode = .service ∧ t.fld Reg.hostMboxCtl 30 28 = 2 ∧
      t.bit Reg.hostMboxCtl 31 = false ∧ t.bit Reg.staAdmitCtrl 0 = false ∧ t.m.mem = s.m.mem ∧ ∀ p, p < 3 → t.lts p = 0) ∧
    (s.mode.running = true → ∃ t, exec .enterService s = .next t ∧ t.mode = s.mode ∧ t.fld Reg.hostMboxCtl 30 28 = 2 ∧
      t.pendMode = some (.service, if s.mirroredNow then s.lap else s.lap + 1) ∧ t.m = s.m) := by
  have he : exec .enterService s = if s.mode = .prep then .next (s.enterService.mboxEnd 2)
      else if s.mode.running then .next ((s.trigger .service).mboxEnd 2) else .next (s.mboxEnd 4) := by
    change execEnterService s = _
    rw [execEnterService, ite_asks h, hb, hp]
    rfl
  rw [he]
  refine ⟨fun hm => ?_, fun hr => ?_⟩
  · rw [if_pos hm]
    obtain ⟨h1, h2⟩ := s.enterService.mboxEnd_answers (show 2 < 8 by decide)
    obtain ⟨k1, k2, -, -⟩ := s.enterService_frame
    obtain ⟨k3, k4⟩ := s.enterService_shows
    obtain ⟨-, hr, -⟩ := s.enterService.mboxEnd_frame 2
    refine ⟨_, rfl, (State.mode_mboxEnd ..).trans k1, h1, h2, ?_, ?_, fun p hp => ?_⟩
    · rw [hr.bit (by decide), k3]
    · rw [State.m_mboxEnd, k2]
    · have hoff : ltsOff p ∉ [Reg.hostMboxCtl.off] := by
        simp only [ltsOff, Reg.ringPortStat, Reg.pairStat, Reg.hostMboxCtl, List.mem_singleton]
        split <;> omega
      rw [hr.lts hoff, k4 p hp]
  · have hm : s.mode ≠ .prep := fun hm => by
      rw [hm] at hr
      cases hr
    rw [if_neg hm, if_pos hr, State.trigger_free hp]
    obtain ⟨h1, -⟩ := State.mboxEnd_answers { s with pendMode := some (.service, if s.mirroredNow then s.lap else s.lap + 1) }
      (show 2 < 8 by decide)
    exact ⟨_, rfl, State.mode_mboxEnd .., h1, State.pendMode_mboxEnd .., State.m_mboxEnd ..⟩

theorem faultRead_completes {s : State} {r : FaultRec} {rest : List FaultRec} (h : s.mboxAsks (fun c => c = 3) = true)
    (hl : s.host.fltLog = r :: rest) :
    ∃ t, exec .faultRead s = .next t ∧ t.fld Reg.hostMboxCtl 30 28 = 2 ∧ t.bit Reg.hostMboxCtl 31 = false ∧ t.m = s.m ∧
      t.rd (Reg.hostMboxRsp 1) ++ t.rd (Reg.hostMboxRsp 0) = r.w0 ∧ t.rd (Reg.hostMboxRsp 3) ++ t.rd (Reg.hostMboxRsp 2) = r.w1 ∧
      t.rd (Reg.hostMboxRsp 5) ++ t.rd (Reg.hostMboxRsp 4) = r.w2 ∧ t.rd (Reg.hostMboxRsp 7) ++ t.rd (Reg.hostMboxRsp 6) = r.w3 := by
  have he : exec .faultRead s =
      .next ((s.mboxRsp (halves r.w0 ++ halves r.w1 ++ halves r.w2 ++ halves r.w3)).mboxEnd 2) := by
    change execFaultRead s = _
    rw [execFaultRead, ite_asks h, hl]
  obtain ⟨h1, h2, h3, hw⟩ := s.mboxRsp_answers (halves r.w0 ++ halves r.w1 ++ halves r.w2 ++ halves r.w3)
  refine ⟨_, he, h1, h2, h3, ?_, ?_, ?_, ?_⟩
  · rw [hw 0 (by decide : 0 < 8), hw 1 (by decide : 1 < 8)]
    exact halves_append r.w0
  · rw [hw 2 (by decide : 2 < 8), hw 3 (by decide : 3 < 8)]
    exact halves_append r.w1
  · rw [hw 4 (by decide : 4 < 8), hw 5 (by decide : 5 < 8)]
    exact halves_append r.w2
  · rw [hw 6 (by decide : 6 < 8), hw 7 (by decide : 7 < 8)]
    exact halves_append r.w3

theorem keepRead_completes {s : State} (h : s.mboxAsks (fun c => c = 4) = true) (hi : (s.rd (Reg.hostMboxReq 0)).toNat < 1024) :
    ∃ t, exec .keepRead s = .next t ∧ t.fld Reg.hostMboxCtl 30 28 = 2 ∧ t.bit Reg.hostMboxCtl 31 = false ∧ t.m = s.m ∧
      t.rd (Reg.hostMboxRsp 1) ++ t.rd (Reg.hostMboxRsp 0) = s.rd64 (Reg.keepReg (s.rd (Reg.hostMboxReq 0)).toNat) ∧
      t.rd (Reg.hostMboxRsp 2) = s.rd (Reg.keepWcnt (s.rd (Reg.hostMboxReq 0)).toNat) := by
  obtain ⟨i, hi'⟩ : ∃ i, i = (s.rd (Reg.hostMboxReq 0)).toNat := ⟨_, rfl⟩
  rw [← hi'] at hi ⊢
  have he : exec .keepRead s = .next ((s.mboxRsp (halves (s.rd64 (Reg.keepReg i)) ++ [s.rd (Reg.keepWcnt i)])).mboxEnd 2) := by
    change execKeepRead s = _
    rw [execKeepRead, ite_asks h, ← hi']
    exact if_neg (by omega)
  obtain ⟨h1, h2, h3, hw⟩ := s.mboxRsp_answers (halves (s.rd64 (Reg.keepReg i)) ++ [s.rd (Reg.keepWcnt i)])
  refine ⟨_, he, h1, h2, h3, ?_, ?_⟩
  · rw [hw 0 (by decide : 0 < 3), hw 1 (by decide : 1 < 3)]
    exact halves_append _
  · rw [hw 2 (by decide : 2 < 3)]
    rfl

theorem unsupported_completes {s : State} (h : s.mboxAsks (fun c => c = 0 || 4 < c) = true) (hb : s.bootRom = false) :
    ∃ t, exec .unsupported s = .next t ∧ t.fld Reg.hostMboxCtl 30 28 = 3 ∧ t.bit Reg.hostMboxCtl 31 = false ∧ t.m = s.m ∧
      t.mode = s.mode := by
  have he : exec .unsupported s = .next (s.mboxEnd 3) := by
    refine (if_pos h).trans ?_
    rw [hb]
    rfl
  obtain ⟨h1, h2⟩ := s.mboxEnd_answers (show 3 < 8 by decide)
  exact ⟨_, he, h1, h2, s.m_mboxEnd 3, s.mode_mboxEnd 3⟩

/-- Settles O53: each command by what its answer leaves. -/
theorem mailboxComplete : Obligations.MailboxComplete :=
  ⟨fun _ => enterDusk_completes, fun _ => enterService_completes, fun _ _ _ => faultRead_completes, fun _ => keepRead_completes,
    fun _ => unsupported_completes⟩

end Sys2Proof.Machine

/-!
PROOFS. The Record Unit: blocks written, entries replayed, FREEZE; and the Open writes of a master. Settles O57.
-/

namespace Sys2Proof.Machine

/-! ### Writes of a register word by its access codes (R7) -/

theorem bitsOf_bit (n b : Nat) : decide (bitsOf n b b = 1) = n.testBit b := by
  rw [bitsOf, Nat.add_sub_cancel_left, Nat.testBit_eq_decide_div_mod_eq, Nat.pow_one]

/-- A write of a 32-bit register's word changes that register alone, and each of its fields as its access code says. -/
theorem State.writeWord_word (s : State) {off : Nat} {r : RegRow} (h : findReg off regRows = some (r, 0)) (hw : r.width = 32)
    (v : BitVec 32) :
    s.writeWord false off v = { s with regs := (s.writeWord false off v).regs } ∧ OnlyRegs s (s.writeWord false off v) [off] ∧
      ∀ f ∈ r.fields, (s.writeWord false off v).fld ⟨off, BitVec.ofNat 32 r.rst⟩ f.hi f.lo =
        f.acc.written (s.fld ⟨off, BitVec.ofNat 32 r.rst⟩ f.hi f.lo) (bitsOf v.toNat f.hi f.lo) := by
  have he : s.writeWord false off v = s.wr ⟨off, BitVec.ofNat 32 r.rst⟩
      (BitVec.ofNat 32 (wordWrite false r.fields 0 (s.rd ⟨off, BitVec.ofNat 32 r.rst⟩).toNat v.toNat)) := by
    simp [State.writeWord, h]
  rw [he]
  refine ⟨rfl, fun q hq => State.rd_wr_ne _ _ q _ (by simpa using hq), fun f hf => ?_⟩
  have ha := FieldsApart.of_findReg h hw
  rw [State.fld, State.rd_wr, bitsOf_ofNat (ha.1 f hf).2, bitsOf_wordWrite ha hf]
  rfl

/-! ### Open writes of a master (R20, R311) -/

/-- An Open request of a master waits at its target; nothing else differs. -/
theorem State.postReq_master (s : State) {r : MemReq} {p i : Nat} (hs : r.src = .master p i) (hb : r.booked = false) :
    s.postReq r = { s with m := { s.m with
      memq := s.m.memq ++ [{ r with booked := false, tick := s.tb, seq := s.m.arrivals }], arrivals := s.m.arrivals + 1 } } := by
  have hret : s.retiredReq r = false := by
    rw [State.retiredReq, hs]
  have hct : s.countTarget r.src.part r.off r.lap r.booked = (s, false) := by
    rw [State.countTarget, hb]
    rfl
  rw [State.postReq, hret, hct]
  rfl

/-- The bytes of an Open write of a master wait at their targets; nothing else differs. -/
theorem State.postCells_master (s : State) {r : MemReq} {p i : Nat} (hs : r.src = .master p i) (hb : r.booked = false)
    (cs : List (Nat × Byte)) :
    ∃ rs, s.postCells r cs = { s with m := { s.m with
        memq := s.m.memq ++ rs, arrivals := (s.postCells r cs).m.arrivals } } ∧
      rs.flatMap MemReq.cells = cs ∧ ∀ q ∈ rs, q.src = .master p i ∧ q.booked = false := by
  have hfold : ∀ (l : List (List (Nat × Byte))) (u : State), ∃ rs n,
      l.foldl (fun s c => s.postReq { r with off := (c.map (fun x => x.1)).headD 0, op := .write c }) u =
        { u with m := { u.m with memq := u.m.memq ++ rs, arrivals := n } } ∧
      rs.flatMap MemReq.cells = l.flatten ∧ ∀ q ∈ rs, q.src = .master p i ∧ q.booked = false := by
    intro l
    induction l with
    | nil => exact fun u => ⟨[], u.m.arrivals, by rw [List.append_nil]; rfl, rfl, by simp⟩
    | cons c t ih =>
      intro u
      obtain ⟨r', hr'⟩ : ∃ r' : MemReq, r' = { r with off := (c.map (fun x => x.1)).headD 0, op := .write c } := ⟨_, rfl⟩
      have hpost := u.postReq_master (r := r') (by rw [hr']; exact hs) (by rw [hr']; exact hb)
      obtain ⟨q, hq⟩ : ∃ q : MemReq, q = { r' with booked := false, tick := u.tb, seq := u.m.arrivals } := ⟨_, rfl⟩
      have hcq : q.cells = c := by rw [hq, hr', MemReq.cells]
      have hsq : q.src = .master p i ∧ q.booked = false := by
        rw [hq, hr']
        exact ⟨hs, rfl⟩
      rw [← hq] at hpost
      obtain ⟨rs, n, h1, h2, h3⟩ := ih (u.postReq r')
      refine ⟨q :: rs, n, ?_, by rw [List.flatMap_cons, h2, List.flatten_cons, hcq], List.forall_mem_cons.2 ⟨hsq, h3⟩⟩
      rw [List.foldl_cons, ← hr', h1, hpost, List.append_assoc]
      rfl
  obtain ⟨rs, n, h1, h2, h3⟩ := hfold (splitCells (unitBytes (s.tier ((cs.map (fun c => c.1)).headD 0))) cs) s
  have he : s.postCells r cs = { s with m := { s.m with memq := s.m.memq ++ rs, arrivals := n } } := h1
  exact ⟨rs, by rw [he], h2.trans (splitCells_flatten _ cs).1, h3⟩

/-! ### BLOCK_WRITE (R551, R552) -/

theorem State.logPut_posts (s : State) (off : Nat) (bs : List Byte) :
    ∃ rs, s.logPut off bs = { s with m := { s.m with memq := s.m.memq ++ rs, arrivals := (s.logPut off bs).m.arrivals } } ∧
      rs.flatMap MemReq.cells = cellsAt (s.logBase + off) bs ∧ ∀ q ∈ rs, q.src = .master s.pos 40 ∧ q.booked = false :=
  s.postCells_master rfl rfl _

/-- A block put at a place of its region: the block before which recording went on, and the place of the next. -/
def State.putBlock (s : State) (b : LogBlk) (rest : List LogBlk) (o : Nat) : State :=
  let bl := keepBlocks s.recd.blocks o (o + b.bytes.length) ++ [(o, b.bytes.length)]
  let s1 := s.logPut o b.bytes
  ({ s1 with recd := { s1.recd with out := rest, off := o + b.bytes.length, blocks := bl } } : State).wr64 Reg.recOldest
    (BitVec.ofNat 64 (bl.head?.map (fun x => x.1) |>.getD 0x1000))

theorem State.putBlock_completes (s : State) (b : LogBlk) (rest : List LogBlk) (o : Nat) :
    (s.putBlock b rest o).recd.out = rest ∧ (s.putBlock b rest o).recd.off = o + b.bytes.length ∧
      OnlyRegs s (s.putBlock b rest o) [Reg.recOldest.off, Reg.recOldest.off + 4] ∧
      ∃ rs, (s.putBlock b rest o).m = { s.m with memq := s.m.memq ++ rs, arrivals := (s.putBlock b rest o).m.arrivals } ∧
        rs.flatMap MemReq.cells = cellsAt (s.logBase + o) b.bytes ∧ ∀ q ∈ rs, q.src = .master s.pos 40 ∧ q.booked = false := by
  obtain ⟨rs, h1, h2, h3⟩ := s.logPut_posts o b.bytes
  obtain ⟨u, w, x, hu, hf⟩ : ∃ u w x, u = s.logPut o b.bytes ∧ s.putBlock b rest o =
      ({ u with recd := { u.recd with out := rest, off := o + b.bytes.length, blocks := x } } : State).wr64 Reg.recOldest w :=
    ⟨_, _, _, rfl, rfl⟩
  rw [← hu] at h1
  have hm : (s.putBlock b rest o).m = u.m := by
    rw [hf]
    rfl
  refine ⟨by rw [hf]; rfl, by rw [hf]; rfl, fun q hq => ?_, rs, ?_, h2, h3⟩
  · rw [hf, State.rd_wr64_ne _ _ _ _ (fun h => hq (by rw [h]; simp)) (fun h => hq (by rw [h]; simp)), h1]
    rfl
  · rw [hm, h1]

/-- Blocks whose digests have closed are as they are to be written. -/
theorem State.sealBlock_sealed {s : State} (h : ∀ x ∈ s.recd.out, x.pdig.isSome = true) : s.sealBlock = s := by
  have hmap : ∀ (f : LogBlk → LogBlk), (∀ x ∈ s.recd.out, f x = x) →
      ({ s with recd := { s.recd with out := s.recd.out.map f } } : State) = s := by
    intro f hf
    rw [List.map_congr_left hf, List.map_id']
  rw [State.sealBlock]
  exact hmap _ (fun x hx => if_pos (h x hx))

theorem exec_blockWrite {s : State} {b : LogBlk} {rest : List LogBlk} (ho : s.recd.out = b :: rest)
    (hd : ∀ x ∈ s.recd.out, x.pdig.isSome = true) (hc : s.pair.closed = true) :
    exec .blockWrite s = .next (s.writeBlock b rest) := by
  have h1 : (if s.pastCycle 832 && s.mode.running then s.closeDigests else s) = s := by
    rw [State.closeDigests, if_pos hc, ite_self]
  have hb : b.pdig.isSome = true := hd b (ho ▸ List.mem_cons_self)
  have h2 : (if s.pair.closed then s.sealBlock else s) = s := by rw [if_pos hc, State.sealBlock_sealed hd]
  change execBlockWrite s = _
  rw [execBlockWrite, h1, h2, ho]
  exact if_pos hb

/-- A block that fits is put at its place. -/
theorem State.writeBlock_fits {s : State} {b : LogBlk} {rest : List LogBlk} (h : s.recd.off + b.bytes.length ≤ s.logSize) :
    s.writeBlock b rest = s.putBlock b rest s.recd.off :=
  if_pos h

/-- Where a block does not fit, recording stops. -/
theorem State.writeBlock_stops {s : State} {b : LogBlk} {rest : List LogBlk} (h : ¬ s.recd.off + b.bytes.length ≤ s.logSize)
    (hs : s.bit Reg.recCfg 3 = true) :
    s.writeBlock b rest = { (s.setBit Reg.recStat 30 true).stopLog with recd := { s.recd with out := [] } } :=
  (if_neg h).trans (if_pos hs)

/-- A block has been put: the blocks that wait, the place of the next one, and WRAPPED. -/
def Wrapped (rest : List LogBlk) (off : Nat) (t : State) : Prop :=
  t.recd.out = rest ∧ t.recd.off = off ∧ t.bit Reg.recStat 31 = true

theorem wrapped_of_put {u : State} (h : u.bit Reg.recStat 31 = true) (o : Nat) (bs : List Byte) (r : Record) (v : W64) :
    Wrapped r.out r.off (({ u.logPut o bs with recd := r } : State).wr64 Reg.recOldest v) := by
  obtain ⟨rs, h1, -⟩ := u.logPut_posts o bs
  refine ⟨rfl, rfl, ?_⟩
  rw [State.bit, State.fld, State.rd_wr64_ne _ _ _ _ (by decide) (by decide), h1]
  exact h

theorem of_ite_neg {α : Type} {P : α → Prop} {c : Prop} [Decidable c] {a b : α} (h : ¬ c) (hb : P b) : P (if c then a else b) := by
  rwa [if_neg h]

/-- Or it goes on from the region's start. -/
theorem State.writeBlock_wraps {s : State} {b : LogBlk} {rest : List LogBlk} (h : ¬ s.recd.off + b.bytes.length ≤ s.logSize)
    (hs : ¬ s.bit Reg.recCfg 3 = true) : Wrapped rest (0x1000 + b.bytes.length) (s.writeBlock b rest) := by
  rw [State.writeBlock]
  exact of_ite_neg h (of_ite_neg hs (wrapped_of_put (State.bit_setBit _ _ (by decide) _) ..))

theorem State.bits_stopLog (s : State) :
    (s.setBit Reg.recStat 30 true).stopLog.bit Reg.recStat 30 = true ∧
      (s.setBit Reg.recStat 30 true).stopLog.bit Reg.recStat 28 = false := by
  rw [State.stopLog]
  exact ⟨(State.bit_setBit_apart _ Reg.recStat (by decide) (by decide) false).trans (s.bit_setBit Reg.recStat (by decide) true),
    State.bit_setBit _ Reg.recStat (by decide) false⟩

theorem blockWrite_completes {s : State} {b : LogBlk} {rest : List LogBlk} (ho : s.recd.out = b :: rest)
    (hd : ∀ x ∈ s.recd.out, x.pdig.isSome = true) (hc : s.pair.closed = true) :
    (s.recd.off + b.bytes.length ≤ s.logSize →
      ∃ t rs, exec .blockWrite s = .next t ∧ t.recd.out = rest ∧ t.recd.off = s.recd.off + b.bytes.length ∧
        t.m = { s.m with memq := s.m.memq ++ rs, arrivals := t.m.arrivals } ∧
        rs.flatMap (fun r => match r.op with | .write cs => cs | _ => []) = cellsAt (s.logBase + s.recd.off) b.bytes ∧
        ∀ r ∈ rs, r.src = .master s.pos 40 ∧ r.booked = false) ∧
    (s.logSize < s.recd.off + b.bytes.length → s.bit Reg.recCfg 3 = true →
      ∃ t, exec .blockWrite s = .next t ∧ t.recd.out = [] ∧ t.bit Reg.recStat 30 = true ∧ t.bit Reg.recStat 28 = false ∧ t.m = s.m) ∧
    (s.logSize < s.recd.off + b.bytes.length → s.bit Reg.recCfg 3 = false →
      ∃ t, exec .blockWrite s = .next t ∧ t.recd.out = rest ∧ t.recd.off = 0x1000 + b.bytes.length ∧
        t.bit Reg.recStat 31 = true ∧ t.m.mem = s.m.mem) := by
  rw [exec_blockWrite ho hd hc]
  refine ⟨fun h => ?_, fun h hs => ?_, fun h hs => ?_⟩
  · rw [State.writeBlock_fits h]
    obtain ⟨h1, h2, -, rs, h3, h4, h5⟩ := s.putBlock_completes b rest s.recd.off
    exact ⟨_, rs, rfl, h1, h2, h3, h4, h5⟩
  · obtain ⟨h1, h2⟩ := s.bits_stopLog
    obtain ⟨u, hu⟩ : ∃ u, u = (s.setBit Reg.recStat 30 true).stopLog := ⟨_, rfl⟩
    have hm : u.m = s.m := by rw [hu, State.stopLog, State.setBit_m, State.setBit_m]
    rw [State.writeBlock_stops (Nat.not_le.2 h) hs]
    rw [← hu] at h1 h2 ⊢
    exact ⟨_, rfl, rfl, h1, h2, hm⟩
  · obtain ⟨h1, h2, h3⟩ := State.writeBlock_wraps (b := b) (rest := rest) (Nat.not_le.2 h) (by rw [hs]; decide)
    exact ⟨_, rfl, h1, h2, h3, s.mem_writeBlock b rest⟩

/-! ### LOG_ENTRY (R551, R553, R554) -/

theorem exec_logEntry {s : State} {b : PlayBlk} {x : LogEnt} {es : List LogEnt} (hp : s.recd.play = some b)
    (he : b.ents = x :: es) (hm : s.mode = .replay) (hl : b.lap = s.lap) :
    exec .logEntry s = if s.entDue x then
      .next (({ s with recd := { s.recd with play := some { b with ents := es } } } : State).applyEnt x) else .next s := by
  change execLogEntry s = _
  rw [execLogEntry, hp]
  dsimp only
  rw [he, State.nextEnt, hp]
  dsimp only
  rw [he]
  simp only [hm, hl, true_and]

theorem foldl_range_four (f : Nat → Nat) : (List.range 4).foldl (fun a i => a + f i) 0 = f 0 + f 1 + f 2 + f 3 := by
  simp [List.range_succ]

/-- The 256 flags of an EVENTS entry's four words. -/
def flagWord (w : Nat → W64) : BitVec 256 :=
  BitVec.ofNat 256 ((List.range 4).foldl (fun a i => a + (w i).toNat * 2 ^ (64 * i)) 0)

theorem extractLsb'_flagWord {w : Nat → W64} {i : Nat} (h : i < 4) :
    (flagWord w).extractLsb' (64 * i) 64 = w i := by
  apply BitVec.eq_of_toNat_eq
  have h0 := (w 0).isLt
  have h1 := (w 1).isLt
  have h2 := (w 2).isLt
  have h3 := (w 3).isLt
  rw [flagWord, foldl_range_four (fun i => (w i).toNat * 2 ^ (64 * i)), BitVec.extractLsb'_toNat, BitVec.toNat_ofNat,
    Nat.shiftRight_eq_div_pow]
  have hi : i = 0 ∨ i = 1 ∨ i = 2 ∨ i = 3 := by omega
  rcases hi with rfl | rfl | rfl | rfl <;> omega
theorem State.applyEnt_doorbell (s : State) {x : LogEnt} (h : x.ty = 1) :
    s.applyEnt x = if x.a / 64 % 2 = 0 then s.sqTailWrite (x.a % 64) (x.b.setWidth 32)
      else s.cqHeadWrite (x.a % 64) (x.b.setWidth 32) := by
  rw [State.applyEnt, h]
  rfl

theorem State.applyEnt_write (s : State) {x : LogEnt} (h : x.ty = 4) :
    s.applyEnt x = s.regWrite false 34 (x.a % 2 ^ 30) (x.b.setWidth 32) := by
  rw [State.applyEnt, h]
  rfl

theorem State.applyEnt_pin (s : State) {x : LogEnt} (h : x.ty = 6) :
    s.applyEnt x = s.pinEdge (x.a % 16) (x.a / 16 % 2 = 1) x.b.toNat := by
  rw [State.applyEnt, h]
  rfl

theorem State.applyEnt_flit (s : State) {x : LogEnt} (h : x.ty = 9) :
    s.applyEnt x = s.deliverFlit (x.a % 2) (flitOf x.pay) := by
  simp only [State.applyEnt, h]

theorem State.applyEnt_events (s : State) {x : LogEnt} (h : x.ty = 5) :
    s.applyEnt x = { s with pair := { s.pair with recorded := flagWord (fun i => x.pay.getD i 0) } } := by
  rw [State.applyEnt, h]
  rfl

theorem logEntry_completes {s : State} {b : PlayBlk} {x : LogEnt} {es : List LogEnt} (hp : s.recd.play = some b)
    (he : b.ents = x :: es) (hm : s.mode = .replay) (hl : b.lap = s.lap) :
    let s0 : State := { s with recd := { s.recd with play := some { b with ents := es } } }
    (s.entDue x = false → exec .logEntry s = .next s) ∧
    (s.entDue x = true →
      (x.ty = 1 → x.a / 64 % 2 = 0 → exec .logEntry s = .next (s0.sqTailWrite (x.a % 64) (x.b.setWidth 32))) ∧
      (x.ty = 1 → x.a / 64 % 2 = 1 → exec .logEntry s = .next (s0.cqHeadWrite (x.a % 64) (x.b.setWidth 32))) ∧
      (x.ty = 4 → exec .logEntry s = .next (s0.regWrite false 34 (x.a % 2 ^ 30) (x.b.setWidth 32))) ∧
      (x.ty = 5 → ∃ t, exec .logEntry s = .next t ∧ t = { s0 with pair := { s0.pair with recorded := t.pair.recorded } } ∧
        ∀ i, i < 4 → t.pair.recorded.extractLsb' (64 * i) 64 = x.pay.getD i 0) ∧
      (x.ty = 6 → exec .logEntry s = .next (s0.pinEdge (x.a % 16) (x.a / 16 % 2 = 1) x.b.toNat)) ∧
      (x.ty = 9 → exec .logEntry s = .next (s0.deliverFlit (x.a % 2) (flitOf x.pay)))) := by
  rw [exec_logEntry hp he hm hl]
  refine ⟨fun h => by rw [h]; rfl, fun h => ?_⟩
  rw [if_pos h]
  refine ⟨fun ht ha => ?_, fun ht ha => ?_, fun ht => ?_, fun ht => ?_, fun ht => ?_, fun ht => ?_⟩
  · rw [State.applyEnt_doorbell _ ht, if_pos ha]
  · rw [State.applyEnt_doorbell _ ht, if_neg (by omega)]
  · rw [State.applyEnt_write _ ht]
  · have hf : ∀ i, i < 4 → (flagWord (fun i => x.pay.getD i 0)).extractLsb' (64 * i) 64 = x.pay.getD i 0 :=
      fun i => extractLsb'_flagWord
    rw [State.applyEnt_events _ ht]
    generalize flagWord (fun i => x.pay.getD i 0) = f at hf
    exact ⟨_, rfl, rfl, hf⟩
  · rw [State.applyEnt_pin _ ht]
  · rw [State.applyEnt_flit _ ht]

/-! ### FREEZE (R558) -/

theorem freeze_completes {s : State} {m : Nat} (h : s.direct m 0xE00100 = true) (v : BitVec 32) :
    ∃ t, exec (.freeze m v) s = .next t ∧ t = { s with regs := t.regs } ∧ OnlyRegs s t [Reg.recPmcCtl.off] ∧
      t.bit Reg.recPmcCtl 0 = v.getLsbD 0 ∧ t.bit Reg.recPmcCtl 1 = s.bit Reg.recPmcCtl 1 := by
  have hn : s.noted m 0xE00100 v = s := if_neg (by simp)
  have he : exec (.freeze m v) s = .next (s.writeWord false 0xE00100 v) := by
    refine (if_pos (State.accessOk_of_direct h)).trans ?_
    rw [State.gate_direct h, hn]
  have hrow : ∃ r ∈ regRows, findReg 0xE00100 regRows = some (r, 0) ∧ r.width = 32 ∧ BitVec.ofNat 32 r.rst = 0#32 ∧
      (⟨1, 1, .ro, 0x0⟩ : RegField) ∈ r.fields ∧ (⟨0, 0, .rw, 0x0⟩ : RegField) ∈ r.fields := by decide +kernel
  obtain ⟨r, -, hf, hw, h0, hro, hrw⟩ := hrow
  obtain ⟨h1, h2, h3⟩ := s.writeWord_word hf hw v
  rw [h0] at h3
  refine ⟨_, he, h1, h2, ?_, ?_⟩
  · rw [State.bit]
    exact (congrArg (fun n : Nat => decide (n = 1)) (h3 _ hrw)).trans (bitsOf_bit v.toNat 0)
  · exact congrArg (fun n : Nat => decide (n = 1)) (h3 _ hro)

/-- Settles O57: a block by what its put leaves, an entry by its type, FREEZE by its register's access codes. -/
theorem recordUnitComplete : Obligations.RecordUnitComplete :=
  ⟨fun _ _ _ => blockWrite_completes, fun _ _ _ _ => logEntry_completes, fun _ _ v h => freeze_completes h v⟩

end Sys2Proof.Machine

/-!
PROOFS. Keep registers and the flash unit. Settles O36.
-/

namespace Sys2Proof.Machine

/-! ### The Keep tile (R509, R510) -/

/-- What a commit leaves before its value: the count and the mark of an exhausted register. -/
def State.keepCounted (s : State) (i : Nat) : State :=
  let s1 := s.satInc (Reg.keepWcnt i) 31 0
  if 1000000 < (s1.rd (Reg.keepWcnt i)).toNat then s1.setBit Reg.keepStat 30 true else s1

theorem keepWcnt_ne_keepStat {i : Nat} (h : i < 1024) : (Reg.keepWcnt i).off ≠ Reg.keepStat.off := by
  simp only [Reg.keepWcnt, Reg.keepStat]
  omega

theorem State.toNat_rd (s : State) (r : RegRef) : (s.rd r).toNat = s.fld r 31 0 := by
  have h := (s.rd r).isLt
  rw [State.fld, bitsOf, Nat.pow_zero, Nat.div_one]
  exact (Nat.mod_eq_of_lt h).symm

/-- The counter counts up to its greatest value. -/
theorem State.toNat_satInc (s : State) (r : RegRef) :
    ((s.satInc r 31 0).rd r).toNat = Nat.min (2 ^ 32 - 1) ((s.rd r).toNat + 1) := by
  rw [State.toNat_rd, s.fld_satInc r (by decide) (by decide), ← State.toNat_rd]

/-- A bit that is set where a condition holds. -/
theorem State.bit_setWhere (s : State) (r : RegRef) {b : Nat} (hb : b < 32) (c : Prop) [Decidable c] :
    (if c then s.setBit r b true else s).bit r b = (s.bit r b || decide c) := by
  split
  · rename_i h
    rw [s.bit_setBit r hb, decide_eq_true h, Bool.or_true]
  · rename_i h
    rw [decide_eq_false h, Bool.or_false]

theorem State.keepCounted_completes (s : State) {i : Nat} (h : i < 1024) :
    s.keepCounted i = { s with regs := (s.keepCounted i).regs } ∧
      OnlyRegs s (s.keepCounted i) [(Reg.keepWcnt i).off, Reg.keepStat.off] ∧
      ((s.keepCounted i).rd (Reg.keepWcnt i)).toNat = Nat.min (2 ^ 32 - 1) ((s.rd (Reg.keepWcnt i)).toNat + 1) ∧
      (s.keepCounted i).bit Reg.keepStat 30 =
        (s.bit Reg.keepStat 30 || decide (1000000 < ((s.keepCounted i).rd (Reg.keepWcnt i)).toNat)) := by
  obtain ⟨hf, hr⟩ := s.satInc_frame (Reg.keepWcnt i) 31 0
  have hw := s.toNat_satInc (Reg.keepWcnt i)
  obtain ⟨u, hu⟩ : ∃ u, u = s.satInc (Reg.keepWcnt i) 31 0 := ⟨_, rfl⟩
  have hk : s.keepCounted i = if 1000000 < (u.rd (Reg.keepWcnt i)).toNat then u.setBit Reg.keepStat 30 true else u := by
    rw [hu]
    rfl
  rw [← hu] at hf hr hw
  have hrd : (s.keepCounted i).rd (Reg.keepWcnt i) = u.rd (Reg.keepWcnt i) := by
    rw [hk]
    split
    · exact (OnlyRegs.setBit u (List.mem_singleton_self _) 30 true) _ (by simpa using keepWcnt_ne_keepStat h)
    · rfl
  have hm : OnlyRegs s u [(Reg.keepWcnt i).off, Reg.keepStat.off] := hr.mono (by simp)
  refine ⟨?_, ?_, by rw [hrd, hw], ?_⟩
  · rw [hk]
    split
    · rw [State.setBit_frame, hf]
    · exact hf
  · rw [hk]
    split
    · exact hm.trans (OnlyRegs.setBit u (by simp) 30 true)
    · exact hm
  · rw [hrd, hk, State.bit_setWhere _ _ (by decide)]
    congr 1
    exact hr.bit (by simpa using (keepWcnt_ne_keepStat h).symm) 30

theorem State.keepCommit_eq (s : State) (i : Nat) (v : W64) (verified : Bool) :
    s.keepCommit i v verified = if verified then (s.keepCounted i).wr64 (Reg.keepReg i) v
      else (((((s.keepCounted i).wr64 (Reg.keepReg i) (Config.keepFailed (s.keepCounted i).freeCtr)).bump).setBit Reg.keepStat 31
        true).setFld Reg.keepStat 9 0 i).fault 0x02 (originOf s.pos 6 2) 0 0 0 0 := rfl

/-- A Keep register, its counter and the tile's status stand apart. -/
theorem keepReg_apart {i : Nat} (h : i < 1024) :
    (Reg.keepWcnt i).off ≠ (Reg.keepReg i).off ∧ (Reg.keepWcnt i).off ≠ (Reg.keepReg i).off + 4 ∧
      Reg.keepStat.off ≠ (Reg.keepReg i).off ∧ Reg.keepStat.off ≠ (Reg.keepReg i).off + 4 := by
  simp only [Reg.keepWcnt, Reg.keepReg, Reg.keepStat]
  omega

theorem OnlyRegs.wr64 (s : State) {r : RegRef} {offs : List Nat} (h : r.off ∈ offs) (h' : r.off + 4 ∈ offs) (v : W64) :
    OnlyRegs s (s.wr64 r v) offs :=
  (OnlyRegs.wr s h _).trans (OnlyRegs.wr (r := r.high) _ h' _)

/-- A commit whose verification holds. -/
theorem State.keepCommit_verified (s : State) {i : Nat} (h : i < 1024) (v : W64) :
    (s.keepCommit i v true).rd64 (Reg.keepReg i) = v ∧
      ((s.keepCommit i v true).rd (Reg.keepWcnt i)).toNat = Nat.min (2 ^ 32 - 1) ((s.rd (Reg.keepWcnt i)).toNat + 1) ∧
      (s.keepCommit i v true).bit Reg.keepStat 30 =
        (s.bit Reg.keepStat 30 || decide (1000000 < ((s.keepCommit i v true).rd (Reg.keepWcnt i)).toNat)) ∧
      OnlyRegs s (s.keepCommit i v true)
        [(Reg.keepReg i).off, (Reg.keepReg i).off + 4, (Reg.keepWcnt i).off, Reg.keepStat.off] ∧
      s.keepCommit i v true = { s with regs := (s.keepCommit i v true).regs } := by
  obtain ⟨hf, hr, hw, hb⟩ := s.keepCounted_completes h
  obtain ⟨ha1, ha2, ha3, ha4⟩ := keepReg_apart h
  have he : s.keepCommit i v true = (s.keepCounted i).wr64 (Reg.keepReg i) v := s.keepCommit_eq i v true
  obtain ⟨u, hu⟩ : ∃ u, u = s.keepCounted i := ⟨_, rfl⟩
  rw [← hu] at hf hr hw hb he
  have hwc : (u.wr64 (Reg.keepReg i) v).rd (Reg.keepWcnt i) = u.rd (Reg.keepWcnt i) := State.rd_wr64_ne _ _ _ _ ha1 ha2
  have hks : (u.wr64 (Reg.keepReg i) v).rd Reg.keepStat = u.rd Reg.keepStat := State.rd_wr64_ne _ _ _ _ ha3 ha4
  rw [he]
  refine ⟨State.rd64_wr64 .., by rw [hwc, hw], ?_, ?_, ?_⟩
  · rw [hwc, ← hb, State.bit, State.bit, State.fld, State.fld, hks]
  · exact (hr.mono (by simp)).trans (OnlyRegs.wr64 u (by simp) (by simp) v)
  · rw [hf]
    rfl

/-- A commit whose verification fails. -/
theorem State.keepCommit_failed (s : State) {i : Nat} (h : i < 1024) (v : W64) :
    (s.keepCommit i v false).rd64 (Reg.keepReg i) = Config.keepFailed s.freeCtr ∧
      (s.keepCommit i v false).bit Reg.keepStat 31 = true ∧ (s.keepCommit i v false).fld Reg.keepStat 9 0 = i ∧
      (s.keepCommit i v false).m.mem = s.m.mem := by
  obtain ⟨hf, -, -, -⟩ := s.keepCounted_completes h
  obtain ⟨ha1, ha2, ha3, ha4⟩ := keepReg_apart h
  have hrange := keepReg_range h
  obtain ⟨u, hu⟩ : ∃ u, u = ((s.keepCounted i).wr64 (Reg.keepReg i) (Config.keepFailed (s.keepCounted i).freeCtr)).bump := ⟨_, rfl⟩
  obtain ⟨w, hw⟩ : ∃ w, w = (u.setBit Reg.keepStat 31 true).setFld Reg.keepStat 9 0 i := ⟨_, rfl⟩
  have he : s.keepCommit i v false = w.fault 0x02 (originOf s.pos 6 2) 0 0 0 0 := by
    rw [hw, hu, s.keepCommit_eq i v false]
    exact if_neg Bool.false_ne_true
  have hfl : Filed w (s.keepCommit i v false) := he ▸ Filed.fault ..
  have hreg : OnlyRegs u w [Reg.keepStat.off] := by
    rw [hw]
    exact (OnlyRegs.setBit u (List.mem_singleton_self _) 31 true).trans (OnlyRegs.setFld _ (List.mem_singleton_self _) 9 0 i)
  have hu64 : u.rd64 (Reg.keepReg i) = Config.keepFailed s.freeCtr := by
    have hfree : (s.keepCounted i).freeCtr = s.freeCtr := by rw [hf]
    have hb : u.rd64 (Reg.keepReg i) =
        ((s.keepCounted i).wr64 (Reg.keepReg i) (Config.keepFailed (s.keepCounted i).freeCtr)).rd64 (Reg.keepReg i) := by
      rw [hu, State.rd64, State.rd_bump, State.rd_bump]
      rfl
    rw [hb, State.rd64_wr64, hfree]
  have hst : Reg.keepStat.off ∉ faultOffs := notMem_faultOffs (by decide)
  refine ⟨?_, ?_, ?_, ?_⟩
  · rw [hfl.regs.rd64 (notMem_faultOffs (by omega)) (notMem_faultOffs (by omega)),
      hreg.rd64 (by simpa using ha3.symm) (by simpa using ha4.symm), hu64]
  · rw [hfl.regs.bit hst, hw, State.bit_setFld _ _ (by decide) (by decide), if_neg (by decide), State.bit_setBit _ _ (by decide)]
  · rw [hfl.regs.fld hst, hw, State.fld_setFld _ _ (by decide) (by decide)]
    exact Nat.mod_eq_of_lt h
  · rw [hfl.m, hw, State.setFld_m, State.setBit_m, hu, State.bump_m, State.wr64_m, hf]

theorem exec_keepReg {s : State} {m i : Nat} (hi : BitVec 32) (verified : Bool) (h : i < 1024)
    (hd : s.direct m (Reg.keepReg i).off = true) (hm : keepMaster m i = true)
    (hdbg : m = 41 → (s.noted m ((Reg.keepReg i).off + 4) hi).dbgWrites = true) :
    let n := s.noted m ((Reg.keepReg i).off + 4) hi
    exec (.keepReg m i hi verified) s = .next ((n.unstage m (Reg.keepReg i).off).keepCommit i
      (hi ++ n.stagedLow m (Reg.keepReg i).off (n.rd (Reg.keepReg i))) verified) := by
  intro n
  obtain ⟨hlo, hhi⟩ := keepReg_range h
  have hblk : ownSideBlock ((Reg.keepReg i).off + 4) = ownSideBlock (Reg.keepReg i).off := by
    have h1 : ((Reg.keepReg i).off + 4) / 0x100000 = 1 := by omega
    have h2 : (Reg.keepReg i).off / 0x100000 = 1 := by omega
    rw [ownSideBlock, ownSideBlock, h1, h2]
  have hd4 : s.direct m ((Reg.keepReg i).off + 4) = true := by
    rw [State.direct_congr hblk (by omega), hd]
  have hok : s.accessOk m 0 4 = true ∧ i < 1024 := by
    refine ⟨?_, h⟩
    obtain ⟨h1, h2, h3, -⟩ := State.accessOk_iff.1 (State.accessOk_of_direct hd)
    exact State.accessOk_iff.2 ⟨h1, h2, h3, rfl⟩
  have hno : ¬ (decide (m = 41) && !n.dbgWrites) = true := by
    rw [Bool.and_eq_true, decide_eq_true_eq]
    rintro ⟨h41, hw⟩
    rw [hdbg h41] at hw
    cases hw
  change execKeepReg m i hi verified s = _
  rw [execKeepReg, if_pos hok, State.gate_direct hd4]
  change Host.Outcome.next (n.keepWrite m i hi verified) = _
  rw [State.keepWrite, hm, if_neg hno]
  rfl

theorem keepComplete : Claims.KeepComplete := by
  intro s m i hi h hd hm n hdbg
  obtain ⟨u, hu⟩ : ∃ u, u = n.unstage m (Reg.keepReg i).off := ⟨_, rfl⟩
  have huf : u = { n with staged := u.staged } := by
    rw [hu]
    rfl
  have hrd : ∀ r, u.rd r = n.rd r := fun r => by rw [huf]; rfl
  have hreg : ∀ t offs, OnlyRegs u t offs → OnlyRegs n t offs := fun t offs k r hr => (k r hr).trans (hrd r)
  refine ⟨?_, ?_⟩
  · obtain ⟨h1, h2, h3, h4, h5⟩ := u.keepCommit_verified h (hi ++ n.stagedLow m (Reg.keepReg i).off (n.rd (Reg.keepReg i)))
    refine ⟨_, exec_keepReg hi true h hd hm hdbg, ?_⟩
    rw [← hu]
    refine ⟨h1, by rw [h2, hrd], ?_, hreg _ _ h4, ?_⟩
    · rw [h3, State.bit, State.bit, State.fld, State.fld, hrd]
    · rw [h5, huf]
  · obtain ⟨h1, h2, h3, h4⟩ := u.keepCommit_failed h (hi ++ n.stagedLow m (Reg.keepReg i).off (n.rd (Reg.keepReg i)))
    have hmem : (s.noted m ((Reg.keepReg i).off + 4) hi).m.mem = s.m.mem := by
      rw [(s.noted_frame m ((Reg.keepReg i).off + 4) hi).1]
    have hfree : u.freeCtr = n.freeCtr := by rw [huf]
    refine ⟨_, exec_keepReg hi false h hd hm hdbg, ?_⟩
    rw [← hu]
    have hum : u.m.mem = s.m.mem := by
      rw [huf]
      exact hmem
    rw [hfree] at h1
    rw [hum] at h4
    exact ⟨h1, h2, h3, h4⟩

/-! ### The flash unit (R516) -/

theorem exec_flash {s : State} {m op : Nat} {c : Nat → Instr} (hd : s.direct m 0x100014 = true)
    (hc : (op, c) ∈ [(1, Instr.flashRead), (2, Instr.flashProgram), (3, Instr.flashErase)]) :
    exec (c m) s = .next ((s.noted m 0x100014 (BitVec.ofNat 32 op)).flashCmdWrite (BitVec.ofNat 32 op)) := by
  have hw : ∀ v : BitVec 32, s.mgmtWrite m 0x100014 v = (s.noted m 0x100014 v).flashCmdWrite v := by
    intro v
    have hh : half64 0x100014 = none := by decide +kernel
    rw [State.mgmtWrite_direct hd (by decide) (fun h => absurd h.1 (by decide)), State.regWrite, hh]
    dsimp only
    rw [if_neg (by decide), if_pos rfl]
  have hok := State.accessOk_of_direct hd
  simp only [List.mem_cons, Prod.mk.injEq, List.not_mem_nil, or_false] at hc
  rcases hc with ⟨rfl, rfl⟩ | ⟨rfl, rfl⟩ | ⟨rfl, rfl⟩
  · exact (if_pos hok).trans (congrArg Host.Outcome.next (hw 1))
  · exact (if_pos hok).trans (congrArg Host.Outcome.next (hw 2))
  · exact (if_pos hok).trans (congrArg Host.Outcome.next (hw 3))

/-- A command that an idle unit takes. -/
theorem State.flashCmdWrite_taken {s : State} {op : Nat} (hop : 1 ≤ op ∧ op ≤ 3) (hm : s.mode = .service)
    (hb : s.bit Reg.dawnFlashCmd 31 = false) (hp : s.flashProtected (s.rd Reg.dawnFlashAddr).toNat = false)
    (ha : (s.rd Reg.dawnFlashAddr).toNat < 0x8000000) :
    s.flashCmdWrite (BitVec.ofNat 32 op) = (s.setBit Reg.dawnFlashCmd 31 true).setFld Reg.dawnFlashCmd 1 0 op := by
  have hv : bitsOf (BitVec.ofNat 32 op).toNat 1 0 = op := by
    rw [bitsOf_ofNat (by decide), bitsOf, Nat.pow_zero, Nat.div_one]
    exact Nat.mod_eq_of_lt (by omega)
  have h0 : ¬ (s.bit Reg.dawnFlashCmd 31 || decide (op = 0)) = true := by
    rw [hb, decide_eq_false (by omega)]
    decide
  rw [State.flashCmdWrite, hv]
  dsimp only
  rw [if_neg h0, if_neg (not_not.2 hm), hp, if_neg (by decide), if_neg (by omega)]

theorem flashTaken_completes {s : State} {m op : Nat} {c : Nat → Instr} (hd : s.direct m 0x100014 = true) (hm : s.mode = .service)
    (hc : (op, c) ∈ [(1, Instr.flashRead), (2, Instr.flashProgram), (3, Instr.flashErase)])
    (hb : (s.noted m 0x100014 (BitVec.ofNat 32 op)).bit Reg.dawnFlashCmd 31 = false)
    (hp : (s.noted m 0x100014 (BitVec.ofNat 32 op)).flashProtected
      ((s.noted m 0x100014 (BitVec.ofNat 32 op)).rd Reg.dawnFlashAddr).toNat = false)
    (ha : ((s.noted m 0x100014 (BitVec.ofNat 32 op)).rd Reg.dawnFlashAddr).toNat < 0x8000000) :
    ∃ t, exec (c m) s = .next t ∧ t.bit Reg.dawnFlashCmd 31 = true ∧ t.fld Reg.dawnFlashCmd 1 0 = op ∧
      t = { s.noted m 0x100014 (BitVec.ofNat 32 op) with regs := t.regs } ∧
      OnlyRegs (s.noted m 0x100014 (BitVec.ofNat 32 op)) t [Reg.dawnFlashCmd.off] := by
  have hop : 1 ≤ op ∧ op ≤ 3 := by
    simp only [List.mem_cons, Prod.mk.injEq, List.not_mem_nil, or_false] at hc
    omega
  have he := exec_flash hd hc
  have hmode : (s.noted m 0x100014 (BitVec.ofNat 32 op)).mode = .service := by
    rw [(s.noted_frame m 0x100014 (BitVec.ofNat 32 op)).1]
    exact hm
  generalize s.noted m 0x100014 (BitVec.ofNat 32 op) = n at he hb hp ha hmode ⊢
  rw [State.flashCmdWrite_taken hop hmode hb hp ha] at he
  refine ⟨_, he, ?_, ?_, ?_, ?_⟩
  · rw [State.bit_setFld _ _ (by decide) (by decide), if_neg (by decide), State.bit_setBit _ _ (by decide)]
  · rw [State.fld_setFld _ _ (by decide) (by decide)]
    exact Nat.mod_eq_of_lt (by omega)
  · rw [State.setFld_frame, State.setBit_frame]
  · exact (OnlyRegs.setBit n (List.mem_singleton_self _) 31 true).trans (OnlyRegs.setFld _ (List.mem_singleton_self _) 1 0 op)

/-- The unit after a command: idle, with its status. -/
def State.flashIdle (s : State) (n : Nat) : State :=
  ((s.setBit Reg.dawnFlashCmd 31 false).setFld Reg.dawnFlashCmd 1 0 0).setFld Reg.dawnFlashCmd 30 28 n

theorem State.flashIdle_completes (s : State) {n : Nat} (h : n < 8) :
    s.flashIdle n = { s with regs := (s.flashIdle n).regs } ∧ OnlyRegs s (s.flashIdle n) [Reg.dawnFlashCmd.off] ∧
      (s.flashIdle n).bit Reg.dawnFlashCmd 31 = false ∧ (s.flashIdle n).fld Reg.dawnFlashCmd 30 28 = n := by
  rw [State.flashIdle]
  refine ⟨?_, ?_, ?_, ?_⟩
  · rw [State.setFld_frame, State.setFld_frame, State.setBit_frame]
  · exact ((OnlyRegs.setBit s (List.mem_singleton_self _) 31 false).trans (OnlyRegs.setFld _ (List.mem_singleton_self _) 1 0 0)).trans
      (OnlyRegs.setFld _ (List.mem_singleton_self _) 30 28 n)
  · rw [State.bit_setFld _ _ (by decide) (by decide), if_neg (by decide), State.bit_setFld _ _ (by decide) (by decide),
      if_neg (by decide), State.bit_setBit _ _ (by decide)]
  · rw [State.fld_setFld _ _ (by decide) (by decide)]
    exact Nat.mod_eq_of_lt h

theorem exec_flashCommandEnd {s : State} (hw : s.windowUp = true) (hb : s.bit Reg.dawnFlashCmd 31 = true) (ok : Bool) :
    exec (.flashCommandEnd ok) s = .next ((s.flashDone ok).flashIdle (if ok then 0 else 3)) :=
  if_pos ⟨hw, hb⟩

/-- A read of a joined map looks at the first part that lists the key. -/
theorem SMap.get_append {α : Type} (d : α) (l r : SMap α) (k : Nat) :
    SMap.get d (l ++ r) k = if k ∈ l.map (fun p => p.1) then SMap.get d l k else SMap.get d r k := by
  induction l with
  | nil => rfl
  | cons p t ih =>
    obtain ⟨j, v⟩ := p
    by_cases hj : j = k
    · subst hj
      simp [SMap.get]
    · have hk : k ∈ ((j, v) :: t).map (fun p => p.1) ↔ k ∈ t.map (fun p => p.1) := by
        rw [List.map_cons, List.mem_cons]
        exact or_iff_right (Ne.symm hj)
      rw [List.cons_append, SMap.get, if_neg hj, ih, SMap.get, if_neg hj]
      simp only [hk]

theorem get_cellsAt (d : Byte) (off : Nat) (bs : List Byte) {k : Nat} (h : off ≤ k) :
    SMap.get d (cellsAt off bs) k = bs.getD (k - off) d := by
  induction bs generalizing off with
  | nil => rfl
  | cons b t ih =>
    by_cases hk : off = k
    · subst hk
      simp [cellsAt, SMap.get]
    · have hs : k - off = (k - (off + 1)) + 1 := by omega
      rw [cellsAt, SMap.get, if_neg hk, ih (off + 1) (by omega), hs, List.getD_cons_succ]

/-- Leaving out the entries of the default changes nothing that is read, where each key is listed once. -/
theorem get_filter_cellsAt (d : Byte) (off : Nat) (bs : List Byte) (k : Nat) :
    SMap.get d ((cellsAt off bs).filter (fun p => p.2 ≠ d)) k = SMap.get d (cellsAt off bs) k := by
  induction bs generalizing off with
  | nil => rfl
  | cons b t ih =>
    have hlt : ∀ {j}, j ≤ off → SMap.get d (cellsAt (off + 1) t) j = d := by
      intro j hj
      refine SMap.get_of_not_key d fun hm => ?_
      obtain ⟨c, hc, rfl⟩ := List.mem_map.1 hm
      have := (cellsAt_range hc).1
      omega
    rw [cellsAt, List.filter_cons]
    by_cases hb : b = d
    · rw [if_neg (by simpa using hb), ih, SMap.get]
      split
      · rename_i hk
        rw [hlt (Nat.le_of_eq hk.symm), hb]
      · rfl
    · rw [if_pos (by simpa using hb), SMap.get, SMap.get, ih]

/-- The flash after a run of its bytes has been replaced. -/
theorem State.flashAt_flashPut (s : State) (a : Nat) (bs : List Byte) (k : Nat) :
    (s.flashPut a bs).flashAt k = if a ≤ k ∧ k < a + bs.length then bs.getD (k - a) 0xFF else s.flashAt k := by
  have hkey : ∀ (m : SMap Byte) (p : Nat → Bool), p k = true →
      (k ∈ (m.filter (fun q => p q.1)).map (fun q => q.1) ↔ k ∈ m.map (fun q => q.1)) := by
    intro m p hp
    simp only [List.mem_map, List.mem_filter]
    exact ⟨fun ⟨q, hq, he⟩ => ⟨q, hq.1, he⟩, fun ⟨q, hq, he⟩ => ⟨q, ⟨hq, he ▸ hp⟩, he⟩⟩
  have hgone : ∀ (m : SMap Byte) (p : Nat → Bool), p k = false → k ∉ (m.filter (fun q => p q.1)).map (fun q => q.1) := by
    intro m p hp hm
    obtain ⟨q, hq, he⟩ := List.mem_map.1 hm
    rw [← he, (List.mem_filter.1 hq).2] at hp
    cases hp
  have hcell : ¬ (a ≤ k ∧ k < a + bs.length) → k ∉ ((cellsAt a bs).filter (fun p => p.2 ≠ 0xFF)).map (fun q => q.1) := by
    intro hn hm
    obtain ⟨q, hq, rfl⟩ := List.mem_map.1 hm
    exact hn (cellsAt_range (List.mem_filter.1 hq).1)
  rw [State.flashAt, State.flashAt, State.flashPut, List.append_assoc, SMap.get_append, SMap.get_append]
  by_cases hlow : k < a
  · have hout : ¬ (a ≤ k ∧ k < a + bs.length) := by omega
    have hmem := hkey s.flash (fun x => decide (x < a)) (decide_eq_true hlow)
    refine Eq.trans ?_ (if_neg hout).symm
    by_cases hm : k ∈ s.flash.map (fun q => q.1)
    · refine (if_pos (hmem.2 hm)).trans ?_
      exact SMap.get_filter_ne 0xFF s.flash (fun p : Nat × Byte => decide (p.1 < a)) k (fun _ => decide_eq_true hlow)
    · refine (if_neg (fun h => hm (hmem.1 h))).trans ((if_neg (hcell hout)).trans ?_)
      rw [SMap.get_of_not_key _ hm]
      exact SMap.get_of_not_key _ (hgone s.flash (fun x => decide (a + bs.length ≤ x)) (decide_eq_false (by omega)))
  · refine (if_neg (hgone s.flash (fun x => decide (x < a)) (decide_eq_false hlow))).trans ?_
    by_cases hin : k < a + bs.length
    · refine Eq.trans ?_ (if_pos ⟨Nat.not_lt.1 hlow, hin⟩).symm
      rw [← get_cellsAt 0xFF a bs (Nat.not_lt.1 hlow), ← get_filter_cellsAt 0xFF a bs k]
      split
      · rfl
      · rename_i hm
        rw [SMap.get_of_not_key _ hm]
        exact SMap.get_of_not_key _ (hgone s.flash (fun x => decide (a + bs.length ≤ x)) (decide_eq_false (by omega)))
    · have hout : ¬ (a ≤ k ∧ k < a + bs.length) := fun h => hin h.2
      refine ((if_neg (hcell hout)).trans ?_).trans (if_neg hout).symm
      exact SMap.get_filter_ne 0xFF s.flash (fun p : Nat × Byte => decide (a + bs.length ≤ p.1)) k
        (fun _ => decide_eq_true (by omega))

/-! ### What each command leaves (R516) -/

theorem bitsOf_ofLe (bs : List Byte) (i : Nat) : bitsOf (ofLe bs) (8 * i + 7) (8 * i) = (bs.getD i 0).toNat := by
  have hw : ∀ n, bitsOf n (8 * i + 7) (8 * i) = n / 2 ^ (8 * i) % 256 := fun n => by
    rw [bitsOf, show 8 * i + 7 + 1 - 8 * i = 8 by omega]
    rfl
  rw [hw]
  clear hw
  induction bs generalizing i with
  | nil => simp [ofLe]
  | cons b t ih =>
    have hb := b.isLt
    cases i with
    | zero =>
      simp only [ofLe, Nat.mul_zero, Nat.pow_zero, Nat.div_one, List.getD_cons_zero]
      omega
    | succ i =>
      rw [List.getD_cons_succ, ← ih i, ofLe, show 8 * (i + 1) = 8 + 8 * i by omega, Nat.pow_add, ← Nat.div_div_eq_div_mul]
      congr 2
      omega

/-- The page in the buffer: the word `k` of the buffer holds the four bytes from `4 k` on. -/
theorem take_drop_map_range (f : Nat → Byte) {n k : Nat} (h : 4 * k + 4 ≤ n) {i : Nat} (hi : i < 4) :
    ((((List.range n).map f).drop (4 * k)).take 4).getD i 0 = f (4 * k + i) := by
  have hlen : 4 * k + i < n := by omega
  rw [List.getD_eq_getElem?_getD, List.getElem?_take_of_lt hi, List.getElem?_drop, List.getElem?_map, List.getElem?_range hlen]
  rfl

theorem State.flashDone_read {s : State} (h : s.fld Reg.dawnFlashCmd 1 0 = 1) :
    s.flashDone true = (List.range 64).foldl (fun u k => u.wr (Reg.dawnFlashBuf k) (BitVec.ofNat 32 (ofLe
      ((((List.range 256).map (fun i => s.flashAt ((s.rd Reg.dawnFlashAddr).toNat / 256 * 256 + i))).drop (4 * k)).take 4)))) s := by
  rw [State.flashDone, h]
  rfl

theorem State.flashDone_program {s : State} (h : s.fld Reg.dawnFlashCmd 1 0 = 2) :
    s.flashDone true = s.flashPut ((s.rd Reg.dawnFlashAddr).toNat / 256 * 256)
      ((List.range 256).map (fun i => s.flashBuf.getD i 0)) := by
  rw [State.flashDone, h]
  rfl

theorem State.flashDone_erase {s : State} (h : s.fld Reg.dawnFlashCmd 1 0 = 3) :
    s.flashDone true = s.flashPut ((s.rd Reg.dawnFlashAddr).toNat / 65536 * 65536) ((List.range 65536).map (fun _ => 0xFF)) := by
  rw [State.flashDone, h]
  rfl

/-- Filling the buffer leaves the flash. -/
theorem State.flash_fillBuffer (s : State) (f : Nat → BitVec 32) (ks : List Nat) :
    (ks.foldl (fun u k => u.wr (Reg.dawnFlashBuf k) (f k)) s).flash = s.flash := by
  induction ks generalizing s with
  | nil => rfl
  | cons k ks ih => exact ih (s.wr _ _)

/-- A page read back: each byte of the buffer. -/
theorem State.readPage_buffer (s : State) (f : Nat → Byte) {k i : Nat} (hk : k < 64) (hi : i < 4) :
    bitsOf (((List.range 64).foldl (fun u k => u.wr (Reg.dawnFlashBuf k)
      (BitVec.ofNat 32 (ofLe ((((List.range 256).map f).drop (4 * k)).take 4)))) s).rd (Reg.dawnFlashBuf k)).toNat (8 * i + 7) (8 * i) =
      (f (4 * k + i)).toNat := by
  rw [State.rd_foldl_wr (fun j k hjk => by simp only [Reg.dawnFlashBuf]; omega)
    (fun k => BitVec.ofNat 32 (ofLe ((((List.range 256).map f).drop (4 * k)).take 4))) _ s (.inl (List.mem_range.2 hk)),
    bitsOf_ofNat (by omega), bitsOf_ofLe, take_drop_map_range f (by omega) hi]

/-- A block of a size that is put where it lies: its bytes read as put, all others as before. -/
theorem State.flashAt_putBlock (s : State) (f : Nat → Byte) {n : Nat} (hn : 0 < n) (a k : Nat) :
    (s.flashPut (a / n * n) ((List.range n).map f)).flashAt k = if k / n = a / n then f (k % n) else s.flashAt k := by
  have hlen : ((List.range n).map f).length = n := by rw [List.length_map, List.length_range]
  rw [State.flashAt_flashPut, hlen]
  have hdiv : (a / n * n ≤ k ∧ k < a / n * n + n) ↔ k / n = a / n := by
    constructor
    · rintro ⟨h1, h2⟩
      exact Nat.div_eq_of_lt_le h1 (by rw [Nat.succ_mul]; exact h2)
    · intro h
      rw [← h]
      exact ⟨Nat.div_mul_le_self k n, Nat.lt_div_mul_add hn⟩
  by_cases hk : k / n = a / n
  · have hmod : k - a / n * n = k % n := by
      rw [← hk, Nat.mul_comm]
      exact (Nat.mod_eq_sub_mul_div ..).symm
    rw [if_pos (hdiv.2 hk), if_pos hk, hmod, List.getD_eq_getElem?_getD, List.getElem?_map, List.getElem?_range (Nat.mod_lt k hn)]
    rfl
  · rw [if_neg (fun h => hk (hdiv.1 h)), if_neg hk]

theorem flashCommandEnd_completes {s : State} (hw : s.windowUp = true) (hb : s.bit Reg.dawnFlashCmd 31 = true) :
    ∃ t, exec (.flashCommandEnd true) s = .next t ∧ t.bit Reg.dawnFlashCmd 31 = false ∧ t.fld Reg.dawnFlashCmd 30 28 = 0 ∧
      (s.fld Reg.dawnFlashCmd 1 0 = 1 → t.flash = s.flash ∧
        ∀ k, k < 64 → ∀ i, i < 4 →
          bitsOf (t.rd (Reg.dawnFlashBuf k)).toNat (8 * i + 7) (8 * i) =
            (s.flashAt ((s.rd Reg.dawnFlashAddr).toNat / 256 * 256 + 4 * k + i)).toNat) ∧
      (s.fld Reg.dawnFlashCmd 1 0 = 2 → ∀ a,
        t.flashAt a = if a / 256 = (s.rd Reg.dawnFlashAddr).toNat / 256 then s.flashBuf.getD (a % 256) 0 else s.flashAt a) ∧
      (s.fld Reg.dawnFlashCmd 1 0 = 3 → ∀ a,
        t.flashAt a = if a / 65536 = (s.rd Reg.dawnFlashAddr).toNat / 65536 then 0xFF else s.flashAt a) := by
  obtain ⟨hf, hr, h1, h2⟩ := (s.flashDone true).flashIdle_completes (show 0 < 8 by decide)
  have hflash : ((s.flashDone true).flashIdle 0).flash = (s.flashDone true).flash := by rw [hf]
  have hat : ∀ a, ((s.flashDone true).flashIdle 0).flashAt a = (s.flashDone true).flashAt a := fun a => by
    rw [State.flashAt, State.flashAt, hflash]
  refine ⟨_, exec_flashCommandEnd hw hb true, h1, h2, fun h => ⟨?_, fun k hk i hi => ?_⟩, fun h a => ?_, fun h a => ?_⟩
  · refine hflash.trans ?_
    rw [State.flashDone_read h]
    exact s.flash_fillBuffer _ _
  · have hne : (Reg.dawnFlashBuf k).off ∉ [Reg.dawnFlashCmd.off] := by
      simp only [Reg.dawnFlashBuf, Reg.dawnFlashCmd, List.mem_singleton]
      omega
    have hrd : ((s.flashDone true).flashIdle 0).rd (Reg.dawnFlashBuf k) = (s.flashDone true).rd (Reg.dawnFlashBuf k) := hr _ hne
    refine (congrArg (fun x : BitVec 32 => bitsOf x.toNat (8 * i + 7) (8 * i)) hrd).trans ?_
    rw [State.flashDone_read h, s.readPage_buffer _ hk hi, Nat.add_assoc]
  · refine (hat a).trans ?_
    rw [State.flashDone_program h, s.flashAt_putBlock _ (by decide)]
  · refine (hat a).trans ?_
    rw [State.flashDone_erase h, s.flashAt_putBlock _ (by decide)]

theorem flashComplete : Claims.FlashComplete := by
  refine ⟨fun s m op c hd hm hc hb hp ha => flashTaken_completes hd hm hc hb hp ha, fun s => flashCommandEnd_completes,
    fun s hw hb => ?_⟩
  obtain ⟨-, -, h1, h2⟩ := (s.flashDone false).flashIdle_completes (show 3 < 8 by decide)
  exact ⟨_, exec_flashCommandEnd hw hb false, h1, h2⟩

/-- Settles O36: a Keep register by its commit, the flash unit by what it leaves of a page or sector. -/
theorem keepAndFlash : Obligations.KeepAndFlash := ⟨keepComplete, flashComplete⟩

end Sys2Proof.Machine

/-!
PROOFS. Doorbells and queue control. Settles O51.
-/

namespace Sys2Proof.Machine

/-! ### Writes of the host port's registers that take effect (R476, R477) -/

/-- Access to a register of the window is access to the window. -/
theorem State.accessOk_window {s : State} {m off q : Nat} (hd : s.direct m off = true) (hq : q < 64) :
    s.accessOk m 0 4 = true ∧ q < 64 := by
  obtain ⟨h1, h2, h3, -⟩ := State.accessOk_iff.1 (State.accessOk_of_direct hd)
  exact ⟨State.accessOk_iff.2 ⟨h1, h2, h3, rfl⟩, hq⟩

theorem exec_hostSqTail {s : State} {m q : Nat} (hq : q < 64) (hd : s.direct m (Reg.hostSqTail q).off = true) (v : BitVec 32) :
    exec (.hostSqTail m q v) s = .next ((s.noted m (Reg.hostSqTail q).off v).sqTailWrite q v) := by
  change execHostSqTail m q v s = _
  rw [execHostSqTail, if_pos (State.accessOk_window hd hq), State.gate_direct hd]

theorem exec_hostCqHead {s : State} {m q : Nat} (hq : q < 64) (hd : s.direct m (Reg.hostCqHead q).off = true) (v : BitVec 32) :
    exec (.hostCqHead m q v) s = .next ((s.noted m (Reg.hostCqHead q).off v).cqHeadWrite q v) := by
  change execHostCqHead m q v s = _
  rw [execHostCqHead, if_pos (State.accessOk_window hd hq), State.gate_direct hd]

theorem exec_hostSqCfg {s : State} {m q : Nat} (hq : q < 64) (hd : s.direct m (Reg.hostSqCfg q).off = true) (v : BitVec 32) :
    exec (.hostSqCfg m q v) s = .next ((s.noted m (Reg.hostSqCfg q).off v).sqCfgWrite q v) := by
  change execHostSqCfg m q v s = _
  rw [execHostSqCfg, if_pos (State.accessOk_window hd hq), State.gate_direct hd]

theorem exec_hostCqCfg {s : State} {m q : Nat} (hq : q < 64) (hd : s.direct m (Reg.hostCqCfg q).off = true) (v : BitVec 32) :
    exec (.hostCqCfg m q v) s = .next ((s.noted m (Reg.hostCqCfg q).off v).cqCfgWrite q v) := by
  change execHostCqCfg m q v s = _
  rw [execHostCqCfg, if_pos (State.accessOk_window hd hq), State.gate_direct hd]

theorem exec_purge {s : State} {m q : Nat} (hq : q < 64) (hd : s.direct m (Reg.hostCqCfg q).off = true) :
    exec (.purge m q) s =
      .next ((s.noted m (Reg.hostCqCfg q).off (s.rd (Reg.hostCqCfg q) ||| 0x40000000)).purgeCq q) := by
  change execPurge m q s = _
  rw [execPurge, if_pos (State.accessOk_window hd hq), State.gate_direct hd]

/-- The registers of the host port stand apart from the Record Unit's status. -/
theorem hostSqCfg_ne_recStat {q : Nat} (h : q < 64) : (Reg.hostSqCfg q).off ∉ [Reg.recStat.off] := by
  simp only [Reg.hostSqCfg, Reg.recStat, List.mem_singleton]
  omega

theorem hostCqCfg_ne_recStat {q : Nat} (h : q < 64) : (Reg.hostCqCfg q).off ∉ [Reg.recStat.off] := by
  simp only [Reg.hostCqCfg, Reg.recStat, List.mem_singleton]
  omega

/-- Only what the Record Unit notes of a write differs. -/
def NotedOnly (s t : State) : Prop := t = { s with regs := t.regs, recd := t.recd } ∧ OnlyRegs s t [Reg.recStat.off]

theorem NotedOnly.trans {s t u : State} (h : NotedOnly s t) (k : NotedOnly t u) : NotedOnly s u := by
  obtain ⟨h1, h2⟩ := h
  obtain ⟨k1, k2⟩ := k
  exact ⟨by rw [k1, h1], h2.trans k2⟩

theorem NotedOnly.noted (s : State) (m off : Nat) (v : BitVec 32) : NotedOnly s (s.noted m off v) := s.noted_frame m off v

theorem NotedOnly.log (s : State) (ty a : Nat) (b : W64) (pay : List W64) : NotedOnly s (s.log ty a b pay) := s.log_frame ty a b pay

/-! ### Doorbells (R476) -/

theorem badBell_completes (s : State) : (s.badBell).m = s.m ∧ s.badBell.sta = s.sta ∧ s.badBell.engines = s.engines ∧
    s.badBell.host = s.host ∧ s.badBell.fld Reg.hostStat 7 0 = Nat.min 255 (s.fld Reg.hostStat 7 0 + 1) ∧
    OnlyRegs s s.badBell [Reg.hostStat.off] := by
  obtain ⟨hf, hr⟩ := s.satInc_frame Reg.hostStat 7 0
  have hc := s.fld_satInc Reg.hostStat (show 0 ≤ 7 by decide) (by decide)
  rw [State.badBell]
  exact ⟨by rw [hf], by rw [hf], by rw [hf], by rw [hf], hc, hr⟩

/-- A doorbell in a state that differs from `s` in what is noted of it alone: taken, or counted. -/
theorem doorbell_completes {s u : State} (hu : NotedOnly s u) (c : Prop) [Decidable c] (f : HostPort → HostPort) (P : HostPort → Prop)
    (hP : P (f s.host)) :
    let t := if c then { u with host := f u.host } else u.badBell
    t.m = s.m ∧ t.sta = s.sta ∧ t.engines = s.engines ∧
      (if c then P t.host ∧ OnlyRegs s t [Reg.recStat.off]
       else t.host = s.host ∧ t.fld Reg.hostStat 7 0 = Nat.min 255 (s.fld Reg.hostStat 7 0 + 1) ∧
        OnlyRegs s t [Reg.recStat.off, Reg.hostStat.off]) := by
  obtain ⟨hf, hr⟩ := hu
  have hm : u.m = s.m := by rw [hf]
  have hsta : u.sta = s.sta := by rw [hf]
  have heng : u.engines = s.engines := by rw [hf]
  have hhost : u.host = s.host := by rw [hf]
  by_cases h : c
  · simp only [if_pos h]
    exact ⟨hm, hsta, heng, hhost ▸ hP, hr⟩
  · simp only [if_neg h]
    obtain ⟨h1, h2, h3, h4, h5, h6⟩ := badBell_completes u
    refine ⟨h1.trans hm, h2.trans hsta, h3.trans heng, h4.trans hhost, ?_, (hr.mono (by simp)).trans (h6.mono (by simp))⟩
    rw [h5, hr.fld (by decide)]

theorem State.sqTailWrite_eq (s : State) (q : Nat) (v : BitVec 32) :
    s.sqTailWrite q v =
      if s.bit (Reg.hostSqCfg q) 31 = true ∧ bitsOf v.toNat 11 0 < s.sqSize q then
        { s.log 0x01 q (v.setWidth 64) [] with host := { (s.log 0x01 q (v.setWidth 64) []).host with
          sqTail := SMap.set 0 (s.log 0x01 q (v.setWidth 64) []).host.sqTail q (bitsOf v.toNat 11 0) } }
      else (s.log 0x01 q (v.setWidth 64) []).badBell := by
  rw [State.sqTailWrite]
  by_cases h : s.bit (Reg.hostSqCfg q) 31 = true ∧ bitsOf v.toNat 11 0 < s.sqSize q
  · rw [if_pos h, if_neg (by simp [h.1, h.2])]
  · rw [if_neg h]
    refine if_pos ?_
    rw [not_and_or, Bool.not_eq_true, Nat.not_lt] at h
    rcases h with h | h
    · rw [h]
      rfl
    · rw [decide_eq_true h, Bool.or_true]

theorem State.cqHeadWrite_eq (s : State) (q : Nat) (v : BitVec 32) :
    s.cqHeadWrite q v =
      if s.bit (Reg.hostCqCfg q) 31 = true ∧ bitsOf v.toNat 15 0 < s.cqSize q then
        (s.log 0x01 (64 + q) (v.setWidth 64) []).updCq q (fun c => { c with head := bitsOf v.toNat 15 0 })
      else (s.log 0x01 (64 + q) (v.setWidth 64) []).badBell := by
  rw [State.cqHeadWrite]
  by_cases h : s.bit (Reg.hostCqCfg q) 31 = true ∧ bitsOf v.toNat 15 0 < s.cqSize q
  · rw [if_pos h, if_neg (by simp [h.1, h.2])]
  · rw [if_neg h]
    refine if_pos ?_
    rw [not_and_or, Bool.not_eq_true, Nat.not_lt] at h
    rcases h with h | h
    · rw [h]
      rfl
    · rw [decide_eq_true h, Bool.or_true]

theorem bitsOf_low (n hi : Nat) : bitsOf n hi 0 = n % 2 ^ (hi + 1) := by
  rw [bitsOf, Nat.pow_zero, Nat.div_one, Nat.sub_zero]

theorem sqTail_completes {s : State} {m q : Nat} (hq : q < 64) (v : BitVec 32) (hd : s.direct m (Reg.hostSqTail q).off = true) :
    ∃ t, exec (.hostSqTail m q v) s = .next t ∧ t.m = s.m ∧ t.sta = s.sta ∧ t.engines = s.engines ∧
      (if s.bit (Reg.hostSqCfg q) 31 = true ∧ v.toNat % 4096 < s.sqSize q then
        SMap.get 0 t.host.sqTail q = v.toNat % 4096 ∧ OnlyRegs s t [Reg.recStat.off]
       else t.host = s.host ∧ t.fld Reg.hostStat 7 0 = Nat.min 255 (s.fld Reg.hostStat 7 0 + 1) ∧
        OnlyRegs s t [Reg.recStat.off, Reg.hostStat.off]) := by
  have hn := NotedOnly.noted s m (Reg.hostSqTail q).off v
  have he := exec_hostSqTail hq hd v
  generalize s.noted m (Reg.hostSqTail q).off v = n at hn he
  have hb : n.bit (Reg.hostSqCfg q) 31 = s.bit (Reg.hostSqCfg q) 31 := hn.2.bit (hostSqCfg_ne_recStat hq) 31
  have hz : n.sqSize q = s.sqSize q := congrArg (fun x => 2 ^ x) (hn.2.fld (hostSqCfg_ne_recStat hq) 3 0)
  rw [State.sqTailWrite_eq, hb, hz, bitsOf_low] at he
  exact ⟨_, he, doorbell_completes (hn.trans (NotedOnly.log n 0x01 q (v.setWidth 64) [])) _
    (fun x => { x with sqTail := SMap.set 0 x.sqTail q (v.toNat % 4096) }) (fun x => SMap.get 0 x.sqTail q = v.toNat % 4096)
    (SMap.get_set_self _ _ _ _)⟩

theorem cqHead_completes {s : State} {m q : Nat} (hq : q < 64) (v : BitVec 32) (hd : s.direct m (Reg.hostCqHead q).off = true) :
    ∃ t, exec (.hostCqHead m q v) s = .next t ∧ t.m = s.m ∧ t.sta = s.sta ∧ t.engines = s.engines ∧
      (if s.bit (Reg.hostCqCfg q) 31 = true ∧ v.toNat % 65536 < s.cqSize q then
        (t.cq q) = { s.cq q with head := v.toNat % 65536 } ∧ OnlyRegs s t [Reg.recStat.off]
       else t.host = s.host ∧ t.fld Reg.hostStat 7 0 = Nat.min 255 (s.fld Reg.hostStat 7 0 + 1) ∧
        OnlyRegs s t [Reg.recStat.off, Reg.hostStat.off]) := by
  have hn := NotedOnly.noted s m (Reg.hostCqHead q).off v
  have he := exec_hostCqHead hq hd v
  generalize s.noted m (Reg.hostCqHead q).off v = n at hn he
  have hb : n.bit (Reg.hostCqCfg q) 31 = s.bit (Reg.hostCqCfg q) 31 := hn.2.bit (hostCqCfg_ne_recStat hq) 31
  have hz : n.cqSize q = s.cqSize q := congrArg (fun x => 2 ^ x) (hn.2.fld (hostCqCfg_ne_recStat hq) 4 0)
  rw [State.cqHeadWrite_eq, hb, hz, bitsOf_low] at he
  exact ⟨_, he, doorbell_completes (hn.trans (NotedOnly.log n 0x01 (64 + q) (v.setWidth 64) [])) _
    (fun x => { x with cq := SMap.upd CQueue.init x.cq q (fun c => { c with head := v.toNat % 65536 }) })
    (fun x => SMap.get CQueue.init x.cq q = { s.cq q with head := v.toNat % 65536 })
    (SMap.get_upd_self CQueue.init s.host.cq q (fun c => { c with head := v.toNat % 65536 }))⟩

/-! ### Queue control (R477, R484) -/

theorem decide_bitsOf_eq_one (v : BitVec 32) (b : Nat) : decide (bitsOf v.toNat b b = 1) = v.getLsbD b := bitsOf_bit v.toNat b

theorem bitsOf_eq_one_iff (v : BitVec 32) (b : Nat) : bitsOf v.toNat b b = 1 ↔ v.getLsbD b = true := by
  rw [← decide_bitsOf_eq_one, decide_eq_true_iff]

/-- While a queue is enabled, its control register takes a cleared EN alone. -/
def State.clearEn (s : State) (r : RegRef) (v : BitVec 32) : State := if v.getLsbD 31 then s else s.setBit r 31 false

theorem State.clearEn_completes {s : State} {r : RegRef} (h : s.bit r 31 = true) (v : BitVec 32) :
    OnlyRegs s (s.clearEn r v) [r.off] ∧ s.clearEn r v = { s with regs := (s.clearEn r v).regs } ∧
      (s.clearEn r v).bit r 31 = v.getLsbD 31 ∧ (s.clearEn r v).fld r 30 0 = s.fld r 30 0 := by
  unfold State.clearEn
  cases v.getLsbD 31 with
  | true => exact ⟨OnlyRegs.refl s _, rfl, h, rfl⟩
  | false =>
    refine ⟨OnlyRegs.setBit s (List.mem_singleton_self _) 31 false, s.setBit_frame .., s.bit_setBit r (by decide) false, ?_⟩
    exact s.fld_setFld_apart r (Nat.le_refl 31) (by decide) (by decide) _

/-- Two fields of a control register, set while the queue is not enabled. -/
def State.putFields (s : State) (r : RegRef) (hi lo x top n : Nat) : State := (s.setFld r hi lo x).setFld r top 0 n

theorem State.putFields_completes (s : State) (r : RegRef) {hi lo top : Nat} (hlo : lo ≤ hi) (hhi : hi < 31) (ht : top < lo)
    (x n : Nat) :
    OnlyRegs s (s.putFields r hi lo x top n) [r.off] ∧
      s.putFields r hi lo x top n = { s with regs := (s.putFields r hi lo x top n).regs } ∧
      (s.putFields r hi lo x top n).bit r 31 = s.bit r 31 ∧
      (s.putFields r hi lo x top n).fld r hi lo = x % 2 ^ (hi + 1 - lo) ∧
      (s.putFields r hi lo x top n).fld r top 0 = n % 2 ^ (top + 1) := by
  rw [State.putFields]
  refine ⟨?_, by rw [State.setFld_frame, State.setFld_frame], ?_, ?_, ?_⟩
  · exact (OnlyRegs.setFld s (List.mem_singleton_self _) hi lo x).trans (OnlyRegs.setFld _ (List.mem_singleton_self _) top 0 n)
  · rw [State.bit_setFld _ _ (Nat.zero_le _) (by decide), if_neg (by omega), State.bit_setFld _ _ hlo (by decide), if_neg (by omega)]
  · rw [State.fld_setFld_apart _ _ (Nat.zero_le _) (by omega) (.inr ht), State.fld_setFld _ _ hlo (by omega)]
  · rw [State.fld_setFld _ _ (Nat.zero_le _) (by omega), Nat.sub_zero]

/-- A queue becomes enabled and empty. -/
def State.openQueue (s : State) (r : RegRef) (hi lo : Nat) : State := (s.setBit r 31 true).setFld r hi lo 0

theorem State.openQueue_completes (s : State) (r : RegRef) {hi lo : Nat} (hlo : lo ≤ hi) (hhi : hi < 31) :
    OnlyRegs s (s.openQueue r hi lo) [r.off] ∧ s.openQueue r hi lo = { s with regs := (s.openQueue r hi lo).regs } ∧
      (s.openQueue r hi lo).bit r 31 = true ∧ (s.openQueue r hi lo).fld r hi lo = 0 ∧
      ∀ h l, h < 31 → h < lo ∨ hi < l → (s.openQueue r hi lo).fld r h l = s.fld r h l := by
  rw [State.openQueue]
  refine ⟨?_, by rw [State.setFld_frame, State.setBit_frame], ?_, ?_, fun h l hh ha => ?_⟩
  · exact (OnlyRegs.setBit s (List.mem_singleton_self _) 31 true).trans (OnlyRegs.setFld _ (List.mem_singleton_self _) hi lo 0)
  · rw [State.bit_setFld _ _ hlo (by decide), if_neg (by omega), State.bit_setBit _ _ (by decide)]
  · rw [State.fld_setFld _ _ hlo (by omega), Nat.zero_mod]
  · rw [State.fld_setFld_apart _ _ hlo (by omega) ha]
    exact s.fld_setFld_apart r (Nat.le_refl 31) (by omega) (.inl hh) _

/-- Registers that agree have the same fields. -/
theorem State.fld_congr {s t : State} (h : t.regs = s.regs) (r : RegRef) (hi lo : Nat) : t.fld r hi lo = s.fld r hi lo := by
  rw [State.fld, State.fld, State.rd, State.rd, h]

theorem OnlyRegs.of_regs {s t : State} {offs : List Nat} (h : t.regs = s.regs) : OnlyRegs s t offs := fun r _ => by
  rw [State.rd, State.rd, h]

theorem State.bit_congr {s t : State} (h : t.regs = s.regs) (r : RegRef) (b : Nat) : t.bit r b = s.bit r b := by
  rw [State.bit, State.bit, State.fld_congr h]

theorem State.sqCfgWrite_enabled {s : State} {q : Nat} (h : s.bit (Reg.hostSqCfg q) 31 = true) (v : BitVec 32) :
    s.sqCfgWrite q v = s.clearEn (Reg.hostSqCfg q) v := by
  simp only [State.sqCfgWrite, State.clearEn, if_pos h, bitsOf_eq_one_iff]

theorem State.sqCfgWrite_disabled {s : State} {q : Nat} (h : s.bit (Reg.hostSqCfg q) 31 = false) (v : BitVec 32) :
    s.sqCfgWrite q v =
      let u := s.putFields (Reg.hostSqCfg q) 29 24 (bitsOf v.toNat 29 24) 3 (v.toNat % 16)
      if (v.getLsbD 31 && decide (1 ≤ v.toNat % 16) && decide (v.toNat % 16 ≤ 12)) = true then
        { u.openQueue (Reg.hostSqCfg q) 23 12 with host := { u.host with sqTail := SMap.set 0 u.host.sqTail q 0 } }
      else u := by
  rw [State.sqCfgWrite, if_neg (by rw [h]; decide), decide_bitsOf_eq_one, bitsOf_low]
  rfl

theorem State.cqCfgWrite_enabled {s : State} {q : Nat} (h : s.bit (Reg.hostCqCfg q) 31 = true) (v : BitVec 32) :
    s.cqCfgWrite q v = s.clearEn (Reg.hostCqCfg q) v := by
  simp only [State.cqCfgWrite, State.clearEn, if_pos h, bitsOf_eq_one_iff]

/-- A completion queue as it is when it becomes enabled: after a loss of the link, the NOTICE goes before what is held. -/
def CQueue.opened (c : CQueue) (notice : CRec) : CQueue :=
  { head := 0, phase := true, linkLost := false, held := if c.linkLost && !c.held.isEmpty then notice :: c.held else c.held }

theorem State.cqCfgWrite_disabled {s : State} {q : Nat} (h : s.bit (Reg.hostCqCfg q) 31 = false) {v : BitVec 32}
    (hp : v.getLsbD 30 = false) :
    s.cqCfgWrite q v =
      let u := s.putFields (Reg.hostCqCfg q) 29 23 (bitsOf v.toNat 29 23) 4 (v.toNat % 32)
      if (v.getLsbD 31 && decide (1 ≤ v.toNat % 32) && decide (v.toNat % 32 ≤ 16)) = true then
        (u.openQueue (Reg.hostCqCfg q) 20 5).updCq q (fun c => c.opened (u.noticeRec 2))
      else u := by
  have hpurge : ¬ bitsOf v.toNat 30 30 = 1 := by
    rw [bitsOf_eq_one_iff, hp]
    decide
  rw [State.cqCfgWrite, if_neg (by rw [h]; decide), if_neg hpurge, decide_bitsOf_eq_one, bitsOf_low]
  rfl

theorem sqCfg_completes {s : State} {m q : Nat} (hq : q < 64) (v : BitVec 32) (hd : s.direct m (Reg.hostSqCfg q).off = true) :
    let n := s.noted m (Reg.hostSqCfg q).off v
    ∃ t, exec (.hostSqCfg m q v) s = .next t ∧ OnlyRegs n t [(Reg.hostSqCfg q).off] ∧ t.m = s.m ∧ t.sta = s.sta ∧
      (s.bit (Reg.hostSqCfg q) 31 = true → t.bit (Reg.hostSqCfg q) 31 = v.getLsbD 31 ∧ t.host = s.host ∧
        t.fld (Reg.hostSqCfg q) 30 0 = s.fld (Reg.hostSqCfg q) 30 0) ∧
      (s.bit (Reg.hostSqCfg q) 31 = false →
        t.bit (Reg.hostSqCfg q) 31 = (v.getLsbD 31 && decide (1 ≤ v.toNat % 16) && decide (v.toNat % 16 ≤ 12)) ∧
          t.fld (Reg.hostSqCfg q) 3 0 = v.toNat % 16 ∧ t.cqOf q = bitsOf v.toNat 29 24 ∧
          (t.bit (Reg.hostSqCfg q) 31 = true → t.sqHead q = 0 ∧ SMap.get 0 t.host.sqTail q = 0)) := by
  intro n
  have hn : NotedOnly s n := NotedOnly.noted s m (Reg.hostSqCfg q).off v
  have he : exec (.hostSqCfg m q v) s = .next (n.sqCfgWrite q v) := exec_hostSqCfg hq hd v
  clear_value n
  obtain ⟨hf, hr⟩ := hn
  have hb : n.bit (Reg.hostSqCfg q) 31 = s.bit (Reg.hostSqCfg q) 31 := hr.bit (hostSqCfg_ne_recStat hq) 31
  have hm : n.m = s.m := by rw [hf]
  have hsta : n.sta = s.sta := by rw [hf]
  have hhost : n.host = s.host := by rw [hf]
  rw [he]
  cases hs : s.bit (Reg.hostSqCfg q) 31 with
  | true =>
    rw [State.sqCfgWrite_enabled (hb.trans hs)]
    obtain ⟨h1, h2, h3, h4⟩ := State.clearEn_completes (hb.trans hs) v
    refine ⟨_, rfl, h1, by rw [h2, hm], by rw [h2, hsta], fun _ => ⟨h3, by rw [h2, hhost], ?_⟩, nofun⟩
    rw [h4, hr.fld (hostSqCfg_ne_recStat hq)]
  | false =>
    rw [State.sqCfgWrite_disabled (hb.trans hs)]
    obtain ⟨h1, h2, h3, h4, h5⟩ := n.putFields_completes (Reg.hostSqCfg q) (show 24 ≤ 29 by decide) (by decide) (show 3 < 24 by decide)
      (bitsOf v.toNat 29 24) (v.toNat % 16)
    generalize n.putFields (Reg.hostSqCfg q) 29 24 (bitsOf v.toNat 29 24) 3 (v.toNat % 16) = u at h1 h2 h3 h4 h5
    have h4' : u.cqOf q = bitsOf v.toNat 29 24 := h4.trans (Nat.mod_eq_of_lt (bitsOf_lt v.toNat 29 24))
    have h5' : u.fld (Reg.hostSqCfg q) 3 0 = v.toNat % 16 := h5.trans (Nat.mod_eq_of_lt (Nat.mod_lt _ (by decide)))
    have hum : u.m = s.m := by rw [h2, hm]
    have hus : u.sta = s.sta := by rw [h2, hsta]
    dsimp only
    cases hen : (v.getLsbD 31 && decide (1 ≤ v.toNat % 16) && decide (v.toNat % 16 ≤ 12)) with
    | false =>
      rw [if_neg (by decide)]
      refine ⟨_, rfl, h1, hum, hus, nofun, fun _ => ⟨h3.trans (hb.trans hs), h5', h4', fun h => ?_⟩⟩
      rw [h3, hb, hs] at h
      cases h
    | true =>
      rw [if_pos rfl]
      obtain ⟨k1, k2, k3, k4, k5⟩ := u.openQueue_completes (Reg.hostSqCfg q) (show 12 ≤ 23 by decide) (by decide)
      generalize u.openQueue (Reg.hostSqCfg q) 23 12 = w at k1 k2 k3 k4 k5
      obtain ⟨t, ht⟩ : ∃ t : State, t = { w with host := { u.host with sqTail := SMap.set 0 u.host.sqTail q 0 } } := ⟨_, rfl⟩
      have htr : t.regs = w.regs := by rw [ht]
      refine ⟨t, congrArg Host.Outcome.next ht.symm, ?_, ?_, ?_, nofun, fun _ => ⟨?_, ?_, ?_, fun _ => ⟨?_, ?_⟩⟩⟩
      · exact (h1.trans k1).trans (OnlyRegs.of_regs htr)
      · rw [ht, k2, hum]
      · rw [ht, k2, hus]
      · exact (State.bit_congr htr _ _).trans k3
      · exact (State.fld_congr htr _ _ _).trans ((k5 3 0 (by decide) (by decide)).trans h5')
      · exact (State.fld_congr htr _ _ _).trans ((k5 29 24 (by decide) (by decide)).trans h4')
      · exact (State.fld_congr htr _ _ _).trans k4
      · rw [ht]
        exact SMap.get_set_self 0 u.host.sqTail q 0

theorem CQueue.opened_held (c : CQueue) (x : CRec) :
    (c.opened x).held = if c.linkLost = true ∧ c.held ≠ [] then x :: c.held else c.held := by
  have hiff : (c.linkLost && !c.held.isEmpty) = true ↔ c.linkLost = true ∧ c.held ≠ [] := by
    rw [Bool.and_eq_true, Bool.not_eq_true', ← Bool.not_eq_true, List.isEmpty_iff]
  simp only [CQueue.opened, hiff]

theorem cqCfg_completes {s : State} {m q : Nat} (hq : q < 64) {v : BitVec 32} (hd : s.direct m (Reg.hostCqCfg q).off = true)
    (hp : v.getLsbD 30 = false) :
    let n := s.noted m (Reg.hostCqCfg q).off v
    ∃ t, exec (.hostCqCfg m q v) s = .next t ∧ OnlyRegs n t [(Reg.hostCqCfg q).off] ∧ t.m = s.m ∧ t.sta = s.sta ∧
      (s.bit (Reg.hostCqCfg q) 31 = true → t.bit (Reg.hostCqCfg q) 31 = v.getLsbD 31 ∧ t.host = s.host ∧
        t.fld (Reg.hostCqCfg q) 30 0 = s.fld (Reg.hostCqCfg q) 30 0) ∧
      (s.bit (Reg.hostCqCfg q) 31 = false →
        t.bit (Reg.hostCqCfg q) 31 = (v.getLsbD 31 && decide (1 ≤ v.toNat % 32) && decide (v.toNat % 32 ≤ 16)) ∧
          t.fld (Reg.hostCqCfg q) 4 0 = v.toNat % 32 ∧ t.fld (Reg.hostCqCfg q) 29 23 = bitsOf v.toNat 29 23 ∧
          (t.bit (Reg.hostCqCfg q) 31 = true → t.cqTail q = 0 ∧ (t.cq q).head = 0 ∧ (t.cq q).phase = true ∧
            (t.cq q).held = (if (s.cq q).linkLost = true ∧ (s.cq q).held ≠ [] then s.noticeRec 2 :: (s.cq q).held
              else (s.cq q).held))) := by
  intro n
  have hn : NotedOnly s n := NotedOnly.noted s m (Reg.hostCqCfg q).off v
  have he : exec (.hostCqCfg m q v) s = .next (n.cqCfgWrite q v) := exec_hostCqCfg hq hd v
  clear_value n
  obtain ⟨hf, hr⟩ := hn
  have hb : n.bit (Reg.hostCqCfg q) 31 = s.bit (Reg.hostCqCfg q) 31 := hr.bit (hostCqCfg_ne_recStat hq) 31
  have hm : n.m = s.m := by rw [hf]
  have hsta : n.sta = s.sta := by rw [hf]
  have hhost : n.host = s.host := by rw [hf]
  have hlap : n.lap = s.lap := State.lap_congr (by rw [hf]) (hr _ (by decide))
  rw [he]
  cases hs : s.bit (Reg.hostCqCfg q) 31 with
  | true =>
    rw [State.cqCfgWrite_enabled (hb.trans hs)]
    obtain ⟨h1, h2, h3, h4⟩ := State.clearEn_completes (hb.trans hs) v
    refine ⟨_, rfl, h1, by rw [h2, hm], by rw [h2, hsta], fun _ => ⟨h3, by rw [h2, hhost], ?_⟩, nofun⟩
    rw [h4, hr.fld (hostCqCfg_ne_recStat hq)]
  | false =>
    rw [State.cqCfgWrite_disabled (hb.trans hs) hp]
    obtain ⟨h1, h2, h3, h4, h5⟩ := n.putFields_completes (Reg.hostCqCfg q) (show 23 ≤ 29 by decide) (by decide) (show 4 < 23 by decide)
      (bitsOf v.toNat 29 23) (v.toNat % 32)
    generalize n.putFields (Reg.hostCqCfg q) 29 23 (bitsOf v.toNat 29 23) 4 (v.toNat % 32) = u at h1 h2 h3 h4 h5
    have h4' := h4.trans (Nat.mod_eq_of_lt (bitsOf_lt v.toNat 29 23))
    have h5' : u.fld (Reg.hostCqCfg q) 4 0 = v.toNat % 32 := h5.trans (Nat.mod_eq_of_lt (Nat.mod_lt _ (by decide)))
    have hum : u.m = s.m := by rw [h2, hm]
    have hus : u.sta = s.sta := by rw [h2, hsta]
    have huh : u.host = s.host := by rw [h2, hhost]
    have hul : u.lap = s.lap := by
      refine (State.lap_congr (by rw [h2]) (h1 _ ?_)).trans hlap
      simp only [Reg.lapCfg, Reg.hostCqCfg, List.mem_singleton]
      omega
    have hnotice : u.noticeRec 2 = s.noticeRec 2 := by rw [State.noticeRec, State.noticeRec, hul]
    dsimp only
    cases hen : (v.getLsbD 31 && decide (1 ≤ v.toNat % 32) && decide (v.toNat % 32 ≤ 16)) with
    | false =>
      rw [if_neg (by decide)]
      refine ⟨_, rfl, h1, hum, hus, nofun, fun _ => ⟨h3.trans (hb.trans hs), h5', h4', fun h => ?_⟩⟩
      rw [h3, hb, hs] at h
      cases h
    | true =>
      rw [if_pos rfl, hnotice]
      obtain ⟨k1, k2, k3, k4, k5⟩ := u.openQueue_completes (Reg.hostCqCfg q) (show 5 ≤ 20 by decide) (by decide)
      generalize u.openQueue (Reg.hostCqCfg q) 20 5 = w at k1 k2 k3 k4 k5
      have hcq : w.cq q = s.cq q := by rw [State.cq, State.cq, (by rw [k2, huh] : w.host = s.host)]
      have hup : (w.updCq q (fun c => c.opened (s.noticeRec 2))).cq q = (s.cq q).opened (s.noticeRec 2) := by
        rw [State.cq_updCq, hcq]
      obtain ⟨t, ht⟩ : ∃ t : State, t = w.updCq q (fun c => c.opened (s.noticeRec 2)) := ⟨_, rfl⟩
      have htr : t.regs = w.regs := by rw [ht, State.updCq]
      rw [← ht] at hup
      refine ⟨t, congrArg Host.Outcome.next ht.symm, ?_, ?_, ?_, nofun, fun _ => ⟨?_, ?_, ?_, fun _ => ⟨?_, ?_, ?_, ?_⟩⟩⟩
      · exact (h1.trans k1).trans (OnlyRegs.of_regs htr)
      · rw [ht, State.updCq, k2, hum]
      · rw [ht, State.updCq, k2, hus]
      · exact (State.bit_congr htr _ _).trans k3
      · exact (State.fld_congr htr _ _ _).trans ((k5 4 0 (by decide) (by decide)).trans h5')
      · exact (State.fld_congr htr _ _ _).trans ((k5 29 23 (by decide) (by decide)).trans h4')
      · exact (State.fld_congr htr _ _ _).trans k4
      · rw [hup, CQueue.opened]
      · rw [hup, CQueue.opened]
      · rw [hup, CQueue.opened_held]

/-! ### PURGE (R477) -/

/-- The entries that discarded records free. -/
def State.freeAll (s : State) (rs : List CRec) : State :=
  rs.foldl (fun s r => match r.frees with | some t => s.updTask t (fun _ => Task.empty) | none => s) s

theorem State.freeAll_frame (rs : List CRec) (s : State) :
    s.freeAll rs = { s with sta := { s.sta with tasks := (s.freeAll rs).sta.tasks } } := by
  induction rs generalizing s with
  | nil => rfl
  | cons r rs ih =>
    have hcons : s.freeAll (r :: rs) = (match r.frees with | some t => s.updTask t (fun _ => Task.empty) | none => s).freeAll rs := rfl
    rw [hcons, ih]
    cases r.frees <;> rfl

theorem State.task_freeAll (rs : List CRec) (s : State) (x : Nat) :
    (s.freeAll rs).task x = if ∃ r ∈ rs, r.frees = some x then Task.empty else s.task x := by
  induction rs generalizing s with
  | nil => simp [State.freeAll]
  | cons r rs ih =>
    have hcons : s.freeAll (r :: rs) = (match r.frees with | some t => s.updTask t (fun _ => Task.empty) | none => s).freeAll rs := rfl
    rw [hcons, ih]
    by_cases hrest : ∃ r ∈ rs, r.frees = some x
    · obtain ⟨y, hy, hyx⟩ := hrest
      rw [if_pos ⟨y, hy, hyx⟩, if_pos ⟨y, List.mem_cons_of_mem _ hy, hyx⟩]
    · rw [if_neg hrest]
      cases hr : r.frees with
      | none =>
        refine (if_neg ?_).symm
        rintro ⟨y, hy, hyx⟩
        rcases List.mem_cons.1 hy with rfl | hy
        · rw [hr] at hyx
          cases hyx
        · exact hrest ⟨y, hy, hyx⟩
      | some t =>
        dsimp only
        rw [s.task_updTask_if]
        by_cases hx : x = t
        · rw [if_pos hx, if_pos ⟨r, List.mem_cons_self, hr.trans (congrArg some hx.symm)⟩]
        · rw [if_neg hx, if_neg]
          rintro ⟨y, hy, hyx⟩
          rcases List.mem_cons.1 hy with rfl | hy
          · exact hx (Option.some.inj (hyx.symm.trans hr))
          · exact hrest ⟨y, hy, hyx⟩

theorem State.purgeCq_disabled {s : State} {q : Nat} (h : s.bit (Reg.hostCqCfg q) 31 = false) :
    s.purgeCq q = ((s.freeAll (s.cq q).held).updCq q (fun c => { c with held := [] })).add64 Reg.hostCntPurge (s.cq q).held.length :=
  if_neg (by rw [h]; decide)

theorem purge_completes {s : State} {m q : Nat} (hq : q < 64) (hd : s.direct m (Reg.hostCqCfg q).off = true)
    (hs : s.bit (Reg.hostCqCfg q) 31 = false) :
    ∃ t, exec (.purge m q) s = .next t ∧ (t.cq q).held = [] ∧ t.m = s.m ∧
      t.rd64 Reg.hostCntPurge = s.rd64 Reg.hostCntPurge + BitVec.ofNat 64 (s.cq q).held.length ∧
      (∀ x, (∃ r ∈ (s.cq q).held, r.frees = some x) → t.task x = Task.empty) ∧
      (∀ x, (∀ r ∈ (s.cq q).held, r.frees ≠ some x) → t.task x = s.task x) := by
  obtain ⟨hf, hr⟩ := NotedOnly.noted s m (Reg.hostCqCfg q).off (s.rd (Reg.hostCqCfg q) ||| 0x40000000)
  have he := exec_purge hq hd
  generalize s.noted m (Reg.hostCqCfg q).off (s.rd (Reg.hostCqCfg q) ||| 0x40000000) = n at hf hr he
  have hb : n.bit (Reg.hostCqCfg q) 31 = s.bit (Reg.hostCqCfg q) 31 := hr.bit (hostCqCfg_ne_recStat hq) 31
  have hcq : n.cq q = s.cq q := by rw [hf]; rfl
  have htask : ∀ x, n.task x = s.task x := fun x => by rw [hf]; rfl
  rw [State.purgeCq_disabled (hb.trans hs), hcq] at he
  have hfree := n.freeAll_frame (s.cq q).held
  have htasks := State.task_freeAll (s.cq q).held n
  generalize n.freeAll (s.cq q).held = u at he hfree htasks
  obtain ⟨w, hw⟩ : ∃ w, w = u.updCq q (fun c => { c with held := [] }) := ⟨_, rfl⟩
  rw [← hw] at he
  have hheld : (w.cq q).held = [] := by rw [hw, State.cq_updCq]
  have hcnt : w.rd64 Reg.hostCntPurge = s.rd64 Reg.hostCntPurge := by
    rw [hw, hfree]
    exact hr.rd64 (by decide) (by decide)
  have hwt : ∀ x, w.task x = u.task x := fun x => by rw [hw]; rfl
  refine ⟨_, he, hheld, ?_, by rw [State.rd64_add64, hcnt], fun x hx => ?_, fun x hx => ?_⟩
  · exact (by rw [hw, hfree, hf]; rfl : w.m = s.m)
  · exact (hwt x).trans ((htasks x).trans (if_pos hx))
  · refine (hwt x).trans ((htasks x).trans ((if_neg ?_).trans (htask x)))
    rintro ⟨r, hr', hrx⟩
    exact hx r hr' hrx

/-- Settles O51: doorbells by what a taken and a counted one leave, queue control by the fields of its register. -/
theorem hostQueues : Obligations.HostQueues :=
  ⟨fun _ _ _ v hq => ⟨sqTail_completes hq v, cqHead_completes hq v⟩,
    fun _ _ _ v hq => ⟨sqCfg_completes hq v, cqCfg_completes hq, purge_completes hq⟩⟩

end Sys2Proof.Machine

/-!
PROOFS. A tick where no time passes. Refutes O37.
-/

namespace Sys2Proof.Machine

/-! ### A copy to the partner goes on where no time passes (TimePasses, R448) -/

/-- A part in HOLD whose pair unit still names a rejoin: nothing in the statement ties that field to the mode. -/
def heldMover : State := { State.reset with mode := .hold, pair := { State.reset.pair with rejoinLap := some 1 } }

theorem windowUp_heldMover : heldMover.windowUp = false := by decide

/-- Offset 0 is not mapped there, so the Mover passes over its block of 256 KiB. -/
theorem copyAt_idleTick_heldMover : heldMover.idleTick.pair.copyAt = 2 ^ 18 := by decide

/-- Refutes O37: TimePasses says that a tick without a register window leaves every state as it is. The tick advances no time there,
but its last two steps, the held reads' answers and the Mover, do not ask the mode: with a rejoin named, the Mover moves on. -/
theorem not_timers : ¬ Obligations.Timers := by
  unfold Obligations.Timers
  rintro ⟨-, -, -, hwindow, -⟩
  have hstays := congrArg (fun s : State => s.pair.copyAt) (hwindow heldMover windowUp_heldMover)
  exact absurd (copyAt_idleTick_heldMover.symm.trans hstays) (by decide)

end Sys2Proof.Machine

/-!
PROOFS. Pulses, management writes of the Event Fabric, Domain channels and pins. Settles O38.
-/

namespace Sys2Proof.Machine

/-! ### What a loop over all timers, or all flags, does to one of them -/

/-- What every step of a loop over a range keeps, the loop keeps. -/
theorem foldl_range_keeps {R : State → State → Prop} (hrefl : ∀ s, R s s) (htrans : ∀ s t u, R s t → R t u → R s u)
    {f : State → Nat → State} {n : Nat} (hf : ∀ s i, i < n → R s (f s i)) (s : State) : R s ((List.range n).foldl f s) := by
  induction n with
  | zero => exact hrefl s
  | succ n ih =>
    rw [List.range_succ, List.foldl_append]
    exact htrans _ _ _ (ih fun s i hi => hf s i (Nat.lt_succ_of_lt hi)) (hf _ n (Nat.lt_succ_self n))

/-- In a loop over a range of which one step alone meets `j`, what is said of `j` passes over the other steps. -/
theorem foldl_range_at {R : State → State → Prop} (hrefl : ∀ s, R s s) (htrans : ∀ s t u, R s t → R t u → R s u)
    {f : State → Nat → State} {j n : Nat} (hj : j < n) (hf : ∀ s i, i < n → i ≠ j → R s (f s i)) (s : State) :
    ∃ u, R s u ∧ R (f u j) ((List.range n).foldl f s) := by
  induction n with
  | zero => exact absurd hj (Nat.not_lt_zero j)
  | succ n ih =>
    rw [List.range_succ, List.foldl_append]
    rcases Nat.eq_or_lt_of_le (Nat.le_of_lt_succ hj) with rfl | hlt
    · exact ⟨_, foldl_range_keeps hrefl htrans (fun s i hi => hf s i (by omega) (by omega)) s, hrefl _⟩
    · obtain ⟨u, h1, h2⟩ := ih hlt fun s i hi => hf s i (by omega)
      exact ⟨u, h1, htrans _ _ _ h2 (hf _ n (Nat.lt_succ_self n) (by omega))⟩

/-! ### Timer actions (R440, R452, R453) -/

/-- The registers that an action on a timer may change. -/
def timerOffs (j : Nat) : List Nat := [(Reg.cdtCount j).off, (Reg.cdtStat j).off]

/-- Nothing differs but timer `j` and what is due of it. -/
def TimerOnly (j : Nat) (s t : State) : Prop :=
  t = { s with regs := t.regs, evt := { s.evt with zeroDue := t.evt.zeroDue, matchDue := t.evt.matchDue } } ∧
    OnlyRegs s t (timerOffs j) ∧ ∀ i, i ≠ j → SMap.get 0 t.evt.zeroDue i = SMap.get 0 s.evt.zeroDue i

section
variable {j : Nat} {s t u : State}

theorem TimerOnly.refl (j : Nat) (s : State) : TimerOnly j s s := ⟨rfl, OnlyRegs.refl s _, fun _ _ => rfl⟩

theorem TimerOnly.trans (h : TimerOnly j s t) (k : TimerOnly j t u) : TimerOnly j s u := by
  obtain ⟨h1, h2, h3⟩ := h
  obtain ⟨k1, k2, k3⟩ := k
  exact ⟨by rw [k1, h1], h2.trans k2, fun i hi => (k3 i hi).trans (h3 i hi)⟩

theorem TimerOnly.of_regs (h : t = { s with regs := t.regs }) (hr : OnlyRegs s t (timerOffs j)) : TimerOnly j s t := by
  obtain ⟨x, rfl⟩ : ∃ x, t = { s with regs := x } := ⟨_, h⟩
  exact ⟨rfl, hr, fun _ _ => rfl⟩

theorem TimerOnly.wrCount (s : State) (j : Nat) (v : BitVec 32) : TimerOnly j s (s.wr (Reg.cdtCount j) v) :=
  .of_regs rfl (OnlyRegs.wr s (List.mem_cons_self ..) v)

theorem TimerOnly.setRun (s : State) (j : Nat) (v : Bool) : TimerOnly j s (s.setBit (Reg.cdtStat j) 0 v) :=
  .of_regs (s.setBit_frame ..) (OnlyRegs.setBit s (List.mem_cons_of_mem _ (List.mem_singleton_self _)) 0 v)

theorem TimerOnly.missed (s : State) (j : Nat) : TimerOnly j s (s.satInc (Reg.cdtStat j) 31 24) := by
  obtain ⟨hf, hr⟩ := s.satInc_frame (Reg.cdtStat j) 31 24
  exact .of_regs hf (hr.mono (by simp [timerOffs]))

theorem TimerOnly.cdtReloadNow (s : State) (j : Nat) : TimerOnly j s (s.cdtReloadNow j) := by
  have hdue : TimerOnly j s { s with evt := { s.evt with zeroDue := SMap.set 0 s.evt.zeroDue j 2 } } :=
    ⟨rfl, OnlyRegs.refl s _, fun i hi => SMap.get_set_ne 0 0 s.evt.zeroDue j i 2 hi⟩
  have hmatch : ∀ w : State, TimerOnly j w { w with evt := { w.evt with matchDue := SMap.set false w.evt.matchDue j true } } :=
    fun w => ⟨rfl, OnlyRegs.refl w _, fun _ _ => rfl⟩
  unfold State.cdtReloadNow
  split
  · exact .refl j s
  · dsimp only
    split
    · exact hdue.trans (.setRun ..)
    · split
      · exact (hdue.trans (.wrCount ..)).trans (hmatch _)
      · exact hdue.trans (.wrCount ..)

theorem TimerOnly.cdtActs (s : State) (j : Nat) (acts : List Nat) : TimerOnly j s (s.cdtActs j acts) := by
  have hr := TimerOnly.cdtReloadNow s j
  unfold State.cdtActs
  split
  · exact hr.trans (.setRun ..)
  · split
    · unfold State.cdtStart
      dsimp only
      split
      · exact hr.trans (.missed ..)
      · split
        · exact hr
        · exact (hr.trans (.wrCount ..)).trans (.setRun ..)
    · split
      · exact hr.trans (.wrCount ..)
      · exact .refl j s

end

/-- What an action on timer `j` goes by. -/
def TimerKept (j : Nat) (s t : State) : Prop :=
  t.cdtRun j = s.cdtRun j ∧ t.cdtLoad j = s.cdtLoad j ∧ SMap.get 0 t.evt.zeroDue j = SMap.get 0 s.evt.zeroDue j

theorem TimerKept.refl (j : Nat) (s : State) : TimerKept j s s := ⟨rfl, rfl, rfl⟩

theorem TimerKept.trans {j : Nat} {s t u : State} (h : TimerKept j s t) (k : TimerKept j t u) : TimerKept j s u :=
  ⟨k.1.trans h.1, k.2.1.trans h.2.1, k.2.2.trans h.2.2⟩

theorem State.cdtLoad_congr {s t : State} {j : Nat} (hp : t.rd (Reg.cdtPhase j) = s.rd (Reg.cdtPhase j))
    (hr : t.rd (Reg.cdtReload j) = s.rd (Reg.cdtReload j)) : t.cdtLoad j = s.cdtLoad j := by
  rw [State.cdtLoad, State.cdtLoad, hp, hr]

/-- An action on one timer leaves the others. -/
theorem TimerOnly.kept {i j : Nat} {s t : State} (h : TimerOnly i s t) (hij : j ≠ i) : TimerKept j s t := by
  obtain ⟨-, hr, hz⟩ := h
  have hne : ∀ r : RegRef, r.off ∈ [(Reg.cdtStat j).off, (Reg.cdtPhase j).off, (Reg.cdtReload j).off] → r.off ∉ timerOffs i := by
    simp only [timerOffs, Reg.cdtStat, Reg.cdtPhase, Reg.cdtReload, Reg.cdtCount, List.mem_cons, List.not_mem_nil, or_false]
    omega
  exact ⟨hr.bit (hne _ (by simp)) 0, State.cdtLoad_congr (hr _ (hne _ (by simp))) (hr _ (hne _ (by simp))), hz j hij⟩

theorem State.cdtRun_cdtActs_stop (s : State) (j : Nat) {acts : List Nat} (h : 2 ∈ acts) : (s.cdtActs j acts).cdtRun j = false := by
  rw [State.cdtActs, if_pos (List.contains_iff_mem.2 h)]
  exact State.bit_setBit _ _ (by decide) false

theorem State.cdtRun_cdtActs_start {s : State} {j : Nat} {acts : List Nat} (h1 : 1 ∈ acts) (h2 : 2 ∉ acts)
    (hz : SMap.get 0 s.evt.zeroDue j ≠ 1) : (s.cdtActs j acts).cdtRun j = (s.cdtRun j || decide (s.cdtLoad j ≠ 0)) := by
  have hr : s.cdtReloadNow j = s := if_pos hz
  rw [State.cdtActs, if_neg (fun h => h2 (List.contains_iff_mem.1 h)), if_pos (List.contains_iff_mem.2 h1), State.cdtStart, hr]
  cases hrun : s.cdtRun j with
  | true =>
    rw [if_pos rfl, Bool.true_or, State.cdtRun, State.bit, State.fld_satInc_apart _ _ (by decide) (by decide) (.inl (by decide))]
    exact hrun
  | false =>
    rw [if_neg Bool.false_ne_true, Bool.false_or]
    by_cases hl : s.cdtLoad j = 0
    · rw [if_pos hl, hrun]
      simp [hl]
    · rw [if_neg hl, decide_eq_true hl]
      exact State.bit_setBit _ _ (by decide) true

/-- Among the actions of a pulse's consumers, those on timer `j`. -/
theorem mem_timer_acts {cons : List Nat} {j k : Nat} (hj : j < 32) (hk : 1 ≤ k) (hk3 : k ≤ 3) :
    k ∈ (((cons.filter (fun x => 1 ≤ x / 32 ∧ x / 32 ≤ 3)).map (fun x => (x / 32, x % 32))).filter (fun a => a.2 = j)).map
      (fun a => a.1) ↔ 32 * k + j ∈ cons := by
  simp only [List.mem_map, List.mem_filter, decide_eq_true_eq]
  constructor
  · rintro ⟨a, ⟨⟨x, ⟨hx, -⟩, rfl⟩, hxj⟩, hxk⟩
    have hxe : 32 * k + j = x := by dsimp only at hxj hxk; omega
    exact hxe ▸ hx
  · exact fun h => ⟨(k, j), ⟨⟨_, ⟨h, by omega⟩, Prod.ext (by dsimp only; omega) (by dsimp only; omega)⟩, rfl⟩, rfl⟩

/-- Nothing differs but the timers. -/
def TimersOnly (s t : State) : Prop :=
  t = { s with regs := t.regs, evt := { s.evt with zeroDue := t.evt.zeroDue, matchDue := t.evt.matchDue } } ∧
    ∀ r : RegRef, (∀ j, r.off ∉ timerOffs j) → t.rd r = s.rd r

theorem TimersOnly.timerActs (s : State) (acts : List (Nat × Nat)) : TimersOnly s (s.timerActs acts) := by
  rw [State.timerActs]
  generalize List.range 32 = l
  induction l generalizing s with
  | nil => exact ⟨rfl, fun _ _ => rfl⟩
  | cons j t ih =>
    obtain ⟨h1, h2, -⟩ := TimerOnly.cdtActs s j ((acts.filter (fun a => a.2 = j)).map (fun a => a.1))
    rw [List.foldl_cons]
    generalize s.cdtActs j ((acts.filter (fun a => a.2 = j)).map (fun a => a.1)) = u at h1 h2
    obtain ⟨k1, k2⟩ := ih u
    exact ⟨by rw [k1, h1], fun r hr => (k2 r hr).trans (h2 r (hr j))⟩

/-- Each timer is met by its own actions. -/
theorem State.timerActs_at (s : State) (acts : List (Nat × Nat)) {j : Nat} (hj : j < 32) :
    ∃ u, TimerKept j s u ∧ TimerKept j (u.cdtActs j ((acts.filter (fun a => a.2 = j)).map (fun a => a.1))) (s.timerActs acts) :=
  foldl_range_at (TimerKept.refl j) (fun _ _ _ => TimerKept.trans) hj (fun _ _ _ hi => (TimerOnly.cdtActs ..).kept hi.symm) s

/-- What a pulse's consumers do with a timer: STOP wins (R453). -/
theorem State.cdtRun_timerActs (s : State) (cons : List Nat) {j : Nat} (hj : j < 32) :
    let t := s.timerActs ((cons.filter (fun x => 1 ≤ x / 32 ∧ x / 32 ≤ 3)).map (fun x => (x / 32, x % 32)))
    (64 + j ∈ cons → t.cdtRun j = false) ∧
    (32 + j ∈ cons → 64 + j ∉ cons → SMap.get 0 s.evt.zeroDue j ≠ 1 → t.cdtRun j = (s.cdtRun j || decide (s.cdtLoad j ≠ 0))) := by
  obtain ⟨u, ⟨h1, h2, h3⟩, k1, -⟩ :=
    s.timerActs_at ((cons.filter (fun x => 1 ≤ x / 32 ∧ x / 32 ≤ 3)).map (fun x => (x / 32, x % 32))) hj
  have hstart := mem_timer_acts (cons := cons) hj (show 1 ≤ 1 by decide) (by decide)
  have hstop := mem_timer_acts (cons := cons) hj (show 1 ≤ 2 by decide) (by decide)
  refine ⟨fun h => ?_, fun h hn hz => ?_⟩
  · exact k1.trans (State.cdtRun_cdtActs_stop u j (hstop.2 h))
  · rw [k1, State.cdtRun_cdtActs_start (hstart.2 h) (fun hm => hn (hstop.1 hm)) (by rwa [h3]), h1, h2]

/-! ### Accepted pulses (R431, R434, R444) -/

/-- The flag is set, engines that wait see it, the pulse is counted and forwarded. -/
def State.pulsed (s : State) (c now : Nat) : State :=
  { (if s.actMode.viewed then s.setFlag c true else (s.setFlag c true).wake c) with
    evt := { s.evt with
      lastAcc := SMap.set 0 s.evt.lastAcc c (now + 1), count := SMap.set 0 s.evt.count c (SMap.get 0 s.evt.count c + 1),
      fwd := s.evt.fwd ++ (s.forwards c).map (fun d => (d, now + 1)) } }

/-- A count `n` past the channel's limit shows, and closes the channel where that is asked for. -/
def State.stormed (s : State) (c lim n : Nat) : State :=
  if lim ≠ 0 ∧ lim < n then
    (s.setBit (Reg.evtChStat c) 0 true).setBit (Reg.evtChStat c) 1 (s.bit (Reg.evtChStat c) 1 || s.bit (Reg.evtChCfg c) 19)
  else s

/-- The group operations of the consumers act in GROUP mode. -/
def State.regrouped (s : State) (group : Bool) (cons : List Nat) : State :=
  if group then s.groupOps (groupMask cons 4) (groupMask cons 5) else s

theorem State.acceptPulse_eq (s : State) (c now : Nat) :
    s.acceptPulse c now =
      (((s.pulsed c now).stormed c (s.fld (Reg.evtChCfg c) 15 0) (SMap.get 0 s.evt.count c + 1)).regrouped
        (s.bit Reg.evtCfg 0) (s.chConsumers c)).timerActs
        (((s.chConsumers c).filter (fun x => 1 ≤ x / 32 ∧ x / 32 ≤ 3)).map (fun x => (x / 32, x % 32))) := rfl

theorem State.pulsed_regs (s : State) (c now : Nat) : (s.pulsed c now).regs = (s.setFlag c true).regs := by
  rw [State.pulsed]
  dsimp only
  split <;> rfl

theorem State.stormed_frame (s : State) (c lim n : Nat) :
    s.stormed c lim n = { s with regs := (s.stormed c lim n).regs } ∧ OnlyRegs s (s.stormed c lim n) [(Reg.evtChStat c).off] := by
  unfold State.stormed
  split
  · exact ⟨by rw [State.setBit_frame, State.setBit_frame], (OnlyRegs.setBit s (List.mem_singleton_self _) _ _).trans
      (OnlyRegs.setBit _ (List.mem_singleton_self _) _ _)⟩
  · exact ⟨rfl, OnlyRegs.refl s _⟩

theorem State.stormed_bits {s : State} {c lim n : Nat} (h0 : lim ≠ 0) (hn : lim < n) :
    (s.stormed c lim n).bit (Reg.evtChStat c) 0 = true ∧
      (s.bit (Reg.evtChCfg c) 19 = true → (s.stormed c lim n).bit (Reg.evtChStat c) 1 = true) := by
  rw [State.stormed, if_pos ⟨h0, hn⟩]
  refine ⟨?_, fun h => ?_⟩
  · rw [State.bit_setBit_apart _ _ (by decide) (by decide), State.bit_setBit _ _ (by decide)]
  · rw [State.bit_setBit _ _ (by decide), h, Bool.or_true]

theorem State.regrouped_frame (s : State) (group : Bool) (cons : List Nat) :
    s.regrouped group cons = { s with regs := (s.regrouped group cons).regs } ∧
      OnlyRegs s (s.regrouped group cons) [Reg.evtGroupEn.off] ∧
      (s.regrouped group cons).rd Reg.evtGroupEn =
        if group = true then (s.rd Reg.evtGroupEn ||| groupMask cons 4) &&& ~~~groupMask cons 5 else s.rd Reg.evtGroupEn := by
  unfold State.regrouped
  split
  · exact ⟨rfl, OnlyRegs.wr s (List.mem_singleton_self _) _, s.rd_wr ..⟩
  · exact ⟨rfl, OnlyRegs.refl s _, rfl⟩

/-- A pulse's flag, status and group registers are no timer's. -/
theorem notMem_timerOffs {o : Nat} (h : o < 0xC00000) (j : Nat) : o ∉ timerOffs j := by
  simp only [timerOffs, Reg.cdtStat, Reg.cdtCount, List.mem_cons, List.not_mem_nil, or_false]
  omega

/-- What an accepted pulse leaves. -/
theorem State.acceptPulse_spec (s : State) {c : Nat} (hc : c < 256) (now : Nat) :
    let t := s.acceptPulse c now
    let n := SMap.get 0 s.evt.count c + 1
    t.evt = { s.evt with
      lastAcc := SMap.set 0 s.evt.lastAcc c (now + 1), count := SMap.set 0 s.evt.count c n,
      fwd := s.evt.fwd ++ (s.forwards c).map (fun d => (d, now + 1)), zeroDue := t.evt.zeroDue, matchDue := t.evt.matchDue } ∧
    t.rd Reg.evtGroupEn =
      (if s.bit Reg.evtCfg 0 = true then
        (s.rd Reg.evtGroupEn ||| groupMask (s.chConsumers c) 4) &&& ~~~groupMask (s.chConsumers c) 5
       else s.rd Reg.evtGroupEn) ∧
    (s.fld (Reg.evtChCfg c) 15 0 ≠ 0 → s.fld (Reg.evtChCfg c) 15 0 < n →
      t.bit (Reg.evtChStat c) 0 = true ∧ (s.bit (Reg.evtChCfg c) 19 = true → t.bit (Reg.evtChStat c) 1 = true)) ∧
    (∀ j, j < 32 → 64 + j ∈ s.chConsumers c → t.cdtRun j = false) ∧
    (∀ j, j < 32 → 32 + j ∈ s.chConsumers c → 64 + j ∉ s.chConsumers c → SMap.get 0 s.evt.zeroDue j ≠ 1 →
      t.cdtRun j = (s.cdtRun j || decide (s.cdtLoad j ≠ 0))) := by
  intro t n
  obtain ⟨s1, h1⟩ : ∃ s1, s1 = s.pulsed c now := ⟨_, rfl⟩
  obtain ⟨s2, h2⟩ : ∃ s2, s2 = s1.stormed c (s.fld (Reg.evtChCfg c) 15 0) n := ⟨_, rfl⟩
  obtain ⟨s3, h3⟩ : ∃ s3, s3 = s2.regrouped (s.bit Reg.evtCfg 0) (s.chConsumers c) := ⟨_, rfl⟩
  have ht : t = s3.timerActs (((s.chConsumers c).filter (fun x => 1 ≤ x / 32 ∧ x / 32 ≤ 3)).map (fun x => (x / 32, x % 32))) := by
    rw [h3, h2, h1]
    exact s.acceptPulse_eq c now
  clear_value t
  have hflag : (Reg.evtFlag (c / 32)).off < 0xB01000 := by simp only [Reg.evtFlag]; omega
  have r1 : OnlyRegs s s1 [(Reg.evtFlag (c / 32)).off] :=
    (OnlyRegs.setBit s (List.mem_singleton_self _) _ _ : OnlyRegs s (s.setFlag c true) _).trans
      (OnlyRegs.of_regs (by rw [h1, s.pulsed_regs, State.setFlag]))
  have e1 : s1.evt = { s.evt with
      lastAcc := SMap.set 0 s.evt.lastAcc c (now + 1), count := SMap.set 0 s.evt.count c n,
      fwd := s.evt.fwd ++ (s.forwards c).map (fun d => (d, now + 1)) } := by rw [h1]; rfl
  obtain ⟨f2, r2⟩ := s1.stormed_frame c (s.fld (Reg.evtChCfg c) 15 0) n
  have b2 := State.stormed_bits (s := s1) (c := c) (lim := s.fld (Reg.evtChCfg c) 15 0) (n := n)
  rw [← h2] at f2 r2 b2
  obtain ⟨f3, r3, g3⟩ := s2.regrouped_frame (s.bit Reg.evtCfg 0) (s.chConsumers c)
  rw [← h3] at f3 r3 g3
  obtain ⟨f4, r4⟩ := TimersOnly.timerActs s3
    (((s.chConsumers c).filter (fun x => 1 ≤ x / 32 ∧ x / 32 ≤ 3)).map (fun x => (x / 32, x % 32)))
  have hrun := fun j => s3.cdtRun_timerActs (s.chConsumers c) (j := j)
  dsimp only at hrun
  rw [← ht] at f4 r4 hrun
  clear ht
  have e3 : s3.evt = s1.evt := by rw [f3, f2]
  have hgo : Reg.evtGroupEn.off ∉ [(Reg.evtFlag (c / 32)).off] := by
    simp only [Reg.evtGroupEn, Reg.evtFlag, List.mem_singleton]; omega
  have hgs : Reg.evtGroupEn.off ∉ [(Reg.evtChStat c).off] := by
    simp only [Reg.evtGroupEn, Reg.evtChStat, List.mem_singleton]; omega
  have hsg : (Reg.evtChStat c).off ∉ [Reg.evtGroupEn.off] := by
    simp only [Reg.evtGroupEn, Reg.evtChStat, List.mem_singleton]; omega
  have hcf : (Reg.evtChCfg c).off ∉ [(Reg.evtFlag (c / 32)).off] := by
    simp only [Reg.evtChCfg, Reg.evtFlag, List.mem_singleton]; omega
  have hst : ∀ j, (Reg.evtChStat c).off ∉ timerOffs j := fun j => notMem_timerOffs (by simp only [Reg.evtChStat]; omega) j
  have htimer : ∀ r : RegRef, 0xC00000 ≤ r.off → s3.rd r = s.rd r := fun r hr => by
    rw [r3 r ?_, r2 r ?_, r1 r ?_]
    all_goals simp only [Reg.evtGroupEn, Reg.evtChStat, List.mem_singleton]; omega
  have hrun3 : ∀ j, s3.cdtRun j = s.cdtRun j := fun j => by
    rw [State.cdtRun, State.cdtRun, State.bit, State.bit, State.fld, State.fld, htimer _ (by simp only [Reg.cdtStat]; omega)]
  have hload3 : ∀ j, s3.cdtLoad j = s.cdtLoad j := fun j =>
    State.cdtLoad_congr (htimer _ (by simp only [Reg.cdtPhase]; omega)) (htimer _ (by simp only [Reg.cdtReload]; omega))
  refine ⟨?_, ?_, fun hl hn => ?_, fun j hj hm => (hrun j hj).1 hm, fun j hj hm hnm hz => ?_⟩
  · rw [f4, e3, e1]
  · rw [r4 _ (notMem_timerOffs (by decide)), g3, r2 _ hgs, r1 _ hgo]
  · obtain ⟨k1, k2⟩ := b2 hl hn
    have hbits : ∀ b, t.bit (Reg.evtChStat c) b = s2.bit (Reg.evtChStat c) b := fun b => by
      rw [State.bit, State.bit, State.fld, State.fld, r4 _ hst, r3 _ hsg]
    rw [hbits, hbits]
    exact ⟨k1, fun h => k2 ((r1.bit hcf 19).trans h)⟩
  · rw [(hrun j hj).2 hm hnm (by rw [e3, e1]; exact hz), hrun3, hload3]

/-- Flags of other channels are not touched by an accepted pulse. -/
theorem State.flag_acceptPulse_ne (s : State) {c d : Nat} (hc : c < 256) (hd : d < 256) (hne : d ≠ c) (now : Nat) :
    (s.acceptPulse c now).flag d = s.flag d := by
  rw [State.flag, (PulseOnly.acceptPulse s hc now).2.bit (evtFlag_notMem hd), State.setFlag]
  by_cases hk : d / 32 = c / 32
  · rw [hk, State.bit_setBit_apart _ _ (Nat.mod_lt _ (by decide)) (by omega), State.flag, hk]
  · exact State.bit_setBit_ne _ _ _ _ _ _ (by simp only [Reg.evtFlag]; omega)

/-! ### PULSE (R431, R440, R442) -/

theorem exec_pulse {s : State} {c code : Nat} (hw : s.windowUp = true) (hc : c < 256) (h0 : code ≠ 0) (hl : s.lists c code = true)
    (now : Nat) : exec (.pulse c code now) s = .next (s.pulse c now) := if_pos ⟨hw, hc, h0, hl⟩

theorem exec_pulse_unlisted {s : State} {c code : Nat} (hl : s.lists c code = false) (now : Nat) :
    exec (.pulse c code now) s = .next s :=
  if_neg (fun h => Bool.false_ne_true (hl.symm.trans h.2.2.2))

theorem pulse_completes {s : State} {c code : Nat} (now : Nat) (hw : s.windowUp = true) (hc : c < 256) (h0 : code ≠ 0)
    (hl : s.lists c code = true) :
    let last := SMap.get 0 s.evt.lastAcc c
    (s.groupOn c = false → exec (.pulse c code now) s = .next (s.satInc (Reg.evtChStat c) 15 8)) ∧
    (s.groupOn c = true → s.bit (Reg.evtChStat c) 1 = true →
      exec (.pulse c code now) s = .next (s.satInc (Reg.evtChStat c) 31 24)) ∧
    (s.groupOn c = true → s.bit (Reg.evtChStat c) 1 = false → last ≠ 0 →
      (now + 1 = last → exec (.pulse c code now) s = .next s) ∧
      (now + 1 ≠ last → now + 1 ≤ last + 3 → exec (.pulse c code now) s = .next (s.satInc (Reg.evtChStat c) 31 24))) := by
  rw [exec_pulse hw hc h0 hl, State.pulse]
  refine ⟨fun hg => ?_, fun hg hb => ?_, fun hg hb hlast => ⟨fun he => ?_, fun hne hle => ?_⟩⟩
  · rw [hg]; rfl
  · rw [hg, hb]; rfl
  · rw [hg, hb, if_neg (by decide), if_neg (by decide), if_pos ⟨hlast, he⟩]
  · rw [hg, hb, if_neg (by decide), if_neg (by decide), if_neg (fun h => hne h.2), if_pos ⟨hlast, hle⟩]

theorem pulse_accepted {s : State} {c code now : Nat} (hw : s.windowUp = true) (hc : c < 256) (h0 : code ≠ 0)
    (hl : s.lists c code = true) (ha : s.accepts c now = true) :
    ∃ t, exec (.pulse c code now) s = .next t ∧ t = { s with regs := t.regs, evt := t.evt, engines := t.engines } ∧
        OnlyRegs s t pulseOffs ∧ t.flag c = true ∧
        (∀ d, d < 256 → d ≠ c → t.flag d = s.flag d) ∧
        SMap.get 0 t.evt.count c = SMap.get 0 s.evt.count c + 1 ∧ SMap.get 0 t.evt.lastAcc c = now + 1 ∧
        t.evt.fwd = s.evt.fwd ++ (s.forwards c).map (fun d => (d, now + 1)) ∧
        t.rd Reg.evtGroupEn =
          (if s.bit Reg.evtCfg 0 = true then
            (s.rd Reg.evtGroupEn ||| groupMask (s.chConsumers c) 4) &&& ~~~groupMask (s.chConsumers c) 5
           else s.rd Reg.evtGroupEn) ∧
        (s.fld (Reg.evtChCfg c) 15 0 ≠ 0 → s.fld (Reg.evtChCfg c) 15 0 < SMap.get 0 s.evt.count c + 1 →
          t.bit (Reg.evtChStat c) 0 = true ∧ (s.bit (Reg.evtChCfg c) 19 = true → t.bit (Reg.evtChStat c) 1 = true)) ∧
        (∀ j, j < 32 → 64 + j ∈ s.chConsumers c → t.cdtRun j = false) ∧
        (∀ j, j < 32 → 32 + j ∈ s.chConsumers c → 64 + j ∉ s.chConsumers c → SMap.get 0 s.evt.zeroDue j ≠ 1 →
          t.cdtRun j = (s.cdtRun j || decide (s.cdtLoad j ≠ 0))) := by
  obtain ⟨hframe, hregs⟩ := PulseOnly.pulse s hc now
  obtain ⟨hevt, hgroup, hstorm, hstop, hstart⟩ := s.acceptPulse_spec hc now
  have hflag := s.flag_acceptPulse hc now
  have hother := fun d (hd : d < 256) hne => s.flag_acceptPulse_ne hc hd hne now
  rw [exec_pulse hw hc h0 hl]
  rw [State.pulse_accepts ha] at hframe hregs ⊢
  refine ⟨_, rfl, hframe, hregs, hflag, hother, ?_, ?_, ?_, hgroup, hstorm, hstop, hstart⟩
  · rw [congrArg Events.count hevt]
    exact SMap.get_set_self 0 s.evt.count c (SMap.get 0 s.evt.count c + 1)
  · rw [congrArg Events.lastAcc hevt]
    exact SMap.get_set_self 0 s.evt.lastAcc c (now + 1)
  · rw [congrArg Events.fwd hevt]

/-! ### What pulses go by, and what they leave -/

/-- The registers of the Event Fabric are as before but for the levels of the pins. -/
def EvtKept (s t : State) : Prop :=
  ∀ r : RegRef, 0xB00000 ≤ r.off → r.off < 0xC00000 → r.off ≠ Reg.evtPinStat.off → t.rd r = s.rd r

section
variable {s t u : State}

theorem EvtKept.trans (h : EvtKept s t) (k : EvtKept t u) : EvtKept s u :=
  fun r h1 h2 h3 => (k r h1 h2 h3).trans (h r h1 h2 h3)

variable (h : EvtKept s t)
include h

theorem EvtKept.lists {c : Nat} (hc : c < 256) (code : Nat) : t.lists c code = s.lists c code := by
  have hsrc : ∀ k ∈ List.range 4, t.rd (Reg.evtChSrc c k) = s.rd (Reg.evtChSrc c k) := fun k hk => by
    have hk4 := List.mem_range.1 hk
    refine h _ ?_ ?_ ?_ <;> simp only [Reg.evtChSrc, Reg.evtPinStat] <;> omega
  have heq : t.chSources c = s.chSources c := by
    rw [State.chSources, State.chSources]
    exact List.flatMap_congr fun k hk => by rw [State.fld, State.fld, State.fld, State.fld, hsrc k hk]
  rw [State.lists, State.lists, heq]

theorem EvtKept.soleListener {code c : Nat} (hs : s.soleListener code c) : t.soleListener code c := by
  rw [State.soleListener, ← hs]
  exact List.filter_congr fun d hd => h.lists (List.mem_range.1 hd) code

theorem EvtKept.accepts {c : Nat} (hc : c < 256) (hl : t.evt.lastAcc = s.evt.lastAcc) (now : Nat) :
    t.accepts c now = s.accepts c now := by
  have hcfg : t.rd Reg.evtCfg = s.rd Reg.evtCfg := h _ (by decide) (by decide) (by decide)
  have hen : t.rd Reg.evtGroupEn = s.rd Reg.evtGroupEn := h _ (by decide) (by decide) (by decide)
  have hst : t.rd (Reg.evtChStat c) = s.rd (Reg.evtChStat c) := by
    refine h _ ?_ ?_ ?_ <;> simp only [Reg.evtChStat, Reg.evtPinStat] <;> omega
  rw [State.accepts, State.accepts, State.groupOn, State.groupOn, State.bit, State.bit, State.bit, State.bit, State.bit, State.bit,
    State.fld, State.fld, State.fld, State.fld, State.fld, State.fld, hcfg, hen, hst, hl]

/-- The flag of the one channel that lists a code is set where its pulse is accepted. -/
theorem EvtKept.flag_fireCode {code c now : Nat} (hl : t.evt.lastAcc = s.evt.lastAcc) (hs : s.soleListener code c)
    (ha : s.accepts c now = true) : (t.fireCode code now).flag c = true := by
  have hc : c ∈ List.range 256 := List.mem_of_mem_filter (by rw [hs]; exact List.mem_singleton_self c)
  exact State.flag_fireCode (h.soleListener hs) ((h.accepts (List.mem_range.1 hc) hl now).trans ha)

end

/-- Pulses leave of the Event Fabric's own state all but the marks of pulses and timers. -/
theorem State.evt_pulse (s : State) {c : Nat} (hc : c < 256) (now : Nat) :
    let x := (s.pulse c now).evt
    x = { s.evt with lastAcc := x.lastAcc, count := x.count, fwd := x.fwd, zeroDue := x.zeroDue, matchDue := x.matchDue } := by
  have hsat : ∀ hi lo, (s.satInc (Reg.evtChStat c) hi lo).evt = s.evt := fun hi lo => by rw [(s.satInc_frame (Reg.evtChStat c) hi lo).1]
  dsimp only
  rw [State.pulse]
  split
  · rw [hsat]
  · split
    · rw [hsat]
    · split
      · rfl
      · split
        · rw [hsat]
        · rw [(s.acceptPulse_spec hc now).1]

theorem State.evt_fireCode (s : State) (code now : Nat) :
    let x := (s.fireCode code now).evt
    x = { s.evt with lastAcc := x.lastAcc, count := x.count, fwd := x.fwd, zeroDue := x.zeroDue, matchDue := x.matchDue } := by
  have hl : ∀ c ∈ (List.range 256).filter (fun c => s.lists c code), c < 256 := fun c hc =>
    List.mem_range.1 (List.mem_of_mem_filter hc)
  rw [State.fireCode]
  generalize (List.range 256).filter (fun c => s.lists c code) = l at hl
  induction l generalizing s with
  | nil => rfl
  | cons c l ih =>
    have hc := s.evt_pulse (hl c List.mem_cons_self) now
    rw [List.foldl_cons]
    generalize s.pulse c now = u at hc
    have hu := ih u (fun d hd => hl d (List.mem_cons_of_mem _ hd))
    dsimp only at hc hu ⊢
    rw [hu, hc]

/-! ### Management writes (R435, R438, R444, R445) -/

/-- An access to a register of the event blocks is access to the window. -/
theorem State.accessOk_zero {s : State} {m off : Nat} (hd : s.direct m off = true) : s.accessOk m 0 4 = true :=
  (State.accessOk_window hd (show 0 < 64 by decide)).1

theorem exec_evtFire {s : State} {m : Nat} (hd : s.direct m Reg.evtFire.off = true) (v : BitVec 32) (now : Nat) :
    exec (.evtFire m v now) s = .next ((s.noted m Reg.evtFire.off v).evtFireWrite m v now) := by
  change execEvtFire m v now s = _
  rw [execEvtFire, if_pos (State.accessOk_zero hd), State.gate_direct hd]

theorem exec_dom {s : State} {m : Nat} (hd : s.direct m Reg.evtFire.off = true) (v : BitVec 32) (now : Nat) :
    exec (.dom m v now) s = .next ((s.noted m Reg.evtFire.off (v ||| 0x100)).evtFireWrite m (v ||| 0x100) now) := by
  change execDom m v now s = _
  rw [execDom, if_pos (State.accessOk_zero hd), State.gate_direct hd]

theorem exec_evtFlag {s : State} {m k : Nat} (hk : k < 8) (hd : s.direct m (Reg.evtFlag k).off = true) (v : BitVec 32) :
    exec (.evtFlag m k v) s = .next ((s.noted m (Reg.evtFlag k).off v).evtFlagWrite m k v) := by
  change execEvtFlag m k v s = _
  rw [execEvtFlag, if_pos ⟨State.accessOk_zero hd, hk⟩, State.gate_direct hd]

theorem exec_evtGroupEn {s : State} {m : Nat} (hd : s.direct m Reg.evtGroupEn.off = true) (v : BitVec 32) (on off : BitVec 16) :
    exec (.evtGroupEn m v on off) s = .next ((s.noted m Reg.evtGroupEn.off v).groupEnWrite v on off) := by
  change execEvtGroupEn m v on off s = _
  rw [execEvtGroupEn, if_pos (State.accessOk_zero hd), State.gate_direct hd]

theorem exec_closed {s : State} {m c : Nat} (hc : c < 256) (hd : s.direct m (Reg.evtChStat c).off = true) :
    exec (.closed m c) s = .next ((s.noted m (Reg.evtChStat c).off 2).reopen m c) := by
  change execClosed m c s = _
  rw [execClosed, if_pos ⟨State.accessOk_zero hd, hc⟩, State.gate_direct hd]

/-- Who may act on a channel is read from its configuration and the mode. -/
theorem State.mgmtOwns_congr {s t : State} {c : Nat} (hr : t.rd (Reg.evtChCfg c) = s.rd (Reg.evtChCfg c))
    (ha : t.actMode = s.actMode) (m : Nat) : t.mgmtOwns m c = s.mgmtOwns m c := by
  rw [State.mgmtOwns, State.mgmtOwns, ha, State.fld, State.fld, hr]

section
variable {s u : State} (h : NotedOnly s u)
include h

theorem NotedOnly.actMode : u.actMode = s.actMode := by
  obtain ⟨hf, hr⟩ := h
  exact State.actMode_congr (by rw [hf]) (by rw [hf]) (hr _ (by decide))

/-- What the Record Unit notes changes no register of the events. -/
theorem NotedOnly.rd_evt {r : RegRef} (hr : r.off < 0xE00000) : u.rd r = s.rd r :=
  h.2 r (fun hm => absurd (List.mem_singleton.1 hm) (Nat.ne_of_lt (Nat.lt_of_lt_of_le hr (by decide))))

theorem NotedOnly.mgmtOwns {c : Nat} (hc : c < 256) (m : Nat) : u.mgmtOwns m c = s.mgmtOwns m c :=
  State.mgmtOwns_congr (h.rd_evt (by simp only [Reg.evtChCfg]; omega)) h.actMode m

theorem NotedOnly.evtKept : EvtKept s u := fun _ _ hr _ => h.rd_evt (Nat.lt_trans hr (by decide))

theorem NotedOnly.mgmtOwnsDom (m : Nat) {d : Nat} (hd : d < 32) : u.mgmtOwnsDom m d = s.mgmtOwnsDom m d := by
  have hr : u.rd (Reg.evtDchCfg d) = s.rd (Reg.evtDchCfg d) := h.rd_evt (by simp only [Reg.evtDchCfg]; omega)
  have hp : u.pos = s.pos := h.2.fld (by decide) 4 0
  rw [State.mgmtOwnsDom, State.mgmtOwnsDom, h.actMode, hp, State.fld, State.fld, State.fld, State.fld, hr]

end

/-- A management pulse of a local channel (R438). -/
theorem State.evtFireWrite_local {s : State} {v : BitVec 32} (h8 : v.getLsbD 8 = false) (m now : Nat) :
    s.evtFireWrite m v now =
      if s.mgmtOwns m (v.toNat % 256) && s.lists (v.toNat % 256) 0x0C0 then s.pulse (v.toNat % 256) now
      else s.satInc (Reg.evtChStat (v.toNat % 256)) 23 16 := by
  have hno : ¬ bitsOf v.toNat 8 8 = 1 := by
    rw [bitsOf_eq_one_iff, h8]
    decide
  rw [State.evtFireWrite, if_neg hno, bitsOf_low, State.softPulse, State.denied]
  cases s.mgmtOwns m (v.toNat % 2 ^ (7 + 1)) with
  | false => rfl
  | true => cases s.lists (v.toNat % 2 ^ (7 + 1)) 0x0C0 <;> rfl

theorem evtFire_completes {s : State} {m : Nat} (now : Nat) {v : BitVec 32} (hd : s.direct m Reg.evtFire.off = true)
    (h8 : v.getLsbD 8 = false) :
    exec (.evtFire m v now) s = .next
      (if s.mgmtOwns m (v.toNat % 256) && s.lists (v.toNat % 256) 0x0C0 then
        (s.noted m Reg.evtFire.off v).pulse (v.toNat % 256) now
       else (s.noted m Reg.evtFire.off v).satInc (Reg.evtChStat (v.toNat % 256)) 23 16) := by
  have hn := NotedOnly.noted s m Reg.evtFire.off v
  have hc : v.toNat % 256 < 256 := Nat.mod_lt _ (by decide)
  rw [exec_evtFire hd, State.evtFireWrite_local h8, hn.mgmtOwns hc, hn.evtKept.lists hc]

/-- A write with DOM set sends a Domain channel, or counts (R445). -/
theorem State.evtFireWrite_dom (s : State) (m now : Nat) (v : BitVec 32) :
    s.evtFireWrite m (v ||| 0x100) now =
      if s.mgmtOwnsDom m (v.toNat % 32) then s.domSend (v.toNat % 32) now else s.satInc Reg.evtStat 15 0 := by
  have hbit : bitsOf (v ||| 0x100).toNat 8 8 = 1 := by
    rw [bitsOf_eq_one_iff, BitVec.getLsbD_or]
    simp
  have hlow : bitsOf (v ||| 0x100).toNat 7 0 % 32 = v.toNat % 32 := by
    have h := congrArg BitVec.toNat (show (v ||| 0x100).setWidth 5 = v.setWidth 5 by ext i hi; simp)
    rw [BitVec.toNat_setWidth, BitVec.toNat_setWidth] at h
    rw [bitsOf_low]
    omega
  rw [State.evtFireWrite, if_pos hbit, hlow]

/-- A message for all other parts leaves at both ring ports. -/
theorem State.sendCtl_injects {s : State} {a b : W64} (hr : s.ringSize ≠ 0) (h0 : (s.port 0).lost = false)
    (h1 : (s.port 1).lost = false) {p : Nat} (hp : p < 2) :
    ∃ f, ((s.sendCtl [a, b]).port p).inject = (s.port p).inject ++ [f] ∧ f.body[2]? = some a ∧ f.cls = 2 ∧ f.vc = 3 ∧
      f.src = BitVec.ofNat 5 s.pos := by
  obtain ⟨f, hf⟩ : ∃ f : Flit, f = { s.mkFlit 1 s.pos 3 2 1023 (pktBody 0 6 [a, b]) with eseq := (s.tx (s.pos * 4 + 3)).next } :=
    ⟨_, rfl⟩
  obtain ⟨u, hu⟩ : ∃ u, u = s.setTx (s.pos * 4 + 3) { s.tx (s.pos * 4 + 3) with next := (s.tx (s.pos * 4 + 3)).next + 1 } := ⟨_, rfl⟩
  have hport : ∀ q, u.port q = s.port q := fun q => by rw [hu]; rfl
  have hsend : s.sendCtl [a, b] = (u.inject 0 f).inject 1 f := by
    have hfirst : u.toPort 0 f = u.inject 0 f := if_pos (by rw [hport, h0]; rfl)
    have hsecond : (u.inject 0 f).toPort 1 f = (u.inject 0 f).inject 1 f :=
      if_pos (by rw [State.inject, State.port_updPort_ne _ _ (by decide), hport, h1]; rfl)
    rw [← hsecond, ← hfirst, hf, hu]
    exact if_neg hr
  refine ⟨f, ?_, by rw [hf]; rfl, by rw [hf]; rfl, by rw [hf]; rfl, by rw [hf]; rfl⟩
  rw [hsend]
  obtain rfl | rfl : p = 0 ∨ p = 1 := by omega
  · rw [State.inject, State.port_updPort_ne _ _ (by decide), State.inject, State.port_updPort, hport]
  · rw [State.inject, State.port_updPort, State.inject, State.port_updPort_ne _ _ (by decide), hport]

/-- Fault records change no register of the Event Fabric. -/
theorem evt_notMem_faultOffs {off : Nat} (h : 0xB00000 ≤ off) (h' : off < 0xC00000) : off ∉ faultOffs := by
  simp only [faultOffs, Reg.ringCntDrop, Reg.fltCntFwd, Reg.fltCntCoal, Reg.fltStat, Reg.pairStat, Reg.pairHandoffLap, Reg.fltOvf,
    List.mem_append, List.mem_cons, List.not_mem_nil, or_false, List.mem_map, List.mem_range, not_or, not_exists, not_and]
  exact ⟨by omega, fun c _ => by omega⟩

/-- A Domain channel that may be sent now is broadcast, and arrives at once. -/
theorem State.domSend_spec {s : State} {d now : Nat} (hd : d < 32)
    (hlast : SMap.get 0 s.evt.domLast d = 0 ∨ SMap.get 0 s.evt.domLast d + 4 ≤ now + 1) :
    let t := s.domSend d now
    SMap.get 0 t.evt.domLast d = now + 1 ∧ t.m = s.m ∧ t.sta = s.sta ∧
      (∀ c, s.soleListener (0x200 + d) c → s.accepts c now = true → t.flag c = true) ∧
      (s.ringSize ≠ 0 → (s.port 0).lost = false → (s.port 1).lost = false → ∀ p, p < 2 →
        ∃ f, (t.port p).inject = (s.port p).inject ++ [f] ∧ f.body[2]? = some (BitVec.ofNat 64 (d * 256 + 1)) ∧
          f.cls = 2 ∧ f.vc = 3 ∧ f.src = BitVec.ofNat 5 s.pos) := by
  intro t
  obtain ⟨u, hu⟩ : ∃ u : State, u = { s with evt := { s.evt with domLast := SMap.set 0 s.evt.domLast d (now + 1) } } := ⟨_, rfl⟩
  obtain ⟨w, hw⟩ : ∃ w, w = u.sendCtl [BitVec.ofNat 64 (d * 256 + 1), 0] := ⟨_, rfl⟩
  have ht : t = w.fireCode (0x200 + d) now := by
    have hne : ¬ (SMap.get 0 s.evt.domLast d ≠ 0 ∧ now + 1 < SMap.get 0 s.evt.domLast d + 4) := by omega
    have harrive : t = w.domArrive d now := by
      rw [hw, hu]
      exact if_neg hne
    rw [harrive, State.domArrive, Nat.mod_eq_of_lt hd]
  clear_value t
  obtain ⟨hframe, hregs, -⟩ := FaultOnly.sendCtl u [BitVec.ofNat 64 (d * 256 + 1), 0]
  have hinject := fun p => State.sendCtl_injects (s := u) (a := BitVec.ofNat 64 (d * 256 + 1)) (b := 0) (p := p)
  rw [← hw] at hframe hregs hinject
  have hum : u.m = s.m := by rw [hu]
  have hus : u.sta = s.sta := by rw [hu]
  have hport : ∀ p, u.port p = s.port p := fun p => by rw [hu]; rfl
  have hsize : u.ringSize = s.ringSize := by rw [hu]; rfl
  have hpos : u.pos = s.pos := by rw [hu]; rfl
  have hevt : w.evt = u.evt := by rw [hframe]
  have hkept : EvtKept s w := fun r h1 h2 _ => by
    rw [hregs r (evt_notMem_faultOffs h1 h2), hu]
    rfl
  obtain ⟨hpulse, -⟩ := PulseOnly.fireCode w (0x200 + d) now
  have hmarks := w.evt_fireCode (0x200 + d) now
  have hflag := fun c => hkept.flag_fireCode (code := 0x200 + d) (c := c) (now := now) (by rw [hevt, hu])
  dsimp only at hmarks
  rw [← ht] at hpulse hmarks hflag
  refine ⟨?_, ?_, ?_, hflag, fun hr h0 h1 p hp => ?_⟩
  · rw [congrArg Events.domLast hmarks, hevt, hu]
    exact SMap.get_set_self 0 s.evt.domLast d (now + 1)
  · rw [hpulse, hframe, hum]
  · rw [hpulse, hframe, hus]
  · obtain ⟨f, hf, hbody, hcls, hvc, hsrc⟩ := hinject p (by rwa [hsize]) (by rwa [hport]) (by rwa [hport]) hp
    have htp : t.port p = w.port p := by rw [hpulse]; rfl
    exact ⟨f, by rw [htp, hf, hport], hbody, hcls, hvc, by rw [hsrc, hpos]⟩

theorem State.soleListener.lt {s : State} {code c : Nat} (h : s.soleListener code c) : c < 256 :=
  List.mem_range.1 (List.mem_of_mem_filter (by rw [h]; exact List.mem_singleton_self c))

theorem dom_completes {s : State} {m : Nat} (now : Nat) (v : BitVec 32) (hd : s.direct m Reg.evtFire.off = true) :
    let d := v.toNat % 32
    let n := s.noted m Reg.evtFire.off (v ||| 0x100)
    let last := SMap.get 0 s.evt.domLast d
    (s.mgmtOwnsDom m d = false → exec (.dom m v now) s = .next (n.satInc Reg.evtStat 15 0)) ∧
    (s.mgmtOwnsDom m d = true → last ≠ 0 → now + 1 < last + 4 →
      exec (.dom m v now) s = .next (n.satInc Reg.evtStat 31 16)) ∧
    (s.mgmtOwnsDom m d = true → (last = 0 ∨ last + 4 ≤ now + 1) →
      ∃ t, exec (.dom m v now) s = .next t ∧ SMap.get 0 t.evt.domLast d = now + 1 ∧ t.m = s.m ∧ t.sta = s.sta ∧
        (∀ c, s.soleListener (0x200 + d) c → s.accepts c now = true → t.flag c = true) ∧
        (s.ringSize ≠ 0 → (s.port 0).lost = false → (s.port 1).lost = false → ∀ p, p < 2 →
          ∃ f, (t.port p).inject = (s.port p).inject ++ [f] ∧ f.body[2]? = some (BitVec.ofNat 64 (d * 256 + 1)) ∧
            f.cls = 2 ∧ f.vc = 3 ∧ f.src = BitVec.ofNat 5 s.pos)) := by
  intro d n last
  have hd32 : d < 32 := Nat.mod_lt _ (by decide)
  have hn : NotedOnly s n := NotedOnly.noted ..
  have hexec : exec (.dom m v now) s = .next (if s.mgmtOwnsDom m d then n.domSend d now else n.satInc Reg.evtStat 15 0) := by
    rw [exec_dom hd, State.evtFireWrite_dom, hn.mgmtOwnsDom m hd32]
  rw [hexec]
  clear hexec
  clear_value n
  have hevt : n.evt = s.evt := by rw [hn.1]
  have hm : n.m = s.m := by rw [hn.1]
  have hsta : n.sta = s.sta := by rw [hn.1]
  have hport : ∀ p, n.port p = s.port p := fun p => by rw [hn.1]; rfl
  have hsize : n.ringSize = s.ringSize := hn.2.fld (by decide) 13 8
  have hpos : n.pos = s.pos := hn.2.fld (by decide) 4 0
  have hlast : SMap.get 0 n.evt.domLast d = last := by rw [hevt]
  refine ⟨fun ho => by rw [ho]; rfl, fun ho h0 hsoon => ?_, fun ho hfree => ?_⟩
  · rw [ho, if_pos rfl, State.domSend]
    exact congrArg Host.Outcome.next (if_pos (by rw [hlast]; exact ⟨h0, hsoon⟩))
  · obtain ⟨k1, k2, k3, k4, k5⟩ := State.domSend_spec (s := n) hd32 (now := now) (by rwa [hlast])
    rw [ho, if_pos rfl]
    generalize n.domSend d now = t at k1 k2 k3 k4 k5
    refine ⟨t, rfl, k1, k2.trans hm, k3.trans hsta, fun c hs ha => ?_, fun hr h0 h1 p hp => ?_⟩
    · exact k4 c (hn.evtKept.soleListener hs) ((hn.evtKept.accepts hs.lt (by rw [hevt]) now).trans ha)
    · rw [← hport, ← hpos]
      exact k5 (by rwa [hsize]) (by rwa [hport]) (by rwa [hport]) p hp

/-- Nothing differs but channel `c`'s flag and status. -/
def ChannelOnly (c : Nat) (s t : State) : Prop :=
  t = { s with regs := t.regs } ∧ OnlyRegs s t [(Reg.evtFlag (c / 32)).off, (Reg.evtChStat c).off] ∧
    ∀ d, d < 256 → d ≠ c → t.flag d = s.flag d

theorem State.flag_setFlag_ne (s : State) {c d : Nat} (hne : d ≠ c) (v : Bool) : (s.setFlag c v).flag d = s.flag d := by
  rw [State.setFlag, State.flag, State.flag]
  by_cases hk : d / 32 = c / 32
  · rw [hk, State.bit_setBit_apart _ _ (Nat.mod_lt _ (by decide)) (by omega)]
  · exact State.bit_setBit_ne _ _ _ _ _ _ (by simp only [Reg.evtFlag]; omega)

theorem State.flag_denied (s : State) {c d : Nat} (hd : d < 256) : (s.denied c).flag d = s.flag d :=
  (s.satInc_frame (Reg.evtChStat c) 23 16).2.bit (by simp only [Reg.evtFlag, Reg.evtChStat, List.mem_singleton]; omega) _

theorem ChannelOnly.flagClear (s : State) (m c : Nat) : ChannelOnly c s (s.flagClear m c) := by
  rw [State.flagClear]
  split
  · exact ⟨s.setBit_frame .., OnlyRegs.setBit s (List.mem_cons_self ..) _ _, fun d _ hne => s.flag_setFlag_ne hne false⟩
  · obtain ⟨hf, hr⟩ := s.satInc_frame (Reg.evtChStat c) 23 16
    exact ⟨hf, hr.mono (by simp), fun d hd _ => s.flag_denied hd⟩

/-- What a clear of channel `c` goes by. -/
def ChannelKept (m c : Nat) (s t : State) : Prop :=
  t.flag c = s.flag c ∧ t.fld (Reg.evtChStat c) 23 16 = s.fld (Reg.evtChStat c) 23 16 ∧ t.mgmtOwns m c = s.mgmtOwns m c

theorem ChannelOnly.kept {c d : Nat} {s t : State} (h : ChannelOnly d s t) (hd : d < 256) (hc : c < 256) (hne : c ≠ d) (m : Nat) :
    ChannelKept m c s t := by
  obtain ⟨hf, hr, hflag⟩ := h
  refine ⟨hflag c hc hne, hr.fld ?_ 23 16, State.mgmtOwns_congr (hr _ ?_) ?_ m⟩
  · simp only [Reg.evtChStat, Reg.evtFlag, List.mem_cons, List.not_mem_nil, or_false]
    omega
  · simp only [Reg.evtChCfg, Reg.evtFlag, Reg.evtChStat, List.mem_cons, List.not_mem_nil, or_false]
    omega
  · refine State.actMode_congr (by rw [hf]) (by rw [hf]) (hr _ ?_)
    simp only [Reg.pwrDuskStat, Reg.evtFlag, Reg.evtChStat, List.mem_cons, List.not_mem_nil, or_false]
    omega

theorem State.flagClear_spec (s : State) (m : Nat) {c : Nat} (hc : c < 256) :
    (s.flagClear m c).flag c = (s.flag c && !s.mgmtOwns m c) ∧
      (s.mgmtOwns m c = false → (s.flagClear m c).fld (Reg.evtChStat c) 23 16 = Nat.min 255 (s.fld (Reg.evtChStat c) 23 16 + 1)) := by
  rw [State.flagClear]
  cases s.mgmtOwns m c with
  | true =>
    refine ⟨?_, nofun⟩
    rw [if_pos rfl, Bool.not_true, Bool.and_false]
    exact s.bit_setBit (Reg.evtFlag (c / 32)) (Nat.mod_lt c (by decide)) false
  | false => exact ⟨by simpa using s.flag_denied hc, fun _ => s.fld_satInc (Reg.evtChStat c) (by decide) (by decide)⟩

theorem evtFlag_completes {s : State} {m k : Nat} (v : BitVec 32) (hk : k < 8) (hd : s.direct m (Reg.evtFlag k).off = true) :
    let n := s.noted m (Reg.evtFlag k).off v
    ∃ t, exec (.evtFlag m k v) s = .next t ∧ t = { n with regs := t.regs } ∧
      OnlyRegs n t ((Reg.evtFlag k).off :: (List.range 32).map (fun b => (Reg.evtChStat (32 * k + b)).off)) ∧
      (∀ b, b < 32 → t.flag (32 * k + b) = (s.flag (32 * k + b) && !(v.getLsbD b && s.mgmtOwns m (32 * k + b)))) ∧
      (∀ b, b < 32 → v.getLsbD b = true → s.mgmtOwns m (32 * k + b) = false →
        t.fld (Reg.evtChStat (32 * k + b)) 23 16 = Nat.min 255 (s.fld (Reg.evtChStat (32 * k + b)) 23 16 + 1)) := by
  intro n
  have hn : NotedOnly s n := NotedOnly.noted ..
  refine ⟨n.evtFlagWrite m k v, exec_evtFlag hk hd v, ?_⟩
  clear_value n
  have hfold : n.evtFlagWrite m k v =
      (List.range 32).foldl (fun s b => if v.getLsbD b then s.flagClear m (32 * k + b) else s) n := List.foldl_filter ..
  have hstep : ∀ (u : State) (b : Nat), ChannelOnly (32 * k + b) u (if v.getLsbD b then u.flagClear m (32 * k + b) else u) :=
    fun u b => by
      split
      · exact .flagClear u m _
      · exact ⟨rfl, OnlyRegs.refl u _, fun _ _ _ => rfl⟩
  have hframe : ∀ (l : List Nat) (u : State), (∀ b ∈ l, b < 32) →
      let t := l.foldl (fun s b => if v.getLsbD b then s.flagClear m (32 * k + b) else s) u
      t = { u with regs := t.regs } ∧
        OnlyRegs u t ((Reg.evtFlag k).off :: (List.range 32).map (fun b => (Reg.evtChStat (32 * k + b)).off)) := by
    intro l
    induction l with
    | nil => exact fun u _ => ⟨rfl, OnlyRegs.refl u _⟩
    | cons b l ih =>
      intro u hl
      obtain ⟨h1, h2, -⟩ := hstep u b
      rw [List.foldl_cons]
      generalize (if v.getLsbD b then u.flagClear m (32 * k + b) else u) = w at h1 h2
      obtain ⟨k1, k2⟩ := ih w (fun x hx => hl x (List.mem_cons_of_mem _ hx))
      have hb := hl b List.mem_cons_self
      refine ⟨k1.trans (by rw [h1]), (h2.mono ?_).trans k2⟩
      rw [show (32 * k + b) / 32 = k by omega]
      exact List.cons_subset_cons _ (List.cons_subset.2 ⟨List.mem_map.2 ⟨b, List.mem_range.2 hb, rfl⟩, List.nil_subset _⟩)
  have hat : ∀ b, b < 32 → ∃ u, ChannelKept m (32 * k + b) n u ∧
      ChannelKept m (32 * k + b) (if v.getLsbD b then u.flagClear m (32 * k + b) else u) (n.evtFlagWrite m k v) := fun b hb => by
    rw [hfold]
    exact foldl_range_at (R := ChannelKept m (32 * k + b)) (fun _ => ⟨rfl, rfl, rfl⟩)
      (fun _ _ _ h g => ⟨g.1.trans h.1, g.2.1.trans h.2.1, g.2.2.trans h.2.2⟩)
      hb
      (fun u i hi hne => (hstep u i).kept (by omega) (by omega) (by omega) m) n
  have hflag : ∀ b, b < 32 → n.flag (32 * k + b) = s.flag (32 * k + b) := fun b hb => by
    rw [State.flag, State.flag, State.bit, State.bit, State.fld, State.fld, hn.rd_evt (by simp only [Reg.evtFlag]; omega)]
  have howns : ∀ b, b < 32 → n.mgmtOwns m (32 * k + b) = s.mgmtOwns m (32 * k + b) := fun b hb => hn.mgmtOwns (by omega) m
  have hstat : ∀ b, b < 32 → n.fld (Reg.evtChStat (32 * k + b)) 23 16 = s.fld (Reg.evtChStat (32 * k + b)) 23 16 := fun b hb => by
    rw [State.fld, State.fld, hn.rd_evt (by simp only [Reg.evtChStat]; omega)]
  refine ⟨?_, ?_, fun b hb => ?_, fun b hb hv ho => ?_⟩
  · rw [hfold]
    exact (hframe _ n (fun b => List.mem_range.1)).1
  · rw [hfold]
    exact (hframe _ n (fun b => List.mem_range.1)).2
  · obtain ⟨u, ⟨h1, -, h3⟩, k1, -⟩ := hat b hb
    rw [k1, ← hflag b hb, ← howns b hb, ← h1, ← h3]
    cases v.getLsbD b with
    | true => exact (u.flagClear_spec m (by omega)).1
    | false => simp
  · obtain ⟨u, ⟨-, h2, h3⟩, -, k2, -⟩ := hat b hb
    rw [k2, ← hstat b hb, ← h2, hv, if_pos rfl]
    exact (u.flagClear_spec m (by omega)).2 (by rw [h3, howns b hb, ho])

theorem groupEn_completes {s : State} {m : Nat} (v : BitVec 32) (on off : BitVec 16) (hd : s.direct m Reg.evtGroupEn.off = true) :
    let n := s.noted m Reg.evtGroupEn.off v
    ∃ t, exec (.evtGroupEn m v on off) s = .next t ∧ t = { n with regs := t.regs } ∧ OnlyRegs n t [Reg.evtGroupEn.off] ∧
      t.rd Reg.evtGroupEn = if s.bit Reg.evtCfg 0 = true then (((v.setWidth 16) ||| on) &&& ~~~off).setWidth 32
        else s.rd Reg.evtGroupEn := by
  intro n
  have hn : NotedOnly s n := NotedOnly.noted ..
  refine ⟨n.groupEnWrite v on off, exec_evtGroupEn hd v on off, ?_⟩
  clear_value n
  have hcfg : n.bit Reg.evtCfg 0 = s.bit Reg.evtCfg 0 := hn.2.bit (by decide) 0
  have hen : n.rd Reg.evtGroupEn = s.rd Reg.evtGroupEn := hn.2 _ (by decide)
  rw [State.groupEnWrite, hcfg]
  cases s.bit Reg.evtCfg 0 with
  | true =>
    refine ⟨rfl, (OnlyRegs.wr n (List.mem_singleton_self _) _).trans (OnlyRegs.wr _ (List.mem_singleton_self _) _), ?_⟩
    rw [if_pos rfl, if_pos rfl, State.groupOps, State.rd_wr, State.rd_wr]
    ext i hi
    by_cases h16 : i < 16
    · simp [h16, hi]
    · simp [h16, hi, BitVec.getLsbD_of_ge on i (Nat.le_of_not_lt h16)]
  | false => exact ⟨rfl, OnlyRegs.refl n _, hen⟩

theorem closed_completes {s : State} {m c : Nat} (hc : c < 256) (hd : s.direct m (Reg.evtChStat c).off = true) :
    exec (.closed m c) s = .next
      (if s.mgmtOwns m c then (s.noted m (Reg.evtChStat c).off 2).setBit (Reg.evtChStat c) 1 false
       else (s.noted m (Reg.evtChStat c).off 2).satInc (Reg.evtChStat c) 23 16) := by
  rw [exec_closed hc hd, State.reopen, (NotedOnly.noted s m _ 2).mgmtOwns hc, State.denied]

/-! ### Pins (R456, R457, R554) -/

theorem exec_pin {s : State} {i : Nat} {level : Bool} (hw : s.windowUp = true) (hm : s.actMode ≠ .replay) (hi : i < 16)
    (hb : s.bit Reg.evtPinStat i = !level) (stamp : Nat) : exec (.pin i level stamp) s = .next (s.pinEdge i level stamp) :=
  if_pos ⟨hw, hm, hi, by rw [hb]; exact Bool.not_ne_self level⟩

/-- The pin's level shows, and its stuck count starts again. -/
def State.pinShown (s : State) (i : Nat) (level : Bool) : State :=
  { s.setBit Reg.evtPinStat i level with
    evt := { (s.setBit Reg.evtPinStat i level).evt with
      pinLaps := SMap.set 0 (s.setBit Reg.evtPinStat i level).evt.pinLaps i 0 } }

/-- An edge that is not within 30 ns of the last is noted and logged. -/
def State.pinNoted (s : State) (i : Nat) (level : Bool) (stamp : Nat) : State :=
  ({ s with evt := { s.evt with pinLast := SMap.set 0 s.evt.pinLast i (stamp + 1) } } : State).log 0x06 (level.toNat * 16 + i)
    (BitVec.ofNat 64 stamp) []

theorem State.pinEdge_near {s : State} {i stamp : Nat} (h0 : SMap.get 0 s.evt.pinLast i ≠ 0)
    (h : stamp + 1 < SMap.get 0 s.evt.pinLast i + 30) (level : Bool) : s.pinEdge i level stamp = s.pinShown i level :=
  if_pos ⟨h0, h⟩

theorem State.pinEdge_apart {s : State} {i stamp : Nat}
    (h : SMap.get 0 s.evt.pinLast i = 0 ∨ SMap.get 0 s.evt.pinLast i + 30 ≤ stamp + 1) (level : Bool) :
    s.pinEdge i level stamp =
      let w := (s.pinShown i level).pinNoted i level stamp
      if edgeSelected (s.fld (Reg.evtPinCfg i) 1 0) level then w.fireCode (0x010 + i) w.hubNow else w :=
  if_neg (by omega)

theorem State.pinShown_spec (s : State) {i : Nat} (hi : i < 16) (level : Bool) :
    let w := s.pinShown i level
    w = { s with regs := w.regs, evt := { s.evt with pinLaps := w.evt.pinLaps } } ∧ OnlyRegs s w [Reg.evtPinStat.off] ∧
      w.bit Reg.evtPinStat i = level ∧ SMap.get 0 w.evt.pinLaps i = 0 := by
  have hb := s.bit_setBit Reg.evtPinStat (Nat.lt_trans hi (by decide)) level
  have hr := OnlyRegs.setBit s (List.mem_singleton_self Reg.evtPinStat.off) i level
  have hf := s.setBit_frame Reg.evtPinStat i level
  have hw : s.pinShown i level = { s.setBit Reg.evtPinStat i level with evt := { (s.setBit Reg.evtPinStat i level).evt with
    pinLaps := SMap.set 0 (s.setBit Reg.evtPinStat i level).evt.pinLaps i 0 } } := rfl
  generalize s.setBit Reg.evtPinStat i level = u at hb hr hf hw
  obtain ⟨x, rfl⟩ : ∃ x, u = { s with regs := x } := ⟨_, hf⟩
  rw [hw]
  exact ⟨rfl, hr, hb, SMap.get_set_self 0 s.evt.pinLaps i 0⟩

theorem State.pinNoted_spec (s : State) (i : Nat) (level : Bool) (stamp : Nat) :
    let w := s.pinNoted i level stamp
    w = { s with regs := w.regs, evt := w.evt, recd := w.recd } ∧ OnlyRegs s w [Reg.recStat.off] ∧
      w.evt = { s.evt with pinLast := SMap.set 0 s.evt.pinLast i (stamp + 1) } := by
  obtain ⟨u, hu⟩ : ∃ u : State, u = { s with evt := { s.evt with pinLast := SMap.set 0 s.evt.pinLast i (stamp + 1) } } := ⟨_, rfl⟩
  obtain ⟨hf, hr⟩ := u.log_frame 0x06 (level.toNat * 16 + i) (BitVec.ofNat 64 stamp) []
  have hw : s.pinNoted i level stamp = u.log 0x06 (level.toNat * 16 + i) (BitVec.ofNat 64 stamp) [] := by rw [hu]; rfl
  rw [← hw] at hf hr
  have hus : OnlyRegs s u [Reg.recStat.off] := .of_regs (by rw [hu])
  exact ⟨by rw [hf, hu], hus.trans hr, by rw [hf, hu]⟩

theorem evtPinStat_notMem_pulseOffs : Reg.evtPinStat.off ∉ pulseOffs := by
  simp only [pulseOffs, List.mem_cons, List.mem_append, List.mem_map, List.mem_flatMap, List.mem_range, List.not_mem_nil, or_false,
    Reg.evtFlag, Reg.evtGroupEn, Reg.evtChStat, Reg.cdtCount, Reg.cdtStat, Reg.evtPinStat]
  rintro (h | (⟨a, ha, h⟩ | ⟨a, _, h⟩) | ⟨a, _, h | h⟩) <;> omega

/-- What may differ after a change of a pin. -/
def PinOnly (s t : State) : Prop :=
  t = { s with regs := t.regs, evt := t.evt, engines := t.engines, recd := t.recd } ∧
    OnlyRegs s t (Reg.evtPinStat.off :: Reg.recStat.off :: pulseOffs)

theorem PinOnly.fireCode {s w : State} (h : PinOnly s w) (code now : Nat) : PinOnly s (w.fireCode code now) := by
  obtain ⟨hf, hr⟩ := h
  obtain ⟨kf, kr⟩ := PulseOnly.fireCode w code now
  refine ⟨by rw [kf, hf], hr.trans (kr.mono fun o ho => List.mem_cons_of_mem _ (List.mem_cons_of_mem _ ho))⟩

theorem pin_completes {s : State} {i : Nat} {level : Bool} (stamp : Nat) (hw : s.windowUp = true) (hm : s.actMode ≠ .replay)
    (hi : i < 16) (hb : s.bit Reg.evtPinStat i = !level) :
    let last := SMap.get 0 s.evt.pinLast i
    ∃ t, exec (.pin i level stamp) s = .next t ∧ t.bit Reg.evtPinStat i = level ∧ SMap.get 0 t.evt.pinLaps i = 0 ∧
      t = { s with regs := t.regs, evt := t.evt, engines := t.engines, recd := t.recd } ∧
      OnlyRegs s t (Reg.evtPinStat.off :: Reg.recStat.off :: pulseOffs) ∧
      (last ≠ 0 → stamp + 1 < last + 30 → OnlyRegs s t [Reg.evtPinStat.off]) ∧
      ((last = 0 ∨ last + 30 ≤ stamp + 1) → SMap.get 0 t.evt.pinLast i = stamp + 1 ∧
        (edgeSelected (s.fld (Reg.evtPinCfg i) 1 0) level = true → ∀ c, s.soleListener (0x010 + i) c →
          s.accepts c s.hubNow = true → t.flag c = true) ∧
        (edgeSelected (s.fld (Reg.evtPinCfg i) 1 0) level = false → t.evt.count = s.evt.count)) := by
  intro last
  rw [exec_pin hw hm hi hb]
  obtain ⟨hf, hr, hbit, hlaps⟩ := s.pinShown_spec hi level
  by_cases hnear : last ≠ 0 ∧ stamp + 1 < last + 30
  · rw [State.pinEdge_near hnear.1 hnear.2]
    generalize s.pinShown i level = t at hf hr hbit hlaps
    exact ⟨t, rfl, hbit, hlaps, by rw [hf], hr.mono (by simp), fun _ _ => hr, fun h => by omega⟩
  have hapart : last = 0 ∨ last + 30 ≤ stamp + 1 := by omega
  rw [State.pinEdge_apart hapart]
  obtain ⟨kf, kr, ke⟩ := (s.pinShown i level).pinNoted_spec i level stamp
  dsimp only at hf kf ⊢
  generalize s.pinShown i level = u at hf hr hbit hlaps kf kr ke
  generalize u.pinNoted i level stamp = w at kf kr ke
  have hevt : u.evt = { s.evt with pinLaps := u.evt.pinLaps } := congrArg State.evt hf
  have hwevt : w.evt = { s.evt with pinLaps := u.evt.pinLaps, pinLast := SMap.set 0 s.evt.pinLast i (stamp + 1) } := by
    rw [ke, hevt]
  have hwlast : SMap.get 0 w.evt.pinLast i = stamp + 1 := by
    rw [congrArg Events.pinLast hwevt]
    exact SMap.get_set_self 0 s.evt.pinLast i (stamp + 1)
  have hwbit : w.bit Reg.evtPinStat i = level := (kr.bit (by decide) i).trans hbit
  have hregs : OnlyRegs s w [Reg.evtPinStat.off, Reg.recStat.off] := (hr.mono (by simp)).trans (kr.mono (by simp))
  have hwlaps : SMap.get 0 w.evt.pinLaps i = 0 := by rw [congrArg Events.pinLaps hwevt]; exact hlaps
  have honly : PinOnly s w := ⟨by rw [kf, hf], hregs.mono (by simp)⟩
  have hkept : EvtKept s w := fun r h1 h2 h3 => hregs r (by
    simp only [List.mem_cons, List.not_mem_nil, or_false, not_or]
    exact ⟨h3, fun h => absurd (h ▸ h2) (by decide)⟩)
  have hub : w.hubNow = s.hubNow := by rw [honly.1]; rfl
  cases hsel : edgeSelected (s.fld (Reg.evtPinCfg i) 1 0) level with
  | false =>
    rw [if_neg Bool.false_ne_true]
    exact ⟨w, rfl, hwbit, hwlaps, honly.1, honly.2, fun h0 h => absurd ⟨h0, h⟩ hnear, fun _ =>
      ⟨hwlast, nofun, fun _ => by rw [hwevt]⟩⟩
  | true =>
    rw [if_pos rfl, hub]
    have hmarks := w.evt_fireCode (0x010 + i) s.hubNow
    obtain ⟨hfire, hfregs⟩ := honly.fireCode (0x010 + i) s.hubNow
    have hpin := (PulseOnly.fireCode w (0x010 + i) s.hubNow).2.bit evtPinStat_notMem_pulseOffs i
    have hflag := fun c => hkept.flag_fireCode (code := 0x010 + i) (c := c) (now := s.hubNow) (by rw [hwevt])
    dsimp only at hmarks
    generalize w.fireCode (0x010 + i) s.hubNow = t at hmarks hfire hfregs hpin hflag
    refine ⟨t, rfl, hpin.trans hwbit, ?_, hfire, hfregs, fun h0 h => absurd ⟨h0, h⟩ hnear, fun _ => ⟨?_, fun _ => hflag, nofun⟩⟩
    · rw [congrArg Events.pinLaps hmarks]
      exact hwlaps
    · rw [congrArg Events.pinLast hmarks]
      exact hwlast

theorem stuck_completes {s : State} {i : Nat} (hw : s.windowUp = true) (hm : s.actMode ≠ .replay) (hi : i < 16)
    (hb : s.bit Reg.evtPinStat i = true) :
    let lim := s.fld (Reg.evtPinCfg i) 31 24
    lim ≠ 0 → lim < SMap.get 0 s.evt.pinLaps i → SMap.get 0 s.evt.pinLaps i ≤ 256 →
    ∃ t, exec (.stuck i) s = .next t ∧ t.bit Reg.evtPinStat (16 + i) = true ∧ SMap.get 0 t.evt.pinLaps i = 999 ∧
      t = { s with regs := t.regs, evt := t.evt, engines := t.engines } ∧ OnlyRegs s t (Reg.evtPinStat.off :: pulseOffs) ∧
      ∀ c, s.soleListener (0x020 + i) c → s.accepts c s.hubNow = true → t.flag c = true := by
  intro lim h0 hlim hmax
  have hbit := s.bit_setBit Reg.evtPinStat (show 16 + i < 32 by omega) true
  have hr := OnlyRegs.setBit s (List.mem_singleton_self Reg.evtPinStat.off) (16 + i) true
  have hf := s.setBit_frame Reg.evtPinStat (16 + i) true
  have hexec : exec (.stuck i) s = .next (({ s.setBit Reg.evtPinStat (16 + i) true with
      evt := { (s.setBit Reg.evtPinStat (16 + i) true).evt with
        pinLaps := SMap.set 0 (s.setBit Reg.evtPinStat (16 + i) true).evt.pinLaps i 999 } } : State).fireCode (0x020 + i) s.hubNow) :=
    if_pos ⟨hw, hm, hi, hb, h0, hlim, hmax⟩
  rw [hexec]
  clear hexec
  generalize s.setBit Reg.evtPinStat (16 + i) true = u at hbit hr hf
  obtain ⟨x, rfl⟩ : ∃ x, u = { s with regs := x } := ⟨_, hf⟩
  obtain ⟨w, hw⟩ : ∃ w : State, w = { s with regs := x, evt := { s.evt with pinLaps := SMap.set 0 s.evt.pinLaps i 999 } } := ⟨_, rfl⟩
  have hregs : OnlyRegs s w [Reg.evtPinStat.off] := hr.trans (.of_regs (by rw [hw]))
  have hkept : EvtKept s w := fun r _ _ h3 => hregs r (fun h => h3 (List.mem_singleton.1 h))
  have hwbit : w.bit Reg.evtPinStat (16 + i) = true := (State.bit_congr (by rw [hw]) _ _).trans hbit
  obtain ⟨hfire, hfregs⟩ := PulseOnly.fireCode w (0x020 + i) s.hubNow
  have hmarks := w.evt_fireCode (0x020 + i) s.hubNow
  have hflag := fun c => hkept.flag_fireCode (code := 0x020 + i) (c := c) (now := s.hubNow) (by rw [hw])
  dsimp only at hmarks ⊢
  rw [← hw]
  generalize w.fireCode (0x020 + i) s.hubNow = t at hfire hfregs hmarks hflag
  refine ⟨t, rfl, (hfregs.bit evtPinStat_notMem_pulseOffs _).trans hwbit, ?_, by rw [hfire, hw],
    (hregs.mono (by simp)).trans (hfregs.mono (List.subset_cons_self ..)), hflag⟩
  rw [congrArg Events.pinLaps hmarks, hw]
  exact SMap.get_set_self 0 s.evt.pinLaps i 999

/-- Settles O38: a pulse by what refuses or accepts it, a management write by its owner, a pin by its edge. -/
theorem eventFabric : Obligations.EventFabric :=
  ⟨⟨fun _ _ _ now hw hc h0 hl =>
      have hrefused := pulse_completes now hw hc h0 hl
      ⟨hrefused.1, hrefused.2.1, hrefused.2.2, pulse_accepted hw hc h0 hl⟩,
    fun _ _ _ now hl => exec_pulse_unlisted hl now⟩,
   ⟨fun _ _ now _ hd h8 => evtFire_completes now hd h8, fun _ _ now v hd => dom_completes now v hd,
    fun _ _ _ v hk hd => evtFlag_completes v hk hd, fun _ _ v on off hd => groupEn_completes v on off hd,
    fun _ _ _ hc hd => closed_completes hc hd⟩,
   ⟨fun _ _ _ stamp hw hm hi hb => pin_completes stamp hw hm hi hb, fun _ _ hw hm hi hb => stuck_completes hw hm hi hb⟩⟩

end Sys2Proof.Machine

/-!
PROOFS. Decoders, host accesses to memory, resets of the host port and configuration space. Settles O52.
-/

namespace Sys2Proof.Machine

/-! ### COMMIT (R480) -/

/-- A decoder is given its range. -/
def State.putHdm (s : State) (n : Nat) (x : Hdm) : State := { s with host := { s.host with hdm := SMap.set Hdm.init s.host.hdm n x } }

theorem State.hdm_putHdm (s : State) (n : Nat) (x : Hdm) : (s.putHdm n x).hdm n = x := SMap.get_set_self _ _ _ _

theorem State.hdm_putHdm_ne (s : State) {n k : Nat} (x : Hdm) (h : k ≠ n) : (s.putHdm n x).hdm k = s.hdm k :=
  SMap.get_set_ne _ _ _ _ _ _ h

/-- The range of a decoder begins after the ranges of those before it, and what it skips. -/
theorem State.hdmBase_putHdm (s : State) (n : Nat) (x : Hdm) :
    (s.putHdm n x).hdmBase n = (List.range n).foldl (fun a k => a + (s.hdm k).skip + (s.hdm k).size) 0 + x.skip := by
  rw [State.hdmBase, s.hdm_putHdm]
  congr 1
  exact List.foldl_ext _ _ 0 fun a k hk => by rw [s.hdm_putHdm_ne x (Nat.ne_of_lt (List.mem_range.1 hk))]

theorem exec_commit {s : State} {n : Nat} (hl : s.bit Reg.hostStat 31 = true) (hv : 2 ≤ s.cxlVer) (hn : n < 4)
    (hc : (s.hdm n).committed = false) (base size skip : Nat) :
    exec (.commit n base size skip) s = .next
      (let bad := base % 2 ^ 28 ≠ 0 || size % 2 ^ 28 ≠ 0 || size = 0 ||
        2 ^ 52 < (s.putHdm n ⟨base, size, skip, false, false⟩).hdmBase n + size
       s.putHdm n ⟨base, size, skip, !bad, bad⟩) := by
  have hv1 : s.cxlVer ≠ 1 := by omega
  change execCommit n base size skip s = _
  rw [execCommit, if_neg (by simp [hl, hc]; omega), if_neg hv1]
  rfl

theorem commit_completes {s : State} {n : Nat} (base size skip : Nat) (hl : s.bit Reg.hostStat 31 = true) (hv : 2 ≤ s.cxlVer)
    (hn : n < 4) (hc : (s.hdm n).committed = false) :
    let first := (List.range n).foldl (fun a k => a + (s.hdm k).skip + (s.hdm k).size) 0 + skip
    let ok : Bool := base % 2 ^ 28 = 0 && size % 2 ^ 28 = 0 && size ≠ 0 && decide (first + size ≤ 2 ^ 52)
    ∃ t, exec (.commit n base size skip) s = .next t ∧
      t.hdm n = { base := base, size := size, skip := skip, committed := ok, err := !ok } ∧
      (∀ k, k ≠ n → t.hdm k = s.hdm k) ∧ t = { s with host := { s.host with hdm := t.host.hdm } } := by
  intro first ok
  have hbad : (base % 2 ^ 28 ≠ 0 || size % 2 ^ 28 ≠ 0 || size = 0 || decide (2 ^ 52 < first + size) : Bool) = !ok := by
    simp only [ok, Bool.not_and, decide_not, Bool.not_not, ← not_le]
  rw [exec_commit hl hv hn hc, s.hdmBase_putHdm, hbad]
  simp only [Bool.not_not]
  exact ⟨_, rfl, s.hdm_putHdm n _, fun k hk => s.hdm_putHdm_ne _ hk, rfl⟩

/-! ### CXL.mem (R20, R298, R304, R481) -/

section
variable {s : State} {hpa dpa : Nat} (hw : s.windowUp = true) (hl : s.bit Reg.hostStat 31 = true) (hv : s.cxlVer ≠ 0)
  (hd : s.hdmDpa hpa = some dpa)
include hw hl hv hd

theorem exec_cxlMemRead (n : Nat) : exec (.cxlMemRead hpa n) s = .next (s.hostMem (dpa / 64 * 64) true 0 Rec64.zero) := by
  change execCxlMemRead hpa n s = _
  rw [execCxlMemRead, hw, hl, decide_eq_false hv, hd]
  rfl

theorem exec_cxlMemWrite (be : BitVec 64) (d : Rec64) :
    exec (.cxlMemWrite hpa be d) s = .next (s.hostMem (dpa / 64 * 64) false be d) := by
  change execCxlMemWrite hpa be d s = _
  rw [execCxlMemWrite, hw, hl, decide_eq_false hv, hd]
  rfl

end

/-- The link's state is as before. -/
def LinkKept (s t : State) : Prop := t.rd Reg.hostStat = s.rd Reg.hostStat

theorem LinkKept.trans {s t u : State} (h : LinkKept s t) (k : LinkKept t u) : LinkKept s u := Eq.trans k h

theorem LinkKept.bit {s t : State} (h : LinkKept s t) : t.bit Reg.hostStat 31 = s.bit Reg.hostStat 31 := by
  rw [State.bit, State.bit, State.fld, State.fld, h]

theorem LinkKept.add64 (s : State) {r : RegRef} (h : r.off ≠ Reg.hostStat.off) (h' : r.off + 4 ≠ Reg.hostStat.off) (n : Nat) :
    LinkKept s (s.add64 r n) := s.rd_add64_ne r _ n h.symm h'.symm

theorem LinkKept.satInc (s : State) {r : RegRef} (h : r.off ≠ Reg.hostStat.off) (hi lo : Nat) : LinkKept s (s.satInc r hi lo) :=
  s.rd_satInc_ne r _ hi lo h.symm

theorem LinkKept.fault (s : State) (c o a e k d : Nat) : LinkKept s (s.fault c o a e k d) :=
  (s.collect_faultOnly (s.mkRec c (classSev c) o a e k d) .own).1.2.1 _ (by decide +kernel)

theorem LinkKept.ueCount (s : State) (off : Nat) : LinkKept s (s.ueCount off) := by
  rw [State.ueCount]
  refine LinkKept.trans ?_ (.fault ..)
  cases s.tier off with
  | ddr ch l => exact .add64 s (by simp only [Reg.ddrEccUe, Reg.hostStat]; omega) (by simp only [Reg.ddrEccUe, Reg.hostStat]; omega) 1
  | dir d l => exact .add64 s (by simp only [Reg.dirEccUe, Reg.hostStat]; omega) (by simp only [Reg.dirEccUe, Reg.hostStat]; omega) 1
  | bank e => exact .satInc s (by simp only [Reg.enBankUe, Reg.hostStat]; omega) 31 0
  | exp p o => exact .add64 s (by simp only [Reg.ddrEccUe, Reg.hostStat]; omega) (by simp only [Reg.ddrEccUe, Reg.hostStat]; omega) 1
  | regs => rfl
  | none => rfl

theorem LinkKept.ueEvent (s : State) (off : Nat) : LinkKept s (s.ueEvent off) := by
  have hp : LinkKept s (s.poisonWord off) := by
    rw [State.poisonWord]
    cases s.tier off <;> rfl
  exact hp.trans (.ueCount ..)

theorem LinkKept.ceEvent (s : State) (off : Nat) : LinkKept s (s.ceEvent off) := by
  have hmark : LinkKept s (if SMap.get Health.good s.m.health (healthKey off) = .good then
      { s with m := { s.m with health := SMap.set .good s.m.health (healthKey off) .corrected } } else s) := by
    split <;> rfl
  have hpush : ∀ (u : State) (e c : Nat) (a : W64), LinkKept u (u.pushErr e c a) := fun u e c a => by
    rw [State.pushErr]
    split
    · rfl
    · dsimp only
      split <;> rfl
  rw [State.ceEvent]
  refine LinkKept.trans ?_ (.fault ..)
  cases s.tier off with
  | ddr ch l => exact .add64 s (by simp only [Reg.ddrEccCe, Reg.hostStat]; omega) (by simp only [Reg.ddrEccCe, Reg.hostStat]; omega) 1
  | dir d l =>
    exact hmark.trans (.add64 _ (by simp only [Reg.dirEccCe, Reg.hostStat]; omega) (by simp only [Reg.dirEccCe, Reg.hostStat]; omega) 1)
  | bank e => exact (hmark.trans (.satInc _ (by simp only [Reg.enBankCe, Reg.hostStat]; omega) 31 0)).trans (hpush ..)
  | exp p o => exact .add64 s (by simp only [Reg.ddrEccCe, Reg.hostStat]; omega) (by simp only [Reg.ddrEccCe, Reg.hostStat]; omega) 1
  | regs => rfl
  | none => rfl

theorem LinkKept.takeFound (s : State) (off : Nat) : LinkKept s (s.takeFound off).1 := by
  have hclear : ∀ x, LinkKept s { s with m := { s.m with found := x } } := fun _ => rfl
  rw [State.takeFound]
  dsimp only
  split
  · obtain ⟨d, hd⟩ := s.touchLine_frame off
    rw [hd]
    rfl
  · split
    · rfl
    · exact (hclear _).trans (.ceEvent _ off)
    · exact (hclear _).trans (.ueEvent _ off)
    · exact (hclear _).trans (.fault ..)

theorem LinkKept.looks (l : List Nat) (a : State × Bool) : LinkKept a.1 (l.foldl State.look a).1 := by
  induction l generalizing a with
  | nil => rfl
  | cons o t ih => exact (LinkKept.takeFound a.1 o).trans (ih (State.look a o))

/-- A read of memory leaves the link. -/
theorem LinkKept.readLocal (s : State) (src : Src) (off n : Nat) : LinkKept s (s.readLocal src off n).1 := by
  have hl := LinkKept.looks (touched 16 off n) (s, false)
  rw [State.readLocal]
  split
  · rfl
  · split
    rename_i s1 bad hlooks
    have hs1 : LinkKept s s1 := by
      rw [show (touched 16 off n).foldl State.look (s, false) = (s1, bad) from hlooks] at hl
      exact hl
    dsimp only
    split
    · exact hs1
    · split
      · exact hs1.trans (.ueCount ..)
      · split
        · exact hs1.trans (.ueEvent ..)
        · exact hs1

/-- The host's data are given where its link is up. -/
theorem State.hostData_up {s : State} (h : s.bit Reg.hostStat 31 = true) (dpa : Nat) (bs : List Byte) :
    s.hostData dpa [] (some bs) = s.emit (.memData dpa (some bs)) ∧
      s.hostData dpa [] none = (s.emit (.memData dpa none)).add64 Reg.hostCntMemdrop 1 := by
  rw [State.hostData, State.hostData, h]
  exact ⟨rfl, rfl⟩

/-- Memory that is served, where no Lead forwards: reads and writes are performed here. -/
structure State.ServesHost (s : State) (line : Nat) : Prop where
  served : s.memServed = true
  free : s.bit Reg.pairStat 26 = false
  alone : s.forwarding = false
  mapped : s.lineMapped line = true
  here : line / 2 ^ 46 = s.pos

section
variable {s : State} {line : Nat} (h : s.ServesHost line)
include h

theorem State.ServesHost.read :
    s.hostMem line true 0 Rec64.zero =
      s.masterRead 35 line 64 (.host []) (fun s bs => s.hostData line [] bs) := by
  rw [State.hostMem, h.served, h.free, h.alone]
  change s.hostRead line [] true = _
  rw [State.hostRead, h.mapped, if_neg (by decide), if_pos h.here]
  rfl

theorem State.ServesHost.write (hm : s.actMode ≠ .replay) (ht : s.trails = false) (be : BitVec 64) (d : Rec64) :
    s.hostMem line false be d = s.postWrite (.master s.pos 35) 0 (lineCells (line % 2 ^ 46) be d) 0 false s.lap := by
  rw [State.hostMem, h.served, h.free, h.alone, ht, decide_eq_false hm]
  change s.hostWrite line be d = _
  rw [State.hostWrite, h.mapped, if_neg (by decide), if_pos h.here]

end

/-- A read whose memory answers now. -/
theorem State.masterRead_now {s : State} {id dpa : Nat} (he : s.expPort dpa = none) (hh : s.heldAt (dpa % 2 ^ 46) = false) (n : Nat)
    (w : ReqFor) (give : State → Option (List Byte) → State) :
    s.masterRead id dpa n w give =
      match s.readLocal (.master s.pos id) (dpa % 2 ^ 46) n with
      | (s1, .ok, bs) => give s1 (some bs)
      | (s1, .poison, _) | (s1, .unmapped, _) => give s1 none := by
  rw [State.masterRead, he]
  dsimp only
  rw [hh, if_neg Bool.false_ne_true] <;> rfl

/-- A read whose memory does not answer now waits in its queue. -/
theorem State.masterRead_waits {s : State} {dpa : Nat} (h : s.expPort dpa ≠ none ∨ s.heldAt (dpa % 2 ^ 46) = true) (id n : Nat)
    (w : ReqFor) (give : State → Option (List Byte) → State) :
    s.masterRead id dpa n w give = s.queueRead ((s.expPort dpa).getD 2) id dpa n w := by
  rw [State.masterRead]
  cases he : s.expPort dpa with
  | some p => rfl
  | none =>
    rcases h with h | h
    · exact absurd he h
    · dsimp only
      rw [h, if_pos rfl]
      rfl

/-- Writes and atomics poison nothing. -/
theorem Memory.health_apply {m : Memory} (h : m.health = []) (r : MemReq) : (m.apply r).1.health = [] := by
  have hgood : ∀ ws : List (Nat × Bool), ws.foldl (fun h w =>
      if w.2 || SMap.get Health.good h w.1 = .corrected then SMap.set .good h w.1 .good else h) [] = [] := fun ws => by
    induction ws with
    | nil => rfl
    | cons w t ih =>
      rw [List.foldl_cons]
      split <;> exact ih
  rw [Memory.apply]
  split
  · dsimp only
    split
    · exact h
    · rw [h]
      exact hgood _
  all_goals
    split
    · exact h
    · rw [h]
      rfl

theorem Memory.health_seenBy {m : Memory} (h : m.health = []) (src : Src) : (m.seenBy src).health = [] := by
  rw [Memory.seenBy]
  generalize m.memq.filter (fun r => decide (r.src = src)) = l
  induction l generalizing m with
  | nil => exact h
  | cons r t ih => exact ih (Memory.health_apply h r)

/-- A read of good memory in which no line is buffered gives its bytes and leaves the state. -/
theorem State.readLocal_good {s : State} (src : Src) {off : Nat} (hh : s.m.health = []) (hf : s.m.found = [])
    (hfail : s.failed (s.tier off) = false) (h1 : (s.tier off).isMem = true) (h2 : (s.tier (off + 63)).isMem = true)
    (hline : ∀ i, i < 64 → s.lineHeld (off + i) = false) :
    s.readLocal src off 64 = (s, .ok, (List.range 64).map (fun i => s.byteIn (s.m.seenBy src) (off + i))) := by
  have hlook : ∀ o ∈ touched 16 off 64, State.look (s, false) o = (s, false) := fun o ho => by
    obtain ⟨hlo, hhi⟩ := touched_range (by decide) ho
    have hheld := hline (o - off) (by omega)
    rw [Nat.add_sub_cancel' hlo] at hheld
    have hclean : s.takeFound o = (s, false) := by
      rw [State.takeFound, hheld, hf]
      rfl
    rw [State.look, hclean]
    rfl
  have hlooks : ∀ l : List Nat, (∀ o ∈ l, o ∈ touched 16 off 64) → l.foldl State.look (s, false) = (s, false) := fun l hl => by
    induction l with
    | nil => rfl
    | cons o t ih =>
      rw [List.foldl_cons, hlook o (hl o List.mem_cons_self)]
      exact ih fun x hx => hl x (List.mem_cons_of_mem _ hx)
  have hmark : (touched 8 off 64).filter
      (fun o => SMap.get Health.good (s.m.seenBy src).health (healthKey o) = .poisoned) = [] := by
    rw [Memory.health_seenBy hh, List.filter_eq_nil_iff]
    intro o _
    simp [SMap.get]
  have hfold : (touched 16 off 64).foldl (fun (a : State × Bool) o =>
      let (t, b) := a.1.takeFound o
      (t, a.2 || b)) (s, false) = (s, false) := hlooks _ fun _ h => h
  rw [State.readLocal, if_neg (by rw [h1, show off + 64 - 1 = off + 63 from rfl, h2]; decide), hfold]
  dsimp only
  rw [hmark, hfail, if_neg (by decide), if_neg (by decide)]

/-- A request of the host on memory that is not served: it counts and is reported, and a read gets poison. -/
theorem State.hostUnmapped_spec {s : State} (hl : s.bit Reg.hostStat 31 = true) (dpa : Nat) (isRead : Bool) :
    let t := s.hostUnmapped dpa isRead
    t.m = s.m ∧ t.host.out = s.host.out ++ (if isRead then [.memData dpa none] else []) ∧
      t.rd64 Reg.hostCntMemdrop = s.rd64 Reg.hostCntMemdrop + 1 ∧ (s.flt.queue.length < 1024 → t.reports 0x13) := by
  intro t
  have hrep := fun hq => State.reports_fault (s := s) hq (show 0x13 < 256 by decide) (originOf s.pos 2 35) dpa 0 0 0
  have hlink := LinkKept.fault s 0x13 (originOf s.pos 2 35) dpa 0 0 0
  obtain ⟨hf, hr, -⟩ : FaultOnly s (s.fault 0x13 (originOf s.pos 2 35) dpa 0 0 0) := (s.collect_faultOnly _ .own).1
  have ht : t = (s.fault 0x13 (originOf s.pos 2 35) dpa 0 0 0).hostDrop dpa isRead := rfl
  clear_value t
  generalize s.fault 0x13 (originOf s.pos 2 35) dpa 0 0 0 = u at hrep hlink hf hr ht
  obtain ⟨w, hw, hwm, hwo, hwr, hwq⟩ : ∃ w : State, t = w.add64 Reg.hostCntMemdrop 1 ∧ w.m = u.m ∧
      w.host.out = u.host.out ++ (if isRead then [.memData dpa none] else []) ∧ w.regs = u.regs ∧ w.flt = u.flt := by
    cases isRead with
    | true => exact ⟨u.emit (.memData dpa none), ht.trans (u.hostData_up (hlink.bit.trans hl) dpa []).2, rfl, rfl, rfl, rfl⟩
    | false => exact ⟨u, ht, rfl, (List.append_nil _).symm, rfl, rfl⟩
  have hcnt : w.rd64 Reg.hostCntMemdrop = s.rd64 Reg.hostCntMemdrop := by
    have hwu : OnlyRegs u w [] := .of_regs hwr
    rw [hwu.rd64 List.not_mem_nil List.not_mem_nil, hr.rd64 (by decide +kernel) (by decide +kernel)]
  refine ⟨?_, ?_, ?_, fun hq => ?_⟩
  · exact (by rw [hw]; rfl : t.m = w.m).trans (hwm.trans (by rw [hf]))
  · exact (by rw [hw]; rfl : t.host.out = w.host.out).trans (hwo.trans (by rw [hf]))
  · rw [hw, State.rd64_add64, hcnt]
    rfl
  · obtain ⟨r, hmem, hcls⟩ := hrep hq
    exact ⟨r, (by rw [hw]; exact hwq ▸ hmem), hcls⟩

section
variable {s : State} {hpa dpa : Nat} (hw : s.windowUp = true) (hl : s.bit Reg.hostStat 31 = true) (hv : s.cxlVer ≠ 0)
  (hd : s.hdmDpa hpa = some dpa)
include hw hl hv hd

theorem cxlMemRead_now (h : s.ServesHost (dpa / 64 * 64)) (he : s.expPort (dpa / 64 * 64) = none)
    (hh : s.heldAt (dpa / 64 * 64 % 2 ^ 46) = false) (n : Nat) :
    (∀ t bs, s.readLocal (.master s.pos 35) (dpa / 64 * 64 % 2 ^ 46) 64 = (t, .ok, bs) →
      exec (.cxlMemRead hpa n) s = .next (t.emit (.memData (dpa / 64 * 64) (some bs)))) ∧
    (∀ t bs, s.readLocal (.master s.pos 35) (dpa / 64 * 64 % 2 ^ 46) 64 = (t, .poison, bs) →
      exec (.cxlMemRead hpa n) s = .next ((t.emit (.memData (dpa / 64 * 64) none)).add64 Reg.hostCntMemdrop 1)) := by
  have hlink := LinkKept.readLocal s (.master s.pos 35) (dpa / 64 * 64 % 2 ^ 46) 64
  rw [exec_cxlMemRead hw hl hv hd, h.read, State.masterRead_now he hh]
  refine ⟨fun t bs hr => ?_, fun t bs hr => ?_⟩ <;> rw [hr] at hlink ⊢
  · exact congrArg _ (State.hostData_up (hlink.bit.trans hl) _ bs).1
  · exact congrArg _ (State.hostData_up (hlink.bit.trans hl) _ bs).2

theorem cxlMemRead_waits (h : s.ServesHost (dpa / 64 * 64))
    (hwait : s.expPort (dpa / 64 * 64) ≠ none ∨ s.heldAt (dpa / 64 * 64 % 2 ^ 46) = true) (n : Nat) :
    ∃ t q, exec (.cxlMemRead hpa n) s = .next t ∧ t.m.expq = s.m.expq ++ [q] ∧ q.dpa = dpa / 64 * 64 ∧ q.what = .host [] ∧
      q.port = (s.expPort (dpa / 64 * 64)).getD 2 ∧ t.m.mem = s.m.mem ∧ t.m.memq = s.m.memq ∧ t.engines = s.engines := by
  rw [exec_cxlMemRead hw hl hv hd, h.read, State.masterRead_waits hwait]
  exact ⟨_, _, rfl, rfl, rfl, rfl, rfl, rfl, rfl, rfl⟩

theorem cxlMemRead_good (h : s.ServesHost (dpa / 64 * 64)) (hh : s.m.health = []) (hf : s.m.found = [])
    (hfail : s.failed (s.tier (dpa / 64 * 64 % 2 ^ 46)) = false) (hlast : (s.tier (dpa / 64 * 64 % 2 ^ 46 + 63)).isMem = true)
    (he : s.expPort (dpa / 64 * 64) = none) (hheld : s.heldAt (dpa / 64 * 64 % 2 ^ 46) = false)
    (hline : ∀ i, i < 64 → s.lineHeld (dpa / 64 * 64 % 2 ^ 46 + i) = false) (n : Nat) :
    exec (.cxlMemRead hpa n) s = .next (s.emit (.memData (dpa / 64 * 64)
      (some ((List.range 64).map (fun i => s.byteIn (s.m.seenBy (.master s.pos 35)) (dpa / 64 * 64 % 2 ^ 46 + i)))))) := by
  have hfirst : (s.tier (dpa / 64 * 64 % 2 ^ 46)).isMem = true := by
    have hm := h.mapped
    simp only [State.lineMapped, Bool.and_eq_true, Bool.or_eq_true, decide_eq_true_eq] at hm
    exact hm.2.resolve_left fun hne => hne h.here
  exact (cxlMemRead_now hw hl hv hd h he hheld n).1 _ _ (State.readLocal_good _ hh hf hfail hfirst hlast hline)

theorem cxlMemWrite_waits (h : s.ServesHost (dpa / 64 * 64)) (hm : s.actMode ≠ .replay) (ht : s.trails = false)
    (be : BitVec 64) (d : Rec64) :
    ∃ t rs, exec (.cxlMemWrite hpa be d) s = .next t ∧
      t = { s with m := { s.m with memq := s.m.memq ++ rs, arrivals := t.m.arrivals } } ∧
      rs.flatMap (fun r => match r.op with | .write cs => cs | _ => []) = lineCells (dpa / 64 * 64 % 2 ^ 46) be d ∧
      ∀ r ∈ rs, r.src = .master s.pos 35 := by
  obtain ⟨rs, h1, h2, h3⟩ := s.postCells_master (r := (Src.master s.pos 35).req 0 0 (.write []) 0 false s.lap) rfl rfl
    (lineCells (dpa / 64 * 64 % 2 ^ 46) be d)
  rw [exec_cxlMemWrite hw hl hv hd, h.write hm ht]
  exact ⟨_, rs, rfl, h1, h2, fun r hr => (h3 r hr).1⟩

theorem cxlMem_unserved (hs : s.memServed = false) :
    (∀ n, ∃ t, exec (.cxlMemRead hpa n) s = .next t ∧ t.host.out = s.host.out ++ [.memData (dpa / 64 * 64) none] ∧
      t.rd64 Reg.hostCntMemdrop = s.rd64 Reg.hostCntMemdrop + 1 ∧ (s.flt.queue.length < 1024 → t.reports 0x13)) ∧
    (∀ (be : BitVec 64) (d : Rec64), ∃ t, exec (.cxlMemWrite hpa be d) s = .next t ∧ t.m = s.m ∧
      t.rd64 Reg.hostCntMemdrop = s.rd64 Reg.hostCntMemdrop + 1 ∧ (s.flt.queue.length < 1024 → t.reports 0x13)) := by
  have hmem : ∀ isRead be d, s.hostMem (dpa / 64 * 64) isRead be d = s.hostUnmapped (dpa / 64 * 64) isRead := fun isRead be d => by
    rw [State.hostMem, hs]
    rfl
  refine ⟨fun n => ?_, fun be d => ?_⟩
  · obtain ⟨-, h2, h3, h4⟩ := State.hostUnmapped_spec hl (dpa / 64 * 64) true
    rw [exec_cxlMemRead hw hl hv hd, hmem]
    exact ⟨_, rfl, h2, h3, h4⟩
  · obtain ⟨h1, -, h3, h4⟩ := State.hostUnmapped_spec hl (dpa / 64 * 64) false
    rw [exec_cxlMemWrite hw hl hv hd, hmem]
    exact ⟨_, rfl, h1, h3, h4⟩

end

theorem hostMemoryComplete : Claims.HostMemoryComplete := by
  intro s hpa dpa hw hl hv hd line off
  refine ⟨fun h1 h2 h3 h4 h5 => ?_, cxlMem_unserved hw hl hv hd⟩
  have hserve : s.ServesHost line := ⟨h1, h2, h3, h4, h5⟩
  exact ⟨fun n he hh => cxlMemRead_now hw hl hv hd hserve he hh n, fun n h => cxlMemRead_waits hw hl hv hd hserve h n,
    fun n hh hf hfail hlast he hheld hline => cxlMemRead_good hw hl hv hd hserve hh hf hfail hlast he hheld hline n,
    fun be d hm ht => cxlMemWrite_waits hw hl hv hd hserve hm ht be d⟩

/-! ### The queues of the host port when it is reset (R484) -/

/-- A submission queue is disabled. -/
def State.disableSq (s : State) (q : Nat) : State :=
  if s.bit (Reg.hostSqCfg q) 31 then s.setBit (Reg.hostSqCfg q) 31 false else s

/-- A completion queue is disabled, its head doorbell cleared. -/
def State.disableCq (s : State) (q : Nat) : State :=
  (if s.bit (Reg.hostCqCfg q) 31 then s.setBit (Reg.hostCqCfg q) 31 false else s).updCq q (fun c => { c with head := 0 })

/-- A completion queue remembers that the link was lost. -/
def State.loseLink (s : State) (q : Nat) : State := s.updCq q (fun c => { c with linkLost := true })

theorem State.clearQueues_eq (s : State) :
    s.clearQueues =
      (let s2 := (List.range 64).foldl State.disableCq ((List.range 64).foldl State.disableSq s)
       { s2 with host := { s2.host with sqTail := [] } }) := rfl

/-- Nothing differs but the queues' control registers and the completion queues. -/
def QueuesOnly (s t : State) : Prop :=
  t = { s with regs := t.regs, host := { s.host with cq := t.host.cq } } ∧
    ∀ r : RegRef, (∀ q, q < 64 → r.off ≠ (Reg.hostSqCfg q).off ∧ r.off ≠ (Reg.hostCqCfg q).off) → t.rd r = s.rd r

/-- Queue `q` is as before. -/
def QueueKept (q : Nat) (s t : State) : Prop :=
  t.bit (Reg.hostSqCfg q) 31 = s.bit (Reg.hostSqCfg q) 31 ∧ t.bit (Reg.hostCqCfg q) 31 = s.bit (Reg.hostCqCfg q) 31 ∧
    t.cq q = s.cq q

section
variable {s t u : State}

theorem QueuesOnly.refl (s : State) : QueuesOnly s s := ⟨rfl, fun _ _ => rfl⟩

theorem QueuesOnly.trans (h : QueuesOnly s t) (k : QueuesOnly t u) : QueuesOnly s u :=
  ⟨by rw [k.1, h.1], fun r hr => (k.2 r hr).trans (h.2 r hr)⟩

theorem QueueKept.refl (q : Nat) (s : State) : QueueKept q s s := ⟨rfl, rfl, rfl⟩

theorem QueueKept.trans {q : Nat} (h : QueueKept q s t) (k : QueueKept q t u) : QueueKept q s u :=
  ⟨k.1.trans h.1, k.2.1.trans h.2.1, k.2.2.trans h.2.2⟩

theorem QueueKept.of_regs {q : Nat} {offs : List Nat} (hf : t = { s with regs := t.regs }) (hr : OnlyRegs s t offs)
    (h1 : (Reg.hostSqCfg q).off ∉ offs) (h2 : (Reg.hostCqCfg q).off ∉ offs) : QueueKept q s t :=
  ⟨hr.bit h1 31, hr.bit h2 31, by rw [hf]; rfl⟩

theorem State.disableSq_frame (s : State) (q : Nat) :
    s.disableSq q = { s with regs := (s.disableSq q).regs } ∧ OnlyRegs s (s.disableSq q) [(Reg.hostSqCfg q).off] := by
  rw [State.disableSq]
  split
  · exact ⟨s.setBit_frame .., OnlyRegs.setBit s (List.mem_singleton_self _) 31 false⟩
  · exact ⟨rfl, OnlyRegs.refl s _⟩

theorem State.bit_disableSq (s : State) (q : Nat) : (s.disableSq q).bit (Reg.hostSqCfg q) 31 = false := by
  rw [State.disableSq]
  split
  · exact s.bit_setBit _ (by decide) false
  · exact Bool.eq_false_iff.2 ‹_›

/-- The state in which a completion queue's head is cleared: its register is disabled. -/
theorem State.disableCq_frame (s : State) (q : Nat) :
    ∃ w : State, s.disableCq q = w.updCq q (fun c => { c with head := 0 }) ∧ w = { s with regs := w.regs } ∧
      OnlyRegs s w [(Reg.hostCqCfg q).off] ∧ w.bit (Reg.hostCqCfg q) 31 = false := by
  refine ⟨_, rfl, ?_⟩
  split
  · exact ⟨s.setBit_frame .., OnlyRegs.setBit s (List.mem_singleton_self _) 31 false, s.bit_setBit _ (by decide) false⟩
  · exact ⟨rfl, OnlyRegs.refl s _, Bool.eq_false_iff.2 ‹_›⟩

theorem QueuesOnly.disableSq (s : State) {q : Nat} (hq : q < 64) : QueuesOnly s (s.disableSq q) := by
  obtain ⟨hf, hr⟩ := s.disableSq_frame q
  exact ⟨hf.trans (by rw [hf]), fun r h => hr r (fun hm => (h q hq).1 (List.mem_singleton.1 hm))⟩

theorem QueuesOnly.disableCq (s : State) {q : Nat} (hq : q < 64) : QueuesOnly s (s.disableCq q) := by
  obtain ⟨w, h, hf, hr, -⟩ := s.disableCq_frame q
  have hreg : OnlyRegs w (s.disableCq q) [] := .of_regs (by rw [h]; rfl)
  refine ⟨by rw [h, State.updCq, hf], fun r hne => (hreg r List.not_mem_nil).trans ?_⟩
  exact hr r (fun hm => (hne q hq).2 (List.mem_singleton.1 hm))

theorem QueueKept.disableSq (s : State) {q i : Nat} (hne : q ≠ i) : QueueKept q s (s.disableSq i) := by
  obtain ⟨hf, hr⟩ := s.disableSq_frame i
  refine .of_regs hf hr ?_ ?_ <;> simp only [Reg.hostSqCfg, Reg.hostCqCfg, List.mem_singleton] <;> omega

theorem QueueKept.disableCq (s : State) {q i : Nat} (hne : q ≠ i) : QueueKept q s (s.disableCq i) := by
  obtain ⟨w, h, hf, hr, -⟩ := s.disableCq_frame i
  have hw : QueueKept q s w := by
    refine .of_regs hf hr ?_ ?_ <;> simp only [Reg.hostSqCfg, Reg.hostCqCfg, List.mem_singleton] <;> omega
  have hreg : (s.disableCq i).regs = w.regs := by rw [h]; rfl
  exact hw.trans ⟨State.bit_congr hreg _ _, State.bit_congr hreg _ _, by
    rw [h]
    exact SMap.get_upd_ne CQueue.init w.host.cq (fun c : CQueue => { c with head := 0 }) hne⟩

end

/-- Every queue is disabled; what its completion queue holds stays. -/
theorem State.clearQueues_spec (s : State) :
    let t := s.clearQueues
    t = { s with regs := t.regs, host := { s.host with sqTail := [], cq := t.host.cq } } ∧
      (∀ r : RegRef, (∀ q, q < 64 → r.off ≠ (Reg.hostSqCfg q).off ∧ r.off ≠ (Reg.hostCqCfg q).off) → t.rd r = s.rd r) ∧
      ∀ q, q < 64 → t.bit (Reg.hostSqCfg q) 31 = false ∧ t.bit (Reg.hostCqCfg q) 31 = false ∧ (t.cq q).held = (s.cq q).held := by
  intro t
  obtain ⟨u, hu⟩ : ∃ u, u = (List.range 64).foldl State.disableSq s := ⟨_, rfl⟩
  obtain ⟨w, hw⟩ : ∃ w, w = (List.range 64).foldl State.disableCq u := ⟨_, rfl⟩
  have ht : t = { w with host := { w.host with sqTail := [] } } := by
    rw [hw, hu]
    exact s.clearQueues_eq
  clear_value t
  obtain ⟨f1, r1⟩ : QueuesOnly s u :=
    hu ▸ foldl_range_keeps QueuesOnly.refl (fun _ _ _ => .trans) (fun s _ hi => .disableSq s hi) s
  obtain ⟨f2, r2⟩ : QueuesOnly u w :=
    hw ▸ foldl_range_keeps QueuesOnly.refl (fun _ _ _ => .trans) (fun s _ hi => .disableCq s hi) u
  have htw : t.regs = w.regs := by rw [ht]
  have hrd : ∀ r, t.rd r = w.rd r := fun r => (OnlyRegs.of_regs htw : OnlyRegs w t []) r List.not_mem_nil
  refine ⟨by rw [ht, f2, f1], fun r hr => (hrd r).trans ((r2 r hr).trans (r1 r hr)), fun q hq => ?_⟩
  obtain ⟨x, ⟨-, -, hx3⟩, hx⟩ :=
    foldl_range_at (QueueKept.refl q) (fun _ _ _ => .trans) hq (fun s i _ hne => .disableSq s hne.symm) s
  obtain ⟨y, ⟨hy1, -, hy3⟩, hy⟩ :=
    foldl_range_at (QueueKept.refl q) (fun _ _ _ => .trans) hq (fun s i _ hne => .disableCq s hne.symm) u
  rw [← hu] at hx
  rw [← hw] at hy
  obtain ⟨k1, -, k3⟩ := hx
  obtain ⟨g1, g2, g3⟩ := hy
  obtain ⟨v, hv, hvf, hvr, hvb⟩ := y.disableCq_frame q
  have hvreg : (y.disableCq q).regs = v.regs := by rw [hv]; rfl
  have hsq : v.bit (Reg.hostSqCfg q) 31 = y.bit (Reg.hostSqCfg q) 31 :=
    hvr.bit (by simp only [Reg.hostSqCfg, Reg.hostCqCfg, List.mem_singleton]; omega) 31
  have hucq : u.cq q = s.cq q := by
    rw [k3, ← hx3, State.cq, State.cq, (x.disableSq_frame q).1]
  have hycq : (y.disableCq q).cq q = { y.cq q with head := 0 } := by
    rw [hv, State.cq_updCq, State.cq, State.cq, hvf]
  refine ⟨?_, ?_, ?_⟩
  · rw [State.bit_congr htw, g1, State.bit_congr hvreg, hsq, hy1, k1, x.bit_disableSq]
  · rw [State.bit_congr htw, g2, State.bit_congr hvreg, hvb]
  · have htcq : t.cq q = w.cq q := by rw [ht]; rfl
    rw [htcq, g3, hycq, hy3, hucq]

/-! ### A reset of the host port alone (R465, R474, R484) -/

/-- The decoders as a reset of the port leaves them. -/
def uncommit (hdm : SMap Hdm) : SMap Hdm :=
  (hdm.map (fun (p : Nat × Hdm) => (p.1, { p.2 with committed := false }))).filter (fun p => p.2 ≠ Hdm.init)

theorem committed_uncommit (hdm : SMap Hdm) (n : Nat) : (SMap.get Hdm.init (uncommit hdm) n).committed = false := by
  induction hdm with
  | nil => rfl
  | cons p t ih =>
    rw [uncommit, List.map_cons, List.filter_cons]
    split
    · rw [SMap.get]
      split
      · rfl
      · exact ih
    · exact ih

/-- A register of the host port that a reset of the port may change. -/
def hostResets (off : Nat) : Prop :=
  off = Reg.hostStat.off ∨ ∃ q, q < 64 ∧ (off = (Reg.hostSqCfg q).off ∨ off = (Reg.hostCqCfg q).off)

theorem not_hostResets {off : Nat} (h : off < 0xD00000) : ¬ hostResets off := by
  rintro (h' | ⟨q, -, h' | h'⟩) <;> simp only [Reg.hostStat, Reg.hostSqCfg, Reg.hostCqCfg] at h' <;> omega

theorem State.hostReset_spec (s : State) :
    let t := s.hostReset
    t.m.mem = s.m.mem ∧ t.sta.tasks = s.sta.tasks ∧ t.engines = s.engines ∧ t.sta.fetching = [] ∧ t.host.sqTail = [] ∧
      t.bit Reg.hostStat 31 = false ∧ (∀ n, (t.hdm n).committed = false) ∧ t.host.d3 = false ∧
      (∀ q, q < 64 → t.bit (Reg.hostSqCfg q) 31 = false ∧ t.bit (Reg.hostCqCfg q) 31 = false ∧ (t.cq q).held = (s.cq q).held ∧
        (t.cq q).linkLost = true) ∧
      t.ord14 = s.ord14 ∧ ∀ r : RegRef, ¬ hostResets r.off → t.rd r = s.rd r := by
  intro t
  obtain ⟨hf, hr, hq⟩ := s.clearQueues_spec
  obtain ⟨c, hc⟩ : ∃ c, c = s.clearQueues := ⟨_, rfl⟩
  obtain ⟨v, hv⟩ : ∃ v, v = c.dropHostReads.setFld Reg.hostStat 31 21 0 := ⟨_, rfl⟩
  obtain ⟨w, hw⟩ : ∃ w, w = (List.range 64).foldl State.loseLink v := ⟨_, rfl⟩
  have ht : t = { w with
      sta := { w.sta with fetching := [] }
      host := { w.host with d3 := false, msixOn := false, msixMask := [], msixPend := [], hdm := uncommit w.host.hdm } } := by
    rw [hw, hv, hc]
    rfl
  clear_value t
  dsimp only at hf hr hq
  rw [← hc] at hf hr hq
  clear hc
  have hbit : v.bit Reg.hostStat 31 = false := by
    rw [hv, State.bit_setFld _ _ (by decide) (by decide), if_pos (by decide)]
    rfl
  have hvr : OnlyRegs c v [Reg.hostStat.off] := by
    rw [hv]
    exact (OnlyRegs.of_regs rfl : OnlyRegs c c.dropHostReads _).trans (OnlyRegs.setFld _ (List.mem_singleton_self _) 31 21 0)
  have hvf : v = { c.dropHostReads with regs := v.regs } := by rw [hv, State.setFld_frame]
  have hwf : w = { v with host := { v.host with cq := w.host.cq } } :=
    hw ▸ foldl_range_keeps (R := fun s t => t = { s with host := { s.host with cq := t.host.cq } }) (fun _ => rfl)
      (fun s t u h k => by rw [k, h]) (fun _ _ _ => rfl) v
  have hwq : ∀ q, q < 64 → w.cq q = { v.cq q with linkLost := true } := fun q hq => by
    obtain ⟨x, h1, h2⟩ := foldl_range_at (R := fun s t => t.cq q = s.cq q) (fun _ => rfl) (fun _ _ _ h k => k.trans h) hq
      (f := State.loseLink)
      (fun s i _ hne => SMap.get_upd_ne CQueue.init s.host.cq (fun c : CQueue => { c with linkLost := true }) hne.symm) v
    rw [hw, h2, State.loseLink, State.cq_updCq, h1]
  have hregs : t.regs = v.regs := by rw [ht, hwf]
  have hrd : ∀ r, t.rd r = v.rd r := fun r => (OnlyRegs.of_regs hregs : OnlyRegs v t []) r List.not_mem_nil
  refine ⟨?_, ?_, ?_, ?_, ?_, ?_, ?_, ?_, fun q hq64 => ?_, ?_, fun r hne => ?_⟩
  · rw [ht, hwf, hvf, State.dropHostReads, hf]
  · rw [ht, hwf, hvf, State.dropHostReads, hf]
  · rw [ht, hwf, hvf, State.dropHostReads, hf]
  · rw [ht]
  · rw [ht, hwf, hvf, State.dropHostReads, hf]
  · rw [State.bit_congr hregs, hbit]
  · rw [ht]
    exact committed_uncommit _
  · rw [ht]
  · obtain ⟨h1, h2, h3⟩ := hq q hq64
    have htcq : t.cq q = { v.cq q with linkLost := true } := by
      rw [← hwq q hq64, ht]
      rfl
    have hvcq : v.cq q = c.cq q := by
      rw [hvf]
      rfl
    have hne : ∀ r : RegRef, r.off = (Reg.hostSqCfg q).off ∨ r.off = (Reg.hostCqCfg q).off → r.off ∉ [Reg.hostStat.off] := by
      simp only [Reg.hostSqCfg, Reg.hostCqCfg, Reg.hostStat, List.mem_singleton]
      omega
    refine ⟨?_, ?_, ?_, ?_⟩
    · rw [State.bit_congr hregs, hvr.bit (hne _ (.inl rfl)), h1]
    · rw [State.bit_congr hregs, hvr.bit (hne _ (.inr rfl)), h2]
    · rw [htcq, hvcq, ← h3]
    · rw [htcq]
  · rw [ht, hwf, hvf, State.dropHostReads, hf]
  · have hstat : r.off ∉ [Reg.hostStat.off] := fun h => hne (.inl (List.mem_singleton.1 h))
    rw [hrd, hvr r hstat]
    exact hr r fun q hq64 => ⟨fun h => hne (.inr ⟨q, hq64, .inl h⟩), fun h => hne (.inr ⟨q, hq64, .inr h⟩)⟩

theorem exec_hostReset {s : State} {c : Instr} (hw : s.windowUp = true) (hc : c ∈ [Instr.hostLinkDown, Instr.hotReset, Instr.perstN])
    (hl : c ≠ .perstN → s.bit Reg.hostStat 31 = true) : exec c s = .next s.hostReset := by
  simp only [List.mem_cons, List.not_mem_nil, or_false] at hc
  rcases hc with rfl | rfl | rfl
  · exact if_pos ⟨hw, hl (by decide)⟩
  · exact if_pos ⟨hw, hl (by decide)⟩
  · exact if_pos hw

theorem hostReset_completes {s : State} {c : Instr} (hw : s.windowUp = true)
    (hc : c ∈ [Instr.hostLinkDown, Instr.hotReset, Instr.perstN]) (hl : c ≠ .perstN → s.bit Reg.hostStat 31 = true) :
    ∃ t, exec c s = .next t ∧ t.m.mem = s.m.mem ∧ t.sta.tasks = s.sta.tasks ∧ t.engines = s.engines ∧ t.sta.fetching = [] ∧
      t.host.sqTail = [] ∧ t.bit Reg.hostStat 31 = false ∧ (∀ n, (t.hdm n).committed = false) ∧ t.host.d3 = false ∧
      ∀ q, q < 64 → t.bit (Reg.hostSqCfg q) 31 = false ∧ t.bit (Reg.hostCqCfg q) 31 = false ∧ (t.cq q).held = (s.cq q).held ∧
        (t.cq q).linkLost = true := by
  obtain ⟨h1, h2, h3, h4, h5, h6, h7, h8, h9, -⟩ := s.hostReset_spec
  exact ⟨_, exec_hostReset hw hc hl, h1, h2, h3, h4, h5, h6, h7, h8, h9⟩

/-! ### Function-level reset (R484) -/

/-- A word of each side of the mailbox is cleared. -/
def State.clearMbox (s : State) (k : Nat) : State := (s.wr (Reg.hostMboxReq k) 0).wr (Reg.hostMboxRsp k) 0

theorem exec_functionLevelReset {s : State} (hw : s.windowUp = true) :
    exec .functionLevelReset s = .next
      (let u := (List.range 64).foldl State.clearMbox (s.clearQueues.wr Reg.hostMboxCtl 0)
       { u with host := { u.host with mboxBusy := false } }) := by
  change execFunctionLevelReset s = _
  rw [execFunctionLevelReset, hw]
  rfl

/-- The registers of the mailbox are apart from those of the queues. -/
def mboxOff (off : Nat) : Prop := off = Reg.hostMboxCtl.off ∨ ∃ k, k < 64 ∧ (off = (Reg.hostMboxReq k).off ∨ off = (Reg.hostMboxRsp k).off)

theorem State.functionLevelReset_spec (s : State) :
    let u := (List.range 64).foldl State.clearMbox (s.clearQueues.wr Reg.hostMboxCtl 0)
    u = { s.clearQueues with regs := u.regs } ∧ (∀ r : RegRef, ¬ mboxOff r.off → u.rd r = s.clearQueues.rd r) ∧
      u.rd Reg.hostMboxCtl = 0 ∧ ∀ k, k < 64 → u.rd (Reg.hostMboxReq k) = 0 ∧ u.rd (Reg.hostMboxRsp k) = 0 := by
  intro u
  obtain ⟨c, hc⟩ : ∃ c, c = s.clearQueues := ⟨_, rfl⟩
  obtain ⟨v, hv⟩ : ∃ v, v = c.wr Reg.hostMboxCtl 0 := ⟨_, rfl⟩
  have hu : u = (List.range 64).foldl State.clearMbox v := by rw [hv, hc]
  clear_value u
  rw [← hc]
  have hstep : ∀ (x : State) (k : Nat), OnlyRegs x (x.clearMbox k) [(Reg.hostMboxReq k).off, (Reg.hostMboxRsp k).off] := fun x k =>
    (OnlyRegs.wr x (List.mem_cons_self ..) 0).trans (OnlyRegs.wr _ (List.mem_cons_of_mem _ (List.mem_singleton_self _)) 0)
  obtain ⟨hframe, hout⟩ : u = { v with regs := u.regs } ∧
      ∀ r : RegRef, (∀ k, k < 64 → r.off ∉ [(Reg.hostMboxReq k).off, (Reg.hostMboxRsp k).off]) → u.rd r = v.rd r :=
    hu ▸ foldl_range_keeps (R := fun s t => t = { s with regs := t.regs } ∧
        ∀ r : RegRef, (∀ k, k < 64 → r.off ∉ [(Reg.hostMboxReq k).off, (Reg.hostMboxRsp k).off]) → t.rd r = s.rd r)
      (fun _ => ⟨rfl, fun _ _ => rfl⟩) (fun s t u h k => ⟨by rw [k.1, h.1], fun r hr => (k.2 r hr).trans (h.2 r hr)⟩)
      (fun x i hi => ⟨rfl, fun r hr => hstep x i r (hr i hi)⟩) v
  refine ⟨by rw [hframe, hv]; rfl, fun r hr => ?_, ?_, fun k hk => ?_⟩
  · rw [hout r fun k hk hm => ?_, hv]
    · exact c.rd_wr_ne _ _ _ fun h => hr (.inl h)
    · simp only [List.mem_cons, List.not_mem_nil, or_false] at hm
      exact hr (.inr ⟨k, hk, hm⟩)
  · rw [hout _ fun k _ => ?_, hv, State.rd_wr]
    simp only [Reg.hostMboxCtl, Reg.hostMboxReq, Reg.hostMboxRsp, List.mem_cons, List.not_mem_nil, or_false]
    omega
  · have hapart : ∀ i, i < 64 → i ≠ k → ∀ r : RegRef, r.off = (Reg.hostMboxReq k).off ∨ r.off = (Reg.hostMboxRsp k).off →
        r.off ∉ [(Reg.hostMboxReq i).off, (Reg.hostMboxRsp i).off] := by
      simp only [Reg.hostMboxReq, Reg.hostMboxRsp, List.mem_cons, List.not_mem_nil, or_false]
      intro i hi hne r hr
      omega
    obtain ⟨x, -, h1, h2⟩ := foldl_range_at
      (R := fun s t => t.rd (Reg.hostMboxReq k) = s.rd (Reg.hostMboxReq k) ∧ t.rd (Reg.hostMboxRsp k) = s.rd (Reg.hostMboxRsp k))
      (fun _ => ⟨rfl, rfl⟩) (fun _ _ _ h g => ⟨g.1.trans h.1, g.2.trans h.2⟩) hk (f := State.clearMbox)
      (fun x i hi hne => ⟨hstep x i _ (hapart i hi hne _ (.inl rfl)), hstep x i _ (hapart i hi hne _ (.inr rfl))⟩) v
    have hne : (Reg.hostMboxReq k).off ≠ (Reg.hostMboxRsp k).off := by
      simp only [Reg.hostMboxReq, Reg.hostMboxRsp]
      omega
    rw [hu, h1, h2, State.clearMbox, State.rd_wr, State.rd_wr_ne _ _ _ _ hne, State.rd_wr]
    exact ⟨rfl, rfl⟩

theorem functionLevelReset_completes {s : State} (hw : s.windowUp = true) :
    ∃ t, exec .functionLevelReset s = .next t ∧ t.m = s.m ∧ t.sta = s.sta ∧ t.engines = s.engines ∧ t.host.sqTail = [] ∧
      t.rd Reg.hostMboxCtl = 0 ∧ t.host.mboxBusy = false ∧ t.rd Reg.hostStat = s.rd Reg.hostStat ∧
      (∀ k, k < 64 → t.rd (Reg.hostMboxReq k) = 0 ∧ t.rd (Reg.hostMboxRsp k) = 0) ∧
      ∀ q, q < 64 → t.bit (Reg.hostSqCfg q) 31 = false ∧ t.bit (Reg.hostCqCfg q) 31 = false := by
  obtain ⟨cf, cr, cq⟩ := s.clearQueues_spec
  obtain ⟨uf, ur, uctl, ubox⟩ := s.functionLevelReset_spec
  rw [exec_functionLevelReset hw]
  dsimp only at cf cr cq uf ur uctl ubox ⊢
  generalize (List.range 64).foldl State.clearMbox (s.clearQueues.wr Reg.hostMboxCtl 0) = u at uf ur uctl ubox
  generalize s.clearQueues = c at cf cr cq uf ur
  obtain ⟨t, ht⟩ : ∃ t : State, t = { u with host := { u.host with mboxBusy := false } } := ⟨_, rfl⟩
  rw [← ht]
  have hregs : t.regs = u.regs := by rw [ht]
  have hrd : ∀ r, t.rd r = u.rd r := fun r => (OnlyRegs.of_regs hregs : OnlyRegs u t []) r List.not_mem_nil
  refine ⟨t, rfl, ?_, ?_, ?_, ?_, (hrd _).trans uctl, ?_, ?_, fun k hk => ?_, fun q hq => ?_⟩
  · rw [ht, uf, cf]
  · rw [ht, uf, cf]
  · rw [ht, uf, cf]
  · rw [ht, uf, cf]
  · rw [ht]
  · rw [hrd, ur _ ?_, cr _ fun q hq => ?_]
    · simp only [Reg.hostStat, Reg.hostSqCfg, Reg.hostCqCfg]
      omega
    · rintro (h | ⟨k, -, h | h⟩) <;> simp only [Reg.hostStat, Reg.hostMboxCtl, Reg.hostMboxReq, Reg.hostMboxRsp] at h <;> omega
  · rw [hrd, hrd]
    exact ubox k hk
  · have hne : ∀ r : RegRef, r.off = (Reg.hostSqCfg q).off ∨ r.off = (Reg.hostCqCfg q).off → ¬ mboxOff r.off := by
      rintro r hr (h | ⟨k, -, h | h⟩) <;>
        simp only [Reg.hostSqCfg, Reg.hostCqCfg, Reg.hostMboxCtl, Reg.hostMboxReq, Reg.hostMboxRsp] at h hr <;> omega
    obtain ⟨h1, h2, -⟩ := cq q hq
    rw [State.bit, State.bit, State.fld, State.fld, hrd, hrd, ur _ (hne _ (.inl rfl)), ur _ (hne _ (.inr rfl))]
    exact ⟨h1, h2⟩

/-! ### The link, D3hot and the masks of messages (R465, R474) -/

theorem exec_hostLinkUp {s : State} (hw : s.windowUp = true) (speed width cxl : Nat) :
    exec (.hostLinkUp speed width cxl) s = .next ((((s.setBit Reg.hostStat 31 true).setFld Reg.hostStat 30 28 speed).setFld
      Reg.hostStat 27 23 width).setFld Reg.hostStat 22 21 cxl) :=
  if_neg (by rw [hw]; decide)

theorem hostLinkUp_completes {s : State} {speed width cxl : Nat} (hw : s.windowUp = true) (hs : speed < 8) (hwd : width < 32)
    (hc : cxl < 4) :
    ∃ t, exec (.hostLinkUp speed width cxl) s = .next t ∧ t = { s with regs := t.regs } ∧ OnlyRegs s t [Reg.hostStat.off] ∧
      t.bit Reg.hostStat 31 = true ∧ t.fld Reg.hostStat 30 28 = speed ∧ t.fld Reg.hostStat 27 23 = width ∧ t.cxlVer = cxl ∧
      t.fld Reg.hostStat 20 0 = s.fld Reg.hostStat 20 0 := by
  have hput : ∀ (u : State) hi lo x, OnlyRegs u (u.setFld Reg.hostStat hi lo x) [Reg.hostStat.off] := fun u hi lo x =>
    OnlyRegs.setFld u (List.mem_singleton_self _) hi lo x
  refine ⟨_, exec_hostLinkUp hw speed width cxl, ?_, ?_, ?_, ?_, ?_, ?_, ?_⟩
  · rw [State.setFld_frame, State.setFld_frame, State.setFld_frame, State.setBit_frame]
  · exact (((OnlyRegs.setBit s (List.mem_singleton_self Reg.hostStat.off) 31 true).trans (hput _ 30 28 speed)).trans
      (hput _ 27 23 width)).trans (hput _ 22 21 cxl)
  · rw [State.bit_setFld _ _ (by decide) (by decide), if_neg (by decide), State.bit_setFld _ _ (by decide) (by decide),
      if_neg (by decide), State.bit_setFld _ _ (by decide) (by decide), if_neg (by decide), State.bit_setBit _ _ (by decide)]
  · rw [State.fld_setFld_apart _ _ (by decide) (by decide) (.inr (by decide)),
      State.fld_setFld_apart _ _ (by decide) (by decide) (.inr (by decide)), State.fld_setFld _ _ (by decide) (by decide)]
    exact Nat.mod_eq_of_lt hs
  · rw [State.fld_setFld_apart _ _ (by decide) (by decide) (.inr (by decide)), State.fld_setFld _ _ (by decide) (by decide)]
    exact Nat.mod_eq_of_lt hwd
  · rw [State.cxlVer, State.fld_setFld _ _ (by decide) (by decide)]
    exact Nat.mod_eq_of_lt hc
  · rw [State.fld_setFld_apart _ _ (by decide) (by decide) (.inl (by decide)),
      State.fld_setFld_apart _ _ (by decide) (by decide) (.inl (by decide)),
      State.fld_setFld_apart _ _ (by decide) (by decide) (.inl (by decide)), State.setBit,
      State.fld_setFld_apart _ _ (by decide) (by decide) (.inl (by decide))]

/-- Nothing differs but pending messages and what has gone out, of which nothing is taken back. -/
def MsgOnly (s t : State) : Prop :=
  t = { s with host := { s.host with msixPend := t.host.msixPend, out := t.host.out } } ∧ s.host.out ⊆ t.host.out

theorem MsgOnly.refl (s : State) : MsgOnly s s := ⟨rfl, List.Subset.refl _⟩

theorem MsgOnly.trans {s t u : State} (h : MsgOnly s t) (k : MsgOnly t u) : MsgOnly s u :=
  ⟨by rw [k.1, h.1], List.Subset.trans h.2 k.2⟩

theorem MsgOnly.sendPend (s : State) (v : Nat) : MsgOnly s (s.sendPend v) := by
  rw [State.sendPend]
  split
  · exact ⟨rfl, List.subset_append_left ..⟩
  · exact .refl s

theorem State.sendPend_sends {s : State} {v : Nat} (hp : SMap.get false s.host.msixPend v = true) (ho : s.portOn = true)
    (hx : s.host.msixOn = true) (hm : SMap.get true s.host.msixMask v = false) :
    (s.sendPend v).host.out = s.host.out ++ [.msix v] ∧ SMap.get false (s.sendPend v).host.msixPend v = false := by
  rw [State.sendPend, hp, ho, hx, hm]
  exact ⟨rfl, SMap.get_set_self false s.host.msixPend v false⟩

theorem State.sendPend_nothing {s : State} {v : Nat} (hp : SMap.get false s.host.msixPend v = false) : s.sendPend v = s := by
  rw [State.sendPend, hp]
  rfl

theorem State.pend_sendPend_ne (s : State) {v w : Nat} (h : v ≠ w) :
    SMap.get false (s.sendPend w).host.msixPend v = SMap.get false s.host.msixPend v := by
  rw [State.sendPend]
  split
  · exact SMap.get_set_ne false false s.host.msixPend w v false h
  · rfl

theorem d3d0_completes {s : State} (hw : s.windowUp = true) :
    exec .d3hot s = .next { s with host := { s.host with d3 := true } } ∧
    ∃ t, exec .d0 s = .next t ∧ t.host.d3 = false ∧ t.regs = s.regs ∧ t.m = s.m ∧
      ∀ v, v < 128 → s.host.msixOn = true → s.bit Reg.hostStat 31 = true → SMap.get true s.host.msixMask v = false →
        SMap.get false s.host.msixPend v = true → SMap.get false t.host.msixPend v = false ∧ .msix v ∈ t.host.out := by
  refine ⟨if_pos hw, ?_⟩
  obtain ⟨u, hu⟩ : ∃ u : State, u = { s with host := { s.host with d3 := false } } := ⟨_, rfl⟩
  have hexec : exec .d0 s = .next ((List.range 128).foldl State.sendPend u) := by
    rw [hu]
    exact if_pos hw
  have hall : MsgOnly u ((List.range 128).foldl State.sendPend u) :=
    foldl_range_keeps MsgOnly.refl (fun _ _ _ => .trans) (fun s v _ => .sendPend s v) u
  refine ⟨_, hexec, ?_, ?_, ?_, fun v hv hx hl hm hp => ?_⟩
  · rw [hall.1, hu]
  · rw [hall.1, hu]
  · rw [hall.1, hu]
  · obtain ⟨x, ⟨h1, h2⟩, ⟨-, hkept⟩, h4⟩ := foldl_range_at
      (R := fun s t => MsgOnly s t ∧ SMap.get false t.host.msixPend v = SMap.get false s.host.msixPend v)
      (fun s => ⟨.refl s, rfl⟩) (fun _ _ _ h k => ⟨h.1.trans k.1, k.2.trans h.2⟩) hv (f := State.sendPend)
      (fun s w _ hne => ⟨.sendPend s w, s.pend_sendPend_ne hne.symm⟩) u
    obtain ⟨hx1, -⟩ := h1
    obtain ⟨h5, h6⟩ := State.sendPend_sends (s := x) (v := v) (by rw [h2, hu]; exact hp)
      (by rw [State.portOn, hx1, hu]; exact Bool.and_eq_true_iff.2 ⟨hl, rfl⟩) (by rw [hx1, hu]; exact hx) (by rw [hx1, hu]; exact hm)
    exact ⟨h4.trans h6, hkept (by rw [h5]; exact List.mem_append_right _ (List.mem_singleton_self _))⟩

theorem msiXUnmask_completes {s : State} {v : Nat} (hw : s.windowUp = true) (hl : s.bit Reg.hostStat 31 = true) (hv : v < 128) :
    ∃ t, exec (.msiXUnmask v) s = .next t ∧ t.host.msixOn = true ∧ SMap.get true t.host.msixMask v = false ∧ t.m = s.m ∧
      (s.host.d3 = false → SMap.get false s.host.msixPend v = true →
        t.host.out = s.host.out ++ [.msix v] ∧ SMap.get false t.host.msixPend v = false) ∧
      (SMap.get false s.host.msixPend v = false → t.host.out = s.host.out) := by
  obtain ⟨u, hu⟩ : ∃ u : State, u = { s with host := { s.host with
    msixOn := true, msixMask := SMap.set true s.host.msixMask v false } } := ⟨_, rfl⟩
  have hexec : exec (.msiXUnmask v) s = .next (u.sendPend v) := by
    rw [hu]
    exact if_pos ⟨hw, hl, hv⟩
  have hmask : SMap.get true u.host.msixMask v = false := by
    rw [hu]
    exact SMap.get_set_self true s.host.msixMask v false
  have hon : u.host.msixOn = true := by rw [hu]
  obtain ⟨hframe, -⟩ := MsgOnly.sendPend u v
  refine ⟨_, hexec, ?_, ?_, ?_, fun hd hp => ?_, fun hp => ?_⟩
  · rw [hframe, hon]
  · rw [hframe]
    exact hmask
  · rw [hframe, hu]
  · obtain ⟨h1, h2⟩ := State.sendPend_sends (s := u) (v := v) (by rw [hu]; exact hp)
      (by rw [State.portOn, hu]; exact Bool.and_eq_true_iff.2 ⟨hl, congrArg not hd⟩) hon hmask
    exact ⟨by rw [h1, hu], h2⟩
  · rw [State.sendPend_nothing (by rw [hu]; exact hp), hu]

/-! ### Configuration space (R465, R466) -/

/-- Configuration space is made of the ordering code, the serial number and the ring's size. -/
theorem State.configSpace_congr {s t : State} (ho : t.ord14 = s.ord14) (hr : ∀ r : RegRef, ¬ hostResets r.off → t.rd r = s.rd r) :
    t.configSpace = s.configSpace := by
  have hserial : t.rd64 Reg.devSerial = s.rd64 Reg.devSerial := by
    rw [State.rd64, State.rd64, hr _ (not_hostResets (by decide)), hr _ (not_hostResets (by decide))]
  have hsize : t.ringSize = s.ringSize := by
    rw [State.ringSize, State.ringSize, State.fld, State.fld, hr _ (not_hostResets (by decide))]
  rw [State.configSpace, State.configSpace, hserial, hsize, State.devId, State.devId, ho]

theorem State.configSpace_of_regs {s t : State} (ho : t.ord14 = s.ord14) (hr : t.regs = s.regs) : t.configSpace = s.configSpace :=
  State.configSpace_congr ho fun r _ => (OnlyRegs.of_regs hr : OnlyRegs s t []) r List.not_mem_nil

theorem State.configSpace_eq (s : State) : s.configSpace.classCode = 0x050210 ∧
    s.configSpace.deviceId = (if s.ord14 then 0x7201 else 0x7200) ∧ s.configSpace.revision = 1 ∧
    s.configSpace.serial = s.rd64 Reg.devSerial ∧ s.configSpace.caps.length = 15 ∧
    s.configSpace.capacity = (if s.ringSize = 0 then 2 ^ 46 else 2 ^ 46 * s.ringSize) := by
  have hrev : ∀ o : Bool, BitVec.ofNat 8 ((if o = true then 0x14017201#32 else 0x16017200#32).toNat / 2 ^ 16) = 1 := by decide
  rw [State.configSpace, State.devId]
  refine ⟨rfl, ?_, ?_, rfl, rfl, ?_⟩
  · cases s.ord14 <;> rfl
  · exact hrev s.ord14
  · dsimp only
    by_cases h : s.ringSize = 0
    · rw [if_pos h, h]
      rfl
    · rw [if_neg h, show Nat.max 1 s.ringSize = s.ringSize from Nat.max_eq_right (Nat.one_le_iff_ne_zero.2 h)]

theorem State.configSpace_hostReset (s : State) : s.hostReset.configSpace = s.configSpace := by
  obtain ⟨-, -, -, -, -, -, -, -, -, ho, hr⟩ := s.hostReset_spec
  exact State.configSpace_congr ho hr

theorem State.configSpace_functionLevelReset {s t : State} (h : exec .functionLevelReset s = .next t) :
    t.configSpace = s.configSpace := by
  cases hw : s.windowUp with
  | false =>
    have hexec : exec .functionLevelReset s = .next s := if_pos (by rw [hw]; rfl)
    rw [← Host.Outcome.next.inj (hexec.symm.trans h)]
  | true =>
    obtain ⟨cf, cr, -⟩ := s.clearQueues_spec
    obtain ⟨uf, ur, -⟩ := s.functionLevelReset_spec
    rw [exec_functionLevelReset hw] at h
    dsimp only at cf cr uf ur h
    generalize (List.range 64).foldl State.clearMbox (s.clearQueues.wr Reg.hostMboxCtl 0) = u at uf ur h
    generalize s.clearQueues = c at cf cr uf ur
    have ht := (Host.Outcome.next.inj h).symm
    have htu : t.configSpace = u.configSpace := State.configSpace_of_regs (by rw [ht]) (by rw [ht])
    have hregs : ∀ r : RegRef, r.off < 0xD00000 → u.rd r = s.rd r := fun r hr => by
      rw [ur r ?_, cr r fun q _ => ?_]
      · simp only [Reg.hostSqCfg, Reg.hostCqCfg]
        omega
      · rintro (h | ⟨k, -, h | h⟩) <;> simp only [Reg.hostMboxCtl, Reg.hostMboxReq, Reg.hostMboxRsp] at h <;> omega
    have hserial : u.rd64 Reg.devSerial = s.rd64 Reg.devSerial := by
      rw [State.rd64, State.rd64, hregs _ (by decide), hregs _ (by decide)]
    have hsize : u.ringSize = s.ringSize := by
      rw [State.ringSize, State.ringSize, State.fld, State.fld, hregs _ (by decide)]
    rw [htu, State.configSpace, State.configSpace, hserial, hsize, State.devId, State.devId, uf, cf]

theorem configSpaceStays : Claims.ConfigurationSpaceStays := by
  refine ⟨State.configSpace_eq, fun s c hc => ?_⟩
  have hreset : ∀ (p : Prop) [Decidable p], ∃ t, (if p then (.next s.hostReset : Res) else .next s) = .next t ∧
      t.configSpace = s.configSpace := fun p _ => by
    split
    · exact ⟨_, rfl, s.configSpace_hostReset⟩
    · exact ⟨_, rfl, rfl⟩
  simp only [List.mem_cons, List.not_mem_nil, or_false] at hc
  rcases hc with rfl | rfl | rfl | rfl | rfl | rfl
  case inr.inr.inl => exact hreset _
  case inr.inr.inr.inl => exact hreset _
  case inr.inr.inr.inr.inr => exact hreset _
  case inr.inr.inr.inr.inl =>
    obtain ⟨t, ht⟩ : ∃ t, exec .functionLevelReset s = .next t := by
      change ∃ t, execFunctionLevelReset s = .next t
      rw [execFunctionLevelReset]
      split <;> exact ⟨_, rfl⟩
    exact ⟨t, ht, State.configSpace_functionLevelReset ht⟩
  case inl =>
    change ∃ t, execD3hot s = .next t ∧ _
    rw [execD3hot]
    split <;> exact ⟨_, rfl, rfl⟩
  case inr.inl =>
    change ∃ t, execD0 s = .next t ∧ _
    rw [execD0]
    split
    · have hall : MsgOnly { s with host := { s.host with d3 := false } } _ :=
        foldl_range_keeps (n := 128) (f := State.sendPend) MsgOnly.refl (fun _ _ _ => .trans) (fun s v _ => .sendPend s v) _
      exact ⟨_, rfl, State.configSpace_of_regs (by rw [hall.1]) (by rw [hall.1])⟩
    · exact ⟨_, rfl, rfl⟩

/-- Settles O52: decoders by their range, host accesses by where their line lies, resets of the port by what they clear. -/
theorem hostMemoryAndLink : Obligations.HostMemoryAndLink :=
  ⟨fun _ _ base size skip hl hv hn hc => commit_completes base size skip hl hv hn hc, hostMemoryComplete,
    ⟨fun _ _ hw hc hl => hostReset_completes hw hc hl, fun _ hw => functionLevelReset_completes hw,
      fun _ _ _ _ hw hs hwd hc => hostLinkUp_completes hw hs hwd hc, fun _ hw => d3d0_completes hw,
      fun _ _ hw hl hv => msiXUnmask_completes hw hl hv⟩,
    configSpaceStays⟩

end Sys2Proof.Machine

/-!
PROOFS. Dawn, the end of PREP, mode transitions and Dusk. Settles O55.
-/

namespace Sys2Proof.Machine

/-! ### Records in the Keep tile (R509, R512) -/

/-- Nothing differs but the Keep tile. -/
def KeepOnly (s t : State) : Prop :=
  t = { s with regs := t.regs } ∧ ∀ r : RegRef, r.off < 0x108000 ∨ 0x10C000 ≤ r.off → t.rd r = s.rd r

section
variable {s t u : State}

theorem KeepOnly.refl (s : State) : KeepOnly s s := ⟨rfl, fun _ _ => rfl⟩

theorem KeepOnly.trans (h : KeepOnly s t) (k : KeepOnly t u) : KeepOnly s u :=
  ⟨by rw [k.1, h.1], fun r hr => (k.2 r hr).trans (h.2 r hr)⟩

theorem KeepOnly.fld (h : KeepOnly s t) {r : RegRef} (hr : r.off < 0x108000 ∨ 0x10C000 ≤ r.off) (hi lo : Nat) :
    t.fld r hi lo = s.fld r hi lo := by
  rw [State.fld, State.fld, h.2 r hr]

theorem KeepOnly.bit (h : KeepOnly s t) {r : RegRef} (hr : r.off < 0x108000 ∨ 0x10C000 ≤ r.off) (b : Nat) :
    t.bit r b = s.bit r b := by
  rw [State.bit, State.bit, h.fld hr]

theorem KeepOnly.keepCommit (s : State) {i : Nat} (h : i < 1024) (v : W64) : KeepOnly s (s.keepCommit i v true) := by
  obtain ⟨-, -, -, hr, hf⟩ := s.keepCommit_verified h v
  refine ⟨hf, fun r hro => hr r ?_⟩
  simp only [Reg.keepReg, Reg.keepWcnt, Reg.keepStat, List.mem_cons, List.not_mem_nil, or_false]
  omega

end

/-- A record is written word by word into one of its two banks, while the Steward is up. -/
theorem State.writeRec_eq (s : State) (ty n a b : Nat) (ds : List W64) :
    ∃ (tgt : Nat) (ws : Nat → W64), (tgt = a ∨ tgt = b) ∧ s.writeRec ty n a b ds =
      if !s.stew.up then s else (List.range (n + 2)).foldl (fun s k => s.keepCommit (tgt + k) (ws k) true) s := by
  rw [State.writeRec]
  dsimp only
  generalize hp : (if s.recValid ty n a && s.recValid ty n b then
      (if seqNewer (s.recSeq a) (s.recSeq b) then (b, s.recSeq a + 1) else (a, s.recSeq b + 1))
    else if s.recValid ty n a then (b, s.recSeq a + 1)
    else if s.recValid ty n b then (a, s.recSeq b + 1)
    else (a, 1) : Nat × Nat) = p
  obtain ⟨tgt, seq⟩ := p
  refine ⟨tgt, _, ?_, rfl⟩
  have hfst : ∀ {x y : Nat × Nat} {c : Bool}, (x.1 = a ∨ x.1 = b) → (y.1 = a ∨ y.1 = b) →
      ((if c then x else y).1 = a ∨ (if c then x else y).1 = b) := fun {x y c} hx hy => by cases c <;> assumption
  have htgt := hfst (c := s.recValid ty n a && s.recValid ty n b) (hfst (c := seqNewer (s.recSeq a) (s.recSeq b))
    (x := (b, s.recSeq a + 1)) (y := (a, s.recSeq b + 1)) (.inr rfl) (.inl rfl))
    (hfst (c := s.recValid ty n a) (x := (b, s.recSeq a + 1)) (.inr rfl) (hfst (c := s.recValid ty n b)
      (x := (a, s.recSeq b + 1)) (y := (a, 1)) (.inl rfl) (.inl rfl)))
  rw [hp] at htgt
  exact htgt

theorem KeepOnly.writeRec (s : State) (ty : Nat) {n a b : Nat} (ha : a + n + 2 ≤ 1024) (hb : b + n + 2 ≤ 1024) (ds : List W64) :
    KeepOnly s (s.writeRec ty n a b ds) := by
  obtain ⟨tgt, ws, ht, he⟩ := s.writeRec_eq ty n a b ds
  rw [he]
  split
  · exact .refl s
  · exact foldl_range_keeps .refl (fun _ _ _ => .trans) (fun s k hk => .keepCommit s (by omega) _) s

theorem KeepOnly.writeShutdown (s : State) (clean : Bool) : KeepOnly s (s.writeShutdown clean) :=
  .writeRec s 2 (by decide) (by decide) _

theorem KeepOnly.writePosition (s : State) : KeepOnly s s.writePosition := by
  rw [State.writePosition]
  split
  · exact .refl s
  · exact .writeRec s 1 (by decide) (by decide) _

/-- The marks written down: whether they still wait to be is all that differs beside the Keep tile. -/
theorem State.writeBadblock_frame (s : State) :
    ∃ u x, KeepOnly s u ∧ s.writeBadblock = { u with blk := { u.blk with unsaved := x } } :=
  ⟨_, _, .writeRec s 3 (by decide) (by decide) _, rfl⟩

theorem State.writeSeeds_frame (s : State) : ∃ n, KeepOnly { s with freeCtr := n } s.writeSeeds :=
  ⟨_, .writeRec _ 4 (by decide) (by decide) _⟩

/-! ### Post (R523, R525) -/

theorem exec_post {s : State} (h : s.fld Reg.pwrDuskStat 31 29 = 2) :
    exec .post s =
      if s.sta.tasks.any (fun p => p.2.st = .settled) = false then .next s.afterPost
      else if s.duskLap * s.lapTicks + 64000000 ≤ s.tb then .next s.discardHeld.afterPost else .next s := by
  change execPost s = _
  rw [execPost, if_neg (fun hne => hne h)]
  cases s.sta.tasks.any (fun p => p.2.st = .settled) <;> rfl

theorem State.afterPost_dusk {s : State} (h : s.mode = .dusk) :
    s.afterPost.fld Reg.pwrDuskStat 31 29 = 3 ∧ s.afterPost.blk.voided = (s.bit Reg.supStat 0 || s.bit Reg.supStat 1) ∧
      s.afterPost.m = s.m ∧ s.afterPost.mode = .dusk ∧ s.afterPost.host = s.host := by
  have hfld := s.fld_setFld Reg.pwrDuskStat (show 29 ≤ 31 by decide) (by decide) 3
  obtain ⟨x, hx⟩ : ∃ x, s.setFld Reg.pwrDuskStat 31 29 3 = { s with regs := x } := ⟨_, s.setFld_frame ..⟩
  have hp : s.afterPost = { s.setFld Reg.pwrDuskStat 31 29 3 with
      blk := { s.blk with voided := s.bit Reg.supStat 0 || s.bit Reg.supStat 1 } } := if_pos h
  rw [hx] at hfld hp
  rw [hp]
  exact ⟨hfld, rfl, rfl, h, rfl⟩

/-- What is held by a queue is discarded. -/
def State.dropHeld (s : State) (q : Nat) : State :=
  if (s.cq q).held.isEmpty then s else s.updCq q (fun c => { c with held := [] })

theorem State.discardHeld_eq (s : State) :
    ∃ u x, u = { s with sta := u.sta } ∧
      s.discardHeld = ((List.range 64).foldl State.dropHeld u).setFld Reg.pwrDuskStat 7 0 x := by
  refine ⟨_, _, ?_, rfl⟩
  generalize (s.sta.tasks.filter (fun p => p.2.st = .settled)).map (fun p => p.1) = l
  induction l generalizing s with
  | nil => rfl
  | cons t l ih =>
    rw [List.foldl_cons, ih]
    rfl

theorem State.dropHeld_frame (s : State) (q : Nat) :
    s.dropHeld q = { s with host := { s.host with cq := (s.dropHeld q).host.cq } } ∧ ((s.dropHeld q).cq q).held = [] ∧
      ∀ p, p ≠ q → (s.dropHeld q).cq p = s.cq p := by
  rw [State.dropHeld]
  split
  · exact ⟨rfl, List.isEmpty_iff.1 ‹_›, fun _ _ => rfl⟩
  · exact ⟨rfl, by rw [State.cq_updCq], fun p hp =>
      SMap.get_upd_ne CQueue.init s.host.cq (fun c : CQueue => { c with held := [] }) hp⟩

theorem State.discardHeld_spec (s : State) :
    s.discardHeld.mode = s.mode ∧ s.discardHeld.m = s.m ∧ ∀ q, q < 64 → (s.discardHeld.cq q).held = [] := by
  obtain ⟨u, x, hu, he⟩ := s.discardHeld_eq
  have hw : (List.range 64).foldl State.dropHeld u =
      { u with host := { u.host with cq := ((List.range 64).foldl State.dropHeld u).host.cq } } :=
    foldl_range_keeps (R := fun s t => t = { s with host := { s.host with cq := t.host.cq } }) (fun _ => rfl)
      (fun s t u h k => by rw [k, h]) (fun s q _ => (s.dropHeld_frame q).1) u
  have hq : ∀ q, q < 64 → (((List.range 64).foldl State.dropHeld u).cq q).held = [] := fun q hq => by
    obtain ⟨y, -, hy⟩ := foldl_range_at (R := fun s t => t.cq q = s.cq q) (fun _ => rfl) (fun _ _ _ h k => k.trans h) hq
      (f := State.dropHeld) (fun s i _ hne => (s.dropHeld_frame i).2.2 q hne.symm) u
    rw [hy]
    exact (y.dropHeld_frame q).2.1
  rw [he]
  generalize (List.range 64).foldl State.dropHeld u = w at hw hq
  obtain ⟨y, hy⟩ : ∃ y, w.setFld Reg.pwrDuskStat 7 0 x = { w with regs := y } := ⟨_, w.setFld_frame ..⟩
  rw [hy]
  exact ⟨by rw [hw, hu], by rw [hw, hu], hq⟩

theorem post_completes {s : State} (hph : s.fld Reg.pwrDuskStat 31 29 = 2) (hm : s.mode = .dusk) :
    (s.sta.tasks.any (fun p => p.2.st = .settled) = false →
      ∃ t, exec .post s = .next t ∧ t.fld Reg.pwrDuskStat 31 29 = 3 ∧
        t.blk.voided = (s.bit Reg.supStat 0 || s.bit Reg.supStat 1) ∧ t.m = s.m ∧ t.mode = .dusk) ∧
    (s.sta.tasks.any (fun p => p.2.st = .settled) = true → s.duskLap * s.lapTicks + 64000000 ≤ s.tb →
      ∃ t, exec .post s = .next t ∧ t.fld Reg.pwrDuskStat 31 29 = 3 ∧ (∀ q, q < 64 → (t.cq q).held = []) ∧ t.m = s.m) ∧
    (s.sta.tasks.any (fun p => p.2.st = .settled) = true → s.tb < s.duskLap * s.lapTicks + 64000000 →
      exec .post s = .next s) := by
  rw [exec_post hph]
  refine ⟨fun h => ?_, fun h hl => ?_, fun h hl => ?_⟩
  · obtain ⟨h1, h2, h3, h4, -⟩ := State.afterPost_dusk hm
    rw [if_pos h]
    exact ⟨_, rfl, h1, h2, h3, h4⟩
  · obtain ⟨k1, k2, k3⟩ := s.discardHeld_spec
    obtain ⟨h1, -, h3, -, h5⟩ := State.afterPost_dusk (k1.trans hm)
    rw [if_neg (by rw [h]; decide), if_pos hl]
    refine ⟨_, rfl, h1, fun q hq => ?_, h3.trans k2⟩
    rw [State.cq, h5]
    exact k3 q hq
  · rw [if_neg (by rw [h]; decide), if_neg (Nat.not_le.2 hl)]

/-! ### Test (R525 to R530) -/

/-- The signature of an engine in Test: the expected one where none is given (log 11). -/
def sigOf (sigs : List (Nat × W64)) (gold : W64) (e : Nat) : W64 :=
  match sigs.find? (fun p => p.1 = e) with
  | some p => p.2
  | none => gold

theorem sigOf_eq (sigs : List (Nat × W64)) (gold : W64) (e : Nat) :
    sigOf sigs gold e = ((sigs.find? (fun p => p.1 = e)).map (fun p => p.2)).getD gold := by
  rw [sigOf]
  cases sigs.find? (fun p => p.1 = e) <;> rfl

/-- Engines whose signature differs from the expected one, and engines whose bank fails. -/
def logicBad (sigs : List (Nat × W64)) (gold : W64) : List Nat := (List.range 512).filter (fun e => decide (sigOf sigs gold e ≠ gold))

def bankBad (banks : List Nat) : List Nat := (List.range 512).filter (fun e => banks.contains e)

/-- The marks after those of some engines are added. -/
def addMarks (m : SMap Bool) (es : List Nat) : SMap Bool := es.foldl (fun m e => SMap.set false m e true) m

theorem get_addMarks (m : SMap Bool) (es : List Nat) (e : Nat) :
    SMap.get false (addMarks m es) e = (SMap.get false m e || decide (e ∈ es)) := by
  induction es generalizing m with
  | nil => simp [addMarks]
  | cons x t ih =>
    have hcons : addMarks m (x :: t) = addMarks (SMap.set false m x true) t := rfl
    rw [hcons, ih]
    by_cases h : e = x
    · rw [h, SMap.get_set_self false m x true]
      simp
    · rw [SMap.get_set_ne false false m x e true h]
      simp [h]

theorem mem_range_filter {p : Nat → Bool} {n e : Nat} (he : e < n) : decide (e ∈ (List.range n).filter p) = p e := by
  rw [Bool.eq_iff_iff, decide_eq_true_iff, List.mem_filter, List.mem_range]
  exact ⟨fun h => h.2, fun h => ⟨he, h⟩⟩

theorem length_range_filter_le (n : Nat) (p : Nat → Bool) : ((List.range n).filter p).length ≤ n :=
  (List.length_filter_le p (List.range n)).trans_eq List.length_range

/-- Test's results of one engine. -/
def State.testEngine (s : State) (sig : Nat → W64) (logic bank : List Nat) (e : Nat) : State :=
  (s.wr64 (Reg.enLbistSig e) (sig e)).wr (Reg.enLbistStat e)
    (BitVec.ofNat 32 ((bank.contains e).toNat * 2 + (logic.contains e).toNat))

/-- The counts of Test, and whether a warning voids it. -/
def State.countTest (s : State) (logic bank : Nat) (void : Bool) : State :=
  ((s.setFld Reg.pwrDuskStat 28 19 logic).setFld Reg.pwrDuskStat 18 9 bank).setBit Reg.pwrDuskStat 8 void

/-- A warning of VDD_CORE or VDD_SRAM voids the test. -/
def State.testVoid (s : State) : Bool := s.blk.voided || s.bit Reg.supStat 0 || s.bit Reg.supStat 1

/-- The results of every engine are recorded. -/
def State.recorded (s : State) (sigs : List (Nat × W64)) (logic bank : List Nat) : State :=
  (List.range 512).foldl (fun t e => t.testEngine (sigOf sigs (s.rd64 Reg.pwrLbistGold)) logic bank e) s

/-- The results are recorded and counted. -/
def State.tested (s : State) (sigs : List (Nat × W64)) (logic bank : List Nat) : State :=
  let u := s.recorded sigs logic bank
  ({ u with blk := { u.blk with voided := s.testVoid } } : State).countTest logic.length bank.length s.testVoid

/-- The marks of Test's failures. -/
def Blocks.failing (b : Blocks) (logic bank : List Nat) (unsaved : Bool) : Blocks :=
  { b with badEngine := addMarks (addMarks b.badEngine logic) bank, badBank := addMarks b.badBank bank, unsaved := unsaved }

theorem State.selfTest_eq (s : State) (sigs : List (Nat × W64)) (banks : List Nat) {logic bank : List Nat} {v : State}
    (hl : logic = logicBad sigs (s.rd64 Reg.pwrLbistGold)) (hb : bank = bankBad banks) (hv : v = s.tested sigs logic bank) :
    ∃ x, s.selfTest sigs banks = if s.testVoid then v else { v with blk := v.blk.failing logic bank x } := by
  refine ⟨v.blk.unsaved || logic.any (fun e => !SMap.get false s.blk.badEngine e) ||
    bank.any (fun e => !SMap.get false s.blk.badEngine e || !SMap.get false s.blk.badBank e), ?_⟩
  delta State.selfTest
  extract_lets gold sig logic' bank' s1 void mark src s2 s3 src'
  have hlogic : logic' = logic := hl.symm
  have hbank : bank' = bank := hb.symm
  have hvoid : void = s.testVoid := rfl
  have hs1 : s1 = s.recorded sigs logic' bank' := rfl
  have hs3 : s3 = ({ s1 with blk := { s1.blk with voided := void } } : State).countTest logic'.length bank'.length void := rfl
  have hsv : s3 = v := by rw [hs3, hs1, hv, State.tested, hvoid, hlogic, hbank]
  have hsrc : src' = s3.blk := rfl
  clear_value s3 src' void logic' bank'
  rw [hsrc, hsv, hlogic, hbank, hvoid]
  rfl

/-- Nothing differs but registers of the engines. -/
def EngineRegsOnly (s t : State) : Prop := t = { s with regs := t.regs } ∧ ∀ r : RegRef, r.off < 0x1000000 → t.rd r = s.rd r

theorem EngineRegsOnly.testEngine (s : State) (sig : Nat → W64) (logic bank : List Nat) (e : Nat) :
    EngineRegsOnly s (s.testEngine sig logic bank e) := by
  refine ⟨rfl, fun r hr => ?_⟩
  have hne : r.off ≠ (Reg.enLbistStat e).off ∧ r.off ≠ (Reg.enLbistSig e).off ∧ r.off ≠ (Reg.enLbistSig e).off + 4 := by
    simp only [Reg.enLbistStat, Reg.enLbistSig]
    omega
  rw [State.testEngine, State.rd_wr_ne _ _ _ _ hne.1, State.rd_wr64_ne _ _ _ _ hne.2.1 hne.2.2]

theorem EngineRegsOnly.testEngines (s : State) (sig : Nat → W64) (logic bank : List Nat) :
    EngineRegsOnly s ((List.range 512).foldl (fun s e => s.testEngine sig logic bank e) s) :=
  foldl_range_keeps (fun _ => ⟨rfl, fun _ _ => rfl⟩) (fun _ _ _ h k => ⟨by rw [k.1, h.1], fun r hr => (k.2 r hr).trans (h.2 r hr)⟩)
    (fun s e _ => .testEngine s sig logic bank e) s

theorem State.countTest_spec (s : State) {logic bank : Nat} (hl : logic ≤ 512) (hb : bank ≤ 512) (void : Bool) :
    let t := s.countTest logic bank void
    t = { s with regs := t.regs } ∧ OnlyRegs s t [Reg.pwrDuskStat.off] ∧ t.fld Reg.pwrDuskStat 28 19 = logic ∧
      t.fld Reg.pwrDuskStat 18 9 = bank ∧ t.bit Reg.pwrDuskStat 8 = void := by
  have hput : ∀ (u : State) hi lo x, OnlyRegs u (u.setFld Reg.pwrDuskStat hi lo x) [Reg.pwrDuskStat.off] := fun u hi lo x =>
    OnlyRegs.setFld u (List.mem_singleton_self _) hi lo x
  rw [State.countTest]
  refine ⟨by rw [State.setBit_frame, State.setFld_frame, State.setFld_frame],
    ((hput s 28 19 logic).trans (hput _ 18 9 bank)).trans (hput _ 8 8 void.toNat), ?_, ?_,
    State.bit_setBit _ _ (by decide) void⟩
  · rw [State.setBit, State.fld_setFld_apart _ _ (by decide) (by decide) (.inr (by decide)),
      State.fld_setFld_apart _ _ (by decide) (by decide) (.inr (by decide)), State.fld_setFld _ _ (by decide) (by decide)]
    omega
  · rw [State.setBit, State.fld_setFld_apart _ _ (by decide) (by decide) (.inr (by decide)),
      State.fld_setFld _ _ (by decide) (by decide)]
    omega

theorem State.tested_spec (s : State) (sigs : List (Nat × W64)) {logic bank : List Nat} (hl : logic.length ≤ 512)
    (hb : bank.length ≤ 512) :
    let t := s.tested sigs logic bank
    t = { s with regs := t.regs, blk := { s.blk with voided := s.testVoid } } ∧ t.fld Reg.pwrDuskStat 28 19 = logic.length ∧
      t.fld Reg.pwrDuskStat 18 9 = bank.length ∧ t.bit Reg.pwrDuskStat 8 = s.testVoid := by
  rw [State.tested]
  obtain ⟨hu, -⟩ : EngineRegsOnly s (s.recorded sigs logic bank) := .testEngines s _ logic bank
  generalize s.recorded sigs logic bank = u at hu
  obtain ⟨w, hw⟩ : ∃ w : State, w = { u with blk := { u.blk with voided := s.testVoid } } := ⟨_, rfl⟩
  obtain ⟨c1, -, c3, c4, c5⟩ := w.countTest_spec hl hb s.testVoid
  dsimp only
  rw [← hw]
  exact ⟨by rw [c1, hw, hu], c3, c4, c5⟩

/-- What Test records. -/
theorem State.selfTest_spec (s : State) (sigs : List (Nat × W64)) (banks : List Nat) :
    let t := s.selfTest sigs banks
    let logic := logicBad sigs (s.rd64 Reg.pwrLbistGold)
    let bank := bankBad banks
    t = { s with regs := t.regs, blk := t.blk } ∧ t.fld Reg.pwrDuskStat 28 19 = logic.length ∧
      t.fld Reg.pwrDuskStat 18 9 = bank.length ∧ t.bit Reg.pwrDuskStat 8 = s.testVoid ∧
      (s.testVoid = true → t.blk.badEngine = s.blk.badEngine ∧ t.blk.badBank = s.blk.badBank) ∧
      (s.testVoid = false → t.blk.badEngine = addMarks (addMarks s.blk.badEngine logic) bank ∧
        t.blk.badBank = addMarks s.blk.badBank bank) := by
  have hlogic := length_range_filter_le 512 (fun e => decide (sigOf sigs (s.rd64 Reg.pwrLbistGold) e ≠ s.rd64 Reg.pwrLbistGold))
  have hbank := length_range_filter_le 512 (fun e => banks.contains e)
  rw [← logicBad] at hlogic
  rw [← bankBad] at hbank
  obtain ⟨x, hx⟩ := s.selfTest_eq sigs banks rfl rfl rfl
  obtain ⟨hv, h1, h2, h3⟩ := s.tested_spec sigs hlogic hbank
  generalize logicBad sigs (s.rd64 Reg.pwrLbistGold) = logic at *
  generalize bankBad banks = bank at *
  generalize s.tested sigs logic bank = v at *
  have hblk : v.blk = { s.blk with voided := s.testVoid } := by rw [hv]
  dsimp only
  by_cases hvoid : s.testVoid = true
  · rw [if_pos hvoid] at hx
    rw [hx]
    exact ⟨by rw [hv], h1, h2, h3, fun _ => ⟨by rw [hblk], by rw [hblk]⟩, fun h => absurd (hvoid.symm.trans h) (by decide)⟩
  · rw [if_neg hvoid] at hx
    rw [hx]
    have hr : ({ v with blk := v.blk.failing logic bank x } : State).regs = v.regs := rfl
    exact ⟨by rw [hv], (State.fld_congr hr _ _ _).trans h1, (State.fld_congr hr _ _ _).trans h2, (State.bit_congr hr _ _).trans h3,
      fun h => absurd h hvoid, fun _ => ⟨by rw [hblk]; rfl, by rw [hblk]; rfl⟩⟩

theorem exec_test {s : State} (hm : s.mode = .dusk) (hp : s.fld Reg.pwrDuskStat 31 29 = 3) (sigs : List (Nat × W64)) (banks : List Nat) :
    exec (.test sigs banks) s = .next ((s.selfTest sigs banks).setFld Reg.pwrDuskStat 31 29 4) := if_pos ⟨hm, hp⟩

theorem test_completes {s : State} (sigs : List (Nat × W64)) (banks : List Nat) (hm : s.mode = .dusk)
    (hp : s.fld Reg.pwrDuskStat 31 29 = 3) :
    let gold := s.rd64 Reg.pwrLbistGold
    let bad := fun (e : Nat) => ((sigs.find? (fun p => p.1 = e)).map (fun p => p.2)).getD gold ≠ gold
    ∃ t, exec (.test sigs banks) s = .next t ∧ t.fld Reg.pwrDuskStat 31 29 = 4 ∧ t.m = s.m ∧ t.mode = .dusk ∧
      t.fld Reg.pwrDuskStat 28 19 = ((List.range 512).filter (fun e => decide (bad e))).length ∧
      t.fld Reg.pwrDuskStat 18 9 = ((List.range 512).filter (fun e => banks.contains e)).length ∧
      t.bit Reg.pwrDuskStat 8 = (s.blk.voided || s.bit Reg.supStat 0 || s.bit Reg.supStat 1) ∧
      (t.bit Reg.pwrDuskStat 8 = true → t.blk.badEngine = s.blk.badEngine ∧ t.blk.badBank = s.blk.badBank) ∧
      (t.bit Reg.pwrDuskStat 8 = false → ∀ e, e < 512 →
        SMap.get false t.blk.badEngine e = (SMap.get false s.blk.badEngine e || decide (bad e) || banks.contains e) ∧
        SMap.get false t.blk.badBank e = (SMap.get false s.blk.badBank e || banks.contains e)) := by
  intro gold bad
  obtain ⟨hf, h1, h2, h3, h4, h5⟩ := s.selfTest_spec sigs banks
  rw [exec_test hm hp]
  generalize s.selfTest sigs banks = u at hf h1 h2 h3 h4 h5
  have hphase := u.fld_setFld Reg.pwrDuskStat (show 29 ≤ 31 by decide) (by decide) 4
  have hlow : ∀ hi lo, hi < 29 → (u.setFld Reg.pwrDuskStat 31 29 4).fld Reg.pwrDuskStat hi lo = u.fld Reg.pwrDuskStat hi lo :=
    fun hi lo h => u.fld_setFld_apart Reg.pwrDuskStat (by decide) (by omega) (.inl h) 4
  have hbit : (u.setFld Reg.pwrDuskStat 31 29 4).bit Reg.pwrDuskStat 8 = u.bit Reg.pwrDuskStat 8 := by
    rw [State.bit, State.bit, hlow 8 8 (by decide)]
  obtain ⟨x, hx⟩ : ∃ x, u.setFld Reg.pwrDuskStat 31 29 4 = { u with regs := x } := ⟨_, u.setFld_frame ..⟩
  have hblk : (u.setFld Reg.pwrDuskStat 31 29 4).blk = u.blk := by rw [hx]
  refine ⟨_, rfl, hphase, ?_, ?_, ?_, ?_, hbit.trans h3, fun h => ?_, fun h e he => ?_⟩
  · rw [hx, hf]
  · rw [hx, hf, hm]
  · rw [hlow 28 19 (by decide), h1]
    simp only [logicBad, sigOf_eq, gold, bad]
  · rw [hlow 18 9 (by decide), h2]
    rfl
  · rw [hblk]
    exact h4 (h3.symm.trans (hbit.symm.trans h))
  · obtain ⟨k1, k2⟩ := h5 (h3.symm.trans (hbit.symm.trans h))
    rw [hblk, k1, k2, get_addMarks, get_addMarks, get_addMarks, logicBad, bankBad, mem_range_filter he, mem_range_filter he, sigOf_eq]
    exact ⟨rfl, rfl⟩

end Sys2Proof.Machine

namespace Sys2Proof.Machine

/-! ### Record and the way to HOLD (R531) -/

/-- Keys that a filter over keys keeps, and those that it takes out. -/
theorem SMap.get_filter_keys {α : Type} (d : α) (m : SMap α) (p : Nat → Bool) (k : Nat) :
    SMap.get d (m.filter (fun q => p q.1)) k = if p k then SMap.get d m k else d := by
  cases hp : p k with
  | true => exact SMap.get_filter_ne d m _ k (fun _ => hp)
  | false =>
    refine SMap.get_of_not_key d fun hm => ?_
    obtain ⟨q, hq, rfl⟩ := List.mem_map.1 hm
    exact Bool.false_ne_true (hp.symm.trans (List.mem_filter.1 hq).2)

/-- The address lies in a Home Bank of the part. -/
def inHomeBanks (a : Nat) : Bool := Nat.ble 0x280000000000 a && Nat.blt a 0x280008000000

theorem inHomeBanks_iff (a : Nat) : inHomeBanks a = true ↔ 0x280000000000 ≤ a ∧ a < 0x280008000000 := by
  rw [inHomeBanks, Bool.and_eq_true, Nat.ble_eq, Nat.blt_eq]

theorem State.mem_loseReqs (rs : List MemReq) (s : State) : (rs.foldl (fun s r => s.loseReq r) s).m.mem = s.m.mem := by
  induction rs generalizing s with
  | nil => rfl
  | cons r rs ih => rw [List.foldl_cons, ih, State.mem_loseReq]

theorem State.clearEngines_spec (s : State) :
    s.clearEngines.m.mem = s.m.mem.filter (fun p => !inHomeBanks p.1) ∧ ∀ e, e < 512 → s.clearEngines.eng e = Engine.init := by
  obtain ⟨v, hv⟩ : ∃ v : State, v = { s with m := { s.m with memq := s.m.memq.filter (fun r => !inHomeBanks r.off) } } := ⟨_, rfl⟩
  obtain ⟨u, hu⟩ : ∃ u, u = (s.m.memq.filter (fun r => inHomeBanks r.off)).foldl (fun s r => s.loseReq r) v := ⟨_, rfl⟩
  have he : ∃ h, s.clearEngines = { u with
      engines := u.engines.filter (fun p => decide (512 ≤ p.1))
      m := { u.m with mem := u.m.mem.filter (fun p => !inHomeBanks p.1), health := h } } := by
    rw [hu, hv]
    exact ⟨_, rfl⟩
  have hmem : u.m.mem = s.m.mem := by rw [hu, State.mem_loseReqs, hv]
  obtain ⟨h, he⟩ := he
  rw [he]
  refine ⟨by rw [← hmem], fun e hlt => ?_⟩
  refine (SMap.get_filter_keys Engine.init u.engines (fun k => decide (512 ≤ k)) e).trans (if_neg ?_)
  rw [decide_eq_true_eq]
  omega

/-- The marks are written down, unless a warning voids the test. -/
def State.recordMarks (s : State) : State := if s.blk.unsaved && !s.bit Reg.pwrDuskStat 8 then s.writeBadblock else s

/-- The mailbox command that asked for Dusk is answered. -/
def State.answerDusk (s : State) : State :=
  if s.host.duskCmd then
    (s.mboxRsp [BitVec.ofNat 32 (s.fld Reg.pwrDuskStat 28 19), BitVec.ofNat 32 (s.fld Reg.pwrDuskStat 18 9)]).mboxEnd 2
  else s

theorem exec_record {s : State} (hm : s.mode = .dusk) (hp : s.fld Reg.pwrDuskStat 31 29 = 4) :
    exec .record s = .next (((s.clearEngines.recordMarks.writeShutdown (!s.clearEngines.bit Reg.pwrDuskStat 8)).answerDusk).setFld
      Reg.pwrDuskStat 31 29 0) := if_pos ⟨hm, hp⟩

/-- Neither memory nor engines differ. -/
def PlacesKept (s t : State) : Prop := t.m = s.m ∧ t.engines = s.engines

theorem PlacesKept.trans {s t u : State} (h : PlacesKept s t) (k : PlacesKept t u) : PlacesKept s u :=
  ⟨k.1.trans h.1, k.2.trans h.2⟩

theorem KeepOnly.places {s t : State} (h : KeepOnly s t) : PlacesKept s t := ⟨by rw [h.1], by rw [h.1]⟩

theorem PlacesKept.recordMarks (s : State) : PlacesKept s s.recordMarks := by
  rw [State.recordMarks]
  split
  · obtain ⟨u, x, hu, he⟩ := s.writeBadblock_frame
    rw [he]
    exact hu.places
  · exact ⟨rfl, rfl⟩

theorem PlacesKept.mboxRsp (s : State) (ws : List (BitVec 32)) : PlacesKept s (s.mboxRsp ws) :=
  foldl_range_keeps (R := PlacesKept) (f := fun s k => s.wr (Reg.hostMboxRsp k) (ws.getD k 0)) (fun _ => ⟨rfl, rfl⟩)
    (fun _ _ _ => .trans) (fun _ _ _ => ⟨rfl, rfl⟩) s

theorem PlacesKept.answerDusk (s : State) : PlacesKept s s.answerDusk := by
  rw [State.answerDusk]
  split
  · have hrsp := PlacesKept.mboxRsp s [BitVec.ofNat 32 (s.fld Reg.pwrDuskStat 28 19), BitVec.ofNat 32 (s.fld Reg.pwrDuskStat 18 9)]
    generalize s.mboxRsp _ = u at hrsp
    refine hrsp.trans ?_
    obtain ⟨⟨x, hx⟩, -⟩ := u.mboxEnd_frame 2
    rw [hx]
    exact ⟨rfl, rfl⟩
  · exact ⟨rfl, rfl⟩

theorem record_completes {s : State} (hm : s.mode = .dusk) (hp : s.fld Reg.pwrDuskStat 31 29 = 4) :
    ∃ t, exec .record s = .next t ∧ t.fld Reg.pwrDuskStat 31 29 = 0 ∧ (∀ e, e < 512 → t.eng e = Engine.init) ∧
      ∀ a, SMap.get 0 t.m.mem a = if 0x280000000000 ≤ a ∧ a < 0x280008000000 then 0 else SMap.get 0 s.m.mem a := by
  rw [exec_record hm hp]
  obtain ⟨hmem, heng⟩ := s.clearEngines_spec
  generalize s.clearEngines = u at hmem heng
  have hk : PlacesKept u ((u.recordMarks.writeShutdown (!u.bit Reg.pwrDuskStat 8)).answerDusk) :=
    ((PlacesKept.recordMarks u).trans (KeepOnly.writeShutdown _ _).places).trans (.answerDusk _)
  generalize (u.recordMarks.writeShutdown _).answerDusk = v at hk
  have hphase := v.fld_setFld Reg.pwrDuskStat (show 29 ≤ 31 by decide) (by decide) 0
  obtain ⟨x, hx⟩ : ∃ x, v.setFld Reg.pwrDuskStat 31 29 0 = { v with regs := x } := ⟨_, v.setFld_frame ..⟩
  refine ⟨_, rfl, hphase, fun e he => ?_, fun a => ?_⟩
  · rw [hx]
    change SMap.get Engine.init v.engines e = _
    rw [hk.2]
    exact heng e he
  · have hv : (v.setFld Reg.pwrDuskStat 31 29 0).m.mem = s.m.mem.filter (fun p => !inHomeBanks p.1) := by rw [hx, ← hmem, ← hk.1]
    rw [hv]
    refine (SMap.get_filter_keys 0 s.m.mem (fun k => !inHomeBanks k) a).trans ?_
    by_cases h : 0x280000000000 ≤ a ∧ a < 0x280008000000
    · rw [if_pos h, (inHomeBanks_iff a).2 h]
      rfl
    · rw [if_neg h, Bool.eq_false_iff.2 (mt (inHomeBanks_iff a).1 h)]
      rfl

theorem toHold_completes {s : State} (hm : s.mode = .dusk) (hp : s.fld Reg.pwrDuskStat 31 29 = 0) :
    ∃ t, exec .toHold s = .next t ∧ t.mode = .hold ∧ t.pwr.duskHold = true ∧ s.afterAnyReset t := by
  obtain ⟨u, hu⟩ : ∃ u : State, u = { s with pwr := { s.pwr with duskHold := true } } := ⟨_, rfl⟩
  refine ⟨u.enterHold, ?_, u.mode_enterHold, by rw [u.pwr_enterHold, hu], ?_⟩
  · rw [hu]
    exact if_pos ⟨hm, hp⟩
  · rw [hu]
    exact State.afterAnyReset_enterHold (ResetAlike.pwr s _)

theorem duskComplete : Claims.DuskComplete :=
  ⟨fun _ hp hm => post_completes hp hm, fun _ sigs banks hm hp => test_completes sigs banks hm hp,
    fun _ hm hp => record_completes hm hp, fun _ hm hp => toHold_completes hm hp⟩

end Sys2Proof.Machine

namespace Sys2Proof.Machine

/-! ### The drain and DUSK (R522) -/

theorem State.beginDrain_spec (s : State) :
    s.beginDrain = { s with regs := s.beginDrain.regs, sta := s.beginDrain.sta, host := s.beginDrain.host } ∧
      s.beginDrain.bit Reg.staAdmitCtrl 0 = false ∧ s.beginDrain.fld Reg.pwrDuskStat 31 29 = 1 := by
  obtain ⟨a, ha⟩ : ∃ a, a = s.setBit Reg.staAdmitCtrl 0 false := ⟨_, rfl⟩
  obtain ⟨u, hu⟩ : ∃ u, u = a.setFld Reg.pwrDuskStat 31 29 1 := ⟨_, rfl⟩
  have hadm : u.bit Reg.staAdmitCtrl 0 = false := by
    rw [hu, State.bit, a.fld_setFld_ne Reg.pwrDuskStat Reg.staAdmitCtrl _ _ _ _ _ (by decide), ha]
    exact s.bit_setBit Reg.staAdmitCtrl (by decide) false
  have hph : u.fld Reg.pwrDuskStat 31 29 = 1 := by
    rw [hu]
    exact a.fld_setFld Reg.pwrDuskStat (by decide) (by decide) 1
  have huf : u = { s with regs := u.regs } := by rw [hu, ha, State.setFld_frame, State.setBit_frame]
  have hsettle : ∀ (l : List Nat) (v : State), OnlyRegs v (l.foldl (fun s t => s.settle t .cancelled 0 0) v) settleOffs ∧
      ∃ r x h, l.foldl (fun s t => s.settle t .cancelled 0 0) v = { v with regs := r, sta := x, host := h } := by
    intro l
    induction l with
    | nil => exact fun v => ⟨OnlyRegs.refl _ _, v.regs, v.sta, v.host, rfl⟩
    | cons t l ih =>
      intro v
      obtain ⟨hf, hr⟩ := v.settle_frame t .cancelled 0 0
      obtain ⟨kr, r, x, h, k⟩ := ih (v.settle t .cancelled 0 0)
      refine ⟨hr.trans kr, r, x, h, ?_⟩
      rw [List.foldl_cons, k, hf]
  have he : ∃ l : List Nat, s.beginDrain = l.foldl (fun s t => s.settle t .cancelled 0 0) u := by
    rw [hu, ha]
    exact ⟨_, rfl⟩
  obtain ⟨l, he⟩ := he
  obtain ⟨hr, r, x, h, hf⟩ := hsettle l u
  rw [← he] at hr hf
  refine ⟨by rw [hf, huf], (hr.bit (by decide) 0).trans hadm, (hr.fld (by decide) _ _).trans hph⟩

/-- Nothing differs but the clusters. -/
def ClustersOnly (s t : State) : Prop :=
  t = { s with regs := t.regs, pwr := t.pwr } ∧ ∀ r : RegRef, (∀ c, c < 32 → r.off ≠ (Reg.pwrClStat c).off) → t.rd r = s.rd r

theorem ClustersOnly.allNoon (s : State) : ClustersOnly s s.allNoon :=
  foldl_range_keeps (R := ClustersOnly) (f := State.toNoon) (fun _ => ⟨rfl, fun _ _ => rfl⟩)
    (fun _ _ _ h k => ⟨by rw [k.1, h.1], fun r hr => (k.2 r hr).trans (h.2 r hr)⟩)
    (fun s c hc => ⟨rfl, fun r hr => State.rd_wr_ne _ _ _ _ (hr c hc)⟩) s

theorem State.stopLog_frame (s : State) : s.stopLog = { s with regs := s.stopLog.regs } ∧ OnlyRegs s s.stopLog [Reg.recStat.off] :=
  ⟨rfl, OnlyRegs.setBit s (List.mem_singleton_self _) 28 false⟩

/-- In DUSK a request that waited is refused. -/
theorem State.judgeNext_refused {s : State} (h : s.mode.running = false) :
    OnlyRegs s s.judgeNext [Reg.hostMboxCtl.off] ∧ ∃ r n x, s.judgeNext = { s with regs := r, nextMode := n, host := x } := by
  rw [State.judgeNext]
  cases hn : s.nextMode with
  | none => exact ⟨OnlyRegs.refl _ _, s.regs, s.nextMode, s.host, rfl⟩
  | some m =>
    obtain ⟨v, hv⟩ : ∃ v : State, v = { s with nextMode := none } := ⟨_, rfl⟩
    obtain ⟨⟨x, hf⟩, hr, -⟩ := v.mboxEnd_frame 4
    dsimp only
    rw [h, ← hv, if_pos (show (!false) = true from rfl)]
    have hsv : OnlyRegs s v [Reg.hostMboxCtl.off] := OnlyRegs.of_regs (by rw [hv])
    refine ⟨hsv.trans hr, (v.mboxEnd 4).regs, none, x, ?_⟩
    rw [hf, hv]

theorem State.enterDusk_spec (s : State) :
    s.enterDusk.mode = .dusk ∧ s.enterDusk.fld Reg.pwrDuskStat 31 29 = 1 ∧ s.enterDusk.bit Reg.staAdmitCtrl 0 = false ∧
      s.enterDusk.pendMode = none ∧ s.enterDusk.drainMode = s.mode ∧ s.enterDusk.m = s.m := by
  obtain ⟨h1, h2, h3⟩ := s.beginDrain_spec
  obtain ⟨a1, a2⟩ := s.beginDrain.stopLog_frame
  obtain ⟨b1, b2⟩ := ClustersOnly.allNoon s.beginDrain.stopLog
  obtain ⟨u, hu⟩ : ∃ u : State, u = { s.beginDrain.stopLog.allNoon with
      mode := .dusk, pendMode := none, duskLap := s.beginDrain.stopLog.allNoon.lap, drainMode := s.mode } := ⟨_, rfl⟩
  have he : s.enterDusk = u.judgeNext := by
    rw [hu]
    rfl
  have hum : u.mode = .dusk := by rw [hu]
  obtain ⟨j1, r, n, x, j2⟩ := State.judgeNext_refused (s := u) (by rw [hum]; rfl)
  have hrd : ∀ q ∈ [Reg.pwrDuskStat, Reg.staAdmitCtrl], s.enterDusk.rd q = s.beginDrain.rd q := fun q hq => by
    have hq' : q.off ∉ [Reg.hostMboxCtl.off] ∧ (∀ c, c < 32 → q.off ≠ (Reg.pwrClStat c).off) ∧ q.off ∉ [Reg.recStat.off] := by
      simp only [List.mem_cons, List.not_mem_nil, or_false] at hq
      rcases hq with rfl | rfl <;>
        exact ⟨by decide, fun c hc => by simp only [Reg.pwrDuskStat, Reg.staAdmitCtrl, Reg.pwrClStat]; omega, by decide⟩
    have hur : u.rd q = s.beginDrain.stopLog.allNoon.rd q := by
      rw [hu]
      rfl
    rw [he, j1 q hq'.1, hur, b2 q hq'.2.1, a2 q hq'.2.2]
  refine ⟨by rw [he, j2, hum], ?_, ?_, by rw [he, j2, hu], by rw [he, j2, hu], ?_⟩
  · rw [State.fld, hrd _ (by simp)]
    exact h3
  · rw [State.bit, State.fld, hrd _ (by simp)]
    exact h2
  · rw [he, j2, hu, b1, a1, h1]

/-! ### DEGRADED (R424, R69) -/

theorem State.enterDegraded_spec (s : State) :
    s.enterDegraded.mode = .degraded ∧ s.enterDegraded.m = s.m ∧ s.enterDegraded.sta = s.sta ∧
      s.enterDegraded.bit Reg.staAdmitCtrl 0 = true ∧ OnlyRegs s s.enterDegraded [Reg.staAdmitCtrl.off] := by
  obtain ⟨u, hu⟩ : ∃ u : State, u = { s.setBit Reg.staAdmitCtrl 0 true with mode := .degraded } := ⟨_, rfl⟩
  have hw : s.enterDegraded = { u with engines := s.enterDegraded.engines } := by
    have hk := foldl_range_keeps (n := 256) (R := fun a b : State => b = { a with engines := b.engines })
      (f := fun s c => if s.flag c then s.wake c else s) (fun _ => rfl) (fun _ _ _ h k => by rw [k, h]) (fun v c _ => by
        split <;> rfl)
    have he : s.enterDegraded = (List.range 256).foldl (fun s c => if s.flag c then s.wake c else s) u := by
      rw [hu]
      rfl
    rw [he]
    exact hk u
  have hset := s.bit_setBit Reg.staAdmitCtrl (show 0 < 32 by decide) true
  have hone := OnlyRegs.setBit s (List.mem_singleton_self Reg.staAdmitCtrl.off) 0 true
  have hregs : s.enterDegraded.regs = (s.setBit Reg.staAdmitCtrl 0 true).regs := by rw [hw, hu]
  obtain ⟨x, hx⟩ : ∃ x, s.setBit Reg.staAdmitCtrl 0 true = { s with regs := x } := ⟨_, s.setBit_frame ..⟩
  exact ⟨by rw [hw, hu], by rw [hw, hu, hx], by rw [hw, hu, hx], (State.bit_congr hregs _ _).trans hset,
    hone.trans (OnlyRegs.of_regs hregs)⟩

/-! ### The entry to a running mode (R504) -/

/-- The registers that the route table shows itself in. -/
def routeOffs : List Nat := [Reg.ringBroken.off, Reg.ringLost.off, Reg.ringStat.off]

theorem State.reroute_frame (s : State) (back : List Nat) :
    s.reroute back = { s with regs := (s.reroute back).regs, ring := (s.reroute back).ring } ∧ OnlyRegs s (s.reroute back) routeOffs := by
  obtain ⟨u, x, n, k, hu, he⟩ : ∃ (u : State) (x : BitVec 32) (n k : Nat), u = { s with ring := u.ring } ∧
      s.reroute back = ((u.wr Reg.ringLost x).setFld Reg.ringStat 31 30 n).setFld Reg.ringStat 29 25 k := ⟨_, _, _, _, rfl, rfl⟩
  have hin : Reg.ringLost.off ∈ routeOffs ∧ Reg.ringStat.off ∈ routeOffs := by simp [routeOffs]
  rw [he]
  refine ⟨?_, ?_⟩
  · rw [State.setFld_frame, State.setFld_frame, State.wr, hu]
  · have hsu : OnlyRegs s u routeOffs := OnlyRegs.of_regs (by rw [hu])
    exact ((hsu.trans (OnlyRegs.wr u hin.1 x)).trans (OnlyRegs.setFld _ hin.2 _ _ _)).trans (OnlyRegs.setFld _ hin.2 _ _ _)

/-- The rows of the Ledger that a Lap opens with, where nothing keeps them closed. -/
theorem State.openAt_open {s : State} (hm : s.mode ≠ .dusk) (hp : s.fld Reg.pwrDuskStat 31 29 = 0) (hr : s.pair.rejoinLap = none)
    (l : Nat) : s.openAt l = s.setRow l s.openRow := by
  rw [State.openAt, decide_eq_false hm, hr, hp]
  rfl

theorem RowsOnly.lap {s t : State} (h : RowsOnly s t) : t.lap = s.lap := by
  rw [RowsOnly] at h
  exact State.lap_congr (by rw [h]) (by rw [h]; rfl)

theorem State.openRow_fresh (s : State) : s.openRow.u = s.uCycles ∧ s.openRow.plc = [] := ⟨rfl, rfl⟩

/-- 256 rows are opened. -/
theorem State.openRows_spec {s : State} (hm : s.mode ≠ .dusk) (hp : s.fld Reg.pwrDuskStat 31 29 = 0) (hr : s.pair.rejoinLap = none) :
    let t := (List.range 256).foldl (fun s i => s.openAt (s.lap + 1 + i)) s
    RowsOnly s t ∧ ∀ i, i < 256 → (t.row (s.lap + 1 + i)).u = s.uCycles ∧ (t.row (s.lap + 1 + i)).plc = [] := by
  have hrow : ∀ (a : State) (i : Nat), RowsOnly a (a.openAt (a.lap + 1 + i)) := fun a i => rfl
  refine ⟨foldl_range_keeps (R := RowsOnly) (f := fun s i => s.openAt (s.lap + 1 + i)) (fun _ => rfl)
    (fun _ _ _ h k => by rw [RowsOnly] at *; rw [k, h]) (fun a i _ => hrow a i) s, fun i hi => ?_⟩
  obtain ⟨u, ⟨hu, -⟩, hv, hvr⟩ := foldl_range_at (n := 256)
    (R := fun a b => RowsOnly a b ∧ (a.lap = s.lap → b.row (s.lap + 1 + i) = a.row (s.lap + 1 + i)))
    (f := fun s i => s.openAt (s.lap + 1 + i)) (fun _ => ⟨rfl, fun _ => rfl⟩)
    (fun a b c ⟨h1, h2⟩ ⟨k1, k2⟩ => ⟨by
      rw [RowsOnly] at *
      rw [k1, h1], fun hl => (k2 (h1.lap.trans hl)).trans (h2 hl)⟩) hi
    (fun a j _ hne => ⟨hrow a j, fun hl => a.row_setRow_ne _ (by rw [hl]; omega)⟩) s
  have hlap : u.lap = s.lap := RowsOnly.lap hu
  have hopen := State.openAt_open (s := u) (by rw [hu]; exact hm) (by rw [hu]; exact hp) (by rw [hu]; exact hr) (u.lap + 1 + i)
  rw [hvr ((hrow u i).lap.trans hlap), hopen, hlap, State.row_setRow]
  obtain ⟨k1, k2⟩ := u.openRow_fresh
  exact ⟨by rw [k1, hu]; rfl, k2⟩

theorem State.wr64_frame (s : State) (r : RegRef) (v : W64) : s.wr64 r v = { s with regs := (s.wr64 r v).regs } := rfl

/-- Nothing differs but registers, memory and the Record Unit, and of memory only what waits. -/
def RecordingOnly (offs : List Nat) (s t : State) : Prop :=
  (∃ r m x, t = { s with regs := r, m := m, recd := x } ∧ m.mem = s.m.mem) ∧ OnlyRegs s t offs

theorem RecordingOnly.trans {offs : List Nat} {s t u : State} (h : RecordingOnly offs s t) (k : RecordingOnly offs t u) :
    RecordingOnly offs s u := by
  obtain ⟨⟨r, m, x, hf, hm⟩, hr⟩ := h
  obtain ⟨⟨r', m', x', kf, km⟩, kr⟩ := k
  exact ⟨⟨r', m', x', by rw [kf, hf], by rw [km, hf, hm]⟩, hr.trans kr⟩

theorem RecordingOnly.of_frame {offs : List Nat} {s t : State} (h : t = { s with regs := t.regs }) (hr : OnlyRegs s t offs) :
    RecordingOnly offs s t :=
  ⟨⟨t.regs, s.m, s.recd, h, rfl⟩, hr⟩

theorem RecordingOnly.logPut (offs : List Nat) (s : State) (off : Nat) (bs : List Byte) : RecordingOnly offs s (s.logPut off bs) := by
  obtain ⟨rs, h, -⟩ := s.logPut_posts off bs
  have hr : (s.logPut off bs).regs = s.regs := by rw [h]
  exact ⟨⟨s.regs, (s.logPut off bs).m, s.recd, by rw [h], by rw [h]⟩, OnlyRegs.of_regs hr⟩

theorem RecordingOnly.recd (offs : List Nat) (s : State) (x : Record) : RecordingOnly offs s { s with recd := x } :=
  ⟨⟨s.regs, s.m, x, rfl, rfl⟩, OnlyRegs.of_regs rfl⟩

/-- The registers that a recording shows itself in. -/
def logOffs : List Nat := [Reg.recStat.off, Reg.recOldest.off, Reg.recOldest.off + 4]

theorem RecordingOnly.startLog (s : State) (first : Nat) : RecordingOnly logOffs s (s.startLog first) := by
  have hstat : Reg.recStat.off ∈ logOffs := by simp [logOffs]
  rw [State.startLog]
  split
  · exact .of_frame rfl (OnlyRegs.refl _ _)
  · split
    · exact .of_frame (s.setBit_frame ..) (OnlyRegs.setBit s hstat 29 true)
    · have hold := OnlyRegs.wr64 (s.setFld Reg.recStat 31 28 1) (show Reg.recOldest.off ∈ logOffs by simp [logOffs])
        (by simp [logOffs]) 0x1000
      exact (((RecordingOnly.of_frame (s.setFld_frame ..) (OnlyRegs.setFld s hstat 31 28 1)).trans
        (.of_frame (State.wr64_frame _ _ _) hold)).trans (.logPut _ _ _ _)).trans (.recd _ _ _)

end Sys2Proof.Machine

namespace Sys2Proof.Machine

/-! ### The entry to a running mode (R504) -/

/-- The running mode is entered; its rows are not open yet. -/
def State.entered (s : State) (m : Mode) : State :=
  let s1 := ((s.wr Reg.ringBroken (BitVec.ofNat 32 s.brokenAtEntry)).reroute []).setBit Reg.staAdmitCtrl 0 true
  { s1 with mode := m, pendMode := none, nextMode := none, runLap := s1.lap }

/-- The rows of the next 256 Laps are opened. -/
def State.openRows (s : State) : State := (List.range 256).foldl (fun s i => s.openAt (s.lap + 1 + i)) s

theorem State.enterRunning_eq (s : State) {m : Mode} (h : m ≠ .replay) :
    ∃ l, s.enterRunning m = ((s.entered m).openRows.writePosition.writeShutdown false).startLog l := by
  rw [State.enterRunning, if_neg h]
  exact ⟨_, rfl⟩

/-- The registers that the entry to a running mode changes before its rows are opened. -/
def entryOffs : List Nat := [Reg.ringBroken.off, Reg.ringLost.off, Reg.ringStat.off, Reg.staAdmitCtrl.off]

theorem State.entered_spec (s : State) (m : Mode) :
    (s.entered m).mode = m ∧ (s.entered m).pendMode = none ∧ (s.entered m).runLap = s.lap ∧ (s.entered m).m = s.m ∧
      (s.entered m).pair = s.pair ∧ (s.entered m).tb = s.tb ∧ (s.entered m).bit Reg.staAdmitCtrl 0 = true ∧
      OnlyRegs s (s.entered m) entryOffs := by
  obtain ⟨a, ha⟩ : ∃ a, a = s.wr Reg.ringBroken (BitVec.ofNat 32 s.brokenAtEntry) := ⟨_, rfl⟩
  obtain ⟨b, hb⟩ : ∃ b, b = a.reroute [] := ⟨_, rfl⟩
  obtain ⟨c, hc⟩ : ∃ c, c = b.setBit Reg.staAdmitCtrl 0 true := ⟨_, rfl⟩
  have he : s.entered m = { c with mode := m, pendMode := none, nextMode := none, runLap := c.lap } := by
    rw [hc, hb, ha]
    rfl
  obtain ⟨hf, hr⟩ := a.reroute_frame []
  rw [← hb] at hf hr
  have hsub : routeOffs ⊆ entryOffs := by simp [routeOffs, entryOffs]
  have hsc : OnlyRegs s c entryOffs := by
    have h1 : OnlyRegs s a entryOffs := by
      rw [ha]
      exact OnlyRegs.wr s (by simp [entryOffs]) _
    have h3 : OnlyRegs b c entryOffs := by
      rw [hc]
      exact OnlyRegs.setBit b (by simp [entryOffs]) 0 true
    exact (h1.trans (hr.mono hsub)).trans h3
  have hcf : c = { s with regs := c.regs, ring := c.ring } := by
    have hbf : b = { s with regs := b.regs, ring := b.ring } := by rw [hf, ha]; rfl
    rw [hc, State.setBit_frame, hbf]
  have hadm : c.bit Reg.staAdmitCtrl 0 = true := by
    rw [hc]
    exact b.bit_setBit Reg.staAdmitCtrl (by decide) true
  have hlap : c.lap = s.lap := State.lap_congr (by rw [hcf]) (hsc _ (by decide))
  have hregs : (s.entered m).regs = c.regs := by rw [he]
  exact ⟨by rw [he], by rw [he], by rw [he, hlap], by rw [he, hcf], by rw [he, hcf], by rw [he, hcf],
    (State.bit_congr hregs _ _).trans hadm, hsc.trans (OnlyRegs.of_regs hregs)⟩

theorem State.uCycles_congr {s t : State} (h : t.rd Reg.lapCfg = s.rd Reg.lapCfg) : t.uCycles = s.uCycles := by
  have hc : t.cclk = s.cclk := congrArg (fun w : BitVec 32 => bitsOf w.toNat 31 16) h
  exact congrArg (· - 2400) hc

theorem State.enterRunning_spec {s : State} {m : Mode} (hm : m ≠ .dusk) (hn : m ≠ .replay) (hp : s.fld Reg.pwrDuskStat 31 29 = 0)
    (hj : s.pair.rejoinLap = none) :
    let t := s.enterRunning m
    t.mode = m ∧ t.pendMode = none ∧ t.runLap = s.lap ∧ t.bit Reg.staAdmitCtrl 0 = true ∧ t.m.mem = s.m.mem ∧
      ∀ i, i < 256 → (t.row (s.lap + 1 + i)).u = s.uCycles ∧ (t.row (s.lap + 1 + i)).plc = [] := by
  obtain ⟨h1, h2, h3, h4, h5, h6, h7, h8⟩ := s.entered_spec m
  obtain ⟨l, he⟩ := s.enterRunning_eq hn
  generalize s.entered m = u at *
  obtain ⟨hrows, hrow⟩ := State.openRows_spec (s := u) (by rw [h1]; exact hm) ((h8.fld (by decide) _ _).trans hp) (by rw [h5]; exact hj)
  have hlap : u.lap = s.lap := State.lap_congr h6 (h8 _ (by decide))
  have hcyc : u.uCycles = s.uCycles := State.uCycles_congr (h8 _ (by decide))
  obtain ⟨v, hv⟩ : ∃ v, v = u.openRows := ⟨_, rfl⟩
  rw [hlap, hcyc] at hrow
  have hvrow : ∀ i, i < 256 → (v.row (s.lap + 1 + i)).u = s.uCycles ∧ (v.row (s.lap + 1 + i)).plc = [] := by
    rw [hv]
    exact hrow
  have hvf : RowsOnly u v := by
    rw [hv]
    exact hrows
  have hk : KeepOnly v (v.writePosition.writeShutdown false) := (KeepOnly.writePosition v).trans (.writeShutdown _ false)
  rw [← hv] at he
  generalize v.writePosition.writeShutdown false = w at hk he
  obtain ⟨⟨r, m', x, hf, hmem⟩, hr⟩ := RecordingOnly.startLog w l
  have hkf := hk.1
  rw [← he] at hf hr
  have hsta : (s.enterRunning m).sta = v.sta := by rw [hf, hkf]
  rw [RowsOnly] at hvf
  dsimp only
  refine ⟨by rw [hf, hkf, hvf, h1], by rw [hf, hkf, hvf, h2], by rw [hf, hkf, hvf, h3], ?_, ?_, fun i hi => ?_⟩
  · have hvr : v.regs = u.regs := by rw [hvf]
    have hw := hk.bit (r := Reg.staAdmitCtrl) (by decide) 0
    exact (hr.bit (by decide) 0).trans (hw.trans ((State.bit_congr hvr _ _).trans h7))
  · rw [hf]
    exact hmem.trans (by rw [hkf, hvf, h4])
  · rw [State.row, hsta]
    exact hvrow i hi

/-! ### MODE_TRANSITION (R491) -/

theorem exec_modeTransition_pending {s : State} {m : Mode} {l : Nat} (h : s.pendMode = some (m, l)) :
    exec .modeTransition s =
      if s.lap < l then .next s
      else if s.mode = .prep then (if s.prepLap.isSome then .next (s.enterRunning m) else .next s)
      else if !s.mode.running then .next s
      else if m = .dusk then .next s.enterDusk
      else if m = .service ∧ s.fld Reg.pwrDuskStat 31 29 = 0 then .next s.beginDrain
      else .next s := by
  change execModeTransition s = _
  rw [execModeTransition, h]

theorem exec_modeTransition_degrades {s : State} (h : s.pendMode = none) (hd : s.degrades = true) (hb : s.tb % s.lapTicks = 0) :
    exec .modeTransition s = .next s.enterDegraded := by
  change execModeTransition s = _
  rw [execModeTransition, h]
  exact if_pos ⟨hd, hb⟩

theorem Mode.running_ne_prep {m : Mode} (h : m.running = true) : m ≠ .prep := by
  rintro rfl
  exact Bool.false_ne_true h

theorem Mode.running_ne_dusk {m : Mode} (h : m.running = true) : m ≠ .dusk := by
  rintro rfl
  exact Bool.false_ne_true h

theorem modeTransitionsComplete : Claims.ModeTransitionsComplete := by
  refine ⟨fun s m l hpend => ?_, fun s hp hd hb => ?_⟩
  · rw [exec_modeTransition_pending hpend]
    refine ⟨fun h => if_pos h, fun hl hm hprep hr hn hp hj => ?_, fun hl hr hm => ?_, fun hl hr hm hp => ?_⟩
    · rw [if_neg (Nat.not_lt.2 hl), if_pos hm, if_pos (Option.isSome_iff_ne_none.2 hprep)]
      exact ⟨_, rfl, State.enterRunning_spec (Mode.running_ne_dusk hr) hn hp hj⟩
    · obtain ⟨h1, h2, h3, h4, h5, h6⟩ := s.enterDusk_spec
      rw [if_neg (Nat.not_lt.2 hl), if_neg (Mode.running_ne_prep hr), if_neg (by rw [hr]; decide), if_pos hm]
      exact ⟨_, rfl, h1, h2, h3, h4, h5, h6⟩
    · obtain ⟨h1, h2, h3⟩ := s.beginDrain_spec
      rw [if_neg (Nat.not_lt.2 hl), if_neg (Mode.running_ne_prep hr), if_neg (by rw [hr]; decide), if_neg (by rw [hm]; decide),
        if_pos ⟨hm, hp⟩]
      exact ⟨_, rfl, by rw [h1], h3, h2, by rw [h1]⟩
  · obtain ⟨h1, h2, h3, h4, h5⟩ := s.enterDegraded_spec
    exact ⟨_, exec_modeTransition_degrades hp hd hb, h1, h2, h3, h4, h5⟩

end Sys2Proof.Machine

namespace Sys2Proof.Machine

/-! ### The end of PREP (R503, R504) -/

/-- The sum of two to each of some numbers has exactly their bits. -/
theorem testBit_sumPow (p : Nat → Bool) (n : Nat) :
    ((List.range n).filter p).foldl (fun a k => a + 2 ^ k) 0 < 2 ^ n ∧
      ∀ j, j < n → (((List.range n).filter p).foldl (fun a k => a + 2 ^ k) 0).testBit j = p j := by
  induction n with
  | zero => exact ⟨Nat.one_pos, fun j hj => absurd hj (Nat.not_lt_zero j)⟩
  | succ n ih =>
    obtain ⟨hlt, hbit⟩ := ih
    rw [List.range_succ, List.filter_append, List.foldl_append]
    generalize ((List.range n).filter p).foldl (fun a k => a + 2 ^ k) 0 = x at hlt hbit
    have hpow : 2 ^ (n + 1) = 2 ^ n + 2 ^ n := by rw [Nat.pow_succ]; omega
    cases hp : p n with
    | true =>
      have hx : ([n].filter p).foldl (fun a k => a + 2 ^ k) x = 2 ^ n + x := by
        rw [List.filter_cons_of_pos hp]
        exact Nat.add_comm ..
      rw [hx]
      refine ⟨by omega, fun j hj => ?_⟩
      rcases Nat.eq_or_lt_of_le (Nat.le_of_lt_succ hj) with rfl | hjn
      · rw [Nat.testBit_two_pow_add_eq, Nat.testBit_lt_two_pow hlt, hp]
        rfl
      · rw [Nat.testBit_two_pow_add_gt hjn, hbit j hjn]
    | false =>
      have hx : ([n].filter p).foldl (fun a k => a + 2 ^ k) x = x := by
        rw [List.filter_cons_of_neg (by rw [hp]; decide)]
        rfl
      rw [hx]
      refine ⟨by omega, fun j hj => ?_⟩
      rcases Nat.eq_or_lt_of_le (Nat.le_of_lt_succ hj) with rfl | hjn
      · rw [Nat.testBit_lt_two_pow hlt, hp]
      · exact hbit j hjn

/-- Nothing differs but registers, the marks, the links, the pair unit, the Fault Collector and the free values, and no register
at the named places. -/
def StartKept (P : Nat → Prop) (s t : State) : Prop :=
  t = { s with regs := t.regs, blk := t.blk, ring := t.ring, pair := t.pair, flt := t.flt, freeCtr := t.freeCtr } ∧
    ∀ r : RegRef, P r.off → t.rd r = s.rd r

section
variable {P Q : Nat → Prop} {s t u : State}

theorem StartKept.trans (h : StartKept P s t) (k : StartKept P t u) : StartKept P s u :=
  ⟨by rw [k.1, h.1], fun r hr => (k.2 r hr).trans (h.2 r hr)⟩

theorem StartKept.mono (h : StartKept P s t) (hq : ∀ o, Q o → P o) : StartKept Q s t := ⟨h.1, fun r hr => h.2 r (hq _ hr)⟩

theorem StartKept.of_regs {offs : List Nat} (hf : t = { s with regs := t.regs }) (hr : OnlyRegs s t offs) (hp : ∀ o ∈ offs, ¬ P o) :
    StartKept P s t := ⟨by rw [hf], fun r h => hr r fun hm => hp _ hm h⟩

theorem StartKept.setFld (s : State) {r : RegRef} (h : ¬ P r.off) (hi lo v : Nat) : StartKept P s (s.setFld r hi lo v) :=
  .of_regs (s.setFld_frame ..) (OnlyRegs.setFld s (List.mem_singleton_self _) hi lo v) fun o ho => by
    rw [List.mem_singleton.1 ho]
    exact h

end

/-- The registers that the target mode and its Lap follow from, and those that show the channels in use. -/
def targetReads (o : Nat) : Prop := o = Reg.lapCfg.off ∨ o = Reg.ringCfg.off ∨ o = Reg.pairCfg.off

def startReads (o : Nat) : Prop := targetReads o ∨ ∃ n, n < 12 ∧ o = (Reg.ddrStat n).off

theorem not_startReads_staScale (n : Nat) (h : n < 32) : ¬ startReads (Reg.staScale n).off := by
  simp only [startReads, targetReads, Reg.lapCfg, Reg.ringCfg, Reg.pairCfg, Reg.ddrStat, Reg.staScale]
  omega

theorem not_startReads_staCap {o : Nat} (h : o ∈ [Reg.staCapBulk.off, Reg.staCapDir.off, Reg.staCapCxl.off]) : ¬ startReads o := by
  simp only [List.mem_cons, List.not_mem_nil, or_false, Reg.staCapBulk, Reg.staCapDir, Reg.staCapCxl] at h
  simp only [startReads, targetReads, Reg.lapCfg, Reg.ringCfg, Reg.pairCfg, Reg.ddrStat]
  rintro (_ | ⟨n, -, _⟩) <;> omega

theorem startReads_notMem_faultOffs {o : Nat} (h : startReads o) : o ∉ faultOffs := by
  have ho : o < 0x800000 ∨ o = 0x800000 ∨ o = 0x900000 := by
    simp only [startReads, targetReads, Reg.lapCfg, Reg.ringCfg, Reg.pairCfg, Reg.ddrStat] at h
    rcases h with _ | ⟨n, _, _⟩ <;> omega
  simp only [faultOffs, Reg.ringCntDrop, Reg.fltCntFwd, Reg.fltCntCoal, Reg.fltStat, Reg.pairStat, Reg.pairHandoffLap, Reg.fltOvf,
    List.mem_append, List.mem_cons, List.not_mem_nil, or_false, List.mem_map, List.mem_range, not_or, not_exists, not_and]
  exact ⟨by omega, fun c _ => by omega⟩

/-- A resource's capacity is scaled. -/
def State.scaleCap (s : State) (x : Nat × Nat) (r : RegRef) (hi : Nat) : State :=
  if x.1 = 0 then s else s.setFld r hi 0 (s.fld r hi 0 * x.2 / x.1)

theorem StartKept.scaleCap (s : State) (x : Nat × Nat) {r : RegRef}
    (hr : r.off ∈ [Reg.staCapBulk.off, Reg.staCapDir.off, Reg.staCapCxl.off])
    (hi : Nat) : StartKept startReads s (s.scaleCap x r hi) ∧ (s.scaleCap x r hi).blk = s.blk := by
  rw [State.scaleCap]
  split
  · exact ⟨⟨rfl, fun _ _ => rfl⟩, rfl⟩
  · exact ⟨.setFld s (not_startReads_staCap hr) .., by rw [State.setFld_frame]⟩

theorem State.scaleCaps_eq (s : State) : ∃ a b c sc ws, ∃ u : State,
    u = ((s.scaleCap a Reg.staCapBulk 23).scaleCap b Reg.staCapDir 19).scaleCap c Reg.staCapCxl 23 ∧
      s.scaleCaps = (u.setFld (Reg.staScale s.pos) 16 0 sc).sendCtl ws := ⟨_, _, _, _, _, _, rfl, rfl⟩

theorem State.pos_lt (s : State) : s.pos < 32 := bitsOf_lt _ 4 0

theorem StartKept.scaleCaps (s : State) : StartKept startReads s s.scaleCaps ∧ s.scaleCaps.blk = s.blk := by
  obtain ⟨a, b, c, sc, ws, u, hu, he⟩ := s.scaleCaps_eq
  obtain ⟨h1, k1⟩ := StartKept.scaleCap s a (r := Reg.staCapBulk) (by simp) 23
  obtain ⟨h2, k2⟩ := StartKept.scaleCap (s.scaleCap a Reg.staCapBulk 23) b (r := Reg.staCapDir) (by simp) 19
  obtain ⟨h3, k3⟩ := StartKept.scaleCap ((s.scaleCap a Reg.staCapBulk 23).scaleCap b Reg.staCapDir 19) c (r := Reg.staCapCxl) (by simp) 23
  rw [← hu] at h3 k3
  have h4 : StartKept startReads u (u.setFld (Reg.staScale s.pos) 16 0 sc) :=
    .setFld u (not_startReads_staScale _ s.pos_lt) ..
  have k4 : (u.setFld (Reg.staScale s.pos) 16 0 sc).blk = u.blk := by rw [State.setFld_frame]
  rw [he]
  generalize u.setFld (Reg.staScale s.pos) 16 0 sc = v at h4 k4
  obtain ⟨hf, hr, -⟩ := FaultOnly.sendCtl v ws
  refine ⟨(((h1.trans h2).trans h3).trans h4).trans ⟨by rw [hf], fun r h => hr r (startReads_notMem_faultOffs h)⟩, ?_⟩
  rw [hf]
  exact k4.trans (k3.trans (k2.trans k1))

theorem StartKept.writeSeeds (s : State) : StartKept startReads s s.writeSeeds ∧ s.writeSeeds.blk = s.blk := by
  obtain ⟨n, hf, hr⟩ := s.writeSeeds_frame
  refine ⟨⟨by rw [hf], fun r h => hr r ?_⟩, by rw [hf]⟩
  simp only [startReads, targetReads, Reg.lapCfg, Reg.ringCfg, Reg.pairCfg, Reg.ddrStat] at h
  rcases h with _ | ⟨n, _, _⟩ <;> omega

theorem StartKept.takePartner (P : Nat → Prop) (s : State) (o : PrepOutcome) : StartKept P s (s.takePartner o) := by
  rw [State.takePartner]
  split <;> exact ⟨rfl, fun _ _ => rfl⟩

end Sys2Proof.Machine

namespace Sys2Proof.Machine

/-- A channel shows whether it is in use. -/
def State.showDdr (s : State) (ok : List Nat) (e : BitVec 12) (n : Nat) : State :=
  ((s.setBit (Reg.ddrStat n) 0 (ok.contains n)).setBit (Reg.ddrStat n) 1 (!ok.contains n)).setBit (Reg.ddrStat n) 3 (e.getLsbD n)

theorem State.showDdr_spec (s : State) (ok : List Nat) (e : BitVec 12) (n : Nat) :
    s.showDdr ok e n = { s with regs := (s.showDdr ok e n).regs } ∧ OnlyRegs s (s.showDdr ok e n) [(Reg.ddrStat n).off] ∧
      (s.showDdr ok e n).bit (Reg.ddrStat n) 0 = ok.contains n ∧ (s.showDdr ok e n).bit (Reg.ddrStat n) 1 = !ok.contains n := by
  have hset : ∀ (u : State) b v, OnlyRegs u (u.setBit (Reg.ddrStat n) b v) [(Reg.ddrStat n).off] := fun u b v =>
    OnlyRegs.setBit u (List.mem_singleton_self _) b v
  rw [State.showDdr]
  refine ⟨by rw [State.setBit_frame, State.setBit_frame, State.setBit_frame],
    ((hset s 0 _).trans (hset _ 1 _)).trans (hset _ 3 _), ?_, ?_⟩
  · rw [State.bit_setBit_apart _ _ (by decide) (by decide), State.bit_setBit_apart _ _ (by decide) (by decide),
      State.bit_setBit _ _ (by decide)]
  · rw [State.bit_setBit_apart _ _ (by decide) (by decide), State.bit_setBit _ _ (by decide)]

theorem State.trainMemory_eq (s : State) (o : PrepOutcome) : ∃ u : State, u = { s with blk := u.blk } ∧
    u.blk.ddrOk = BitVec.ofNat 12 ((s.trainedDdr o).foldl (fun a n => a + 2 ^ n) 0) ∧
    s.trainMemory o = s.ddrEn.foldl (fun t n => t.showDdr (s.trainedDdr o) o.ecsHigh n) u := ⟨_, rfl, rfl, rfl⟩

/-- The channels that train are among the twelve. -/
theorem State.trainedDdr_eq (s : State) (o : PrepOutcome) : ∃ p, s.trainedDdr o = (List.range 12).filter p := by
  rw [State.trainedDdr, State.ddrEn, List.filter_filter, List.filter_filter]
  exact ⟨_, rfl⟩

theorem ddrStat_ne {n k : Nat} (h : n ≠ k) : (Reg.ddrStat n).off ≠ (Reg.ddrStat k).off := by
  simp only [Reg.ddrStat]
  omega

/-- What training shows. -/
theorem State.trainMemory_spec (s : State) (o : PrepOutcome) :
    let t := s.trainMemory o
    StartKept targetReads s t ∧ ∀ n, n < 12 → s.img.addr0.getLsbD (4 + n) = true →
      t.bit (Reg.ddrStat n) 0 = t.blk.ddrOk.getLsbD n ∧ t.bit (Reg.ddrStat n) 1 = !t.blk.ddrOk.getLsbD n := by
  obtain ⟨u, hu, hok, he⟩ := s.trainMemory_eq o
  obtain ⟨p, hp⟩ := s.trainedDdr_eq o
  generalize s.trainedDdr o = ok at *
  have hokb : ∀ n, n < 12 → u.blk.ddrOk.getLsbD n = ok.contains n := fun n hn => by
    have hbit := (testBit_sumPow p 12).2 n hn
    rw [hok, hp, BitVec.getLsbD_ofNat, hbit, decide_eq_true hn, List.contains_eq_mem, mem_range_filter hn]
    rfl
  have hfold : s.trainMemory o =
      (List.range 12).foldl (fun t n => if s.img.addr0.getLsbD (4 + n) then t.showDdr ok o.ecsHigh n else t) u := by
    rw [he, State.ddrEn, List.foldl_filter]
  have hstep : ∀ (t : State) n, n < 12 → StartKept targetReads t (if s.img.addr0.getLsbD (4 + n) then t.showDdr ok o.ecsHigh n else t) :=
    fun t n hn => by
      split
      · obtain ⟨h1, h2, -⟩ := t.showDdr_spec ok o.ecsHigh n
        refine .of_regs h1 h2 fun q hq => ?_
        rw [List.mem_singleton.1 hq]
        simp only [targetReads, Reg.lapCfg, Reg.ringCfg, Reg.pairCfg, Reg.ddrStat]
        omega
      · exact ⟨rfl, fun _ _ => rfl⟩
  have hall : StartKept targetReads u (s.trainMemory o) := by
    rw [hfold]
    exact foldl_range_keeps (fun _ => ⟨rfl, fun _ _ => rfl⟩) (fun _ _ _ => .trans) hstep u
  have hsu : StartKept targetReads s u := by
    rw [hu]
    exact ⟨rfl, fun _ _ => rfl⟩
  have hblk : (s.trainMemory o).blk = u.blk := by
    rw [hfold]
    refine foldl_range_keeps (R := fun a b => b.blk = a.blk) (fun _ => rfl) (fun _ _ _ h k => k.trans h) (fun t n _ => ?_) u
    split
    · rw [(t.showDdr_spec ok o.ecsHigh n).1]
    · rfl
  refine ⟨hsu.trans hall, fun n hn hb => ?_⟩
  obtain ⟨v, -, hv⟩ := foldl_range_at (R := fun a b => b.rd (Reg.ddrStat n) = a.rd (Reg.ddrStat n)) (fun _ => rfl)
    (fun _ _ _ h k => k.trans h) hn
    (f := fun t n => if s.img.addr0.getLsbD (4 + n) then t.showDdr ok o.ecsHigh n else t) (fun t i _ hne => by
      split
      · exact (t.showDdr_spec ok o.ecsHigh i).2.1 _ (by rw [List.mem_singleton]; exact ddrStat_ne hne.symm)
      · rfl) u
  rw [← hfold, if_pos hb] at hv
  obtain ⟨-, -, h0, h1⟩ := v.showDdr_spec ok o.ecsHigh n
  have hbits : ∀ b, (s.trainMemory o).bit (Reg.ddrStat n) b = (v.showDdr ok o.ecsHigh n).bit (Reg.ddrStat n) b := fun b => by
    rw [State.bit, State.bit, State.fld, State.fld, hv]
  rw [hbits, hbits, hblk, hokb n hn]
  exact ⟨h0, h1⟩

/-- The running mode that the configuration asks for. -/
def State.wantsMode (s : State) : Mode :=
  if s.ringSize = 0 then .solo
  else if s.fld Reg.pairCfg 1 0 = 0 then .ring else if s.fld Reg.pairCfg 1 0 = 1 then .lead else .trail

theorem State.setTarget_free {s : State} (hr : s.replayFlag = false) (hp : s.pendMode = none) :
    s.setTarget = { s with pendMode := some (s.wantsMode, s.startLap) } := by
  rw [State.setTarget, hr, if_neg Bool.false_ne_true, hp]
  have hm : ∀ n : Nat, (match n with | 0 => Mode.ring | 1 => .lead | _ => .trail) =
      if n = 0 then .ring else if n = 1 then .lead else .trail := fun n => by
    match n with
    | 0 => rfl
    | 1 => rfl
    | n + 2 => rfl
  rw [State.wantsMode, ← hm] <;> rfl

theorem exec_prepComplete {s : State} {o : PrepOutcome} (hm : s.mode = .prep) (hl : s.prepLap = none)
    (hr : (o.limit || s.portsReady) = true) : ∃ u, u = (((s.takePartner o).trainMemory o).scaleCaps).writeSeeds ∧
      exec (.prepComplete o) s = .next ({ u with prepLap := some u.lap } : State).setTarget := by
  refine ⟨_, rfl, ?_⟩
  change execPrepComplete o s = _
  rw [execPrepComplete, hm, hl, hr, if_neg (by decide)]

theorem prepEndComplete : Claims.PrepEndComplete := by
  intro s o hm hl hf hp hr
  obtain ⟨u, hu, he⟩ := exec_prepComplete hm hl (by rw [Bool.or_eq_true]; exact hr)
  have ha := StartKept.takePartner targetReads s o
  have hai : (s.takePartner o).img = s.img := by rw [ha.1]
  obtain ⟨hb, hddr⟩ := (s.takePartner o).trainMemory_spec o
  rw [hai] at hddr
  generalize (s.takePartner o).trainMemory o = v at hu hb hddr
  obtain ⟨hc, hcb⟩ := StartKept.scaleCaps v
  obtain ⟨hd, hdb⟩ := StartKept.writeSeeds v.scaleCaps
  rw [← hu] at hd hdb
  have hvu := hc.trans hd
  obtain ⟨hsf, hsr⟩ := (ha.trans hb).trans (hvu.mono fun _ => .inl)
  have hblk : u.blk = v.blk := hdb.trans hcb
  have hlap : u.lap = s.lap := State.lap_congr (by rw [hsf]) (hsr _ (.inl rfl))
  have hring : u.ringSize = s.ringSize := by
    rw [State.ringSize, State.ringSize, State.fld, State.fld, hsr Reg.ringCfg (.inr (.inl rfl))]
  have hpair : u.fld Reg.pairCfg 1 0 = s.fld Reg.pairCfg 1 0 := by
    rw [State.fld, State.fld, hsr Reg.pairCfg (.inr (.inr rfl))]
  have hbits : ∀ n b, n < 12 → u.bit (Reg.ddrStat n) b = v.bit (Reg.ddrStat n) b := fun n b hn => by
    rw [State.bit, State.bit, State.fld, State.fld, hvu.2 (Reg.ddrStat n) (.inr ⟨n, hn, rfl⟩)]
  obtain ⟨w, hw⟩ : ∃ w : State, w = { u with prepLap := some u.lap } := ⟨_, rfl⟩
  have hwt := State.setTarget_free (s := w) (by rw [hw, hsf]; exact hf) (by rw [hw, hsf]; exact hp)
  have hwm : w.wantsMode = u.wantsMode := by rw [hw]; rfl
  have hws : w.startLap = u.startLap := by rw [hw]; rfl
  rw [he, ← hw, hwt]
  refine ⟨_, rfl, by rw [hw, hsf]; exact hm, by rw [hw, hlap], by rw [hw, hsf], ?_, fun n hn hn' => ?_⟩
  · rw [hwm, hws, State.wantsMode, State.startLap, hring, hpair, hlap]
  · obtain ⟨h0, h1⟩ := hddr n hn hn'
    have hreg : ({ w with pendMode := some (w.wantsMode, w.startLap) } : State).regs = u.regs := by rw [hw]
    have hwb : w.blk = v.blk := by rw [hw, hblk]
    rw [State.bit_congr hreg, State.bit_congr hreg, hbits n 0 hn, hbits n 1 hn]
    dsimp only
    rw [hwb]
    exact ⟨h0, h1⟩

end Sys2Proof.Machine

namespace Sys2Proof.Machine

/-! ### DAWN (R498, R502, R515) -/

theorem State.img_enterService (s : State) : s.enterService.img = s.img := by
  have hclear : ∀ (l : List Nat) (u : State), (l.foldl (fun s e => s.clearPlace e) u).img = u.img := by
    intro l
    induction l with
    | nil => exact fun _ => rfl
    | cons e l ih =>
      intro u
      rw [List.foldl_cons, ih, (u.clearPlace_frame e).1]
  obtain ⟨a, ha⟩ : ∃ a, a = (((s.setBit Reg.staAdmitCtrl 0 false).portOff 0).portOff 1).portOff 2 := ⟨_, rfl⟩
  have hs : a.img = s.img := by
    rw [ha, (State.portOff_frame _ 2).1, (State.portOff_frame _ 1).1, (State.portOff_frame _ 0).1, State.setBit_frame]
  have he : s.enterService.img = ((a.listed.filter (fun e => e < 512)).foldl (fun s e => s.clearPlace e) a).img := by
    rw [ha]
    rfl
  rw [he, hclear, hs]

/-- PREP is entered with a copy in use. -/
def PrepEntered (c : Nat) (t : State) : Prop :=
  t.mode = .prep ∧ t.stew.up = true ∧ t.stew.halted = false ∧ t.ring.bypass = .opening ∧ t.img.loaded = c ∧ t.pwr.expPerstN = true

/-- SERVICE is entered. -/
def ServiceEntered (t : State) : Prop := t.mode = .service ∧ t.bit Reg.staAdmitCtrl 0 = false ∧ ∀ p, p < 3 → t.lts p = 0

theorem State.enterService_entered (s : State) : ServiceEntered s.enterService := by
  obtain ⟨h1, h2⟩ := s.enterService_shows
  exact ⟨s.enterService_frame.1, h1, h2⟩

theorem State.enterPrep_entered (s : State) : PrepEntered s.img.loaded s.enterPrep := by
  obtain ⟨u, hu, he⟩ : ∃ u : State, u.img = s.img ∧ s.enterPrep = { u with
      mode := .prep
      ring := { u.ring with bypass := .opening }
      pwr := { u.pwr with expPerstN := true }
      stew := { u.stew with up := true, halted := false, kickLap := u.lap, lastExpiry := none } } := by
    refine ⟨if s.bit Reg.evtCfg 0 then (s.setEng steward { Engine.init with running := true }).wr Reg.evtGroupEn
      (BitVec.ofNat 32 (s.fld Reg.evtCfg 31 16)) else s.setEng steward { Engine.init with running := true }, ?_, rfl⟩
    split <;> rfl
  rw [he]
  exact ⟨rfl, rfl, rfl, rfl, by rw [← hu], rfl⟩

/-- An unclean shutdown is followed by Test; its new marks are written down. -/
def State.retest (s : State) (o : DawnOutcome) : State :=
  let t := (s.selfTest o.signatures o.badBanks).setBit Reg.dawnStat 9 true
  if t.blk.unsaved then t.writeBadblock else t

theorem State.img_retest (s : State) (o : DawnOutcome) : (s.retest o).img = s.img := by
  obtain ⟨hf, -⟩ := s.selfTest_spec o.signatures o.badBanks
  rw [State.retest]
  generalize s.selfTest o.signatures o.badBanks = u at hf
  have hu : (u.setBit Reg.dawnStat 9 true).img = s.img := by rw [State.setBit_frame, hf]
  generalize u.setBit Reg.dawnStat 9 true = v at hu
  split
  · obtain ⟨w, x, ⟨hw, -⟩, he⟩ := v.writeBadblock_frame
    rw [he]
    change w.img = _
    rw [hw]
    exact hu
  · exact hu

theorem State.acceptCopy_entered (s : State) (c : Nat) (o : DawnOutcome) : PrepEntered c (s.acceptCopy c o) := by
  obtain ⟨b, v, hv, he⟩ : ∃ (b : Bool) (v : State), v.img.loaded = c ∧
      s.acceptCopy c o = (if b then v else v.retest o).enterPrep := ⟨_, _, rfl, rfl⟩
  have hl : (if b then v else v.retest o).img.loaded = c := by
    split
    · exact hv
    · rw [v.img_retest o]
      exact hv
  rw [he, ← hl]
  exact State.enterPrep_entered _

/-- Dawn ends in PREP with one of the copies tried, or in SERVICE. -/
theorem State.tryCopies_entered (s : State) (o : DawnOutcome) (l : List Nat) :
    (∃ c ∈ l, PrepEntered c (s.tryCopies o l)) ∨ ServiceEntered (s.tryCopies o l) := by
  induction l generalizing s with
  | nil => exact .inr s.enterService_entered
  | cons c l ih =>
    rw [State.tryCopies]
    split
    · exact .inl ⟨c, List.mem_cons_self, State.acceptCopy_entered _ c o⟩
    · rcases ih (s.setReason c _) with ⟨d, hd, h⟩ | h
      · exact .inl ⟨d, List.mem_cons_of_mem _ hd, h⟩
      · exact .inr h

theorem State.copies_subset (s : State) (o : DawnOutcome) : ∀ c ∈ (s.copies o).2.2, c ∈ [1, 2] := by
  intro c hc
  have hm : c ∈ if seqNewer (s.imgSeq 2) (s.imgSeq 1) then [2, 1] else [1, 2] := List.mem_of_mem_filter hc
  split at hm <;> simp only [List.mem_cons, List.not_mem_nil, or_false] at hm ⊢
  · exact hm.symm
  · exact hm

/-- Where the flash cannot be read, no copy is tried. -/
theorem State.copies_unread (s : State) {o : DawnOutcome} (h : o.sfdpOk = false) : s.copies o = (3, 3, []) := by
  rw [State.copies, h]
  have hnone : ∀ l : List Nat, l.filter (fun c => decide ((if c = 1 then 3 else 3) = 0)) = [] := fun l => by simp
  exact congrArg (fun l => (3, 3, l)) (hnone _)

/-- The state in which Dawn tries the copies. -/
def State.dawned (s : State) (o : DawnOutcome) : State :=
  (s.takeBadblock.setFld Reg.supClkStat 1 0 3).setBit Reg.dawnStat 8 (o.sfdpOk && o.octal)

theorem exec_dawn {s : State} (h : s.mode = .dawn) (o : DawnOutcome) : ∃ u, u = s.dawned o ∧
    exec (.dawn o) s = .next (((u.setReason 1 (u.copies o).1).setReason 2 (u.copies o).2.1).tryCopies o (u.copies o).2.2) :=
  ⟨_, rfl, if_neg (fun hne => hne h)⟩

theorem exec_dawn_elsewhere {s : State} (h : s.mode ≠ .dawn) (o : DawnOutcome) : exec (.dawn o) s = .next s := if_pos h

theorem State.setReasons_spec (s : State) {a b : Nat} (ha : a < 256) (hb : b < 256) :
    let t := (s.setReason 1 a).setReason 2 b
    t.fld Reg.dawnStat 23 16 = a ∧ t.fld Reg.dawnStat 31 24 = b ∧ t.bit Reg.dawnStat 8 = s.bit Reg.dawnStat 8 ∧ t.img = s.img := by
  have he : (s.setReason 1 a).setReason 2 b = (s.setFld Reg.dawnStat 23 16 a).setFld Reg.dawnStat 31 24 b := by
    rw [State.setReason, State.setReason, if_pos rfl, if_neg (by decide)]
  dsimp only
  rw [he]
  refine ⟨?_, ?_, ?_, by rw [State.setFld_frame, State.setFld_frame]⟩
  · rw [State.fld_setFld_apart _ _ (by decide) (by decide) (.inl (by decide)), State.fld_setFld _ _ (by decide) (by decide)]
    exact Nat.mod_eq_of_lt ha
  · rw [State.fld_setFld _ _ (by decide) (by decide)]
    exact Nat.mod_eq_of_lt hb
  · rw [State.bit, State.bit, State.fld_setFld_apart _ _ (by decide) (by decide) (.inl (by decide)),
      State.fld_setFld_apart _ _ (by decide) (by decide) (.inl (by decide))]

theorem State.dawned_spec (s : State) (o : DawnOutcome) :
    (s.dawned o).img = s.img ∧ (s.dawned o).bit Reg.dawnStat 8 = (o.sfdpOk && o.octal) := by
  refine ⟨?_, State.bit_setBit _ _ (by decide) _⟩
  have ht : s.takeBadblock.img = s.img := by rw [State.takeBadblock]
  rw [State.dawned]
  generalize s.takeBadblock = u at ht
  have hu : (u.setFld Reg.supClkStat 1 0 3).img = u.img := by rw [State.setFld_frame]
  generalize u.setFld Reg.supClkStat 1 0 3 = v at hu
  rw [State.setBit_frame]
  exact hu.trans ht

theorem State.enterService_reasons (s : State) :
    (∀ hi lo, s.enterService.fld Reg.dawnStat hi lo = s.fld Reg.dawnStat hi lo) ∧
      ∀ b, s.enterService.bit Reg.dawnStat b = s.bit Reg.dawnStat b := by
  obtain ⟨-, -, -, hr⟩ := s.enterService_frame
  exact ⟨fun hi lo => hr.fld (by decide) hi lo, fun b => hr.bit (by decide) b⟩

theorem dawnComplete : Claims.DawnComplete := by
  refine ⟨fun s o hm => ?_, fun s o h => exec_dawn_elsewhere h o⟩
  obtain ⟨u, hu, he⟩ := exec_dawn hm o
  refine ⟨_, he, ?_, fun hno => ?_⟩
  · rcases State.tryCopies_entered ((u.setReason 1 (u.copies o).1).setReason 2 (u.copies o).2.1) o (u.copies o).2.2 with
      ⟨c, hc, h1, h2, h3, h4, h5, h6⟩ | h
    · exact .inl ⟨h1, h2, h3, h4, by rw [h5]; exact u.copies_subset o c hc, h6⟩
    · exact .inr h
  · obtain ⟨himg, hoct⟩ := s.dawned_spec o
    rw [← hu] at himg hoct
    rw [u.copies_unread hno]
    obtain ⟨ha, hb, hc, hd⟩ := u.setReasons_spec (a := 3) (b := 3) (by decide) (by decide)
    change ((u.setReason 1 3).setReason 2 3).enterService.mode = _ ∧ ((u.setReason 1 3).setReason 2 3).enterService.fld _ _ _ = _ ∧
      ((u.setReason 1 3).setReason 2 3).enterService.fld _ _ _ = _ ∧ ((u.setReason 1 3).setReason 2 3).enterService.bit _ _ = _ ∧
      ((u.setReason 1 3).setReason 2 3).enterService.img = _
    generalize (u.setReason 1 3).setReason 2 3 = v at ha hb hc hd
    obtain ⟨hf, hbit⟩ := v.enterService_reasons
    refine ⟨v.enterService_frame.1, (hf 23 16).trans ha, (hf 31 24).trans hb, ?_, (v.img_enterService).trans (hd.trans himg)⟩
    rw [hbit, hc, hoct, hno]
    rfl

/-- Settles O55: each transition of mode is taken apart into the steps that it is made of, and what each of them changes. -/
theorem modesComplete : Obligations.ModesComplete :=
  ⟨dawnComplete, prepEndComplete, modeTransitionsComplete, duskComplete⟩

end Sys2Proof.Machine
